-- ==== Sys2Proof/Word.lean ====
section
/-!
DEFINITION. The instruction word, the byte and the plainest bit-field operations (07: R136, 00: R2).
-/

namespace Sys2Proof

/-- An instruction word is 32 bits wide (07: R136). -/
abbrev Word := BitVec 32

/-- One byte of memory. -/
abbrev Byte := BitVec 8

end Sys2Proof
end

