-- ==== Sys2Proof/Syntax.lean ====
section
/-!
DEFINITION. The instructions as typed terms: one constructor per row of spec/opcode_table.json. Register fields stay
6-bit patterns (07: R140), since xi can rename them (02: R41); every field that the spec enumerates is a type with
exactly the values the spec assigns, so that a reserved value cannot be written down.
-/

namespace Sys2Proof

/-- The conditions of 07: R142; code 15 is reserved and has no constructor. -/
inductive Cond where
  | al | eq | ne | lt | ge | le | gt | lo | hs | ls | hi | mi | pl | vs | vc
  deriving DecidableEq, Repr

/-- A guard: bits 5:4 a condition register, bits 3:0 a condition (07: R142). -/
structure Guard where
  /-- c0 to c3. -/
  creg : BitVec 2
  /-- The condition evaluated on its flags. -/
  cond : Cond
  deriving DecidableEq, Repr

/-- The scopes of 07: R154, 04: R89; codes 12 to 15 are reserved. -/
inductive Scope where
  | thread | group | wg | core | gang | cluster | die | device | host | pool | peer | system
  deriving DecidableEq, Repr

/-- The orderings of 07: R154. -/
inductive Ord where
  | rlx | acq | rel | acqrel
  deriving DecidableEq, Repr

/-- The kinds of fence (11: R215); kind 0 is reserved. -/
inductive FenceKind where
  | acq | rel | full
  deriving DecidableEq, Repr

/-- The format codes of cvt (10: R196). -/
inductive CvtFmt where
  | f32 | f64 | f16 | bf16 | e4m3 | e5m2 | i32 | n32
  deriving DecidableEq, Repr

/-- The forms of cvtsr (10: R199). -/
inductive CvtsrForm where
  | bf16 | f16 | bf16x2 | f16x2
  deriving DecidableEq, Repr

/-- The operations of scan (10: R203). -/
inductive ScanOp where
  | iadd | iaddX | fadd | faddX | imin | imax
  deriving DecidableEq, Repr

/-- The size codes of ld.probe (11: R209). -/
inductive ProbeSize where
  | n8 | n16 | n32 | n64 | n128
  deriving DecidableEq, Repr

/-- How lread names its lane (12: R225). -/
inductive LaneSel where
  | imm (k : BitVec 5)
  | reg (b : BitVec 6)
  deriving DecidableEq, Repr

/-- The conditions of sleep (12: R233). -/
inductive SleepCond where
  | eq | ne | lo | hs
  deriving DecidableEq, Repr

/-- The variants of copy (13: R246, R252); 3 is reserved. -/
inductive CopyVar where
  | plain | x24 | slant
  deriving DecidableEq, Repr

/-- The mma format codes (13: R246): those of R196 below 6, and 8 for q4. -/
inductive MmaFmt where
  | f32 | f64 | f16 | bf16 | e4m3 | e5m2 | q4
  deriving DecidableEq, Repr

/-- The special registers of 12: R243. -/
inductive SpecReg where
  | laneid | grpid | wgidX | wgidY | gangid | wgidZ | cluid | dieid | devid
  | time | cycle | seed | prio | rootslot | tvec | xi
  | chwp (n : BitVec 3)
  | lcr (n : BitVec 3)
  | trapcode | trappc | tretpc | trapaddr | trapmask | trapinfo | trapcur
  | role (n : BitVec 8)
  deriving DecidableEq, Repr

/-- The special registers that swrite may write (12: R243). -/
inductive WSpecReg where
  | tvec | tretpc
  | lcr (n : BitVec 3)
  deriving DecidableEq, Repr

/-- What an error response is for, as the violation log tells it (23: R384 to R387): a check of the MAC or of the counters that fails
and a port that is down are integrity; data poisoned at a hand-over; any other. -/
inductive ErrorKind where
  | access | integrity | poison
  deriving DecidableEq, Repr

/-- What the home, or a peer beyond the import window, answers to one access (05: R98, 23: R384): done, with the value a
peer returned (a local home's value is read from memory), or an error response. -/
inductive Reply where
  | done (v : BitVec 64)
  | error (kind : ErrorKind)
  deriving DecidableEq, Repr

/-- What agents outside the device supply to an engine command: the bytes peers return, in the order the command reads
them, and whether a peer or a home answers with an error response (23: R384, 21: R372). -/
structure EngineReply where
  /-- Bytes that peers return. -/
  bytes : List Byte
  /-- An error response ends the command, after so many accesses of the step. -/
  error : Option (ErrorKind × Nat)
  /-- The peers that the command reaches have not answered yet. -/
  silent : Bool
  /-- The device to which a port was lost: the command's accesses to it in flight get an error response (23: R388). -/
  lost : Option (BitVec 22) := none
  deriving DecidableEq, Repr

/-- A PTP message as it reaches a port (23: R389): the port, the message's PTP domain and the reference time it gives, in ns. -/
structure PtpMessage where
  port : Nat
  domain : Nat
  reference : Nat
  deriving DecidableEq, Repr

/-- What the package measures (23: R390): its power in watts and the junction temperature in degrees Celsius. -/
structure PowerReading where
  watts : Nat
  celsius : Nat
  deriving DecidableEq, Repr

/-- The kinds of access a peer requests (21: R372). -/
inductive PeerAccess where
  | load
  | store (data : BitVec 64)
  | add (data : BitVec 64)
  | min (signed : Bool) (data : BitVec 64)
  | max (signed : Bool) (data : BitVec 64)
  | band (data : BitVec 64)
  | bor (data : BitVec 64)
  | bxor (data : BitVec 64)
  | swap (data : BitVec 64)
  | cas (cmp new : BitVec 64)
  | fadd (launch wgid thread ordinal : Nat) (data : BitVec 64)
  deriving DecidableEq, Repr

/-- A request that reaches the exporter's ingress (21: R372). -/
structure PeerRequest where
  /-- The importer's device identifier. -/
  importer : BitVec 22
  /-- Export slot named. -/
  slot : Nat
  /-- Key presented. -/
  key : BitVec 64
  /-- A KV request, which names a block. -/
  kv : Bool
  /-- Block of a KV request. -/
  block : Nat
  /-- Offset. -/
  off : Nat
  /-- Size in bytes: 1, 2, 4 or 8. -/
  size : Nat
  /-- What the request does. -/
  access : PeerAccess
  /-- The Molod port that it arrives on. -/
  port : Nat
  deriving DecidableEq, Repr

/-- The instructions: rows 0 to 210 of spec/opcode_table.json are the 32-bit words (07: R136 to R140), rows 211 to
304 the steps without an encoding (95), whose operands are what the rule of the row names. -/
inductive Instr where
  /-- IADD, R168. -/
  | iadd (g : Guard) (d : BitVec 6) (a : BitVec 6) (b : BitVec 6)
  /-- IADDI, R168. -/
  | iaddi (g : Guard) (d : BitVec 6) (a : BitVec 6) (imm : BitVec 6)
  /-- ISUB, R168. -/
  | isub (g : Guard) (d : BitVec 6) (a : BitVec 6) (b : BitVec 6)
  /-- IADC, R169. -/
  | iadc (g : Guard) (d : BitVec 6) (a : BitVec 6) (b : BitVec 6)
  /-- ISBB, R169. -/
  | isbb (g : Guard) (d : BitVec 6) (a : BitVec 6) (b : BitVec 6)
  /-- IMUL, R170. -/
  | imul (g : Guard) (d : BitVec 6) (a : BitVec 6) (b : BitVec 6)
  /-- IMULH, R170. -/
  | imulh (g : Guard) (d : BitVec 6) (a : BitVec 6) (b : BitVec 6)
  /-- IMULHU, R170. -/
  | imulhu (g : Guard) (d : BitVec 6) (a : BitVec 6) (b : BitVec 6)
  /-- IMAD, R170. -/
  | imad (g : Guard) (d : BitVec 6) (a : BitVec 6) (b : BitVec 6)
  /-- IMIN, R172. -/
  | imin (g : Guard) (d : BitVec 6) (a : BitVec 6) (b : BitVec 6)
  /-- IMAX, R172. -/
  | imax (g : Guard) (d : BitVec 6) (a : BitVec 6) (b : BitVec 6)
  /-- IMINU, R172. -/
  | iminu (g : Guard) (d : BitVec 6) (a : BitVec 6) (b : BitVec 6)
  /-- IMAXU, R172. -/
  | imaxu (g : Guard) (d : BitVec 6) (a : BitVec 6) (b : BitVec 6)
  /-- IABS, R172. -/
  | iabs (g : Guard) (d : BitVec 6) (a : BitVec 6)
  /-- INEG, R172. -/
  | ineg (g : Guard) (d : BitVec 6) (a : BitVec 6)
  /-- RNG, R200. -/
  | rng (g : Guard) (d : BitVec 6) (a : BitVec 6)
  /-- MOVI, R180. -/
  | movi (g : Guard) (d : BitVec 6) (imm : BitVec 12)
  /-- MOVHI, R180. -/
  | movhi (g : Guard) (d : BitVec 6) (imm : BitVec 12)
  /-- AND, R174. -/
  | andL (g : Guard) (d : BitVec 6) (a : BitVec 6) (b : BitVec 6)
  /-- OR, R174. -/
  | orL (g : Guard) (d : BitVec 6) (a : BitVec 6) (b : BitVec 6)
  /-- XOR, R174. -/
  | xorL (g : Guard) (d : BitVec 6) (a : BitVec 6) (b : BitVec 6)
  /-- ANDN, R174. -/
  | andn (g : Guard) (d : BitVec 6) (a : BitVec 6) (b : BitVec 6)
  /-- SHL, R174. -/
  | shl (g : Guard) (d : BitVec 6) (a : BitVec 6) (b : BitVec 6)
  /-- SHR, R174. -/
  | shr (g : Guard) (d : BitVec 6) (a : BitVec 6) (b : BitVec 6)
  /-- SAR, R174. -/
  | sar (g : Guard) (d : BitVec 6) (a : BitVec 6) (b : BitVec 6)
  /-- ROL, R174. -/
  | rol (g : Guard) (d : BitVec 6) (a : BitVec 6) (b : BitVec 6)
  /-- BFX, R175. -/
  | bfx (g : Guard) (d : BitVec 6) (a : BitVec 6) (b : BitVec 6)
  /-- BFXU, R175. -/
  | bfxu (g : Guard) (d : BitVec 6) (a : BitVec 6) (b : BitVec 6)
  /-- BFI, R175. -/
  | bfi (g : Guard) (d : BitVec 6) (a : BitVec 6) (b : BitVec 6)
  /-- POPC, R176. -/
  | popc (g : Guard) (d : BitVec 6) (a : BitVec 6)
  /-- CLZ, R176. -/
  | clz (g : Guard) (d : BitVec 6) (a : BitVec 6)
  /-- CTZ, R176. -/
  | ctz (g : Guard) (d : BitVec 6) (a : BitVec 6)
  /-- BREV, R176. -/
  | brev (g : Guard) (d : BitVec 6) (a : BitVec 6)
  /-- SEL, R179. -/
  | sel (c : Guard) (d : BitVec 6) (a : BitVec 6) (b : BitVec 6)
  /-- CVTSR, R199. -/
  | cvtsr (form : CvtsrForm) (d : BitVec 6) (a : BitVec 6) (b : BitVec 6)
  /-- ICMP, R177. -/
  | icmp (g : Guard) (cd : BitVec 2) (wide : Bool) (a : BitVec 6) (b : BitVec 6)
  /-- ITST, R177. -/
  | itst (g : Guard) (cd : BitVec 2) (wide : Bool) (a : BitVec 6) (b : BitVec 6)
  /-- FCMP, R190. -/
  | fcmp (g : Guard) (cd : BitVec 2) (a : BitVec 6) (b : BitVec 6)
  /-- DCMP, R190. -/
  | dcmp (g : Guard) (cd : BitVec 2) (a : BitVec 6) (b : BitVec 6)
  /-- CMOV, R178. -/
  | cmov (g : Guard) (cd : BitVec 2) (cj : BitVec 2)
  /-- CMOV_V, R178. -/
  | cmovV (g : Guard) (cd : BitVec 2) (a : BitVec 6)
  /-- CMOV_I, R178. -/
  | cmovI (g : Guard) (cd : BitVec 2) (imm : BitVec 4)
  /-- CMOV_R, R178. -/
  | cmovR (g : Guard) (a : BitVec 6)
  /-- IADDMIN, R173. -/
  | iaddmin (g : Guard) (d : BitVec 6) (a : BitVec 6) (b : BitVec 6)
  /-- IADDMAX, R173. -/
  | iaddmax (g : Guard) (d : BitVec 6) (a : BitVec 6) (b : BitVec 6)
  /-- FADDMIN, R189. -/
  | faddmin (g : Guard) (d : BitVec 6) (a : BitVec 6) (b : BitVec 6)
  /-- ADDW, R181. -/
  | addw (g : Guard) (d : BitVec 6) (a : BitVec 6) (b : BitVec 6)
  /-- SUBW, R181. -/
  | subw (g : Guard) (d : BitVec 6) (a : BitVec 6) (b : BitVec 6)
  /-- SHLW, R181. -/
  | shlw (g : Guard) (d : BitVec 6) (a : BitVec 6) (b : BitVec 6)
  /-- SHRW, R181. -/
  | shrw (g : Guard) (d : BitVec 6) (a : BitVec 6) (b : BitVec 6)
  /-- SARW, R181. -/
  | sarw (g : Guard) (d : BitVec 6) (a : BitVec 6) (b : BitVec 6)
  /-- MULW, R181. -/
  | mulw (g : Guard) (d : BitVec 6) (a : BitVec 6) (b : BitVec 6)
  /-- BADD, R192. -/
  | badd (g : Guard) (d : BitVec 6) (a : BitVec 6) (b : BitVec 6)
  /-- BFMA, R192. -/
  | bfma (g : Guard) (d : BitVec 6) (a : BitVec 6) (b : BitVec 6)
  /-- IDIV_I32, R171. -/
  | idivI32 (d : BitVec 6) (a : BitVec 6) (b : BitVec 6) (la : BitVec 4)
  /-- IDIV_N32, R171. -/
  | idivN32 (d : BitVec 6) (a : BitVec 6) (b : BitVec 6) (la : BitVec 4)
  /-- IREM_I32, R171. -/
  | iremI32 (d : BitVec 6) (a : BitVec 6) (b : BitVec 6) (la : BitVec 4)
  /-- IREM_N32, R171. -/
  | iremN32 (d : BitVec 6) (a : BitVec 6) (b : BitVec 6) (la : BitVec 4)
  /-- FDIV, R193. -/
  | fdiv (d : BitVec 6) (a : BitVec 6) (b : BitVec 6) (la : BitVec 4)
  /-- FSQRT, R193. -/
  | fsqrt (d : BitVec 6) (a : BitVec 6) (la : BitVec 4)
  /-- FRCP, R193. -/
  | frcp (d : BitVec 6) (a : BitVec 6) (la : BitVec 4)
  /-- FRSQ, R193. -/
  | frsq (d : BitVec 6) (a : BitVec 6) (la : BitVec 4)
  /-- FEXP2, R193. -/
  | fexp2 (d : BitVec 6) (a : BitVec 6) (la : BitVec 4)
  /-- FLOG2, R193. -/
  | flog2 (d : BitVec 6) (a : BitVec 6) (la : BitVec 4)
  /-- FSIN, R195. -/
  | fsin (d : BitVec 6) (a : BitVec 6) (la : BitVec 4)
  /-- FCOS, R195. -/
  | fcos (d : BitVec 6) (a : BitVec 6) (la : BitVec 4)
  /-- DDIV, R193. -/
  | ddiv (d : BitVec 6) (a : BitVec 6) (b : BitVec 6) (la : BitVec 4)
  /-- DSQRT, R193. -/
  | dsqrt (d : BitVec 6) (a : BitVec 6) (la : BitVec 4)
  /-- AADD_N64, R211. -/
  | aaddN64 (d : BitVec 6) (a : BitVec 6) (bs : BitVec 2) (sc : Scope) (la : BitVec 4) (ord : Ord)
  /-- AMIN_I64, R211. -/
  | aminI64 (d : BitVec 6) (a : BitVec 6) (bs : BitVec 2) (sc : Scope) (la : BitVec 4) (ord : Ord)
  /-- AMAX_I64, R211. -/
  | amaxI64 (d : BitVec 6) (a : BitVec 6) (bs : BitVec 2) (sc : Scope) (la : BitVec 4) (ord : Ord)
  /-- AMIN_N64, R211. -/
  | aminN64 (d : BitVec 6) (a : BitVec 6) (bs : BitVec 2) (sc : Scope) (la : BitVec 4) (ord : Ord)
  /-- AMAX_N64, R211. -/
  | amaxN64 (d : BitVec 6) (a : BitVec 6) (bs : BitVec 2) (sc : Scope) (la : BitVec 4) (ord : Ord)
  /-- AAND_N64, R211. -/
  | aandN64 (d : BitVec 6) (a : BitVec 6) (bs : BitVec 2) (sc : Scope) (la : BitVec 4) (ord : Ord)
  /-- AOR_N64, R211. -/
  | aorN64 (d : BitVec 6) (a : BitVec 6) (bs : BitVec 2) (sc : Scope) (la : BitVec 4) (ord : Ord)
  /-- AXOR_N64, R211. -/
  | axorN64 (d : BitVec 6) (a : BitVec 6) (bs : BitVec 2) (sc : Scope) (la : BitVec 4) (ord : Ord)
  /-- LD_I8, R208. -/
  | ldI8 (g : Guard) (d : BitVec 6) (a : BitVec 6) (bs : BitVec 2) (la : BitVec 4)
  /-- LD_N8, R208. -/
  | ldN8 (g : Guard) (d : BitVec 6) (a : BitVec 6) (bs : BitVec 2) (la : BitVec 4)
  /-- LD_I16, R208. -/
  | ldI16 (g : Guard) (d : BitVec 6) (a : BitVec 6) (bs : BitVec 2) (la : BitVec 4)
  /-- LD_N16, R208. -/
  | ldN16 (g : Guard) (d : BitVec 6) (a : BitVec 6) (bs : BitVec 2) (la : BitVec 4)
  /-- LD_N32, R208. -/
  | ldN32 (g : Guard) (d : BitVec 6) (a : BitVec 6) (bs : BitVec 2) (la : BitVec 4)
  /-- LD_N64, R208. -/
  | ldN64 (g : Guard) (d : BitVec 6) (a : BitVec 6) (bs : BitVec 2) (la : BitVec 4)
  /-- LD_N128, R208. -/
  | ldN128 (g : Guard) (d : BitVec 6) (a : BitVec 6) (bs : BitVec 2) (la : BitVec 4)
  /-- AXCHG_N64, R211. -/
  | axchgN64 (d : BitVec 6) (a : BitVec 6) (bs : BitVec 2) (sc : Scope) (la : BitVec 4) (ord : Ord)
  /-- ST_N8, R208. -/
  | stN8 (g : Guard) (d : BitVec 6) (a : BitVec 6) (bs : BitVec 2)
  /-- ST_N16, R208. -/
  | stN16 (g : Guard) (d : BitVec 6) (a : BitVec 6) (bs : BitVec 2)
  /-- ST_N32, R208. -/
  | stN32 (g : Guard) (d : BitVec 6) (a : BitVec 6) (bs : BitVec 2)
  /-- ST_N64, R208. -/
  | stN64 (g : Guard) (d : BitVec 6) (a : BitVec 6) (bs : BitVec 2)
  /-- ST_N128, R208. -/
  | stN128 (g : Guard) (d : BitVec 6) (a : BitVec 6) (bs : BitVec 2)
  /-- LDK, R218. -/
  | ldk (g : Guard) (d : BitVec 6) (a : BitVec 6) (bs : BitVec 2) (la : BitVec 4)
  /-- LD_PROBE, R209. -/
  | ldProbe (g : Guard) (cj : BitVec 2) (a : BitVec 6) (bs : BitVec 2) (size : ProbeSize)
  /-- ACAS_N64, R212. -/
  | acasN64 (d : BitVec 6) (a : BitVec 6) (bs : BitVec 2) (sc : Scope) (la : BitVec 4) (ord : Ord)
  /-- AADD_N32, R211. -/
  | aaddN32 (d : BitVec 6) (a : BitVec 6) (bs : BitVec 2) (sc : Scope) (la : BitVec 4) (ord : Ord)
  /-- AMIN_I32, R211. -/
  | aminI32 (d : BitVec 6) (a : BitVec 6) (bs : BitVec 2) (sc : Scope) (la : BitVec 4) (ord : Ord)
  /-- AMAX_I32, R211. -/
  | amaxI32 (d : BitVec 6) (a : BitVec 6) (bs : BitVec 2) (sc : Scope) (la : BitVec 4) (ord : Ord)
  /-- AMIN_N32, R211. -/
  | aminN32 (d : BitVec 6) (a : BitVec 6) (bs : BitVec 2) (sc : Scope) (la : BitVec 4) (ord : Ord)
  /-- AMAX_N32, R211. -/
  | amaxN32 (d : BitVec 6) (a : BitVec 6) (bs : BitVec 2) (sc : Scope) (la : BitVec 4) (ord : Ord)
  /-- AAND_N32, R211. -/
  | aandN32 (d : BitVec 6) (a : BitVec 6) (bs : BitVec 2) (sc : Scope) (la : BitVec 4) (ord : Ord)
  /-- AOR_N32, R211. -/
  | aorN32 (d : BitVec 6) (a : BitVec 6) (bs : BitVec 2) (sc : Scope) (la : BitVec 4) (ord : Ord)
  /-- AXOR_N32, R211. -/
  | axorN32 (d : BitVec 6) (a : BitVec 6) (bs : BitVec 2) (sc : Scope) (la : BitVec 4) (ord : Ord)
  /-- AXCHG_N32, R211. -/
  | axchgN32 (d : BitVec 6) (a : BitVec 6) (bs : BitVec 2) (sc : Scope) (la : BitVec 4) (ord : Ord)
  /-- ACAS_N32, R212. -/
  | acasN32 (d : BitVec 6) (a : BitVec 6) (bs : BitVec 2) (sc : Scope) (la : BitVec 4) (ord : Ord)
  /-- FADD_ORD_F32, R213. -/
  | faddOrdF32 (d : BitVec 6) (a : BitVec 6) (bs : BitVec 2) (sc : Scope)
  /-- FADD_ORD_F64, R213. -/
  | faddOrdF64 (d : BitVec 6) (a : BitVec 6) (bs : BitVec 2) (sc : Scope)
  /-- LDA_N32, R210. -/
  | ldaN32 (d : BitVec 6) (a : BitVec 6) (bs : BitVec 2) (sc : Scope) (la : BitVec 4) (acq : Bool)
  /-- LDA_N64, R210. -/
  | ldaN64 (d : BitVec 6) (a : BitVec 6) (bs : BitVec 2) (sc : Scope) (la : BitVec 4) (acq : Bool)
  /-- STA_N32, R210. -/
  | staN32 (d : BitVec 6) (a : BitVec 6) (bs : BitVec 2) (sc : Scope) (rel : Bool)
  /-- STA_N64, R210. -/
  | staN64 (d : BitVec 6) (a : BitVec 6) (bs : BitVec 2) (sc : Scope) (rel : Bool)
  /-- BRA, R182. -/
  | bra (g : Guard) (off : BitVec 18)
  /-- BRAL, R182. -/
  | bral (g : Guard) (off : BitVec 18)
  /-- JMP, R183. -/
  | jmp (g : Guard) (d : BitVec 6) (a : BitVec 6)
  /-- RET, R183. -/
  | ret (g : Guard) (a : BitVec 6)
  /-- YIELD, R185. -/
  | yield (g : Guard)
  /-- NOP, R185. -/
  | nop (g : Guard)
  /-- EXIT, R186. -/
  | exit (g : Guard)
  /-- HADD, R192. -/
  | hadd (g : Guard) (d : BitVec 6) (a : BitVec 6) (b : BitVec 6)
  /-- HFMA, R192. -/
  | hfma (g : Guard) (d : BitVec 6) (a : BitVec 6) (b : BitVec 6)
  /-- FADD, R188. -/
  | fadd (g : Guard) (d : BitVec 6) (a : BitVec 6) (b : BitVec 6)
  /-- FSUB, R188. -/
  | fsub (g : Guard) (d : BitVec 6) (a : BitVec 6) (b : BitVec 6)
  /-- FMUL, R188. -/
  | fmul (g : Guard) (d : BitVec 6) (a : BitVec 6) (b : BitVec 6)
  /-- FFMA, R188. -/
  | ffma (g : Guard) (d : BitVec 6) (a : BitVec 6) (b : BitVec 6)
  /-- FMIN, R188. -/
  | fmin (g : Guard) (d : BitVec 6) (a : BitVec 6) (b : BitVec 6)
  /-- FMAX, R188. -/
  | fmax (g : Guard) (d : BitVec 6) (a : BitVec 6) (b : BitVec 6)
  /-- DADD, R191. -/
  | dadd (g : Guard) (d : BitVec 6) (a : BitVec 6) (b : BitVec 6)
  /-- SHFL, R202. -/
  | shfl (g : Guard) (d : BitVec 6) (a : BitVec 6) (b : BitVec 6)
  /-- SHFL_I, R202. -/
  | shflI (g : Guard) (d : BitVec 6) (a : BitVec 6) (k : BitVec 5)
  /-- LSH, R202. -/
  | lsh (g : Guard) (d : BitVec 6) (a : BitVec 6) (b : BitVec 6)
  /-- LSH_I, R202. -/
  | lshI (g : Guard) (d : BitVec 6) (a : BitVec 6) (k : BitVec 5)
  /-- LROT, R202. -/
  | lrot (g : Guard) (d : BitVec 6) (a : BitVec 6) (b : BitVec 6)
  /-- LROT_I, R202. -/
  | lrotI (g : Guard) (d : BitVec 6) (a : BitVec 6) (k : BitVec 5)
  /-- BCAST, R202. -/
  | bcast (g : Guard) (d : BitVec 6) (a : BitVec 6) (b : BitVec 6)
  /-- BCAST_I, R202. -/
  | bcastI (g : Guard) (d : BitVec 6) (a : BitVec 6) (k : BitVec 5)
  /-- SCAN, R203. -/
  | scan (g : Guard) (d : BitVec 6) (a : BitVec 6) (op : ScanOp)
  /-- SAMPLE, R204. -/
  | sample (g : Guard) (d : BitVec 6) (a : BitVec 6) (b : BitVec 6)
  /-- CVT_RNE, R197. -/
  | cvtRne (g : Guard) (d : BitVec 6) (a : BitVec 6) (dst : CvtFmt) (src : CvtFmt)
  /-- CVT_RNE_F32_Q4, R198. -/
  | cvtRneF32Q4 (g : Guard) (d : BitVec 6) (a : BitVec 6)
  /-- CVT_RNE_Q4_F32, R198. -/
  | cvtRneQ4F32 (g : Guard) (d : BitVec 6) (a : BitVec 6)
  /-- CVT_RZ, R197. -/
  | cvtRz (g : Guard) (d : BitVec 6) (a : BitVec 6) (dst : CvtFmt) (src : CvtFmt)
  /-- CVT_RU, R197. -/
  | cvtRu (g : Guard) (d : BitVec 6) (a : BitVec 6) (dst : CvtFmt) (src : CvtFmt)
  /-- CVT_RD, R197. -/
  | cvtRd (g : Guard) (d : BitVec 6) (a : BitVec 6) (dst : CvtFmt) (src : CvtFmt)
  /-- DMUL, R191. -/
  | dmul (g : Guard) (d : BitVec 6) (a : BitVec 6) (b : BitVec 6)
  /-- DFMA, R191. -/
  | dfma (g : Guard) (d : BitVec 6) (a : BitVec 6) (b : BitVec 6)
  /-- SADD, R222. -/
  | sadd (d : BitVec 6) (a : BitVec 6) (b : BitVec 6)
  /-- SSUB, R222. -/
  | ssub (d : BitVec 6) (a : BitVec 6) (b : BitVec 6)
  /-- SMUL, R222. -/
  | smul (d : BitVec 6) (a : BitVec 6) (b : BitVec 6)
  /-- SMULH, R222. -/
  | smulh (d : BitVec 6) (a : BitVec 6) (b : BitVec 6) (uns : Bool)
  /-- SAND, R222. -/
  | sand (d : BitVec 6) (a : BitVec 6) (b : BitVec 6)
  /-- SOR, R222. -/
  | sor (d : BitVec 6) (a : BitVec 6) (b : BitVec 6)
  /-- SXOR, R222. -/
  | sxor (d : BitVec 6) (a : BitVec 6) (b : BitVec 6)
  /-- SSHL, R222. -/
  | sshl (d : BitVec 6) (a : BitVec 6) (b : BitVec 6)
  /-- SSHR, R222. -/
  | sshr (d : BitVec 6) (a : BitVec 6) (b : BitVec 6)
  /-- SSAR, R222. -/
  | ssar (d : BitVec 6) (a : BitVec 6) (b : BitVec 6)
  /-- SMIN, R222. -/
  | smin (d : BitVec 6) (a : BitVec 6) (b : BitVec 6) (uns : Bool)
  /-- SMAX, R222. -/
  | smax (d : BitVec 6) (a : BitVec 6) (b : BitVec 6) (uns : Bool)
  /-- SCMP, R223. -/
  | scmp (a : BitVec 6) (b : BitVec 6)
  /-- SSEL, R223. -/
  | ssel (d : BitVec 6) (a : BitVec 6) (b : BitVec 6) (c : Cond)
  /-- SMOVI, R224. -/
  | smovi (d : BitVec 6) (imm : BitVec 18)
  /-- SMOVHI, R224. -/
  | smovhi (d : BitVec 6) (imm : BitVec 18)
  /-- SADDI, R224. -/
  | saddi (d : BitVec 6) (imm : BitVec 18)
  /-- LREAD, R225. -/
  | lread (d : BitVec 6) (a : BitVec 6) (lane : LaneSel)
  /-- SBCAST, R225. -/
  | sbcast (d : BitVec 6) (a : BitVec 6) (hi : Bool)
  /-- BALLOT, R226. -/
  | ballot (d : BitVec 6) (k : BitVec 2) (c : Cond)
  /-- IDX_IMM, R234. -/
  | idxImm (imm : BitVec 8)
  /-- IDX_REG, R234. -/
  | idxReg (d : BitVec 6)
  /-- PRIO_IMM, R235. -/
  | prioImm (imm : BitVec 2)
  /-- PRIO_REG, R235. -/
  | prioReg (d : BitVec 6)
  /-- UBRA, R228. -/
  | ubra (c : Cond) (off : BitVec 20)
  /-- BAR, R230. -/
  | bar (n : BitVec 3) (refresh : Bool)
  /-- GBAR, R230. -/
  | gbar (n : BitVec 3) (refresh : Bool)
  /-- ARRIVE, R230. -/
  | arrive (n : BitVec 3) (gang : Bool)
  /-- WAIT, R230. -/
  | wait (n : BitVec 3) (gang : Bool) (refresh : Bool)
  /-- SLEEP, R233. -/
  | sleep (d : BitVec 6) (a : BitVec 6) (b : BitVec 6) (n64 : Bool) (c : SleepCond)
  /-- REFRESH, R236. -/
  | refresh
  /-- ROOTSW, R237. -/
  | rootsw (d : BitVec 6) (a : BitVec 6) (b : BitVec 6)
  /-- TLBF_FILL, R238. -/
  | tlbfFill (a : BitVec 6) (b : BitVec 6)
  /-- TLBF_REQ, R238. -/
  | tlbfReq (a : BitVec 6) (b : BitVec 6)
  /-- TLBF_BAD, R238. -/
  | tlbfBad (a : BitVec 6) (b : BitVec 6)
  /-- TRAP, R242. -/
  | trap (imm : BitVec 12)
  /-- TRET, R242. -/
  | tret
  /-- PREQ, R35. -/
  | preq
  /-- BRK, R242. -/
  | brk (imm : BitVec 12)
  /-- GATE_ARM, R245. -/
  | gateArm (d : BitVec 6)
  /-- GATE_CANCEL, R245. -/
  | gateCancel (d : BitVec 6)
  /-- PMARK, R244. -/
  | pmark (imm : BitVec 12)
  /-- PMARK_V, R244. -/
  | pmarkV (d : BitVec 6) (imm : BitVec 12)
  /-- SLD, R227. -/
  | sld (d : BitVec 6) (a : BitVec 6) (off : BitVec 8) (la : BitVec 4)
  /-- SST, R227. -/
  | sst (d : BitVec 6) (a : BitVec 6) (off : BitVec 8)
  /-- FENCE, R215. -/
  | fence (kind : FenceKind) (sc : Scope)
  /-- COPY, R252. -/
  | copy (tid : BitVec 8) (ch : BitVec 3) (s : BitVec 6) (la : BitVec 4) (var : CopyVar)
  /-- CHAIN, R256. -/
  | chain (ch : BitVec 3) (s : BitVec 6) (la : BitVec 4)
  /-- CHWP, R257. -/
  | chwp (sc : Scope) (ch : BitVec 3) (s : BitVec 6) (la : BitVec 4) (acq : Bool)
  /-- PUBL, R258. -/
  | publ (tid : BitVec 8) (s : BitVec 6) (la : BitVec 4)
  /-- RPUT, R259. -/
  | rput (ring : BitVec 4) (s : BitVec 6) (la : BitVec 4)
  /-- RTAKE, R259. -/
  | rtake (ring : BitVec 4) (s : BitVec 6) (la : BitVec 4)
  /-- TLD, R260. -/
  | tld (tid : BitVec 8) (tile : BitVec 3) (s : BitVec 6) (la : BitVec 4)
  /-- WLD, R261. -/
  | wld (tid : BitVec 8) (s : BitVec 6) (la : BitVec 4) (x24 : Bool)
  /-- MMA, R262. -/
  | mma (fmt : MmaFmt) (tile : BitVec 3) (acc : BitVec 3) (s : BitVec 6) (la : BitVec 4) (bs : Bool)
  /-- AZERO, R263. -/
  | azero (acc : BitVec 3) (s : BitVec 6) (la : BitVec 4) (f64 : Bool)
  /-- AST, R264. -/
  | ast (tid : BitVec 8) (acc : BitVec 3) (s : BitVec 6) (la : BitVec 4) (bs : Bool)
  /-- BLSUB, R265. -/
  | blsub (n : BitVec 8) (slot : BitVec 4) (s : BitVec 6) (la : BitVec 4)
  /-- BLCOL, R266. -/
  | blcol (slot : BitVec 4) (s : BitVec 6) (la : BitVec 4)
  /-- QCAST, R267. -/
  | qcast (s : BitVec 6) (la : BitVec 4)
  /-- CREDUCE, R268. -/
  | creduce (s : BitVec 6) (la : BitVec 4)
  /-- TIDSET, R251. -/
  | tidset (tid : BitVec 8) (s : BitVec 6) (la : BitVec 4)
  /-- TIDGET, R251. -/
  | tidget (tid : BitVec 8) (s : BitVec 6) (la : BitVec 4)
  /-- STINS, R271. -/
  | stins (tid : BitVec 8) (s : BitVec 6) (la : BitVec 4)
  /-- STLOOK, R271. -/
  | stlook (tid : BitVec 8) (s : BitVec 6) (la : BitVec 4)
  /-- KVRES, R273. -/
  | kvres (tid : BitVec 8) (s : BitVec 6) (la : BitVec 4)
  /-- SREAD, R243. -/
  | sread (d : BitVec 6) (reg : SpecReg) (vec : Bool)
  /-- SWRITE, R243. -/
  | swrite (d : BitVec 6) (reg : WSpecReg)
  /-- STAMP, R243. -/
  | stamp (d : BitVec 6) (ord : Bool)
  /-- RESET, R379. -/
  | reset
  /-- IMAGE, R379. -/
  | image (off : Nat) (data : List Byte)
  /-- BOOT, R379. -/
  | boot
  /-- CONFIG, R380. -/
  | config (off : Nat) (data : List Byte)
  /-- ATTEST, R381. -/
  | attest (nonce : List Byte)
  /-- VLOG, R387. -/
  | vlog
  /-- QUEUE_CREATE, R334. -/
  | queueCreate (q : Nat) (ring : Nat) (size : Nat) (qgroup : Nat) (flags : BitVec 16) (rcb : Nat) (readAddr : Nat) (wake : Nat)
  /-- QUEUE_MAP, R334. -/
  | queueMap (q : Nat) (hwSlot : Nat)
  /-- QUEUE_DELETE, R334. -/
  | queueDelete (q : Nat)
  /-- REGION_SUSPEND, R32. -/
  | regionSuspend (rcb : Nat)
  /-- REGION_RESUME, R32. -/
  | regionResume (rcb : Nat)
  /-- REGION_KILL, R32. -/
  | regionKill (rcb : Nat)
  /-- INSTALL, R356. -/
  | install (rcb : Nat) (word : BitVec 64) (gen : BitVec 16)
  /-- HOLD, R356. -/
  | hold (rcb : Nat) (slot : Nat) (gen : BitVec 16)
  /-- UNHOLD, R356. -/
  | unhold (rcb : Nat) (slot : Nat) (gen : BitVec 16)
  /-- RELEASE, R361. -/
  | release (nodes : List Nat)
  /-- PASSIGN, R362. -/
  | passign (slot : Nat) (rcb : Nat)
  /-- PFREE, R362. -/
  | pfree (slot : Nat)
  /-- ANSWER, R367. -/
  | answer (id : Nat) (code : Nat) (slot : Nat)
  /-- IMPORT, R370. -/
  | importSet (slot : Nat) (entry : BitVec 128)
  /-- EXPORT, R371. -/
  | exportSet (slot : Nat) (entry : BitVec 512)
  /-- PROFILE, R393. -/
  | profile (part : Nat) (snap : Nat) (ctl : Nat) (ring : Nat) (bytes : Nat)
  /-- DEBUG_ATTACH, R403. -/
  | debugAttach (rcb : Nat)
  /-- DEBUG_COMPARATOR_WRITE, R404. -/
  | debugComparatorWrite (k : Nat) (w : BitVec 128)
  /-- DEBUG_RESUME, R405. -/
  | debugResume (grp : Nat) (stepOne : Bool)
  /-- DEBUG_READ_ACCUMULATOR, R406. -/
  | debugReadAccumulator (grp : Nat) (acc : BitVec 3) (buf : Nat)
  /-- DEBUG_DETACH, R403. -/
  | debugDetach
  /-- FREEZE, R407. -/
  | freeze
  /-- FREEZE_DUMP, R407. -/
  | freezeDump (buf : Nat)
  /-- FREEZE_THAW, R407. -/
  | freezeThaw
  /-- REPLAY_RECORD, R409. -/
  | replayRecord (rcb : Nat) (list : BitVec 64) (count : Nat) (log : BitVec 64) (bytes : Nat)
  /-- REPLAY_ARM, R416. -/
  | replayArm (rcb : Nat) (list : BitVec 64) (count : Nat) (log : BitVec 64) (bytes : Nat)
  /-- REPLAY_END, R409. -/
  | replayEnd (rcb : Nat)
  /-- NOTIFY_WRITE, R335. -/
  | notifyWrite (q : Nat) (v : BitVec 64)
  /-- EVENT_WRITE, R377. -/
  | eventWrite (v : BitVec 64)
  /-- NTAIL_WRITE, R378. -/
  | ntailWrite (v : BitVec 64)
  /-- REGISTER_WRITE, R377. -/
  | registerWrite (off : Nat) (v : BitVec 64)
  /-- QUEUE_SLOT_MAP, R334. -/
  | queueSlotMap (q : Nat) (hwSlot : Nat)
  /-- QUEUE_SLOT_UNMAP, R336. -/
  | queueSlotUnmap (q : Nat)
  /-- LAUNCH_PACKET, R344. -/
  | launchPacket (q : Nat)
  /-- GRAPH_PACKET, R352. -/
  | graphPacket (q : Nat)
  /-- WAIT_PACKET, R340. -/
  | waitPacket (q : Nat)
  /-- WAIT_CONDITION_MET, R340. -/
  | waitConditionMet (pkt : Nat)
  /-- REGION_REGISTER, R351. -/
  | regionRegister (q : Nat)
  /-- REGION_UPDATE, R351. -/
  | regionUpdate (q : Nat)
  /-- REGION_UNREGISTER, R351. -/
  | regionUnregister (q : Nat)
  /-- KV_TABLE_SET, R340. -/
  | kvTableSet (q : Nat)
  /-- LAUNCH_START, R347. -/
  | launchStart (launch : Nat)
  /-- GANG_CLAIM, R347. -/
  | gangClaim (launch : Nat) (die : Nat)
  /-- GANG_PLACE, R348. -/
  | gangPlace (launch : Nat) (die : Nat)
  /-- LAUNCH_COMPLETE, R343. -/
  | launchComplete (launch : Nat)
  /-- LOOP_ITERATION, R292. -/
  | loopIteration (pkt : Nat)
  /-- GROUP_ACTIVATE, R21. -/
  | groupActivate (grp : Nat)
  /-- GROUP_EVICT, R22. -/
  | groupEvict (grp : Nat)
  /-- PARK_THRESHOLD, R20. -/
  | parkThreshold (grp : Nat)
  /-- PARK_COMPLETE, R20. -/
  | parkComplete (grp : Nat)
  /-- FAIRNESS_LIMIT, R13. -/
  | fairnessLimit (grp : Nat)
  /-- PROGRESS_WAIT_LIMIT, R26. -/
  | progressWaitLimit (grp : Nat)
  /-- WATCHDOG, R28. -/
  | watchdog (grp : Nat)
  /-- PREEMPT_REQUEST, R33. -/
  | preemptRequest (gang : Nat)
  /-- NOTICE_DEADLINE, R36. -/
  | noticeDeadline (gang : Nat)
  /-- GANG_PARK_COMPLETE, R36. -/
  | gangParkComplete (gang : Nat)
  /-- GANG_RESUME, R37. -/
  | gangResume (gang : Nat) (cluster : Nat)
  /-- TRAP_ENTRY, R239. -/
  | trapEntry (grp : Nat)
  /-- VALUE_LANDS, R56. -/
  | valueLands (grp : Nat) (seq : Nat)
  /-- LINE_FILL, R52. -/
  | lineFill (grp : Nat) (line : Nat)
  /-- STORE_QUEUE_DEPART, R85. -/
  | storeQueueDepart (grp : Nat)
  /-- HOME_ACCESS_PERFORM, R80. -/
  | homeAccessPerform (grp : Nat) (seq : Nat) (idx : Nat) (reply : Reply)
  /-- WALK_START, R363. -/
  | walkStart (core : Nat)
  /-- WALKER_INSTRUCTION_LIMIT, R365. -/
  | walkerInstructionLimit (core : Nat)
  /-- LOG_ENTRY_REPLAY, R57. -/
  | logEntryReplay (grp : Nat) (seq : Nat)
  /-- SLOT_RECLAIM, R70. -/
  | slotReclaim (rcb : Nat) (slot : Nat)
  /-- ROOTSW_STEP, R375. -/
  | rootswStep (grp : Nat)
  /-- SLEEP_WAKE, R233. -/
  | sleepWake (grp : Nat) (pc : BitVec 56) (reply : Reply)
  /-- PUBL_INSTANT, R107. -/
  | publInstant (grp : Nat) (seq : Nat)
  /-- ENGINE_COMMAND_START, R247. -/
  | engineCommandStart (grp : Nat) (seq : Nat)
  /-- ENGINE_COMMAND_COMPLETE, R247. -/
  | engineCommandComplete (grp : Nat) (seq : Nat) (ext : EngineReply)
  /-- CHAIN_RECORD, R256. -/
  | chainRecord (grp : Nat) (seq : Nat) (ext : EngineReply)
  /-- GROUP_RETIRE, R10. -/
  | groupRetire (grp : Nat)
  /-- GATE_TIMEOUT, R305. -/
  | gateTimeout (rcb : Nat)
  /-- PC_COMPARATOR_MATCH, R404. -/
  | pcComparatorMatch (grp : Nat)
  /-- PROFILING_INTERVAL, R394. -/
  | profilingInterval
  /-- PC_SAMPLE, R397. -/
  | pcSample (core : Nat) (part : Nat)
  /-- INGRESS_REQUEST, R372. -/
  | ingressRequest (req : PeerRequest)
  /-- PORT_BRING_UP, R388. -/
  | portBringUp (port : Nat) (peer : BitVec 22) (ok : Bool)
  /-- PORT_LOSS, R388. -/
  | portLoss (port : Nat)
  /-- LINK_KEY_RENEWAL, R388. -/
  | linkKeyRenewal (port : Nat)
  /-- PTP_EVENT, R389. -/
  | ptpEvent (message : PtpMessage)
  /-- POWER_THROTTLE, R390. -/
  | powerThrottle (reading : PowerReading)
  /-- THERMAL_HALT, R390. -/
  | thermalHalt (celsius : Nat)
  /-- I3C_RESET_REQUEST, R391. -/
  | i3cResetRequest
  /-- UNCORRECTABLE_ERROR, R414. -/
  | uncorrectableError (cluster : Nat) (core : Option Nat)
  /-- SHARE_WINDOW_END, R31. -/
  | shareWindowEnd
  /-- PTP_REFERENCE_LOSS, R389. -/
  | ptpReferenceLoss
  deriving DecidableEq, Repr

end Sys2Proof
end

