-- ==== Sys2Proof/Config.lean ====
section
/-!
DEFINITION. What an implementation or the world outside fixes: constants of the part, and uninterpreted constants for
what the spec leaves open (no body: nothing can be proved about their values).
-/

namespace Sys2Proof.Config

/-- Compute clusters, four cores each, twenty clusters a die (00, 02: R65). -/
def clusters : Nat := 320

/-- Clusters of one compute die. -/
def clustersPerDie : Nat := 20

/-- Bytes of one cluster's stride in the physical map (03: R65). -/
def sliceStride : Nat := 0x800000

/-- Bytes of one cluster slice (03: R65). -/
def sliceBytes : Nat := 0x600000

/-- First physical address of the CXL windows (03: R65). -/
def cxlBase : Nat := 0x400000000000

/-- First physical address above the CXL windows (03: R65). -/
def cxlEnd : Nat := 0x800000000000

/-- What the image header says of an image (23: R379); its layout is not in the spec. -/
structure ImageHeader where
  /-- Whether the magic is right. -/
  magic : Bool
  /-- The length field. -/
  length : Nat
  /-- Which ROM public key signed the image. -/
  keyIndex : Nat
  /-- The security version of the attestation report. -/
  securityVersion : BitVec 32
  /-- Physical address of the Scribe walker routine. -/
  walkerEntry : Nat
  deriving DecidableEq, Repr, Inhabited

/-- One interleave set (23: R382); its number is its place in the list of sets. -/
structure CxlSet where
  /-- Physical base. -/
  base : Nat
  /-- Data bytes. -/
  size : Nat
  /-- One bit per port. -/
  ports : BitVec 32
  /-- log2 of the granule. -/
  granule : Nat
  /-- Shared window. -/
  sharedMode : Bool
  deriving DecidableEq, Repr, Inhabited

/-- The settings of a valid configuration record (23: R380). -/
structure Settings where
  /-- DEVID. -/
  device : BitVec 22
  /-- Interleave sets. -/
  sets : List CxlSet
  /-- Molod port mask. -/
  ports : BitVec 36
  /-- Expected peer device of each port. -/
  peers : List (Nat × BitVec 22)
  /-- PTP domain number. -/
  ptpDomain : Nat
  /-- Ports that carry PTP. -/
  ptpPorts : BitVec 36
  /-- Power cap in steps of 0.1 kW. -/
  powerCap : Nat
  /-- Clusters held spare. -/
  spares : Nat
  deriving DecidableEq, Repr, Inhabited

/-- What a configuration record holds (23: R380); its layout is not in the spec, but for the interleave-set entries (23: R382). -/
structure RecordImage where
  /-- The operator's public key, and the signature that it carries. -/
  operatorKey : List Byte
  certificate : List Byte
  /-- The bytes that the operator signs, and the signature. -/
  signed : List Byte
  signature : List Byte
  /-- The identity field. -/
  identity : List Byte
  /-- Whether every reserved field outside the set entries is zero. -/
  reservedZero : Bool
  /-- DEVID. -/
  device : BitVec 22
  /-- The interleave-set entries, 32 bytes each. -/
  sets : List (List Byte)
  /-- Molod port mask, and the expected peer device of each port. -/
  ports : BitVec 36
  peers : List (Nat × BitVec 22)
  /-- PTP domain number, and the ports that carry PTP. -/
  ptpDomain : Nat
  ptpPorts : BitVec 36
  /-- Power cap in steps of 0.1 kW. -/
  powerCap : Nat
  /-- Clusters held spare. -/
  spares : Nat
  deriving DecidableEq, Repr, Inhabited

/-- SHA-512 of a list of bytes, 64 bytes (23: R379 to R381). Uninterpreted. -/
opaque sha512 : List Byte → List Byte

/-- Whether a signature over a digest verifies under a ROM public key (23: R379). Uninterpreted. -/
opaque imageSignatureOk : Nat → List Byte → List Byte → Bool

/-- The signature of the identity key over a digest (23: R381). Uninterpreted. -/
opaque identitySign : List Byte → List Byte

/-- The identity public key, 32 bytes (23: R381). Uninterpreted. -/
opaque identityKey : List Byte

/-- The image header read from the staged bytes (23: R379). Uninterpreted. -/
opaque imageHeader : List Byte → ImageHeader

/-- The fields of a configuration record, read from the staged bytes (23: R380). Uninterpreted. -/
opaque recordImage : List Byte → RecordImage

/-- Whether Fraotte's Ed25519 signature on an operator's public key verifies (23: R380): key, signature. Uninterpreted. -/
opaque fraotteSignatureOk : List Byte → List Byte → Bool

/-- Whether an operator's Ed25519 signature over a digest verifies (23: R380): key, digest, signature. Uninterpreted. -/
opaque operatorSignatureOk : List Byte → List Byte → List Byte → Bool

/-- Whether the memory device on a CXL port is of CXL 2.0 (23: R382). Uninterpreted. -/
opaque cxlPort2 : Nat → Bool

/-- The Q4 type of a collective's wire and of a Q4 destination: the descriptor names none (13: R268, 06: R119).
Uninterpreted. -/
opaque collectiveType : BitVec 2

/-- What a 32-bit integer, signed or not, is taken as in an f32 collective when f32 does not hold it exactly (06: R131).
Uninterpreted. -/
opaque intInto32 : Bool → BitVec 32 → BitVec 32

/-- Bytes that the CXL ports of a device carry in 4,096 aclk, of which a CXL bandwidth share counts 1/256 units (01: R31); the spec
gives no bandwidth. Uninterpreted. -/
opaque cxlWindowBytes : Nat

/-- A value the spec leaves open, by a counter that the step advances. Uninterpreted. -/
opaque freeValue : Nat → BitVec 64

end Sys2Proof.Config
end

