-- ==== Sys2Proof/Machine/Table.lean ====
section
/-!
DEFINITION. Finite tables by number: lists of (key, value) pairs with strictly rising keys. A table of registers or of
memory bytes lists no entry that equals what an unlisted key reads as, so equal contents are equal data.
-/

namespace Sys2Proof.Machine

/-- A table of values by number. -/
abbrev Table (α : Type) := List (Nat × α)

/-- The entry of key k. -/
def Table.get? {α : Type} (t : Table α) (k : Nat) : Option α :=
  match t with
  | [] => none
  | (j, v) :: r => if j = k then some v else Table.get? r k

/-- The entry of key k, or z where the table lists none. -/
def Table.getD {α : Type} (t : Table α) (k : Nat) (z : α) : α :=
  match t with
  | [] => z
  | (j, v) :: r => if j = k then v else Table.getD r k z

/-- The table with the entry of key k replaced or inserted in its place. -/
def Table.set {α : Type} (t : Table α) (k : Nat) (v : α) : Table α :=
  match t with
  | [] => [(k, v)]
  | (j, w) :: r =>
    if k < j then (k, v) :: (j, w) :: r
    else if k = j then (k, v) :: r
    else (j, w) :: Table.set r k v

/-- The table without any entry of key k. -/
def Table.erase {α : Type} (t : Table α) (k : Nat) : Table α :=
  match t with
  | [] => []
  | (j, w) :: r => if k = j then Table.erase r k else (j, w) :: Table.erase r k

/-- A write to a table whose unlisted keys read as z: writing z removes the entry. -/
def Table.put {α : Type} [DecidableEq α] (z : α) (t : Table α) (k : Nat) (v : α) : Table α :=
  if v = z then Table.erase t k else Table.set t k v

/-- The entry of key k after f, where the table lists one. -/
def Table.modify {α : Type} (t : Table α) (k : Nat) (f : α → α) : Table α :=
  match Table.get? t k with
  | none => t
  | some v => Table.set t k (f v)

/-- The keys in rising order. -/
def Table.keys {α : Type} (t : Table α) : List Nat := t.map Prod.fst

/-- The values in rising order of their keys. -/
def Table.vals {α : Type} (t : Table α) : List α := t.map Prod.snd

/-- The keys rise strictly and the first one is above lo, or at it when lo is none. -/
def Table.sortedFrom {α : Type} (lo : Option Nat) (t : Table α) : Bool :=
  match t with
  | [] => true
  | (j, _) :: r =>
    (match lo with
      | none => true
      | some l => decide (l < j)) && Table.sortedFrom (some j) r

/-- The canonical form of a table whose unlisted keys read as z. -/
def Table.wf {α : Type} [DecidableEq α] (z : α) (t : Table α) : Bool :=
  Table.sortedFrom none t && t.all fun p => decide (p.2 ≠ z)

end Sys2Proof.Machine
end

