-- ==== Sys2Proof/Machine/State.lean ====
section
/-!
DEFINITION. The state of the machine as plain data, holding what the spec gives it (INVENTORY.md, State), the reasons
a step can stop, and the state after reset.
-/

namespace Sys2Proof.Machine

/-- Physical memory by byte address: an unlisted byte reads as 0 (log 2). Slice windows, whose place in a slice the
device chooses, stand at addresses from 2^60 up (log 7). -/
abbrev Memory := Table Byte

/-- The duties of a group (01: R16). -/
inductive Duty where
  | copy | matrix | vector
  deriving DecidableEq, Repr

/-- Register allocations (02: R38, R47). -/
structure Alloc where
  /-- Vector slots, 8 to 256. -/
  v : Nat
  /-- Uniform slots, 8 to 64. -/
  s : Nat
  /-- Tiles, 0 to 8. -/
  t : Nat
  /-- Accumulators, 0 to 8. -/
  a : Nat
  deriving DecidableEq, Repr

/-- The part of a group that never changes (01: R7, R8; 20: R349). -/
structure Ident where
  /-- Key of its launch in State.launches. -/
  launch : Nat
  /-- Key of its gang in State.gangs. -/
  gang : Nat
  /-- Position of its workgroup in the gang. -/
  wg : Nat
  /-- GRPID. -/
  grpid : Nat
  /-- Duty. -/
  duty : Duty
  /-- Allocations. -/
  alloc : Alloc
  /-- Declares a notice handler (01: R34). -/
  notice : Bool
  /-- Is a walker slot (21: R363). -/
  walker : Bool
  /-- Creation order (01: R25). -/
  created : Nat
  /-- Address of its arena frame, and of its group descriptor (20: R349). -/
  frame : Nat
  desc : Nat
  /-- The region whose arena the frame belongs to. -/
  arena : Nat
  deriving DecidableEq, Repr

/-- What a lane that is not ready waits for (12: R230, R233; 03: R75). -/
inductive LaneWait where
  /-- waits at a barrier for the phase it arrived at to complete -/
  | barrier (gang : Bool) (n : Nat) (phase : Nat) (refresh : Bool)
  /-- is held until the current phase completes, then arrives; the flag says whether it waits after that -/
  | arrive (gang : Bool) (n : Nat) (thenWait : Bool) (refresh : Bool)
  /-- waits in SLEEP, in the wait of the group's sleepers that stands at the position -/
  | sleep (seq : Nat)
  /-- waits for the answer of a page request of its fetch -/
  | fetch (req : Nat)
  deriving DecidableEq, Repr

/-- How a walk ends: filled by a leaf, by a page request, or by ACCESS (12: R238, 21: R365). -/
inductive WalkResult where
  | fill (e : BitVec 64)
  | req (write : Bool)
  | bad
  deriving DecidableEq, Repr

/-- A walk that ended for an agent which translates page by page: root slot, page, result. -/
abbrev Walked := Nat × Nat × WalkResult

/-- How one lane access of a memory word stands. -/
inductive AccState where
  /-- not translated: the TLBs miss and a walk is due -/
  | miss
  /-- waits for a page request -/
  | wait (req : Nat)
  /-- translated by this leaf entry; the frame of a shadow pair is chosen at the access (03: R71) -/
  | leaf (e : BitVec 64)
  /-- needs no translation: role window, or physical in the walker slot -/
  | direct (pa : Nat)
  /-- goes to a peer through this import slot -/
  | peer (slot : Nat)
  /-- its page request was answered with this slot; the entry is due for replay (03: R76) -/
  | answered (slot : Nat)
  /-- failed with this trap code -/
  | failed (code : BitVec 8)
  deriving DecidableEq, Repr

/-- One access of one lane: 1, 2, 4 or 8 bytes (04: R79). -/
structure LaneAcc where
  /-- Lane. -/
  lane : Nat
  /-- Byte offset of this access in the lane's datum: 0, or 8 for the second half of 16 bytes. -/
  off : Nat
  /-- Bytes. -/
  size : Nat
  /-- Virtual address; for LDK the token position. -/
  va : BitVec 64
  /-- How its translation stands. -/
  st : AccState
  /-- Performed. -/
  done : Bool
  /-- Store data or operand. -/
  data : BitVec 64
  /-- Compare value of a CAS. -/
  cmp : BitVec 64
  /-- Value read. -/
  val : BitVec 64
  /-- Ordinal of the access in its thread (17: R304), or of the contribution (11: R213). -/
  ordinal : Nat
  /-- The gate has judged it (05: R420). -/
  judged : Bool
  /-- The gate holds it since this arrival: its order number and its aclk (05: R113). -/
  held : Option (Nat × Nat)
  /-- It ended a run of a replay whose hash did not match; the answer is on its way (26: R417). -/
  diverged : Bool
  deriving DecidableEq, Repr

/-- The atomics of 11: R211. -/
inductive AtomOp where
  | add | minI | maxI | minN | maxN | band | bor | bxor | xchg
  deriving DecidableEq, Repr

/-- What a memory word in flight does (11). -/
inductive MemKind where
  | load (bytes : Nat) (signed : Bool)
  | store (bytes : Nat)
  | atom (op : AtomOp) (bytes : Nat)
  | cas (bytes : Nat)
  | fadd (f64 : Bool)
  | ldk
  | fence (kind : FenceKind)
  deriving DecidableEq, Repr

/-- Where a store-queue entry stands (04: R85, R86). -/
inductive QueueState where
  | none | queued | outbound
  deriving DecidableEq, Repr

/-- One lane of LDK: its token position, and the tensor-identifier entry that it read (11: R218, 15: R300). -/
structure KvLane where
  lane : Nat
  pos : Nat
  tid : List Byte
  /-- Repetitions of the three reads of the entry (11: R219). -/
  tries : Nat
  deriving DecidableEq, Repr

/-- A memory word issued and not finished, in program order (04: R79). -/
structure MemOp where
  /-- Position in the group's program order. -/
  seq : Nat
  /-- PC of the word. -/
  pc : BitVec 56
  /-- The word. -/
  word : Word
  /-- Lanes of the issuing set. -/
  set : BitVec 32
  /-- What it does. -/
  kind : MemKind
  /-- Ordering. -/
  ord : Ord
  /-- Scope. -/
  scope : Scope
  /-- Base register value at issue. -/
  base : BitVec 64
  /-- Its lane accesses in ascending lane order. -/
  accs : List LaneAcc
  /-- Slot of its pending descriptor. -/
  pend : Option Nat
  /-- Store-queue state. -/
  queue : QueueState
  /-- Operand-log entry (02: R55). -/
  log : Option Nat
  /-- Root slot and generation it was issued under, and the slots pinned for answers (03: R68, R76). -/
  slot : Nat
  gen : BitVec 16
  answered : List Nat
  /-- The lanes of an LDK. -/
  kv : List KvLane
  deriving DecidableEq, Repr

/-- A pending destination (02: R56). -/
structure Pend where
  /-- Class: uniform or vector. -/
  uniform : Bool
  /-- Effective register number. -/
  reg : Nat
  /-- Registers: 1, 2 or 4. -/
  width : Nat
  /-- First landing line. -/
  line : Nat
  /-- Lanes of the issuing set. -/
  set : BitVec 32
  /-- Lanes the value lands in. -/
  lanes : BitVec 32
  /-- Instructions of the window still to issue. -/
  remaining : Nat
  /-- The value is complete in the landing lines. -/
  landed : Bool
  deriving DecidableEq, Repr

/-- The trap state of a group (12: R241). -/
structure TrapState where
  /-- Trap word bits 7:0. -/
  code : BitVec 8
  /-- Bit 8, handler active. -/
  active : Bool
  /-- Bit 9, resume wait. -/
  resume : Bool
  /-- Bit 10, held trap pending. -/
  held : Bool
  /-- Bits 27:16, immediate of trap or brk. -/
  imm : BitVec 12
  /-- Trap PC. -/
  pc : BitVec 56
  /-- Return PC, TRETPC. -/
  ret : BitVec 56
  /-- The trapping word. -/
  word : Word
  /-- Lanes that entered the handler. -/
  mask : BitVec 32
  /-- Failed lanes. -/
  failed : BitVec 32
  /-- Info word. -/
  info : BitVec 32
  /-- Address field. -/
  addr : BitVec 64
  /-- Current PC field. -/
  cur : BitVec 56
  deriving DecidableEq, Repr

/-- A trap raised on a group and not yet entered (12: R239, R240). -/
structure TrapReq where
  /-- Code. -/
  code : BitVec 8
  /-- PC of the trapping instruction. -/
  pc : BitVec 56
  /-- Return PC, for a trap raised at issue. -/
  ret : BitVec 56
  /-- Word. -/
  word : Word
  /-- The trapping set, or the set that issued the faulting instruction. -/
  mask : BitVec 32
  /-- Failed lanes. -/
  failed : BitVec 32
  /-- Info word. -/
  info : BitVec 32
  /-- Address. -/
  addr : BitVec 64
  /-- Immediate. -/
  imm : BitVec 12
  /-- Current PC of WATCHDOG. -/
  cur : BitVec 56
  /-- Order among boundary traps: log entries, then DIVERGE, STEP, PNOTICE (12: R239). -/
  rank : Nat
  deriving DecidableEq, Repr

/-- One lane of a probe: its address, and its flags once they are known (03: R78). -/
structure ProbeLane where
  lane : Nat
  va : BitVec 64
  flags : Option (BitVec 4)
  deriving DecidableEq, Repr

/-- A probe of which a lane waits for a walk: the set is held until the flags are written (11: R209). -/
structure Probe where
  /-- Lanes of the issuing set. -/
  set : BitVec 32
  /-- Condition register. -/
  creg : BitVec 2
  lanes : List ProbeLane
  /-- Root slot and generation it was issued under. -/
  slot : Nat
  gen : BitVec 16
  deriving DecidableEq, Repr

/-- A set that waits in SLEEP (12: R233). -/
structure Sleeper where
  /-- Position in the group's program order. -/
  seq : Nat
  /-- PC of the sleep word. -/
  pc : BitVec 56
  /-- The word. -/
  word : Word
  /-- Lanes of the set. -/
  mask : BitVec 32
  /-- Address. -/
  va : BitVec 64
  /-- Compares 8 bytes. -/
  n64 : Bool
  /-- Condition. -/
  cond : SleepCond
  /-- Comparison value. -/
  val : BitVec 64
  /-- Park threshold of this wait, when it overrides the region's. -/
  threshold : Option (BitVec 16)
  /-- A read of the word is due: at first, and after each store to it. -/
  due : Bool
  /-- The physical address that the last read found the word at; the watch stands there. -/
  pa : Option Nat
  /-- The page request it waits for, and the slot an answer named. -/
  req : Option Nat
  answered : Option Nat
  deriving DecidableEq, Repr

/-- An engine command issued and not completed (13: R247, R274). -/
structure EngCmd where
  /-- Position in the group's program order. -/
  seq : Nat
  /-- The word. -/
  word : Word
  /-- The instruction it decodes to. -/
  ins : Instr
  /-- Operand block as read at issue. -/
  ops : List (BitVec 64)
  /-- Slot of its pending descriptor. -/
  pend : Option Nat
  /-- Started. -/
  started : Bool
  /-- Order of issue among all commands; for a ring command, of reaching its ring. -/
  stamp : Nat
  /-- Tensor-identifier entry as read at start. -/
  tid : List Byte
  /-- Progress (13: R274). -/
  progress : Nat
  /-- Write pointer at its first byte. -/
  pointer : Nat
  /-- Clipped elements so far. -/
  clipped : Nat
  /-- Records a chain has completed, and their total bytes. -/
  records : Nat
  total : Nat
  /-- Address of a chain's current record, and the record as read. -/
  record : BitVec 64
  image : List Byte
  /-- Its work is over with this status code and quantity; it is due to complete. -/
  ended : Option (Nat × Nat)
  /-- Collective it joined: its occurrence number for the key. -/
  round : Nat
  /-- Page request it waits for. -/
  req : Option Nat
  /-- Answered pages and the slots their answers named (21: R369). -/
  answered : List (Nat × Nat)
  /-- A page request of it was answered with a failure (21: R369). -/
  failed : Bool
  /-- The walk that it waits for, by slot and page, and the walks that ended for it (21: R363). -/
  walkOn : Option (Nat × Nat)
  walked : List Walked
  deriving DecidableEq, Repr

/-- A rootsw whose step is outstanding (12: R237). -/
structure RootSw where
  /-- Destination field. -/
  d : BitVec 6
  /-- SA. -/
  word : BitVec 64
  /-- SB. -/
  gen : BitVec 64
  /-- Program-order position. -/
  seq : Nat
  deriving DecidableEq, Repr

/-- Activity of a group (01: R19, R20). -/
inductive Activity where
  | active | parking | parked
  deriving DecidableEq, Repr

/-- Why a group that parks or is parked may not yet wake (01: R20). -/
inductive ParkCause where
  | none | wait | evicted | preempt | debug | suspend | created | resumed
  deriving DecidableEq, Repr

/-- Where a group stands in a notice (01: R34, R35). -/
inductive Notice where
  | none | pending | handler | done
  deriving DecidableEq, Repr

/-- Region fields that a group takes at its refresh points (01: R30). -/
structure RegionView where
  determinism : Nat
  publishScope : Nat
  partition : Nat
  parkThreshold : Nat
  noticeDeadline : Nat
  faultDomain : Nat
  /-- The budgets of the region and of its ancestors that hold one: region and effective value (01: R31). -/
  activeBudgets : List (Nat × Nat)
  matrixShares : List (Nat × Nat)
  cxlShares : List (Nat × Nat)
  /-- The region that holds the root slots of the group (01: R30). -/
  holder : Nat
  deriving DecidableEq, Repr

/-- Control state of a group: lanes, PCs, sets, activity. -/
structure Ctl where
  /-- Core, 4 x cluster + core of the cluster. -/
  core : Nat
  /-- Group slot on the core (20: R349, 01: R21). -/
  slot : Nat
  /-- Present lanes (01: R8). -/
  present : BitVec 32
  /-- Exited lanes (01: R10). -/
  exited : BitVec 32
  /-- PC of each lane; jmp and ret can leave bits 63:56 nonzero, which the fetch traps (09: R183, 03: R61). -/
  pcs : Table (BitVec 64)
  /-- Wait count of each lane's set (01: R13). -/
  counts : Table (BitVec 24)
  /-- What each lane waits for. -/
  waits : Table LaneWait
  /-- Fetches whose page request was answered: lane and the slot that the answer named (03: R76), or none when the fetch has
  failed and ACCESS is due (03: R75, 21: R365). -/
  fetched : Table (Option Nat)
  /-- Lanes of the current set (01: R12). -/
  cur : BitVec 32
  /-- Lanes of sets that ended their turn with YIELD (01: R12). -/
  yielded : BitVec 32
  /-- Requested class (01: R23). -/
  cls : BitVec 2
  /-- Issue stamps of the lane and the uniform pipe (01: R25). -/
  lastLane : Nat
  lastUni : Nat
  /-- aclk since which the group has had a ready instruction without issuing (01: R26). -/
  readySince : Nat
  /-- Takes the next slot of its pipe (01: R26). -/
  urgent : Bool
  /-- Activity and its cause. -/
  act : Activity
  cause : ParkCause
  /-- aclk since which every set waits at a barrier or in SLEEP (12: R232). -/
  waitSince : Option Nat
  /-- aclk since which it is ready to activate (01: R21). -/
  wakeSince : Option Nat
  /-- Notice state. -/
  notice : Notice
  /-- Held by a debugger stop; steps one word next (25: R405). -/
  stopped : Bool
  stepping : Bool
  /-- Lanes whose next issue is not compared (25: R404). -/
  uncompared : BitVec 32
  /-- Registers whose lines are not in the core (02: R50). -/
  missing : List Nat
  /-- Registers whose lines are dirty in the core (02: R50). -/
  dirty : List Nat
  /-- Stamp of the last issue that named a register, for the replacement order (02: R50). -/
  used : Table Nat
  /-- The lines in the operand cache, least recently used first (02: R51). -/
  operands : List Nat
  /-- Register misses whose fill is in flight (02: R52). -/
  filling : List Nat
  /-- Context address, read from the descriptor at each activation (02: R54). -/
  ctx : BitVec 64
  /-- Pages with a context fault outstanding, each with its page request; the pages answered with the slots that the answers
  named; the walks that the context waits for, by slot and page, and those that ended for it (02: R53). -/
  ctxReqs : List (Nat × Nat)
  ctxAns : List (Nat × Nat)
  ctxWalkOn : List (Nat × Nat)
  ctxWalked : List Walked
  /-- A forced park has saved it: tiles, accumulators and the engine record stand in the context (01: R36). -/
  saved : Bool
  /-- PC of its last exit, and whether its retirement has been compared with a log (25: R418). -/
  lastExit : BitVec 56
  compared : Bool
  /-- aclk of its last issue (24: R397). -/
  issuedAt : Option Nat
  /-- Parked after WATCHDOG, and not reactivated since (16: R303). -/
  watchdogged : Bool
  /-- Discarded by a kill; stays listed only while stores that left its queue are performed (01: R32). -/
  dead : Bool
  deriving DecidableEq, Repr

/-- Register state of a group (02: R38). Unlisted entries read as 0. -/
structure Regs where
  /-- Vector registers: register n of lane k at 32 n + k. -/
  v : Table (BitVec 32)
  /-- Uniform registers. -/
  s : Table (BitVec 64)
  /-- Condition registers of each lane, packed as 02: R39. -/
  c : Table (BitVec 16)
  /-- ucc. -/
  ucc : BitVec 4
  /-- xi. -/
  xi : BitVec 8
  /-- Tiles: byte b of row i of tile n at 2048 n + 64 i + b (02: R45). -/
  tiles : Table Byte
  /-- Scale bytes of the tiles: block k of row i of tile n at 128 n + 4 i + k. -/
  scales : Table Byte
  /-- Accumulators as 32-bit words, laid out as 02: R45 (log 14). -/
  acc : Table (BitVec 32)
  deriving DecidableEq, Repr

/-- A lane store or atomic that has left the queue and is not in the store hash yet (25: R408): its position, its lane, the offset in the
lane's datum, its address, the bytes it writes, and whether it has been performed. -/
structure HashPiece where
  seq : Nat
  lane : Nat
  off : Nat
  va : BitVec 64
  bytes : List Byte
  done : Bool
  deriving DecidableEq, Repr

/-- Memory and windows of a group. -/
structure Flight where
  /-- Memory words in flight, in program order. -/
  ops : List MemOp
  /-- Probes that wait for walks (11: R209). -/
  probes : List Probe
  /-- Pending descriptors by slot 0 to 7. -/
  pend : Table Pend
  /-- Landing lines: word k of line m at 32 m + k. -/
  landing : Table (BitVec 32)
  /-- Pending destinations whose value landed while the group was parked, and which its context does not hold yet (25: R406). -/
  late : List Nat
  /-- Next program-order position. -/
  nextSeq : Nat
  /-- Ordinals of lane memory words and of fadd.ord, by lane (17: R304, 11: R213). -/
  ordinals : Table Nat
  faddOrdinals : Table Nat
  /-- Store hash (25: R408), and the stores on their way to their homes, in queue order. -/
  hash : BitVec 32
  hashing : List HashPiece
  /-- Engine commands. -/
  cmds : List EngCmd
  /-- rootsw steps outstanding. -/
  roots : List RootSw
  /-- Sets in SLEEP. -/
  sleepers : List Sleeper
  /-- Program-order position of a PUBL whose instant is outstanding holds later accesses (05: R106). -/
  publ : Option Nat
  deriving DecidableEq, Repr

/-- Traps of a group. -/
structure Traps where
  /-- Trap state. -/
  st : TrapState
  /-- TVEC. -/
  tvec : BitVec 56
  /-- A trap whose entry waits for pending values (07: R149). -/
  entering : Option TrapReq
  /-- Traps raised at an instruction boundary, not yet taken. -/
  boundary : List TrapReq
  /-- The waits that the lanes in the handler return to (12: R232). -/
  saved : Table LaneWait
  deriving DecidableEq, Repr

/-- A group of 32 threads. -/
structure Group where
  id : Ident
  ctl : Ctl
  regs : Regs
  fl : Flight
  tr : Traps
  /-- Root slot and generation pinned (03: R68). -/
  pinSlot : Nat
  pinGen : BitVec 16
  /-- Region fields in force since its last refresh point. -/
  view : RegionView
  deriving DecidableEq, Repr

/-- One barrier (12: R230): its phase, and for each thread one more than the last phase it arrived at. -/
structure Barrier where
  phase : Nat
  last : Table Nat
  deriving DecidableEq, Repr

/-- A stage ring (13: R259): its entries, and how often it was put to and taken from. -/
structure Ring where
  entries : List (BitVec 48)
  puts : Nat
  takes : Nat
  deriving DecidableEq, Repr

/-- A Blotter slot (13: R265): the round, its count n, whether it failed, and the record addresses by rank. -/
structure BlotSlot where
  round : Nat
  count : Nat
  failed : Bool
  ranks : Table (BitVec 64)
  deriving DecidableEq, Repr

/-- A weight-buffer panel (13: R261): its 2 KiB, scale bytes, format code when loaded, and the source of the load. -/
structure Panel where
  bytes : Table Byte
  scales : Table Byte
  fmt : Option Nat
  tid : List Byte
  origin : BitVec 64
  x24 : Bool
  deriving DecidableEq, Repr

/-- Where a gang stands in a pre-emption (01: R33 to R37). -/
inductive Preempt where
  | none
  /-- notice phase, with the aclk of the deadline -/
  | notice (deadline : Nat)
  | forced
  | parked
  deriving DecidableEq, Repr

/-- A placed gang. -/
structure Gang where
  launch : Nat
  /-- GANGID. -/
  gangid : Nat
  cluster : Nat
  /-- Core of each workgroup. -/
  cores : List Nat
  /-- Bytes of its gang window (20: R346). -/
  window : Nat
  /-- Channel write pointers (05: R104). -/
  chwp : Table (BitVec 64)
  rings : Table Ring
  blots : Table BlotSlot
  panels : Table Panel
  /-- Gang barriers at n, workgroup barriers at 8 (w + 1) + n. -/
  bars : Table Barrier
  preempt : Preempt
  /-- May not resume before the driver says so (01: R32). -/
  suspended : Bool
  /-- The driver has resumed it since, and it is due to be placed again (01: R32, R37). -/
  again : Bool
  /-- A unit that it stood on has been retired, and it has not been placed again since (25: R414). -/
  displaced : Bool
  /-- Creation order. -/
  created : Nat
  deriving DecidableEq, Repr

/-- A position of the launch record (19: R332). -/
structure Position where
  notice : Bool
  cls : BitVec 2
  duty : Duty
  alloc : Alloc
  deriving DecidableEq, Repr

/-- A launch record (19: R332). -/
structure Record where
  entry : BitVec 56
  tvec : BitVec 56
  w : Nat
  t : Nat
  rings : Nat
  panels : Nat
  classT : Bool
  classA : Bool
  laneStack : Nat
  uniStack : Nat
  positions : List Position
  deriving DecidableEq, Repr

/-- A launch descriptor (20: R344). -/
structure LaunchDesc where
  record : BitVec 64
  region : Nat
  x : Nat
  y : Nat
  z : Nat
  privileged : Bool
  spillBytes : Nat
  seed : BitVec 64
  binding : BitVec 64
  spill : BitVec 64
  args : List (BitVec 64)
  deriving DecidableEq, Repr

/-- A contribution of an ordered add (05: R109). -/
structure Contribution where
  /-- Home word. -/
  pa : Nat
  /-- The home that holds it, as it was when the contribution arrived; for one made through the import window, by the exporter's number. -/
  home : Nat
  /-- The import slot of one made through the import window. -/
  remote : Option Nat
  f64 : Bool
  wgid : Nat
  thread : Nat
  ordinal : Nat
  data : BitVec 64
  deriving DecidableEq, Repr

/-- A dispatcher's part of a launch (20: R347). -/
structure Dispatcher where
  /-- Gangs claimed and not placed, ascending. -/
  claimed : List Nat
  stopped : Bool
  deriving DecidableEq, Repr

/-- A launch parsed and not completed. -/
structure Launch where
  queue : Nat
  /-- Launch sequence number (20: R349). -/
  seq : Nat
  /-- Packet it belongs to. -/
  packet : Nat
  /-- Address of its descriptor, and the descriptor as read at the start. -/
  descAddr : BitVec 64
  desc : LaunchDesc
  /-- Region, and the queue's privilege. -/
  region : Nat
  queuePriv : Bool
  /-- Launches that must complete first (20: R341, R342, R352). -/
  after : List Nat
  started : Bool
  killed : Bool
  record : Record
  /-- Binding-table words by role. -/
  binding : Table (BitVec 64)
  /-- Tensor-identifier entries: byte k of entry n at 64 n + k (13: R249). -/
  tids : Table Byte
  /-- Replicas of an entry that a tidset has replaced before its status lands: cluster, entry, bytes (15: R300). -/
  tidAhead : List (Nat × Nat × List Byte)
  /-- Launch windows: bytes by cluster (20: R346). -/
  windows : Table Nat
  /-- Workgroup counter (20: R347). -/
  counter : Nat
  dispatchers : Table Dispatcher
  retired : Nat
  /-- Root slot pinned (20: R347), with the region that holds it. -/
  pin : Option (Nat × Nat)
  contributions : List Contribution
  overflow : Bool
  /-- Completion status once decided. -/
  status : Option (BitVec 64)
  deriving DecidableEq, Repr

/-- A range of a version 2 packet (20: R338). -/
structure Range where
  write : Bool
  base : Nat
  len : Nat
  deriving DecidableEq, Repr

/-- What a packet that has been parsed and has not completed is for (20: R338, R340, R352). -/
inductive PacketKind where
  | launch
  | graph
  | wait (addr : BitVec 64) (cond : Nat) (value : BitVec 32)
  deriving DecidableEq, Repr

/-- A loop of a kernel graph (14: R291, R292): its node, iterations done, launches of the current body. -/
structure LoopRun where
  node : BitVec 64
  count : Nat
  body : List Nat
  deriving DecidableEq, Repr

/-- A kernel graph in progress (20: R352, 14: R291). -/
structure GraphRun where
  /-- The device has begun to run it. -/
  begun : Bool
  /-- Next node, or 0 at the end of the chain or of a loop body. -/
  node : BitVec 64
  /-- Loops it stands inside, innermost first. -/
  loops : List LoopRun
  /-- Launches started, in start order. -/
  started : List Nat
  /-- Nonzero statuses of completed launches. -/
  statuses : Table (BitVec 64)
  /-- A node ended it with code 0x04. -/
  bad : Bool
  deriving DecidableEq, Repr

/-- A packet parsed and not completed. -/
structure Packet where
  queue : Nat
  version : Nat
  kind : PacketKind
  completion : BitVec 64
  value : BitVec 64
  ranges : List Range
  /-- Packets it waits for. -/
  after : List Nat
  graph : GraphRun
  deriving DecidableEq, Repr

/-- A queue (20: R334). -/
structure Queue where
  ring : BitVec 64
  size : Nat
  qgroup : Nat
  privileged : Bool
  error : Bool
  rcb : Nat
  readAddr : BitVec 64
  wake : BitVec 64
  savedWrite : BitVec 32
  savedRead : BitVec 32
  /-- Hardware slot, while mapped. -/
  slot : Option Nat
  write : BitVec 32
  read : BitVec 32
  deriving DecidableEq, Repr

/-- Queues and packets at the control die. -/
structure Dispatch where
  queues : Table Queue
  packets : Table Packet
  /-- Launch sequence number last given. -/
  launchSeq : Nat
  /-- KV second-stage table (13: R272). -/
  kvBase : Nat
  kvCount : Nat
  deriving DecidableEq, Repr

/-- A gated word's script entry (12: R245, 25: R410): the access named, and what replay compares at the run's end. -/
structure ScriptEntry where
  word : Nat
  group : Nat
  lane : Nat
  ordinal : Nat
  /-- Ends a run of this hash, with or without a store. -/
  run : Option (BitVec 32 × Bool)
  deriving DecidableEq, Repr

/-- A region's order gate (05: R112, R113, R420). -/
structure Gate where
  script : List ScriptEntry
  /-- Words gated. -/
  words : List Nat
  /-- Physical address of the status word, or of the replay log's status. -/
  status : Nat
  timeout : Nat
  unscripted : Nat
  /-- Order number of the last scripted access, or of arming. -/
  progressed : Nat
  replay : Bool
  /-- Hash after the latest store of the current run, by word (25: R410). -/
  runHash : Table (BitVec 32)
  deriving DecidableEq, Repr

/-- Record mode (25: R409). -/
structure Recorder where
  /-- Physical words watched, in list order. -/
  watch : List Nat
  /-- Log buffer: virtual base, bytes, and the slot it translates under with the region that holds it. -/
  log : BitVec 64
  bytes : Nat
  slot : Nat
  holder : Nat
  entries : Nat
  status : Nat
  /-- Last entry of each watched word: its index, group number, lane, next ordinal, run length. -/
  open_ : Table (Nat × Nat × Nat × Nat × Nat)
  deriving DecidableEq, Repr

/-- A region (20: R350): the copy of its block in the control die, and what the device keeps beside it. -/
structure Region where
  parent : Nat
  level : Nat
  clipped : BitVec 12
  activeGroups : BitVec 32
  windowBytes : BitVec 64
  matrixShare : BitVec 16
  cxlShare : BitVec 16
  ceiling : BitVec 8
  faultDomain : BitVec 8
  promise : BitVec 8
  determinism : BitVec 8
  publishScope : BitVec 8
  partition : BitVec 8
  inheritSlots : Bool
  current : Nat
  watchdog : BitVec 32
  parkThreshold : BitVec 32
  noticeDeadline : BitVec 32
  slots : Table (BitVec 64)
  inheritMask : Bool
  mask : BitVec 320
  arena : BitVec 64
  frameBytes : BitVec 32
  frames : BitVec 32
  /-- Pins by slot (03: R67), and firmware holds by slot (21: R356). -/
  pins : Table Nat
  holds : Table Nat
  /-- Slots unused and not yet reclaimed (03: R70). -/
  unused : List Nat
  suspended : Bool
  killed : Bool
  gate : Option Gate
  recorder : Option Recorder
  /-- Matrix use, and CXL use by port, in the current 4,096-aclk window (01: R31). -/
  matrixUse : Nat
  cxlUse : Table Nat
  /-- In replay mode: the retirement entries of the log, group number and hash (25: R410, R418). -/
  replay : Option (List (Nat × BitVec 32))
  deriving DecidableEq, Repr

/-- A TLB entry (03: R70): region, generation, virtual page, leaf. -/
structure TlbEntry where
  region : Nat
  gen : BitVec 16
  page : Nat
  leaf : BitVec 64
  deriving DecidableEq, Repr

/-- A walk queued or running (21: R363). -/
structure Walk where
  region : Nat
  slot : Nat
  gen : BitVec 16
  root : BitVec 64
  page : Nat
  kind : Nat
  probe : Bool
  /-- Profiling partition of the group whose miss started it (24: R398). -/
  part : Nat
  deriving DecidableEq, Repr

/-- A bin set of a core (24: R396): partition, active counts by bin for LCR. -/
structure BinSet where
  partition : Nat
  lcr : Table (BitVec 64)
  deriving DecidableEq, Repr

/-- A core. -/
structure Core where
  tlb : List TlbEntry
  /-- Outbound path: group and position, in entry order (04: R86). -/
  out : List (Nat × Nat)
  walks : List Walk
  walking : Bool
  walkIssued : Nat
  bins : List BinSet
  /-- aclk of each register miss of the last 1,024 aclk (01: R22). -/
  misses : List Nat
  /-- Group slot last sampled, by partition (24: R397). -/
  sampled : Table Nat
  /-- aclk at which the last sample was due, by partition (24: R397). -/
  sampledAt : Table Nat
  retired : Bool
  deriving DecidableEq, Repr

/-- A cluster. -/
structure Cluster where
  tlb : List TlbEntry
  retired : Bool
  /-- Of a spare that has been put in service: the cluster that it stands for (25: R414). -/
  standsFor : Option Nat
  /-- The group whose mma the Broad Edge took last, by its creation (13: R262). -/
  served : Option Nat
  deriving DecidableEq, Repr

/-- A page request outstanding (21: R366). -/
structure PageReq where
  page : Nat
  region : Nat
  slot : Nat
  gen : BitVec 16
  kind : Nat
  deriving DecidableEq, Repr

/-- A peer's request that was admitted and waits for a page request (21: R372). -/
structure Ingress where
  req : PeerRequest
  /-- Page request. -/
  id : Nat
  /-- Region whose slot is pinned for it, and the slot. -/
  holder : Nat
  slot : Nat
  deriving DecidableEq, Repr

/-- A contribution that a launch of a peer made through an export (05: R110). -/
structure PeerAdd where
  importer : BitVec 22
  launch : Nat
  add : Contribution
  deriving DecidableEq, Repr

/-- Translation management at the control die. -/
structure Xlat where
  /-- Publish counters and owners (21: R362). -/
  publish : Table (BitVec 64)
  owners : Table Nat
  imports : Table (BitVec 128)
  exports : Table (BitVec 512)
  requests : Table PageReq
  nextReq : Nat
  /-- Peer requests admitted that wait for a page request (21: R372). -/
  ingress : List Ingress
  /-- Contributions of peers' launches whose epochs are open (05: R110). -/
  peerAdds : List PeerAdd
  deriving DecidableEq, Repr

/-- One rank of a collective that has joined (13: R268). -/
structure CollRank where
  rank : Nat
  grp : Nat
  seq : Nat
  /-- Bytes 0x18 to 0x27 of its descriptor. -/
  params : List Byte
  /-- Its contribution in the wire format, then its new residuals. -/
  data : List Byte
  /-- It has completed. -/
  left : Bool
  deriving DecidableEq, Repr

/-- A collective in progress: buffer key, occurrence, ranks that joined on this device. -/
structure Coll where
  key : BitVec 32
  round : Nat
  launch : Nat
  ranks : List CollRank
  /-- Failed code, once decided. -/
  failed : Option Nat
  deriving DecidableEq, Repr

/-- The state field of STATUS (23: R377). -/
inductive DevState where
  | recovery | booting | running | halted
  deriving DecidableEq, Repr

/-- A request block as firmware copied it at the doorbell (23: R378). -/
structure Request where
  code : Nat
  len : BitVec 16
  seq : BitVec 32
  /-- The operands, from byte 8 of the block. -/
  operands : List Byte
  deriving DecidableEq, Repr

/-- BAR0 and firmware's side of the mailbox (23: R377, R378). -/
structure HostIf where
  dev : DevState
  /-- STATUS bits 2 and 3. -/
  unconfigured : Bool
  timeUnlocked : Bool
  lastSeq : BitVec 32
  event : BitVec 3
  nhead : BitVec 7
  ntail : BitVec 7
  request : Table Byte
  response : Table Byte
  notices : Table Byte
  taken : Option Request
  /-- Notices that wait for room, oldest first. -/
  backlog : List (List Byte)
  deriving DecidableEq, Repr

/-- Boot state (23: R379 to R381). -/
structure Boot where
  staging : Table Byte
  config : Table Byte
  digest : List Byte
  configDigest : List Byte
  version : BitVec 32
  walkerEntry : Nat
  settings : Option Config.Settings
  /-- Physical base of the queue table, once firmware has named it (20: R334). -/
  queueTable : Option Nat
  /-- Physical bases of the import and export tables, once firmware has named them (21: R370, R371). -/
  importTable : Option Nat
  exportTable : Option Nat
  /-- The firmware threshold of register misses (01: R22). -/
  missThreshold : Nat
  deriving DecidableEq, Repr

/-- A violation record (23: R387). -/
structure Violation where
  time : BitVec 64
  address : BitVec 64
  source : BitVec 32
  kind : Nat
  reason : Nat
  dropped : Nat
  deriving DecidableEq, Repr

/-- A Molod port that is up: the frames sent under its key, and the renewals of the key (23: R388). -/
structure Port where
  frames : Nat
  renewals : Nat
  deriving DecidableEq, Repr

/-- The fabric, and the violation log (23: R387, R388). -/
structure Fabric where
  /-- The ports that are up. -/
  ports : Table Port
  violations : List Violation
  dropped : Nat
  /-- Single-bit errors corrected (23: R385). -/
  corrected : Nat
  /-- CXL ports that are down (23: R384). -/
  cxlDown : List Nat
  /-- Firmware event log: id and code of discarded answers (21: R368). -/
  eventLog : List (Nat × Nat)
  deriving DecidableEq, Repr

/-- Clocks (12: R243, 23: R389, R390). -/
structure Clock where
  /-- aclk since die reset, CYCLE. -/
  cycle : Nat
  /-- TIME in ns. -/
  time : Nat
  /-- aclk in MHz. -/
  mhz : Nat
  /-- A PTP reference is present. -/
  reference : Bool
  /-- How far TIME is ahead of its fastest pace, and behind its slowest, in 1/2000 of the time that one aclk at 1 MHz takes (23: R389). -/
  fast : Nat
  slow : Nat
  /-- The aclk at which the present window of the shares began (01: R31). -/
  window : Nat
  deriving DecidableEq, Repr

/-- A profiling partition (24: R393 to R402). -/
structure Partition where
  snap : Nat
  ctl : Nat
  ring : Nat
  bytes : Nat
  /-- Control values of the interval; rejected when the frame broke R394. -/
  enable : BitVec 5
  period : Nat
  rate : Nat
  rejected : Bool
  bins : List (Nat × Nat)
  events : List Nat
  /-- Intervals since the control frame was last accepted with another selector set. -/
  interval : Nat
  /-- Counts, enabled and counted times by event code. -/
  counts : Table Nat
  enabledTime : Table Nat
  countedTime : Table Nat
  /-- Stroke sums: category k of bin n of row r at 40 r + 5 n + k (24: R400). -/
  strokes : Table Nat
  readIndex : Nat
  writeIndex : Nat
  lost : Nat
  lostSlots : Nat
  version : Nat
  /-- Engine completions seen, by cluster (24: R401). -/
  traced : Table Nat
  deriving DecidableEq, Repr

/-- Profiling. -/
structure Prof where
  parts : Table Partition
  /-- aclk at which the current interval began, and the interval's number in TIME: TIME in ns over 10,000 (24: R394). -/
  started : Nat
  index : Nat
  deriving DecidableEq, Repr

/-- Debugging and freezing (25: R403 to R407). -/
structure Debug where
  attached : Option Nat
  comparators : Table (BitVec 128)
  /-- Frozen (25: R407). -/
  frozen : Bool
  /-- A FREEZE 0 that waits for started commands to stand, and the buffer of a FREEZE 1 that waits for groups to park. -/
  freezing : Bool
  dumping : Option Nat
  /-- The started commands that a freeze has stopped at a wait for another party, by their stamps (25: R407). -/
  halted : List Nat
  deriving DecidableEq, Repr

/-- An access by an agent outside the device: a load of n bytes, a store, an atomic or a compare-and-swap of n bytes (05: R97). -/
inductive OutAccess where
  | load (n : Nat)
  | store (bytes : List Byte)
  | atom (op : AtomOp) (n : Nat) (data : BitVec 64)
  | cas (n : Nat) (compare data : BitVec 64)
  deriving DecidableEq, Repr

/-- Which agent moves (log 1). -/
inductive Turn where
  /-- A step of the table without an encoding. -/
  | event (i : Instr)
  /-- A core issues from one pipe: the lane pipe when uniform is false. -/
  | issue (core : Nat) (uniform : Bool)
  /-- Clocks advance (log 5). -/
  | elapse (aclk ns : Nat)
  /-- A host-die agent, or a sharer of a shared CXL window, makes an access (05: R97). -/
  | outside (sharer : Bool) (pa : Nat) (a : OutAccess)
  /-- A host-die agent makes an access at an address of a region's tree, which the control die translates (05: R107). -/
  | hostVa (rcb : Nat) (va : BitVec 64) (a : OutAccess)
  /-- A copy channel delivers some bytes of a started command (05: R103). -/
  | deliver (grp seq bytes : Nat)
  /-- A launch of a peer has ended: its epochs close here (05: R110). -/
  | peerClose (importer : BitVec 22) (launch : Nat)
  /-- The walker serves the head of a core's walk queue by its contract (21: R365). -/
  | walk (core : Nat)
  /-- A core replaces a register line of a group (02: R50; log 18). -/
  | replace (grp line : Nat)
  /-- A core and its cluster drop the TLB entries of a page (03: R74; log 18). -/
  | forget (core page : Nat)
  /-- Firmware sets the threshold of register misses (01: R22). -/
  | missThreshold (n : Nat)
  /-- Firmware names the base of the queue table (20: R334), and clears the error flag of a queue (20: R335). -/
  | queueTable (base : Nat)
  /-- Firmware names the bases of the import and export tables (21: R370, R371). -/
  | importTable (base : Nat)
  | exportTable (base : Nat)
  | clearError (queue : Nat)
  /-- The replica of a cluster takes the entry of a started tidset before its status lands; a source at a peer is supplied (15: R300). -/
  | tidReplica (grp seq cluster : Nat) (ext : EngineReply)
  /-- A Molod port has sent frames (23: R388). -/
  | frames (port n : Nat)
  /-- A group of a resumed gang takes its tiles and its saved commands back (01: R37). -/
  | restore (grp : Nat)
  /-- The driver reads a tile of a parked group (25: R406). -/
  | tileRead (grp : Nat) (tile : BitVec 3) (buf : Nat)
  /-- What the environment does to a line of 64 bytes: its accesses get an error response from now on, or no more (23: R384, R385). -/
  | spoil (line : Nat) (kind : Option ErrorKind)
  /-- A CXL port goes down or comes up (23: R384). -/
  | cxlPort (port : Nat) (up : Bool)
  /-- A single-bit error is corrected and counted (23: R385). -/
  | corrected
  deriving DecidableEq, Repr

/-- The word being issued: group, lanes of the set, PC and word (log 4). -/
structure Issue where
  grp : Nat
  mask : BitVec 32
  pc : BitVec 56
  word : Word
  deriving DecidableEq, Repr

/-- Where an access is performed: at a home of this device, or at one of a peer, whose addresses are its own. -/
inductive Spot where
  | home (pa : Nat)
  | peer (device : BitVec 22)
  deriving DecidableEq, Repr

/-- An access performed before its turn for the agents of a scope's instance (04: R89, R90, R95). A store: those agents, and the groups of
its core, do not reach its bytes until every store of the group before the position is performed. A read of a word that a gate or a
recorder notes: those agents do not write its bytes until the acquire or fence at the position is complete. -/
structure Early where
  grp : Nat
  seq : Nat
  scope : Scope
  spot : Spot
  size : Nat
  write : Bool
  deriving DecidableEq, Repr

/-- The machine. -/
structure State where
  /-- Turns to take; with none the default order holds (log 1). -/
  agenda : List Turn
  /-- The word being issued (log 4). -/
  issue : Option Issue
  /-- Next stamp for creation, arrival and issue orders (log 4). -/
  fresh : Nat
  /-- Next value the spec leaves open (log 8). -/
  open_ : Nat
  clk : Clock
  mem : Memory
  /-- Version counters of the lines of private CXL windows, by line number (23: R383). -/
  versions : Table Nat
  /-- Lines of 64 bytes whose data gets an error response, by line number: what the environment has done to them (23: R384, R385). -/
  bad : Table ErrorKind
  host : HostIf
  boot : Boot
  fab : Fabric
  disp : Dispatch
  launches : Table Launch
  gangs : Table Gang
  groups : Table Group
  cores : Table Core
  clusters : Table Cluster
  regions : Table Region
  xlat : Xlat
  colls : List Coll
  /-- Accesses performed before their turn for some agents (04: R95). -/
  early : List Early
  prof : Prof
  dbg : Debug
  deriving DecidableEq, Repr

/-- The reasons a step stops with a fault. -/
inductive Fault where
  /-- Raised by exec when a word is executed and no issue slot names a group: no machine state of the spec issues a word
  without a group. Safe: the machine stops. -/
  | noIssuer
  /-- Raised by step when the agenda's turn names a word as an event: words are issued by groups only. Safe. -/
  | wordTurn
  deriving DecidableEq, Repr

/-- The reasons a step has no meaning. -/
inductive Refusal where
  /-- Raised by exec for an instruction that is not modelled yet, by its mnemonic. Safe: the machine stops. -/
  | notModelled (mnemonic : String)
  deriving DecidableEq, Repr

/-- The outcome of a step of this machine. -/
abbrev Out := Host.Outcome State Fault Refusal

/-- What a byte of memory that nothing has written reads as: the spec gives no power-on contents; DESIGN CHOICE 0
(log 2). -/
def Memory.unlisted : Byte := 0#8

/-- The canonical form of memory. -/
def Memory.wf (m : Memory) : Bool := Table.wf Memory.unlisted m

/-- The machine right after reset (23: R379): recovery, nothing placed, BAR0 at the reset column of R377. What the spec
gives no reset value for is named in log 3. -/
def State.reset : State where
  agenda := []
  issue := none
  fresh := 0
  open_ := 0
  clk := { cycle := 0, time := 0, mhz := 800, reference := false, fast := 0, slow := 0, window := 0 }
  mem := []
  versions := []
  bad := []
  host := { dev := .recovery, unconfigured := false, timeUnlocked := false, lastSeq := 0, event := 0, nhead := 0, ntail := 0,
            request := [], response := [], notices := [], taken := none, backlog := [] }
  boot := { staging := [], config := [], digest := [], configDigest := [], version := 0, walkerEntry := 0,
            settings := none, queueTable := none, importTable := none, exportTable := none, missThreshold := 256 }
  fab := { ports := [], violations := [], dropped := 0, corrected := 0, cxlDown := [], eventLog := [] }
  disp := { queues := [], packets := [], launchSeq := 0, kvBase := 0, kvCount := 0 }
  launches := []
  gangs := []
  groups := []
  cores := []
  clusters := []
  regions := []
  xlat := { publish := [], owners := [], imports := [], exports := [], requests := [], nextReq := 1, ingress := [], peerAdds := [] }
  colls := []
  early := []
  prof := { parts := [], started := 0, index := 0 }
  dbg := { attached := none, comparators := [], frozen := false, freezing := false, dumping := none, halted := [] }

end Sys2Proof.Machine
end

