-- ==== Sys2Proof/Machine/Flags.lean ====
section
/-!
DEFINITION. The flags S, Z, C, V (02: R39), the conditions on them (07: R142), and every flag computation of the spec.
-/

namespace Sys2Proof.Machine

/-- A nibble of flags: S bit 3, Z bit 2, C bit 1, V bit 0 (02: R39). -/
def flags (s z c v : Bool) : BitVec 4 := BitVec.ofBool s ++ BitVec.ofBool z ++ BitVec.ofBool c ++ BitVec.ofBool v

/-- Flag S. -/
def flagS (f : BitVec 4) : Bool := f.getLsbD 3

/-- Flag Z. -/
def flagZ (f : BitVec 4) : Bool := f.getLsbD 2

/-- Flag C. -/
def flagC (f : BitVec 4) : Bool := f.getLsbD 1

/-- Flag V. -/
def flagV (f : BitVec 4) : Bool := f.getLsbD 0

/-- Whether a condition holds on flags (07: R142). -/
def condHolds (c : Cond) (f : BitVec 4) : Bool :=
  match c with
  | .al => true
  | .eq => flagZ f
  | .ne => !flagZ f
  | .lt => flagS f != flagV f
  | .ge => flagS f == flagV f
  | .le => flagZ f || flagS f != flagV f
  | .gt => !flagZ f && flagS f == flagV f
  | .lo => !flagC f
  | .hs => flagC f
  | .ls => !flagC f || flagZ f
  | .hi => flagC f && !flagZ f
  | .mi => flagS f
  | .pl => !flagS f
  | .vs => flagV f
  | .vc => !flagV f

/-- The flags of condition register k in a lane's packed 16 bits (02: R39). -/
def cregGet (c : BitVec 16) (k : BitVec 2) : BitVec 4 := c.extractLsb' (4 * k.toNat) 4

/-- A lane's packed flags with condition register k replaced (02: R39). -/
def cregSet (c : BitVec 16) (k : BitVec 2) (f : BitVec 4) : BitVec 16 :=
  (c &&& ~~~ (0xF#16 <<< (4 * k.toNat))) ||| (f.setWidth 16 <<< (4 * k.toNat))

/-- Flags of a compare, r := a - b (09: R177, 12: R223): C is no borrow, V the signed overflow. -/
def cmpFlags {w : Nat} (a b : BitVec w) : BitVec 4 :=
  let r := a - b
  flags r.msb (r == 0) (decide (b.toNat ≤ a.toNat)) (decide (a.toInt - b.toInt ≠ r.toInt))

/-- Flags of a test, r := a AND b (09: R177). -/
def testFlags {w : Nat} (a b : BitVec w) : BitVec 4 :=
  let r := a &&& b
  flags r.msb (r == 0) false false

/-- Sum and flags of iadc (09: R169). -/
def adcFlags (a b : BitVec 32) (cin : Bool) : BitVec 32 × BitVec 4 :=
  let t := a.toNat + b.toNat + cin.toNat
  let d := BitVec.ofNat 32 t
  (d, flags d.msb (d == 0) (decide (2 ^ 32 ≤ t)) (decide (a.toInt + b.toInt + cin.toNat ≠ d.toInt)))

/-- Difference and flags of isbb (09: R169): C is 1 when no borrow occurred. -/
def sbbFlags (a b : BitVec 32) (cin : Bool) : BitVec 32 × BitVec 4 :=
  let t : Int := a.toNat - b.toNat - (!cin).toNat
  let d := BitVec.ofInt 32 t
  (d, flags d.msb (d == 0) (decide (0 ≤ t)) (decide (a.toInt - b.toInt - (!cin).toNat ≠ d.toInt)))

/-- Flags of a floating compare: less, equal, greater or unordered (10: R190). -/
def fcmpFlags (r : Option Ordering) : BitVec 4 :=
  match r with
  | some .lt => flags true false false false
  | some .eq => flags false true true false
  | some .gt => flags false false true false
  | none => flags false false true true

/-- Flags of a ballot (12: R226). -/
def ballotFlags (m set : BitVec 32) : BitVec 4 := flags m.msb (m == 0) (m == set) false

end Sys2Proof.Machine
end

