-- ==== Sys2Proof/Machine/Ops.lean ====
section
/-!
DEFINITION. The named operations: bytes of memory, registers and lanes of a group, region fields and pins, notices, the
fault domain, taking a trap and returning from it.
-/

namespace Sys2Proof.Machine

/-! ## Bytes and fields -/

/-- The byte of memory at a. -/
def Memory.byte (m : Memory) (a : Nat) : Byte := Table.getD m a Memory.unlisted

/-- Memory with the byte at a replaced. -/
def Memory.setByte (m : Memory) (a : Nat) (b : Byte) : Memory := Table.put Memory.unlisted m a b

/-- The n bytes from a up. -/
def Memory.bytes (m : Memory) (a n : Nat) : List Byte := (List.range n).map fun i => m.byte (a + i)

/-- Memory with the bytes from a up replaced. -/
def Memory.setBytes (m : Memory) (a : Nat) (bs : List Byte) : Memory :=
  match bs with
  | [] => m
  | b :: r => Memory.setBytes (m.setByte a b) (a + 1) r

/-- The number that bytes spell, lowest first (00: R2). -/
def leNat (bs : List Byte) : Nat :=
  match bs with
  | [] => 0
  | b :: r => b.toNat + 256 * leNat r

/-- The n low bytes of a number, lowest first (00: R2). -/
def leBytes (n v : Nat) : List Byte :=
  match n with
  | 0 => []
  | n + 1 => BitVec.ofNat 8 v :: leBytes n (v / 256)

/-- The little-endian value of n bytes at a. -/
def Memory.nat (m : Memory) (a n : Nat) : Nat := leNat (m.bytes a n)

/-- The 64-bit word at a. -/
def Memory.w64 (m : Memory) (a : Nat) : BitVec 64 := BitVec.ofNat 64 (m.nat a 8)

/-- The 32-bit word at a. -/
def Memory.w32 (m : Memory) (a : Nat) : BitVec 32 := BitVec.ofNat 32 (m.nat a 4)

/-- Memory with the n low bytes of v stored at a. -/
def Memory.store (m : Memory) (a n v : Nat) : Memory := m.setBytes a (leBytes n v)

/-- Bits lo + n - 1 down to lo of a number. -/
def bitsOf (v lo n : Nat) : Nat := (v >>> lo) % 2 ^ n

/-! ## Lanes -/

/-- Whether lane l is in a lane mask. -/
def has (m : BitVec 32) (l : Nat) : Bool := m.getLsbD l

/-- The lanes of a mask, ascending. -/
def lanesOf (m : BitVec 32) : List Nat := (List.range 32).filter (has m)

/-- The mask of the lanes that satisfy p. -/
def maskOf (p : Nat → Bool) : BitVec 32 :=
  (List.range 32).foldl (fun m l => if p l then m ||| (1#32 <<< l) else m) 0#32

/-- The mask of one lane. -/
def laneBit (l : Nat) : BitVec 32 := 1#32 <<< l

/-! ## Registers of a group -/

/-- The effective number of a vector field; none is vz (02: R40, R41). -/
def Group.eff (g : Group) (f : BitVec 6) : Option Nat :=
  if f = 63#6 then none else some (f.toNat + g.regs.xi.toNat)

/-- Vector register n in lane l. -/
def Group.vreg (g : Group) (n l : Nat) : BitVec 32 := Table.getD g.regs.v (32 * n + l) 0#32

/-- Group with vector register n of lane l replaced. -/
def Group.setVreg (g : Group) (n l : Nat) (x : BitVec 32) : Group :=
  { g with regs := { g.regs with v := Table.put 0#32 g.regs.v (32 * n + l) x } }

/-- The value a vector field names in lane l (02: R40). -/
def Group.rv (g : Group) (f : BitVec 6) (l : Nat) : BitVec 32 :=
  match g.eff f with
  | none => 0#32
  | some n => g.vreg n l

/-- The 64-bit value of a pair field in lane l (02: R42). -/
def Group.rw (g : Group) (f : BitVec 6) (l : Nat) : BitVec 64 :=
  match g.eff f with
  | none => 0#64
  | some n => g.vreg (n + 1) l ++ g.vreg n l

/-- The upper 64 bits of a quad field in lane l (02: R42). -/
def Group.rwHi (g : Group) (f : BitVec 6) (l : Nat) : BitVec 64 :=
  match g.eff f with
  | none => 0#64
  | some n => g.vreg (n + 3) l ++ g.vreg (n + 2) l

/-- Writes val l to register n in the lanes of m, in the listed lanes. -/
def Group.setLanesIn (ls : List Nat) (m : BitVec 32) (n : Nat) (val : Nat → BitVec 32) (g : Group) : Group :=
  match ls with
  | [] => g
  | l :: r => Group.setLanesIn r m n val (if has m l then g.setVreg n l (val l) else g)

/-- Writes val l to the register a field names, in each lane l of m; vz discards (02: R40). -/
def Group.writeLanes (m : BitVec 32) (d : BitVec 6) (val : Nat → BitVec 32) (g : Group) : Group :=
  match g.eff d with
  | none => g
  | some n => Group.setLanesIn (List.range 32) m n val g

/-- Writes val l to the pair a field names, in each lane l of m (02: R42). -/
def Group.writePairs (m : BitVec 32) (d : BitVec 6) (val : Nat → BitVec 64) (g : Group) : Group :=
  match g.eff d with
  | none => g
  | some n =>
    Group.setLanesIn (List.range 32) m (n + 1) (fun l => (val l).extractLsb' 32 32)
      (Group.setLanesIn (List.range 32) m n (fun l => (val l).setWidth 32) g)

/-- Uniform register n. -/
def Group.sreg (g : Group) (n : Nat) : BitVec 64 := Table.getD g.regs.s n 0#64

/-- The value a uniform field names; sz reads zero (02: R40). -/
def Group.rs (g : Group) (f : BitVec 6) : BitVec 64 := if f = 63#6 then 0#64 else g.sreg f.toNat

/-- Group with the uniform register a field names replaced; sz discards (02: R40). -/
def Group.ws (g : Group) (f : BitVec 6) (x : BitVec 64) : Group :=
  if f = 63#6 then g else { g with regs := { g.regs with s := Table.put 0#64 g.regs.s f.toNat x } }

/-- The packed flags of lane l (02: R39). -/
def Group.cond (g : Group) (l : Nat) : BitVec 16 := Table.getD g.regs.c l 0#16

/-- Writes val l to condition register k in the lanes of m, in the listed lanes. -/
def Group.setCondsIn (ls : List Nat) (m : BitVec 32) (k : BitVec 2) (val : Nat → BitVec 4) (g : Group) : Group :=
  match ls with
  | [] => g
  | l :: r =>
    Group.setCondsIn r m k val
      (if has m l then
        { g with regs := { g.regs with c := Table.put 0#16 g.regs.c l (cregSet (g.cond l) k (val l)) } }
      else g)

/-- Writes val l to condition register k in each lane l of m. -/
def Group.writeConds (m : BitVec 32) (k : BitVec 2) (val : Nat → BitVec 4) (g : Group) : Group :=
  Group.setCondsIn (List.range 32) m k val g

/-- Group with ucc replaced. -/
def Group.setUcc (g : Group) (f : BitVec 4) : Group := { g with regs := { g.regs with ucc := f } }

/-- Whether a guard passes in lane l (07: R142). -/
def Group.guard (g : Group) (gd : Guard) (l : Nat) : Bool := condHolds gd.cond (cregGet (g.cond l) gd.creg)

/-- The lanes of a set whose guard passes (07: R143). -/
def Group.passing (g : Group) (gd : Guard) (set : BitVec 32) : BitVec 32 :=
  maskOf fun l => has set l && g.guard gd l

/-- PC of lane l. -/
def Group.pc (g : Group) (l : Nat) : BitVec 64 := Table.getD g.ctl.pcs l 0#64

/-- Writes val l as the PC of the listed lanes in m. -/
def Group.setPcsIn (ls : List Nat) (m : BitVec 32) (val : Nat → BitVec 64) (g : Group) : Group :=
  match ls with
  | [] => g
  | l :: r =>
    Group.setPcsIn r m val
      (if has m l then { g with ctl := { g.ctl with pcs := Table.put 0#64 g.ctl.pcs l (val l) } } else g)

/-- Group with val l as the PC of each lane l of m. -/
def Group.setPcs (m : BitVec 32) (val : Nat → BitVec 64) (g : Group) : Group :=
  Group.setPcsIn (List.range 32) m val g

/-- Group with every lane of m at one PC. -/
def Group.goto (m : BitVec 32) (pc : BitVec 56) (g : Group) : Group := g.setPcs m fun _ => pc.setWidth 64

/-- Group whose lanes of m go to one PC outside an issue: what an answer has said of their fetches no longer counts (03: R75). -/
def Group.sendTo (m : BitVec 32) (pc : BitVec 56) (g : Group) : Group :=
  let g := g.goto m pc
  { g with ctl := { g.ctl with fetched := (lanesOf m).foldl Table.erase g.ctl.fetched } }

/-- The wait of lane l. -/
def Group.waitOf (g : Group) (l : Nat) : Option LaneWait := Table.get? g.ctl.waits l

/-- Group with every lane of m waiting, or ready with none. -/
def Group.setWait (m : BitVec 32) (w : Option LaneWait) (g : Group) : Group :=
  { g with ctl := { g.ctl with waits := (lanesOf m).foldl (fun t l =>
      match w with
      | none => Table.erase t l
      | some x => Table.set t l x) g.ctl.waits } }

/-- Group with the memory words in flight replaced. -/
def Group.setOps (g : Group) (os : List MemOp) : Group := { g with fl := { g.fl with ops := os } }

/-- Group with the engine commands replaced. -/
def Group.setCmds (g : Group) (cs : List EngCmd) : Group := { g with fl := { g.fl with cmds := cs } }

/-- Group with the sets in SLEEP replaced. -/
def Group.setSleepers (g : Group) (zs : List Sleeper) : Group := { g with fl := { g.fl with sleepers := zs } }

/-- Present lanes that have not exited (01: R10, R11). -/
def Group.live (g : Group) : BitVec 32 := g.ctl.present &&& ~~~ g.ctl.exited

/-! ## Parts of the state -/

/-- State with a group replaced. -/
def State.setGroup (s : State) (k : Nat) (g : Group) : State := { s with groups := Table.set s.groups k g }

/-- State with a group changed by f. -/
def State.modGroup (s : State) (k : Nat) (f : Group → Group) : State := { s with groups := Table.modify s.groups k f }

/-- State with a gang changed by f. -/
def State.modGang (s : State) (k : Nat) (f : Gang → Gang) : State := { s with gangs := Table.modify s.gangs k f }

/-- State with a launch changed by f. -/
def State.modLaunch (s : State) (k : Nat) (f : Launch → Launch) : State :=
  { s with launches := Table.modify s.launches k f }

/-- State with a region changed by f. -/
def State.modRegion (s : State) (k : Nat) (f : Region → Region) : State :=
  { s with regions := Table.modify s.regions k f }

/-- A core on which nothing has happened yet. -/
def Core.fresh : Core where
  tlb := []
  out := []
  walks := []
  walking := false
  walkIssued := 0
  bins := []
  misses := []
  sampled := []
  sampledAt := []
  retired := false

/-- A core. -/
def State.core (s : State) (k : Nat) : Core := Table.getD s.cores k Core.fresh

/-- State with a core changed by f. -/
def State.modCore (s : State) (k : Nat) (f : Core → Core) : State :=
  { s with cores := Table.set s.cores k (f (s.core k)) }

/-- A cluster. -/
def State.cluster (s : State) (k : Nat) : Cluster := Table.getD s.clusters k { tlb := [], retired := false, standsFor := none, served := none }

/-- State with a cluster changed by f. -/
def State.modCluster (s : State) (k : Nat) (f : Cluster → Cluster) : State :=
  { s with clusters := Table.set s.clusters k (f (s.cluster k)) }

/-- State with the memory replaced. -/
def State.setMem (s : State) (m : Memory) : State := { s with mem := m }

/-! ## Region fields (01: R30, 20: R350) -/

/-- The value of a field along the parent chain: the first block that does not inherit it. -/
def inheritIn {α : Type} (rs : Table Region) (get : Region → Option α) (dflt : α) (fuel : Nat) (rcb : Nat) : α :=
  match fuel with
  | 0 => dflt
  | n + 1 =>
    match Table.get? rs rcb with
    | none => dflt
    | some r =>
      match get r with
      | some v => v
      | none => if r.parent = 0 then dflt else inheritIn rs get dflt n r.parent

/-- An effective field of a region; the tree has at most 8 levels (01: R29). -/
def State.eff {α : Type} (s : State) (get : Region → Option α) (dflt : α) (rcb : Nat) : α :=
  inheritIn s.regions get dflt 8 rcb

/-- A field whose all-ones value is inherit. -/
def own {n : Nat} (v : BitVec n) : Option Nat := if v = BitVec.allOnes n then none else some v.toNat

/-- The effective value of a budget: no larger than any ancestor's (01: R30). -/
def clipMin (rs : Table Region) (get : Region → Option Nat) (fuel : Nat) (rcb : Nat) : Option Nat :=
  match fuel with
  | 0 => none
  | n + 1 =>
    match Table.get? rs rcb with
    | none => none
    | some r =>
      let up := if r.parent = 0 then none else clipMin rs get n r.parent
      match get r, up with
      | none, u => u
      | some v, none => some v
      | some v, some u => some (min v u)

/-- The effective ceiling: no more urgent than any ancestor's (01: R30). -/
def clipMax (rs : Table Region) (fuel : Nat) (rcb : Nat) : Nat :=
  match fuel with
  | 0 => 0
  | n + 1 =>
    match Table.get? rs rcb with
    | none => 0
    | some r =>
      let up := if r.parent = 0 then 0 else clipMax rs n r.parent
      match own r.ceiling with
      | none => up
      | some v => max v up

def State.ceiling (s : State) (rcb : Nat) : Nat := clipMax s.regions 8 rcb
def State.promise (s : State) (rcb : Nat) : Bool := s.eff (fun r => own r.promise) 1 rcb != 0
def State.watchdog (s : State) (rcb : Nat) : Nat := s.eff (fun r => own r.watchdog) 0 rcb
def State.faultDomain (s : State) (rcb : Nat) : Nat := s.eff (fun r => own r.faultDomain) 0 rcb
def State.determinism (s : State) (rcb : Nat) : Nat :=
  s.eff (fun r => if r.replay.isSome then some 3 else if r.recorder.isSome then some 2 else own r.determinism) 0 rcb
def State.publishScope (s : State) (rcb : Nat) : Nat := s.eff (fun r => own r.publishScope) 7 rcb
def State.partition (s : State) (rcb : Nat) : Nat := s.eff (fun r => own r.partition) 0 rcb
def State.parkThreshold (s : State) (rcb : Nat) : Nat := s.eff (fun r => own r.parkThreshold) 2048 rcb
def State.noticeDeadline (s : State) (rcb : Nat) : Nat := s.eff (fun r => own r.noticeDeadline) 80000 rcb
def State.activeBudget (s : State) (rcb : Nat) : Option Nat := clipMin s.regions (fun r => own r.activeGroups) 8 rcb
def State.windowBudget (s : State) (rcb : Nat) : Option Nat := clipMin s.regions (fun r => own r.windowBytes) 8 rcb
def State.matrixShare (s : State) (rcb : Nat) : Nat := (clipMin s.regions (fun r => own r.matrixShare) 8 rcb).getD 256
def State.cxlShare (s : State) (rcb : Nat) : Nat := (clipMin s.regions (fun r => own r.cxlShare) 8 rcb).getD 256

/-- The effective cluster mask (20: R350). -/
def State.clusterMask (s : State) (rcb : Nat) : BitVec 320 :=
  s.eff (fun r => if r.inheritMask then none else some r.mask) (BitVec.allOnes 320) rcb

/-- The effective context arena: base, frame bytes, frame count, and the region that holds it (20: R350). -/
def State.arena (s : State) (rcb : Nat) : Nat × Nat × Nat :=
  s.eff (fun r => (own r.frameBytes).map fun f => (r.arena.toNat, f, r.frames.toNat)) (0, 0, 0) rcb

/-- The region whose slots are effective for a region (03: R67). -/
def slotHolderIn (rs : Table Region) (fuel : Nat) (rcb : Nat) : Nat :=
  match fuel with
  | 0 => rcb
  | n + 1 =>
    match Table.get? rs rcb with
    | none => rcb
    | some r => if r.inheritSlots && r.parent != 0 then slotHolderIn rs n r.parent else rcb

/-- The region whose root slots a region uses (03: R67). -/
def State.slotHolder (s : State) (rcb : Nat) : Nat := slotHolderIn s.regions 8 rcb

/-- Whether a region lies in the subtree of top (01: R29). -/
def inSubtree (rs : Table Region) (top : Nat) (fuel : Nat) (rcb : Nat) : Bool :=
  match fuel with
  | 0 => false
  | n + 1 =>
    if rcb = top then true
    else match Table.get? rs rcb with
      | none => false
      | some r => r.parent != 0 && inSubtree rs top n r.parent

/-- Whether a region lies in the subtree of top (01: R29). -/
def State.under (s : State) (top rcb : Nat) : Bool := inSubtree s.regions top 8 rcb

/-- A region and its ancestors, up to a number of levels (01: R29). -/
def chainIn (rs : Table Region) (fuel : Nat) (rcb : Nat) : List Nat :=
  match fuel with
  | 0 => []
  | n + 1 =>
    match Table.get? rs rcb with
    | none => []
    | some r => rcb :: (if r.parent = 0 then [] else chainIn rs n r.parent)

/-- The effective values of a budget in a region and its ancestors, as far as they hold one (01: R30, R31). -/
def State.budgets (s : State) (get : Region → Option Nat) (rcb : Nat) : List (Nat × Nat) :=
  (chainIn s.regions 8 rcb).filterMap fun r => (clipMin s.regions get 8 r).map fun b => (r, b)

/-- The region of a group's launch. -/
def State.regionOf (s : State) (g : Group) : Nat :=
  match Table.get? s.launches g.id.launch with
  | none => 0
  | some l => l.region

/-- The launch seed of a group (12: R243). -/
def State.seedOf (s : State) (g : Group) : BitVec 64 :=
  match Table.get? s.launches g.id.launch with
  | none => 0
  | some l => l.desc.seed

/-- GANGID of a group (01: R15). -/
def State.gangidOf (s : State) (g : Group) : Nat :=
  match Table.get? s.gangs g.id.gang with
  | none => 0
  | some a => a.gangid

/-- Workgroups per gang of a group's launch (01: R14). -/
def State.perGang (s : State) (g : Group) : Nat :=
  match Table.get? s.launches g.id.launch with
  | none => 1
  | some l => l.record.w

/-- The workgroup id of a group (01: R15): WGID.X + (X W) (WGID.Y + Y WGID.Z), which is GANGID W + w. -/
def State.workgroupId (s : State) (g : Group) : Nat := s.gangidOf g * s.perGang g + g.id.wg

/-- The group number of scripts and logs: workgroup id x 16 + GRPID (12: R245). -/
def State.groupNumber (s : State) (g : Group) : Nat := s.workgroupId g * 16 + g.id.grpid

/-- The fields a group takes at a refresh point (01: R30). -/
def State.viewOf (s : State) (rcb : Nat) : RegionView where
  determinism := s.determinism rcb
  publishScope := s.publishScope rcb
  partition := s.partition rcb
  parkThreshold := s.parkThreshold rcb
  noticeDeadline := s.noticeDeadline rcb
  faultDomain := s.faultDomain rcb
  activeBudgets := s.budgets (fun r => own r.activeGroups) rcb
  matrixShares := s.budgets (fun r => own r.matrixShare) rcb
  cxlShares := s.budgets (fun r => own r.cxlShare) rcb
  holder := s.slotHolder rcb

/-- A root slot word (03: R67). -/
def State.slotWord (s : State) (holder slot : Nat) : BitVec 64 :=
  match Table.get? s.regions holder with
  | none => 0
  | some r => Table.getD r.slots slot 0#64

/-- The generation of a slot word. -/
def slotGen (w : BitVec 64) : BitVec 16 := w.extractLsb' 48 16

/-- The valid bit of a slot word. -/
def slotValid (w : BitVec 64) : Bool := w.getLsbD 0

/-- The current slot of a holder. -/
def State.currentSlot (s : State) (holder : Nat) : Nat :=
  match Table.get? s.regions holder with
  | none => 0
  | some r => r.current

/-! ## Pins (03: R68, R70) -/

/-- Pins on a slot, of every kind of holder. -/
def Region.pinCount (r : Region) (slot : Nat) : Nat := Table.getD r.pins slot 0 + Table.getD r.holds slot 0

/-- The slots that are valid, not current and not pinned are the unused ones, which await their reclaim (03: R70). DESIGN CHOICE (log
72): a slot that is pinned or made current again before its reclaim is taken off the list; the spec does not say. -/
def Region.noteUnused (r : Region) : Region :=
  { r with unused := (List.range 8).filter fun i =>
      slotValid (Table.getD r.slots i 0#64) && i != r.current && r.pinCount i == 0 }

/-- Adds one pin to a slot. -/
def State.pin (s : State) (holder slot : Nat) : State :=
  s.modRegion holder fun r => { r with pins := Table.put 0 r.pins slot (Table.getD r.pins slot 0 + 1) }.noteUnused

/-- Removes one pin from a slot. -/
def State.unpin (s : State) (holder slot : Nat) : State :=
  s.modRegion holder fun r => { r with pins := Table.put 0 r.pins slot (Table.getD r.pins slot 0 - 1) }.noteUnused

/-- Whether something of a group in flight stands on the slots of the region that holds them. -/
def Group.onSlots (g : Group) : Bool :=
  !g.fl.ops.isEmpty || !g.fl.probes.isEmpty || !g.fl.roots.isEmpty || !g.ctl.fetched.isEmpty
    || (g.fl.cmds.any fun c => !c.answered.isEmpty || c.req.isSome || c.walkOn.isSome)
    || (g.fl.sleepers.any fun z => z.answered.isSome || z.req.isSome)
    || !g.ctl.ctxReqs.isEmpty || !g.ctl.ctxAns.isEmpty || !g.ctl.ctxWalkOn.isEmpty

/-- The refresh of one group: it reads the current slot, pins it and unpins the old one, and takes the region's fields
(03: R69, 01: R30). Another region may hold the slots since an update of a parent (20: R351): the group moves to its slots, but stays while
something of it in flight stands on the old ones. DESIGN CHOICE (log 32). -/
def State.refreshGroup (s : State) (k holder slot : Nat) : State :=
  match Table.get? s.groups k with
  | none => s
  | some g =>
    let old := g.view.holder
    let stays := old = holder || g.onSlots
    let h := if stays then old else holder
    let slot := if old = holder || !stays then slot else s.currentSlot old
    let s := if h = old && slot = g.pinSlot then s else (s.pin h slot).unpin old g.pinSlot
    s.setGroup k { g with pinSlot := slot, pinGen := slotGen (s.slotWord h slot), view := { s.viewOf (s.regionOf g) with holder := h } }

/-! ## The physical space (03: R65) -/

/-- Whether a physical address lies in the slice range. -/
def inSlice (pa : Nat) : Bool := decide (pa < 0xA0000000) && decide (pa % Config.sliceStride < Config.sliceBytes)

/-- Whether a configured window of the CXL range covers a physical address. -/
def State.inCxl (s : State) (pa : Nat) : Bool :=
  decide (Config.cxlBase ≤ pa) && decide (pa < Config.cxlEnd) &&
    match s.boot.settings with
    | none => false
    | some c => c.sets.any fun w => decide (w.base ≤ pa) && decide (pa < w.base + w.size)

/-- Whether a physical address lies in the slice or the CXL range. -/
def State.inMemory (s : State) (pa : Nat) : Bool := inSlice pa || s.inCxl pa

/-- Whether a private window of the CXL range covers a physical address: its lines are encrypted and counted (23: R382, R383). -/
def State.inPrivate (s : State) (pa : Nat) : Bool :=
  decide (Config.cxlBase ≤ pa) &&
    match s.boot.settings with
    | none => false
    | some c => c.sets.any fun w => !w.sharedMode && decide (w.base ≤ pa) && decide (pa < w.base + w.size)

/-! ## Notices, violations (23: R378, R387) -/

/-- Places queued notices while the ring has room (23: R378). -/
def placeNotices (fuel : Nat) (h : HostIf) : HostIf :=
  match fuel with
  | 0 => h
  | n + 1 =>
    match h.backlog with
    | [] => h
    | b :: r =>
      if h.nhead + 1#7 = h.ntail then h
      else
        placeNotices n { h with
          notices := ((List.range 32).zip b).foldl (fun t p => Table.put 0#8 t (32 * h.nhead.toNat + p.1) p.2) h.notices
          nhead := h.nhead + 1#7
          event := h.event ||| 2#3
          backlog := r }

/-- Posts a 32-byte notice; when the ring is full it is kept in order (23: R378). -/
def State.notice (s : State) (bytes : List Byte) : State :=
  { s with host := placeNotices (s.host.backlog.length + 1) { s.host with backlog := s.host.backlog ++ [bytes] } }

/-- The bytes of a notice of the model's own layout: kind, then three words (log 9). -/
def noticeBytes (kind a b c : Nat) : List Byte := leBytes 8 a ++ leBytes 8 b ++ leBytes 8 c ++ leBytes 8 (2 ^ 56 * kind)

/-- Appends a violation record, or counts it when the log is full (23: R387). -/
def State.violation (s : State) (address : BitVec 64) (source : BitVec 32) (kind reason : Nat) : State :=
  let f := s.fab
  let s := { s with host := { s.host with event := s.host.event ||| 4#3 } }
  if f.violations.length < 4096 then
    { s with fab := { f with violations := f.violations ++ [
      { time := BitVec.ofNat 64 s.clk.time, address, source, kind, reason, dropped := f.dropped }] } }
  else { s with fab := { f with dropped := f.dropped + 1 } }

/-! ## Ending and parking groups (01: R32, R36) -/

/-- Whether an operation is a fence. -/
def MemOp.isFence (o : MemOp) : Bool :=
  match o.kind with
  | .fence _ => true
  | .load _ _ => false
  | .atom _ _ => false
  | .cas _ => false
  | .store _ => false
  | .fadd _ => false
  | .ldk => false

/-- Discards a group without write-back: its root pins drop, its queued stores are dropped; stores that left its queue
stay listed, with the fences between them, until they are performed (01: R32). -/
def State.discardGroup (s : State) (k : Nat) : State :=
  match Table.get? s.groups k with
  | none => s
  | some g =>
    let h := g.view.holder
    let s := s.unpin h g.pinSlot
    let s := g.fl.ops.foldl (fun s o =>
      match o.log with
      | none => s
      | some _ => o.answered.foldl (fun s a => s.unpin h a) (s.unpin h o.slot)) s
    let s := g.fl.cmds.foldl (fun s c => c.answered.foldl (fun s p => s.unpin h p.2) s) s
    let ops := g.fl.ops.filter fun o => o.queue == .outbound || o.isFence
    if !(ops.any fun o => o.queue == .outbound) then { s with groups := Table.erase s.groups k }
    else
      s.setGroup k { g with
        ctl := { g.ctl with exited := g.ctl.present, dead := true, act := .active, waits := [], missing := [] }
        fl := { g.fl with ops := ops.map fun o => { o with pend := none, log := none }, pend := [], cmds := [],
                          roots := [], sleepers := [], probes := [], publ := none }
        tr := { g.tr with entering := none, boundary := [] } }

/-- Groups of a gang. -/
def State.groupsOf (s : State) (gang : Nat) : List Nat :=
  (s.groups.filter fun p => p.2.id.gang == gang && !p.2.id.walker && !p.2.ctl.dead).map Prod.fst

/-- The region whose arena a region uses (20: R350). -/
def arenaHolderIn (rs : Table Region) (fuel : Nat) (rcb : Nat) : Nat :=
  match fuel with
  | 0 => rcb
  | n + 1 =>
    match Table.get? rs rcb with
    | none => rcb
    | some r => if r.frameBytes = BitVec.allOnes 32 && r.parent != 0 then arenaHolderIn rs n r.parent else rcb

def State.arenaHolder (s : State) (rcb : Nat) : Nat := arenaHolderIn s.regions 8 rcb

/-- Ends a launch by a kill: groups discarded, claims and contributions dropped (01: R32, 05: R110, 20: R347). -/
def State.killLaunch (s : State) (k : Nat) : State :=
  match Table.get? s.launches k with
  | none => s
  | some l =>
    let gangs := (s.gangs.filter fun p => p.2.launch == k).map Prod.fst
    let groups := (s.groups.filter fun p => p.2.id.launch == k && !p.2.id.walker && !p.2.ctl.dead)
    let s := groups.foldl (fun s p => s.discardGroup p.1) s
    let s := { s with gangs := gangs.foldl Table.erase s.gangs }
    let s := match l.pin with
      | none => s
      | some p => s.unpin p.1 p.2
    s.modLaunch k fun l => { l with killed := true, pin := none, dispatchers := [], contributions := [] }

/-- Kills a region and its subtree (01: R32): launches end, page requests are discarded, collectives of the region fail
for the other ranks (13: R275), peers' requests that wait end with an error response (21: R372). -/
def State.killRegion (s : State) (top : Nat) : State :=
  let ls := (s.launches.filter fun p => s.under top p.2.region).map Prod.fst
  let s' := ls.foldl State.killLaunch s
  let gone := s.xlat.ingress.filter fun i => s.under top i.holder
  let s' := gone.foldl (fun s i => s.unpin i.holder i.slot) s'
  { s' with
    regions := s'.regions.map fun p => if s.under top p.1 then (p.1, { p.2 with killed := true, gate := none }) else p
    colls := s'.colls.filter fun c => !ls.contains c.launch
    xlat := { s'.xlat with
      requests := s'.xlat.requests.filter fun p => !s.under top p.2.region
      ingress := s'.xlat.ingress.filter fun i => !s.under top i.holder } }

/-- Marks a gang for a forced park with no notice phase (01: R32, R36). DESIGN CHOICE (log 72): a suspend that meets a gang in its
notice phase ends the phase at once; R33 lets a further request have no additional effect, and R32 allows no notice phase. -/
def State.forceGang (s : State) (k : Nat) (suspended : Bool) : State :=
  s.modGang k fun a => { a with
    preempt := if a.preempt == .parked then .parked else .forced
    suspended := a.suspended || suspended }

/-- Suspends a region and its subtree (01: R32). -/
def State.suspendRegion (s : State) (top : Nat) : State :=
  let gs := s.gangs.filter fun p =>
    match Table.get? s.launches p.2.launch with
    | none => false
    | some l => s.under top l.region
  let s' := gs.foldl (fun s p => s.forceGang p.1 true) s
  { s' with regions := s'.regions.map fun p => if s.under top p.1 then (p.1, { p.2 with suspended := true }) else p }

/-- Begins to park a group (01: R20). -/
def Group.park (g : Group) (c : ParkCause) : Group := { g with ctl := { g.ctl with act := .parking, cause := c } }

/-! ## Traps (12: R239 to R242) -/

def codeIllop : BitVec 8 := 0x01#8
def codeIllfld : BitVec 8 := 0x02#8
def codePriv : BitVec 8 := 0x03#8
def codeRegbound : BitVec 8 := 0x04#8
def codeRegalign : BitVec 8 := 0x05#8
def codeWindow : BitVec 8 := 0x06#8
def codeAccess : BitVec 8 := 0x10#8
def codeAlign : BitVec 8 := 0x11#8
def codeImport : BitVec 8 := 0x12#8
def codeKvmap : BitVec 8 := 0x13#8
def codeBreak : BitVec 8 := 0x20#8
def codeStep : BitVec 8 := 0x21#8
def codeWatchdog : BitVec 8 := 0x30#8
def codePnotice : BitVec 8 := 0x31#8
def codeSwtrap : BitVec 8 := 0x40#8
def codeDiverge : BitVec 8 := 0x41#8

/-- The trap word (12: R241). -/
def TrapState.trapWord (t : TrapState) : BitVec 64 :=
  BitVec.ofNat 64 (t.code.toNat + 2 ^ 8 * t.active.toNat + 2 ^ 9 * t.resume.toNat + 2 ^ 10 * t.held.toNat
    + 2 ^ 16 * t.imm.toNat)

/-- The trap state that records a trap (12: R241). -/
def TrapReq.toState (t : TrapReq) (active resume held : Bool) : TrapState where
  code := t.code
  active := active
  resume := resume
  held := held
  imm := t.imm
  pc := t.pc
  ret := t.ret
  word := t.word
  mask := t.mask
  failed := t.failed
  info := t.info
  addr := t.addr
  cur := t.cur

/-! ## Counts of a profiling partition (24: R394, R398, R399) -/

/-- Whether an enable bit governs the current interval (24: R394). -/
def Partition.on (p : Partition) (bit : Nat) : Bool := !p.rejected && p.enable.getLsbD bit

/-- The nonzero selectors in offset order: number and code (24: R399). -/
def Partition.selectors (p : Partition) : List (Nat × Nat) :=
  ((List.range p.events.length).zip p.events).filter fun e => e.2 != 0

/-- The selectors counted in the current interval (24: R399). -/
def Partition.counted (p : Partition) : List (Nat × Nat) :=
  let es := p.selectors
  if es.length ≤ 8 then es else (List.range 8).map fun m => es.getD ((8 * p.interval + m) % es.length) (0, 0)

/-- The key of a selector's sums: a selector keeps them apart for each code that it has named (log 73). -/
def selectorKey (e : Nat × Nat) : Nat := 256 * e.1 + e.2

/-- State with a partition changed by f. -/
def State.modPart (s : State) (k : Nat) (f : Partition → Partition) : State :=
  { s with prof := { s.prof with parts := Table.modify s.prof.parts k f } }

/-- Counts n events of a code for a partition (24: R398). -/
def State.tally (s : State) (part ev n : Nat) : State :=
  s.modPart part fun p =>
    let add := fun (t : Table Nat) (e : Nat × Nat) =>
      Table.put 0 t (selectorKey e) ((Table.getD t (selectorKey e) 0 + n) % 2 ^ 64)
    if p.on 0 then { p with counts := (p.counted.filter fun e => e.2 == ev).foldl add p.counts }
    else p

/-- A trap that a group takes is counted for its partition, whatever takes it (24: R398). -/
def State.countTrap (s : State) (g : Group) : State := s.tally g.view.partition 0x12 1

/-! ## Taking a trap (12: R239; 01: R32; 25: R405) -/

/-- The fault domain decides the fate of a trap that no handler takes (01: R32): the trap state is recorded, then the
region is killed or suspended, or the group parks and the driver is told. -/
def State.toFaultDomain (s : State) (k : Nat) (t : TrapReq) : State :=
  match Table.get? s.groups k with
  | none => s
  | some g =>
    let rcb := s.regionOf g
    let g := { g with
      tr := { g.tr with st := t.toState g.tr.st.active false false, entering := none }
      ctl := { g.ctl with watchdogged := g.ctl.watchdogged || t.code == codeWatchdog } }
    let s := (s.setGroup k g).countTrap g
    match g.view.faultDomain with
    | 0 => s.killRegion rcb
    | 1 => s.suspendRegion rcb
    | _ =>
      let g := if g.ctl.act == .parked then { g with ctl := { g.ctl with cause := .suspend, wakeSince := none } } else g.park .suspend
      (s.setGroup k g).notice (noticeBytes 3 g.id.frame t.code.toNat t.pc.toNat)

/-- Whether a debugger holds the groups of a region (25: R403). -/
def State.debugHeld (s : State) (rcb : Nat) : Bool :=
  match s.dbg.attached with
  | none => false
  | some top => s.under top rcb

/-- Every lane of a group waits at a barrier or in SLEEP (12: R232). -/
def Group.allWait (g : Group) : Bool :=
  g.live != 0#32 && (lanesOf g.live).all fun l =>
    match g.waitOf l with
    | some (.barrier _ _ _ _) => true
    | some (.arrive _ _ _ _) => true
    | some (.sleep _) => true
    | some (.fetch _) => false
    | none => false

/-- Notes since when every set of a group waits (12: R232). -/
def Group.noteWait (now : Nat) (g : Group) : Group :=
  { g with ctl := { g.ctl with waitSince := if g.allWait then some (g.ctl.waitSince.getD now) else none } }

/-- Enters a handler: trap state, handler-active bit, and the trapping set's lanes at TVEC as one set (12: R239 step 4);
their waits are kept for TRET (12: R232). -/
def Group.enterHandler (g : Group) (t : TrapReq) : Group :=
  let resume := (lanesOf t.mask).any fun l => (g.waitOf l).isSome
  let saved := (lanesOf t.mask).foldl (fun tb l =>
    match g.waitOf l with
    | none => tb
    | some w => Table.set tb l w) []
  let g := { g with tr := { g.tr with
    st := t.toState true resume (!g.tr.boundary.isEmpty), entering := none, saved := saved } }
  ((g.setWait t.mask none).sendTo t.mask g.tr.tvec)

/-- A group with no notice handler stops issuing at its next boundary (01: R34). -/
def Group.noNotice (g : Group) : Group := { g with ctl := { g.ctl with notice := .done } }

/-- Whether a trap stops a group for the debugger: BREAK or STEP on a held group (25: R405). -/
def State.stopsAt (s : State) (g : Group) (t : TrapReq) : Bool :=
  !g.id.walker && s.debugHeld (s.regionOf g) && (t.code == codeBreak || t.code == codeStep)

/-- Takes a trap on a group whose pending values have all landed (12: R239). A trap of the walker routine is kept: it
ends the walk (21: R365). -/
def State.takeTrap (s : State) (k : Nat) (t : TrapReq) : State :=
  match Table.get? s.groups k with
  | none => s
  | some g =>
    if g.id.walker then s.setGroup k { g with tr := { g.tr with entering := some t } }
    else if s.stopsAt g t then
      -- the resident debug handler, in place of TVEC (25: R405); its notice follows the park
      let m := t.mask &&& g.live
      let waits := (lanesOf m).any fun l => (g.waitOf l).isSome
      let g := g.sendTo m t.ret
      let g := { g with
        tr := { g.tr with st := t.toState g.tr.st.active (waits || (g.tr.st.active && g.tr.st.resume)) false, entering := none }
        ctl := { g.ctl with stopped := true } }
      (s.setGroup k (g.park .debug)).countTrap g
    else if t.rank = 0 && g.tr.st.active then s.toFaultDomain k t
    else if t.code == codeWatchdog then s.toFaultDomain k t
    else if g.tr.tvec = 0#56 then
      if t.code == codePnotice then s.setGroup k g.noNotice else s.toFaultDomain k t
    else
      let g := (g.enterHandler t).noteWait s.clk.cycle
      let g := if t.code == codePnotice then { g with ctl := { g.ctl with notice := .handler } } else g
      (s.setGroup k g).countTrap g

/-- A trap raised at issue: entry waits until every pending value has landed and moved (07: R149). One that stops the group for the debugger does
not: statuses of engine commands land in the parked context (25: R406). -/
def State.raiseAtIssue (s : State) (k : Nat) (t : TrapReq) : State :=
  match Table.get? s.groups k with
  | none => s
  | some g =>
    if g.fl.pend.isEmpty || s.stopsAt g t then s.takeTrap k t
    else s.setGroup k { g with tr := { g.tr with entering := some t } }

/-- A trap raised at the group's next instruction boundary (12: R240). -/
def Group.raiseBoundary (g : Group) (t : TrapReq) : Group :=
  let ts := (g.tr.boundary.filter fun x => x.rank ≤ t.rank) ++ [t] ++ (g.tr.boundary.filter fun x => t.rank < x.rank)
  { g with tr := { g.tr with boundary := ts, st := { g.tr.st with held := g.tr.st.active || g.tr.st.held } } }

/-- The return from a handler (12: R242): handler active is cleared, every lane of the set mask goes to TRETPC, and a set
whose resume-wait bit is 1 returns to the waits it kept. The held trap is taken at the next boundary. -/
def Group.trapReturn (g : Group) : Group :=
  if g.tr.st.active then
    let m := g.tr.st.mask &&& g.live
    let ws := (lanesOf m).foldl (fun tb l =>
      match if g.tr.st.resume then Table.get? g.tr.saved l else none with
      | none => Table.erase tb l
      | some w => Table.set tb l w) g.ctl.waits
    let g := g.sendTo m g.tr.st.ret
    { g with
      ctl := { g.ctl with waits := ws }
      tr := { g.tr with st := { g.tr.st with active := false, resume := false }, saved := [] } }
  else g

end Sys2Proof.Machine
end

