-- ==== Sys2Proof/Machine/Operands.lean ====
section
/-!
DEFINITION. The operand forms: which registers an instruction reads and writes, the register checks, the windows, the
privilege and duty checks, and the outcome of the checks of 07: R137 in their order.
-/

namespace Sys2Proof.Machine

/-- The classes a register field can name (02: R38). -/
inductive RegClass where
  | vector | uniform | tile | acc
  deriving DecidableEq, Repr

/-- One register operand: class, field or implicit number, whether xi is added, registers covered, how many of them are
written, and whether it is read. -/
structure RegUse where
  cls : RegClass
  n : Nat
  indexed : Bool
  width : Nat
  wr : Nat
  rd : Bool
  deriving DecidableEq, Repr

/-- The privileges of 08: R162. -/
inductive Privilege where
  | none | p | w | g
  deriving DecidableEq, Repr

/-- A vector operand. -/
def vecUse (f : BitVec 6) (width wr : Nat) (rd : Bool) : RegUse := ⟨.vector, f.toNat, true, width, wr, rd⟩

/-- A uniform operand. -/
def uniUse (f : BitVec 6) (width wr : Nat) (rd : Bool) : RegUse := ⟨.uniform, f.toNat, false, width, wr, rd⟩

/-- The uniform register a base selector names (07: R140). -/
def baseReg (bs : BitVec 2) : BitVec 6 := if bs = 3#2 then 59#6 else 60#6 + bs.setWidth 6

/-- The base register operand (11: R205). -/
def baseUse (bs : BitVec 2) : RegUse := uniUse (baseReg bs) 1 0 true

/-- The link pair v6:v7, never indexed (09: R182). -/
def linkUse : RegUse := ⟨.vector, 6, false, 2, 2, false⟩

/-- A tile operand. -/
def tileUse (t : BitVec 3) (wr : Bool) : RegUse := ⟨.tile, t.toNat, false, 1, wr.toNat, !wr⟩

/-- An accumulator operand (02: R42). -/
def accUse (a : BitVec 3) (width : Nat) (wr : Bool) : RegUse := ⟨.acc, a.toNat, false, width, if wr then width else 0, true⟩

end Sys2Proof.Machine

namespace Sys2Proof

open Sys2Proof.Machine

/-- The uniform operand of lread's register form (12: R225). -/
def LaneSel.uses (l : LaneSel) : List RegUse :=
  match l with
  | .imm _ => []
  | .reg b => [uniUse b 1 0 true]

/-- Registers an operand of a cvt format takes (10: R196). -/
def CvtFmt.width (f : CvtFmt) : Nat := if f == .f64 then 2 else 1

/-- Registers that the source of a cvtsr form takes (10: R199). -/
def CvtsrForm.width (f : CvtsrForm) : Nat :=
  match f with
  | .bf16 => 1 | .f16 => 1 | .bf16x2 => 2 | .f16x2 => 2

/-- The privilege that a writable special register needs (12: R243). -/
def WSpecReg.privilege (r : WSpecReg) : Privilege :=
  match r with
  | .tvec => .none | .tretpc => .none | .lcr _ => .p

/-- The register operands of an instruction in the order of 02: R43: destination, first source, second source, implicit.
-/
def Instr.uses (i : Instr) : List RegUse :=
  match i with
  | .iadd _ d a b => [vecUse d 1 1 false, vecUse a 1 0 true, vecUse b 1 0 true]
  | .iaddi _ d a _ => [vecUse d 1 1 false, vecUse a 1 0 true]
  | .isub _ d a b => [vecUse d 1 1 false, vecUse a 1 0 true, vecUse b 1 0 true]
  | .iadc _ d a b => [vecUse d 1 1 false, vecUse a 1 0 true, vecUse b 1 0 true]
  | .isbb _ d a b => [vecUse d 1 1 false, vecUse a 1 0 true, vecUse b 1 0 true]
  | .imul _ d a b => [vecUse d 1 1 false, vecUse a 1 0 true, vecUse b 1 0 true]
  | .imulh _ d a b => [vecUse d 1 1 false, vecUse a 1 0 true, vecUse b 1 0 true]
  | .imulhu _ d a b => [vecUse d 1 1 false, vecUse a 1 0 true, vecUse b 1 0 true]
  | .imad _ d a b => [vecUse d 1 1 true, vecUse a 1 0 true, vecUse b 1 0 true]
  | .imin _ d a b => [vecUse d 1 1 false, vecUse a 1 0 true, vecUse b 1 0 true]
  | .imax _ d a b => [vecUse d 1 1 false, vecUse a 1 0 true, vecUse b 1 0 true]
  | .iminu _ d a b => [vecUse d 1 1 false, vecUse a 1 0 true, vecUse b 1 0 true]
  | .imaxu _ d a b => [vecUse d 1 1 false, vecUse a 1 0 true, vecUse b 1 0 true]
  | .iabs _ d a => [vecUse d 1 1 false, vecUse a 1 0 true]
  | .ineg _ d a => [vecUse d 1 1 false, vecUse a 1 0 true]
  | .rng _ d a => [vecUse d 1 1 false, vecUse a 1 0 true]
  | .movi _ d _ => [vecUse d 1 1 false]
  | .movhi _ d _ => [vecUse d 1 1 true]
  | .andL _ d a b => [vecUse d 1 1 false, vecUse a 1 0 true, vecUse b 1 0 true]
  | .orL _ d a b => [vecUse d 1 1 false, vecUse a 1 0 true, vecUse b 1 0 true]
  | .xorL _ d a b => [vecUse d 1 1 false, vecUse a 1 0 true, vecUse b 1 0 true]
  | .andn _ d a b => [vecUse d 1 1 false, vecUse a 1 0 true, vecUse b 1 0 true]
  | .shl _ d a b => [vecUse d 1 1 false, vecUse a 1 0 true, vecUse b 1 0 true]
  | .shr _ d a b => [vecUse d 1 1 false, vecUse a 1 0 true, vecUse b 1 0 true]
  | .sar _ d a b => [vecUse d 1 1 false, vecUse a 1 0 true, vecUse b 1 0 true]
  | .rol _ d a b => [vecUse d 1 1 false, vecUse a 1 0 true, vecUse b 1 0 true]
  | .bfx _ d a b => [vecUse d 1 1 false, vecUse a 1 0 true, vecUse b 1 0 true]
  | .bfxu _ d a b => [vecUse d 1 1 false, vecUse a 1 0 true, vecUse b 1 0 true]
  | .bfi _ d a b => [vecUse d 1 1 true, vecUse a 1 0 true, vecUse b 1 0 true]
  | .popc _ d a => [vecUse d 1 1 false, vecUse a 1 0 true]
  | .clz _ d a => [vecUse d 1 1 false, vecUse a 1 0 true]
  | .ctz _ d a => [vecUse d 1 1 false, vecUse a 1 0 true]
  | .brev _ d a => [vecUse d 1 1 false, vecUse a 1 0 true]
  | .sel _ d a b => [vecUse d 1 1 false, vecUse a 1 0 true, vecUse b 1 0 true]
  | .cvtsr form d a b => [vecUse d 1 1 false, vecUse a form.width 0 true, vecUse b 1 0 true]
  | .icmp _ _ wide a b => [vecUse a (if wide then 2 else 1) 0 true, vecUse b (if wide then 2 else 1) 0 true]
  | .itst _ _ wide a b => [vecUse a (if wide then 2 else 1) 0 true, vecUse b (if wide then 2 else 1) 0 true]
  | .fcmp _ _ a b => [vecUse a 1 0 true, vecUse b 1 0 true]
  | .dcmp _ _ a b => [vecUse a 2 0 true, vecUse b 2 0 true]
  | .cmov _ _ _ => []
  | .cmovV _ _ a => [vecUse a 1 0 true]
  | .cmovI _ _ _ => []
  | .cmovR _ a => [vecUse a 1 1 false]
  | .iaddmin _ d a b => [vecUse d 1 1 true, vecUse a 1 0 true, vecUse b 1 0 true]
  | .iaddmax _ d a b => [vecUse d 1 1 true, vecUse a 1 0 true, vecUse b 1 0 true]
  | .faddmin _ d a b => [vecUse d 1 1 true, vecUse a 1 0 true, vecUse b 1 0 true]
  | .addw _ d a b => [vecUse d 2 2 false, vecUse a 2 0 true, vecUse b 2 0 true]
  | .subw _ d a b => [vecUse d 2 2 false, vecUse a 2 0 true, vecUse b 2 0 true]
  | .shlw _ d a b => [vecUse d 2 2 false, vecUse a 2 0 true, vecUse b 1 0 true]
  | .shrw _ d a b => [vecUse d 2 2 false, vecUse a 2 0 true, vecUse b 1 0 true]
  | .sarw _ d a b => [vecUse d 2 2 false, vecUse a 2 0 true, vecUse b 1 0 true]
  | .mulw _ d a b => [vecUse d 2 2 false, vecUse a 2 0 true, vecUse b 2 0 true]
  | .badd _ d a b => [vecUse d 1 1 false, vecUse a 1 0 true, vecUse b 1 0 true]
  | .bfma _ d a b => [vecUse d 1 1 true, vecUse a 1 0 true, vecUse b 1 0 true]
  | .idivI32 d a b _ => [vecUse d 1 1 false, vecUse a 1 0 true, vecUse b 1 0 true]
  | .idivN32 d a b _ => [vecUse d 1 1 false, vecUse a 1 0 true, vecUse b 1 0 true]
  | .iremI32 d a b _ => [vecUse d 1 1 false, vecUse a 1 0 true, vecUse b 1 0 true]
  | .iremN32 d a b _ => [vecUse d 1 1 false, vecUse a 1 0 true, vecUse b 1 0 true]
  | .fdiv d a b _ => [vecUse d 1 1 false, vecUse a 1 0 true, vecUse b 1 0 true]
  | .fsqrt d a _ => [vecUse d 1 1 false, vecUse a 1 0 true]
  | .frcp d a _ => [vecUse d 1 1 false, vecUse a 1 0 true]
  | .frsq d a _ => [vecUse d 1 1 false, vecUse a 1 0 true]
  | .fexp2 d a _ => [vecUse d 1 1 false, vecUse a 1 0 true]
  | .flog2 d a _ => [vecUse d 1 1 false, vecUse a 1 0 true]
  | .fsin d a _ => [vecUse d 1 1 false, vecUse a 1 0 true]
  | .fcos d a _ => [vecUse d 1 1 false, vecUse a 1 0 true]
  | .ddiv d a b _ => [vecUse d 2 2 false, vecUse a 2 0 true, vecUse b 2 0 true]
  | .dsqrt d a _ => [vecUse d 2 2 false, vecUse a 2 0 true]
  | .aaddN64 d a bs _ _ _ => [vecUse d 2 2 true, vecUse a 1 0 true, baseUse bs]
  | .aminI64 d a bs _ _ _ => [vecUse d 2 2 true, vecUse a 1 0 true, baseUse bs]
  | .amaxI64 d a bs _ _ _ => [vecUse d 2 2 true, vecUse a 1 0 true, baseUse bs]
  | .aminN64 d a bs _ _ _ => [vecUse d 2 2 true, vecUse a 1 0 true, baseUse bs]
  | .amaxN64 d a bs _ _ _ => [vecUse d 2 2 true, vecUse a 1 0 true, baseUse bs]
  | .aandN64 d a bs _ _ _ => [vecUse d 2 2 true, vecUse a 1 0 true, baseUse bs]
  | .aorN64 d a bs _ _ _ => [vecUse d 2 2 true, vecUse a 1 0 true, baseUse bs]
  | .axorN64 d a bs _ _ _ => [vecUse d 2 2 true, vecUse a 1 0 true, baseUse bs]
  | .ldI8 _ d a bs _ => [vecUse d 1 1 false, vecUse a 1 0 true, baseUse bs]
  | .ldN8 _ d a bs _ => [vecUse d 1 1 false, vecUse a 1 0 true, baseUse bs]
  | .ldI16 _ d a bs _ => [vecUse d 1 1 false, vecUse a 1 0 true, baseUse bs]
  | .ldN16 _ d a bs _ => [vecUse d 1 1 false, vecUse a 1 0 true, baseUse bs]
  | .ldN32 _ d a bs _ => [vecUse d 1 1 false, vecUse a 1 0 true, baseUse bs]
  | .ldN64 _ d a bs _ => [vecUse d 2 2 false, vecUse a 1 0 true, baseUse bs]
  | .ldN128 _ d a bs _ => [vecUse d 4 4 false, vecUse a 1 0 true, baseUse bs]
  | .axchgN64 d a bs _ _ _ => [vecUse d 2 2 true, vecUse a 1 0 true, baseUse bs]
  | .stN8 _ d a bs => [vecUse d 1 0 true, vecUse a 1 0 true, baseUse bs]
  | .stN16 _ d a bs => [vecUse d 1 0 true, vecUse a 1 0 true, baseUse bs]
  | .stN32 _ d a bs => [vecUse d 1 0 true, vecUse a 1 0 true, baseUse bs]
  | .stN64 _ d a bs => [vecUse d 2 0 true, vecUse a 1 0 true, baseUse bs]
  | .stN128 _ d a bs => [vecUse d 4 0 true, vecUse a 1 0 true, baseUse bs]
  | .ldk _ d a bs _ => [vecUse d 1 1 false, vecUse a 1 0 true, baseUse bs]
  | .ldProbe _ _ a bs _ => [vecUse a 1 0 true, baseUse bs]
  | .acasN64 d a bs _ _ _ => [vecUse d 4 2 true, vecUse a 1 0 true, baseUse bs]
  | .aaddN32 d a bs _ _ _ => [vecUse d 1 1 true, vecUse a 1 0 true, baseUse bs]
  | .aminI32 d a bs _ _ _ => [vecUse d 1 1 true, vecUse a 1 0 true, baseUse bs]
  | .amaxI32 d a bs _ _ _ => [vecUse d 1 1 true, vecUse a 1 0 true, baseUse bs]
  | .aminN32 d a bs _ _ _ => [vecUse d 1 1 true, vecUse a 1 0 true, baseUse bs]
  | .amaxN32 d a bs _ _ _ => [vecUse d 1 1 true, vecUse a 1 0 true, baseUse bs]
  | .aandN32 d a bs _ _ _ => [vecUse d 1 1 true, vecUse a 1 0 true, baseUse bs]
  | .aorN32 d a bs _ _ _ => [vecUse d 1 1 true, vecUse a 1 0 true, baseUse bs]
  | .axorN32 d a bs _ _ _ => [vecUse d 1 1 true, vecUse a 1 0 true, baseUse bs]
  | .axchgN32 d a bs _ _ _ => [vecUse d 1 1 true, vecUse a 1 0 true, baseUse bs]
  | .acasN32 d a bs _ _ _ => [vecUse d 2 1 true, vecUse a 1 0 true, baseUse bs]
  | .faddOrdF32 d a bs _ => [vecUse d 1 0 true, vecUse a 1 0 true, baseUse bs]
  | .faddOrdF64 d a bs _ => [vecUse d 2 0 true, vecUse a 1 0 true, baseUse bs]
  | .ldaN32 d a bs _ _ _ => [vecUse d 1 1 false, vecUse a 1 0 true, baseUse bs]
  | .ldaN64 d a bs _ _ _ => [vecUse d 2 2 false, vecUse a 1 0 true, baseUse bs]
  | .staN32 d a bs _ _ => [vecUse d 1 0 true, vecUse a 1 0 true, baseUse bs]
  | .staN64 d a bs _ _ => [vecUse d 2 0 true, vecUse a 1 0 true, baseUse bs]
  | .bra _ _ => []
  | .bral _ _ => [linkUse]
  | .jmp _ d a => [vecUse d 2 2 false, vecUse a 2 0 true]
  | .ret _ a => [vecUse a 2 0 true]
  | .yield _ => []
  | .nop _ => []
  | .exit _ => []
  | .hadd _ d a b => [vecUse d 1 1 false, vecUse a 1 0 true, vecUse b 1 0 true]
  | .hfma _ d a b => [vecUse d 1 1 true, vecUse a 1 0 true, vecUse b 1 0 true]
  | .fadd _ d a b => [vecUse d 1 1 false, vecUse a 1 0 true, vecUse b 1 0 true]
  | .fsub _ d a b => [vecUse d 1 1 false, vecUse a 1 0 true, vecUse b 1 0 true]
  | .fmul _ d a b => [vecUse d 1 1 false, vecUse a 1 0 true, vecUse b 1 0 true]
  | .ffma _ d a b => [vecUse d 1 1 true, vecUse a 1 0 true, vecUse b 1 0 true]
  | .fmin _ d a b => [vecUse d 1 1 false, vecUse a 1 0 true, vecUse b 1 0 true]
  | .fmax _ d a b => [vecUse d 1 1 false, vecUse a 1 0 true, vecUse b 1 0 true]
  | .dadd _ d a b => [vecUse d 2 2 false, vecUse a 2 0 true, vecUse b 2 0 true]
  | .shfl _ d a b => [vecUse d 1 1 false, vecUse a 1 0 true, vecUse b 1 0 true]
  | .shflI _ d a _ => [vecUse d 1 1 false, vecUse a 1 0 true]
  | .lsh _ d a b => [vecUse d 1 1 true, vecUse a 1 0 true, uniUse b 1 0 true]
  | .lshI _ d a _ => [vecUse d 1 1 true, vecUse a 1 0 true]
  | .lrot _ d a b => [vecUse d 1 1 true, vecUse a 1 0 true, uniUse b 1 0 true]
  | .lrotI _ d a _ => [vecUse d 1 1 false, vecUse a 1 0 true]
  | .bcast _ d a b => [vecUse d 1 1 true, vecUse a 1 0 true, uniUse b 1 0 true]
  | .bcastI _ d a _ => [vecUse d 1 1 false, vecUse a 1 0 true]
  | .scan _ d a _ => [vecUse d 1 1 false, vecUse a 1 0 true]
  | .sample _ d a b => [vecUse d 1 1 false, vecUse a 1 0 true, uniUse b 1 0 true]
  | .cvtRne _ d a dst src => [vecUse d dst.width dst.width false, vecUse a src.width 0 true]
  | .cvtRneF32Q4 _ d a => [vecUse d 1 1 false, vecUse a 1 0 true]
  | .cvtRneQ4F32 _ d a => [vecUse d 1 1 true, vecUse a 1 0 true]
  | .cvtRz _ d a dst src => [vecUse d dst.width dst.width false, vecUse a src.width 0 true]
  | .cvtRu _ d a dst src => [vecUse d dst.width dst.width false, vecUse a src.width 0 true]
  | .cvtRd _ d a dst src => [vecUse d dst.width dst.width false, vecUse a src.width 0 true]
  | .dmul _ d a b => [vecUse d 2 2 false, vecUse a 2 0 true, vecUse b 2 0 true]
  | .dfma _ d a b => [vecUse d 2 2 true, vecUse a 2 0 true, vecUse b 2 0 true]
  | .sadd d a b => [uniUse d 1 1 false, uniUse a 1 0 true, uniUse b 1 0 true]
  | .ssub d a b => [uniUse d 1 1 false, uniUse a 1 0 true, uniUse b 1 0 true]
  | .smul d a b => [uniUse d 1 1 false, uniUse a 1 0 true, uniUse b 1 0 true]
  | .smulh d a b _ => [uniUse d 1 1 false, uniUse a 1 0 true, uniUse b 1 0 true]
  | .sand d a b => [uniUse d 1 1 false, uniUse a 1 0 true, uniUse b 1 0 true]
  | .sor d a b => [uniUse d 1 1 false, uniUse a 1 0 true, uniUse b 1 0 true]
  | .sxor d a b => [uniUse d 1 1 false, uniUse a 1 0 true, uniUse b 1 0 true]
  | .sshl d a b => [uniUse d 1 1 false, uniUse a 1 0 true, uniUse b 1 0 true]
  | .sshr d a b => [uniUse d 1 1 false, uniUse a 1 0 true, uniUse b 1 0 true]
  | .ssar d a b => [uniUse d 1 1 false, uniUse a 1 0 true, uniUse b 1 0 true]
  | .smin d a b _ => [uniUse d 1 1 false, uniUse a 1 0 true, uniUse b 1 0 true]
  | .smax d a b _ => [uniUse d 1 1 false, uniUse a 1 0 true, uniUse b 1 0 true]
  | .scmp a b => [uniUse a 1 0 true, uniUse b 1 0 true]
  | .ssel d a b _ => [uniUse d 1 1 false, uniUse a 1 0 true, uniUse b 1 0 true]
  | .smovi d _ => [uniUse d 1 1 false]
  | .smovhi d _ => [uniUse d 1 1 true]
  | .saddi d _ => [uniUse d 1 1 true]
  | .lread d a lane => [uniUse d 1 1 false, vecUse a 1 0 true] ++ lane.uses
  | .sbcast d a _ => [vecUse d 1 1 false, uniUse a 1 0 true]
  | .ballot d _ _ => [uniUse d 1 1 false]
  | .idxImm _ => []
  | .idxReg d => [uniUse d 1 0 true]
  | .prioImm _ => []
  | .prioReg d => [uniUse d 1 0 true]
  | .ubra _ _ => []
  | .bar _ _ => []
  | .gbar _ _ => []
  | .arrive _ _ => []
  | .wait _ _ _ => []
  | .sleep d a b _ _ => [uniUse d 1 0 true, uniUse a 1 0 true, uniUse b 1 0 true]
  | .refresh => []
  | .rootsw d a b => [uniUse d 1 1 false, uniUse a 1 0 true, uniUse b 1 0 true]
  | .tlbfFill a b => [uniUse a 1 0 true, uniUse b 1 0 true]
  | .tlbfReq a b => [uniUse a 1 0 true, uniUse b 1 0 true]
  | .tlbfBad a b => [uniUse a 1 0 true, uniUse b 1 0 true]
  | .trap _ => []
  | .tret => []
  | .preq => []
  | .brk _ => []
  | .gateArm d => [uniUse d 1 0 true]
  | .gateCancel d => [uniUse d 1 0 true]
  | .pmark _ => []
  | .pmarkV d _ => [uniUse d 1 0 true]
  | .sld d a _ _ => [uniUse d 1 1 false, uniUse a 1 0 true]
  | .sst d a _ => [uniUse d 1 0 true, uniUse a 1 0 true]
  | .fence _ _ => []
  | .copy _ _ s _ _ => [uniUse s 4 1 true]
  | .chain _ s _ => [uniUse s 1 1 true]
  | .chwp _ _ s _ _ => [uniUse s 1 1 true]
  | .publ _ s _ => [uniUse s 1 1 true]
  | .rput _ s _ => [uniUse s 1 1 true]
  | .rtake _ s _ => [uniUse s 1 1 true]
  | .tld _ tile s _ => [uniUse s 1 1 true, tileUse tile true]
  | .wld _ s _ _ => [uniUse s 2 1 true]
  | .mma fmt tile acc s _ _ => [uniUse s 1 1 true, accUse acc (if fmt == .f64 then 2 else 1) true, tileUse tile false]
  | .azero acc s _ f64 => [uniUse s 1 1 true, accUse acc (if f64 then 2 else 1) true]
  | .ast _ acc s _ _ => [uniUse s 1 1 true, accUse acc 1 false]
  | .blsub _ _ s _ => [uniUse s 1 1 true]
  | .blcol _ s _ => [uniUse s 1 1 true]
  | .qcast s _ => [uniUse s 2 1 true]
  | .creduce s _ => [uniUse s 1 1 true]
  | .tidset _ s _ => [uniUse s 1 1 true]
  | .tidget _ s _ => [uniUse s 1 1 true]
  | .stins _ s _ => [uniUse s 1 1 true]
  | .stlook _ s _ => [uniUse s 1 1 true]
  | .kvres _ s _ => [uniUse s 2 1 true]
  | .sread d _ vec => [if vec then vecUse d 1 1 false else uniUse d 1 1 false]
  | .swrite d _ => [uniUse d 1 0 true]
  | .stamp d _ => [uniUse d 1 1 false]
  | .reset => []
  | .image _ _ => []
  | .boot => []
  | .config _ _ => []
  | .attest _ => []
  | .vlog => []
  | .queueCreate _ _ _ _ _ _ _ _ => []
  | .queueMap _ _ => []
  | .queueDelete _ => []
  | .regionSuspend _ => []
  | .regionResume _ => []
  | .regionKill _ => []
  | .install _ _ _ => []
  | .hold _ _ _ => []
  | .unhold _ _ _ => []
  | .release _ => []
  | .passign _ _ => []
  | .pfree _ => []
  | .answer _ _ _ => []
  | .importSet _ _ => []
  | .exportSet _ _ => []
  | .profile _ _ _ _ _ => []
  | .debugAttach _ => []
  | .debugComparatorWrite _ _ => []
  | .debugResume _ _ => []
  | .debugReadAccumulator _ _ _ => []
  | .debugDetach => []
  | .freeze => []
  | .freezeDump _ => []
  | .freezeThaw => []
  | .replayRecord _ _ _ _ _ => []
  | .replayArm _ _ _ _ _ => []
  | .replayEnd _ => []
  | .notifyWrite _ _ => []
  | .eventWrite _ => []
  | .ntailWrite _ => []
  | .registerWrite _ _ => []
  | .queueSlotMap _ _ => []
  | .queueSlotUnmap _ => []
  | .launchPacket _ => []
  | .graphPacket _ => []
  | .waitPacket _ => []
  | .waitConditionMet _ => []
  | .regionRegister _ => []
  | .regionUpdate _ => []
  | .regionUnregister _ => []
  | .kvTableSet _ => []
  | .launchStart _ => []
  | .gangClaim _ _ => []
  | .gangPlace _ _ => []
  | .launchComplete _ => []
  | .loopIteration _ => []
  | .groupActivate _ => []
  | .groupEvict _ => []
  | .parkThreshold _ => []
  | .parkComplete _ => []
  | .fairnessLimit _ => []
  | .progressWaitLimit _ => []
  | .watchdog _ => []
  | .preemptRequest _ => []
  | .noticeDeadline _ => []
  | .gangParkComplete _ => []
  | .gangResume _ _ => []
  | .trapEntry _ => []
  | .valueLands _ _ => []
  | .lineFill _ _ => []
  | .storeQueueDepart _ => []
  | .homeAccessPerform _ _ _ _ => []
  | .walkStart _ => []
  | .walkerInstructionLimit _ => []
  | .logEntryReplay _ _ => []
  | .slotReclaim _ _ => []
  | .rootswStep _ => []
  | .sleepWake _ _ _ => []
  | .publInstant _ _ => []
  | .engineCommandStart _ _ => []
  | .engineCommandComplete _ _ _ => []
  | .chainRecord _ _ _ => []
  | .groupRetire _ => []
  | .gateTimeout _ => []
  | .pcComparatorMatch _ => []
  | .profilingInterval => []
  | .pcSample _ _ => []
  | .ingressRequest _ => []
  | .portBringUp _ _ _ => []
  | .portLoss _ => []
  | .linkKeyRenewal _ => []
  | .ptpEvent _ => []
  | .powerThrottle _ => []
  | .thermalHalt _ => []
  | .i3cResetRequest => []
  | .uncorrectableError _ _ => []
  | .shareWindowEnd => []
  | .ptpReferenceLoss => []

/-- Instructions that close every window of their set (07: R147). -/
def Instr.closes (i : Instr) : Bool :=
  match i with
  | .bra _ _ => true
  | .bral _ _ => true
  | .jmp _ _ _ => true
  | .ret _ _ => true
  | .yield _ => true
  | .exit _ => true
  | .ubra _ _ => true
  | .bar _ _ => true
  | .gbar _ _ => true
  | .wait _ _ _ => true
  | .sleep _ _ _ _ _ => true
  | .trap _ => true
  | .tret => true
  | .preq => true
  | .brk _ => true
  | _ => false

/-- Lane words (07: R136). -/
def Instr.isLane (i : Instr) : Bool :=
  match i with
  | .iadd _ _ _ _ => true
  | .iaddi _ _ _ _ => true
  | .isub _ _ _ _ => true
  | .iadc _ _ _ _ => true
  | .isbb _ _ _ _ => true
  | .imul _ _ _ _ => true
  | .imulh _ _ _ _ => true
  | .imulhu _ _ _ _ => true
  | .imad _ _ _ _ => true
  | .imin _ _ _ _ => true
  | .imax _ _ _ _ => true
  | .iminu _ _ _ _ => true
  | .imaxu _ _ _ _ => true
  | .iabs _ _ _ => true
  | .ineg _ _ _ => true
  | .rng _ _ _ => true
  | .movi _ _ _ => true
  | .movhi _ _ _ => true
  | .andL _ _ _ _ => true
  | .orL _ _ _ _ => true
  | .xorL _ _ _ _ => true
  | .andn _ _ _ _ => true
  | .shl _ _ _ _ => true
  | .shr _ _ _ _ => true
  | .sar _ _ _ _ => true
  | .rol _ _ _ _ => true
  | .bfx _ _ _ _ => true
  | .bfxu _ _ _ _ => true
  | .bfi _ _ _ _ => true
  | .popc _ _ _ => true
  | .clz _ _ _ => true
  | .ctz _ _ _ => true
  | .brev _ _ _ => true
  | .sel _ _ _ _ => true
  | .cvtsr _ _ _ _ => true
  | .icmp _ _ _ _ _ => true
  | .itst _ _ _ _ _ => true
  | .fcmp _ _ _ _ => true
  | .dcmp _ _ _ _ => true
  | .cmov _ _ _ => true
  | .cmovV _ _ _ => true
  | .cmovI _ _ _ => true
  | .cmovR _ _ => true
  | .iaddmin _ _ _ _ => true
  | .iaddmax _ _ _ _ => true
  | .faddmin _ _ _ _ => true
  | .addw _ _ _ _ => true
  | .subw _ _ _ _ => true
  | .shlw _ _ _ _ => true
  | .shrw _ _ _ _ => true
  | .sarw _ _ _ _ => true
  | .mulw _ _ _ _ => true
  | .badd _ _ _ _ => true
  | .bfma _ _ _ _ => true
  | .idivI32 _ _ _ _ => true
  | .idivN32 _ _ _ _ => true
  | .iremI32 _ _ _ _ => true
  | .iremN32 _ _ _ _ => true
  | .fdiv _ _ _ _ => true
  | .fsqrt _ _ _ => true
  | .frcp _ _ _ => true
  | .frsq _ _ _ => true
  | .fexp2 _ _ _ => true
  | .flog2 _ _ _ => true
  | .fsin _ _ _ => true
  | .fcos _ _ _ => true
  | .ddiv _ _ _ _ => true
  | .dsqrt _ _ _ => true
  | .aaddN64 _ _ _ _ _ _ => true
  | .aminI64 _ _ _ _ _ _ => true
  | .amaxI64 _ _ _ _ _ _ => true
  | .aminN64 _ _ _ _ _ _ => true
  | .amaxN64 _ _ _ _ _ _ => true
  | .aandN64 _ _ _ _ _ _ => true
  | .aorN64 _ _ _ _ _ _ => true
  | .axorN64 _ _ _ _ _ _ => true
  | .ldI8 _ _ _ _ _ => true
  | .ldN8 _ _ _ _ _ => true
  | .ldI16 _ _ _ _ _ => true
  | .ldN16 _ _ _ _ _ => true
  | .ldN32 _ _ _ _ _ => true
  | .ldN64 _ _ _ _ _ => true
  | .ldN128 _ _ _ _ _ => true
  | .axchgN64 _ _ _ _ _ _ => true
  | .stN8 _ _ _ _ => true
  | .stN16 _ _ _ _ => true
  | .stN32 _ _ _ _ => true
  | .stN64 _ _ _ _ => true
  | .stN128 _ _ _ _ => true
  | .ldk _ _ _ _ _ => true
  | .ldProbe _ _ _ _ _ => true
  | .acasN64 _ _ _ _ _ _ => true
  | .aaddN32 _ _ _ _ _ _ => true
  | .aminI32 _ _ _ _ _ _ => true
  | .amaxI32 _ _ _ _ _ _ => true
  | .aminN32 _ _ _ _ _ _ => true
  | .amaxN32 _ _ _ _ _ _ => true
  | .aandN32 _ _ _ _ _ _ => true
  | .aorN32 _ _ _ _ _ _ => true
  | .axorN32 _ _ _ _ _ _ => true
  | .axchgN32 _ _ _ _ _ _ => true
  | .acasN32 _ _ _ _ _ _ => true
  | .faddOrdF32 _ _ _ _ => true
  | .faddOrdF64 _ _ _ _ => true
  | .ldaN32 _ _ _ _ _ _ => true
  | .ldaN64 _ _ _ _ _ _ => true
  | .staN32 _ _ _ _ _ => true
  | .staN64 _ _ _ _ _ => true
  | .bra _ _ => true
  | .bral _ _ => true
  | .jmp _ _ _ => true
  | .ret _ _ => true
  | .yield _ => true
  | .nop _ => true
  | .exit _ => true
  | .hadd _ _ _ _ => true
  | .hfma _ _ _ _ => true
  | .fadd _ _ _ _ => true
  | .fsub _ _ _ _ => true
  | .fmul _ _ _ _ => true
  | .ffma _ _ _ _ => true
  | .fmin _ _ _ _ => true
  | .fmax _ _ _ _ => true
  | .dadd _ _ _ _ => true
  | .shfl _ _ _ _ => true
  | .shflI _ _ _ _ => true
  | .lsh _ _ _ _ => true
  | .lshI _ _ _ _ => true
  | .lrot _ _ _ _ => true
  | .lrotI _ _ _ _ => true
  | .bcast _ _ _ _ => true
  | .bcastI _ _ _ _ => true
  | .scan _ _ _ _ => true
  | .sample _ _ _ _ => true
  | .cvtRne _ _ _ _ _ => true
  | .cvtRneF32Q4 _ _ _ => true
  | .cvtRneQ4F32 _ _ _ => true
  | .cvtRz _ _ _ _ _ => true
  | .cvtRu _ _ _ _ _ => true
  | .cvtRd _ _ _ _ _ => true
  | .dmul _ _ _ _ => true
  | .dfma _ _ _ _ => true
  | _ => false

/-- Engine commands (13: R246). -/
def Instr.isEngine (i : Instr) : Bool :=
  match i with
  | .copy _ _ _ _ _ => true
  | .chain _ _ _ => true
  | .chwp _ _ _ _ _ => true
  | .publ _ _ _ => true
  | .rput _ _ _ => true
  | .rtake _ _ _ => true
  | .tld _ _ _ _ => true
  | .wld _ _ _ _ => true
  | .mma _ _ _ _ _ _ => true
  | .azero _ _ _ _ => true
  | .ast _ _ _ _ _ => true
  | .blsub _ _ _ _ => true
  | .blcol _ _ _ => true
  | .qcast _ _ => true
  | .creduce _ _ => true
  | .tidset _ _ _ => true
  | .tidget _ _ _ => true
  | .stins _ _ _ => true
  | .stlook _ _ _ => true
  | .kvres _ _ _ => true
  | _ => false

/-- Memory words that can take an operand-log entry (02: R55). -/
def Instr.isMemory (i : Instr) : Bool :=
  match i with
  | .aaddN64 _ _ _ _ _ _ => true
  | .aminI64 _ _ _ _ _ _ => true
  | .amaxI64 _ _ _ _ _ _ => true
  | .aminN64 _ _ _ _ _ _ => true
  | .amaxN64 _ _ _ _ _ _ => true
  | .aandN64 _ _ _ _ _ _ => true
  | .aorN64 _ _ _ _ _ _ => true
  | .axorN64 _ _ _ _ _ _ => true
  | .ldI8 _ _ _ _ _ => true
  | .ldN8 _ _ _ _ _ => true
  | .ldI16 _ _ _ _ _ => true
  | .ldN16 _ _ _ _ _ => true
  | .ldN32 _ _ _ _ _ => true
  | .ldN64 _ _ _ _ _ => true
  | .ldN128 _ _ _ _ _ => true
  | .axchgN64 _ _ _ _ _ _ => true
  | .stN8 _ _ _ _ => true
  | .stN16 _ _ _ _ => true
  | .stN32 _ _ _ _ => true
  | .stN64 _ _ _ _ => true
  | .stN128 _ _ _ _ => true
  | .ldk _ _ _ _ _ => true
  | .acasN64 _ _ _ _ _ _ => true
  | .aaddN32 _ _ _ _ _ _ => true
  | .aminI32 _ _ _ _ _ _ => true
  | .amaxI32 _ _ _ _ _ _ => true
  | .aminN32 _ _ _ _ _ _ => true
  | .amaxN32 _ _ _ _ _ _ => true
  | .aandN32 _ _ _ _ _ _ => true
  | .aorN32 _ _ _ _ _ _ => true
  | .axorN32 _ _ _ _ _ _ => true
  | .axchgN32 _ _ _ _ _ _ => true
  | .acasN32 _ _ _ _ _ _ => true
  | .faddOrdF32 _ _ _ _ => true
  | .faddOrdF64 _ _ _ _ => true
  | .ldaN32 _ _ _ _ _ _ => true
  | .ldaN64 _ _ _ _ _ _ => true
  | .staN32 _ _ _ _ _ => true
  | .staN64 _ _ _ _ _ => true
  | .sld _ _ _ _ => true
  | .sst _ _ _ => true
  | _ => false

/-- The lookahead of an instruction that opens a window, unless its destination is vz or sz (07: R145). -/
def Instr.lookahead (i : Instr) : Option (BitVec 4) :=
  match i with
  | .idivI32 _ _ _ la => some la
  | .idivN32 _ _ _ la => some la
  | .iremI32 _ _ _ la => some la
  | .iremN32 _ _ _ la => some la
  | .fdiv _ _ _ la => some la
  | .fsqrt _ _ la => some la
  | .frcp _ _ la => some la
  | .frsq _ _ la => some la
  | .fexp2 _ _ la => some la
  | .flog2 _ _ la => some la
  | .fsin _ _ la => some la
  | .fcos _ _ la => some la
  | .ddiv _ _ _ la => some la
  | .dsqrt _ _ la => some la
  | .aaddN64 _ _ _ _ la _ => some la
  | .aminI64 _ _ _ _ la _ => some la
  | .amaxI64 _ _ _ _ la _ => some la
  | .aminN64 _ _ _ _ la _ => some la
  | .amaxN64 _ _ _ _ la _ => some la
  | .aandN64 _ _ _ _ la _ => some la
  | .aorN64 _ _ _ _ la _ => some la
  | .axorN64 _ _ _ _ la _ => some la
  | .ldI8 _ _ _ _ la => some la
  | .ldN8 _ _ _ _ la => some la
  | .ldI16 _ _ _ _ la => some la
  | .ldN16 _ _ _ _ la => some la
  | .ldN32 _ _ _ _ la => some la
  | .ldN64 _ _ _ _ la => some la
  | .ldN128 _ _ _ _ la => some la
  | .axchgN64 _ _ _ _ la _ => some la
  | .ldk _ _ _ _ la => some la
  | .acasN64 _ _ _ _ la _ => some la
  | .aaddN32 _ _ _ _ la _ => some la
  | .aminI32 _ _ _ _ la _ => some la
  | .amaxI32 _ _ _ _ la _ => some la
  | .aminN32 _ _ _ _ la _ => some la
  | .amaxN32 _ _ _ _ la _ => some la
  | .aandN32 _ _ _ _ la _ => some la
  | .aorN32 _ _ _ _ la _ => some la
  | .axorN32 _ _ _ _ la _ => some la
  | .axchgN32 _ _ _ _ la _ => some la
  | .acasN32 _ _ _ _ la _ => some la
  | .ldaN32 _ _ _ _ la _ => some la
  | .ldaN64 _ _ _ _ la _ => some la
  | .sld _ _ _ la => some la
  | .copy _ _ _ la _ => some la
  | .chain _ _ la => some la
  | .chwp _ _ _ la _ => some la
  | .publ _ _ la => some la
  | .rput _ _ la => some la
  | .rtake _ _ la => some la
  | .tld _ _ _ la => some la
  | .wld _ _ la _ => some la
  | .mma _ _ _ _ la _ => some la
  | .azero _ _ la _ => some la
  | .ast _ _ _ la _ => some la
  | .blsub _ _ _ la => some la
  | .blcol _ _ la => some la
  | .qcast _ la => some la
  | .creduce _ la => some la
  | .tidset _ _ la => some la
  | .tidget _ _ la => some la
  | .stins _ _ la => some la
  | .stlook _ _ la => some la
  | .kvres _ _ la => some la
  | _ => none

/-- The privilege an instruction needs (08: R160, R162; 12: R243). -/
def Instr.privilege (i : Instr) : Privilege :=
  match i with
  | .rootsw _ _ _ => .p
  | .tlbfFill _ _ => .w
  | .tlbfReq _ _ => .w
  | .tlbfBad _ _ => .w
  | .gateArm _ => .g
  | .gateCancel _ => .g
  | .swrite _ reg => reg.privilege
  | _ => .none

/-- The duty that a major code asks for, whatever its fields hold (01: R16, R17; 13: R246). -/
def Word.duty (w : Word) : Option Duty :=
  match (w.extractLsb' 24 8).toNat with
  | 0xC0 => some .copy
  | 0xC1 => some .copy
  | 0xC6 => some .matrix
  | 0xC7 => some .matrix
  | 0xC8 => some .matrix
  | 0xC9 => some .matrix
  | 0xCA => some .matrix
  | 0xCB => some .vector
  | 0xCC => some .vector
  | 0xCD => some .vector
  | 0xCE => some .vector
  | 0xD1 => some .vector
  | 0xD2 => some .vector
  | 0xD3 => some .vector
  | _ => none

/-- The duty an engine command needs; none is any (01: R16). -/
def Instr.duty (i : Instr) : Option Duty :=
  match i with
  | .copy _ _ _ _ _ => some .copy
  | .chain _ _ _ => some .copy
  | .tld _ _ _ _ => some .matrix
  | .wld _ _ _ _ => some .matrix
  | .mma _ _ _ _ _ _ => some .matrix
  | .azero _ _ _ _ => some .matrix
  | .ast _ _ _ _ _ => some .matrix
  | .blsub _ _ _ _ => some .vector
  | .blcol _ _ _ => some .vector
  | .qcast _ _ => some .vector
  | .creduce _ _ => some .vector
  | .stins _ _ _ => some .vector
  | .stlook _ _ _ => some .vector
  | .kvres _ _ _ => some .vector
  | _ => none

end Sys2Proof

namespace Sys2Proof.Machine

/-- The effective first register of an operand; none for vz and sz (02: R40, R41). -/
def RegUse.first (u : RegUse) (xi : BitVec 8) : Option Nat :=
  match u.cls with
  | .vector => if u.n = 63 then none else some (if u.indexed then u.n + xi.toNat else u.n)
  | .uniform => if u.n = 63 then none else some u.n
  | .tile => some u.n
  | .acc => some u.n

/-- The allocation limit of a class; vector registers end at 254 (02: R43). -/
def Alloc.limit (a : Alloc) (c : RegClass) : Nat :=
  match c with
  | .vector => min a.v 255
  | .uniform => a.s
  | .tile => a.t
  | .acc => a.a

/-- The check of one operand: alignment, then bounds (02: R43). -/
def RegUse.check (u : RegUse) (a : Alloc) (xi : BitVec 8) : Option (BitVec 8) :=
  match u.first xi with
  | none => none
  | some n =>
    if n % u.width ≠ 0 then some codeRegalign
    else if a.limit u.cls < n + u.width then some codeRegbound
    else none

/-- The first failing register check, in order (02: R43). -/
def checkUses (us : List RegUse) (a : Alloc) (xi : BitVec 8) : Option (BitVec 8) :=
  match us with
  | [] => none
  | u :: r =>
    match u.check a xi with
    | some c => some c
    | none => checkUses r a xi

/-- Whether the first n registers of an operand meet the registers that a pending destination covers. -/
def RegUse.meets (u : RegUse) (xi : BitVec 8) (p : Pend) (n : Nat) : Bool :=
  match u.first xi with
  | none => false
  | some m =>
    (match u.cls with
      | .vector => !p.uniform
      | .uniform => p.uniform
      | .tile => false
      | .acc => false) && decide (n ≠ 0) && decide (m < p.reg + p.width) && decide (p.reg < m + n)

/-- Whether an operand writes a register that a pending destination covers (07: R148). -/
def RegUse.hits (u : RegUse) (xi : BitVec 8) (p : Pend) : Bool := u.meets xi p u.wr

/-- Whether an operand reads or writes a register that a pending destination covers (07: R146). -/
def RegUse.touches (u : RegUse) (xi : BitVec 8) (p : Pend) : Bool := u.meets xi p (max u.wr (if u.rd then u.width else 0))

/-- The check of 07: R148: the instruction counts in an open window and writes what the window covers. -/
def windowTrap (i : Instr) (set : BitVec 32) (xi : BitVec 8) (ps : Table Pend) : Bool :=
  ps.any fun p => p.2.set &&& set != 0#32 && p.2.remaining != 0 && i.uses.any fun u => u.hits xi p.2

/-- Whether a group's privilege meets what an instruction needs (08: R162). -/
def privilegeOk (p : Privilege) (walker privileged replay : Bool) : Bool :=
  match p with
  | .none => true
  | .p => walker || privileged
  | .w => walker
  | .g => walker || privileged || replay

/-- The code that R318 gives replay mode (17: R318). -/
def detReplay : Nat := 3

/-- Whether a group belongs to a privileged launch (08: R162). -/
def State.privileged (s : State) (g : Group) : Bool :=
  match Table.get? s.launches g.id.launch with
  | none => false
  | some l => l.desc.privileged

/-- The trap that the checks of 07: R137 raise before the address checks, in their order: duty, privilege, registers,
window. A word that decodes has no reserved field left. -/
def State.wordTrap (s : State) (i : Instr) (set : BitVec 32) (g : Group) : Option (BitVec 8) :=
  if (match i.duty with | none => false | some d => d != g.id.duty) then some codeIllop
  else if !privilegeOk i.privilege g.id.walker (s.privileged g) (g.view.determinism == detReplay) then some codePriv
  else match checkUses i.uses g.id.alloc g.regs.xi with
    | some c => some c
    | none => if windowTrap i set g.regs.xi g.fl.pend then some codeWindow else none

/-! ## Windows (07: R146, 02: R56) -/

/-- Landing line word k of line m. -/
def Group.landingWord (g : Group) (m k : Nat) : BitVec 32 := Table.getD g.fl.landing (32 * m + k) 0#32

/-- The value of a pending destination moves into its register, in the lanes it lands in, and its lines are freed (02:
R56, 07: R146). DESIGN CHOICE (log 72): a landing line that is not in use holds 0; the spec does not say what it holds. DESIGN CHOICE
(log 75): a uniform descriptor that software gave width pair or quad (02: R419) moves its first register from its first line. -/
def Group.movePend (g : Group) (slot : Nat) (p : Pend) : Group :=
  let g :=
    if p.uniform then
      { g with regs := { g.regs with s := Table.put 0#64 g.regs.s p.reg (g.landingWord p.line 1 ++ g.landingWord p.line 0) } }
    else
      (List.range p.width).foldl (fun g' j =>
        Group.setLanesIn (List.range 32) p.lanes (p.reg + j) (fun l => g.landingWord (p.line + j) l) g') g
  { g with fl := { g.fl with
    pend := Table.erase g.fl.pend slot
    landing := g.fl.landing.filter fun e => e.1 / 32 < p.line || p.line + p.width ≤ e.1 / 32 } }

/-- What an issue of a set does to one pending destination: nothing when it does not count; the move when the window has
ended or the instruction closes it; one instruction fewer otherwise (07: R146, R147). -/
def Group.settleOne (closer : Bool) (set : BitVec 32) (g : Group) (e : Nat × Pend) : Group :=
  if e.2.set &&& set = 0#32 then g
  else if closer || e.2.remaining = 0 then g.movePend e.1 e.2
  else { g with fl := { g.fl with pend := Table.set g.fl.pend e.1 { e.2 with remaining := e.2.remaining - 1 } } }

/-- The windows at the issue of an instruction (07: R146, R147): moves first, then the counts. -/
def Group.settle (closer : Bool) (set : BitVec 32) (g : Group) : Group :=
  g.fl.pend.foldl (Group.settleOne closer set) g

/-- Only the moves of an issue: what the checks of the instruction are made after. -/
def Group.moves (closer : Bool) (set : BitVec 32) (g : Group) : Group :=
  g.fl.pend.foldl (fun g e =>
    if e.2.set &&& set = 0#32 then g
    else if closer || e.2.remaining = 0 then g.movePend e.1 e.2 else g) g

/-- Landing lines in use. -/
def usedLines (ps : Table Pend) : List Nat := ps.flatMap fun e => (List.range e.2.width).map (e.2.line + ·)

/-- The first of n consecutive free landing lines, if there are any (02: R56): the lowest, DESIGN CHOICE (log 72). -/
def freeLines (ps : Table Pend) (n : Nat) : Option Nat :=
  (List.range 8).find? fun m => decide (m + n ≤ 8) && (List.range n).all fun j => !(usedLines ps).contains (m + j)

/-- The lowest free pending descriptor; which one a destination takes is DESIGN CHOICE (log 72). -/
def freePend (ps : Table Pend) : Option Nat := (List.range 8).find? fun p => (Table.get? ps p).isNone

/-- The destination an instruction leaves pending: class, effective register, registers written; none for vz and sz and
for instructions that open no window (07: R145). -/
def pendDest (i : Instr) (xi : BitVec 8) : Option (Bool × Nat × Nat) :=
  match i.lookahead with
  | none => none
  | some _ =>
    match i.uses.find? fun u => u.wr != 0 && (u.cls == .vector || u.cls == .uniform) with
    | none => none
    | some u => (u.first xi).map fun n => (u.cls == .uniform, n, u.wr)

/-- How many landing lines below line m are in use. -/
def linesBelow (ps : Table Pend) (m : Nat) : Nat := ((usedLines ps).filter (· < m)).length

/-- The landing lines in use move together from line 0 up, so that the free ones are consecutive (02: R56; log 72). -/
def Group.packLines (g : Group) : Group :=
  { g with fl := { g.fl with
    pend := g.fl.pend.map fun e => (e.1, { e.2 with line := linesBelow g.fl.pend e.2.line })
    landing := (g.fl.landing.filter fun e => (usedLines g.fl.pend).contains (e.1 / 32)).map
      fun e => (32 * linesBelow g.fl.pend (e.1 / 32) + e.1 % 32, e.2) } }

/-- The group with w consecutive landing lines free, when w lines are free at all. -/
def Group.clearLines (g : Group) (w : Nat) : Group := if (freeLines g.fl.pend w).isSome then g else g.packLines

/-- Whether the landing lines and descriptors suffice for an instruction: otherwise it does not issue (02: R56). -/
def Group.room (g : Group) (i : Instr) : Bool :=
  match pendDest i g.regs.xi with
  | none => true
  | some (_, _, w) => (freePend (g.clearLines w).fl.pend).isSome && (freeLines (g.clearLines w).fl.pend w).isSome

/-- Opens a window on a destination (02: R56): the landing lines hold the old value of the lanes until it lands. none
when the lines or descriptors do not suffice: such an instruction does not issue. -/
def Group.openPend (g : Group) (uniform : Bool) (reg width : Nat) (set lanes : BitVec 32) (la : BitVec 4) :
    Option (Nat × Group) :=
  let g := g.clearLines width
  match freePend g.fl.pend, freeLines g.fl.pend width with
  | some slot, some line =>
    let old := if uniform then
        [(32 * line, (g.sreg reg).setWidth 32), (32 * line + 1, (g.sreg reg).extractLsb' 32 32)]
      else (List.range width).flatMap fun j => (lanesOf lanes).map fun l => (32 * (line + j) + l, g.vreg (reg + j) l)
    some (slot, { g with fl := { g.fl with
      pend := Table.set g.fl.pend slot ⟨uniform, reg, width, line, set, lanes, la.toNat, false⟩
      landing := old.foldl (fun t e => Table.put 0#32 t e.1 e.2) g.fl.landing } })
  | _, _ => none

/-- The result of word j in lane l is written to the landing lines of a pending destination; words past its width have none (02: R419). -/
def Group.setLanding (g : Group) (slot j l : Nat) (x : BitVec 32) : Group :=
  match Table.get? g.fl.pend slot with
  | none => g
  | some p =>
    if p.width ≤ j then g else { g with fl := { g.fl with landing := Table.put 0#32 g.fl.landing (32 * (p.line + j) + l) x } }

/-- The value is complete in the landing lines. -/
def Group.markLanded (g : Group) (slot : Nat) : Group :=
  { g with fl := { g.fl with pend := Table.modify g.fl.pend slot fun p => { p with landed := true } } }

/-- A uniform result lands (02: R56). -/
def Group.landUniform (g : Group) (slot : Nat) (x : BitVec 64) : Group :=
  ((g.setLanding slot 0 0 (x.setWidth 32)).setLanding slot 0 1 (x.extractLsb' 32 32)).markLanded slot

/-! ## Running a word -/

/-- Runs k on the word of the issue slot and its group; without a group to issue it there is nothing to run. -/
def State.withIssuer (s : State) (k : Issue → Group → Out) : Out :=
  match s.issue with
  | none => .fault .noIssuer
  | some is =>
    match Table.get? s.groups is.grp with
    | none => .fault .noIssuer
    | some g => k is g

/-- The trap request of a trap raised at the issue of a word (12: R239: the return PC is its own PC). -/
def Issue.trap (is : Issue) (code : BitVec 8) : TrapReq where
  code := code
  pc := is.pc
  ret := is.pc
  word := is.word
  mask := is.mask
  failed := 0#32
  info := 0#32
  addr := 0#64
  imm := 0#12
  cur := 0#56
  rank := 0

/-- Runs a word: the moves that its issue makes, the checks of 07: R137, the counts, then eff with the group as it then
stands, which is also the state's. A trapping word has no effect. -/
def State.runWord (s : State) (i : Instr) (eff : Issue → Group → State → Out) : Out :=
  s.withIssuer fun is g =>
    match s.wordTrap i is.mask (g.moves i.closes is.mask) with
    | some c => .next ((s.setGroup is.grp (g.moves i.closes is.mask)).raiseAtIssue is.grp (is.trap c))
    | none =>
      if (g.moves i.closes is.mask).room i then
        eff is (g.settle i.closes is.mask) (s.setGroup is.grp (g.settle i.closes is.mask))
      else .next s

/-- Every lane of the set goes on to the next word. -/
def Group.advance (is : Issue) (g : Group) : Group := g.goto is.mask (is.pc + 4#56)

/-- Runs a word whose whole effect is on its own group: f gives the group, PCs included. -/
def State.runGroup' (s : State) (i : Instr) (f : Issue → Group → Group) : Out :=
  s.runWord i fun is g s => .next (s.setGroup is.grp (f is g))

/-- Runs a word whose whole effect is on its own group: f gives the group, and the set goes on to the next word. -/
def State.runGroup (s : State) (i : Instr) (f : Issue → Group → Group) : Out :=
  s.runWord i fun is g s => .next (s.setGroup is.grp ((f is g).advance is))

end Sys2Proof.Machine
end

