-- ==== Sys2Proof/Machine/Barrier.lean ====
section
/-!
DEFINITION. Barriers of workgroups and gangs (12: R229 to R232).
-/

namespace Sys2Proof.Machine

/-- The number of a thread among the threads of its gang. -/
def Group.threadKey (g : Group) (l : Nat) : Nat := (g.id.wg * 16 + g.id.grpid) * 32 + l

/-- The key of barrier n of a gang, or of a group's workgroup, among the barriers of its gang. -/
def barrierKey (gang : Bool) (n wg : Nat) : Nat := if gang then n else 8 * (wg + 1) + n

/-- Barrier k of a gang; no thread has arrived at one that is not listed. -/
def State.barrier (s : State) (gang k : Nat) : Barrier :=
  match Table.get? s.gangs gang with
  | none => ⟨0, []⟩
  | some a => Table.getD a.bars k ⟨0, []⟩

/-- One more than the last phase that a thread arrived at; 0 when it never arrived. -/
def Barrier.arrivedAt (b : Barrier) (t : Nat) : Nat := Table.getD b.last t 0

/-- Records the arrival of threads in the current phase. -/
def Barrier.record (b : Barrier) (ts : List Nat) : Barrier :=
  { b with last := ts.foldl (fun t k => Table.set t k (b.phase + 1)) b.last }

/-- Whether a group belongs to the instance of barrier k of a gang. -/
def Group.inInstance (g : Group) (gang k : Nat) : Bool :=
  g.id.gang == gang && !g.id.walker && !g.ctl.dead && (k < 8 || k / 8 == g.id.wg + 1)

/-- Whether a wait is that of SLEEP. -/
def LaneWait.isSleep (w : LaneWait) : Bool :=
  match w with
  | .barrier _ _ _ _ => false
  | .arrive _ _ _ _ => false
  | .sleep _ => true
  | .fetch _ => false

/-- Whether a wait is for a phase of barrier k of a group. -/
def LaneWait.at (w : LaneWait) (wg k phase : Nat) : Bool :=
  match w with
  | .barrier gang n p _ => barrierKey gang n wg == k && p == phase
  | .arrive gang n _ _ => barrierKey gang n wg == k
  | .sleep _ => false
  | .fetch _ => false

/-- Whether a wait asks for a refresh at completion. -/
def LaneWait.wantsRefresh (w : LaneWait) : Bool :=
  match w with
  | .barrier _ _ _ r => r
  | .arrive _ _ _ _ => false
  | .sleep _ => false
  | .fetch _ => false

/-- The waits of a group after a phase of barrier k completes: waits on the phase end, and a held arrival arrives in the
next phase (12: R230). -/
def endWaits (wg k phase : Nat) (ws : Table LaneWait) : Table LaneWait :=
  ws.filterMap fun e =>
    if e.2.at wg k phase then
      match e.2 with
      | .arrive gang n true r => some (e.1, .barrier gang n (phase + 1) r)
      | .arrive _ _ false _ => none
      | .barrier _ _ _ _ => none
      | .sleep _ => none
      | .fetch _ => none
    else some e

/-- The threads of a group whose held arrival at barrier k goes on. -/
def Group.heldAt (g : Group) (k : Nat) : List Nat :=
  (g.ctl.waits ++ g.tr.saved).filterMap fun e =>
    match e.2 with
    | .arrive gang n _ _ => if barrierKey gang n g.id.wg = k then some (g.threadKey e.1) else none
    | .barrier _ _ _ _ => none
    | .sleep _ => none
    | .fetch _ => none

/-- Whether every thread of the instance that has not exited has arrived (12: R230). -/
def State.phaseDone (s : State) (gang k : Nat) : Bool :=
  let b := s.barrier gang k
  let gs := s.groups.filter fun p => p.2.inInstance gang k && p.2.live != 0#32
  !gs.isEmpty && gs.all fun p => (lanesOf p.2.live).all fun l => b.arrivedAt (p.2.threadKey l) == b.phase + 1

/-- A phase completes (12: R230): the counter advances, the waits on it end, held arrivals arrive, and each group that
waited with .refresh moves to the slot read once (03: R69). -/
def State.finishPhase (s : State) (gang k : Nat) : State :=
  let b := s.barrier gang k
  let gs := s.groups.filter fun p => p.2.inInstance gang k
  let held := gs.flatMap fun p => p.2.heldAt k
  let b' : Barrier := { b with phase := b.phase + 1 }
  let s := s.modGang gang fun a => { a with bars := Table.set a.bars k (b'.record held) }
  let fresh := gs.filter fun p =>
    (p.2.ctl.waits ++ p.2.tr.saved).any fun e => e.2.at p.2.id.wg k b.phase && e.2.wantsRefresh
  let s := gs.foldl (fun s p => s.modGroup p.1 fun g =>
    { g with
      ctl := { g.ctl with waits := endWaits g.id.wg k b.phase g.ctl.waits }
      tr := { g.tr with saved := endWaits g.id.wg k b.phase g.tr.saved } }.noteWait s.clk.cycle) s
  match fresh with
  | [] => s
  | p :: _ =>
    let h := s.slotHolder (s.regionOf p.2)
    let slot := s.currentSlot h
    fresh.foldl (fun s p => s.refreshGroup p.1 h slot) s

/-- Completes the phase of barrier k when all have arrived; held arrivals can complete the next one. -/
def State.checkBarrier (fuel : Nat) (s : State) (gang k : Nat) : State :=
  match fuel with
  | 0 => s
  | n + 1 => if s.phaseDone gang k then State.checkBarrier n (s.finishPhase gang k) gang k else s

/-- Every barrier that a group takes part in is checked: its exited threads count as arrived (01: R10). -/
def State.checkBarriers (s : State) (g : Group) : State :=
  ((List.range 8) ++ (List.range 8).map (8 * (g.id.wg + 1) + ·)).foldl
    (fun s k => s.checkBarrier 2 g.id.gang k) s

/-- The threads of a set that arrive, and those held because they have arrived in the current phase already. -/
def Barrier.newLanes (b : Barrier) (g : Group) (m : BitVec 32) : BitVec 32 :=
  maskOf fun l => has m l && b.arrivedAt (g.threadKey l) != b.phase + 1

/-- Arrive, and, when thenWait, wait (12: R230). -/
def State.arriveAt (s : State) (is : Issue) (g : Group) (gang : Bool) (n : Nat) (thenWait refresh : Bool) : State :=
  let k := barrierKey gang n g.id.wg
  let b := s.barrier g.id.gang k
  let new := b.newLanes g is.mask
  let held := is.mask &&& ~~~ new
  let g := (g.advance is).setWait held (some (.arrive gang n thenWait refresh))
  let g := if thenWait then g.setWait new (some (.barrier gang n b.phase refresh)) else g
  let s := s.setGroup is.grp (g.noteWait s.clk.cycle)
  let s := s.modGang g.id.gang fun a =>
    { a with bars := Table.set a.bars k (b.record ((lanesOf new).map g.threadKey)) }
  s.checkBarrier 2 g.id.gang k

/-- bar (12: R229, R230). -/
def execBar (n : BitVec 3) (refresh : Bool) (s : State) : Out :=
  s.runWord (.bar n refresh) fun is g s => .next (s.arriveAt is g false n.toNat true refresh)

/-- gbar (12: R229, R230). -/
def execGbar (n : BitVec 3) (refresh : Bool) (s : State) : Out :=
  s.runWord (.gbar n refresh) fun is g s => .next (s.arriveAt is g true n.toNat true refresh)

/-- arrive (12: R229, R230). -/
def execArrive (n : BitVec 3) (gang : Bool) (s : State) : Out :=
  s.runWord (.arrive n gang) fun is g s => .next (s.arriveAt is g gang n.toNat false false)

/-- wait (12: R229, R230): a thread that has arrived in a phase not yet completed waits for it. -/
def execWait (n : BitVec 3) (gang refresh : Bool) (s : State) : Out :=
  s.runWord (.wait n gang refresh) fun is g s =>
    let b := s.barrier g.id.gang (barrierKey gang n.toNat g.id.wg)
    let m := maskOf fun l => has is.mask l && b.arrivedAt (g.threadKey l) == b.phase + 1
    .next (s.setGroup is.grp
      (((g.advance is).setWait m (some (.barrier gang n.toNat b.phase refresh))).noteWait s.clk.cycle))

end Sys2Proof.Machine
end

