-- ==== Sys2Proof/Machine/Control.lean ====
section
/-!
DEFINITION. Control transfers of the lanes: branches, indirect jumps, yield, nop, exit (09: R182 to R186).
-/

namespace Sys2Proof.Machine

/-- The target of a branch: PC + 4 x off modulo 2^56 (07: R141). -/
def branchTarget {n : Nat} (pc : BitVec 56) (off : BitVec n) : BitVec 56 := pc + (off.signExtend 56 <<< 2)

/-- The lanes of m go to their targets, the others of the set to the next word. -/
def Group.jumpTo (is : Issue) (m : BitVec 32) (target : Nat → BitVec 64) (g : Group) : Group :=
  (g.advance is).setPcs m target

/-- bra (09: R182). -/
def execBra (gd : Guard) (off : BitVec 18) (s : State) : Out :=
  s.runWord (.bra gd off) fun is g s =>
    .next (s.setGroup is.grp (g.jumpTo is (g.passing gd is.mask) fun _ => (branchTarget is.pc off).setWidth 64))

/-- bral: links in v6:v7, never indexed (09: R182). -/
def execBral (gd : Guard) (off : BitVec 18) (s : State) : Out :=
  s.runWord (.bral gd off) fun is g s =>
    let m := g.passing gd is.mask
    let link : BitVec 64 := (is.pc + 4#56).setWidth 64
    let g := Group.setLanesIn (List.range 32) m 7 (fun _ => link.extractLsb' 32 32)
      (Group.setLanesIn (List.range 32) m 6 (fun _ => link.setWidth 32) g)
    .next (s.setGroup is.grp (g.jumpTo is m fun _ => (branchTarget is.pc off).setWidth 64))

/-- The lowest lane of m whose address is not a multiple of n. -/
def misaligned (m : BitVec 32) (n : Nat) (addr : Nat → BitVec 64) : Option Nat :=
  (lanesOf m).find? fun l => decide ((addr l).toNat % n ≠ 0)

/-- A trap at issue that names a lane and an address. -/
def Issue.addrTrap (is : Issue) (code : BitVec 8) (lane : Nat) (addr : BitVec 64) : TrapReq :=
  { is.trap code with info := BitVec.ofNat 32 lane, addr }

/-- An indirect jump; a misaligned target of a passing lane traps ALIGN before any lane jumps or links (09: R183). -/
def State.indirect (s : State) (i : Instr) (gd : Guard) (a : BitVec 6) (link : BitVec 32 → BitVec 64 → Group → Group) :
    Out :=
  s.runWord i fun is g s =>
    let m := g.passing gd is.mask
    match misaligned m 4 (g.rw a) with
    | some l => .next (s.raiseAtIssue is.grp (is.addrTrap codeAlign l (g.rw a l)))
    | none => .next (s.setGroup is.grp ((link m ((is.pc + 4#56).setWidth 64) g).jumpTo is m (g.rw a)))

/-- jmp: links in D (09: R183). -/
def execJmp (gd : Guard) (d a : BitVec 6) (s : State) : Out :=
  s.indirect (.jmp gd d a) gd a fun m pc g => g.writePairs m d fun _ => pc

/-- ret (09: R183). -/
def execRet (gd : Guard) (a : BitVec 6) (s : State) : Out :=
  s.indirect (.ret gd a) gd a fun _ _ g => g

/-- yield: with a passing lane the set's turn ends and it is passed over (09: R185, 01: R12). -/
def execYield (gd : Guard) (s : State) : Out :=
  s.runGroup (.yield gd) fun is g =>
    if g.passing gd is.mask = 0#32 then g
    else { g with ctl := { g.ctl with yielded := g.ctl.yielded ||| is.mask } }

/-- nop (09: R185). -/
def execNop (gd : Guard) (s : State) : Out := s.runGroup (.nop gd) fun _ g => g

/-- exit: the passing lanes are absent for the rest of the group's life and count as arrived at every barrier (09: R185,
R186, 01: R10). -/
def execExit (gd : Guard) (s : State) : Out :=
  s.runWord (.exit gd) fun is g s =>
    let out := g.passing gd is.mask
    let g' := { g.advance is with ctl := { (g.advance is).ctl with
      exited := g.ctl.exited ||| out
      lastExit := if out = 0#32 then g.ctl.lastExit else is.pc } }
    .next ((s.setGroup is.grp (g'.noteWait s.clk.cycle)).checkBarriers g')

/-- ubra: the whole set branches on ucc (12: R228, 07: R144). -/
def execUbra (c : Cond) (off : BitVec 20) (s : State) : Out :=
  s.runGroup' (.ubra c off) fun is g =>
    if condHolds c g.regs.ucc then g.goto is.mask (branchTarget is.pc off) else g.advance is

end Sys2Proof.Machine
end

