-- ==== Sys2Proof/Machine/Float.lean ====
section
/-!
DEFINITION. The number formats and their arithmetic (06): every value is taken exactly, as a sign, a whole number and a
power of two, and is rounded once.
-/

namespace Sys2Proof.Machine

/-- A floating-point format (06: R115). noInf marks e4m3, which has no infinity and one NaN. -/
structure FloatFmt where
  ebits : Nat
  fbits : Nat
  noInf : Bool
  deriving DecidableEq, Repr

/-- The bias: 2^(ebits - 1) - 1. -/
def FloatFmt.bias (f : FloatFmt) : Nat := 2 ^ (f.ebits - 1) - 1

def f64 : FloatFmt := ⟨11, 52, false⟩
def f32 : FloatFmt := ⟨8, 23, false⟩
def f16 : FloatFmt := ⟨5, 10, false⟩
def bf16 : FloatFmt := ⟨8, 7, false⟩
def e4m3 : FloatFmt := ⟨4, 3, true⟩
def e5m2 : FloatFmt := ⟨5, 2, false⟩

/-- An exact value: NaN, an infinity, or (-1)^neg x m x 2^e. -/
inductive FVal where
  | nan
  | inf (neg : Bool)
  | fin (neg : Bool) (m : Nat) (e : Int)
  deriving DecidableEq, Repr

/-- The rounding modes (06: R121). -/
inductive RMode where
  | rne | rz | ru | rd
  deriving DecidableEq, Repr

/-- The value of a bit pattern (06: R115). -/
def FloatFmt.decode (f : FloatFmt) (bits : Nat) : FVal :=
  let frac := bits % 2 ^ f.fbits
  let ex := bits / 2 ^ f.fbits % 2 ^ f.ebits
  let neg := bits / 2 ^ (f.fbits + f.ebits) % 2 == 1
  let top := 2 ^ f.ebits - 1
  if ex = 0 then .fin neg frac (1 - (f.bias : Int) - f.fbits)
  else if ex = top && (if f.noInf then frac == 2 ^ f.fbits - 1 else true) then
    if f.noInf || frac != 0 then .nan else .inf neg
  else .fin neg (2 ^ f.fbits + frac) ((ex : Int) - f.bias - f.fbits)

/-- The canonical NaN (06: R116): for e4m3 the one positive NaN pattern. -/
def FloatFmt.nan (f : FloatFmt) : Nat :=
  if f.noInf then 2 ^ (f.ebits + f.fbits) - 1 else (2 ^ f.ebits - 1) * 2 ^ f.fbits + 2 ^ (f.fbits - 1)

/-- The sign bit. -/
def FloatFmt.sign (f : FloatFmt) (neg : Bool) : Nat := if neg then 2 ^ (f.fbits + f.ebits) else 0

/-- The pattern of an infinity; for e4m3 the largest finite value (06: R121). -/
def FloatFmt.infBits (f : FloatFmt) (neg : Bool) : Nat :=
  f.sign neg + (if f.noInf then 2 ^ (f.ebits + f.fbits) - 2 else (2 ^ f.ebits - 1) * 2 ^ f.fbits)

/-- The pattern of the largest finite value. -/
def FloatFmt.maxBits (f : FloatFmt) (neg : Bool) : Nat :=
  f.sign neg + (if f.noInf then 2 ^ (f.ebits + f.fbits) - 2 else (2 ^ f.ebits - 1) * 2 ^ f.fbits - 1)

/-- Whether a remainder r of 2^s at an integer k rounds k up (06: R121). -/
def roundsUp (mode : RMode) (neg : Bool) (k r s : Nat) : Bool :=
  match mode with
  | .rne => decide (2 ^ s < 2 * r) || (2 * r == 2 ^ s && r != 0 && k % 2 == 1)
  | .rz => false
  | .ru => r != 0 && !neg
  | .rd => r != 0 && neg

/-- m x 2^e as a whole multiple of 2^q, rounded. -/
def roundAt (mode : RMode) (neg : Bool) (m : Nat) (e q : Int) : Nat :=
  if q ≤ e then m * 2 ^ (e - q).toNat
  else
    let s := (q - e).toNat
    let k := m / 2 ^ s
    k + (roundsUp mode neg k (m % 2 ^ s) s).toNat

/-- The pattern of k x 2^q, where 2^q is the unit in the last place of the format there, after overflow (06: R122). -/
def FloatFmt.pack (f : FloatFmt) (mode : RMode) (neg : Bool) (k : Nat) (q : Int) : Nat :=
  let q' := if k = 2 ^ (f.fbits + 1) then q + 1 else q
  let k' := if k = 2 ^ (f.fbits + 1) then 2 ^ f.fbits else k
  let mag := if k' < 2 ^ f.fbits then k' else (q' + f.fbits + f.bias).toNat * 2 ^ f.fbits + (k' - 2 ^ f.fbits)
  if mag ≤ f.maxBits false then f.sign neg + mag
  else
    match mode with
    | .rne => f.infBits neg
    | .rz => f.maxBits neg
    | .ru => if neg then f.maxBits neg else f.infBits neg
    | .rd => if neg then f.infBits neg else f.maxBits neg

/-- RoundTo of 06: R121, R122: the pattern of a value in a format. -/
def FloatFmt.round (f : FloatFmt) (mode : RMode) (x : FVal) : Nat :=
  match x with
  | .nan => f.nan
  | .inf neg => f.infBits neg
  | .fin neg m e =>
    if m = 0 then f.sign neg
    else
      let q := max (e + m.log2 - f.fbits) (1 - (f.bias : Int) - f.fbits)
      f.pack mode neg (roundAt mode neg m e q) q

/-- The exact value of a whole number. -/
def FVal.ofInt (i : Int) : FVal := .fin (decide (i < 0)) i.natAbs 0

/-- The exact value of i x 2^e, zero being positive. -/
def FVal.scaled (i : Int) (e : Int) : FVal := .fin (decide (i < 0)) i.natAbs e

/-- The signed whole number of a finite value, as a multiple of 2^q, for q at most its exponent. -/
def signedAt (neg : Bool) (m : Nat) (e q : Int) : Int :=
  let k : Int := m * 2 ^ (e - q).toNat
  if neg then -k else k

/-- The exact sum (06: R116, 10: R187): an exact zero is +0 unless both terms are -0. -/
def FVal.add (x y : FVal) : FVal :=
  match x, y with
  | .nan, _ => .nan
  | _, .nan => .nan
  | .inf a, .inf b => if a == b then .inf a else .nan
  | .inf a, .fin _ _ _ => .inf a
  | .fin _ _ _, .inf b => .inf b
  | .fin a m e, .fin b n d =>
    let q := min e d
    let t := signedAt a m e q + signedAt b n d q
    if t = 0 then .fin (m == 0 && n == 0 && a && b) 0 q else .scaled t q

/-- The negated value. -/
def FVal.neg (x : FVal) : FVal :=
  match x with
  | .nan => .nan
  | .inf a => .inf (!a)
  | .fin a m e => .fin (!a) m e

/-- The exact product; 0 x infinity is NaN. -/
def FVal.mul (x y : FVal) : FVal :=
  match x, y with
  | .nan, _ => .nan
  | _, .nan => .nan
  | .inf a, .inf b => .inf (a != b)
  | .inf a, .fin b n _ => if n = 0 then .nan else .inf (a != b)
  | .fin a m _, .inf b => if m = 0 then .nan else .inf (a != b)
  | .fin a m e, .fin b n d => .fin (a != b) (m * n) (e + d)

/-- The relation of two values; none is unordered (10: R190). -/
def FVal.cmp (x y : FVal) : Option Ordering :=
  match x, y with
  | .nan, _ => none
  | _, .nan => none
  | .inf a, .inf b => some (if a == b then .eq else if a then .lt else .gt)
  | .inf a, .fin _ _ _ => some (if a then .lt else .gt)
  | .fin _ _ _, .inf b => some (if b then .gt else .lt)
  | .fin a m e, .fin b n d => some (compare (signedAt a m e (min e d)) (signedAt b n d (min e d)))

/-- Whether a value is a NaN. -/
def FVal.isNan (x : FVal) : Bool := x == .nan

/-- Whether a value is below zero. -/
def FVal.negative (x : FVal) : Bool := x.cmp (.fin false 0 0) == some .lt

/-- The value rounded to a whole number by a mode, for a finite value. -/
def roundInt (mode : RMode) (neg : Bool) (m : Nat) (e : Int) : Int :=
  let k : Int := roundAt mode neg m e 0
  if neg then -k else k

/-- RoundTo for an integer type from lo to hi (06: R123). -/
def roundToInt (mode : RMode) (lo hi : Int) (x : FVal) : Int :=
  match x with
  | .nan => 0
  | .inf neg => if neg then lo else hi
  | .fin neg m e => max lo (min hi (roundInt mode neg m e))

/-! ## f32 and f64 values of registers -/

def val32 (x : BitVec 32) : FVal := f32.decode x.toNat
def val64 (x : BitVec 64) : FVal := f64.decode x.toNat
def rnd32 (x : FVal) : BitVec 32 := BitVec.ofNat 32 (f32.round .rne x)
def rnd64 (x : FVal) : BitVec 64 := BitVec.ofNat 64 (f64.round .rne x)

/-- Fmin and Fmax (10: R188): a NaN loses to a number; -0 is below +0; the result is one of the operands. -/
def fminmax (max : Bool) (a b : BitVec 32) : BitVec 32 :=
  if (val32 a).isNan then (if (val32 b).isNan then BitVec.ofNat 32 f32.nan else b)
  else if (val32 b).isNan then a
  else
    let less := match (val32 a).cmp (val32 b) with
      | some .lt => true
      | some .gt => false
      | some .eq => a.msb
      | none => false
    if less != max then a else b

/-! ## Long-latency functions (10: R193, R194) -/

/-- The quotient with at least 64 good bits; a lowest bit of 1 stands for what is left over, so that one rounding of the
result is the rounding of the quotient. -/
def FVal.div (x y : FVal) : FVal :=
  match x, y with
  | .nan, _ => .nan
  | _, .nan => .nan
  | .inf _, .inf _ => .nan
  | .inf a, .fin b _ _ => .inf (a != b)
  | .fin a _ _, .inf b => .fin (a != b) 0 0
  | .fin a m e, .fin b n d =>
    if n = 0 then (if m = 0 then .nan else .inf (a != b))
    else
      let sh := n.log2 + 66
      let num := m * 2 ^ sh
      .fin (a != b) (2 * (num / n) + (decide (num % n ≠ 0)).toNat) (e - d - sh - 1)

/-- The whole square root, by one bit of the root at a time from bit k - 1 down. -/
def isqrtFrom (k n r : Nat) : Nat :=
  match k with
  | 0 => r
  | k + 1 =>
    let t := r + 2 ^ k
    isqrtFrom k n (if t * t ≤ n then t else r)

/-- The whole square root. -/
def isqrt (n : Nat) : Nat := isqrtFrom (n.log2 / 2 + 1) n 0

/-- The square root, with what is left over in the lowest bit. -/
def FVal.sqrt (x : FVal) : FVal :=
  match x with
  | .nan => .nan
  | .inf neg => if neg then .nan else .inf false
  | .fin neg m e =>
    if m = 0 then .fin neg 0 0
    else if neg then .nan
    else
      let odd := (e % 2).toNat
      let n := m * 2 ^ (130 + odd)
      let r := isqrt n
      .fin false (2 * r + (decide (r * r ≠ n)).toNat) ((e - odd - 130) / 2 - 1)

/-- One over the square root, with what is left over in the lowest bit. -/
def FVal.rsqrt (x : FVal) : FVal :=
  match x with
  | .nan => .nan
  | .inf neg => if neg then .nan else .fin false 0 0
  | .fin neg m e =>
    if m = 0 then .inf neg
    else if neg then .nan
    else
      let odd := (e % 2).toNat
      let n := m * 2 ^ odd
      let k := n.log2 + 66
      let r := isqrt (2 ^ (2 * k) / n)
      .fin false (2 * r + (decide (r * r * n ≠ 2 ^ (2 * k))).toNat) (-(k : Int) - (e - odd) / 2 - 1)

/-- Fractional bits of the fixed-point series (log 10). -/
def serBits : Nat := 256

/-- The floor of pi x 2^256. -/
def piFixed : Nat := 363771576891766324280234942777729862653393377328392429958772151117938894466185

/-- The floor of ln 2 x 2^256. -/
def ln2Fixed : Nat := 80260960185991308862233904206310070533990667611589946606122867505419956976171

/-- The sum of x^k / k! from a given term up, in fixed point. -/
def expSeries (fuel x k term : Nat) : Nat :=
  match fuel with
  | 0 => 0
  | n + 1 => term + expSeries n x (k + 1) (term * x / 2 ^ serBits / k)

/-- The alternating series of sine (k = 2, first term x) or cosine (k = 1, first term 1) in fixed point. -/
def trigSeries (fuel x2 k : Nat) (term : Nat) (neg : Bool) : Int :=
  match fuel with
  | 0 => 0
  | n + 1 =>
    (if neg then -(term : Int) else term) +
      trigSeries n x2 (k + 2) (term * x2 / 2 ^ serBits / (k * (k + 1))) (!neg)

/-- The series of atanh from a given term up, in fixed point. -/
def atanhSeries (fuel z2 k term : Nat) : Nat :=
  match fuel with
  | 0 => 0
  | n + 1 => term / k + atanhSeries n z2 (k + 2) (term * z2 / 2 ^ serBits)

/-- 2^x (10: R193, R194): exact for a whole number, else the series of the fraction (log 10). -/
def FVal.exp2 (x : FVal) : FVal :=
  match x with
  | .nan => .nan
  | .inf neg => if neg then .fin false 0 0 else .inf false
  | .fin neg m e =>
    let a := signedAt neg m e (min e (-200))
    let unit : Int := 2 ^ (-(min e (-200))).toNat
    let n := a / unit
    let f := (a % unit).toNat
    if 200 < n then .fin false 1 200
    else if n < -200 then .fin false 1 (-300)
    else if f = 0 then .fin false 1 n
    else
      let x := f * 2 ^ serBits / unit.toNat * ln2Fixed / 2 ^ serBits
      .fin false (2 * expSeries 72 x 1 (2 ^ serBits) + 1) (n - serBits - 1)

/-- log2 x (10: R193, R194): exact for a power of two, else the series of atanh (log 10). -/
def FVal.log2 (x : FVal) : FVal :=
  match x with
  | .nan => .nan
  | .inf neg => if neg then .nan else .inf false
  | .fin neg m e =>
    if m = 0 then .inf true
    else if neg then .nan
    else
      let n := m.log2
      let top : Int := e + n
      if m = 2 ^ n then .ofInt top
      else
        let z := (m - 2 ^ n) * 2 ^ serBits / (m + 2 ^ n)
        let ln := 2 * atanhSeries 96 (z * z / 2 ^ serBits) 1 z
        let t := 2 * (top * 2 ^ serBits + (ln * 2 ^ serBits / ln2Fixed : Nat)) + 1
        .scaled t (-(serBits : Int) - 1)

/-- The sine (or cosine) of x, a number of quarter turns below 1 in units of 2^-30, as fixed point. -/
def quarterTrig (cos : Bool) (r : Nat) : Int :=
  let x := r * piFixed / 2 ^ 31
  let x2 := x * x / 2 ^ serBits
  if cos then trigSeries 40 x2 1 (2 ^ serBits) false else trigSeries 40 x2 2 x false

/-- The sine of an angle in turns (06: R133, R134): exact at quarter turns with +0, else the series (log 10). -/
def sinTurns (a : BitVec 32) : FVal :=
  let q := a.toNat / 2 ^ 30
  let r := a.toNat % 2 ^ 30
  if r = 0 then (match q with | 0 => .fin false 0 0 | 1 => .fin false 1 0 | 2 => .fin false 0 0 | _ => .fin true 1 0)
  else
    let v := 2 * quarterTrig (q % 2 == 1) r + 1
    .scaled (if q < 2 then v else -v) (-(serBits : Int) - 1)

/-- The cosine of an angle in turns: the sine a quarter turn on. -/
def cosTurns (a : BitVec 32) : FVal := sinTurns (a + 0x40000000#32)

/-! ## Stochastic rounding and the generator (06: R124, R125) -/

/-- The stochastic rounding of an f32 to bf16 or f16 with 16 random bits (06: R124). -/
def stochastic (f : FloatFmt) (x : BitVec 32) (g : BitVec 16) : Nat :=
  match val32 x with
  | .nan => f.nan
  | .inf neg => f.infBits neg
  | .fin neg m e =>
    if m = 0 then f.sign neg
    else
      let q := max (e + m.log2 - f.fbits) (1 - (f.bias : Int) - f.fbits)
      let k := (roundAt .rz false m e (q - 16) + g.toNat) / 2 ^ 16
      f.pack .rne neg k q

/-- RandomWord (06: R125). -/
def randomWord (seed stream : BitVec 64) (counter : BitVec 32) : BitVec 32 :=
  let z := seed + stream * 0x9E3779B97F4A7C15#64 + counter.setWidth 64 * 0xD1B54A32D192ED03#64
  let z := (z ^^^ (z >>> 30)) * 0xBF58476D1CE4E5B9#64
  let z := (z ^^^ (z >>> 27)) * 0x94D049BB133111EB#64
  let z := z ^^^ (z >>> 31)
  z.extractLsb' 32 32

/-! ## Q4 blocks (06: R117 to R120) -/

/-- The magnitudes of a sign-magnitude type in eighths: E2M1, POW2, HYB (06: R118). -/
def q4Mags (ty : Nat) : List Nat :=
  match ty with
  | 1 => [0, 4, 8, 12, 16, 24, 32, 48]
  | 2 => [0, 1, 2, 4, 8, 16, 32, 64]
  | _ => [0, 8, 16, 24, 32, 48, 64, 96]

/-- The value of a code under a scale byte (06: R118). -/
def q4Value (scale code : Nat) : FVal :=
  let ty := scale / 64 % 4
  let e := scale % 64
  if e = 63 then .nan
  else if ty = 0 then .scaled (if code < 8 then (code : Int) else code - 16) (e - 32)
  else .fin (decide (8 ≤ code)) ((q4Mags ty).getD (code % 8) 0) (e - 32 - 3)

/-- The index of |x| / scale by the table of 06: R120: the last magnitude whose lower bound holds. Bounds are midpoints
between neighbours, and an even index holds both its bounds. v is twice the value in eighths, times 2^s. -/
def q4Index (mags : List Nat) (v s : Nat) : Nat :=
  ((List.range 7).filter fun i =>
    let mid := (mags.getD i 0 + mags.getD (i + 1) 0) * 2 ^ s
    if (i + 1) % 2 = 0 then decide (mid ≤ v) else decide (mid < v)).length

/-- The code of a value under a type and an exponent below 63 (06: R119 step 3, R120). -/
def q4Code (ty e : Nat) (x : FVal) : Nat :=
  match x with
  | .nan => 0
  | .inf _ => 0
  | .fin neg m d =>
    let p : Int := d - e + 32
    if ty = 0 then
      ((max (-8) (min 7 (roundInt .rne neg m p))) % 16).toNat
    else
      -- 2 x (value in eighths) = m x 2^(p + 4)
      let s := (-(p + 4)).toNat
      let v := m * 2 ^ (p + 4).toNat
      q4Index (q4Mags ty) v s + (if neg then 8 else 0)

/-- The largest magnitude that a type reaches at scale 1 (06: R119). -/
def q4Max (ty : Nat) : Nat :=
  match ty with
  | 0 => 7 | 1 => 6 | 2 => 8 | _ => 12

/-- The larger magnitude of finite values, as a value without sign. -/
def magMax (xs : List FVal) : FVal :=
  xs.foldl (fun a x =>
    match x with
    | .nan => a
    | .inf _ => a
    | .fin _ m e => if a.cmp (.fin false m e) == some .lt then .fin false m e else a) (.fin false 0 0)

/-- The exponent of a block's scale (06: R119 steps 1 and 2). -/
def q4Exp (ty : Nat) (xs : List FVal) : Nat :=
  if xs.any fun x => (match x with | .nan => true | .inf _ => true | .fin _ _ _ => false) then 63
  else
    match (List.range 63).find? fun (e : Nat) =>
      (magMax xs).cmp (.fin false (q4Max ty) ((e : Int) - 32)) != some .gt with
    | none => 62
    | some e => e

/-- A block as codes and scale byte (06: R119). -/
def q4Block (ty : Nat) (xs : List FVal) : List Nat × Nat :=
  let e := q4Exp ty xs
  (xs.map fun x => if e = 63 then 0 else q4Code ty e x, 64 * ty + e)

/-! ## Broad Edge sums (06: R128) -/

/-- floor(log2 |t|) of a finite nonzero value. -/
def FVal.top (x : FVal) : Option Int :=
  match x with
  | .nan => none
  | .inf _ => none
  | .fin _ m e => if m = 0 then none else some (e + m.log2)

/-- floor(t / 2^L), and whether it differs from t. -/
def floorAt (x : FVal) (l : Int) : Int × Bool :=
  match x with
  | .nan => (0, false)
  | .inf _ => (0, false)
  | .fin neg m e =>
    if l ≤ e then (signedAt neg m e l, false)
    else
      let t := signedAt neg m e e
      let d : Int := 2 ^ (l - e).toNat
      (t / d, t % d != 0)

/-- One update of an f32 accumulator element by a K-group's exact products (06: R128). -/
def windowSum (c : BitVec 32) (products : List FVal) : BitVec 32 :=
  let terms := val32 c :: products
  let hasInf := fun b => terms.any (· == .inf b)
  if terms.any FVal.isNan || (hasInf true && hasInf false) then BitVec.ofNat 32 f32.nan
  else if hasInf true then BitVec.ofNat 32 (f32.infBits true)
  else if hasInf false then BitVec.ofNat 32 (f32.infBits false)
  else
    match terms.filterMap FVal.top with
    | [] =>
      let allNeg := terms.all fun t => (match t with | .fin neg _ _ => neg | .nan => false | .inf _ => false)
      BitVec.ofNat 32 (f32.sign allNeg)
    | t :: ts =>
      let l := ts.foldl max t - 95
      let fl := terms.map fun x => floorAt x l
      let sticky := fl.any Prod.snd
      let sum := 2 * (fl.map Prod.fst).foldl (· + ·) 0 + (if sticky then 1 else 0)
      if sum = 0 then 0#32 else rnd32 (.scaled sum (l - 1))

end Sys2Proof.Machine
end

