-- ==== Sys2Proof/Machine/LaneInt.lean ====
section
/-!
DEFINITION. Lane instructions on integers: add, multiply, minimum, logic, bit fields, compare, select, immediates,
64-bit pairs (09: R165 to R181).
-/

namespace Sys2Proof.Machine

/-- A lane word that writes one register in the lanes whose guard passes (09: R165): val reads the group as it stands at
issue. -/
def State.laneOp (s : State) (i : Instr) (gd : Guard) (d : BitVec 6) (val : Group → Nat → BitVec 32) : Out :=
  s.runGroup i fun is g => g.writeLanes (g.passing gd is.mask) d (val g)

/-- A lane word that writes one pair in the lanes whose guard passes (09: R181). -/
def State.laneOpW (s : State) (i : Instr) (gd : Guard) (d : BitVec 6) (val : Group → Nat → BitVec 64) : Out :=
  s.runGroup i fun is g => g.writePairs (g.passing gd is.mask) d (val g)

/-- A lane word that writes one condition register in the lanes whose guard passes (09: R166). -/
def State.laneFlags (s : State) (i : Instr) (gd : Guard) (cd : BitVec 2) (val : Group → Nat → BitVec 4) : Out :=
  s.runGroup i fun is g => g.writeConds (g.passing gd is.mask) cd (val g)

/-- The smaller as i32. -/
def minI32 (a b : BitVec 32) : BitVec 32 := if a.sle b then a else b

/-- The larger as i32. -/
def maxI32 (a b : BitVec 32) : BitVec 32 := if a.sle b then b else a

/-- The smaller as n32. -/
def minN32 (a b : BitVec 32) : BitVec 32 := if a.ule b then a else b

/-- The larger as n32. -/
def maxN32 (a b : BitVec 32) : BitVec 32 := if a.ule b then b else a

/-- The signed sum clamped to the range of i32 (09: R173). -/
def addSat (a b : BitVec 32) : BitVec 32 :=
  let t := a.toInt + b.toInt
  if t < -(2 ^ 31) then BitVec.intMin 32 else if 2 ^ 31 - 1 < t then BitVec.intMax 32 else BitVec.ofInt 32 t

/-- A shift amount: bits 7:0 (09: R174, R181). -/
def shamt (b : BitVec 32) : Nat := (b.setWidth 8).toNat

/-- A left rotation by bits 4:0 (09: R174). -/
def rol32 (a b : BitVec 32) : BitVec 32 := a.rotateLeft (b.setWidth 5).toNat

/-- The width of a bit field: bits 13:8, at most 32 (09: R175). -/
def fieldWidth (b : BitVec 32) : Nat := min (b.extractLsb' 8 6).toNat 32

/-- The position of a bit field: bits 4:0 (09: R175). -/
def fieldPos (b : BitVec 32) : Nat := (b.setWidth 5).toNat

/-- The field of A, bits above 31 reading as zero (09: R175). -/
def bfxu32 (a b : BitVec 32) : BitVec 32 := BitVec.ofNat 32 ((a.toNat >>> fieldPos b) % 2 ^ fieldWidth b)

/-- The field of A sign-extended (09: R175). -/
def bfx32 (a b : BitVec 32) : BitVec 32 :=
  let w := fieldWidth b
  let f := (a.toNat >>> fieldPos b) % 2 ^ w
  if w = 0 then 0#32 else if f < 2 ^ (w - 1) then BitVec.ofNat 32 f else BitVec.ofInt 32 (f - 2 ^ w)

/-- The low bits of A inserted into D (09: R175). -/
def bfi32 (d a b : BitVec 32) : BitVec 32 :=
  let m := BitVec.ofNat 32 ((2 ^ fieldWidth b - 1) <<< fieldPos b)
  (d &&& ~~~ m) ||| ((a <<< fieldPos b) &&& m)

/-- The number of 1 bits (09: R176). -/
def popc32 (a : BitVec 32) : BitVec 32 := BitVec.ofNat 32 ((List.range 32).filter a.getLsbD).length

/-- The number of 0 bits above the highest 1 bit, 32 for zero (09: R176). -/
def clz32 (a : BitVec 32) : BitVec 32 :=
  match (List.range 32).find? fun i => a.getLsbD (31 - i) with
  | none => 32#32
  | some i => BitVec.ofNat 32 i

/-- The number of 0 bits below the lowest 1 bit, 32 for zero (09: R176). -/
def ctz32 (a : BitVec 32) : BitVec 32 :=
  match (List.range 32).find? a.getLsbD with
  | none => 32#32
  | some i => BitVec.ofNat 32 i

/-- Bit i of the result is bit 31 - i (09: R176). -/
def brev32 (a : BitVec 32) : BitVec 32 := a.reverse

/-- The quotient of R171: all ones for a zero divisor, and the most negative number over -1 wraps. -/
def quotI32 (a b : BitVec 32) : BitVec 32 :=
  if b = 0#32 then BitVec.allOnes 32 else BitVec.ofInt 32 (a.toInt.tdiv b.toInt)

/-- The remainder of R171, with the sign of A or zero. -/
def remI32 (a b : BitVec 32) : BitVec 32 :=
  if b = 0#32 then a else BitVec.ofInt 32 (a.toInt.tmod b.toInt)

/-- The unsigned quotient of R171. -/
def quotN32 (a b : BitVec 32) : BitVec 32 :=
  if b = 0#32 then BitVec.allOnes 32 else BitVec.ofNat 32 (a.toNat / b.toNat)

/-- The unsigned remainder of R171. -/
def remN32 (a b : BitVec 32) : BitVec 32 :=
  if b = 0#32 then a else BitVec.ofNat 32 (a.toNat % b.toNat)

/-- A long-latency lane word (07: R145): every lane of the set; the result is computed at issue from the sources of that
moment and waits in the landing lines. When no landing line is free the word does not issue (02: R56). -/
def State.longOp (s : State) (i : Instr) (d : BitVec 6) (width : Nat) (la : BitVec 4)
    (val : Group → Nat → Nat → BitVec 32) : Out :=
  s.runWord i fun is g s =>
    match g.eff d with
    | none => .next (s.setGroup is.grp (g.advance is))
    | some n =>
      match g.openPend false n width is.mask is.mask la with
      | none => .next s
      | some (slot, g') =>
        let g' := (lanesOf is.mask).foldl (fun h l =>
          (List.range width).foldl (fun h j => h.setLanding slot j l (val g l j)) h) g'
        .next (s.setGroup is.grp ((g'.markLanded slot).advance is))

/-- D := A + B (09: R168). -/
def execIadd (gd : Guard) (d a b : BitVec 6) (s : State) : Out :=
  s.laneOp (.iadd gd d a b) gd d fun g l => g.rv a l + g.rv b l

/-- D := A + sext(i6) (09: R168). -/
def execIaddi (gd : Guard) (d a imm : BitVec 6) (s : State) : Out :=
  s.laneOp (.iaddi gd d a imm) gd d fun g l => g.rv a l + imm.signExtend 32

/-- D := A - B (09: R168). -/
def execIsub (gd : Guard) (d a b : BitVec 6) (s : State) : Out :=
  s.laneOp (.isub gd d a b) gd d fun g l => g.rv a l - g.rv b l

/-- Add or subtract with the carry of the guard's condition register, which also receives the flags (09: R169). -/
def execIadc (gd : Guard) (d a b : BitVec 6) (s : State) : Out :=
  s.runGroup (.iadc gd d a b) fun is g =>
    let r := fun l => adcFlags (g.rv a l) (g.rv b l) (flagC (cregGet (g.cond l) gd.creg))
    let m := g.passing gd is.mask
    (g.writeLanes m d fun l => (r l).1).writeConds m gd.creg fun l => (r l).2

/-- Add or subtract with the carry of the guard's condition register, which also receives the flags (09: R169). -/
def execIsbb (gd : Guard) (d a b : BitVec 6) (s : State) : Out :=
  s.runGroup (.isbb gd d a b) fun is g =>
    let r := fun l => sbbFlags (g.rv a l) (g.rv b l) (flagC (cregGet (g.cond l) gd.creg))
    let m := g.passing gd is.mask
    (g.writeLanes m d fun l => (r l).1).writeConds m gd.creg fun l => (r l).2

/-- The low half of the product (09: R170). -/
def execImul (gd : Guard) (d a b : BitVec 6) (s : State) : Out :=
  s.laneOp (.imul gd d a b) gd d fun g l => g.rv a l * g.rv b l

/-- The high half of the signed product (09: R170). -/
def execImulh (gd : Guard) (d a b : BitVec 6) (s : State) : Out :=
  s.laneOp (.imulh gd d a b) gd d fun g l => BitVec.ofInt 32 ((g.rv a l).toInt * (g.rv b l).toInt / 2 ^ 32)

/-- The high half of the unsigned product (09: R170). -/
def execImulhu (gd : Guard) (d a b : BitVec 6) (s : State) : Out :=
  s.laneOp (.imulhu gd d a b) gd d fun g l => BitVec.ofNat 32 ((g.rv a l).toNat * (g.rv b l).toNat / 2 ^ 32)

/-- D := A x B + D (09: R170). -/
def execImad (gd : Guard) (d a b : BitVec 6) (s : State) : Out :=
  s.laneOp (.imad gd d a b) gd d fun g l => g.rv a l * g.rv b l + g.rv d l

/-- Minimum or maximum (09: R172). -/
def execImin (gd : Guard) (d a b : BitVec 6) (s : State) : Out :=
  s.laneOp (.imin gd d a b) gd d fun g l => minI32 (g.rv a l) (g.rv b l)

/-- Minimum or maximum (09: R172). -/
def execImax (gd : Guard) (d a b : BitVec 6) (s : State) : Out :=
  s.laneOp (.imax gd d a b) gd d fun g l => maxI32 (g.rv a l) (g.rv b l)

/-- Minimum or maximum (09: R172). -/
def execIminu (gd : Guard) (d a b : BitVec 6) (s : State) : Out :=
  s.laneOp (.iminu gd d a b) gd d fun g l => minN32 (g.rv a l) (g.rv b l)

/-- Minimum or maximum (09: R172). -/
def execImaxu (gd : Guard) (d a b : BitVec 6) (s : State) : Out :=
  s.laneOp (.imaxu gd d a b) gd d fun g l => maxN32 (g.rv a l) (g.rv b l)

/-- The absolute value modulo 2^32 (09: R172). -/
def execIabs (gd : Guard) (d a : BitVec 6) (s : State) : Out :=
  s.laneOp (.iabs gd d a) gd d fun g l => if (g.rv a l).msb then 0#32 - g.rv a l else g.rv a l

/-- D := 0 - A (09: R172). -/
def execIneg (gd : Guard) (d a : BitVec 6) (s : State) : Out :=
  s.laneOp (.ineg gd d a) gd d fun g l => 0#32 - g.rv a l

/-- The smaller of D and the saturated sum (09: R173). -/
def execIaddmin (gd : Guard) (d a b : BitVec 6) (s : State) : Out :=
  s.laneOp (.iaddmin gd d a b) gd d fun g l => minI32 (g.rv d l) (addSat (g.rv a l) (g.rv b l))

/-- The larger of D and the saturated sum (09: R173). -/
def execIaddmax (gd : Guard) (d a b : BitVec 6) (s : State) : Out :=
  s.laneOp (.iaddmax gd d a b) gd d fun g l => maxI32 (g.rv d l) (addSat (g.rv a l) (g.rv b l))

/-- D := A AND B (09: R174). -/
def execAndL (gd : Guard) (d a b : BitVec 6) (s : State) : Out :=
  s.laneOp (.andL gd d a b) gd d fun g l => g.rv a l &&& g.rv b l

/-- D := A OR B (09: R174). -/
def execOrL (gd : Guard) (d a b : BitVec 6) (s : State) : Out :=
  s.laneOp (.orL gd d a b) gd d fun g l => g.rv a l ||| g.rv b l

/-- D := A XOR B (09: R174). -/
def execXorL (gd : Guard) (d a b : BitVec 6) (s : State) : Out :=
  s.laneOp (.xorL gd d a b) gd d fun g l => g.rv a l ^^^ g.rv b l

/-- D := A AND NOT B (09: R174). -/
def execAndn (gd : Guard) (d a b : BitVec 6) (s : State) : Out :=
  s.laneOp (.andn gd d a b) gd d fun g l => g.rv a l &&& ~~~ (g.rv b l)

/-- Left shift by B[7:0] (09: R174). -/
def execShl (gd : Guard) (d a b : BitVec 6) (s : State) : Out :=
  s.laneOp (.shl gd d a b) gd d fun g l => (g.rv a l) <<< shamt (g.rv b l)

/-- Right shift with zero fill (09: R174). -/
def execShr (gd : Guard) (d a b : BitVec 6) (s : State) : Out :=
  s.laneOp (.shr gd d a b) gd d fun g l => (g.rv a l) >>> shamt (g.rv b l)

/-- Right shift with sign fill (09: R174). -/
def execSar (gd : Guard) (d a b : BitVec 6) (s : State) : Out :=
  s.laneOp (.sar gd d a b) gd d fun g l => (g.rv a l).sshiftRight (shamt (g.rv b l))

/-- Left rotation (09: R174). -/
def execRol (gd : Guard) (d a b : BitVec 6) (s : State) : Out :=
  s.laneOp (.rol gd d a b) gd d fun g l => rol32 (g.rv a l) (g.rv b l)

/-- Signed bit field (09: R175). -/
def execBfx (gd : Guard) (d a b : BitVec 6) (s : State) : Out :=
  s.laneOp (.bfx gd d a b) gd d fun g l => bfx32 (g.rv a l) (g.rv b l)

/-- Unsigned bit field (09: R175). -/
def execBfxu (gd : Guard) (d a b : BitVec 6) (s : State) : Out :=
  s.laneOp (.bfxu gd d a b) gd d fun g l => bfxu32 (g.rv a l) (g.rv b l)

/-- Bit-field insert (09: R175). -/
def execBfi (gd : Guard) (d a b : BitVec 6) (s : State) : Out :=
  s.laneOp (.bfi gd d a b) gd d fun g l => bfi32 (g.rv d l) (g.rv a l) (g.rv b l)

/-- Number of 1 bits (09: R176). -/
def execPopc (gd : Guard) (d a : BitVec 6) (s : State) : Out :=
  s.laneOp (.popc gd d a) gd d fun g l => popc32 (g.rv a l)

/-- Leading zeros (09: R176). -/
def execClz (gd : Guard) (d a : BitVec 6) (s : State) : Out :=
  s.laneOp (.clz gd d a) gd d fun g l => clz32 (g.rv a l)

/-- Trailing zeros (09: R176). -/
def execCtz (gd : Guard) (d a : BitVec 6) (s : State) : Out :=
  s.laneOp (.ctz gd d a) gd d fun g l => ctz32 (g.rv a l)

/-- Bit reversal (09: R176). -/
def execBrev (gd : Guard) (d a : BitVec 6) (s : State) : Out :=
  s.laneOp (.brev gd d a) gd d fun g l => brev32 (g.rv a l)

/-- Writes the flags of A - B, or A AND B, single or pair (09: R177). -/
def execIcmp (gd : Guard) (cd : BitVec 2) (wide : Bool) (a b : BitVec 6) (s : State) : Out :=
  s.laneFlags (.icmp gd cd wide a b) gd cd fun g l =>
    if wide then cmpFlags (g.rw a l) (g.rw b l) else cmpFlags (g.rv a l) (g.rv b l)

/-- Writes the flags of A - B, or A AND B, single or pair (09: R177). -/
def execItst (gd : Guard) (cd : BitVec 2) (wide : Bool) (a b : BitVec 6) (s : State) : Out :=
  s.laneFlags (.itst gd cd wide a b) gd cd fun g l =>
    if wide then testFlags (g.rw a l) (g.rw b l) else testFlags (g.rv a l) (g.rv b l)

/-- The flags of cK := the flags of cJ (09: R178). -/
def execCmov (gd : Guard) (cd cj : BitVec 2) (s : State) : Out :=
  s.laneFlags (.cmov gd cd cj) gd cd fun g l => cregGet (g.cond l) cj

/-- The flags of cK := A[3:0] (09: R178). -/
def execCmovV (gd : Guard) (cd : BitVec 2) (a : BitVec 6) (s : State) : Out :=
  s.laneFlags (.cmovV gd cd a) gd cd fun g l => (g.rv a l).setWidth 4

/-- The flags of cK := imm (09: R178). -/
def execCmovI (gd : Guard) (cd : BitVec 2) (imm : BitVec 4) (s : State) : Out :=
  s.laneFlags (.cmovI gd cd imm) gd cd fun _ _ => imm

/-- A := the packed flags (09: R178). -/
def execCmovR (gd : Guard) (a : BitVec 6) (s : State) : Out :=
  s.laneOp (.cmovR gd a) gd a fun g l => (g.cond l).setWidth 32

/-- Every lane of the set takes A where the condition holds, else B (09: R179). -/
def execSel (c : Guard) (d a b : BitVec 6) (s : State) : Out :=
  s.runGroup (.sel c d a b) fun is g =>
    g.writeLanes is.mask d fun l => if g.guard c l then g.rv a l else g.rv b l

/-- D := sext(i12) (09: R180). -/
def execMovi (gd : Guard) (d : BitVec 6) (imm : BitVec 12) (s : State) : Out :=
  s.laneOp (.movi gd d imm) gd d fun _ _ => imm.signExtend 32

/-- D := (D << 12) OR zext(i12) (09: R180). -/
def execMovhi (gd : Guard) (d : BitVec 6) (imm : BitVec 12) (s : State) : Out :=
  s.laneOp (.movhi gd d imm) gd d fun g l => (g.rv d l <<< 12) ||| imm.setWidth 32

/-- 64-bit sum (09: R181). -/
def execAddw (gd : Guard) (d a b : BitVec 6) (s : State) : Out :=
  s.laneOpW (.addw gd d a b) gd d fun g l => g.rw a l + g.rw b l

/-- 64-bit difference (09: R181). -/
def execSubw (gd : Guard) (d a b : BitVec 6) (s : State) : Out :=
  s.laneOpW (.subw gd d a b) gd d fun g l => g.rw a l - g.rw b l

/-- 64-bit left shift (09: R181). -/
def execShlw (gd : Guard) (d a b : BitVec 6) (s : State) : Out :=
  s.laneOpW (.shlw gd d a b) gd d fun g l => (g.rw a l) <<< shamt (g.rv b l)

/-- 64-bit right shift with zero fill (09: R181). -/
def execShrw (gd : Guard) (d a b : BitVec 6) (s : State) : Out :=
  s.laneOpW (.shrw gd d a b) gd d fun g l => (g.rw a l) >>> shamt (g.rv b l)

/-- 64-bit right shift with sign fill (09: R181). -/
def execSarw (gd : Guard) (d a b : BitVec 6) (s : State) : Out :=
  s.laneOpW (.sarw gd d a b) gd d fun g l => (g.rw a l).sshiftRight (shamt (g.rv b l))

/-- 64-bit product (09: R181). -/
def execMulw (gd : Guard) (d a b : BitVec 6) (s : State) : Out :=
  s.laneOpW (.mulw gd d a b) gd d fun g l => g.rw a l * g.rw b l

/-- Quotient or remainder in every lane of the set (09: R171). -/
def execIdivI32 (d a b : BitVec 6) (la : BitVec 4) (s : State) : Out :=
  s.longOp (.idivI32 d a b la) d 1 la fun g l _ => quotI32 (g.rv a l) (g.rv b l)

/-- Quotient or remainder in every lane of the set (09: R171). -/
def execIdivN32 (d a b : BitVec 6) (la : BitVec 4) (s : State) : Out :=
  s.longOp (.idivN32 d a b la) d 1 la fun g l _ => quotN32 (g.rv a l) (g.rv b l)

/-- Quotient or remainder in every lane of the set (09: R171). -/
def execIremI32 (d a b : BitVec 6) (la : BitVec 4) (s : State) : Out :=
  s.longOp (.iremI32 d a b la) d 1 la fun g l _ => remI32 (g.rv a l) (g.rv b l)

/-- Quotient or remainder in every lane of the set (09: R171). -/
def execIremN32 (d a b : BitVec 6) (la : BitVec 4) (s : State) : Out :=
  s.longOp (.iremN32 d a b la) d 1 la fun g l _ => remN32 (g.rv a l) (g.rv b l)

end Sys2Proof.Machine
end

