-- ==== Sys2Proof/Machine/LaneFloat.lean ====
section
/-!
DEFINITION. Lane instructions on floating-point values: arithmetic, compare, packed 16-bit forms, long-latency
functions, conversion, stochastic conversion and the generator (10: R187 to R200).
-/

namespace Sys2Proof.Machine

/-- The f32 result of an exact value computed in each lane. -/
def State.floatOp (s : State) (i : Instr) (gd : Guard) (d : BitVec 6) (val : Group → Nat → FVal) : Out :=
  s.laneOp i gd d fun g l => rnd32 (val g l)

/-- The f64 result of an exact value computed in each lane. -/
def State.doubleOp (s : State) (i : Instr) (gd : Guard) (d : BitVec 6) (val : Group → Nat → FVal) : Out :=
  s.laneOpW i gd d fun g l => rnd64 (val g l)

/-- The f32 value of a field in lane l. -/
def Group.fv (g : Group) (f : BitVec 6) (l : Nat) : FVal := val32 (g.rv f l)

/-- The f64 value of a pair field in lane l. -/
def Group.dv (g : Group) (f : BitVec 6) (l : Nat) : FVal := val64 (g.rw f l)

/-- Both 16-bit elements of a register computed on their own: e is 0 for the low and 16 for the high element (10: R192). -/
def packHalves (f : Nat → Nat) : BitVec 32 := BitVec.ofNat 16 (f 16) ++ BitVec.ofNat 16 (f 0)

/-- The value of the 16-bit element at bit e. -/
def FloatFmt.half (f : FloatFmt) (e : Nat) (x : BitVec 32) : FVal := f.decode (x.extractLsb' e 16).toNat

/-- D := A + B (10: R188). -/
def execFadd (gd : Guard) (d a b : BitVec 6) (s : State) : Out :=
  s.floatOp (.fadd gd d a b) gd d fun g l => (g.fv a l).add (g.fv b l)

/-- D := A - B (10: R188). -/
def execFsub (gd : Guard) (d a b : BitVec 6) (s : State) : Out :=
  s.floatOp (.fsub gd d a b) gd d fun g l => (g.fv a l).add (g.fv b l).neg

/-- D := A x B (10: R188). -/
def execFmul (gd : Guard) (d a b : BitVec 6) (s : State) : Out :=
  s.floatOp (.fmul gd d a b) gd d fun g l => (g.fv a l).mul (g.fv b l)

/-- D := A x B + D, rounded once (10: R188). -/
def execFfma (gd : Guard) (d a b : BitVec 6) (s : State) : Out :=
  s.floatOp (.ffma gd d a b) gd d fun g l => ((g.fv a l).mul (g.fv b l)).add (g.fv d l)

/-- The smaller operand (10: R188). -/
def execFmin (gd : Guard) (d a b : BitVec 6) (s : State) : Out :=
  s.laneOp (.fmin gd d a b) gd d fun g l => fminmax false (g.rv a l) (g.rv b l)

/-- The larger operand (10: R188). -/
def execFmax (gd : Guard) (d a b : BitVec 6) (s : State) : Out :=
  s.laneOp (.fmax gd d a b) gd d fun g l => fminmax true (g.rv a l) (g.rv b l)

/-- The smaller of D and the rounded sum (10: R189). -/
def execFaddmin (gd : Guard) (d a b : BitVec 6) (s : State) : Out :=
  s.laneOp (.faddmin gd d a b) gd d fun g l => fminmax false (g.rv d l) (rnd32 ((g.fv a l).add (g.fv b l)))

/-- The flags of the relation of A to B (10: R190). -/
def execFcmp (gd : Guard) (cd : BitVec 2) (a b : BitVec 6) (s : State) : Out :=
  s.laneFlags (.fcmp gd cd a b) gd cd fun g l => fcmpFlags ((g.fv a l).cmp (g.fv b l))

/-- The flags of the relation of the pairs A and B (10: R190). -/
def execDcmp (gd : Guard) (cd : BitVec 2) (a b : BitVec 6) (s : State) : Out :=
  s.laneFlags (.dcmp gd cd a b) gd cd fun g l => fcmpFlags ((g.dv a l).cmp (g.dv b l))

/-- D := A + B on pairs (10: R191). -/
def execDadd (gd : Guard) (d a b : BitVec 6) (s : State) : Out :=
  s.doubleOp (.dadd gd d a b) gd d fun g l => (g.dv a l).add (g.dv b l)

/-- D := A x B on pairs (10: R191). -/
def execDmul (gd : Guard) (d a b : BitVec 6) (s : State) : Out :=
  s.doubleOp (.dmul gd d a b) gd d fun g l => (g.dv a l).mul (g.dv b l)

/-- D := A x B + D on pairs, rounded once (10: R191). -/
def execDfma (gd : Guard) (d a b : BitVec 6) (s : State) : Out :=
  s.doubleOp (.dfma gd d a b) gd d fun g l => ((g.dv a l).mul (g.dv b l)).add (g.dv d l)

/-- Element sums in a 16-bit format (10: R192). -/
def packedAdd (f : FloatFmt) (a b : BitVec 32) : BitVec 32 :=
  packHalves fun e => f.round .rne ((f.half e a).add (f.half e b))

/-- Element multiply-adds in a 16-bit format (10: R192). -/
def packedFma (f : FloatFmt) (d a b : BitVec 32) : BitVec 32 :=
  packHalves fun e => f.round .rne (((f.half e a).mul (f.half e b)).add (f.half e d))

/-- bf16 element sums (10: R192). -/
def execBadd (gd : Guard) (d a b : BitVec 6) (s : State) : Out :=
  s.laneOp (.badd gd d a b) gd d fun g l => packedAdd bf16 (g.rv a l) (g.rv b l)

/-- bf16 element multiply-adds (10: R192). -/
def execBfma (gd : Guard) (d a b : BitVec 6) (s : State) : Out :=
  s.laneOp (.bfma gd d a b) gd d fun g l => packedFma bf16 (g.rv d l) (g.rv a l) (g.rv b l)

/-- f16 element sums (10: R192). -/
def execHadd (gd : Guard) (d a b : BitVec 6) (s : State) : Out :=
  s.laneOp (.hadd gd d a b) gd d fun g l => packedAdd f16 (g.rv a l) (g.rv b l)

/-- f16 element multiply-adds (10: R192). -/
def execHfma (gd : Guard) (d a b : BitVec 6) (s : State) : Out :=
  s.laneOp (.hfma gd d a b) gd d fun g l => packedFma f16 (g.rv d l) (g.rv a l) (g.rv b l)

/-- A long-latency word with an f32 result (10: R193). -/
def State.longFloat (s : State) (i : Instr) (d : BitVec 6) (la : BitVec 4) (val : Group → Nat → FVal) : Out :=
  s.longOp i d 1 la fun g l _ => rnd32 (val g l)

/-- A long-latency word with an f64 result: word 0 is the low half (10: R193). -/
def State.longDouble (s : State) (i : Instr) (d : BitVec 6) (la : BitVec 4) (val : Group → Nat → FVal) : Out :=
  s.longOp i d 2 la fun g l j => (rnd64 (val g l)).extractLsb' (32 * j) 32

/-- A / B (10: R193, R194). -/
def execFdiv (d a b : BitVec 6) (la : BitVec 4) (s : State) : Out :=
  s.longFloat (.fdiv d a b la) d la fun g l => (g.fv a l).div (g.fv b l)

/-- The square root of A (10: R193, R194). -/
def execFsqrt (d a : BitVec 6) (la : BitVec 4) (s : State) : Out :=
  s.longFloat (.fsqrt d a la) d la fun g l => (g.fv a l).sqrt

/-- 1 / A (10: R193, R194). -/
def execFrcp (d a : BitVec 6) (la : BitVec 4) (s : State) : Out :=
  s.longFloat (.frcp d a la) d la fun g l => (FVal.fin false 1 0).div (g.fv a l)

/-- 1 over the square root of A (10: R193, R194). -/
def execFrsq (d a : BitVec 6) (la : BitVec 4) (s : State) : Out :=
  s.longFloat (.frsq d a la) d la fun g l => (g.fv a l).rsqrt

/-- 2^A (10: R193, R194). -/
def execFexp2 (d a : BitVec 6) (la : BitVec 4) (s : State) : Out :=
  s.longFloat (.fexp2 d a la) d la fun g l => (g.fv a l).exp2

/-- log2 A (10: R193, R194). -/
def execFlog2 (d a : BitVec 6) (la : BitVec 4) (s : State) : Out :=
  s.longFloat (.flog2 d a la) d la fun g l => (g.fv a l).log2

/-- The sine of A in turns (10: R195). -/
def execFsin (d a : BitVec 6) (la : BitVec 4) (s : State) : Out :=
  s.longFloat (.fsin d a la) d la fun g l => sinTurns (g.rv a l)

/-- The cosine of A in turns (10: R195). -/
def execFcos (d a : BitVec 6) (la : BitVec 4) (s : State) : Out :=
  s.longFloat (.fcos d a la) d la fun g l => cosTurns (g.rv a l)

/-- A / B on pairs (10: R193, R194). -/
def execDdiv (d a b : BitVec 6) (la : BitVec 4) (s : State) : Out :=
  s.longDouble (.ddiv d a b la) d la fun g l => (g.dv a l).div (g.dv b l)

/-- The square root of the pair A (10: R193, R194). -/
def execDsqrt (d a : BitVec 6) (la : BitVec 4) (s : State) : Out :=
  s.longDouble (.dsqrt d a la) d la fun g l => (g.dv a l).sqrt

/-! ## Conversion -/

/-- The floating format of a format code, none for i32 and n32 (10: R196). -/
def cvtFloat (f : CvtFmt) : Option FloatFmt :=
  match f with
  | .f32 => some f32
  | .f64 => some f64
  | .f16 => some f16
  | .bf16 => some bf16
  | .e4m3 => some e4m3
  | .e5m2 => some e5m2
  | .i32 => none
  | .n32 => none

/-- The exact value of a source operand (10: R196). -/
def cvtSource (f : CvtFmt) (x : BitVec 64) : FVal :=
  match cvtFloat f with
  | some ff => ff.decode x.toNat
  | none => if f == .i32 then .ofInt (x.setWidth 32).toInt else .ofInt (x.setWidth 32).toNat

/-- A value rounded to an integer in the same format, zero with the sign of the value (10: R197). -/
def FloatFmt.integral (f : FloatFmt) (mode : RMode) (x : FVal) : Nat :=
  match x with
  | .nan => f.nan
  | .inf neg => f.infBits neg
  | .fin neg m e => f.round .rne (.fin neg (roundAt mode neg m e 0) 0)

/-- The result of a conversion, in the low bits (10: R197). -/
def cvtValue (mode : RMode) (dst src : CvtFmt) (x : BitVec 64) : BitVec 64 :=
  match cvtFloat dst with
  | some f =>
    if dst = src then BitVec.ofNat 64 (f.integral mode (cvtSource src x))
    else BitVec.ofNat 64 (f.round mode (cvtSource src x))
  | none =>
    if dst == .i32 then (BitVec.ofInt 32 (roundToInt mode (-(2 ^ 31)) (2 ^ 31 - 1) (cvtSource src x))).setWidth 64
    else (BitVec.ofInt 32 (roundToInt mode 0 (2 ^ 32 - 1) (cvtSource src x))).setWidth 64

/-- A conversion in every lane whose guard passes (10: R197). -/
def State.convert (s : State) (i : Instr) (gd : Guard) (d a : BitVec 6) (mode : RMode) (dst src : CvtFmt) : Out :=
  s.runGroup i fun is g =>
    let m := g.passing gd is.mask
    let x := fun l => if src == .f64 then g.rw a l else (g.rv a l).setWidth 64
    if dst == .f64 then g.writePairs m d fun l => cvtValue mode dst src (x l)
    else g.writeLanes m d fun l => (cvtValue mode dst src (x l)).setWidth 32

/-- cvt.rne (10: R197). -/
def execCvtRne (gd : Guard) (d a : BitVec 6) (dst src : CvtFmt) (s : State) : Out :=
  s.convert (.cvtRne gd d a dst src) gd d a .rne dst src

/-- cvt.rz (10: R197). -/
def execCvtRz (gd : Guard) (d a : BitVec 6) (dst src : CvtFmt) (s : State) : Out :=
  s.convert (.cvtRz gd d a dst src) gd d a .rz dst src

/-- cvt.ru (10: R197). -/
def execCvtRu (gd : Guard) (d a : BitVec 6) (dst src : CvtFmt) (s : State) : Out :=
  s.convert (.cvtRu gd d a dst src) gd d a .ru dst src

/-- cvt.rd (10: R197). -/
def execCvtRd (gd : Guard) (d a : BitVec 6) (dst src : CvtFmt) (s : State) : Out :=
  s.convert (.cvtRd gd d a dst src) gd d a .rd dst src

/-- A Q4 code in bits 3:0 under the scale byte in bits 15:8, as f32 (10: R198). -/
def q4Decode (a : BitVec 32) : BitVec 32 :=
  rnd32 (q4Value (a.extractLsb' 8 8).toNat (a.setWidth 4).toNat)

/-- The Q4 code of A under the scale byte of D, placed in D (10: R198). -/
def q4Encode (d a : BitVec 32) : BitVec 32 :=
  let scale := (d.extractLsb' 8 8).toNat
  let code := if scale % 64 = 63 then 0 else q4Code (scale / 64) (scale % 64) (val32 a)
  (d &&& 0xFFFFFF00#32) ||| BitVec.ofNat 32 code

/-- Decodes a Q4 element (10: R198). -/
def execCvtRneF32Q4 (gd : Guard) (d a : BitVec 6) (s : State) : Out :=
  s.laneOp (.cvtRneF32Q4 gd d a) gd d fun g l => q4Decode (g.rv a l)

/-- Encodes a Q4 element under the scale byte of D (10: R198). -/
def execCvtRneQ4F32 (gd : Guard) (d a : BitVec 6) (s : State) : Out :=
  s.laneOp (.cvtRneQ4F32 gd d a) gd d fun g l => q4Encode (g.rv d l) (g.rv a l)

/-! ## Stochastic conversion and the generator -/

/-- RandomWord of a counter in lane l (06: R125). -/
def State.random (s : State) (g : Group) (l : Nat) (counter : BitVec 32) : BitVec 32 :=
  randomWord (s.seedOf g) (BitVec.ofNat 64 ((s.workgroupId g * 16 + g.id.grpid) * 32 + l)) counter

/-- The result of cvtsr in lane l: the random word is w (10: R199). -/
def cvtsrValue (form : CvtsrForm) (x : BitVec 64) (w : BitVec 32) : BitVec 32 :=
  match form with
  | .bf16 => BitVec.ofNat 32 (stochastic bf16 (x.setWidth 32) (w.setWidth 16))
  | .f16 => BitVec.ofNat 32 (stochastic f16 (x.setWidth 32) (w.setWidth 16))
  | .bf16x2 => packHalves fun e => stochastic bf16 (x.extractLsb' (2 * e) 32) (w.extractLsb' e 16)
  | .f16x2 => packHalves fun e => stochastic f16 (x.extractLsb' (2 * e) 32) (w.extractLsb' e 16)

/-- Stochastic rounding in every lane of the set (10: R199). -/
def execCvtsr (form : CvtsrForm) (d a b : BitVec 6) (s : State) : Out :=
  s.runGroup (.cvtsr form d a b) fun is g =>
    g.writeLanes is.mask d fun l =>
      cvtsrValue form (if form.width = 2 then g.rw a l else (g.rv a l).setWidth 64) (s.random g l (g.rv b l))

/-- D := RandomWord(A) (10: R200). -/
def execRng (gd : Guard) (d a : BitVec 6) (s : State) : Out :=
  s.laneOp (.rng gd d a) gd d fun g l => s.random g l (g.rv a l)

end Sys2Proof.Machine
end

