-- ==== Sys2Proof/Machine/Crossbar.lean ====
section
/-!
DEFINITION. The lane crossbar (10: R201 to R204): moves, scans and the weighted choice among the lanes of an issue set.
-/

namespace Sys2Proof.Machine

/-- What source lane l supplies: its register inside the issuing set, zero outside (10: R201). -/
def Group.source (g : Group) (set : BitVec 32) (a : BitVec 6) (l : Nat) : BitVec 32 :=
  if has set l then g.rv a l else 0#32

/-- A move through the crossbar: from g l is the source position of lane l; a position outside 0 to 31 leaves D (10:
R202). -/
def State.crossbar (s : State) (i : Instr) (gd : Guard) (d a : BitVec 6) (src : Group → Nat → Int) : Out :=
  s.runGroup i fun is g =>
    let m := maskOf fun l => has (g.passing gd is.mask) l && decide (0 ≤ src g l) && decide (src g l < 32)
    g.writeLanes m d fun l => g.source is.mask a (src g l).toNat

/-- Lane B[4:0] (10: R202). -/
def execShfl (gd : Guard) (d a b : BitVec 6) (s : State) : Out :=
  s.crossbar (.shfl gd d a b) gd d a fun g l => ((g.rv b l).setWidth 5).toNat

/-- Lane L XOR k (10: R202). -/
def execShflI (gd : Guard) (d a : BitVec 6) (k : BitVec 5) (s : State) : Out :=
  s.crossbar (.shflI gd d a k) gd d a fun _ l => (BitVec.ofNat 5 l ^^^ k).toNat

/-- Lane L - n for n := sb as i64 (10: R202). -/
def execLsh (gd : Guard) (d a b : BitVec 6) (s : State) : Out :=
  s.crossbar (.lsh gd d a b) gd d a fun g l => (l : Int) - (g.rs b).toInt

/-- Lane L - k (10: R202). -/
def execLshI (gd : Guard) (d a : BitVec 6) (k : BitVec 5) (s : State) : Out :=
  s.crossbar (.lshI gd d a k) gd d a fun _ l => (l : Int) - k.toNat

/-- Lane (L - sb[4:0]) mod 32 (10: R202). -/
def execLrot (gd : Guard) (d a b : BitVec 6) (s : State) : Out :=
  s.crossbar (.lrot gd d a b) gd d a fun g l => (BitVec.ofNat 5 l - (g.rs b).setWidth 5).toNat

/-- Lane (L - k) mod 32 (10: R202). -/
def execLrotI (gd : Guard) (d a : BitVec 6) (k : BitVec 5) (s : State) : Out :=
  s.crossbar (.lrotI gd d a k) gd d a fun _ l => (BitVec.ofNat 5 l - k).toNat

/-- Lane sb[4:0] (10: R202). -/
def execBcast (gd : Guard) (d a b : BitVec 6) (s : State) : Out :=
  s.crossbar (.bcast gd d a b) gd d a fun g _ => ((g.rs b).setWidth 5).toNat

/-- Lane k (10: R202). -/
def execBcastI (gd : Guard) (d a : BitVec 6) (k : BitVec 5) (s : State) : Out :=
  s.crossbar (.bcastI gd d a k) gd d a fun _ _ => k.toNat

/-- The identity that a scan starts from (10: R203). -/
def scanStart (op : ScanOp) : BitVec 32 :=
  match op with
  | .iadd => 0#32
  | .iaddX => 0#32
  | .fadd => 0x80000000#32
  | .faddX => 0x80000000#32
  | .imin => 0x7FFFFFFF#32
  | .imax => 0x80000000#32

/-- The step of a scan (10: R203). -/
def scanStep (op : ScanOp) (p a : BitVec 32) : BitVec 32 :=
  match op with
  | .iadd => p + a
  | .iaddX => p + a
  | .fadd => rnd32 ((val32 p).add (val32 a))
  | .faddX => rnd32 ((val32 p).add (val32 a))
  | .imin => minI32 p a
  | .imax => maxI32 p a

/-- The prefixes of a scan: for each participant its lane, p before its step and p after it (10: R203). -/
def prefixes (step : BitVec 32 → BitVec 32 → BitVec 32) (p : BitVec 32) (ls : List (Nat × BitVec 32)) :
    List (Nat × BitVec 32 × BitVec 32) :=
  match ls with
  | [] => []
  | (l, a) :: r => (l, p, step p a) :: prefixes step (step p a) r

/-- What a scan writes, by lane; the floating exclusive output of the first participant is +0 (10: R203). -/
def scanOut (op : ScanOp) (ls : List (Nat × BitVec 32)) : Table (BitVec 32) :=
  let ps := prefixes (scanStep op) (scanStart op) ls
  match op with
  | .iaddX => ps.map fun e => (e.1, e.2.1)
  | .faddX =>
    match ps with
    | [] => []
    | e :: r => (e.1, 0#32) :: r.map fun x => (x.1, x.2.1)
  | .iadd => ps.map fun e => (e.1, e.2.2)
  | .fadd => ps.map fun e => (e.1, e.2.2)
  | .imin => ps.map fun e => (e.1, e.2.2)
  | .imax => ps.map fun e => (e.1, e.2.2)

/-- Prefix operations over the passing lanes in ascending order (10: R203). -/
def execScan (gd : Guard) (d a : BitVec 6) (op : ScanOp) (s : State) : Out :=
  s.runGroup (.scan gd d a op) fun is g =>
    let m := g.passing gd is.mask
    let out := scanOut op ((lanesOf m).map fun l => (l, g.rv a l))
    g.writeLanes m d fun l => Table.getD out l 0#32

/-- Whether an f32 is a NaN or below zero. -/
def nanOrNegative (x : BitVec 32) : Bool := (val32 x).isNan || (val32 x).negative

/-- Whether an f32 is above another. -/
def above32 (x y : BitVec 32) : Bool := (val32 x).cmp (val32 y) == some .gt

/-- The lane that a weighted choice picks (10: R204): weights by lane in ascending order, u the draw. -/
def sampleLane (u : BitVec 32) (ws : List (Nat × BitVec 32)) : BitVec 32 :=
  let u := if nanOrNegative u then 0#32 else if above32 0x3F800000#32 u then u else 0x3F7FFFFF#32
  let ws := ws.map fun e => (e.1, if nanOrNegative e.2 then 0#32 else e.2)
  let ps := prefixes (scanStep .fadd) 0x80000000#32 ws
  match ps.getLast? with
  | none => 0#32
  | some (_, _, p) =>
    let lane := fun (o : Option Nat) => match o with
      | none => 0xFFFFFFFF#32
      | some l => BitVec.ofNat 32 l
    if p = 0x7F800000#32 then lane ((ps.find? fun e => e.2.2 == 0x7F800000#32).map Prod.fst)
    else if !above32 p 0#32 then 0xFFFFFFFF#32
    else
      let t := rnd32 ((val32 u).mul (val32 p))
      match ps.find? fun e => above32 e.2.2 t with
      | some e => BitVec.ofNat 32 e.1
      | none => lane ((ws.filter fun e => above32 e.2 0#32).getLast?.map Prod.fst)

/-- A weighted choice of a lane (10: R204). -/
def execSample (gd : Guard) (d a b : BitVec 6) (s : State) : Out :=
  s.runGroup (.sample gd d a b) fun is g =>
    let m := g.passing gd is.mask
    g.writeLanes m d fun _ => sampleLane ((g.rs b).setWidth 32) ((lanesOf m).map fun l => (l, g.rv a l))

end Sys2Proof.Machine
end

