-- ==== Sys2Proof/Machine/Classes.lean ====
section
/-!
DEFINITION. Priority classes: a group's own class, the classes lent at barriers, the effective class (01: R23, R24).
-/

namespace Sys2Proof.Machine

/-- The class of a group: the less urgent of its requested class and its region's ceiling (01: R23). -/
def State.ownClass (s : State) (g : Group) : Nat := max g.ctl.cls.toNat (s.ceiling (s.regionOf g))

/-- The barriers that a group waits at in their current phase, by key. -/
def State.waitsAt (s : State) (g : Group) : List Nat :=
  (g.ctl.waits.filterMap fun e =>
    match e.2 with
    | .barrier gang n p _ =>
      let k := barrierKey gang n g.id.wg
      if (s.barrier g.id.gang k).phase = p then some k else none
    | .arrive gang n _ _ => some (barrierKey gang n g.id.wg)
    | .sleep _ => none
    | .fetch _ => none).eraseDups

/-- Whether a group has a thread that has not arrived at barrier k (12: R230). -/
def State.owes (s : State) (g : Group) (k : Nat) : Bool :=
  (lanesOf g.live).any fun l => (s.barrier g.id.gang k).arrivedAt (g.threadKey l) != (s.barrier g.id.gang k).phase + 1

/-- Whether group a lends its class to group b (01: R24). -/
def State.lends (s : State) (a b : Group) : Bool :=
  !(a.ctl.act != .active && a.ctl.cause == .preempt) &&
    (s.waitsAt a).any fun k => b.inInstance a.id.gang k && s.owes b k

/-- One passing on of loans through the groups of a gang: a class never gets less urgent. -/
def State.lendOnce (s : State) (gs : List Group) (cs : List Nat) : List Nat :=
  (gs.zip cs).map fun b =>
    (gs.zip cs).foldl (fun c a => if a.2 < c && s.lends a.1 b.1 then a.2 else c) b.2

/-- Loans passed on along chains of at most n links. -/
def State.lendAlong (s : State) (gs : List Group) (n : Nat) (cs : List Nat) : List Nat :=
  match n with
  | 0 => cs
  | m + 1 => State.lendAlong s gs m (s.lendOnce gs cs)

/-- The effective class of a group (01: R24): chains pass each group once, so there are no longer ones than the gang has
groups. -/
def State.effClass (s : State) (k : Nat) : Nat :=
  match Table.get? s.groups k with
  | none => 3
  | some g =>
    let ps := s.groups.filter fun p => p.2.id.gang == g.id.gang && !p.2.id.walker && !p.2.ctl.dead
    if ps.all fun p => p.2.ctl.waits.isEmpty then s.ownClass g
    else
      let gs := ps.map Prod.snd
      ((((ps.map Prod.fst).zip (s.lendAlong gs gs.length (gs.map s.ownClass))).find? fun p => p.1 == k).map
        Prod.snd).getD (s.ownClass g)

end Sys2Proof.Machine
end

