-- ==== Sys2Proof/Machine/Profile.lean ====
section
/-!
DEFINITION. Homes, their error responses, and performing a store, with the watches of SLEEP (04: R80; 12: R233; 23: R383 to R387); the records and bin sets of a profiling partition (24: R392 to R402).
-/

namespace Sys2Proof.Machine

/-! ## Homes -/

/-- Position n among the set bits of a port mask. -/
def nthPort (ports : BitVec 32) (n : Nat) : Nat := ((lanesOf ports).drop n).headD 0

/-- The home of a physical address: the cluster of a slice bank or a window, or 1,000 plus a CXL port (04: R80, 23:
R382). -/
def State.homeOf (s : State) (pa : Nat) : Nat :=
  if 2 ^ 61 ≤ pa then (pa - 2 ^ 61) / 2 ^ 24 % 512
  else if 2 ^ 60 ≤ pa then
    match Table.get? s.gangs ((pa - 2 ^ 60) / 2 ^ 24) with
    | none => 0
    | some a => a.cluster
  else if pa < Config.cxlBase then pa / Config.sliceStride
  else
    match s.boot.settings with
    | none => 1000
    | some c =>
      match c.sets.find? fun w => decide (w.base ≤ pa) && decide (pa < w.base + w.size) with
      | none => 1000
      | some w => 1000 + nthPort w.ports (((pa - w.base) >>> w.granule) % (lanesOf w.ports).length)

/-- The device identifier (23: R380). -/
def State.device (s : State) : BitVec 22 :=
  match s.boot.settings with
  | none => 0
  | some c => c.device

/-- The source field of a violation at a home: this device and the cluster or port of the home (23: R387). -/
def State.homeSource (s : State) (pa : Nat) : BitVec 32 :=
  s.device.setWidth 32 ||| (BitVec.ofNat 32 (if 1000 ≤ s.homeOf pa then s.homeOf pa - 1000 else s.homeOf pa) <<< 24)

/-- Logs the error response of a home: a failure of integrity or poisoned data by its physical address, any other as the access that
received it (23: R384 to R387). -/
def State.homeViolation (s : State) (pa : Nat) (kind : ErrorKind) (other : State → State) : State :=
  match kind with
  | .access => other s
  | .integrity => s.violation (BitVec.ofNat 64 pa) (s.homeSource pa) 3 0
  | .poison => s.violation (BitVec.ofNat 64 pa) (s.homeSource pa) 4 0

/-! ## Stores -/

/-- Whether two byte ranges overlap. -/
def rangesMeet (a n b m : Nat) : Bool := decide (a < b + m) && decide (b < a + n)

/-- Sets in SLEEP whose word a store touches read it again (12: R233). -/
def State.watchStore (s : State) (pa n : Nat) : State :=
  { s with groups := s.groups.map fun p =>
    if p.2.fl.sleepers.isEmpty then p
    else
      (p.1, p.2.setSleepers (p.2.fl.sleepers.map fun z =>
        match z.pa with
        | none => z
        | some a => if rangesMeet a (if z.n64 then 8 else 4) pa n then { z with due := true } else z)) }

/-- The lines of 64 bytes that n bytes lie in. -/
def linesAt (pa n : Nat) : List Nat := (List.range ((pa + n + 63) / 64 - pa / 64)).map fun i => pa / 64 + i

/-- The last value of a line's version counter (23: R383). -/
def lastVersion : Nat := 2 ^ 56 - 1

/-- The version counters after a write: each private line that it meets counts one (23: R383). -/
def State.countLines (s : State) (pa n : Nat) : Table Nat :=
  if s.inPrivate pa then (linesAt pa n).foldl (fun t l => Table.put 0 t l (min lastVersion (Table.getD t l 0 + 1))) s.versions
  else s.versions

/-- Whether the counter of a line has no room for so many writes of n bytes (23: R383). -/
def State.refusesAll (s : State) (times pa n : Nat) : Bool :=
  s.inPrivate pa && (linesAt pa n).any fun l => decide (lastVersion < Table.getD s.versions l 0 + times)

/-- Whether a write is refused, with an error response, because the counter of a line of it stands at its last value (23: R383). -/
def State.refuses (s : State) (pa n : Nat) : Bool := s.refusesAll 1 pa n

/-- The CXL port of an address of a CXL window (23: R382). -/
def State.cxlPortOf (s : State) (pa : Nat) : Nat := s.homeOf pa - 1000

/-- Whether the CXL port of an address is down (23: R384). -/
def State.portDown (s : State) (pa : Nat) : Bool := s.inCxl pa && s.fab.cxlDown.contains (s.cxlPortOf pa)

/-- The error response that an access to n bytes meets at its home: its port is down, the data of a line is poisoned or fails its check, or the
write is refused (23: R383 to R385). DESIGN CHOICE (log 77): a write to a port that is down gets an error response too, and a line whose
data fails its check fails reads only. -/
def State.spoilt (s : State) (pa n : Nat) (write : Bool) : Option ErrorKind :=
  if s.portDown pa || (write && s.refuses pa n) then some .integrity
  else
    ((linesAt pa n).filterMap fun l => (Table.get? s.bad l).bind fun e => if write && e == .integrity then none else some e).head?

/-- A store is performed (04: R80, 05: R99). -/
def State.storeBytes (s : State) (pa : Nat) (bs : List Byte) : State :=
  ({ s with mem := s.mem.setBytes pa bs, versions := s.countLines pa bs.length } : State).watchStore pa bs.length

/-- The device itself stores: its home performs the store, or answers with an error response, and then nothing is written (05: R98, 23: R383 to
R386). -/
def State.deviceStore (s : State) (pa : Nat) (bs : List Byte) : State :=
  match s.spoilt pa bs.length true with
  | none => s.storeBytes pa bs
  | some e => s.homeViolation pa e fun s => s.violation (BitVec.ofNat 64 pa) (s.homeSource pa) 3 0

/-- A number is stored in n bytes. -/
def State.storeNat (s : State) (pa n v : Nat) : State := s.deviceStore pa (leBytes n v)

/-! ## Records and bin sets -/

/-- The records that the ring of a partition holds (24: R402). -/
def Partition.capacity (p : Partition) : Nat := p.bytes / 48

/-- Appends a 48-byte record, or counts it lost (24: R402). -/
def State.profRecord (s : State) (part : Nat) (bytes : List Byte) : State :=
  match Table.get? s.prof.parts part with
  | none => s
  | some p =>
    if p.writeIndex - p.readIndex < p.capacity then
      (s.deviceStore (p.ring + 48 * (p.writeIndex % p.capacity)) bytes).modPart part
        fun p => { p with writeIndex := p.writeIndex + 1 }
    else s.modPart part fun p => { p with lost := p.lost + 1 }

/-- The queue number and the launch sequence number of a group (20: R349). -/
def State.launchOf (s : State) (g : Group) : Nat × Nat :=
  match Table.get? s.launches g.id.launch with
  | none => (0, 0)
  | some l => (l.queue, l.seq)

/-- The 48 bytes of a record of a group (24: R401). -/
def State.recordBytes (s : State) (g : Group) (kind engine info : Nat) (a b : BitVec 64) : List Byte :=
  let q := s.launchOf g
  leBytes 8 s.clk.time ++ leBytes 2 q.1 ++ leBytes 6 q.2 ++ leBytes 8 (s.regionOf g) ++ leBytes 1 kind
    ++ leBytes 1 engine ++ leBytes 2 info ++ leBytes 2 (g.ctl.core / 4 + 512 * (g.ctl.core % 4)) ++ leBytes 2 0
    ++ leBytes 8 a.toNat ++ leBytes 8 b.toNat

/-- Value B of samples and marks: lane mask and GRPID (24: R401). -/
def markB (mask : BitVec 32) (g : Group) : BitVec 64 := BitVec.ofNat 64 (mask.toNat + 2 ^ 32 * (g.id.grpid % 16))

/-- A mark record while the marks of the group's partition are on (12: R244). -/
def State.mark (s : State) (g : Group) (mask : BitVec 32) (tag : BitVec 12) (a : BitVec 64) : State :=
  match Table.get? s.prof.parts g.view.partition with
  | none => s
  | some p =>
    if p.on 3 then s.profRecord g.view.partition (s.recordBytes g 2 0 tag.toNat a (markB mask g)) else s

/-- The bin set of a partition on a core (24: R396). -/
def Core.binSet (c : Core) (part : Nat) : Option BinSet := c.bins.find? fun b => b.partition == part

/-- Active count of a bin in the set of a group's partition (24: R396). -/
def State.lcr (s : State) (g : Group) (n : Nat) : BitVec 64 :=
  match (s.core g.ctl.core).binSet g.view.partition with
  | none => 0
  | some b => Table.getD b.lcr n 0#64

/-- The set of a group's partition with one active count replaced. -/
def State.setLcr (s : State) (g : Group) (n : Nat) (v : BitVec 64) : State :=
  s.modCore g.ctl.core fun c => { c with
    bins := c.bins.map fun b =>
      if b.partition == g.view.partition then { b with lcr := Table.put 0#64 b.lcr n v } else b }

end Sys2Proof.Machine
end

