-- ==== Sys2Proof/Machine/Translate.lean ====
section
/-!
DEFINITION. Addresses: the windows of the virtual space, the walk of a tree, role and import windows, TLBs, walks, page
requests and their answers (03: R60 to R78, 21: R363 to R369).
-/

namespace Sys2Proof.Machine

/-! ## Trees (03: R62 to R66) -/

/-- The fields of a leaf entry (03: R64). -/
def leafV (e : BitVec 64) : Bool := e.getLsbD 0
def leafW (e : BitVec 64) : Bool := e.getLsbD 1
def leafX (e : BitVec 64) : Bool := e.getLsbD 2
def leafP (e : BitVec 64) : Bool := e.getLsbD 3
def leafKind (e : BitVec 64) : BitVec 2 := e.extractLsb' 4 2
def leafPublish (e : BitVec 64) : Nat := (e.extractLsb' 8 8).toNat
def leafFrame (e : BitVec 64) : Nat := (e.extractLsb' 16 36).toNat * 2 ^ 16

/-- Whether a valid leaf is well formed (03: R64). -/
def State.leafOk (s : State) (e : BitVec 64) : Bool :=
  e.extractLsb' 52 12 == 0 && e.extractLsb' 6 2 == 0
    && (if leafP e then !e.getLsbD 16 else leafPublish e == 0)
    && (match leafKind e with
      | 0 => inSlice (leafFrame e)
      | 1 => s.inCxl (leafFrame e)
      | 2 => s.inMemory (leafFrame e)
      | _ => false)

/-- The node that an interior entry names. -/
def entryNode (e : BitVec 64) : Nat := (e.extractLsb' 13 39).toNat * 2 ^ 13

/-- Whether a valid interior entry is well formed (03: R63). -/
def State.entryOk (s : State) (e : BitVec 64) : Bool :=
  e.extractLsb' 52 12 == 0 && e.extractLsb' 3 10 == 0 && e.extractLsb' 1 2 == 1 && s.inMemory (entryNode e)

/-- How a walk of a tree ends. -/
inductive WalkEnd where
  /-- a valid, well-formed leaf -/
  | leaf (e : BitVec 64)
  /-- an absent entry, or an address beyond the reach -/
  | absent
  /-- a malformed entry at a physical address -/
  | malformed (pa : Nat)
  /-- the read of an entry at a physical address gets an error response (23: R384, R385) -/
  | unread (pa : Nat) (e : ErrorKind)
  deriving DecidableEq, Repr

/-- Walks n levels down from a node (03: R62). -/
def State.walkFrom (s : State) (va : BitVec 64) (n node : Nat) : WalkEnd :=
  match n with
  | 0 => .absent
  | m + 1 =>
    let pa := node + 8 * (va.extractLsb' (16 + 10 * m) 10).toNat
    match s.spoilt pa 8 false with
    | some k => .unread pa k
    | none =>
      let e := s.mem.w64 pa
      if !leafV e then .absent
      else if m = 0 then (if s.leafOk e then .leaf e else .malformed pa)
      else if s.entryOk e then State.walkFrom s va m (entryNode e)
      else .malformed pa

/-- The depth that a root slot word records (03: R67). -/
def slotDepth (w : BitVec 64) : Nat := (w.extractLsb' 2 2).toNat + 1

/-- The root node of a root slot word. -/
def slotNode (w : BitVec 64) : Nat := (w.extractLsb' 9 39).toNat * 2 ^ 13

/-- The walk of the tree of a root slot word (03: R62, R74). -/
def State.walk (s : State) (root va : BitVec 64) : WalkEnd :=
  if 2 ^ (16 + 10 * slotDepth root) ≤ va.toNat then .absent else s.walkFrom va (slotDepth root) (slotNode root)

/-- The parity of a publish slot (03: R71). -/
def State.parity (s : State) (slot : Nat) : Nat := (Table.getD s.xlat.publish slot 0#64).toNat % 2

/-- The physical address behind a leaf: the visible or the hidden frame of a shadow pair (03: R66, R71). -/
def State.leafPa (s : State) (e va : BitVec 64) (hidden : Bool) : Nat :=
  let p := s.parity (leafPublish e)
  leafFrame e + (if leafP e then (if hidden then 1 - p else p) * 2 ^ 16 else 0) + (va.setWidth 16).toNat

/-- The kinds of access of a walk (21: R363). -/
def kindRead : Nat := 0
def kindWrite : Nat := 1
def kindFetch : Nat := 2
def kindContext : Nat := 3
def kindEngineRead : Nat := 4
def kindEngineWrite : Nat := 5

/-- Whether a kind is store-class. -/
def isWrite (kind : Nat) : Bool := kind == kindWrite || kind == kindEngineWrite

/-- What a translation ends in (03: R74). -/
inductive Reach where
  | leaf (e : BitVec 64)
  | request
  /-- ACCESS; with the physical address of the entry when it is malformed -/
  | denied (pa : Option Nat)
  deriving DecidableEq, Repr

/-- The rights that a leaf gives an access of a kind (03: R66, R74). -/
def leafReach (kind : Nat) (e : BitVec 64) : Reach :=
  if isWrite kind then (if leafW e then .leaf e else .request)
  else if kind = kindFetch then (if leafX e then .leaf e else .denied none)
  else if kind = kindContext then (if leafKind e == 2 && leafW e then .leaf e else .request)
  else .leaf e

/-- What the end of a walk gives an access of a kind (03: R74). -/
def walkReach (kind : Nat) (w : WalkEnd) : Reach :=
  match w with
  | .leaf e => leafReach kind e
  | .absent => .request
  | .malformed pa => .denied (some pa)
  | .unread _ _ => .denied none

/-- The root slot word that a group translates under. -/
def State.rootOf (s : State) (g : Group) : BitVec 64 := s.slotWord g.view.holder g.pinSlot

/-! ## Windows (03: R60, R72, R73) -/

/-- Whether an address lies in tree space. -/
def inTree (va : BitVec 64) : Bool := va.extractLsb' 55 9 == 0

/-- Whether an address of the role window has its reserved bits zero. -/
def roleOk (va : BitVec 64) : Bool := va.extractLsb' 48 6 == 0 && va.extractLsb' 23 17 == 0

/-- The page of an address: bits 55:16. -/
def pageOf (va : BitVec 64) : Nat := (va.extractLsb' 16 40).toNat

/-- The first storage address of a gang window (log 7). -/
def gangWindowAt (gang : Nat) : Nat := 2 ^ 60 + gang * 2 ^ 24

/-- The first storage address of a launch window on a cluster (log 7). -/
def launchWindowAt (launch cluster : Nat) : Nat := 2 ^ 61 + (launch * 512 + cluster) * 2 ^ 24

/-- The binding of a role for a launch (20: R345). -/
def State.bindingOf (s : State) (launch role : Nat) : BitVec 64 :=
  match Table.get? s.launches launch with
  | none => 0
  | some l => Table.getD l.binding role 0#64

def bindKind (b : BitVec 64) : Nat := (b.setWidth 2).toNat
def bindTarget (b : BitVec 64) : Nat := (b.extractLsb' 8 24).toNat
def bindWindow (b : BitVec 64) : Nat := (b.extractLsb' 32 23).toNat

/-- The target of a cluster role that means the gang's own cluster (20: R345). -/
def ownCluster : Nat := 0xFFFFFF

/-- The storage address of an offset in a role's window; none when the access fails (03: R72). -/
def State.roleAt (s : State) (launch gang role off : Nat) : Option Nat :=
  let b := s.bindingOf launch role
  if bindKind b ≠ 1 || bindWindow b ≤ off then none
  else if bindTarget b = ownCluster then some (gangWindowAt gang + off)
  else some (launchWindowAt launch (bindTarget b) + off)

/-- The import entry of a slot, and its fields (21: R370). -/
def State.importAt (s : State) (slot : Nat) : BitVec 128 := Table.getD s.xlat.imports slot 0#128
def importValid (e : BitVec 128) : Bool := e.getLsbD 63
def importKv (e : BitVec 128) : Bool := e.getLsbD 62

/-- The device that an import slot leads to. -/
def State.importDevice (s : State) (slot : Nat) : BitVec 22 := (Table.getD s.xlat.imports slot 0#128).setWidth 22

/-- The device that the record names for a port, when the port's bit is set in the record. -/
def State.expectedPeer (s : State) (port : Nat) : Option (BitVec 22) :=
  match s.boot.settings with
  | none => none
  | some c => if c.ports.getLsbD port then (c.peers.find? fun p => p.1 == port).map Prod.snd else none

/-- Whether a port to a device is up (23: R388). -/
def State.linked (s : State) (dev : BitVec 22) : Bool := s.fab.ports.any fun p => s.expectedPeer p.1 == some dev

/-- What a peer answers to an access: an error response when no port to it is up (23: R384, R388). -/
def State.peerReply (s : State) (dev : BitVec 22) (reply : Reply) : Reply := if s.linked dev then reply else .error .access

/-- The outcome of the checks that are made at issue for one lane's address (11: R206). -/
inductive Start where
  | trap (code : BitVec 8)
  | ok (st : AccState)
  deriving DecidableEq, Repr

/-- The checks of a walker-slot access: the address is physical, and every store traps ACCESS (21: R364). -/
def State.startWalker (s : State) (store : Bool) (align : Nat) (va : BitVec 64) : Start :=
  if va.extractLsb' 52 12 ≠ 0#12 || store then .trap codeAccess
  else if va.toNat % align ≠ 0 then .trap codeAlign
  else if !s.inMemory va.toNat then .trap codeAccess
  else .ok (.direct va.toNat)

/-- The checks of a lane's address at issue (11: R206, 03: R61). -/
def State.startAccess (s : State) (g : Group) (store : Bool) (align : Nat) (va : BitVec 64) : Start :=
  if g.id.walker then s.startWalker store align va
  else if va.extractLsb' 56 8 ≠ 0#8 then .trap codeAccess
  else if inTree va then (if va.toNat % align ≠ 0 then .trap codeAlign else .ok .miss)
  else if va.extractLsb' 54 2 = 2#2 then
    if !roleOk va then .trap codeAccess
    else if va.toNat % align ≠ 0 then .trap codeAlign
    else
      match s.roleAt g.id.launch g.id.gang (va.extractLsb' 40 8).toNat (va.setWidth 23).toNat with
      | none => .trap codeAccess
      | some pa => .ok (.direct pa)
  else if va.toNat % align ≠ 0 then .trap codeAlign
  else
    let slot := (va.extractLsb' 38 16).toNat
    let e := s.importAt slot
    if importValid e && !importKv e then .ok (.peer slot) else .trap codeImport

/-- Logs the violation of a lane access: the virtual address with bit 63 set (23: R386, R387). -/
def State.laneViolation (s : State) (core : Nat) (va : BitVec 64) : State :=
  s.violation (va ||| (1#64 <<< 63)) (s.device.setWidth 32 ||| (BitVec.ofNat 32 (core / 4) <<< 24)) 1 0

/-- The violation of a lane that fails in the role or import window at issue (23: R386: R72, R73). -/
def State.windowViolation (s : State) (core : Nat) (code : BitVec 8) (va : BitVec 64) : State :=
  if code = codeImport || (code = codeAccess && va.extractLsb' 54 10 == 2 && roleOk va) then s.laneViolation core va
  else s

/-! ## TLBs (03: R70) -/

/-- Whether a TLB entry serves a page under a tag. -/
def TlbEntry.serves (t : TlbEntry) (region : Nat) (gen : BitVec 16) (page : Nat) : Bool :=
  t.region == region && t.gen == gen && t.page == page

/-- The leaf that the TLBs of a core and its cluster hold. -/
def State.tlb (s : State) (core region : Nat) (gen : BitVec 16) (page : Nat) : Option (BitVec 64) :=
  (((s.core core).tlb ++ (s.cluster (core / 4)).tlb).find? fun t => t.serves region gen page).map TlbEntry.leaf

/-- Adds an entry at the end, dropping the oldest beyond a size. -/
def tlbAdd (size : Nat) (t : TlbEntry) (ts : List TlbEntry) : List TlbEntry :=
  let ts := (ts.filter fun x => !x.serves t.region t.gen t.page) ++ [t]
  ts.drop (ts.length - size)

/-- Fills the core's and its cluster's TLB: 64 and 1,024 entries (12: R238, 03: R74). -/
def State.tlbFill (s : State) (core : Nat) (t : TlbEntry) : State :=
  (s.modCore core fun c => { c with tlb := tlbAdd 64 t c.tlb }).modCluster (core / 4)
    fun c => { c with tlb := tlbAdd 1024 t c.tlb }

/-- Invalidates every TLB entry of a tag, on every die (03: R70). -/
def State.tlbDrop (s : State) (region : Nat) (gen : BitVec 16) : State :=
  let keep := fun (t : TlbEntry) => !(t.region == region && t.gen == gen)
  { s with
    cores := s.cores.map fun p => (p.1, { p.2 with tlb := p.2.tlb.filter keep })
    clusters := s.clusters.map fun p => (p.1, { p.2 with tlb := p.2.tlb.filter keep }) }

/-- The TLBs of a core and its cluster drop what they hold of a page (03: R74; log 18). -/
def State.tlbForget (s : State) (core page : Nat) : State :=
  let keep := fun (ts : List TlbEntry) => ts.filter fun t => t.page != page
  (s.modCore core fun c => { c with tlb := keep c.tlb }).modCluster (core / 4) fun c => { c with tlb := keep c.tlb }

/-- Walks that a core's queue holds (21: R363). -/
def walkQueueSize : Nat := 64

/-- The walks that stand in a core's queue; the others of the list are misses that found it full and enter it in this order as
walks end (21: R363). -/
def Core.queuedWalks (c : Core) : List Walk := c.walks.take walkQueueSize

/-- A miss goes to a core's walker, in arrival order; one with the same tag and page as a queued or running walk joins it, and
one that finds the queue full waits to enter it (21: R363; Core.queuedWalks). Each walk that is started counts as one miss of the core's
TLB (24: R398; log 76). -/
def State.queueWalk (s : State) (core : Nat) (w : Walk) : State :=
  if (s.core core).walks.any fun x => x.region == w.region && x.gen == w.gen && x.page == w.page then s
  else (s.modCore core fun c => { c with walks := c.walks ++ [w] }).tally w.part 0x05 1

/-! ## Page requests (21: R366) -/

/-- The 32-byte record of a page request (21: R366). -/
def requestBytes (id page region slot : Nat) (gen : BitVec 16) (kind : Nat) : List Byte :=
  leBytes 8 id ++ leBytes 8 (page * 2 ^ 16) ++ leBytes 8 region ++ leBytes 2 slot ++ leBytes 2 gen.toNat
    ++ leBytes 1 kind ++ leBytes 3 0

/-- Posts a page request, or joins one (21: R366); answers the request's id. -/
def State.postRequest (s : State) (page region slot : Nat) (gen : BitVec 16) (kind : Nat) : State × Nat :=
  match s.xlat.requests.find? fun p =>
    p.2.page == page && p.2.region == region && p.2.slot == slot && (!isWrite kind || isWrite p.2.kind) with
  | some p => (s, p.1)
  | none =>
    let id := s.xlat.nextReq
    let s := { s with xlat := { s.xlat with
      requests := Table.set s.xlat.requests id { page, region, slot, gen, kind }
      nextReq := id + 1 } }
    (s.notice (requestBytes id page region slot gen kind), id)

/-- The notice of a malformed tree goes to firmware: it is kept in the firmware event log with code 256 (log 11). -/
def State.malformedNotice (s : State) (pa : Option Nat) : State :=
  match pa with
  | none => s
  | some a => { s with fab := { s.fab with eventLog := s.fab.eventLog ++ [(a, 256)] } }

/-- What a walk of a tree leaves that a step of the control die makes, when it ends with a malformed entry or with an entry that cannot be read:
the notice of the one, the violation of the other (03: R74; 23: R386). -/
def State.noteWalkEnd (s : State) (root va : BitVec 64) : State :=
  match s.walk root va with
  | .leaf _ => s
  | .absent => s
  | .malformed pa => s.malformedNotice (some pa)
  | .unread pa e => s.homeViolation pa e id

/-! ## Accesses of memory words -/

/-- Whether an operation is store-class (03: R66). -/
def MemKind.writes (k : MemKind) : Bool :=
  match k with
  | .load _ _ => false
  | .store _ => true
  | .atom _ _ => true
  | .cas _ => true
  | .fadd _ => true
  | .ldk => false
  | .fence _ => false

/-- Whether an operation reads a value that lands, as a load for 04: R84, R85. -/
def MemKind.reads (k : MemKind) : Bool :=
  match k with
  | .load _ _ => true
  | .store _ => false
  | .atom _ _ => true
  | .cas _ => true
  | .fadd _ => false
  | .ldk => true
  | .fence _ => false

/-- The kind of access of a memory word. -/
def MemKind.access (k : MemKind) : Nat := if k.writes then kindWrite else kindRead

/-- The state of an access of a kind once the leaf of its page is known (03: R74, R66). -/
def State.withLeaf (s : State) (region slot : Nat) (gen : BitVec 16) (kind : Nat) (va e : BitVec 64) :
    State × AccState :=
  match leafReach kind e with
  | .leaf e => (s, .leaf e)
  | .request =>
    let r := s.postRequest (pageOf va) region slot gen kind
    (r.1, .wait r.2)
  | .denied _ => (s, .failed codeAccess)

/-- The walk of a page under a root slot of a holder, for a group of a profiling partition (21: R363). -/
def State.walkOf (s : State) (part region slot : Nat) (gen : BitVec 16) (kind : Nat) (probe : Bool) (va : BitVec 64) : Walk where
  region := region
  slot := slot
  gen := gen
  root := s.slotWord region slot
  page := pageOf va
  kind := kind
  probe := probe
  part := part

/-- Whether a walk serves a translation under a tag. -/
def Walk.serves (w : Walk) (region : Nat) (gen : BitVec 16) (page : Nat) : Bool :=
  w.region == region && w.gen == gen && w.page == page

/-- Whether a core's walker has the walk of a page under a tag to do. -/
def State.walkPending (s : State) (core region : Nat) (gen : BitVec 16) (page : Nat) : Bool :=
  (s.core core).walks.any fun w => w.serves region gen page

/-- Looks an access up in the TLBs: a miss queues a walk (21: R363). -/
def State.tryTlb (s : State) (part core region slot : Nat) (gen : BitVec 16) (kind : Nat) (va : BitVec 64) :
    State × AccState :=
  match s.tlb core region gen (pageOf va) with
  | some e => s.withLeaf region slot gen kind va e
  | none => (s.queueWalk core (s.walkOf part region slot gen kind false va), .miss)

/-- The state of an access when the walk of its page ends. -/
def State.afterWalk (s : State) (w : Walk) (kind : Nat) (va : BitVec 64) (r : WalkResult) : State × AccState :=
  match r with
  | .fill e => s.withLeaf w.region w.slot w.gen kind va e
  | .req write =>
    let q := s.postRequest w.page w.region w.slot w.gen (if write then kindWrite else kind)
    (q.1, .wait q.2)
  | .bad => (s, .failed codeAccess)

/-- Changes the accesses of a list in order, each with the state as the ones before left it. -/
def threadAccs (f : State → LaneAcc → State × LaneAcc) (s : State) (as : List LaneAcc) : State × List LaneAcc :=
  match as with
  | [] => (s, [])
  | a :: r =>
    let x := f s a
    let y := threadAccs f x.1 r
    (y.1, x.2 :: y.2)

/-- Changes the accesses of operations in program order. -/
def threadOps (f : State → MemOp → LaneAcc → State × LaneAcc) (s : State) (os : List MemOp) : State × List MemOp :=
  match os with
  | [] => (s, [])
  | o :: r =>
    let x := threadAccs (fun s a => f s o a) s o.accs
    let y := threadOps f x.1 r
    (y.1, { o with accs := x.2 } :: y.2)

/-- Changes the accesses of a group; f changes no group. -/
def State.threadGroup (s : State) (k : Nat) (f : State → MemOp → LaneAcc → State × LaneAcc) : State :=
  match Table.get? s.groups k with
  | none => s
  | some g =>
    let x := threadOps f s g.fl.ops
    x.1.modGroup k fun g => g.setOps x.2

/-! ## Fetches (08: R164, 03: R75, R76) -/

/-- The lanes that form issue sets: live, waiting for nothing, and, while a handler is active, in it (12: R239). -/
def Group.standing (g : Group) : List Nat :=
  (lanesOf g.live).filter fun l => (g.waitOf l).isNone && (!g.tr.st.active || has g.tr.st.mask l)

/-- Lanes grouped by PC, in ascending order of their lowest lane (01: R11). -/
def groupPcs (ls : List (Nat × BitVec 64)) (acc : List (BitVec 64 × BitVec 32)) : List (BitVec 64 × BitVec 32) :=
  match ls with
  | [] => acc
  | (l, pc) :: r =>
    if acc.any fun e => e.1 == pc then
      groupPcs r (acc.map fun e => if e.1 = pc then (pc, e.2 ||| laneBit l) else e)
    else groupPcs r (acc ++ [(pc, laneBit l)])

/-- The issue sets of a group that stand, each with its PC (01: R11). -/
def Group.sets (g : Group) : List (BitVec 64 × BitVec 32) := groupPcs (g.standing.map fun l => (l, g.pc l)) []

/-- The root slot and generation that a lane's fetch translates under: the group's pinned slot, or the slot that the answer of
its page request named; none when the fetch has failed (03: R68, R75, R76). -/
def State.fetchSlot (s : State) (g : Group) (lane : Nat) : Option (Nat × BitVec 16) :=
  match Table.get? g.ctl.fetched lane with
  | none => some (g.pinSlot, g.pinGen)
  | some none => none
  | some (some n) =>
    let w := s.slotWord g.view.holder n
    if slotValid w then some (n, slotGen w) else none

/-- How the translation of a fetch stands (03: R61, R66, R74). -/
inductive FetchReach where
  | leaf (e : BitVec 64)
  | physical (pa : Nat)
  /-- the TLBs miss: the fetch waits for a walk -/
  | miss
  /-- ACCESS -/
  | denied
  deriving DecidableEq, Repr

/-- The translation of a lane's fetch by the TLBs of its core; in the walker slot the PC is physical (21: R364). -/
def State.fetchAt (s : State) (g : Group) (lane : Nat) : FetchReach :=
  let pc := g.pc lane
  if g.id.walker then (if s.inMemory pc.toNat then .physical pc.toNat else .denied)
  else if pc.extractLsb' 56 8 ≠ 0#8 || !inTree pc then .denied
  else
    match s.fetchSlot g lane with
    | none => .denied
    | some (_, gen) =>
      match s.tlb g.ctl.core g.view.holder gen (pageOf pc) with
      | none => .miss
      | some e => if leafX e then .leaf e else .denied

/-- The lane whose fetch stands for its set's: one whose fetch has failed, else one that an answer named a slot for, else the lowest, since lanes
that reach the PC may merge with those that waited (03: R75, R76; 01: R11). -/
def Group.fetchLane (g : Group) (m : BitVec 32) : Nat :=
  let ls := lanesOf m
  (((ls.find? fun l => Table.get? g.ctl.fetched l == some none).orElse fun _ => ls.find? fun l => (Table.get? g.ctl.fetched l).isSome).orElse
    fun _ => ls.head?).getD 0

/-- The walk that the fetch of a set waits for, when its translation misses (03: R74). -/
def State.fetchMiss (s : State) (g : Group) (e : BitVec 64 × BitVec 32) : Option Walk :=
  let l := g.fetchLane e.2
  match s.fetchAt g l with
  | .miss => (s.fetchSlot g l).map fun x => s.walkOf g.view.partition g.view.holder x.1 x.2 kindFetch false e.1
  | .leaf _ => none
  | .physical _ => none
  | .denied => none

/-- Lanes whose fetch has failed: ACCESS is due on their set (03: R75, 21: R365). -/
def Group.failFetch (m : BitVec 32) (g : Group) : Group :=
  { g with ctl := { g.ctl with fetched := (lanesOf m).foldl (fun t l => Table.set t l none) g.ctl.fetched } }

/-- A walk ends for one set that waits for it: a fill lets it fetch again, a page request is posted for it, or it fails; under an
answered slot the page is there or the answer counts as failed (03: R74 to R76). -/
def State.endFetch (s : State) (k : Nat) (w : Walk) (r : WalkResult) (m : BitVec 32) : State :=
  match r with
  | .fill _ => s
  | .bad => s.modGroup k (Group.failFetch m)
  | .req _ =>
    if ((Table.get? s.groups k).bind fun g => Table.get? g.ctl.fetched (g.fetchLane m)).isSome then s.modGroup k (Group.failFetch m)
    else
      let q := s.postRequest w.page w.region w.slot w.gen kindFetch
      q.1.modGroup k fun g => (g.setWait m (some (.fetch q.2))).noteWait s.clk.cycle

/-- A walk ends for the sets of a group that wait for it. -/
def State.endFetches (s : State) (k : Nat) (w : Walk) (r : WalkResult) : State :=
  match Table.get? s.groups k with
  | none => s
  | some g => (g.sets.filter fun e => match s.fetchMiss g e with
      | none => false
      | some x => x.serves w.region w.gen w.page).foldl (fun s e => s.endFetch k w r e.2) s

/-! ## Raising traps at a boundary (12: R240, 11: R207) -/

/-- Raises a trap at a group's next instruction boundary; with no lane of the set left it goes to the fault domain (12:
R240, 09: R186). -/
def State.raiseBoundary (s : State) (k : Nat) (t : TrapReq) : State :=
  match Table.get? s.groups k with
  | none => s
  | some g => if t.mask &&& g.live = 0#32 then s.toFaultDomain k t else s.setGroup k (g.raiseBoundary t)

/-! ## The waits of SLEEP (12: R232, R233) -/

/-- Ends one wait of a set in SLEEP: its lanes are ready where they stand, or, where the set has entered a handler since, after TRET; a wait in
the handler itself is another one (12: R232). -/
def Group.endSleep (now : Nat) (z : Sleeper) (g : Group) : Group :=
  let mine := (lanesOf z.mask).filter fun l => g.waitOf l == some (.sleep z.seq)
  let g := g.setSleepers (g.fl.sleepers.filter fun x => x.seq != z.seq)
  let g := g.setWait (maskOf fun l => mine.contains l) none
  ({ g with tr := { g.tr with saved := g.tr.saved.filter fun e => e.2 != .sleep z.seq } } : Group).noteWait now

/-- The set of a failed SLEEP stands at the sleep word again: at once, or as the PC its handler returns to (12: R233). -/
def Group.backToSleep (z : Sleeper) (g : Group) : Group :=
  let inside := maskOf fun l => has z.mask l && Table.get? g.tr.saved l == some (.sleep z.seq)
  let g := g.sendTo (z.mask &&& ~~~ inside) z.pc
  if inside = 0#32 then g else { g with tr := { g.tr with st := { g.tr.st with ret := z.pc } } }

/-- A set that waits in SLEEP ends its wait with a trap at the sleep word (12: R233). -/
def State.failSleep (s : State) (k : Nat) (z : Sleeper) (code : BitVec 8) : State :=
  let s := s.modGroup k fun g => (g.backToSleep z).endSleep s.clk.cycle z
  s.raiseBoundary k {
    code := code, pc := z.pc, ret := z.pc, word := z.word, mask := z.mask, failed := z.mask
    info := BitVec.ofNat 32 ((lanesOf z.mask).headD 0), addr := z.va, imm := 0, cur := 0, rank := 1 }

/-- The slot and generation that a read of SLEEP translates under, and whether an answer named it: the wait is one instruction, so it
keeps the slot of its answer while that is valid (log 43); none when the answer named a slot that is not. -/
def State.sleepSlot (s : State) (g : Group) (z : Sleeper) : Option (Nat × BitVec 16 × Bool) :=
  match z.answered with
  | none => some (g.pinSlot, g.pinGen, false)
  | some n =>
    let w := s.slotWord g.view.holder n
    if slotValid w then some (n, slotGen w, true)
    else if z.pa.isSome then some (g.pinSlot, g.pinGen, false)
    else none

/-- Whether the read of a set in SLEEP waits for a walk. -/
def State.sleepOn (s : State) (g : Group) (w : Walk) (z : Sleeper) : Bool :=
  z.due && z.req.isNone && pageOf z.va == w.page && inTree z.va &&
    (match s.sleepSlot g z with
      | none => false
      | some x => x.2.1 == w.gen)

/-- The read of a set in SLEEP takes the end of its walk (12: R233, 21: R365). -/
def State.endSleepWalk (s : State) (k : Nat) (g : Group) (w : Walk) (r : WalkResult) (z : Sleeper) : State :=
  match r with
  | .fill _ => s
  | .bad => s.failSleep k z codeAccess
  | .req write =>
    if ((s.sleepSlot g z).map fun x => x.2.2).getD true then s.failSleep k z codeAccess
    else
      let x := s.postRequest w.page w.region w.slot w.gen (if write then kindWrite else kindRead)
      x.1.modGroup k fun g => g.setSleepers (g.fl.sleepers.map fun y =>
        if y.seq = z.seq then { y with due := false, req := some x.2 } else y)

/-- A walk ends for the sets of a group in SLEEP that wait for it. -/
def State.endSleeps (s : State) (k : Nat) (w : Walk) (r : WalkResult) : State :=
  match Table.get? s.groups k with
  | none => s
  | some g => (g.fl.sleepers.filter (s.sleepOn g w)).foldl (fun s z => s.endSleepWalk k g w r z) s

/-! ## The end of a walk -/

/-- The lane of a probe takes the end of its walk: flags S, Z, C, V (03: R78, 21: R365). -/
def State.probeEnd (s : State) (va : BitVec 64) (r : WalkResult) : BitVec 4 :=
  match r with
  | .fill e => flags false true (leafW e) (inSlice (s.leafPa e va false))
  | .req _ => flags false false false false
  | .bad => flags true false false false

/-- Writes the flags of a probe whose lanes all have them. -/
def Group.finishProbe (g : Group) (p : Probe) : Group :=
  g.writeConds (maskOf fun l => p.lanes.any fun x => x.lane == l) p.creg fun l =>
    ((p.lanes.find? fun x => x.lane == l).bind ProbeLane.flags).getD 0#4

/-- The probes of a group that are answered write their flags (11: R209). -/
def Group.finishProbes (g : Group) : Group :=
  let answered := fun (p : Probe) => p.lanes.all fun x => x.flags.isSome
  let g' := (g.fl.probes.filter answered).foldl Group.finishProbe g
  { g' with fl := { g'.fl with probes := g.fl.probes.filter fun p => !answered p } }

/-- A group's probes take the end of a walk. -/
def State.endProbes (s : State) (k : Nat) (w : Walk) (r : WalkResult) : State :=
  s.modGroup k fun g =>
    if g.fl.probes.isEmpty then g
    else
      ({ g with fl := { g.fl with probes := g.fl.probes.map fun p =>
        if p.gen != w.gen then p
        else { p with lanes := p.lanes.map fun x =>
          if x.flags.isNone && pageOf x.va == w.page then { x with flags := some (s.probeEnd x.va r) } else x } } } : Group).finishProbes

/-- An access of a memory word takes the end of the walk that it waits for. Under an answered slot the page is there with the
rights of the access, or the answer counts as failed (03: R76, 21: R367). -/
def State.endAcc (s : State) (w : Walk) (r : WalkResult) (o : MemOp) (a : LaneAcc) : State × LaneAcc :=
  match a.st with
  | .miss =>
    if o.gen == w.gen && pageOf a.va == w.page then
      let x := s.afterWalk w o.kind.access a.va r
      (x.1, { a with st := x.2 })
    else (s, a)
  | .answered n =>
    if n == w.slot && slotGen (s.slotWord w.region n) == w.gen && pageOf a.va == w.page then
      match r with
      | .fill _ => (s, a)
      | .req _ => (s, { a with st := .failed codeAccess })
      | .bad => (s, { a with st := .failed codeAccess })
    else (s, a)
  | .wait _ => (s, a)
  | .leaf _ => (s, a)
  | .direct _ => (s, a)
  | .peer _ => (s, a)
  | .failed _ => (s, a)

/-- A walk that ends is noted for the engine commands and the context of a group that wait for it. -/
def Group.noteWalked (w : Walk) (r : WalkResult) (g : Group) : Group :=
  let mine := (w.slot, w.page)
  { g with
    fl := { g.fl with cmds := g.fl.cmds.map fun c =>
      if c.walkOn == some mine then { c with walkOn := none, walked := c.walked ++ [(w.slot, w.page, r)] } else c }
    ctl := if g.ctl.ctxWalkOn.contains mine then { g.ctl with
        ctxWalkOn := g.ctl.ctxWalkOn.filter (· != mine)
        ctxWalked := g.ctl.ctxWalked ++ [(w.slot, w.page, r)] }
      else g.ctl }

/-- A walk ends for one group: its fetches, sets in SLEEP, probes, accesses, engine commands and context that wait for the page go on. -/
def State.endWalkFor (s : State) (w : Walk) (r : WalkResult) (k : Nat) : State :=
  ((((s.endFetches k w r).endSleeps k w r).endProbes k w r).threadGroup k fun s o a => s.endAcc w r o a).modGroup k
    (Group.noteWalked w r)

/-- Ends a walk of a core (12: R238, 21: R365): whatever waits for the page under its tag goes on, and a fill goes into the TLBs
while its tag is in use (03: R70). A probe posts nothing. -/
def State.endWalk (s : State) (core : Nat) (w : Walk) (r : WalkResult) : State :=
  let s := s.modCore core fun c => { c with walks := c.walks.drop 1, walking := false, walkIssued := 0 }
  let s := s.tally w.part 0x06 1
  let ks := (s.groups.filter fun p =>
    p.2.ctl.core == core && !p.2.id.walker && p.2.view.holder == w.region).map Prod.fst
  let s := ks.foldl (State.endWalkFor · w r) s
  match r with
  | .fill e =>
    if slotValid (s.slotWord w.region w.slot) && slotGen (s.slotWord w.region w.slot) == w.gen then
      s.tlbFill core { region := w.region, gen := w.gen, page := w.page, leaf := e }
    else s
  | .req _ => s
  | .bad => s

/-- The walker-fault notice: core, page and region of the walk (21: R365, 23: R378; layout: log 9). -/
def walkerNotice (core : Nat) (w : Walk) : List Byte := noticeBytes 4 core (w.page * 2 ^ 16) w.region

/-- The walk as 21: R365 binds it: its outcome is the one of R62 to R64 and R74; and what it leaves: a malformed entry is noticed, and a read of
an entry that gets an error response makes the routine trap. -/
def State.walkContract (s : State) (core : Nat) (w : Walk) : State × WalkResult :=
  match s.walk w.root (BitVec.ofNat 64 (w.page * 2 ^ 16)) with
  | .leaf e => (s, .fill e)
  | .absent => (s, .req false)
  | .malformed pa => (s.malformedNotice (some pa), .bad)
  | .unread pa e => ((s.homeViolation pa e id).notice (walkerNotice core w), .bad)

/-- Serves the head of a core's walk queue by its contract (21: R363, R365). -/
def State.serveWalk (s : State) (core : Nat) : State :=
  match (s.core core).walks with
  | [] => s
  | w :: _ => (s.walkContract core w).1.endWalk core w (s.walkContract core w).2

/-! ## Failed lanes (11: R207) -/

/-- The failed lanes of an operation. -/
def MemOp.failedLanes (o : MemOp) : BitVec 32 :=
  maskOf fun l => o.accs.any fun a => a.lane == l && (match a.st with
    | .failed _ => true
    | .miss => false
    | .wait _ => false
    | .answered _ => false
    | .leaf _ => false
    | .direct _ => false
    | .peer _ => false)

/-- The trap of an operation of which lanes failed: the code and address of the lowest (11: R207, 03: R57). sld and sst
name the issuing set as failed lanes (12: R227). -/
def MemOp.failure (o : MemOp) (uniform : Bool) : Option TrapReq :=
  let codes := o.accs.filterMap fun a => match a.st with
    | .failed c => some (a.lane, a.va, c)
    | .miss => none
    | .wait _ => none
    | .answered _ => none
    | .leaf _ => none
    | .direct _ => none
    | .peer _ => none
  match codes.find? fun x => codes.all fun y => decide (x.1 ≤ y.1) with
  | none => none
  | some (l, va, c) => some {
      code := c, pc := o.pc, ret := 0, word := o.word, mask := o.set
      failed := if uniform then o.set else o.failedLanes
      info := BitVec.ofNat 32 (if uniform then ((lanesOf o.set).head?).getD 0 else l)
      addr := if o.kind == .ldk then BitVec.ofNat 64 (((o.kv.find? fun x => x.lane == l).map KvLane.pos).getD 0) else va
      imm := 0, cur := 0, rank := 1 + o.log.getD 0 }

/-! ## Answers (21: R367, R368) -/

/-- The state of an access after the answer of its request: success names a slot. -/
def AccState.answer (a : AccState) (id : Nat) (slot : Option Nat) : AccState :=
  match a with
  | .wait r => if r = id then (match slot with | some n => .answered n | none => .failed codeAccess) else .wait r
  | .miss => .miss
  | .answered n => .answered n
  | .leaf e => .leaf e
  | .direct p => .direct p
  | .peer n => .peer n
  | .failed c => .failed c

/-- Whether an operation waits for a request. -/
def MemOp.waitsFor (o : MemOp) (id : Nat) : Bool := o.accs.any fun a => a.st == .wait id

/-- An operation takes an answer. -/
def MemOp.answer (o : MemOp) (id : Nat) (slot : Option Nat) : MemOp :=
  { o with
    accs := o.accs.map fun a => { a with st := a.st.answer id slot }
    answered := match slot with
      | none => o.answered
      | some n => if o.answered.contains n then o.answered else o.answered ++ [n] }

/-- The operations of a group take an answer; an entry pins the answered slot once (03: R76). -/
def State.answerOps (s : State) (k id : Nat) (slot : Option Nat) : State :=
  match Table.get? s.groups k with
  | none => s
  | some g =>
    let h := g.view.holder
    let new := g.fl.ops.filter fun o => o.waitsFor id &&
      (match slot with | none => false | some n => !o.answered.contains n)
    let s := new.foldl (fun s _ => match slot with | none => s | some n => s.pin h n) s
    s.modGroup k fun g => g.setOps (g.fl.ops.map fun o => if o.waitsFor id then o.answer id slot else o)

/-- The lanes of a group that wait for the fetch request. -/
def Group.fetchWaiters (g : Group) (id : Nat) : BitVec 32 := maskOf fun l => g.waitOf l == some (.fetch id)

/-- A trap at the fetch of a set that stands at pc (03: R61, R75). -/
def fetchTrap (pc : BitVec 64) (mask : BitVec 32) : TrapReq where
  code := codeAccess
  pc := pc.setWidth 56
  ret := pc.setWidth 56
  word := 0
  mask := mask
  failed := 0
  info := 0
  addr := pc
  imm := 0
  cur := 0
  rank := 0

/-- The fetches of a group take an answer (03: R75, R76): each set that waits fetches again under the answered slot, or takes ACCESS
when it would issue. -/
def State.answerFetch (s : State) (k id : Nat) (slot : Option Nat) : State :=
  s.modGroup k fun g =>
    let m := g.fetchWaiters id
    if m = 0#32 then g
    else
      let g := (g.setWait m none).noteWait s.clk.cycle
      { g with ctl := { g.ctl with fetched := (lanesOf m).foldl (fun t l => Table.set t l slot) g.ctl.fetched } }

/-- The sets of a group in SLEEP take an answer (12: R233). -/
def State.answerSleep (s : State) (k id : Nat) (slot : Option Nat) : State :=
  match Table.get? s.groups k with
  | none => s
  | some g =>
    match slot with
    | some n =>
      s.setGroup k (g.setSleepers (g.fl.sleepers.map fun z =>
        if z.req == some id then { z with req := none, due := true, answered := some n } else z))
    | none => (g.fl.sleepers.filter fun z => z.req == some id).foldl (fun s z => s.failSleep k z codeAccess) s

/-- The engine commands of a group take an answer (21: R369). -/
def State.answerCmds (s : State) (k id page : Nat) (slot : Option Nat) : State :=
  match Table.get? s.groups k with
  | none => s
  | some g =>
    let h := g.view.holder
    let s := (g.fl.cmds.filter fun c => c.req == some id).foldl (fun s _ =>
      match slot with
      | none => s
      | some n => s.pin h n) s
    s.modGroup k fun g => g.setCmds (g.fl.cmds.map fun c =>
      if c.req == some id then
        match slot with
        | some n => { c with req := none, answered := c.answered ++ [(page, n)] }
        | none => { c with req := none, failed := true }
      else c)

/-! ## Where context bytes lie (02: R44, R53) -/

/-- How a context address translates: a physical address, a page request of kind context, a walk under a slot, or a failure. -/
inductive CtxReach where
  | pa (n : Nat)
  | page (va : BitVec 64)
  | walk (slot : Nat) (va : BitVec 64)
  | failed
  /-- it translates, and its home answers with an error response (05: R98; 23: R383 to R385) -/
  | spoilt (pa : Nat) (e : ErrorKind)
  deriving DecidableEq, Repr

/-- The slot that a page of the context translates under, the one of its last answer or the group's; and whether an answer named it. -/
def Group.ctxSlot (g : Group) (page : Nat) : Nat × Bool :=
  match (g.ctl.ctxAns.filter fun p => p.1 == page).getLast? with
  | none => (g.pinSlot, false)
  | some p => (p.2, true)

/-- What the leaf of a context page, or its absence, gives (02: R53): under an answered slot it must serve. -/
def State.ctxJudge (s : State) (answered : Bool) (va : BitVec 64) (r : Reach) : CtxReach :=
  match r with
  | .leaf e => .pa (s.leafPa e va false)
  | .denied _ => .failed
  | .request => if answered then .failed else .page va

/-- A context address under the group's pinned root, or under the slot that an answer named for its page, by the TLBs of its core or a
walk that ended for it (02: R53; 03: R70, R74). -/
def State.ctxReach (s : State) (g : Group) (va : BitVec 64) : CtxReach :=
  let x := g.ctxSlot (pageOf va)
  let h := g.view.holder
  let w := s.slotWord h x.1
  if x.2 && !slotValid w then .failed
  else
    match s.tlb g.ctl.core h (slotGen w) (pageOf va) with
    | some e => s.ctxJudge x.2 va (leafReach kindContext e)
    | none =>
      match g.ctl.ctxWalked.find? fun y => y.1 == x.1 && y.2.1 == pageOf va with
      | none => .walk x.1 va
      | some (_, _, .fill e) => s.ctxJudge x.2 va (leafReach kindContext e)
      | some (_, _, .req _) => s.ctxJudge x.2 va .request
      | some (_, _, .bad) => .failed

/-- Whether a page of the context has a fault outstanding, or its walk to do: what needs the page waits. -/
def Group.ctxWaits (g : Group) (va : BitVec 64) : Bool :=
  g.ctl.ctxReqs.any (fun p => p.1 == pageOf va) || g.ctl.ctxWalkOn.any fun p => p.2 == pageOf va

/-- The address of the context line of a vector register (02: R44, R45). -/
def Group.lineAddr (g : Group) (n : Nat) : BitVec 64 := g.ctl.ctx + BitVec.ofNat 64 (0x2000 + 128 * n)

/-- Whether the folio of a vector register's line translates: a line is allocated only then (02: R50). -/
def State.lineThere (s : State) (g : Group) (n : Nat) : Bool :=
  match s.ctxReach g (g.lineAddr n) with
  | .pa _ => true
  | .page _ => false
  | .walk _ _ => false
  | .failed => false
  | .spoilt _ _ => false

end Sys2Proof.Machine
end

