-- ==== Sys2Proof/Machine/Home.lean ====
section
/-!
DEFINITION. What a home does: performing stores, the watches of SLEEP, atomics, contributions of ordered adds, the order
gate, record mode and the store hash (04: R80 to R86, 05: R96 to R113, 25: R408 to R410).
-/

namespace Sys2Proof.Machine

/-! ## Homes and stores -/

/-- A value of n bytes as a signed number. -/
def signedOf (n : Nat) (v : Nat) : Int := if v < 2 ^ (8 * n - 1) then v else (v : Int) - 2 ^ (8 * n)

/-- The new value of an atomic on n bytes (11: R211). -/
def AtomOp.apply (op : AtomOp) (n : Nat) (old d : BitVec 64) : BitVec 64 :=
  let o := old.toNat % 2 ^ (8 * n)
  let x := d.toNat % 2 ^ (8 * n)
  let r := match op with
    | .add => (o + x) % 2 ^ (8 * n)
    | .minI => if signedOf n x < signedOf n o then x else o
    | .maxI => if signedOf n o < signedOf n x then x else o
    | .minN => min o x
    | .maxN => max o x
    | .band => o &&& x
    | .bor => o ||| x
    | .bxor => o ^^^ x
    | .xchg => x
  BitVec.ofNat 64 r

/-! ## The store hash (25: R408) -/

/-- The aligned 4-byte pieces of a store at va: address and word. -/
def hashPieces (va : BitVec 64) (bs : List Byte) : List (BitVec 32 × BitVec 32) :=
  match bs.length with
  | 8 => [(va.setWidth 32, BitVec.ofNat 32 (leNat (bs.take 4))),
          (va.setWidth 32 + 4#32, BitVec.ofNat 32 (leNat (bs.drop 4)))]
  | _ =>
    [((va &&& ~~~ 3#64).setWidth 32, BitVec.ofNat 32 (leNat bs * 2 ^ (8 * (va.toNat % 4))))]

/-- The hash after a store. -/
def hashStore (h : BitVec 32) (va : BitVec 64) (bs : List Byte) : BitVec 32 :=
  (hashPieces va bs).foldl (fun h p => h * 33#32 + (p.1 ^^^ p.2)) h

/-! ## Ordered adds (05: R109, 11: R213) -/

/-- Contributions beyond the 256 that each home holds, of this device or of an exporter. -/
def spilled (cs : List Contribution) : Nat :=
  let homes := cs.map fun c => (c.remote, c.home)
  (homes.eraseDups.map fun h => (homes.filter (· == h)).length - 256).foldl (· + ·) 0

/-- A contribution reaches its home; one that finds the spill area full overflows the launch (05: R109). -/
def State.contribute (s : State) (launch : Nat) (c : Contribution) : State :=
  s.modLaunch launch fun l =>
    if l.overflow then l
    else if l.desc.spillBytes / 32 < spilled (l.contributions ++ [c]) then
      { l with overflow := true, contributions := [] }
    else { l with contributions := l.contributions ++ [c] }

/-- An overflow of a launch: every contribution is discarded (05: R109). -/
def State.overflowLaunch (s : State) (launch : Nat) : State :=
  s.modLaunch launch fun l => { l with overflow := true, contributions := [] }

/-! ## The order gate (05: R112, R113, R420) -/

/-- Who makes an access, as scripts and logs name it; a uniform or engine access has no name. -/
structure Accessor where
  /-- Region of the group. -/
  region : Nat
  /-- Group number, lane, ordinal (12: R245). -/
  group : Nat
  lane : Nat
  ordinal : Nat
  /-- Determinism mode of the group since its last refresh point: 2 is record (25: R318, R409). -/
  mode : Nat
  /-- Named: a lane access. -/
  named : Bool
  deriving DecidableEq, Repr

/-- The aligned 8-byte word of an address. -/
def wordOf (pa : Nat) : Nat := pa - pa % 8

/-- Whether a script entry names an access. -/
def ScriptEntry.names (e : ScriptEntry) (w : Nat) (a : Accessor) : Bool :=
  a.named && e.word == w && e.group == a.group && e.lane == a.lane && e.ordinal == a.ordinal

/-- The armed gates that gate the word of an address. -/
def State.gatesOn (s : State) (pa : Nat) : List (Nat × Gate) :=
  s.regions.filterMap fun p =>
    match p.2.gate with
    | none => none
    | some g => if g.words.contains (wordOf pa) then some (p.1, g) else none

/-- Whether a gate's script names an access, for a group of its region's subtree (05: R420). -/
def State.scripted (s : State) (rcb : Nat) (g : Gate) (pa : Nat) (a : Accessor) : Bool :=
  a.named && s.under rcb a.region && g.script.any fun e => e.names (wordOf pa) a

/-- Whether an access is the next one of its word's script. -/
def Gate.isNext (g : Gate) (pa : Nat) (a : Accessor) : Bool :=
  match g.script.find? fun e => e.word == wordOf pa with
  | none => false
  | some e => e.names (wordOf pa) a

/-- Whether some gate holds an access: it is named later (05: R112). -/
def State.gateHolds (s : State) (pa : Nat) (a : Accessor) : Bool :=
  (s.gatesOn pa).any fun p => s.scripted p.1 p.2 pa a && !p.2.isNext pa a

/-- The value of a gate's status word (05: R113). -/
def gateStatus (code unscripted : Nat) : Nat := code * 2 ^ 56 + unscripted % 2 ^ 32

/-- Writes a gate's status and disarms it. -/
def State.disarm (s : State) (rcb code : Nat) : State :=
  match Table.get? s.regions rcb with
  | none => s
  | some r =>
    match r.gate with
    | none => s
    | some g =>
      (s.modRegion rcb fun r => { r with gate := none }).storeNat g.status 8 (gateStatus code g.unscripted)

/-- Removes the first entry that satisfies p. -/
def dropFirst {α : Type} (p : α → Bool) (xs : List α) : List α :=
  match xs with
  | [] => []
  | x :: r => if p x then r else x :: dropFirst p r

/-- The run that an access ends: whether the home's hash of its stores differs from the log's (25: R410). -/
def Gate.diverges (g : Gate) (w : Nat) (e : ScriptEntry) : Bool :=
  match e.run with
  | none => false
  | some (h, stores) =>
    match Table.get? g.runHash w with
    | none => stores
    | some x => !stores || x != h

/-- One gate takes note of a performed access (05: R112): its cursor advances, or the access counts as unscripted. The
flag says that a run ended with a mismatch. -/
def State.gateOne (s : State) (rcb pa : Nat) (a : Accessor) (stored : Option (BitVec 32)) : State × Bool :=
  match (Table.get? s.regions rcb).bind Region.gate with
  | none => (s, false)
  | some g =>
    if s.scripted rcb g pa a && g.isNext pa a then
      let w := wordOf pa
      let g := { g with
        runHash := match stored with
          | none => g.runHash
          | some h => Table.set g.runHash w h }
      match g.script.find? fun e => e.word == w with
      | none => (s, false)
      | some e =>
        let bad := g.diverges w e
        let g := { g with
          script := dropFirst (fun e => e.word == w) g.script
          progressed := s.fresh
          runHash := if e.run.isSome then Table.erase g.runHash w else g.runHash }
        let s := { s.modRegion rcb fun r => { r with gate := some g } with fresh := s.fresh + 1 }
        (if g.script.isEmpty then s.disarm rcb 1 else s, bad)
    else
      (s.modRegion rcb fun r => { r with gate := some { g with unscripted := g.unscripted + 1 } }, false)

/-- The gates take note of a performed access. -/
def State.gateDone (s : State) (pa : Nat) (a : Accessor) (stored : Option (BitVec 32)) : State × Bool :=
  (s.gatesOn pa).foldl (fun x p =>
    let y := x.1.gateOne p.1 pa a stored
    (y.1, x.2 || y.2)) (s, false)

/-! ## Record mode (25: R409, R415) -/

/-- The physical address of an offset in a record log, translated for a write under the recorder's slot. -/
def State.logPa (s : State) (rcb : Nat) (r : Recorder) (off : Nat) : Option Nat :=
  let va := r.log + BitVec.ofNat 64 off
  let w := s.slotWord r.holder r.slot
  if !slotValid w || !inTree va then none
  else
    match walkReach kindWrite (s.walk w va) with
    | .leaf e => some (s.leafPa e va false)
    | .request => none
    | .denied _ => none

/-- Stores a number in the log. -/
def State.logStore (s : State) (rcb : Nat) (r : Recorder) (off n v : Nat) : State :=
  match s.logPa rcb r off with
  | none => s
  | some pa => s.storeNat pa n v

/-- State with a region's recorder replaced. -/
def State.setRecorder (s : State) (rcb : Nat) (r : Option Recorder) : State :=
  s.modRegion rcb fun x => { x with recorder := r }

/-- Ends recording with a status (25: R409). -/
def State.recordStatus (s : State) (rcb : Nat) (r : Recorder) (code : Nat) : State :=
  (s.logStore rcb r 8 8 code).setRecorder rcb (some { r with status := code })

/-- The 32 bytes of a log entry (25: R409). -/
def logEntry (group lane flags word ordinal run : Nat) (hash : BitVec 32) : List Byte :=
  leBytes 4 group ++ leBytes 1 lane ++ leBytes 1 flags ++ leBytes 2 word ++ leBytes 4 ordinal ++ leBytes 2 run
    ++ leBytes 2 0 ++ leBytes 4 hash.toNat ++ leBytes 12 0

/-- Appends an entry; a full buffer, or one that does not translate, ends recording with status 2 (log 12). -/
def State.appendLog (s : State) (rcb : Nat) (r : Recorder) (bytes : List Byte) : State × Recorder :=
  if r.bytes < 64 + 32 * (r.entries + 1) then (s.recordStatus rcb r 2, { r with status := 2 })
  else
    match s.logPa rcb r (64 + 32 * r.entries) with
    | none => (s.recordStatus rcb r 2, { r with status := 2 })
    | some pa =>
      let r' := { r with entries := r.entries + 1 }
      (((s.deviceStore pa bytes).logStore rcb r 0 8 r'.entries).setRecorder rcb (some r'), r')

/-- One recorder logs an access to a watched word (25: R409, R415). -/
def State.recordOne (s : State) (rcb : Nat) (r : Recorder) (idx : Nat) (a : Accessor) (stored : Option (BitVec 32)) :
    State :=
  if 2 ^ 27 ≤ a.ordinal then s.recordStatus rcb r 2
  else
    let joins := match Table.get? r.open_ idx with
      | some (e, grp, lane, next, run) =>
        if grp = a.group && lane = a.lane && next = a.ordinal && run < 65535 then some (e, run) else none
      | none => none
    match joins with
    | some (e, run) =>
      let off := 64 + 32 * e
      let s := s.logStore rcb r (off + 12) 2 (run + 1)
      let s := match stored with
        | none => s
        | some h => (s.logStore rcb r (off + 5) 1 1).logStore rcb r (off + 16) 4 h.toNat
      s.setRecorder rcb (some { r with open_ := Table.set r.open_ idx (e, a.group, a.lane, a.ordinal + 1, run + 1) })
    | none =>
      let x := s.appendLog rcb r (logEntry a.group a.lane stored.isSome.toNat idx a.ordinal 1 (stored.getD 0))
      if x.2.status = 0 then
        x.1.setRecorder rcb (some { x.2 with
          open_ := Table.set r.open_ idx (r.entries, a.group, a.lane, a.ordinal + 1, 1) })
      else x.1

/-- An access to a word that a recorder does not log closes the word's open run (25: R409: no other access has come
between). -/
def Recorder.closeRun (r : Recorder) (pa : Nat) : Recorder :=
  { r with open_ := r.open_.filter fun e => r.watch.getD e.1 0 != wordOf pa }

/-- The recorders that do not log an access close the open run of its word. -/
def State.closeRuns (s : State) (pa : Nat) (a : Accessor) : State :=
  { s with regions := s.regions.map fun p =>
    match p.2.recorder with
    | none => p
    | some r => if a.named && a.mode == 2 && s.under p.1 a.region then p else (p.1, { p.2 with recorder := some (r.closeRun pa) }) }

/-- Every recorder whose subtree holds the group logs a lane access to a watched word, of a group that is in record mode since a
refresh point (25: R318, R409). -/
def State.recordAccess (s : State) (pa : Nat) (a : Accessor) (stored : Option (BitVec 32)) : State :=
  if !(a.named && a.mode == 2) then s
  else
    (s.regions.filter fun p => p.2.recorder.isSome && s.under p.1 a.region).foldl (fun s p =>
      match (Table.get? s.regions p.1).bind Region.recorder with
      | none => s
      | some r =>
        match (List.range r.watch.length).find? fun i => r.watch.getD i 0 == wordOf pa && r.status == 0 with
        | none => s
        | some i => s.recordOne p.1 r i a stored) s

/-- Gate and record take note of a performed access; the flag says that a run ended with a mismatch. -/
def State.homeNote (s : State) (pa : Nat) (a : Accessor) (stored : Option (BitVec 32)) : State × Bool :=
  ((s.closeRuns pa a).recordAccess pa a stored).gateDone pa a stored

/-- An access by an engine, the host or a uniform word has no name in scripts (05: R112, 17: R304). -/
def Accessor.anonymous : Accessor where
  region := 0
  group := 0
  lane := 0
  ordinal := 0
  mode := 0
  named := false

/-- Accesses that scripts do not name are made to n bytes: counted unscripted on a gated word, and between two accesses of a watched one (05:
R112; 25: R409). DESIGN CHOICE (log 72): one access counts once for each aligned 8-byte word that it meets. -/
def State.noteBytes (s : State) (pa n : Nat) : State :=
  (((List.range n).map fun i => wordOf (pa + i)).eraseDups).foldl (fun s w => (s.homeNote w Accessor.anonymous none).1) s

/-- A store by an engine, the control die or an agent outside: performed at once at its home, and noted there; or its home answers with an error
response, and nothing is written (05: R98, R112; 23: R383 to R386). -/
def State.engineStore (s : State) (pa : Nat) (bs : List Byte) : State :=
  match s.spoilt pa bs.length true with
  | none => (s.storeBytes pa bs).noteBytes pa bs.length
  | some _ => s.deviceStore pa bs

end Sys2Proof.Machine
end

