-- ==== Sys2Proof/Machine/Access.lean ====
section
/-!
DEFINITION. The accesses of memory words in flight: when one may be performed, what performing does, how values land and
operations finish (04: R79 to R95, 11: R206 to R213).
-/

namespace Sys2Proof.Machine

/-- The lane number that stands for the one access of sld and sst. -/
def uniformLane : Nat := 32

/-- Whether an operation is an sld or sst. -/
def MemOp.uniform (o : MemOp) : Bool := o.accs.any fun a => a.lane == uniformLane

/-- Whether a translation is complete. -/
def AccState.known (a : AccState) : Bool :=
  match a with
  | .miss => false
  | .wait _ => false
  | .answered _ => false
  | .leaf _ => true
  | .direct _ => true
  | .peer _ => true
  | .failed _ => true

/-- Whether an access has failed. -/
def AccState.isFailed (a : AccState) : Bool :=
  match a with
  | .failed _ => true
  | .miss => false
  | .wait _ => false
  | .answered _ => false
  | .leaf _ => false
  | .direct _ => false
  | .peer _ => false

/-- An access that has nothing left to do: performed or failed. -/
def LaneAcc.over (a : LaneAcc) : Bool := a.done || a.st.isFailed

/-- The physical address of a translated access to the visible frame. -/
def State.accPa (s : State) (a : LaneAcc) : Option Nat :=
  match a.st with
  | .leaf e => some (s.leafPa e a.va false)
  | .direct pa => some pa
  | .miss => none
  | .wait _ => none
  | .answered _ => none
  | .peer _ => none
  | .failed _ => none

/-- Whether two accesses overlap: by physical bytes when both are translated to this device, at one device by its addresses, through
two import slots of one device always, since the exporter places them; by virtual bytes otherwise (log 13). -/
def State.meets (s : State) (a b : LaneAcc) : Bool :=
  let virtual := rangesMeet a.va.toNat a.size b.va.toNat b.size
  match s.accPa a, s.accPa b with
  | some x, some y => rangesMeet x a.size y b.size
  | _, _ =>
    match a.st, b.st with
    | .peer i, .peer j => if i = j then virtual else s.importDevice i == s.importDevice j
    | _, _ => virtual

/-- An access with the translation that its page has now under a slot, when there is one. -/
def State.foreseeAt (s : State) (g : Group) (o : MemOp) (slot : Nat) (a : LaneAcc) : LaneAcc :=
  let w := s.slotWord g.view.holder slot
  if !slotValid w then a
  else
    match walkReach o.kind.access (s.walk w a.va) with
    | .leaf e => { a with st := .leaf e }
    | .request => a
    | .denied _ => a

/-- An access of an operation as it will be translated while a walk for it is on its way: the bytes that it overlaps do not hang on when
the walk ends (04: R81; 02: R58). -/
def State.foresee (s : State) (g : Group) (o : MemOp) (a : LaneAcc) : LaneAcc :=
  match a.st with
  | .miss => s.foreseeAt g o o.slot a
  | .answered n => s.foreseeAt g o n a
  | .wait _ => a
  | .leaf _ => a
  | .direct _ => a
  | .peer _ => a
  | .failed _ => a

/-- Whether every access of an operation is translated: until then none is performed (03: R75). -/
def MemOp.ready (o : MemOp) : Bool := o.accs.all fun a => a.st.known

/-! ## Scopes (04: R89 to R92; 05: R97, R100, R101) -/

/-- An agent, as scopes count it: a group, an engine at work for a gang on a core, the walker slot of a core, the control die, the host die,
a sharer of a CXL window outside the device, a group of a peer (04: R89, 05: R97, R101). -/
inductive Agent where
  | group (k : Nat)
  | engine (gang core : Nat)
  | walker (core : Nat)
  | control
  | host
  | sharer
  | peer
  deriving DecidableEq, Repr

/-- The engines that work for a group. -/
def Group.engines (g : Group) : Agent := .engine g.id.gang g.ctl.core

/-- Whether a scope covers the whole device: every agent of its compute dies and its control die (04: R89, R90). -/
def Scope.wholeDevice (c : Scope) : Bool := c == .device || c == .host || c == .pool || c == .peer || c == .system

/-- Whether a core lies in the instance of a scope for a group, for the scopes that are reckoned by place (04: R89). -/
def Group.nearCore (g : Group) (c : Scope) (core : Nat) : Bool :=
  match c with
  | .thread => false
  | .group => false
  | .wg => false
  | .core => core == g.ctl.core
  | .gang => false
  | .cluster => core / 4 == g.ctl.core / 4
  | .die => core / 4 / Config.clustersPerDie == g.ctl.core / 4 / Config.clustersPerDie
  | .device => true
  | .host => true
  | .pool => true
  | .peer => true
  | .system => true

/-- Whether an agent other than the group lies in the instance of a scope, judged on the cores that groups occupy now (04: R89). The host die,
a sharer and a peer lie in a scope of their own each, and in system (04: R90). -/
def State.inInstance (s : State) (k : Nat) (g : Group) (c : Scope) (a : Agent) : Bool :=
  match a with
  | .group j => j != k && ((Table.get? s.groups j).map fun x =>
      g.nearCore c x.ctl.core || (!x.id.walker && x.id.gang == g.id.gang && (c == .gang || (c == .wg && x.id.wg == g.id.wg)))).getD false
  | .engine gang core => (c == .gang && gang == g.id.gang) || (c != .core && g.nearCore c core)
  | .walker core => g.nearCore c core
  | .control => Scope.wholeDevice c
  | .host => c == .host || c == .system
  | .sharer => c == .pool || c == .system
  | .peer => c == .peer || c == .system

/-- Whether an agent is another group of the core, or its walker slot: towards these the core keeps every order but that of a store before a
load of other bytes (04: R87). -/
def State.onSameCore (s : State) (k : Nat) (g : Group) (a : Agent) : Bool :=
  match a with
  | .group j => j != k && ((Table.get? s.groups j).map fun x => x.ctl.core == g.ctl.core).getD false
  | .walker core => core == g.ctl.core
  | .engine _ _ => false
  | .control => false
  | .host => false
  | .sharer => false
  | .peer => false

/-- Whether a scope reaches agents beyond the group: a full fence then keeps a store before a later load (04: R87, R92). -/
def Scope.orders (c : Scope) : Bool := !(c == .thread || c == .group)

/-- Whether a scope reaches agents beyond the group's core. Towards the groups of the core R87 keeps every order but that of a store
before a load whatever the scope (04: R87, R90), and a workgroup stands on one core. -/
def Scope.beyondCore (c : Scope) : Bool := !(c == .thread || c == .group || c == .wg || c == .core)

/-- Whether a release at a scope waits for stores through the import window (05: R100). -/
def Scope.imports (c : Scope) : Bool := c == .host || c == .pool || c == .peer || c == .system

/-- Whether an operation is an acquire or an acquiring fence, at whatever scope (04: R91, R92). -/
def MemOp.isAcquire (o : MemOp) : Bool :=
  match o.kind with
  | .fence .full => true
  | .fence .acq => true
  | .fence .rel => false
  | .load _ _ => o.ord == .acq
  | .atom _ _ => o.ord == .acq || o.ord == .acqrel
  | .cas _ => o.ord == .acq || o.ord == .acqrel
  | .store _ => false
  | .fadd _ => false
  | .ldk => false

/-- Whether an operation is an acquire, whose later accesses wait until it is complete (04: R95, 05: R100). Within a core an acquire keeps what
R87 keeps, and a full fence more. -/
def MemOp.acquires (o : MemOp) : Bool :=
  o.isAcquire && (if o.kind == .fence .full then Scope.orders o.scope else Scope.beyondCore o.scope)

/-- Whether an operation is a fence that keeps later stores behind earlier accesses (04: R92). -/
def MemOp.releaseFence (o : MemOp) : Bool :=
  match o.kind with
  | .fence k => Scope.beyondCore o.scope && k != .acq
  | .load _ _ => false
  | .atom _ _ => false
  | .cas _ => false
  | .store _ => false
  | .fadd _ => false
  | .ldk => false

/-- Whether an operation is itself a release (04: R91). -/
def MemOp.releases (o : MemOp) : Bool :=
  o.kind.writes && Scope.beyondCore o.scope && (o.ord == .rel || o.ord == .acqrel)

/-- The operations of a group older than a position. -/
def Group.before (g : Group) (seq : Nat) : List MemOp := g.fl.ops.filter fun o => decide (o.seq < seq)

/-- Whether an access goes to a peer. -/
def AccState.isPeer (a : AccState) : Bool :=
  match a with
  | .peer _ => true
  | .miss => false
  | .wait _ => false
  | .answered _ => false
  | .leaf _ => false
  | .direct _ => false
  | .failed _ => false

/-- Whether a release at a scope and a position waits for an earlier store of the group that is not performed (05: R100). -/
def Group.awaits (g : Group) (c : Scope) (seq : Nat) : Bool :=
  (g.before seq).any fun o => o.kind.writes && o.accs.any fun a => !a.over && (Scope.imports c || !a.st.isPeer)

/-- Whether a fence has done its part: acquire waits for earlier loads, the others for all earlier accesses (04: R92, 05: R100). -/
def Group.fenceMet (g : Group) (o : MemOp) : Bool :=
  match o.kind with
  | .fence .acq => !(g.before o.seq).any fun x => x.kind.reads
  | .fence _ => !((g.before o.seq).any fun x => x.kind.reads) && !g.awaits o.scope o.seq
  | .load _ _ => true
  | .atom _ _ => true
  | .cas _ => true
  | .store _ => true
  | .fadd _ => true
  | .ldk => true

/-- Fences that have done their part are removed. -/
def Group.tidy (g : Group) : Group := g.setOps (g.fl.ops.filter fun o => !(o.isFence && g.fenceMet o))

/-- Whether a command is a recorded weight-buffer load that a resumption has reissued; no word issued it (01: R37). -/
def EngCmd.isReload (c : EngCmd) : Bool := c.word == 0#32

/-- The commands that words of a group have issued. -/
def Group.issued (g : Group) : List EngCmd := g.fl.cmds.filter fun c => !c.isReload

/-- Whether an engine command is an acquiring read of a write pointer, which holds the group's later accesses until it completes,
at every scope (13: R257). -/
def EngCmd.acquires (c : EngCmd) : Bool :=
  match c.ins with
  | .chwp _ _ _ _ acq => acq
  | _ => false

/-- Whether a scope reaches beyond the device, where a release and an acquire hold what follows them for every agent (05: R100). -/
def Scope.beyondDevice (c : Scope) : Bool := c == .host || c == .pool || c == .peer || c == .system

/-- Whether a position is held for every agent behind an earlier acquire, release or fence at a scope beyond the device: behind an acquire
until it is complete, behind a release until every earlier store is performed (05: R100). -/
def Group.heldWide (g : Group) (seq : Nat) : Bool :=
  (g.before seq).any fun o => Scope.beyondDevice o.scope &&
    ((o.acquires && !(o.isFence && g.fenceMet o)) || ((o.releases || o.releaseFence) && g.awaits o.scope o.seq))

/-- Whether a position is held behind an earlier PUBL or acquiring chwp of the group, which hold for every agent (05: R106, 13: R257). -/
def Group.heldByCommand (g : Group) (seq : Nat) : Bool :=
  (match g.fl.publ with
    | none => false
    | some q => decide (q < seq))
    || g.fl.cmds.any fun c => decide (c.seq < seq) && c.acquires

/-- Whether a position is held behind an earlier PUBL, acquiring chwp or rootsw of the group, which hold for every agent (05: R106,
13: R257, 22: R375). -/
def Group.heldHard (g : Group) (seq : Nat) : Bool := g.heldByCommand seq || g.fl.roots.any fun r => decide (r.seq < seq)

/-- The scopes of the earlier acquires and fences that are not complete, for whose instances a later read is held (04: R95). -/
def Group.heldScopes (g : Group) (seq : Nat) : List Scope :=
  ((g.before seq).filter fun o => o.acquires && !(o.isFence && g.fenceMet o)).map MemOp.scope

/-- Whether a position is held behind an earlier acquire, release, fence, PUBL, chwp or rootsw of the group (04: R95, 05: R100). -/
def Group.heldBehind (g : Group) (seq : Nat) : Bool := !(g.heldScopes seq).isEmpty || g.heldHard seq || g.heldWide seq

/-- The releases that keep earlier stores of the group before a store: itself and the earlier fences, each with its scope, of which some
store is not performed (04: R92, R95). -/
def Group.relHolds (g : Group) (o : MemOp) : List (Scope × Nat) :=
  ((o :: g.before o.seq).filter fun x => (x.releaseFence || (x.seq == o.seq && x.releases)) && g.awaits x.scope x.seq).map
    fun x => (x.scope, x.seq)

/-! ## When an access may be performed -/

/-- The last access of an operation, by its place, that gives a physical address a byte (04: R83). -/
def State.queuedByte (s : State) (o : MemOp) (pa : Nat) : Option (Nat × Byte) :=
  ((List.range o.accs.length).filterMap fun i =>
    match o.accs[i]? with
    | none => none
    | some b =>
      if b.over then none
      else
        match s.accPa b with
        | none => none
        | some x => if x ≤ pa && pa < x + b.size then some (i, b.data.extractLsb' (8 * (pa - x)) 8) else none).getLast?

/-- The youngest older store of a group still in its queue that covers a byte: its position, the place of the access, and the byte (04:
R81). -/
def State.queuedFor (s : State) (g : Group) (seq pa : Nat) : Option (Nat × Nat × Byte) :=
  ((g.before seq).filterMap fun o =>
    match o.kind with
    | .store _ => if o.queue == .queued then (s.queuedByte o pa).map fun x => (o.seq, x) else none
    | .load _ _ => none
    | .atom _ _ => none
    | .cas _ => none
    | .fadd _ => none
    | .ldk => none
    | .fence _ => none).getLast?

/-- Whether a read of n bytes would take some from one store of the queue and some from another, or from memory. Such a read waits until
those stores are performed, since no position in the bytes' coherence orders would give them all (04: R82; log 13). -/
def State.mixes (s : State) (g : Group) (seq pa n : Nat) : Bool :=
  let from_ := (List.range n).map fun i => (s.queuedFor g seq (pa + i)).map fun x => (x.1, x.2.1)
  from_.any fun x => x != from_.headD none

/-- Whether an older access of the group blocks a read: it overlaps and is not over, unless it is a store without a log entry that still
stands in the queue; one with a log entry blocks until it is complete (04: R81, R82, R84, R85, 02: R58). -/
def State.readBlocked (s : State) (g : Group) (seq : Nat) (a : LaneAcc) : Bool :=
  ((s.accPa a).map fun pa => s.mixes g seq pa a.size).getD false || (g.before seq).any fun o => o.accs.any fun b =>
    !b.st.isFailed && (!b.over || (o.log.isSome && o.kind.reads)) && s.meets a (s.foresee g o b) &&
      !(o.queue == .queued && b.st.known && o.log.isNone && (match o.kind with
        | .store _ => true
        | .fadd _ => true
        | .load _ _ => false
        | .atom _ _ => false
        | .cas _ => false
        | .ldk => false
        | .fence _ => false))

/-- The outbound operations of a core, in entry order (04: R86). -/
def State.outbound (s : State) (core : Nat) : List (Nat × MemOp) :=
  (s.core core).out.filterMap fun e =>
    match Table.get? s.groups e.1 with
    | none => none
    | some g => (g.fl.ops.find? fun o => o.seq == e.2).map fun o => (e.1, o)

/-- Whether a store of another group of the core in the outbound path blocks a read (04: R86). -/
def State.pathBlocked (s : State) (core k : Nat) (a : LaneAcc) : Bool :=
  (s.outbound core).any fun e => e.1 != k && e.2.accs.any fun b => !b.over && s.meets a b

/-- The entries of the outbound path before an operation. -/
def State.entriesBefore (s : State) (core k seq : Nat) : List (Nat × MemOp) :=
  (s.outbound core).takeWhile fun e => !(e.1 == k && e.2.seq == seq)

/-- Whether an access in the outbound path waits for an earlier entry that overlaps (04: R86). -/
def State.entryBlocked (s : State) (core k seq : Nat) (a : LaneAcc) : Bool :=
  (s.entriesBefore core k seq).any fun e => e.2.accs.any fun b => !b.over && s.meets a b

/-- Whether a store in the outbound path is held at its home behind an earlier store of another group of the core, which a
script holds there; p picks the words of that store (17: R306). -/
def State.behindHeld (s : State) (p : Nat → Bool) (core k seq : Nat) (a : LaneAcc) : Bool :=
  (s.entriesBefore core k seq).any fun e => e.1 != k && e.2.accs.any fun b =>
    !b.over && b.held.isSome && b.judged && (match s.accPa a, s.accPa b with
      | some x, some y => s.homeOf x == s.homeOf y && p (wordOf y)
      | _, _ => false)

/-! ## Accesses performed early (04: R90, R95) -/

/-- Whether an entry still keeps its bytes from the agents of its instance: one of a store until the earlier stores are performed, one of a read
until the acquire or fence is complete. -/
def State.earlyStands (s : State) (e : Early) : Bool :=
  match Table.get? s.groups e.grp with
  | none => false
  | some g =>
    if e.write then g.awaits e.scope e.seq
    else g.fl.ops.any fun o => o.seq == e.seq && !(o.isFence && g.fenceMet o)

/-- Where an access is performed, once it is translated. -/
def State.spotOf (s : State) (a : LaneAcc) : Option Spot :=
  match s.accPa a with
  | some pa => some (.home pa)
  | none =>
    match a.st with
    | .peer slot => some (.peer (s.importDevice slot))
    | .miss => none
    | .wait _ => none
    | .leaf _ => none
    | .direct _ => none
    | .answered _ => none
    | .failed _ => none

/-- Whether n bytes at a place meet those of an entry; those of a peer are not told apart. -/
def Early.meets (e : Early) (x : Spot) (n : Nat) : Bool :=
  match e.spot, x with
  | .home p, .home q => rangesMeet p e.size q n
  | .peer a, .peer b => a == b
  | .home _, .peer _ => false
  | .peer _, .home _ => false

/-- Whether an access performed early keeps an agent from n bytes. An early store keeps the agents of its instance from them, and the other
groups of its core, towards which every two stores keep their order (04: R87, R94); an early read keeps the writes of the agents of its
instance from them, but those of its core, for which R86 performs it again. -/
def State.earlyBlocks (s : State) (a : Agent) (write : Bool) (x : Spot) (n : Nat) : Bool :=
  s.early.any fun e => e.meets x n &&
    (match Table.get? s.groups e.grp with
      | none => false
      | some g =>
        let near := s.onSameCore e.grp g a
        if e.write then near || s.inInstance e.grp g e.scope a else write && !near && s.inInstance e.grp g e.scope a)

/-- Whether a store performed early is kept from the walker of a core, which then starts no walk until the store's turn has come: the walker of an
agent of its instance, or of its core. -/
def State.walkerHeld (s : State) (core : Nat) : Bool :=
  s.early.any fun e => e.write &&
    (match Table.get? s.groups e.grp with
      | none => false
      | some g => s.onSameCore e.grp g (.walker core) || s.inInstance e.grp g e.scope (.walker core))

/-- Whether early accesses keep an access of a group from its bytes. -/
def State.accBlocked (s : State) (k : Nat) (write : Bool) (a : LaneAcc) : Bool :=
  ((s.spotOf a).map fun x => s.earlyBlocks (.group k) write x a.size).getD false

/-- Whether an access of a group on its way hangs on nothing that an early access of the group could keep back: it is translated, it has left
the queue if it writes, no entry of the path before it meets it, and no early access keeps it from its bytes. -/
def State.freeToGo (s : State) (k : Nat) (g : Group) (o : MemOp) (b : LaneAcc) : Bool :=
  b.st.known && !s.accBlocked k o.kind.writes b &&
    (if o.kind.writes then o.queue == .outbound && !s.entryBlocked g.ctl.core k o.seq b else o.kind != .ldk && !s.pathBlocked g.ctl.core k b)

/-- Whether an access may be performed early with an entry that keeps agents from its bytes: every earlier access of the group that is not over
is free to go, so that the entry ends by itself, and none of the agents to be kept is a peer's at its own bytes. -/
def State.mayBeEarly (s : State) (k : Nat) (g : Group) (o : MemOp) (a : LaneAcc) (scopes : List Scope) : Bool :=
  !(a.st.isPeer && scopes.any fun c => s.inInstance k g c .peer) &&
    (g.before o.seq).all fun x => x.accs.all fun b => b.over || s.freeToGo k g x b

/-- Whether a gate or a recorder takes note of the accesses to a word (05: R112, 25: R409). -/
def State.noted (s : State) (pa : Nat) : Bool :=
  !(s.gatesOn pa).isEmpty || s.regions.any fun p =>
    match p.2.recorder with
    | none => false
    | some r => r.status == 0 && r.watch.contains (wordOf pa)

/-- The orders before an access that an early performance must keep for the agents that they reach: scope and position. For a read it is
asked only of a noted word; elsewhere a read is performed again when such an agent changes its bytes (State.redoEarly). -/
def State.earlyOrders (s : State) (g : Group) (o : MemOp) (a : LaneAcc) : List (Scope × Nat) :=
  if o.kind.writes then g.relHolds o
  else if ((s.accPa a).map s.noted).getD false then
    ((g.before o.seq).filter fun x => x.acquires && !(x.isFence && g.fenceMet x)).map fun x => (x.scope, x.seq)
  else []

/-- Notes an access that is performed before its turn. -/
def State.noteEarly (s : State) (k : Nat) (g : Group) (o : MemOp) (a : LaneAcc) : State :=
  match s.spotOf a with
  | none => s
  | some x =>
    { s with early := s.early ++ (s.earlyOrders g o a).map fun r =>
        { grp := k, seq := r.2, scope := r.1, spot := x, size := a.size, write := o.kind.writes } }

/-- Whether an earlier lane of the same instruction comes first: one that overlaps (04: R79, R83). -/
def State.laneBlocked (s : State) (o : MemOp) (idx : Nat) (a : LaneAcc) : Bool :=
  (o.accs.take idx).any fun b => !b.over && s.meets a b

/-- The offsets of the reads of an LDK lane, as the accesses of its operation name them: the meta half M1, the data half D1, the pair of
elements, the frequency, and the meta half again, M2 (11: R218, R219). -/
def kvMeta : Nat := 0
def kvData : Nat := 8
def kvPair : Nat := 16
def kvFreq : Nat := 24
def kvAgain : Nat := 32

/-- Whether an access of an LDK reads the pair of elements. -/
def LaneAcc.isPair (a : LaneAcc) : Bool := decide (kvPair ≤ a.off) && decide (a.off < kvFreq)

/-- Whether a read of an LDK lane comes after another: M1, D1 and M2 in this order (11: R219). -/
def kvAfter (a b : LaneAcc) : Bool :=
  (decide (kvData ≤ a.off) && decide (a.off < kvPair) && decide (b.off < kvData))
    || (decide (kvAgain ≤ a.off) && decide (b.off < kvPair))

/-- Whether the order among the reads of an LDK lane lets an access go: a pair at a peer also waits for the group's earlier stores
through the import window (11: R218, R219). -/
def Group.kvTurn (g : Group) (o : MemOp) (a : LaneAcc) : Bool :=
  o.kind != .ldk ||
    ((o.accs.all fun b => b.lane != a.lane || b.over || !kvAfter a b)
      && !(a.isPair && a.st.isPeer && (g.before o.seq).any fun x => x.kind.writes && x.accs.any fun b => !b.over && b.st.isPeer))

/-- Whether nothing but the shares of its region holds an access for every agent. -/
def State.mayGo (s : State) (k : Nat) (g : Group) (o : MemOp) (idx : Nat) (a : LaneAcc) : Bool :=
  o.ready && !a.over && g.kvTurn o a && !g.heldHard o.seq && !g.heldWide o.seq && (g.ctl.act != .parked || o.queue == .outbound)
    && !s.accBlocked k o.kind.writes a &&
    (if o.kind.writes then
      o.queue == .outbound && !s.entryBlocked g.ctl.core k o.seq a && !s.laneBlocked o idx a
        && !((g.before o.seq).any fun x => x.accs.any fun b => !b.over && s.meets a b)
    else !s.readBlocked g o.seq a && !s.pathBlocked g.ctl.core k a)

/-! ## Shares (01: R31) -/

/-- The use that a subtree has made of something in the current window. -/
def State.subtreeUse (s : State) (get : Region → Nat) (top : Nat) : Nat :=
  ((s.regions.filter fun p => s.under top p.1).map fun p => get p.2).foldl (· + ·) 0

/-- Whether one of the shares that bind a group is used up, of a capacity in the current window. DESIGN CHOICE (log 74): a share of
256/256 is the whole and is never used up. -/
def State.shareUsed (s : State) (shares : List (Nat × Nat)) (get : Region → Nat) (capacity : Nat) : Bool :=
  shares.any fun b => decide (b.2 < 256) && decide (b.2 * capacity ≤ 256 * s.subtreeUse get b.1)

/-- The bytes that a region has moved through all CXL ports in the current window. -/
def Region.cxlBytes (r : Region) : Nat := r.cxlUse.vals.foldl (· + ·) 0

/-- A region has moved n bytes through a CXL port. -/
def Region.useCxl (r : Region) (port n : Nat) : Region := { r with cxlUse := Table.put 0 r.cxlUse port (Table.getD r.cxlUse port 0 + n) }

/-- Whether the region of a group has used its CXL bandwidth share, at the values in force since the group's last refresh point (01:
R30). -/
def State.cxlUsed (s : State) (g : Group) : Bool := s.shareUsed g.view.cxlShares Region.cxlBytes Config.cxlWindowBytes

/-- Whether another region, which has not used its share, has a request of a lane waiting at the CXL port of an address. -/
def State.cxlWaiting (s : State) (g : Group) (pa : Nat) : Bool :=
  s.groups.any fun p => s.regionOf p.2 != s.regionOf g && !s.cxlUsed p.2 && p.2.fl.ops.any fun o =>
    (List.range o.accs.length).any fun i =>
      match o.accs[i]? with
      | none => false
      | some a =>
        match s.accPa a with
        | none => false
        | some x => s.inCxl x && s.cxlPortOf x == s.cxlPortOf pa && a.held.isNone && s.mayGo p.1 p.2 o i a
            && (p.2.heldScopes o.seq).isEmpty && (!o.kind.writes || (p.2.relHolds o).isEmpty)

/-- Whether a request of a group at a CXL port queues behind those of lanes of other regions; those of engines: State.engineBehind. -/
def State.cxlBehind (s : State) (g : Group) (pa : Nat) : Bool := s.inCxl pa && s.cxlUsed g && s.cxlWaiting g pa

/-- What holds an access for every agent. -/
def State.mayReach (s : State) (k : Nat) (g : Group) (o : MemOp) (idx : Nat) (a : LaneAcc) : Bool :=
  s.mayGo k g o idx a && !(((s.accPa a).map (s.cxlBehind g)).getD false)

/-- Whether an access may be performed now for every agent: no earlier acquire, fence or release stands before it either. -/
def State.mayPerform (s : State) (k : Nat) (g : Group) (o : MemOp) (idx : Nat) (a : LaneAcc) : Bool :=
  s.mayReach k g o idx a && (g.heldScopes o.seq).isEmpty && (!o.kind.writes || (g.relHolds o).isEmpty)

/-- Whether an access may be performed now, before its turn for agents that the acquires, fences and releases before it do not reach
(04: R90, R95): a read is performed again when an agent that they reach changes its bytes meanwhile (State.redoEarly); a write, and a read
of a noted word, keep their bytes from the agents that they reach (State.noteEarly). -/
def State.mayPerformEarly (s : State) (k : Nat) (g : Group) (o : MemOp) (idx : Nat) (a : LaneAcc) : Bool :=
  s.mayReach k g o idx a && ((s.earlyOrders g o a).isEmpty || s.mayBeEarly k g o a ((s.earlyOrders g o a).map Prod.fst))

/-! ## Reading -/

/-- The byte a load of a group takes: from the youngest older store still in its queue, else from memory (04: R81). -/
def State.loadByte (s : State) (g : Group) (seq pa : Nat) : Byte :=
  match s.queuedFor g seq pa with
  | some x => x.2.2
  | none => s.mem.byte pa

/-- The value a load of n bytes takes (04: R81, R82). -/
def State.loadValue (s : State) (g : Group) (seq pa n : Nat) : BitVec 64 :=
  BitVec.ofNat 64 (leNat ((List.range n).map fun i => s.loadByte g seq (pa + i)))

/-! ## Performing -/

/-- The name of a lane access for scripts and logs. -/
def State.accessor (s : State) (g : Group) (a : LaneAcc) : Accessor where
  region := s.regionOf g
  group := s.groupNumber g
  lane := a.lane
  ordinal := a.ordinal
  mode := g.view.determinism
  named := a.lane != uniformLane && decide (s.groupNumber g < 2 ^ 32)

/-- Replaces the access at a place of an operation. -/
def State.setAcc (s : State) (k seq idx : Nat) (a : LaneAcc) : State :=
  s.modGroup k fun g => g.setOps (g.fl.ops.map fun o =>
    if o.seq = seq then { o with accs := o.accs.set idx a } else o)

/-- The store hash of a group when the piece of an access, and every one before it, has been added (25: R408, R410). -/
def hashAt (h : BitVec 32) (ps : List HashPiece) (seq lane off : Nat) : BitVec 32 :=
  match ps with
  | [] => h
  | p :: r =>
    let h := if p.bytes.isEmpty then h else hashStore h p.va p.bytes
    if p.seq = seq && p.lane = lane && p.off = off then h else hashAt h r seq lane off

/-- The pieces that have been performed, with every one before them, go into the hash (25: R408). -/
def foldHash (h : BitVec 32) (ps : List HashPiece) : BitVec 32 × List HashPiece :=
  match ps with
  | [] => (h, [])
  | p :: r => if p.done then foldHash (if p.bytes.isEmpty then h else hashStore h p.va p.bytes) r else (h, p :: r)

/-- The pieces of a group with that of an access performed: it wrote these bytes. -/
def Group.hashMark (g : Group) (seq lane off : Nat) (bytes : List Byte) : List HashPiece :=
  g.fl.hashing.map fun p => if p.seq = seq && p.lane = lane && p.off = off then { p with bytes := bytes, done := true } else p

/-- The piece of an access has been performed, and wrote these bytes. -/
def Group.hashDone (g : Group) (seq lane off : Nat) (bytes : List Byte) : Group :=
  let x := foldHash g.fl.hash (g.hashMark seq lane off bytes)
  { g with fl := { g.fl with hash := x.1, hashing := x.2 } }

/-- A lane of an operation has failed: it adds nothing to the hash. -/
def Group.hashFailed (g : Group) (seq lane : Nat) : Group :=
  let x := foldHash g.fl.hash (g.fl.hashing.filter fun p => !(p.seq == seq && p.lane == lane))
  { g with fl := { g.fl with hash := x.1, hashing := x.2 } }

/-- The value an access writes at its home, when it writes; old is what it reads there. -/
def LaneAcc.writes (a : LaneAcc) (kind : MemKind) (old : BitVec 64) : Option (BitVec 64) :=
  match kind with
  | .load _ _ => none
  | .store _ => some a.data
  | .atom op n => some (op.apply n old a.data)
  | .cas _ => if old = a.cmp then some a.data else none
  | .fadd _ => none
  | .ldk => none
  | .fence _ => none

/-- DIVERGE on the group whose access ended a run with a mismatch (26: R417). -/
def divergeTrap (o : MemOp) (a : LaneAcc) : TrapReq where
  code := codeDiverge
  pc := o.pc
  ret := 0
  word := o.word
  mask := o.set
  failed := 0
  info := BitVec.ofNat 32 a.lane
  addr := a.va &&& ~~~ 7#64
  imm := 0
  cur := 0
  rank := 100

/-- A contribution of an access reaches the home that holds it (05: R109). -/
def State.contributeAcc (s : State) (g : Group) (o : MemOp) (a : LaneAcc) (pa home : Nat) (remote : Option Nat) : State :=
  match o.kind with
  | .fadd f64 => s.contribute g.id.launch
      { pa, home, remote, f64, wgid := s.workgroupId g, thread := g.id.grpid * 32 + a.lane, ordinal := a.cmp.toNat, data := a.data }
  | .load _ _ => s
  | .store _ => s
  | .atom _ _ => s
  | .cas _ => s
  | .ldk => s
  | .fence _ => s

/-- The bytes that an access moves to and from a CXL window are counted, for the shares and for the partition (01: R31, 24: R398). -/
def State.countCxl (s : State) (g : Group) (pa n : Nat) (reads writes : Bool) : State :=
  if !s.inCxl pa then s
  else
    let s := s.modRegion (s.regionOf g) fun r => r.useCxl (s.cxlPortOf pa) n
    let s := if reads then s.tally g.view.partition 0x0E n else s
    if writes then s.tally g.view.partition 0x0F n else s

/-- An access is performed at a home of this device (04: R80, R82): the store hash goes with it, and a run that it ends with a mismatch comes
back with its answer (25: R410, 26: R417). -/
def State.performHome (s : State) (k : Nat) (g : Group) (o : MemOp) (idx : Nat) (a : LaneAcc) (pa : Nat) : State :=
  let old := if o.kind.writes then s.mem.nat pa a.size else (s.loadValue g o.seq pa a.size).toNat
  let old := BitVec.ofNat 64 old
  let w := a.writes o.kind old
  let bytes := (w.map fun v => leBytes a.size v.toNat).getD []
  let s := s.noteEarly k g o a
  let s := s.modGroup k fun g => g.hashDone o.seq a.lane a.off bytes
  let s := if w.isSome then s.storeBytes pa bytes else s
  let s := (s.contributeAcc g o a pa (s.homeOf pa) none).countCxl g pa a.size o.kind.reads w.isSome
  let a' := { a with done := true, val := old, held := none, judged := true }
  if a.judged && !o.kind.writes && a.held.isNone then s.setAcc k o.seq idx a'
  else
    let h := hashAt g.fl.hash (g.hashMark o.seq a.lane a.off bytes) o.seq a.lane a.off
    let x := s.homeNote pa (s.accessor g a) (if w.isSome then some h else none)
    x.1.setAcc k o.seq idx { a' with diverged := a.diverged || x.2 }

/-- A lane of an operation fails with a code: both halves of 16 bytes do (11: R207). -/
def State.failLane (s : State) (k seq lane : Nat) (code : BitVec 8) : State :=
  s.modGroup k fun g => (g.setOps (g.fl.ops.map fun o =>
    if o.seq = seq then { o with accs := o.accs.map fun a => if a.lane = lane then { a with st := .failed code } else a } else o)).hashFailed seq lane

/-- The address that a violation of an access names: of the pair of an LDK at its owner, the entry that named its page. DESIGN CHOICE (log
77). -/
def MemOp.addressOf (o : MemOp) (a : LaneAcc) : BitVec 64 :=
  if a.isPair then ((o.accs.find? fun b => b.lane == a.lane && !b.isPair).map LaneAcc.va).getD a.va else a.va

/-- The accesses of an LDK of which some are performed again: a lane whose entry is read again reads it whole, and resolves it again
(11: R219). -/
def kvRedo (again : LaneAcc → Bool) (as : List LaneAcc) : List LaneAcc :=
  let entry := fun (a : LaneAcc) => decide (a.off < kvPair) || decide (kvAgain ≤ a.off)
  let torn := fun (l : Nat) => as.any fun b => b.lane == l && entry b && again b
  (as.filter fun a => !(a.isPair && torn a.lane)).map fun a =>
    if again a || (entry a && torn a.lane) then { a with done := false } else a

/-- The operations of a group with the loads that were performed, are not complete and meet one of the listed accesses to be performed again (04:
R86), and with each the later loads that meet it, so that no later load of a byte keeps an older value (04: R81); more names further
accesses of each operation that the loads after it are held against. -/
def State.redoLoads (s : State) (more : MemOp → List LaneAcc) (hit : List LaneAcc) (os : List MemOp) : List MemOp :=
  match os with
  | [] => []
  | x :: r =>
    let again := fun (b : LaneAcc) => (x.kind.reads && !x.kind.writes) && b.done && hit.any fun a => s.meets a b
    let accs := if x.kind == .ldk then kvRedo again x.accs else x.accs.map fun b => if again b then { b with done := false } else b
    { x with accs } :: State.redoLoads s more (hit ++ x.accs.filter again ++ more x) r

/-- The accesses of an operation that have become known since a state: those that the loads performed meanwhile could not be compared with. -/
def MemOp.newlyKnown (old : List MemOp) (o : MemOp) : List LaneAcc :=
  match old.find? fun x => x.seq == o.seq with
  | none => []
  | some x => o.accs.filter fun a => a.st.known && !x.accs.any fun b => b.lane == a.lane && b.off == a.off && b.st.known

/-- The loads of every group are performed again that meet an older access which has been translated since a state (04: R81). -/
def State.redoKnown (old s : State) : State :=
  { s with groups := s.groups.map fun p =>
    if p.2.fl.ops.isEmpty then p
    else (p.1, p.2.setOps (s.redoLoads (MemOp.newlyKnown (((Table.get? old.groups p.1).map fun g => g.fl.ops).getD [])) [] p.2.fl.ops)) }

/-- After an agent has written at a peer: the reads of that peer that were performed before an acquire or fence that reaches the agent are
performed again (04: R90, R95). -/
def State.redoPeer (s : State) (who : Agent) (dev : BitVec 22) : State :=
  { s with groups := s.groups.map fun p =>
    let hit := p.2.fl.ops.flatMap fun o =>
      if o.kind.writes || !(p.2.heldScopes o.seq).any (fun c => s.inInstance p.1 p.2 c who) then []
      else o.accs.filter fun a => a.done && s.spotOf a == some (.peer dev)
    if hit.isEmpty then p else (p.1, p.2.setOps (s.redoLoads (fun _ => []) hit p.2.fl.ops)) }

/-- An access that a peer performed answers its old value, or an error response (05: R98, 03: R73; 11: R220); the completion of a contribution
names the exporter's home that holds it (05: R109). -/
def State.performPeer (s : State) (k : Nat) (g : Group) (o : MemOp) (idx : Nat) (a : LaneAcc) (slot : Nat) (reply : Reply) : State :=
  match s.peerReply (s.importDevice slot) reply with
  | .error _ =>
    (s.failLane k o.seq a.lane (if o.kind == .ldk && a.isPair then codeKvmap else codeImport)).laneViolation g.ctl.core (o.addressOf a)
  | .done v =>
    let w := a.writes o.kind v
    let s := s.noteEarly k g o a
    let s := s.modGroup k fun g => g.hashDone o.seq a.lane a.off ((w.map fun v => leBytes a.size v.toNat).getD [])
    let s := s.contributeAcc g o a a.va.toNat v.toNat (some slot)
    let s := if w.isSome then s.redoPeer (.group k) (s.importDevice slot) else s
    (s.setAcc k o.seq idx { a with done := true, val := v }).tally g.view.partition 0x10 a.size

/-- Frees an operand-log entry: its pins drop (03: R68, R76). -/
def State.freeLog (s : State) (g : Group) (o : MemOp) : State :=
  match o.log with
  | none => s
  | some _ =>
    let h := g.view.holder
    o.answered.foldl (fun s a => s.unpin h a) (s.unpin h o.slot)

/-- Removes an operation of a group, frees its log entry and raises the trap of its failed lanes, and DIVERGE for the runs that its accesses
ended with a mismatch (11: R207, 26: R417). -/
def State.finishOp (s : State) (k : Nat) (o : MemOp) : State :=
  match Table.get? s.groups k with
  | none => s
  | some g =>
    let s := s.setGroup k (g.setOps (g.fl.ops.filter fun x => x.seq != o.seq)).tidy
    let s := s.freeLog g o
    let s := match o.failure o.uniform with
      | none => s
      | some t => s.raiseBoundary k t
    (o.accs.filter LaneAcc.diverged).foldl (fun s a => s.raiseBoundary k (divergeTrap o a)) s

/-- After an access of an operation was performed or failed: when all are over, its entry leaves the outbound path, and
an operation that reads nothing is finished; a discarded group goes with its last store. -/
def State.afterPerform (s : State) (k seq : Nat) : State :=
  match Table.get? s.groups k with
  | none => s
  | some g =>
    match g.fl.ops.find? fun o => o.seq == seq with
    | none => s
    | some o =>
      if o.kind.writes && o.queue == .outbound && o.accs.all LaneAcc.over then
        let s := s.modCore g.ctl.core fun c => { c with out := c.out.filter fun e => !(e.1 == k && e.2 == seq) }
        if g.ctl.dead then
          let ops := g.fl.ops.filter fun x => x.seq != seq
          if !(ops.any fun x => x.queue == .outbound) then { s with groups := Table.erase s.groups k } else s.setGroup k (g.setOps ops)
        else if o.kind.reads then s
        else s.finishOp k o
      else s

/-- The other half of a lane's datum of 16 bytes, when an operation writes it (04: R79). -/
def MemOp.otherHalf (o : MemOp) (a : LaneAcc) : Option LaneAcc :=
  if o.kind.writes then o.accs.find? fun b => b.lane == a.lane && b.off != a.off else none

/-- The error response that an access meets at its home: what the home answers, or what the line and its counter give. A CAS that would not
write is not refused. Both halves of a 16-byte store stand in one line, so that a home which has performed the one answers the other, and
the first needs room for two in the line's counter (11: R207, 23: R383). -/
def State.homeError (s : State) (o : MemOp) (a : LaneAcc) (pa : Nat) (reply : Reply) : Option ErrorKind :=
  let other := o.otherHalf a
  let refusable := o.kind.writes && (a.writes o.kind (BitVec.ofNat 64 (s.mem.nat pa a.size))).isSome
  match reply with
  | .error e => if (other.map LaneAcc.done).getD false then none else some e
  | .done _ =>
    match s.spoilt pa a.size refusable with
    | some e => some e
    | none =>
      if o.kind.reads && o.kind.writes then s.spoilt pa a.size false
      else if refusable && (other.map fun b => !b.done).getD false && s.refusesAll 2 pa a.size then some .integrity
      else none

/-- An access reaches its home on this device: it is performed, or ends in an error response (05: R98, 23: R383 to R385). -/
def State.performHere (s : State) (k : Nat) (g : Group) (o : MemOp) (idx : Nat) (a : LaneAcc) (pa : Nat) (reply : Reply) : State :=
  match s.homeError o a pa reply with
  | some e =>
    (s.failLane k o.seq a.lane codeAccess).homeViolation pa e fun s =>
      if a.isPair then s.violation (BitVec.ofNat 64 pa) (s.homeSource pa) 1 0 else s.laneViolation g.ctl.core a.va
  | none => s.performHome k g o idx a pa

/-- Performs one access, whatever may hold it (04: R80; the gate's held accesses at disarming: 05: R113). -/
def State.performAcc (s : State) (k : Nat) (g : Group) (o : MemOp) (idx : Nat) (a : LaneAcc) (reply : Reply) : State :=
  match a.st with
  | .peer slot => (s.performPeer k g o idx a slot reply).afterPerform k o.seq
  | .leaf e => (s.performHere k g o idx a (s.leafPa e a.va false) reply).afterPerform k o.seq
  | .direct pa => (s.performHere k g o idx a pa reply).afterPerform k o.seq
  | .miss => s
  | .wait _ => s
  | .answered _ => s
  | .failed _ => s

/-- An access arrives at its home (05: R112, 17: R306): a script holds it, or a held store that it follows, or it is
performed. -/
def State.arriveAcc (s : State) (k : Nat) (g : Group) (o : MemOp) (idx : Nat) (a : LaneAcc) (reply : Reply) : State :=
  match s.accPa a with
  | none => s.performAcc k g o idx a reply
  | some pa =>
    let named := (!a.judged || a.held.isSome) && s.gateHolds pa (s.accessor g a)
    if named || (o.kind.writes && s.behindHeld (fun _ => true) g.ctl.core k o.seq a) then
      match a.held with
      | some _ => s.setAcc k o.seq idx { a with judged := a.judged || named }
      | none =>
        { s.setAcc k o.seq idx { a with judged := a.judged || named, held := some (s.fresh, s.clk.cycle) } with fresh := s.fresh + 1 }
    else s.performAcc k g o idx a reply

/-- Whether an access that stands held has nothing new to learn at its home: a script still names it later, or it still stands
behind a held store. -/
def State.staysHeld (s : State) (k : Nat) (g : Group) (o : MemOp) (a : LaneAcc) (pa : Nat) : Bool :=
  a.held.isSome && (if s.gateHolds pa (s.accessor g a) then a.judged
    else o.kind.writes && s.behindHeld (fun _ => true) g.ctl.core k o.seq a)

/-- The accesses that a gate holds, at its words or behind a store that is held there: arrival, group, position, place. -/
def State.heldAccs (s : State) (words : List Nat) : List (Nat × Nat × Nat × Nat) :=
  s.groups.flatMap fun p => p.2.fl.ops.flatMap fun o =>
    (List.range o.accs.length).filterMap fun i =>
      match o.accs[i]? with
      | none => none
      | some a =>
        match a.held, s.accPa a with
        | some h, some pa =>
          if (a.judged && words.contains (wordOf pa)) || s.behindHeld words.contains p.2.ctl.core p.1 o.seq a then
            some (h.1, p.1, o.seq, i)
          else none
        | _, _ => none

/-- Inserts by arrival. -/
def insertHeld (x : Nat × Nat × Nat × Nat) (xs : List (Nat × Nat × Nat × Nat)) : List (Nat × Nat × Nat × Nat) :=
  match xs with
  | [] => [x]
  | y :: r => if x.1 < y.1 then x :: y :: r else y :: insertHeld x r

/-- Performs the access at a place, if it is still there. -/
def State.performAt (s : State) (k seq idx : Nat) (reply : Reply) : State :=
  match Table.get? s.groups k with
  | none => s
  | some g =>
    match g.fl.ops.find? fun o => o.seq == seq with
    | none => s
    | some o =>
      match o.accs[idx]? with
      | none => s
      | some a => s.performAcc k g o idx a reply

/-- A gate ends with code 2 or 3 (05: R113, 17: R305): the script is discarded, the held accesses are performed in
arrival order, then the status is written. -/
def State.endGate (s : State) (rcb code : Nat) : State :=
  match (Table.get? s.regions rcb).bind Region.gate with
  | none => s
  | some g =>
    let held := (s.heldAccs g.words).foldr insertHeld []
    let s := s.modRegion rcb fun r => { r with gate := none }
    let s := held.foldl (fun s e => s.performAt e.2.1 e.2.2.1 e.2.2.2 (.done 0)) s
    s.storeNat g.status 8 (gateStatus code g.unscripted)

/-! ## Landing -/

/-- The registers' words that a lane access gives: word number and value (11: R208, R211); for LDK the rotated pair, which stands in the
data of the access that read it (11: R218). -/
def landWords (kind : MemKind) (a : LaneAcc) : List (Nat × BitVec 32) :=
  let lo := a.val.setWidth 32
  let hi := a.val.extractLsb' 32 32
  match kind with
  | .load n signed =>
    if n = 1 then [(0, if signed then (a.val.setWidth 8).signExtend 32 else (a.val.setWidth 8).setWidth 32)]
    else if n = 2 then [(0, if signed then (a.val.setWidth 16).signExtend 32 else (a.val.setWidth 16).setWidth 32)]
    else if n = 4 then [(0, lo)]
    else [(a.off / 4, lo), (a.off / 4 + 1, hi)]
  | .atom _ n => if n = 4 then [(0, lo)] else [(0, lo), (1, hi)]
  | .cas n => if n = 4 then [(0, lo)] else [(0, lo), (1, hi)]
  | .ldk => if a.isPair then [(0, a.data.setWidth 32)] else []
  | .store _ => []
  | .fadd _ => []
  | .fence _ => []

/-- The values of an operation go to the landing lines of its destination: a lane of which an access failed keeps the old value (02:
R56, R57; 11: R207). -/
def Group.landOp (g : Group) (o : MemOp) : Group :=
  match o.pend with
  | none => g
  | some slot =>
    let bad := o.failedLanes
    let g := o.accs.foldl (fun g a =>
      if !a.done || has bad a.lane then g
      else if a.lane = uniformLane then g.landUniform slot a.val
      else (landWords o.kind a).foldl (fun g w => g.setLanding slot w.1 a.lane w.2) g) g
    g.markLanded slot

end Sys2Proof.Machine
end

