-- ==== Sys2Proof/Machine/Memory.lean ====
section
/-!
DEFINITION. The memory words: loads, stores, touches, probes, ordered loads and stores, atomics, the ordered add, uniform
loads and stores, and fence (11: R205 to R215, 12: R227).
-/

namespace Sys2Proof.Machine

/-! ## Issue -/

/-- One access that nothing has happened to. -/
def LaneAcc.fresh (lane off size : Nat) (va : BitVec 64) (st : AccState) (data cmp : BitVec 64) (ordinal : Nat) :
    LaneAcc where
  lane := lane
  off := off
  size := size
  va := va
  st := st
  done := false
  data := data
  cmp := cmp
  val := 0#64
  ordinal := ordinal
  judged := false
  held := none
  diverged := false

/-- The translation of the upper half of a 16-byte access. -/
def AccState.upper (a : AccState) : AccState :=
  match a with
  | .direct pa => .direct (pa + 8)
  | .miss => .miss
  | .wait r => .wait r
  | .answered n => .answered n
  | .leaf e => .leaf e
  | .peer n => .peer n
  | .failed c => .failed c

/-- The accesses of a lane's datum: two of 8 bytes for 16 bytes (04: R79). -/
def laneAccs (lane size : Nat) (va : BitVec 64) (st : AccState) (lo hi cmp : BitVec 64) (ordinal : Nat) : List LaneAcc :=
  if size = 16 then
    [.fresh lane 0 8 va st lo cmp ordinal, .fresh lane 8 8 (va + 8#64) st.upper hi cmp ordinal]
  else [.fresh lane 0 size va st lo cmp ordinal]

/-- The source data of a lane: low and high eight bytes, and a compare value. -/
structure LaneData where
  lo : BitVec 64
  hi : BitVec 64
  cmp : BitVec 64
  deriving DecidableEq, Repr

/-- What the checks at issue give: the lowest lane that traps, or how each lane starts (11: R206). -/
inductive Starts where
  | trap (lane : Nat) (code : BitVec 8)
  | ok (lanes : List (Nat × AccState))
  deriving DecidableEq, Repr

/-- The checks of the lanes, in ascending order (11: R206). -/
def State.startLanes (s : State) (g : Group) (store : Bool) (align : Nat) (addr : Nat → BitVec 64) (ls : List Nat) :
    Starts :=
  match ls with
  | [] => .ok []
  | l :: r =>
    match s.startAccess g store align (addr l) with
    | .trap c => .trap l c
    | .ok st =>
      match State.startLanes s g store align addr r with
      | .trap k c => .trap k c
      | .ok xs => .ok ((l, st) :: xs)

/-- The thread ordinals of the lanes advance (17: R304). -/
def Group.countLanes (g : Group) (ls : List Nat) : Group :=
  { g with fl := { g.fl with
    ordinals := ls.foldl (fun t l => Table.put 0 t l (Table.getD t l 0 + 1)) g.fl.ordinals } }

/-- The operand-log entry that an instruction takes (02: R55). DESIGN CHOICE (log 72): the lowest free one. -/
def Group.freeLogEntry (g : Group) : Option Nat :=
  (List.range 4).find? fun n => !g.fl.ops.any fun o => o.log == some n

/-- Translates an access that needs it by the TLBs (03: R70, R74). -/
def State.tryAcc (s : State) (part core region slot : Nat) (gen : BitVec 16) (kind : Nat) (a : LaneAcc) : State × LaneAcc :=
  if a.st == .miss then
    let x := s.tryTlb part core region slot gen kind a.va
    (x.1, { a with st := x.2 })
  else (s, a)

/-- Puts an operation in flight: its accesses meet the TLBs; one that is not translated takes an operand-log entry, which
pins the slot (02: R55, 03: R68, R75). -/
def State.launchOp (s : State) (k : Nat) (g : Group) (o : MemOp) : State :=
  let h := g.view.holder
  let x := threadAccs (fun s a => s.tryAcc g.view.partition g.ctl.core h o.slot o.gen o.kind.access a) s o.accs
  let logged := x.2.any fun a => !a.st.known
  let s := if logged then x.1.pin h o.slot else x.1
  s.modGroup k fun g => g.setOps (g.fl.ops ++ [{ o with
    accs := x.2
    log := if logged then g.freeLogEntry else none }])

/-- A memory word as the format leaves it: what it does, its ordering and scope, the size, the base value, the lanes that
take part and whether they are counted, their addresses and data. -/
structure MemWord where
  kind : MemKind
  ord : Ord
  scope : Scope
  size : Nat
  base : BitVec 64
  lanes : List Nat
  addr : Nat → BitVec 64
  data : Nat → LaneData

/-- The operation of a memory word whose lanes passed the checks. -/
def MemWord.op (m : MemWord) (is : Issue) (g : Group) (pend : Option Nat) (ls : List (Nat × AccState)) : MemOp where
  seq := g.fl.nextSeq
  pc := is.pc
  word := is.word
  set := is.mask
  kind := m.kind
  ord := m.ord
  scope := m.scope
  base := m.base
  accs := ls.flatMap fun p =>
    laneAccs p.1 m.size (m.addr p.1) p.2 (m.data p.1).lo (m.data p.1).hi (m.data p.1).cmp (Table.getD g.fl.ordinals p.1 0)
  pend := pend
  queue := if m.kind.writes then .queued else .none
  log := none
  slot := g.pinSlot
  gen := g.pinGen
  answered := []
  kv := []

/-- Issues a memory word (11: R205 to R207): the checks at issue first; then its destination becomes pending, its lanes'
ordinals advance, and its operation goes in flight. -/
def State.issueMem (s : State) (i : Instr) (is : Issue) (g : Group) (m : MemWord) : Out :=
  match s.startLanes g m.kind.writes m.size m.addr m.lanes with
  | .trap l c =>
    let lane := if l = uniformLane then (lanesOf is.mask).headD 0 else l
    .next ((s.windowViolation g.ctl.core c (m.addr l)).raiseAtIssue is.grp (is.addrTrap c lane (m.addr l)))
  | .ok ls =>
    let after := fun (g' : Group) =>
      let g' := (g'.countLanes (m.lanes.filter (· != uniformLane))).advance is
      { g' with fl := { g'.fl with nextSeq := g.fl.nextSeq + 1 } }
    match pendDest i g.regs.xi with
    | none =>
      let s := s.setGroup is.grp (after g)
      .next (if ls.isEmpty then s else s.launchOp is.grp (after g) (m.op is g none ls))
    | some (u, n, w) =>
      match g.openPend u n w is.mask (if u then is.mask else maskOf fun l => m.lanes.contains l) ((i.lookahead).getD 0) with
      | none => .next s
      | some (slot, g') =>
        .next ((s.setGroup is.grp (after g')).launchOp is.grp (after g') (m.op is g (some slot) ls))

/-- The address of a lane: base plus the zero-extended lane offset (11: R205). -/
def Group.laneAddr (g : Group) (a : BitVec 6) (bs : BitVec 2) (l : Nat) : BitVec 64 :=
  g.rs (baseReg bs) + (g.rv a l).setWidth 64

/-- The data of a lane register of n bytes: single, pair or quad (11: R208). -/
def Group.laneData (g : Group) (d : BitVec 6) (n l : Nat) : LaneData :=
  if n ≤ 4 then ⟨(g.rv d l).setWidth 64, 0#64, 0#64⟩ else ⟨g.rw d l, g.rwHi d l, 0#64⟩

/-- A plain load or store of the passing lanes (11: R208). -/
def State.memLM (s : State) (i : Instr) (gd : Guard) (d a : BitVec 6) (bs : BitVec 2) (kind : MemKind) (size : Nat) : Out :=
  s.runWord i fun is g s =>
    s.issueMem i is g {
      kind := kind, ord := .rlx, scope := .device, size := size, base := g.rs (baseReg bs)
      lanes := lanesOf (g.passing gd is.mask), addr := g.laneAddr a bs, data := g.laneData d size }

/-- A memory word of every lane of the set, with ordering and scope (11: R210, R211). -/
def State.memLA (s : State) (i : Instr) (a : BitVec 6) (bs : BitVec 2) (kind : MemKind) (ord : Ord) (sc : Scope) (size : Nat)
    (data : Group → Nat → LaneData) : Out :=
  s.runWord i fun is g s =>
    s.issueMem i is g {
      kind := kind, ord := ord, scope := sc, size := size, base := g.rs (baseReg bs)
      lanes := lanesOf is.mask, addr := g.laneAddr a bs, data := data g }

/-! ## Loads and stores (11: R208, R210) -/

/-- ld.i8 (11: R208); with d = 63 a touch (03: R77). -/
def execLdI8 (gd : Guard) (d a : BitVec 6) (bs : BitVec 2) (la : BitVec 4) (s : State) : Out :=
  s.memLM (.ldI8 gd d a bs la) gd d a bs (.load 1 true) 1

/-- ld.n8 (11: R208); with d = 63 a touch (03: R77). -/
def execLdN8 (gd : Guard) (d a : BitVec 6) (bs : BitVec 2) (la : BitVec 4) (s : State) : Out :=
  s.memLM (.ldN8 gd d a bs la) gd d a bs (.load 1 false) 1

/-- ld.i16 (11: R208); with d = 63 a touch (03: R77). -/
def execLdI16 (gd : Guard) (d a : BitVec 6) (bs : BitVec 2) (la : BitVec 4) (s : State) : Out :=
  s.memLM (.ldI16 gd d a bs la) gd d a bs (.load 2 true) 2

/-- ld.n16 (11: R208); with d = 63 a touch (03: R77). -/
def execLdN16 (gd : Guard) (d a : BitVec 6) (bs : BitVec 2) (la : BitVec 4) (s : State) : Out :=
  s.memLM (.ldN16 gd d a bs la) gd d a bs (.load 2 false) 2

/-- ld.n32 (11: R208); with d = 63 a touch (03: R77). -/
def execLdN32 (gd : Guard) (d a : BitVec 6) (bs : BitVec 2) (la : BitVec 4) (s : State) : Out :=
  s.memLM (.ldN32 gd d a bs la) gd d a bs (.load 4 false) 4

/-- ld.n64 (11: R208); with d = 63 a touch (03: R77). -/
def execLdN64 (gd : Guard) (d a : BitVec 6) (bs : BitVec 2) (la : BitVec 4) (s : State) : Out :=
  s.memLM (.ldN64 gd d a bs la) gd d a bs (.load 8 false) 8

/-- ld.n128 (11: R208); with d = 63 a touch (03: R77). -/
def execLdN128 (gd : Guard) (d a : BitVec 6) (bs : BitVec 2) (la : BitVec 4) (s : State) : Out :=
  s.memLM (.ldN128 gd d a bs la) gd d a bs (.load 16 false) 16

/-- st.n8 (11: R208). -/
def execStN8 (gd : Guard) (d a : BitVec 6) (bs : BitVec 2) (s : State) : Out :=
  s.memLM (.stN8 gd d a bs) gd d a bs (.store 1) 1

/-- st.n16 (11: R208). -/
def execStN16 (gd : Guard) (d a : BitVec 6) (bs : BitVec 2) (s : State) : Out :=
  s.memLM (.stN16 gd d a bs) gd d a bs (.store 2) 2

/-- st.n32 (11: R208). -/
def execStN32 (gd : Guard) (d a : BitVec 6) (bs : BitVec 2) (s : State) : Out :=
  s.memLM (.stN32 gd d a bs) gd d a bs (.store 4) 4

/-- st.n64 (11: R208). -/
def execStN64 (gd : Guard) (d a : BitVec 6) (bs : BitVec 2) (s : State) : Out :=
  s.memLM (.stN64 gd d a bs) gd d a bs (.store 8) 8

/-- st.n128 (11: R208). -/
def execStN128 (gd : Guard) (d a : BitVec 6) (bs : BitVec 2) (s : State) : Out :=
  s.memLM (.stN128 gd d a bs) gd d a bs (.store 16) 16

/-- lda.n32 (11: R210). -/
def execLdaN32 (d a : BitVec 6) (bs : BitVec 2) (sc : Scope) (la : BitVec 4) (acq : Bool) (s : State) : Out :=
  s.memLA (.ldaN32 d a bs sc la acq) a bs (.load 4 false) (if acq then .acq else .rlx) sc 4 fun g => g.laneData d 4

/-- lda.n64 (11: R210). -/
def execLdaN64 (d a : BitVec 6) (bs : BitVec 2) (sc : Scope) (la : BitVec 4) (acq : Bool) (s : State) : Out :=
  s.memLA (.ldaN64 d a bs sc la acq) a bs (.load 8 false) (if acq then .acq else .rlx) sc 8 fun g => g.laneData d 8

/-- sta.n32 (11: R210). -/
def execStaN32 (d a : BitVec 6) (bs : BitVec 2) (sc : Scope) (rel : Bool) (s : State) : Out :=
  s.memLA (.staN32 d a bs sc rel) a bs (.store 4) (if rel then .rel else .rlx) sc 4 fun g => g.laneData d 4

/-- sta.n64 (11: R210). -/
def execStaN64 (d a : BitVec 6) (bs : BitVec 2) (sc : Scope) (rel : Bool) (s : State) : Out :=
  s.memLA (.staN64 d a bs sc rel) a bs (.store 8) (if rel then .rel else .rlx) sc 8 fun g => g.laneData d 8

/-! ## Atomics (11: R211, R212) -/

/-- aadd.n32 (11: R211). -/
def execAaddN32 (d a : BitVec 6) (bs : BitVec 2) (sc : Scope) (la : BitVec 4) (ord : Ord) (s : State) : Out :=
  s.memLA (.aaddN32 d a bs sc la ord) a bs (.atom .add 4) ord sc 4 fun g => g.laneData d 4

/-- amin.i32 (11: R211). -/
def execAminI32 (d a : BitVec 6) (bs : BitVec 2) (sc : Scope) (la : BitVec 4) (ord : Ord) (s : State) : Out :=
  s.memLA (.aminI32 d a bs sc la ord) a bs (.atom .minI 4) ord sc 4 fun g => g.laneData d 4

/-- amax.i32 (11: R211). -/
def execAmaxI32 (d a : BitVec 6) (bs : BitVec 2) (sc : Scope) (la : BitVec 4) (ord : Ord) (s : State) : Out :=
  s.memLA (.amaxI32 d a bs sc la ord) a bs (.atom .maxI 4) ord sc 4 fun g => g.laneData d 4

/-- amin.n32 (11: R211). -/
def execAminN32 (d a : BitVec 6) (bs : BitVec 2) (sc : Scope) (la : BitVec 4) (ord : Ord) (s : State) : Out :=
  s.memLA (.aminN32 d a bs sc la ord) a bs (.atom .minN 4) ord sc 4 fun g => g.laneData d 4

/-- amax.n32 (11: R211). -/
def execAmaxN32 (d a : BitVec 6) (bs : BitVec 2) (sc : Scope) (la : BitVec 4) (ord : Ord) (s : State) : Out :=
  s.memLA (.amaxN32 d a bs sc la ord) a bs (.atom .maxN 4) ord sc 4 fun g => g.laneData d 4

/-- aand.n32 (11: R211). -/
def execAandN32 (d a : BitVec 6) (bs : BitVec 2) (sc : Scope) (la : BitVec 4) (ord : Ord) (s : State) : Out :=
  s.memLA (.aandN32 d a bs sc la ord) a bs (.atom .band 4) ord sc 4 fun g => g.laneData d 4

/-- aor.n32 (11: R211). -/
def execAorN32 (d a : BitVec 6) (bs : BitVec 2) (sc : Scope) (la : BitVec 4) (ord : Ord) (s : State) : Out :=
  s.memLA (.aorN32 d a bs sc la ord) a bs (.atom .bor 4) ord sc 4 fun g => g.laneData d 4

/-- axor.n32 (11: R211). -/
def execAxorN32 (d a : BitVec 6) (bs : BitVec 2) (sc : Scope) (la : BitVec 4) (ord : Ord) (s : State) : Out :=
  s.memLA (.axorN32 d a bs sc la ord) a bs (.atom .bxor 4) ord sc 4 fun g => g.laneData d 4

/-- axchg.n32 (11: R211). -/
def execAxchgN32 (d a : BitVec 6) (bs : BitVec 2) (sc : Scope) (la : BitVec 4) (ord : Ord) (s : State) : Out :=
  s.memLA (.axchgN32 d a bs sc la ord) a bs (.atom .xchg 4) ord sc 4 fun g => g.laneData d 4

/-- aadd.n64 (11: R211). -/
def execAaddN64 (d a : BitVec 6) (bs : BitVec 2) (sc : Scope) (la : BitVec 4) (ord : Ord) (s : State) : Out :=
  s.memLA (.aaddN64 d a bs sc la ord) a bs (.atom .add 8) ord sc 8 fun g => g.laneData d 8

/-- amin.i64 (11: R211). -/
def execAminI64 (d a : BitVec 6) (bs : BitVec 2) (sc : Scope) (la : BitVec 4) (ord : Ord) (s : State) : Out :=
  s.memLA (.aminI64 d a bs sc la ord) a bs (.atom .minI 8) ord sc 8 fun g => g.laneData d 8

/-- amax.i64 (11: R211). -/
def execAmaxI64 (d a : BitVec 6) (bs : BitVec 2) (sc : Scope) (la : BitVec 4) (ord : Ord) (s : State) : Out :=
  s.memLA (.amaxI64 d a bs sc la ord) a bs (.atom .maxI 8) ord sc 8 fun g => g.laneData d 8

/-- amin.n64 (11: R211). -/
def execAminN64 (d a : BitVec 6) (bs : BitVec 2) (sc : Scope) (la : BitVec 4) (ord : Ord) (s : State) : Out :=
  s.memLA (.aminN64 d a bs sc la ord) a bs (.atom .minN 8) ord sc 8 fun g => g.laneData d 8

/-- amax.n64 (11: R211). -/
def execAmaxN64 (d a : BitVec 6) (bs : BitVec 2) (sc : Scope) (la : BitVec 4) (ord : Ord) (s : State) : Out :=
  s.memLA (.amaxN64 d a bs sc la ord) a bs (.atom .maxN 8) ord sc 8 fun g => g.laneData d 8

/-- aand.n64 (11: R211). -/
def execAandN64 (d a : BitVec 6) (bs : BitVec 2) (sc : Scope) (la : BitVec 4) (ord : Ord) (s : State) : Out :=
  s.memLA (.aandN64 d a bs sc la ord) a bs (.atom .band 8) ord sc 8 fun g => g.laneData d 8

/-- aor.n64 (11: R211). -/
def execAorN64 (d a : BitVec 6) (bs : BitVec 2) (sc : Scope) (la : BitVec 4) (ord : Ord) (s : State) : Out :=
  s.memLA (.aorN64 d a bs sc la ord) a bs (.atom .bor 8) ord sc 8 fun g => g.laneData d 8

/-- axor.n64 (11: R211). -/
def execAxorN64 (d a : BitVec 6) (bs : BitVec 2) (sc : Scope) (la : BitVec 4) (ord : Ord) (s : State) : Out :=
  s.memLA (.axorN64 d a bs sc la ord) a bs (.atom .bxor 8) ord sc 8 fun g => g.laneData d 8

/-- axchg.n64 (11: R211). -/
def execAxchgN64 (d a : BitVec 6) (bs : BitVec 2) (sc : Scope) (la : BitVec 4) (ord : Ord) (s : State) : Out :=
  s.memLA (.axchgN64 d a bs sc la ord) a bs (.atom .xchg 8) ord sc 8 fun g => g.laneData d 8

/-- acas.n32: compares with vd, offers vd+1 (11: R212). -/
def execAcasN32 (d a : BitVec 6) (bs : BitVec 2) (sc : Scope) (la : BitVec 4) (ord : Ord) (s : State) : Out :=
  s.memLA (.acasN32 d a bs sc la ord) a bs (.cas 4) ord sc 4 fun g l =>
    ⟨((g.rw d l).extractLsb' 32 32).setWidth 64, 0#64, ((g.rw d l).setWidth 32).setWidth 64⟩

/-- acas.n64: compares with vd:vd+1, offers vd+2:vd+3 (11: R212). -/
def execAcasN64 (d a : BitVec 6) (bs : BitVec 2) (sc : Scope) (la : BitVec 4) (ord : Ord) (s : State) : Out :=
  s.memLA (.acasN64 d a bs sc la ord) a bs (.cas 8) ord sc 8 fun g l => ⟨g.rwHi d l, 0#64, g.rw d l⟩

/-! ## The ordered add (11: R213) -/

/-- The count of earlier fadd.ord words of a thread. -/
def Group.faddOrdinal (g : Group) (l : Nat) : Nat := Table.getD g.fl.faddOrdinals l 0

/-- The fadd.ord counts of the lanes advance (11: R213). -/
def Group.countFadd (g : Group) (ls : List Nat) : Group :=
  { g with fl := { g.fl with
    faddOrdinals := ls.foldl (fun t l => Table.put 0 t l (Table.getD t l 0 + 1)) g.fl.faddOrdinals } }

/-- The lanes of a set whose contribution has an ordinal: a thread past 2^32 - 1 sends nothing more (11: R213). -/
def Group.faddLanes (g : Group) (set : BitVec 32) : List Nat :=
  (lanesOf set).filter fun l => decide (g.faddOrdinal l < 2 ^ 32)

/-- An ordered add: the contribution's ordinal stands in the compare field (11: R213). A lane past the last ordinal is
checked with the others, advances its ordinals and sends nothing; the launch overflows. -/
def State.memFadd (s : State) (i : Instr) (d a : BitVec 6) (bs : BitVec 2) (sc : Scope) (f64 : Bool) (size : Nat) : Out :=
  s.runWord i fun is g s =>
    let ls := lanesOf is.mask
    let m : MemWord := {
      kind := .fadd f64, ord := .rlx, scope := sc, size := size, base := g.rs (baseReg bs)
      lanes := ls, addr := g.laneAddr a bs
      data := fun l => { g.laneData d size l with cmp := BitVec.ofNat 64 (g.faddOrdinal l) } }
    match s.startLanes g true size m.addr ls with
    | .trap _ _ => s.issueMem i is g m
    | .ok xs =>
      let g' := ((g.countFadd ls).countLanes ls).advance is
      let g' := { g' with fl := { g'.fl with nextSeq := g.fl.nextSeq + 1 } }
      let sent := xs.filter fun p => (g.faddLanes is.mask).contains p.1
      let s := s.setGroup is.grp g'
      let s := if sent.length = xs.length then s else s.overflowLaunch g.id.launch
      .next (if sent.isEmpty then s else s.launchOp is.grp g' (m.op is g none sent))

/-- fadd.ord.f32 (11: R213). -/
def execFaddOrdF32 (d a : BitVec 6) (bs : BitVec 2) (sc : Scope) (s : State) : Out :=
  s.memFadd (.faddOrdF32 d a bs sc) d a bs sc false 4

/-- fadd.ord.f64 (11: R213). -/
def execFaddOrdF64 (d a : BitVec 6) (bs : BitVec 2) (sc : Scope) (s : State) : Out :=
  s.memFadd (.faddOrdF64 d a bs sc) d a bs sc true 8

/-! ## Uniform memory (12: R227) -/

/-- A uniform load or store: one access, named by the lane number 32. -/
def State.memGM (s : State) (i : Instr) (d a : BitVec 6) (off : BitVec 8) (kind : MemKind) : Out :=
  s.runWord i fun is g s =>
    s.issueMem i is g {
      kind := kind, ord := .rlx, scope := .device, size := 8, base := g.rs a, lanes := [uniformLane]
      addr := fun _ => g.rs a + (off.setWidth 64 <<< 3), data := fun _ => ⟨g.rs d, 0#64, 0#64⟩ }

/-- sld (12: R227); into sz a touch. -/
def execSld (d a : BitVec 6) (off : BitVec 8) (la : BitVec 4) (s : State) : Out :=
  s.memGM (.sld d a off la) d a off (.load 8 false)

/-- sst (12: R227). -/
def execSst (d a : BitVec 6) (off : BitVec 8) (s : State) : Out := s.memGM (.sst d a off) d a off (.store 8)

/-! ## Fence (11: R215) -/

/-- fence: takes its place in program order; it leaves when it has done its part (04: R92). -/
def execFence (kind : FenceKind) (sc : Scope) (s : State) : Out :=
  s.runGroup (.fence kind sc) fun is g =>
    let o : MemOp := {
      seq := g.fl.nextSeq, pc := is.pc, word := is.word, set := is.mask, kind := .fence kind, ord := .rlx, scope := sc
      base := 0#64, accs := [], pend := none, queue := .none, log := none, slot := g.pinSlot, gen := g.pinGen
      answered := [], kv := [] }
    ({ g with fl := { g.fl with nextSeq := g.fl.nextSeq + 1, ops := g.fl.ops ++ [o] } } : Group).tidy

/-! ## The probe (03: R78, 11: R209) -/

/-- Bytes of a probe's size code. -/
def probeBytes (z : ProbeSize) : Nat :=
  match z with
  | .n8 => 1
  | .n16 => 2
  | .n32 => 4
  | .n64 => 8
  | .n128 => 16

/-- Whether a check at issue stops a probe: only bits 63:56 and alignment do (11: R209). -/
def State.probeTrap (s : State) (g : Group) (align : Nat) (va : BitVec 64) : Option (BitVec 8) :=
  match s.startAccess g false align va with
  | .ok _ => none
  | .trap c => if c = codeAlign || va.extractLsb' 56 8 ≠ 0#8 then some c else none

/-- The flags of a leaf: a load completes; C when a store does; V when the frame lies in the slice range (03: R78). -/
def State.probeLeaf (s : State) (e va : BitVec 64) : BitVec 4 :=
  flags false true (leafW e) (inSlice (s.leafPa e va false))

/-- One lane of a probe that no check stops: its flags S, Z, C, V, unless its page misses in the TLBs, which runs the core's walker
(03: R78, 11: R209). -/
def State.probeLane (s : State) (g : Group) (align : Nat) (lane : Nat) (va : BitVec 64) : State × ProbeLane :=
  let known := fun (f : BitVec 4) => (s, ({ lane := lane, va := va, flags := some f } : ProbeLane))
  match s.startAccess g false align va with
  | .trap _ => known (flags true false false false)
  | .ok (.direct pa) => known (if g.id.walker then flags false true false (inSlice pa) else flags false true true true)
  | .ok .miss =>
    let h := g.view.holder
    match s.tlb g.ctl.core h g.pinGen (pageOf va) with
    | some e => known (s.probeLeaf e va)
    | none =>
      (s.queueWalk g.ctl.core (s.walkOf g.view.partition h g.pinSlot g.pinGen kindRead true va), { lane := lane, va := va, flags := none })
  | .ok (.peer _) => known (flags false true true false)
  | .ok (.wait _) => known (flags false false false false)
  | .ok (.leaf _) => known (flags false false false false)
  | .ok (.answered _) => known (flags false false false false)
  | .ok (.failed _) => known (flags true false false false)

/-- Probes lanes in ascending order. -/
def State.probeLanes (s : State) (g : Group) (align : Nat) (addr : Nat → BitVec 64) (ls : List Nat) : State × List ProbeLane :=
  match ls with
  | [] => (s, [])
  | l :: r =>
    let x := s.probeLane g align l (addr l)
    let y := State.probeLanes x.1 g align addr r
    (y.1, x.2 :: y.2)

/-- ld.probe (11: R209): a condition register in each passing lane; no log entry and no landing line. The set is held while a walk
of it runs, and the flags are written when all are known. -/
def execLdProbe (gd : Guard) (cj : BitVec 2) (a : BitVec 6) (bs : BitVec 2) (size : ProbeSize) (s : State) : Out :=
  s.runWord (.ldProbe gd cj a bs size) fun is g s =>
    let m := g.passing gd is.mask
    let addr := g.laneAddr a bs
    match (lanesOf m).find? fun l => (s.probeTrap g (probeBytes size) (addr l)).isSome with
    | some l =>
      .next (s.raiseAtIssue is.grp (is.addrTrap ((s.probeTrap g (probeBytes size) (addr l)).getD 0) l (addr l)))
    | none =>
      let x := s.probeLanes g (probeBytes size) addr (lanesOf m)
      let p : Probe := { set := is.mask, creg := cj, lanes := x.2, slot := g.pinSlot, gen := g.pinGen }
      let g' := (g.countLanes (lanesOf m)).advance is
      .next (x.1.setGroup is.grp ({ g' with fl := { g'.fl with probes := g'.fl.probes ++ [p] } } : Group).finishProbes)

end Sys2Proof.Machine
end

