-- ==== Sys2Proof/Machine/MemEvents.lean ====
section
/-!
DEFINITION. The steps of memory words after their issue: departure from the store queue, performance at a home, replay of
a log entry, landing; and SLEEP with its reads (02: R56, R57; 04: R80 to R86; 12: R233).
-/

namespace Sys2Proof.Machine

/-- The operation at a position of a group. -/
def Group.opAt (g : Group) (seq : Nat) : Option MemOp := g.fl.ops.find? fun o => o.seq == seq

/-! ## Departure (04: R85, R86) -/

/-- The head of a group's store queue. -/
def Group.queueHead (g : Group) : Option MemOp := g.fl.ops.find? fun o => o.queue == .queued

/-- Whether the head of the queue may leave it: translated, every earlier load complete, and no earlier PUBL, acquiring chwp or rootsw
outstanding (04: R85; 05: R106; 13: R257; 22: R375). What a release or a fence keeps before it is kept at its home
(State.mayPerform). -/
def Group.mayDepart (g : Group) (o : MemOp) : Bool :=
  o.ready && !((g.before o.seq).any fun x => x.kind.reads) && !g.heldHard o.seq

/-- An entry enters the outbound path: the loads of the core's other groups that it meets are performed again (04: R86). -/
def State.reperform (s : State) (core k : Nat) (o : MemOp) : State :=
  { s with groups := s.groups.map fun p =>
    if p.1 = k || p.2.ctl.core != core then p else (p.1, p.2.setOps (s.redoLoads (fun _ => []) o.accs p.2.fl.ops)) }

/-- The reads of a group that were performed before their turn and whose bytes an agent has changed that an acquire or a fence before
them reaches: mem is memory before the change (04: R90, R95). -/
def State.earlyReads (s : State) (k : Nat) (g : Group) (mem : Memory) (who : Agent) : List LaneAcc :=
  g.fl.ops.flatMap fun o =>
    if o.kind.writes || !(g.heldScopes o.seq).any (fun c => s.inInstance k g c who) then []
    else o.accs.filter fun a => a.done && (match s.accPa a with
      | none => false
      | some pa => mem.bytes pa a.size != s.mem.bytes pa a.size)

/-- After a change of memory by an agent: the reads of one group that were performed early are performed again. -/
def State.redoEarlyOf (mem : Memory) (who : Agent) (s : State) (k : Nat) : State :=
  match Table.get? s.groups k with
  | none => s
  | some g =>
    let hit := s.earlyReads k g mem who
    if hit.isEmpty then s else s.setGroup k (g.setOps (s.redoLoads (fun _ => []) hit g.fl.ops))

/-- After a change of memory by an agent: the reads that were performed early are performed again, and the entries of early stores
whose turn has come are dropped. -/
def State.redoEarly (s : State) (mem : Memory) (who : Agent) : State :=
  let s := (s.groups.map Prod.fst).foldl (State.redoEarlyOf mem who) s
  { s with early := s.early.filter s.earlyStands }

/-- The pieces that an operation will add to the store hash, in ascending lane order: those of lane stores, which know their bytes, and of
atomics, which do not yet; an sst is no lane store (25: R408). -/
def MemOp.hashPieces (o : MemOp) : List HashPiece :=
  let piece := fun (a : LaneAcc) (bytes : List Byte) =>
    if a.lane = uniformLane || a.st.isFailed then none
    else some ({ seq := o.seq, lane := a.lane, off := a.off, va := a.va, bytes := bytes, done := false } : HashPiece)
  match o.kind with
  | .store _ => o.accs.filterMap fun a => piece a (leBytes a.size (a.data.toNat % 2 ^ (8 * a.size)))
  | .atom _ _ => o.accs.filterMap fun a => piece a []
  | .cas _ => o.accs.filterMap fun a => piece a []
  | .load _ _ => []
  | .fadd _ => []
  | .ldk => []
  | .fence _ => []

/-- The head of a group's queue leaves it. -/
def State.depart (s : State) (k : Nat) (g : Group) (o : MemOp) : State :=
  let o' := { o with queue := .outbound }
  let s := s.modGroup k fun g =>
    let g := g.setOps (g.fl.ops.map fun y => if y.seq = o.seq then o' else y)
    { g with fl := { g.fl with hashing := g.fl.hashing ++ o.hashPieces } }
  let s := s.modCore g.ctl.core fun c => { c with out := c.out ++ [(k, o.seq)] }
  (s.reperform g.ctl.core k o').afterPerform k o.seq

/-- STORE_QUEUE_DEPART (04: R85): the head entry of a group's store queue leaves into the outbound path. -/
def execStoreQueueDepart (grp : Nat) (s : State) : Out :=
  match Table.get? s.groups grp with
  | none => .next s
  | some g =>
    match g.queueHead with
    | none => .next s
    | some o => .next (if g.mayDepart o && !g.ctl.dead then s.depart grp g o else s)

/-! ## Landing (02: R56, 04: R84) -/

/-- Whether every lane of an LDK has read its pair, or has failed; other operations have no such lanes. -/
def MemOp.whole (o : MemOp) : Bool :=
  o.kv.all fun x => o.accs.any fun a => a.lane == x.lane && (a.isPair || a.st.isFailed)

/-- Whether the values of an operation may land: all its accesses are over, every earlier load is complete, and no fence before it
is outstanding. The log of a parked group stands in its context until it activates (02: R48, 01: R36). -/
def Group.mayLand (g : Group) (o : MemOp) : Bool :=
  g.ctl.act != .parked && o.kind.reads && o.accs.all LaneAcc.over && o.whole && !((g.before o.seq).any fun x => x.kind.reads)
    && (g.heldScopes o.seq).isEmpty

/-- VALUE_LANDS (02: R56): the value is complete in its landing lines, and the operation is finished. -/
def execValueLands (grp seq : Nat) (s : State) : Out :=
  match Table.get? s.groups grp with
  | none => .next s
  | some g =>
    match g.opAt seq with
    | none => .next s
    | some o => .next (if g.mayLand o then (s.setGroup grp (g.landOp o)).finishOp grp o else s)

/-! ## Replay of a log entry (02: R57, 03: R76) -/

/-- Translates an answered access by the TLBs under the slot that its answer named; a miss queues a walk, and the access goes on when
it ends. A slot that is invalid, or that does not give the page the rights of the access, counts as a failed answer (03: R76). -/
def State.replayAcc (s : State) (part core region : Nat) (o : MemOp) (a : LaneAcc) : State × LaneAcc :=
  match a.st with
  | .answered n =>
    let w := s.slotWord region n
    if !slotValid w then (s, { a with st := .failed codeAccess })
    else
      match s.tlb core region (slotGen w) (pageOf a.va) with
      | none => (s.queueWalk core (s.walkOf part region n (slotGen w) o.kind.access false a.va), a)
      | some e =>
        match leafReach o.kind.access e with
        | .leaf e => (s, { a with st := .leaf e })
        | .request => (s, { a with st := .failed codeAccess })
        | .denied _ => (s, { a with st := .failed codeAccess })
  | .miss => (s, a)
  | .wait _ => (s, a)
  | .leaf _ => (s, a)
  | .direct _ => (s, a)
  | .peer _ => (s, a)
  | .failed _ => (s, a)

/-- Whether an answered access may be replayed: no walk for it is to be done. -/
def State.mayReplay (s : State) (core region : Nat) (a : LaneAcc) : Bool :=
  match a.st with
  | .answered n => !s.walkPending core region (slotGen (s.slotWord region n)) (pageOf a.va)
  | .miss => false
  | .wait _ => false
  | .leaf _ => false
  | .direct _ => false
  | .peer _ => false
  | .failed _ => false

/-! ## Sleep (12: R233) -/

/-- sleep (12: R233): the address is checked as a load's; the set then waits, its first read due at once. -/
def execSleep (d a b : BitVec 6) (n64 : Bool) (c : SleepCond) (s : State) : Out :=
  s.runWord (.sleep d a b n64 c) fun is g s =>
    let va := g.rs a
    match s.startAccess g false (if n64 then 8 else 4) va with
    | .trap code =>
      .next ((s.windowViolation g.ctl.core code va).raiseAtIssue is.grp
        (is.addrTrap code ((lanesOf is.mask).headD 0) va))
    | .ok _ =>
      let z : Sleeper := {
        seq := g.fl.nextSeq, pc := is.pc, word := is.word, mask := is.mask, va := va, n64 := n64, cond := c
        val := if n64 then g.rs b else (g.rs b).setWidth 32 |>.setWidth 64
        threshold := if d = 63#6 then none else some ((g.rs d).setWidth 16)
        due := true, pa := none, req := none, answered := none }
      let g' := (g.advance is).setWait is.mask (some (.sleep z.seq))
      let g' := { g' with fl := { g'.fl with nextSeq := g.fl.nextSeq + 1, sleepers := g'.fl.sleepers ++ [z] } }
      .next (s.setGroup is.grp (g'.noteWait s.clk.cycle))

/-- Whether the condition of SLEEP holds. -/
def sleepHolds (c : SleepCond) (n64 : Bool) (v w : BitVec 64) : Bool :=
  let v := if n64 then v else (v.setWidth 32).setWidth 64
  match c with
  | .eq => v == w
  | .ne => v != w
  | .lo => v.ult w
  | .hs => !v.ult w

/-- Where the read of SLEEP goes. -/
inductive SleepReach where
  | here (st : AccState) (pa : Nat)
  | peer
  | miss (w : Walk)
  | fail (code : BitVec 8)
  deriving DecidableEq, Repr

/-- Where the read of SLEEP goes, translated by the TLBs (12: R233, 03: R70, R74). -/
def State.sleepReach (s : State) (g : Group) (z : Sleeper) : SleepReach :=
  match s.startAccess g false (if z.n64 then 8 else 4) z.va with
  | .trap c => .fail c
  | .ok (.direct pa) => .here (.direct pa) pa
  | .ok (.peer _) => .peer
  | .ok .miss =>
    let h := g.view.holder
    (match s.sleepSlot g z with
      | none => .fail codeAccess
      | some x =>
        match s.tlb g.ctl.core h x.2.1 (pageOf z.va) with
        | none => .miss (s.walkOf g.view.partition h x.1 x.2.1 kindRead false z.va)
        | some e => .here (.leaf e) (s.leafPa e z.va false))
  | .ok (.wait _) => .fail codeAccess
  | .ok (.leaf _) => .fail codeAccess
  | .ok (.answered _) => .fail codeAccess
  | .ok (.failed c) => .fail c

/-- The access of SLEEP as an access that others are compared with. -/
def Sleeper.acc (z : Sleeper) (st : AccState) : LaneAcc :=
  .fresh uniformLane 0 (if z.n64 then 8 else 4) z.va st 0#64 0#64 0

/-- SLEEP has read a value: the wait ends, or the set waits for the next store to the word. -/
def State.sleepValue (s : State) (k : Nat) (z : Sleeper) (pa : Option Nat) (v : BitVec 64) : State :=
  if sleepHolds z.cond z.n64 v z.val then s.modGroup k (Group.endSleep s.clk.cycle z)
  else
    s.modGroup k fun g => g.setSleepers (g.fl.sleepers.map fun x =>
      if x.seq = z.seq then { x with due := pa.isNone, pa := pa } else x)

/-- Whether something holds a read of SLEEP that goes to a home of this device (04: R81, R86, R90; 01: R31). -/
def State.sleepBlocked (s : State) (k : Nat) (g : Group) (z : Sleeper) (st : AccState) (pa : Nat) : Bool :=
  s.readBlocked g g.fl.nextSeq (z.acc st) || s.pathBlocked g.ctl.core k (z.acc st)
    || s.earlyBlocks (.group k) false (.home pa) (if z.n64 then 8 else 4) || s.cxlBehind g pa

/-- SLEEP reads its word at a home of this device: an access that scripts do not name (17: R304). -/
def State.sleepRead (s : State) (k : Nat) (g : Group) (z : Sleeper) (st : AccState) (pa : Nat) (reply : Reply) : State :=
  if s.sleepBlocked k g z st pa then s
  else
    let n := if z.n64 then 8 else 4
    let error := match reply with
      | .error e => some e
      | .done _ => s.spoilt pa n false
    match error with
    | some e => (s.homeViolation pa e fun s => s.laneViolation g.ctl.core z.va).failSleep k z codeAccess
    | none =>
      let s := s.countCxl g pa n true false
      let v := s.loadValue g g.fl.nextSeq pa (if z.n64 then 8 else 4)
      (s.homeNote pa Accessor.anonymous none).1.sleepValue k z (some pa) v

/-- One read of SLEEP: a page that misses in the TLBs queues its walk. -/
def State.sleepStep (s : State) (k : Nat) (g : Group) (z : Sleeper) (reply : Reply) : State :=
  match s.sleepReach g z with
  | .here st pa => s.sleepRead k g z st pa reply
  | .peer =>
    (match s.peerReply (s.importDevice (z.va.extractLsb' 38 16).toNat) reply with
      | .done v => s.sleepValue k z none v
      | .error _ => (s.laneViolation g.ctl.core z.va).failSleep k z codeImport)
  | .miss w => s.queueWalk g.ctl.core w
  | .fail c => s.failSleep k z c

/-- Whether a read of SLEEP is due and may be made: earlier loads are complete (04: R84). -/
def Group.sleepDue (g : Group) (z : Sleeper) : Bool :=
  z.due && z.req.isNone && !((g.before z.seq).any fun o => o.kind.reads) && !g.heldBehind z.seq

/-- SLEEP_WAKE (12: R233): the watched word is read again, and the set continues when its condition holds. -/
def execSleepWake (grp : Nat) (pc : BitVec 56) (reply : Reply) (s : State) : Out :=
  match Table.get? s.groups grp with
  | none => .next s
  | some g =>
    match g.fl.sleepers.find? fun z => z.pc == pc && g.sleepDue z with
    | none => .next s
    | some z => .next (s.sleepStep grp g z reply)

end Sys2Proof.Machine
end

