-- ==== Sys2Proof/Machine/Uniform.lean ====
section
/-!
DEFINITION. Uniform arithmetic and moves between the lanes and the group (12: R221 to R226), and the group words whose
effect is on control fields of their own group (12: R234, R235).
-/

namespace Sys2Proof.Machine

/-- A group word that writes one uniform register (12: R221). -/
def State.uniOp (s : State) (i : Instr) (d : BitVec 6) (val : Group → BitVec 64) : Out :=
  s.runGroup i fun _ g => g.ws d (val g)

/-- SD := SA + SB (12: R222). -/
def execSadd (d a b : BitVec 6) (s : State) : Out := s.uniOp (.sadd d a b) d fun g => g.rs a + g.rs b

/-- SD := SA - SB (12: R222). -/
def execSsub (d a b : BitVec 6) (s : State) : Out := s.uniOp (.ssub d a b) d fun g => g.rs a - g.rs b

/-- The low half of the product (12: R222). -/
def execSmul (d a b : BitVec 6) (s : State) : Out := s.uniOp (.smul d a b) d fun g => g.rs a * g.rs b

/-- The high half of the exact product, signed or unsigned (12: R222). -/
def execSmulh (d a b : BitVec 6) (uns : Bool) (s : State) : Out :=
  s.uniOp (.smulh d a b uns) d fun g =>
    if uns then BitVec.ofNat 64 ((g.rs a).toNat * (g.rs b).toNat / 2 ^ 64)
    else BitVec.ofInt 64 ((g.rs a).toInt * (g.rs b).toInt / 2 ^ 64)

/-- SD := SA AND SB (12: R222). -/
def execSand (d a b : BitVec 6) (s : State) : Out := s.uniOp (.sand d a b) d fun g => g.rs a &&& g.rs b

/-- SD := SA OR SB (12: R222). -/
def execSor (d a b : BitVec 6) (s : State) : Out := s.uniOp (.sor d a b) d fun g => g.rs a ||| g.rs b

/-- SD := SA XOR SB (12: R222). -/
def execSxor (d a b : BitVec 6) (s : State) : Out := s.uniOp (.sxor d a b) d fun g => g.rs a ^^^ g.rs b

/-- The shift amount of the uniform shifts, SB[7:0] (12: R222). -/
def sshamt (b : BitVec 64) : Nat := (b.setWidth 8).toNat

/-- Left shift (12: R222). -/
def execSshl (d a b : BitVec 6) (s : State) : Out := s.uniOp (.sshl d a b) d fun g => g.rs a <<< sshamt (g.rs b)

/-- Right shift with zero fill (12: R222). -/
def execSshr (d a b : BitVec 6) (s : State) : Out := s.uniOp (.sshr d a b) d fun g => g.rs a >>> sshamt (g.rs b)

/-- Right shift with sign fill (12: R222). -/
def execSsar (d a b : BitVec 6) (s : State) : Out :=
  s.uniOp (.ssar d a b) d fun g => (g.rs a).sshiftRight (sshamt (g.rs b))

/-- The smaller (12: R222). -/
def execSmin (d a b : BitVec 6) (uns : Bool) (s : State) : Out :=
  s.uniOp (.smin d a b uns) d fun g =>
    if (if uns then (g.rs a).ule (g.rs b) else (g.rs a).sle (g.rs b)) then g.rs a else g.rs b

/-- The larger (12: R222). -/
def execSmax (d a b : BitVec 6) (uns : Bool) (s : State) : Out :=
  s.uniOp (.smax d a b uns) d fun g =>
    if (if uns then (g.rs a).ule (g.rs b) else (g.rs a).sle (g.rs b)) then g.rs b else g.rs a

/-- ucc := the flags of SA - SB (12: R223). -/
def execScmp (a b : BitVec 6) (s : State) : Out :=
  s.runGroup (.scmp a b) fun _ g => g.setUcc (cmpFlags (g.rs a) (g.rs b))

/-- SD := SA when the condition holds on ucc, else SB (12: R223). -/
def execSsel (d a b : BitVec 6) (c : Cond) (s : State) : Out :=
  s.uniOp (.ssel d a b c) d fun g => if condHolds c g.regs.ucc then g.rs a else g.rs b

/-- SD := sext(i18) (12: R224). -/
def execSmovi (d : BitVec 6) (imm : BitVec 18) (s : State) : Out :=
  s.uniOp (.smovi d imm) d fun _ => imm.signExtend 64

/-- SD := (SD << 18) OR zext(i18) (12: R224). -/
def execSmovhi (d : BitVec 6) (imm : BitVec 18) (s : State) : Out :=
  s.uniOp (.smovhi d imm) d fun g => (g.rs d <<< 18) ||| imm.setWidth 64

/-- SD := SD + sext(i18) (12: R224). -/
def execSaddi (d : BitVec 6) (imm : BitVec 18) (s : State) : Out :=
  s.uniOp (.saddi d imm) d fun g => g.rs d + imm.signExtend 64

/-- The lane that lread names (12: R225). -/
def LaneSel.lane (x : LaneSel) (g : Group) : Nat :=
  match x with
  | .imm k => k.toNat
  | .reg b => ((g.rs b).setWidth 5).toNat

/-- One lane's vector register into a uniform register; a lane outside the set reads zero (12: R225). -/
def execLread (d a : BitVec 6) (lane : LaneSel) (s : State) : Out :=
  s.runGroup (.lread d a lane) fun is g =>
    let l := LaneSel.lane lane g
    g.ws d (if has is.mask l then (g.rv a l).setWidth 64 else 0#64)

/-- Half of a uniform register into every lane of the set (12: R225). -/
def execSbcast (d a : BitVec 6) (hi : Bool) (s : State) : Out :=
  s.runGroup (.sbcast d a hi) fun is g =>
    g.writeLanes is.mask d fun _ => if hi then (g.rs a).extractLsb' 32 32 else (g.rs a).setWidth 32

/-- The lanes of the set in which the condition holds on cK (12: R226). -/
def Group.votes (g : Group) (set : BitVec 32) (k : BitVec 2) (c : Cond) : BitVec 32 :=
  maskOf fun l => has set l && condHolds c (cregGet (g.cond l) k)

/-- The votes of the set, and ucc (12: R226). -/
def execBallot (d : BitVec 6) (k : BitVec 2) (c : Cond) (s : State) : Out :=
  s.runGroup (.ballot d k c) fun is g =>
    let m := g.votes is.mask k c
    (g.ws d (m.setWidth 64)).setUcc (ballotFlags m is.mask)

/-- Group with xi replaced. -/
def Group.setXi (g : Group) (x : BitVec 8) : Group := { g with regs := { g.regs with xi := x } }

/-- xi := an immediate (12: R234). -/
def execIdxImm (imm : BitVec 8) (s : State) : Out := s.runGroup (.idxImm imm) fun _ g => g.setXi imm

/-- xi := SD[7:0] (12: R234). -/
def execIdxReg (d : BitVec 6) (s : State) : Out := s.runGroup (.idxReg d) fun _ g => g.setXi ((g.rs d).setWidth 8)

/-- Group with the requested class replaced. -/
def Group.setClass (g : Group) (c : BitVec 2) : Group := { g with ctl := { g.ctl with cls := c } }

/-- The requested class := an immediate (12: R235). -/
def execPrioImm (imm : BitVec 2) (s : State) : Out := s.runGroup (.prioImm imm) fun _ g => g.setClass imm

/-- The requested class := SD[1:0] (12: R235). -/
def execPrioReg (d : BitVec 6) (s : State) : Out :=
  s.runGroup (.prioReg d) fun _ g => g.setClass ((g.rs d).setWidth 2)

end Sys2Proof.Machine
end

