-- ==== Sys2Proof/Machine/System.lean ====
section
/-!
DEFINITION. The system words: roots, the walker's tlbf, traps and their returns, notices, special registers, marks and
the order gate (12: R236 to R245).
-/

namespace Sys2Proof.Machine

/-! ## Roots (12: R236, R237) -/

/-- refresh (12: R236, 03: R69). -/
def execRefresh (s : State) : Out :=
  s.runWord .refresh fun is g s =>
    let h := s.slotHolder (s.regionOf g)
    .next ((s.setGroup is.grp (g.advance is)).refreshGroup is.grp h (s.currentSlot h))

/-- rootsw (12: R237, 22: R375): its release and its step follow; the group goes on. -/
def execRootsw (d a b : BitVec 6) (s : State) : Out :=
  s.runGroup (.rootsw d a b) fun _ g =>
    { g with fl := { g.fl with
      nextSeq := g.fl.nextSeq + 1
      roots := g.fl.roots ++ [{ d, word := g.rs a, gen := g.rs b, seq := g.fl.nextSeq }] } }

/-- Whether a root slot word may become a root: reserved bits zero, valid, the node in a range of 03: R65 (12: R237). -/
def State.rootOk (s : State) (w : BitVec 64) : Bool :=
  slotValid w && w.extractLsb' 4 5 == 0 && !w.getLsbD 1 && s.inMemory (slotNode w)

/-- The code of a root switch that installs a word with a generation, and the slot when it succeeds (12: R237). -/
def State.rootCode (s : State) (h : Nat) (w : BitVec 64) : Nat × Nat :=
  let valid := (List.range 8).filter fun i => slotValid (s.slotWord h i)
  if valid.any fun i => slotGen (s.slotWord h i) == slotGen w then (3, 0)
  else
    match (List.range 8).find? fun i => !valid.contains i with
    | none => (2, 0)
    | some i => (0, i)

/-- A word is written to a slot, which becomes current (12: R237); the old current slot may become unused (03: R70). -/
def State.installRoot (s : State) (h slot : Nat) (w : BitVec 64) : State :=
  s.modRegion h fun r => { r with slots := Table.put 0#64 r.slots slot w, current := slot }.noteUnused

/-- The result word of a root switch (12: R237). -/
def State.rootResult (s : State) (h code slot : Nat) : BitVec 64 :=
  BitVec.ofNat 64 (code * 2 ^ 56 + (slotGen (s.slotWord h (s.currentSlot h))).toNat * 2 ^ 16
    + if code = 0 then slot else 0)

/-- The step of a root switch at the region's home: state, code and result (12: R237). -/
def State.rootStep (s : State) (h : Nat) (w gen : BitVec 64) : State × BitVec 64 :=
  if !s.rootOk w || gen.extractLsb' 16 48 ≠ 0#48 then (s, s.rootResult h 4 0)
  else if slotGen (s.slotWord h (s.currentSlot h)) ≠ gen.setWidth 16 then (s, s.rootResult h 1 0)
  else
    let c := s.rootCode h w
    let s := if c.1 = 0 then s.installRoot h c.2 w else s
    (s, s.rootResult h c.1 c.2)

/-- Whether every access of a group before a position is done (05: R106 step 1). -/
def Group.released (g : Group) (seq : Nat) : Bool :=
  !((g.before seq).any fun o => o.kind.reads || o.kind.writes || o.acquires)

/-- Whether a rootsw has met its release: the earlier accesses are done, and the PUBLs and acquiring chwps that hold every later access of the
group (05: R106; 13: R257; 22: R375). -/
def Group.rootReady (g : Group) (r : RootSw) : Bool := g.released r.seq && !g.heldByCommand r.seq

/-- ROOTSW_STEP (22: R375): the install happens at the region's home, in one step. -/
def execRootswStep (grp : Nat) (s : State) : Out :=
  match Table.get? s.groups grp with
  | none => .next s
  | some g =>
    match g.fl.roots with
    | [] => .next s
    | r :: rest =>
      if !g.rootReady r then .next s
      else
        let x := s.rootStep g.view.holder r.word r.gen
        .next (x.1.modGroup grp fun g => ({ g with fl := { g.fl with roots := rest } } : Group).ws r.d x.2)

/-! ## tlbf (12: R238) -/

/-- The physical address of the last entry that the walk of a page reads. -/
def State.leafAddrFrom (s : State) (va : BitVec 64) (n node : Nat) : Nat :=
  match n with
  | 0 => node
  | m + 1 =>
    let pa := node + 8 * (va.extractLsb' (16 + 10 * m) 10).toNat
    let e := s.mem.w64 pa
    if m = 0 || !leafV e || !s.entryOk e then pa else State.leafAddrFrom s va m (entryNode e)

/-- The leaf address of a walk (12: R238). -/
def State.walkLeaf (s : State) (w : Walk) : Nat :=
  s.leafAddrFrom (BitVec.ofNat 64 (w.page * 2 ^ 16)) (slotDepth w.root) (slotNode w.root)

/-- Ends the running walk of the walker's core, if one runs; ends with what the form gives (12: R238, 21: R365). -/
def State.tlbf (s : State) (i : Instr) (r : State → Group → Walk → State × WalkResult) : Out :=
  s.runWord i fun is g s =>
    let s := s.setGroup is.grp (g.advance is)
    let c := s.core g.ctl.core
    match c.walks with
    | [] => .next s
    | w :: _ =>
      if !c.walking then .next s
      else
        let x := r s g w
        .next (x.1.endWalk g.ctl.core w x.2)

/-- tlbf.fill: a malformed leaf, or another page than the walk's, acts as tlbf.bad on the walk's leaf address. -/
def execTlbfFill (a b : BitVec 6) (s : State) : Out :=
  s.tlbf (.tlbfFill a b) fun s g w =>
    let e := g.rs b
    if leafV e && s.leafOk e && pageOf (g.rs a) == w.page then (s, .fill e)
    else (s.malformedNotice (some (s.walkLeaf w)), .bad)

/-- tlbf.req: the walk's page request, with a write mark when SB[0] = 1. -/
def execTlbfReq (a b : BitVec 6) (s : State) : Out :=
  s.tlbf (.tlbfReq a b) fun s g _ => (s, .req ((g.rs b).getLsbD 0))

/-- tlbf.bad: the access takes ACCESS, and firmware receives the malformed-tree notice. -/
def execTlbfBad (a b : BitVec 6) (s : State) : Out :=
  s.tlbf (.tlbfBad a b) fun s g _ => (s.malformedNotice (some (g.rs a).toNat), .bad)

/-! ## Traps and handlers (12: R242, 01: R35) -/

/-- trap: raises SWTRAP; the return PC is the next word's (12: R239, R242). -/
def execTrap (imm : BitVec 12) (s : State) : Out :=
  s.runWord (.trap imm) fun is g s =>
    .next ((s.setGroup is.grp (g.advance is)).raiseAtIssue is.grp
      { is.trap codeSwtrap with imm, ret := is.pc + 4#56 })

/-- brk: raises BREAK; while a debugger holds the group the resident handler takes it (12: R242, 25: R405). -/
def execBrk (imm : BitVec 12) (s : State) : Out :=
  s.runWord (.brk imm) fun is g s =>
    .next ((s.setGroup is.grp (g.advance is)).raiseAtIssue is.grp
      { is.trap codeBreak with imm, ret := is.pc + 4#56 })

/-- tret (12: R242). -/
def execTret (s : State) : Out :=
  s.runGroup' .tret fun is g => ((g.advance is).trapReturn).noteWait s.clk.cycle

/-- preq (01: R35): the group issues nothing more until resumption; with no notice pending it does nothing. -/
def execPreq (s : State) : Out :=
  s.runGroup .preq fun _ g =>
    if g.ctl.notice == .pending || g.ctl.notice == .handler then
      let bs := g.tr.boundary.filter fun t => t.code != codePnotice
      { g.noNotice with tr := { g.tr with boundary := bs, st := { g.tr.st with held := g.tr.st.held && !bs.isEmpty } } }
    else g

/-! ## Special registers (12: R243) -/

/-- WGID.X, WGID.Y and WGID.Z of a group (01: R15). -/
def State.wgids (s : State) (g : Group) : Nat × Nat × Nat :=
  match Table.get? s.launches g.id.launch with
  | none => (0, 0, 0)
  | some l =>
    let xw := l.desc.x * l.record.w
    let id := s.workgroupId g
    (id % xw, id / xw % l.desc.y, id / xw / l.desc.y)

/-- PRIO: requested, capped and effective class and the ceiling. -/
def State.prioWord (s : State) (k : Nat) (g : Group) : BitVec 64 :=
  BitVec.ofNat 64 (g.ctl.cls.toNat + 4 * s.ownClass g + 16 * s.effClass k + 64 * s.ceiling (s.regionOf g))

/-- ROOTSLOT: pinned slot, current slot, pinned generation. -/
def State.rootslotWord (s : State) (g : Group) : BitVec 64 :=
  BitVec.ofNat 64 (g.pinSlot % 8 + 16 * (s.currentSlot g.view.holder % 8) + 2 ^ 16 * g.pinGen.toNat)

/-- The write pointer of a channel of a gang (05: R104). -/
def State.chwp (s : State) (gang ch : Nat) : BitVec 64 :=
  match Table.get? s.gangs gang with
  | none => 0
  | some a => Table.getD a.chwp ch 0#64

/-- ROLE.n: kind, target and window of a role; for an own-cluster target the gang's cluster (20: R345). -/
def State.roleWord (s : State) (g : Group) (role : Nat) : BitVec 64 :=
  let b := s.bindingOf g.id.launch role
  let t := if bindKind b = 1 && bindTarget b = ownCluster then g.ctl.core / 4 else bindTarget b
  BitVec.ofNat 64 (bindKind b + 2 ^ 8 * t + 2 ^ 32 * bindWindow b)

/-- The value of a special register for a set; LANEID is the lowest lane's (12: R243). -/
def State.special (s : State) (is : Issue) (g : Group) (r : SpecReg) : BitVec 64 :=
  match r with
  | .laneid => BitVec.ofNat 64 ((lanesOf is.mask).headD 0)
  | .grpid => BitVec.ofNat 64 g.id.grpid
  | .wgidX => BitVec.ofNat 64 (s.wgids g).1
  | .wgidY => BitVec.ofNat 64 (s.wgids g).2.1
  | .wgidZ => BitVec.ofNat 64 (s.wgids g).2.2
  | .gangid => BitVec.ofNat 64 (s.gangidOf g)
  | .cluid => BitVec.ofNat 64 (g.ctl.core / 4)
  | .dieid => BitVec.ofNat 64 (g.ctl.core / 4 / Config.clustersPerDie)
  | .devid => s.device.setWidth 64
  | .time => BitVec.ofNat 64 s.clk.time
  | .cycle => BitVec.ofNat 64 s.clk.cycle
  | .seed => s.seedOf g
  | .prio => s.prioWord is.grp g
  | .rootslot => s.rootslotWord g
  | .tvec => g.tr.tvec.setWidth 64
  | .xi => g.regs.xi.setWidth 64
  | .chwp n => s.chwp g.id.gang n.toNat
  | .lcr n => s.lcr g n.toNat
  | .trapcode => g.tr.st.trapWord
  | .trappc => g.tr.st.pc.setWidth 64
  | .tretpc => g.tr.st.ret.setWidth 64
  | .trapaddr => g.tr.st.addr
  | .trapmask => g.tr.st.failed ++ g.tr.st.mask
  | .trapinfo => g.tr.st.info.setWidth 64
  | .trapcur => g.tr.st.cur.setWidth 64
  | .role n => s.roleWord g n.toNat

/-- sread (12: R243): a uniform register, or a vector register in every lane of the set, each lane its own LANEID. -/
def execSread (d : BitVec 6) (reg : SpecReg) (vec : Bool) (s : State) : Out :=
  s.runWord (.sread d reg vec) fun is g s =>
    let v := s.special is g reg
    let g' :=
      if vec then
        g.writeLanes is.mask d fun l => if reg == .laneid then BitVec.ofNat 32 l else v.setWidth 32
      else g.ws d v
    .next (s.setGroup is.grp (g'.advance is))

/-- swrite (12: R243): TVEC with bits that must be zero traps ILLFLD; TRETPC only inside a handler, its reserved bits
discarded; LCR replaces the count. -/
def execSwrite (d : BitVec 6) (reg : WSpecReg) (s : State) : Out :=
  s.runWord (.swrite d reg) fun is g s =>
    let v := g.rs d
    match reg with
    | .tvec =>
      if v.setWidth 2 ≠ 0#2 || v.extractLsb' 56 8 ≠ 0#8 then .next (s.raiseAtIssue is.grp (is.trap codeIllfld))
      else .next (s.setGroup is.grp (({ g with tr := { g.tr with tvec := v.setWidth 56 } } : Group).advance is))
    | .tretpc =>
      let g' : Group := if g.tr.st.active then
          { g with tr := { g.tr with st := { g.tr.st with ret := v.extractLsb' 2 54 ++ 0#2 } } }
        else g
      .next (s.setGroup is.grp (g'.advance is))
    | .lcr n => .next ((s.setGroup is.grp (g.advance is)).setLcr g n.toNat v)

/-- stamp (12: R243): TIME; the .ord form issues only when the group's earlier accesses are done. -/
def execStamp (d : BitVec 6) (ord : Bool) (s : State) : Out :=
  s.runGroup (.stamp d ord) fun _ g => g.ws d (BitVec.ofNat 64 s.clk.time)

/-! ## Marks (12: R244) -/

/-- pmark (12: R244). -/
def execPmark (imm : BitVec 12) (s : State) : Out :=
  s.runWord (.pmark imm) fun is g s => .next ((s.setGroup is.grp (g.advance is)).mark g is.mask imm 0#64)

/-- pmark.v (12: R244). -/
def execPmarkV (d : BitVec 6) (imm : BitVec 12) (s : State) : Out :=
  s.runWord (.pmarkV d imm) fun is g s => .next ((s.setGroup is.grp (g.advance is)).mark g is.mask imm (g.rs d))

/-! ## The order gate (12: R245) -/

/-- The physical address of a byte for an access of a group that no page request is posted for: none when the translation
ends in anything but a fill. -/
def State.nativePa (s : State) (g : Group) (kind : Nat) (va : BitVec 64) : Option Nat :=
  match s.startAccess g (isWrite kind) 1 va with
  | .ok .miss =>
    match walkReach kind (s.walk (s.rootOf g) va) with
    | .leaf e => some (s.leafPa e va false)
    | .request => none
    | .denied _ => none
  | .ok (.direct pa) => some pa
  | .ok (.peer _) => none
  | .ok (.wait _) => none
  | .ok (.leaf _) => none
  | .ok (.answered _) => none
  | .ok (.failed _) => none
  | .trap _ => none

/-- What a translation that does not end in a fill leaves: the malformed-tree notice, when it met a malformed entry (03: R74). -/
def State.noteWalk (s : State) (g : Group) (va : BitVec 64) : State :=
  if va.extractLsb' 56 8 = 0#8 && inTree va then s.noteWalkEnd (s.rootOf g) va else s

/-- The byte at a virtual address; none when it does not translate for a read, or its read gets an error response (23: R384). -/
def State.byteVa (s : State) (g : Group) (va : BitVec 64) : Option Byte :=
  match s.nativePa g kindRead va with
  | none => none
  | some pa => if (s.spoilt pa 1 false).isSome then none else some (s.mem.byte pa)

/-- The n bytes from a virtual address up; none when one of them cannot be read. -/
def State.readVa (s : State) (g : Group) (va : BitVec 64) (n : Nat) : Option (List Byte) :=
  match n with
  | 0 => some []
  | m + 1 =>
    match s.byteVa g va, State.readVa s g (va + 1#64) m with
    | some b, some bs => some (b :: bs)
    | _, _ => none

/-- What the read of a byte that cannot be read leaves: the notice of a malformed tree, or the violation of an error response (03: R74; 23:
R386). -/
def State.noteByteRead (s : State) (g : Group) (va : BitVec 64) : State :=
  match s.nativePa g kindRead va with
  | none => s.noteWalk g va
  | some pa =>
    match s.spoilt pa 1 false with
    | none => s
    | some e => s.homeViolation pa e id

/-- What the read of n bytes leaves that stops at one of them. -/
def State.noteBytesRead (s : State) (g : Group) (va : BitVec 64) (n : Nat) : State :=
  match ((List.range n).map fun i => va + BitVec.ofNat 64 i).find? fun a => (s.byteVa g a).isNone with
  | none => s
  | some a => s.noteByteRead g a

/-- The script entry in 16 bytes: virtual word, group, lane, ordinal (12: R245). -/
def scriptFields (bs : List Byte) : BitVec 64 × Nat × Nat × Nat :=
  let hi := leNat (bs.drop 8)
  (BitVec.ofNat 64 (leNat (bs.take 8)), bitsOf hi 0 32, bitsOf hi 32 5, bitsOf hi 37 27)

/-- The entries of a script, each word translated under the issuer's pin; none when an address faults or is misaligned. -/
def State.readScript (s : State) (g : Group) (va : BitVec 64) (n : Nat) : Option (List ScriptEntry) :=
  match n with
  | 0 => some []
  | m + 1 =>
    match s.readVa g va 16, State.readScript s g (va + 16#64) m with
    | some bs, some es =>
      let f := scriptFields bs
      if f.1.setWidth 3 ≠ 0#3 then none
      else (s.nativePa g kindRead f.1).map fun pa =>
        { word := pa, group := f.2.1, lane := f.2.2.1, ordinal := f.2.2.2, run := none } :: es
    | _, _ => none

/-- What the reading of a script leaves that stops at an entry, or at the word that one names. -/
def State.noteScript (s : State) (g : Group) (va : BitVec 64) (n : Nat) : State :=
  match n with
  | 0 => s
  | m + 1 =>
    match s.readVa g va 16 with
    | none => s.noteBytesRead g va 16
    | some bs =>
      let w := (scriptFields bs).1
      if w.setWidth 3 ≠ 0#3 then s
      else if (s.nativePa g kindRead w).isNone then s.noteWalk g w
      else State.noteScript s g (va + 16#64) m

/-- ACCESS on the group that issued a gate whose descriptor cannot be read (12: R245). -/
def gateTrap (is : Issue) (va : BitVec 64) : TrapReq :=
  { is.trap codeAccess with
    ret := 0, failed := is.mask, info := BitVec.ofNat 32 ((lanesOf is.mask).headD 0), addr := va, rank := 1 }

/-- The loads of words that come under a gate, and were performed before an earlier acquire or fence that reaches the control die, are to be
performed again, under the gate: they are kept after an acquire that reads its code 0 (17: R305; 04: R95). -/
def State.ungated (s : State) (words : List Nat) (k : Nat) (g : Group) : Group :=
  let early := fun (o : MemOp) => o.kind.reads && !o.kind.writes && (g.heldScopes o.seq).any fun c => s.inInstance k g c .control
  let mine := fun (a : LaneAcc) => a.done && ((s.accPa a).map fun pa => words.contains (wordOf pa)).getD false
  let hit := (g.fl.ops.filter early).flatMap fun o => o.accs.filter mine
  if hit.isEmpty then g
  else
    g.setOps ((s.redoLoads (fun _ => []) hit g.fl.ops).map fun o =>
      { o with accs := o.accs.map fun a => if a.done then a else { a with judged := false } })

/-- Arms a gate on a region over words: in force before the status store of code 0 (17: R305). -/
def State.armGate (s : State) (rcb : Nat) (es : List ScriptEntry) (words : List Nat) (status timeout : Nat) (replay : Bool) : State :=
  let t := s.modRegion rcb fun r => { r with gate := some {
      script := es, words, status, timeout, unscripted := 0
      progressed := s.fresh, replay, runHash := [] } }
  ({ t with fresh := s.fresh + 1, groups := t.groups.map fun p => (p.1, s.ungated words p.1 p.2) } : State).storeNat status 8 (gateStatus 0 0)

/-- The status address of a descriptor, when it can be written. -/
def State.statusPa (s : State) (g : Group) (va : BitVec 64) : Option Nat :=
  if va.setWidth 3 ≠ 0#3 then none else s.nativePa g kindWrite va

/-- gate.arm on a descriptor whose bytes were read (12: R245): rejected, or armed. DEDUCED (log 19): the step is the control die's
(08: R161), which walks the tree itself under the issuer's pin; a malformed entry that it meets is noticed (03: R74). -/
def State.gateDescriptor (s : State) (g : Group) (bs : List Byte) : State :=
  let va := BitVec.ofNat 64 (leNat (bs.take 8))
  let st := BitVec.ofNat 64 (leNat ((bs.drop 8).take 8))
  let w := leNat (bs.drop 16)
  let n := bitsOf w 0 16
  let timeout := bitsOf w 16 32
  let bad := w / 2 ^ 48 ≠ 0 || n = 0
  let es := if bad then none else s.readScript g va n
  let noted := if bad || es.isSome then s else s.noteScript g va n
  match es, s.statusPa g st with
  | some es, some pa =>
    let words := (es.map ScriptEntry.word).eraseDups
    if 1024 < words.length then s.storeNat pa 8 (gateStatus 3 0)
    else s.armGate (s.regionOf g) es words pa (if timeout = 0 then 2 ^ 20 else timeout) false
  | none, some pa => noted.storeNat pa 8 (gateStatus 3 0)
  | _, none => if st.setWidth 3 ≠ 0#3 then noted else noted.noteWalk g st

/-- gate.arm (12: R245): an armed gate is cancelled first. -/
def execGateArm (d : BitVec 6) (s : State) : Out :=
  s.runWord (.gateArm d) fun is g s =>
    let va := g.rs d
    let s := (s.setGroup is.grp (g.advance is)).endGate (s.regionOf g) 3
    match s.readVa g va 32 with
    | none => .next ((s.noteBytesRead g va 32).raiseBoundary is.grp (gateTrap is va))
    | some bs => .next (s.gateDescriptor g bs)

/-- gate.cancel (12: R245). -/
def execGateCancel (d : BitVec 6) (s : State) : Out :=
  s.runWord (.gateCancel d) fun is g s => .next ((s.setGroup is.grp (g.advance is)).endGate (s.regionOf g) 3)

end Sys2Proof.Machine
end

