-- ==== Sys2Proof/Machine/Kv.lean ====
section
/-!
DEFINITION. Accesses that translate as they go (engine commands and LDK), tensor identifiers, paged KV: first and second
stage, the slant rotation; and LDK (11: R216 to R220; 13: R249, R250, R272; 21: R369, R370; 06: R133 to R135).
-/

namespace Sys2Proof.Machine

/-! ## Accesses by the byte -/

/-- An error response that an engine command met: what for, the physical address when a home of this device sent it, and the
virtual address of the access, when it has one. -/
structure ErrorAt where
  kind : ErrorKind
  home : Option Nat
  va : Option (BitVec 64)
  deriving DecidableEq, Repr

/-- Why an access stops: a page request is needed, a walk is to be waited for, its bytes are kept by an early store, or it fails with
a status code of 13: R248. -/
inductive Stop where
  | page (va : BitVec 64) (kind : Nat)
  | walk (slot : Nat) (gen : BitVec 16) (va : BitVec 64) (kind : Nat)
  | hold
  | fail (code : Nat) (error : Option ErrorAt)
  deriving DecidableEq, Repr

/-- Where an address leads. -/
inductive Loc where
  | pa (n : Nat)
  | peer (slot : Nat)
  deriving DecidableEq, Repr

/-- A command that reads and writes: its group, the pages that answers served and their slots, the walks that ended for it, and whether
a page request of it was answered with a failure (21: R363, R369). -/
structure Reader where
  g : Group
  answered : List (Nat × Nat)
  walked : List Walked
  failed : Bool := false
  deriving DecidableEq, Repr

/-- A state, and what is left of what agents outside supply. -/
structure Run where
  s : State
  ext : List Byte
  /-- A peer or a home answers with an error response, after so many accesses. -/
  refuse : Option (ErrorKind × Nat) := none
  /-- Peers have not answered yet. -/
  silent : Bool := false
  /-- The device to which a port was lost. -/
  lost : Option (BitVec 22) := none

/-- A run that begins with what agents outside supply. -/
def Run.of (s : State) (ext : EngineReply) : Run where
  s := s
  ext := ext.bytes
  refuse := ext.error
  silent := ext.silent
  lost := ext.lost

/-- The slot that a command's access to a page translates under: the one that the page's last answer named, or the group's; and
whether an answer named it (21: R369). -/
def Reader.slotFor (r : Reader) (page : Nat) : Nat × Bool :=
  match (r.answered.filter fun p => p.1 == page).getLast? with
  | none => (r.g.pinSlot, false)
  | some p => (p.2, true)

/-- How the translation of a page under a slot stands for a command: by the TLBs, or by a walk that ended for it. -/
def State.pageFor (s : State) (r : Reader) (slot : Nat) (gen : BitVec 16) (page : Nat) : Option WalkResult :=
  match s.tlb r.g.ctl.core r.g.view.holder gen page with
  | some e => some (.fill e)
  | none => (r.walked.find? fun w => w.1 == slot && w.2.1 == page).map fun w => w.2.2

/-- Where an address of tree space leads for an access of a command (03: R70, R74; 21: R369). A page that an answer served and
that is not there, or any page that is not there after a failed answer, fails; a page without the right to write asks for it. -/
def State.locateTree (s : State) (r : Reader) (kind : Nat) (hidden : Bool) (va : BitVec 64) : Except Stop Loc :=
  let x := r.slotFor (pageOf va)
  let w := s.slotWord r.g.view.holder x.1
  if x.2 && !slotValid w then .error (.fail 2 none)
  else
    match s.pageFor r x.1 (slotGen w) (pageOf va) with
    | none => .error (.walk x.1 (slotGen w) va kind)
    | some .bad => .error (.fail 2 none)
    | some (.req _) => if x.2 || r.failed then .error (.fail 2 none) else .error (.page va kind)
    | some (.fill e) =>
      match leafReach kind e with
      | .leaf e => .ok (.pa (s.leafPa e va hidden))
      | .request => if r.failed then .error (.fail 2 none) else .error (.page va kind)
      | .denied _ => .error (.fail 2 none)

/-- A failure in the role or the import window, which is a violation (23: R386: R72, R73). -/
def windowStop (code : Nat) (va : BitVec 64) : Stop := .fail code (some { kind := .access, home := none, va := some va })

/-- Where an address leads for an access of a command (03: R61, R72 to R74); in the walker slot it is physical, and nothing is written (21:
R364). -/
def State.locate (s : State) (r : Reader) (kind : Nat) (hidden : Bool) (va : BitVec 64) : Except Stop Loc :=
  if r.g.id.walker then
    match s.startWalker (kind == kindWrite || kind == kindEngineWrite) 1 va with
    | .ok (.direct pa) => .ok (.pa pa)
    | _ => .error (.fail 2 none)
  else if va.extractLsb' 56 8 ≠ 0#8 then .error (.fail 2 none)
  else if inTree va then s.locateTree r kind hidden va
  else if va.extractLsb' 54 2 = 2#2 then
    if !roleOk va then .error (.fail 2 none)
    else if bindKind (s.bindingOf r.g.id.launch (va.extractLsb' 40 8).toNat) ≠ 1 then .error (windowStop 1 va)
    else
      match s.roleAt r.g.id.launch r.g.id.gang (va.extractLsb' 40 8).toNat (va.setWidth 23).toNat with
      | none => .error (windowStop 2 va)
      | some pa => .ok (.pa pa)
  else
    let slot := (va.extractLsb' 38 16).toNat
    let e := s.importAt slot
    if importValid e && !importKv e then .ok (.peer slot) else .error (windowStop 3 va)

/-- The locations of n bytes from an address up. -/
def State.locations (s : State) (rd : Reader) (kind : Nat) (hidden : Bool) (va : BitVec 64) (n : Nat) :
    Except Stop (List Loc) :=
  match n with
  | 0 => .ok []
  | m + 1 =>
    match s.locate rd kind hidden va with
    | .error e => .error e
    | .ok l =>
      match State.locations s rd kind hidden (va + 1#64) m with
      | .error e => .error e
      | .ok ls => .ok (l :: ls)

/-- The physical address of a location of this device. -/
def Loc.here (l : Loc) : Option Nat :=
  match l with
  | .pa p => some p
  | .peer _ => none

/-- An engine reads bytes: accesses that scripts do not name (05: R112). DESIGN CHOICE (log 72): a read counts as one access for each
aligned 8-byte word that it meets. -/
def State.engineNote (s : State) (ls : List Loc) : State :=
  ((ls.filterMap Loc.here).map wordOf).eraseDups.foldl (fun s w => (s.homeNote w Accessor.anonymous none).1) s

/-- The bytes of CXL windows and of import windows that an engine command reaches are counted (24: R398, 01: R31). -/
def State.countLocs (s : State) (g : Group) (write : Bool) (ls : List Loc) : State :=
  let cxl := (ls.filterMap Loc.here).filter s.inCxl
  let imp := (ls.filter fun l => l.here.isNone).length
  let s := if cxl.isEmpty then s
    else (s.modRegion (s.regionOf g) fun r => cxl.foldl (fun r p => r.useCxl (s.cxlPortOf p) 1) r).tally g.view.partition
      (if write then 0x0F else 0x0E) cxl.length
  if imp = 0 then s else s.tally g.view.partition 0x10 imp

/-- What an error response to an access that reaches these locations comes to: access from a home of this device, import from a
peer (13: R248; 23: R384). -/
def errorStop (kind : ErrorKind) (ls : List Loc) (va : Option (BitVec 64)) : Stop :=
  let here := ls.all fun l => l.here.isSome
  .fail (if here then 2 else 3) (some { kind := kind, home := if here then ls.head?.bind Loc.here else none, va := va })

/-- Whether an access reaches a device to which a port was lost. -/
def Run.reachesLost (r : Run) (ls : List Loc) : Bool :=
  match r.lost with
  | none => false
  | some d => ls.any fun l =>
      match l with
      | .pa _ => false
      | .peer slot => r.s.importDevice slot == d

/-- The place of a location. -/
def State.locSpot (s : State) (l : Loc) : Spot :=
  match l with
  | .pa p => .home p
  | .peer slot => .peer (s.importDevice slot)

/-- The error response that locations give of themselves: of their homes, or of a peer to which no port is up (23: R383 to R385, R388). -/
def State.locsError (s : State) (write : Bool) (ls : List Loc) : Option ErrorKind :=
  (ls.filterMap fun l =>
    match l with
    | .pa p => s.spoilt p 1 write
    | .peer slot => if s.linked (s.importDevice slot) then none else some .access).head?

/-- The gate of an access that reaches these locations: whether an access performed early keeps its bytes (04: R90), it queues at
a CXL port behind other regions (01: R31), a home or a peer answers with an error, or a home refuses a write (23: R383 to R385); else the run with one access made. -/
def Run.enter (r : Run) (rd : Reader) (write : Bool) (va : Option (BitVec 64)) (ls : List Loc) : Except Stop Run :=
  if (ls.any fun l => r.s.earlyBlocks rd.g.engines write (r.s.locSpot l) 1) || (ls.filterMap Loc.here).any (r.s.cxlBehind rd.g) then .error .hold
  else if r.reachesLost ls then .error (errorStop .access ls va)
  else if r.silent && ls.any fun l => l.here.isNone then .error .hold
  else
    match r.s.locsError write ls, r.refuse with
    | some k, _ => .error (errorStop k ls va)
    | none, none => .ok r
    | none, some (k, 0) => .error (errorStop k ls va)
    | none, some (k, n + 1) => .ok { r with refuse := some (k, n) }

/-- The bytes at locations: from memory, or the next bytes that a peer returned. -/
def Run.bytesAt (r : Run) (ls : List Loc) : Run × List Byte :=
  match ls with
  | [] => (r, [])
  | .pa pa :: t =>
    let x := Run.bytesAt r t
    (x.1, r.s.mem.byte pa :: x.2)
  | .peer _ :: t =>
    let x := Run.bytesAt { r with ext := r.ext.drop 1 } t
    (x.1, r.ext.headD 0 :: x.2)

/-- Reads the bytes at locations: the gates take note, and the bytes are counted. -/
def Run.readAt (r : Run) (rd : Reader) (va : Option (BitVec 64)) (ls : List Loc) : Except Stop (Run × List Byte) :=
  match r.enter rd false va ls with
  | .error e => .error e
  | .ok r =>
    let x := r.bytesAt ls
    .ok ({ x.1 with s := (x.1.s.engineNote ls).countLocs rd.g false ls }, x.2)

/-- Reads n bytes from an address up. -/
def Run.read (r : Run) (rd : Reader) (kind : Nat) (va : BitVec 64) (n : Nat) : Except Stop (Run × List Byte) :=
  match r.s.locations rd kind false va n with
  | .error e => .error e
  | .ok ls => r.readAt rd (some va) ls

/-- Runs of bytes at consecutive physical addresses. -/
def pieces (ls : List (Loc × Byte)) (acc : List (Nat × List Byte)) : List (Nat × List Byte) :=
  match ls with
  | [] => acc.reverse
  | (.peer _, _) :: r => pieces r acc
  | (.pa p, b) :: r =>
    match acc with
    | [] => pieces r [(p, [b])]
    | (q, bs) :: t => if q + bs.length = p then pieces r ((q, bs ++ [b]) :: t) else pieces r ((p, [b]) :: (q, bs) :: t)

/-- An engine that works for a group writes bytes at locations of this device; those at a peer are the peer's, and reads of it that were
performed early are performed again (04: R90; 05: R98). -/
def State.writeLocs (s : State) (g : Group) (ls : List Loc) (bs : List Byte) : State :=
  let s := (pieces (ls.zip bs) []).foldl (fun s p => s.engineStore p.1 p.2) s
  ((ls.filterMap fun l => if l.here.isSome then none else some (s.locSpot l)).eraseDups).foldl (fun s x =>
    match x with
    | .home _ => s
    | .peer dev => s.redoPeer g.engines dev) s

/-- An engine writes bytes at locations. -/
def Run.writeAt (r : Run) (rd : Reader) (va : Option (BitVec 64)) (ls : List Loc) (bs : List Byte) : Except Stop Run :=
  match r.enter rd true va ls with
  | .error e => .error e
  | .ok r => .ok { r with s := (r.s.writeLocs rd.g ls bs).countLocs rd.g true ls }

/-- An engine writes bytes from an address up, as one or not at all. -/
def Run.write (r : Run) (rd : Reader) (hidden : Bool) (va : BitVec 64) (bs : List Byte) : Except Stop Run :=
  match r.s.locations rd kindEngineWrite hidden va bs.length with
  | .error e => .error e
  | .ok ls => r.writeAt rd (some va) ls bs

/-! ## Tensor identifiers (13: R249, R250) -/

/-- The n-byte field at an offset of an entry's 64 bytes. -/
def tidField (e : List Byte) (off n : Nat) : Nat := leNat ((e.drop off).take n)

def tidBase (e : List Byte) : BitVec 64 := BitVec.ofNat 64 (tidField e 0x00 8)
def tidAux (e : List Byte) : BitVec 64 := BitVec.ofNat 64 (tidField e 0x08 8)
def tidMeta (e : List Byte) : Nat := tidField e 0x10 8
def tidN0 (e : List Byte) : Nat := tidField e 0x18 4
def tidN1 (e : List Byte) : Nat := tidField e 0x1C 4
def tidN2 (e : List Byte) : Nat := tidField e 0x20 4
def tidFormat (e : List Byte) : Nat := bitsOf (tidField e 0x24 4) 0 4
def tidQ4Type (e : List Byte) : Nat := bitsOf (tidField e 0x24 4) 4 2
def tidKind (e : List Byte) : Nat := bitsOf (tidField e 0x24 4) 6 2
def tidStride1 (e : List Byte) : Nat := tidField e 0x28 6
def tidStride2 (e : List Byte) : Nat := tidField e 0x30 6
def tidFill (e : List Byte) : Nat := tidField e 0x38 4
def tidH (e : List Byte) : Nat := bitsOf (tidMeta e) 0 16
def tidDh (e : List Byte) : Nat := bitsOf (tidMeta e) 16 16

/-- Whether an entry is malformed (13: R250). -/
def tidMalformed (e : List Byte) : Bool :=
  tidField e 0x24 4 / 256 != 0 || tidField e 0x2E 2 != 0 || tidField e 0x36 2 != 0 || tidField e 0x3C 4 != 0
    || decide (10 < tidFormat e)
    || ((tidKind e == 0 || tidKind e == 3) && tidMeta e != 0)
    || (tidKind e == 1 && (tidMeta e / 2 ^ 32 != 0 || tidDh e % 2 == 1 || tidDh e == 0 || tidH e == 0))
    || (tidKind e == 2 && tidN0 e % 4 != 0)
    || (tidKind e == 3 && (!(tidN1 e != 0 && 2 ^ (tidN1 e).log2 == tidN1 e) || decide (2 ^ 24 < tidN0 e) || decide (2 ^ 24 < tidN1 e)))

/-- Bits of an element of a format code (13: R249): 4 for q4. -/
def formatBits (f : Nat) : Nat :=
  match f with
  | 0 => 32 | 1 => 64 | 2 => 16 | 3 => 16 | 4 => 8 | 5 => 8 | 6 => 32 | 7 => 32 | 8 => 4 | 9 => 8 | _ => 8

/-- The floating format of a code; none for the integers and q4. -/
def formatOf (f : Nat) : Option FloatFmt :=
  match f with
  | 0 => some f32
  | 1 => some f64
  | 2 => some f16
  | 3 => some bf16
  | 4 => some e4m3
  | 5 => some e5m2
  | _ => none

/-- The formats that the slant stage accepts: f16, bf16, e4m3, e5m2. -/
def slantFormat (f : Nat) : Bool := f == 2 || f == 3 || f == 4 || f == 5

/-! ## Paged KV (11: R217 to R219; 13: R272) -/

/-- A first-stage entry: meta half and data half (11: R217). -/
structure KvEntry where
  meta_ : Nat
  data : Nat
  deriving DecidableEq, Repr

def KvEntry.valid (e : KvEntry) : Bool := e.meta_ % 2 == 1
def KvEntry.tier (e : KvEntry) : Nat := bitsOf e.meta_ 1 2
def KvEntry.role (e : KvEntry) : Nat := bitsOf e.meta_ 8 8
def KvEntry.reservedOk (e : KvEntry) : Bool := bitsOf e.meta_ 3 5 == 0 && e.meta_ / 2 ^ 16 == 0
def KvEntry.block (e : KvEntry) : Nat := e.data % 2 ^ 32
def KvEntry.slant (e : KvEntry) : Nat := e.data / 2 ^ 32

/-- The address of the first-stage entry of a position (11: R217). -/
def kvEntryAt (tid : List Byte) (p : Nat) : BitVec 64 := tidBase tid + BitVec.ofNat 64 (16 * (p / 32))

/-- The second stage of this device: the page of a block; none when resolution fails (13: R272). tier is none for a request
of a peer, whose page may lie in either range. -/
def State.secondStage (s : State) (block : Nat) (tier : Option Nat) : Option Nat :=
  if s.disp.kvCount ≤ block || (s.spoilt (s.disp.kvBase + 8 * block) 8 false).isSome then none
  else
    let e := s.mem.w64 (s.disp.kvBase + 8 * block)
    let pa := (e.extractLsb' 6 46).toNat * 64
    let inside := match tier with
      | some 0 => inSlice pa
      | some _ => s.inCxl pa
      | none => s.inMemory pa
    if e.getLsbD 0 && e.extractLsb' 1 5 == 0 && e.extractLsb' 52 12 == 0 && inside then some pa else none

/-- The read of a block's entry of the second-stage table: an access that scripts do not name (05: R112), or an error response, which is logged (23:
R386). -/
def State.secondRead (s : State) (block : Nat) : State :=
  let pa := s.disp.kvBase + 8 * block
  if s.disp.kvCount ≤ block then s
  else
    match s.spoilt pa 8 false with
    | none => s.noteBytes pa 8
    | some e => s.homeViolation pa e fun s => s.violation (BitVec.ofNat 64 pa) (s.homeSource pa) 3 0

/-- The lowest valid KV import slot of a device (21: R370). -/
def State.kvImport (s : State) (device : Nat) : Option Nat :=
  (s.xlat.imports.find? fun p => importValid p.2 && importKv p.2 && (p.2.setWidth 22).toNat == device).map Prod.fst

/-- Where a page of paged KV lies: on this device, or at a peer. -/
inductive KvPage where
  | here (pa : Nat)
  /-- at the owner that a KV import slot leads to -/
  | peer (slot : Nat)
  deriving DecidableEq, Repr

/-- Whether a role's binding agrees with a tier of this device: SRAM or CXL need a cluster, an interleave set or this device
(11: R218 step 3). -/
def State.tierAgrees (s : State) (launch : Nat) (e : KvEntry) : Bool :=
  let b := s.bindingOf launch e.role
  let own := bindKind b == 2 && bindTarget b == s.device.toNat
  match e.tier with
  | 0 => bindKind b == 1 || bindKind b == 3 || own
  | 1 => bindKind b == 1 || bindKind b == 3 || own
  | 2 => bindKind b == 2 && !own
  | _ => false

/-- What the resolution of an entry reads of the second stage of this device: nothing for one that fails a check or names a peer. -/
def State.kvSecond (s : State) (launch : Nat) (e : KvEntry) : State :=
  if e.valid && e.reservedOk && s.tierAgrees launch e && e.tier != 2 then s.secondRead e.block else s

/-- Resolves an entry (11: R218 steps 3 and 4): its checks, the tier and the second stage. A failure is KVMAP (7), or IMPORT
(3) when no import slot serves a peer. -/
def State.kvResolve (s : State) (launch : Nat) (e : KvEntry) : Except Stop KvPage :=
  if !(e.valid && e.reservedOk && s.tierAgrees launch e) then .error (.fail 7 none)
  else if e.tier = 2 then
    match s.kvImport (bindTarget (s.bindingOf launch e.role)) with
    | none => .error (.fail 3 none)
    | some slot => .ok (.peer slot)
  else
    match s.secondStage e.block (some e.tier) with
    | none => .error (.fail 7 none)
    | some pa => .ok (.here pa)

/-- Reads the first-stage entry of a position for a command; the three reads of 11: R219 are made together. -/
def Run.kvEntry (r : Run) (rd : Reader) (tid : List Byte) (p kind : Nat) : Except Stop (Run × KvEntry) :=
  match r.read rd kind (kvEntryAt tid p) 16 with
  | .error e => .error e
  | .ok x => .ok (x.1, { meta_ := leNat (x.2.take 8), data := leNat (x.2.drop 8) })

/-- Bytes of a token row at an offset for a command: from the resolved page, or what the owner returned (11: R218 step 5). -/
def Run.kvBytes (r : Run) (rd : Reader) (va : BitVec 64) (page : KvPage) (off n : Nat) : Except Stop (Run × List Byte) :=
  match page with
  | .here pa => r.readAt rd none ((List.range n).map fun i => .pa (pa + off + i))
  | .peer slot => r.readAt rd (some va) (List.replicate n (.peer slot))

/-- The rotation of a pair of elements by an angle (06: R135). DEDUCED (log 84): the exact expressions decide also for an infinite element,
which 0 times infinity makes a NaN at a quarter turn. -/
def rotatePair (f : FloatFmt) (x0 x1 : Nat) (phi : BitVec 32) : Nat × Nat :=
  let c := val32 (rnd32 (cosTurns phi))
  let s := val32 (rnd32 (sinTurns phi))
  let a := f.decode x0
  let b := f.decode x1
  (f.round .rne (val32 (rnd32 ((a.mul c).add (b.mul s).neg))), f.round .rne (val32 (rnd32 ((a.mul s).add (b.mul c)))))

/-- The angle of a slot of a page (06: R133). -/
def slantAngle (slant slot freq : Nat) : BitVec 32 := BitVec.ofNat 32 ((slant + slot) * freq)

/-! ## LDK (11: R216 to R220) -/

/-- The fields of a handle (11: R216). -/
def handlePair (h : BitVec 64) : Nat := (h.extractLsb' 16 8).toNat
def handleHead (h : BitVec 64) : Nat := (h.extractLsb' 8 8).toNat
def handleTid (h : BitVec 64) : Nat := (h.setWidth 8).toNat

/-- The tensor-identifier entry n of a launch. -/
def State.tidEntry (s : State) (launch n : Nat) : List Byte :=
  match Table.get? s.launches launch with
  | none => List.replicate 64 0#8
  | some l => (List.range 64).map fun k => Table.getD l.tids (64 * n + k) 0#8

/-- Step 1 of LDK: the handle and the tensor are fit (11: R218). -/
def ldkFit (h : BitVec 64) (tid : List Byte) : Bool :=
  h.extractLsb' 24 40 == 0 && !tidMalformed tid && tidKind tid == 1 && slantFormat (tidFormat tid)
    && decide (handleHead h < tidH tid) && decide (2 * handlePair h + 1 < tidDh tid)

/-- The tensor-identifier entry n of a launch in the replica of a cluster: a tidset replaces replicas before its status lands (15:
R300). -/
def State.tidReplica (s : State) (launch cluster n : Nat) : List Byte :=
  match (Table.get? s.launches launch).bind fun l => (l.tidAhead.filter fun e => e.1 == cluster && e.2.1 == n).getLast? with
  | some e => e.2.2
  | none => s.tidEntry launch n

/-- A read of n bytes of an LDK lane, at issue or at a replay of the lane. DESIGN CHOICE (log 78): one that fails a check which R206 makes at
issue fails its lane, with the code of that check. -/
def State.kvRead (s : State) (g : Group) (lane off n : Nat) (va : BitVec 64) (ordinal : Nat) : LaneAcc :=
  .fresh lane off n va (match s.startAccess g false n va with
    | .trap c => .failed c
    | .ok st => st) 0#64 0#64 ordinal

/-- A lane of LDK that has failed. -/
def kvFailed (lane : Nat) (code : BitVec 8) (ordinal : Nat) : LaneAcc :=
  .fresh lane kvPair 0 0#64 (.failed code) 0#64 0#64 ordinal

/-- The reads of an LDK lane whose addresses are known at step 1: the entry's halves, the frequency and the meta half again (11: R218,
R219). -/
def State.kvReads (s : State) (g : Group) (h : BitVec 64) (x : KvLane) (ordinal : Nat) : List LaneAcc :=
  if !ldkFit h x.tid then [kvFailed x.lane codeKvmap ordinal]
  else
    let read := fun (off n : Nat) (va : BitVec 64) => s.kvRead g x.lane off n va ordinal
    let e := kvEntryAt x.tid x.pos
    [read kvMeta 8 e, read kvData 8 (e + 8#64), read kvFreq 4 (tidAux x.tid + BitVec.ofNat 64 (4 * handlePair h)), read kvAgain 8 e]

/-- The violations of the reads of an LDK that fail in the role or import window (23: R386). -/
def State.kvViolations (s : State) (g : Group) (accs : List LaneAcc) : State :=
  accs.foldl (fun s a =>
    match a.st with
    | .failed c => s.windowViolation g.ctl.core c a.va
    | _ => s) s

/-- The lanes of an LDK as they begin step 1: each reads its tensor-identifier entry from the replica of its cluster (15: R300). -/
def State.kvLanes (s : State) (g : Group) (h : BitVec 64) (ls : List (Nat × Nat)) : List KvLane :=
  ls.map fun p => { lane := p.1, pos := p.2, tid := s.tidReplica g.id.launch (g.ctl.core / 4) (handleTid h), tries := 0 }

/-- The bytes that the reads of an LDK lane have returned from an offset up. -/
def MemOp.kvBytes (o : MemOp) (lane off n : Nat) : Nat :=
  leNat ((List.range n).map fun i =>
    match o.accs.find? fun a => a.lane == lane && decide (a.off ≤ off + i) && decide (off + i < a.off + a.size) with
    | none => 0#8
    | some a => a.val.extractLsb' (8 * (off + i - a.off)) 8)

/-- The entry that an LDK lane has read: M1 with D1. -/
def MemOp.kvEntry (o : MemOp) (lane : Nat) : KvEntry where
  meta_ := o.kvBytes lane kvMeta 8
  data := o.kvBytes lane kvData 8

/-- The address that stands for the place of a pair, which has no virtual address: for one at its owner, the block and the offset in its
page. -/
def kvPlace (block off : Nat) : BitVec 64 := BitVec.ofNat 64 (2 ^ 62 + 2 ^ 16 * block + off)

/-- The trap code of a status code that a lane of LDK fails with (11: R220). -/
def ldkCode (code : Nat) : BitVec 8 := if code = 3 then codeImport else if code = 7 then codeKvmap else codeAccess

/-- The read of the pair of elements, once the entry is read and agrees: steps 3 to 5 of 11: R218. -/
def State.kvResolved (s : State) (g : Group) (o : MemOp) (x : KvLane) (ordinal : Nat) : LaneAcc :=
  match s.kvResolve g.id.launch (o.kvEntry x.lane) with
  | .error (.fail c _) => kvFailed x.lane (ldkCode c) ordinal
  | .error (.page _ _) => kvFailed x.lane codeKvmap ordinal
  | .error (.walk _ _ _ _) => kvFailed x.lane codeKvmap ordinal
  | .error .hold => kvFailed x.lane codeKvmap ordinal
  | .ok page =>
    let size := formatBits (tidFormat x.tid) / 8
    let off := ((x.pos % 32 * tidH x.tid + handleHead o.base) * tidDh x.tid + 2 * handlePair o.base) * size
    let st := match page with
      | .here pa => AccState.direct (pa + off)
      | .peer slot => .peer slot
    let base := match page with
      | .here pa => pa
      | .peer _ => 0
    if (base + off) % (2 * size) ≠ 0 then kvFailed x.lane codeKvmap ordinal
    else .fresh x.lane kvPair (2 * size) (kvPlace (o.kvEntry x.lane).block off) st 0#64 0#64 ordinal

/-- Whether an access performed early keeps the control die from the second-stage entry that an LDK lane needs (04: R90). -/
def State.kvHeld (s : State) (g : Group) (e : KvEntry) : Bool :=
  s.tierAgrees g.id.launch e && e.tier != 2 && s.earlyBlocks .control false (.home (s.disp.kvBase + 8 * e.block)) 8

/-- The value of an LDK lane whose reads have all returned: steps 6 to 8 of 11: R218. -/
def MemOp.kvValue (o : MemOp) (x : KvLane) : BitVec 64 :=
  let size := formatBits (tidFormat x.tid) / 8
  match formatOf (tidFormat x.tid) with
  | none => 0#64
  | some f =>
    let v := rotatePair f (o.kvBytes x.lane kvPair size) (o.kvBytes x.lane (kvPair + size) size)
      (slantAngle (o.kvEntry x.lane).slant (x.pos % 32) (o.kvBytes x.lane kvFreq 4))
    BitVec.ofNat 64 (v.1 + 2 ^ (8 * size) * v.2)

/-- How often an LDK lane may repeat the three reads of its entry (11: R219). -/
def kvTriesMax : Nat := 16

/-- One lane of an LDK goes on as far as its reads let it (11: R218 to R220): a lane of which a read failed makes no other; halves that
differ are read again, at most sixteen times; an entry that agrees is resolved; and the value is taken when all is read. -/
def State.kvAdvance (s : State) (g : Group) (o : MemOp) (x : KvLane) : MemOp :=
  let mine := o.accs.filter fun a => a.lane == x.lane
  let ordinal := (mine.head?.map LaneAcc.ordinal).getD 0
  match mine.find? fun a => a.st.isFailed with
  | some bad =>
    { o with accs := o.accs.map fun a => if a.lane == x.lane && !a.over then { a with st := bad.st } else a }
  | none =>
    if !(mine.all fun a => a.isPair || (decide (kvFreq ≤ a.off) && decide (a.off < kvAgain)) || a.done) then o
    else if !mine.any LaneAcc.isPair then
      if o.kvBytes x.lane kvMeta 8 ≠ o.kvBytes x.lane kvAgain 8 then
        if x.tries < kvTriesMax then
          { o with
            accs := o.accs.map fun a => if a.lane == x.lane && !(decide (kvFreq ≤ a.off) && decide (a.off < kvAgain)) then { a with done := false, judged := false } else a
            kv := o.kv.map fun y => if y.lane = x.lane then { y with tries := y.tries + 1 } else y }
        else { o with accs := o.accs ++ [kvFailed x.lane codeKvmap ordinal] }
      else if s.kvHeld g (o.kvEntry x.lane) then o
      else { o with accs := o.accs ++ [s.kvResolved g o x ordinal] }
    else if mine.all LaneAcc.done then
      { o with accs := o.accs.map fun a => if a.lane == x.lane && a.isPair then { a with data := o.kvValue x } else a }
    else o

/-- The lanes of one LDK of a group go on. -/
def State.kvAdvanceOp (k : Nat) (s : State) (seq : Nat) : State :=
  match Table.get? s.groups k with
  | none => s
  | some g =>
    match g.opAt seq with
    | none => s
    | some o =>
      let o' := o.kv.foldl (fun y x => s.kvAdvance g y x) o
      let paired := fun (o : MemOp) (l : Nat) => o.accs.any fun a => a.lane == l && a.isPair
      let s := (o.kv.filter fun x => paired o' x.lane && !paired o x.lane && ldkFit o.base x.tid).foldl
        (fun s x => s.kvSecond g.id.launch (o'.kvEntry x.lane)) s
      s.setGroup k (g.setOps (g.fl.ops.map fun y => if y.seq = o.seq then o' else y))

/-- The LDKs of every group go on. -/
def State.kvAdvanceAll (s : State) : State :=
  s.groups.foldl (fun s p => ((p.2.fl.ops.filter fun o => o.kind == .ldk).map MemOp.seq).foldl (State.kvAdvanceOp p.1) s) s

/-- ldk (11: R216 to R220): the base register is a handle and the lanes hold token positions. Its lanes begin step 1 at its issue,
with the reads whose addresses are then known. -/
def execLdk (gd : Guard) (d a : BitVec 6) (bs : BitVec 2) (la : BitVec 4) (s : State) : Out :=
  s.runWord (.ldk gd d a bs la) fun is g s =>
    let ls := lanesOf (g.passing gd is.mask)
    let h := g.rs (baseReg bs)
    let kv := s.kvLanes g h (ls.map fun l => (l, (g.rv a l).toNat))
    let reads := kv.flatMap fun x => s.kvReads g h x (Table.getD g.fl.ordinals x.lane 0)
    let op := fun (pend : Option Nat) => ({
      seq := g.fl.nextSeq, pc := is.pc, word := is.word, set := is.mask, kind := .ldk, ord := .rlx, scope := .device
      base := h, accs := reads
      pend := pend, queue := .none, log := none, slot := g.pinSlot, gen := g.pinGen, answered := [], kv := kv } : MemOp)
    let after := fun (g' : Group) =>
      let g' := (g'.countLanes ls).advance is
      { g' with fl := { g'.fl with nextSeq := g.fl.nextSeq + 1 } }
    match g.eff d with
    | none =>
      let s := (s.setGroup is.grp (after g)).kvViolations g reads
      .next (if ls.isEmpty then s else s.launchOp is.grp (after g) (op none))
    | some n =>
      match g.openPend false n 1 is.mask (g.passing gd is.mask) la with
      | none => .next s
      | some (slot, g') => .next (((s.setGroup is.grp (after g')).kvViolations g reads).launchOp is.grp (after g') (op (some slot)))

/-! ## LOG_ENTRY_REPLAY (02: R57) -/

/-- A lane of an LDK whose answered reads have just been translated repeats every step: it reads its tensor-identifier entry again, and makes
its reads anew, those of the answered pages by their translation (11: R220; 15: R300). -/
def State.kvAnew (s : State) (g : Group) (o : MemOp) (x : KvLane) : State × KvLane × List LaneAcc :=
  let olds := o.accs.filter fun a => a.lane == x.lane
  let x := ((s.kvLanes g o.base [(x.lane, x.pos)]).head?).getD x
  let news := (s.kvReads g o.base x ((olds.head?.map LaneAcc.ordinal).getD 0)).map fun a =>
    if a.st == .miss then
      { a with st := ((olds.find? fun b => pageOf b.va == pageOf a.va && b.st.known && !b.st.isFailed).map LaneAcc.st).getD .miss }
    else a
  let y := threadAccs (fun s a => s.tryAcc g.view.partition g.ctl.core g.view.holder o.slot o.gen kindRead a) s news
  (y.1.kvViolations g y.2, x, y.2)

/-- The lanes of an LDK that a replay has translated begin anew: old is the operation before the replay. -/
def State.kvReplayed (s : State) (k : Nat) (g : Group) (old : MemOp) : State :=
  match g.opAt old.seq with
  | none => s
  | some o =>
    let answered := fun (o : MemOp) (l : Nat) => o.accs.any fun a => a.lane == l && !a.st.known
    o.kv.foldl (fun s x =>
      if !answered old x.lane || answered o x.lane || o.accs.any fun a => a.lane == x.lane && a.st.isFailed then s
      else
        let y := s.kvAnew g o x
        y.1.modGroup k fun g => g.setOps (g.fl.ops.map fun z =>
          if z.seq = o.seq then
            { z with
              accs := (z.accs.filter fun a => a.lane != x.lane) ++ y.2.2
              kv := z.kv.map fun w => if w.lane = x.lane then y.2.1 else w }
          else z)) s

/-- LOG_ENTRY_REPLAY (02: R57): the answered lanes of a log entry go on under the slots their answers named, once the group is in a
core; those of an LDK repeat every step (11: R220). -/
def execLogEntryReplay (grp seq : Nat) (s : State) : Out :=
  match Table.get? s.groups grp with
  | none => .next s
  | some g =>
    let h := g.view.holder
    if g.ctl.act == .parked then .next s
    else
      let s := s.threadGroup grp fun s o a => if o.seq = seq then s.replayAcc g.view.partition g.ctl.core h o a else (s, a)
      match g.opAt seq, Table.get? s.groups grp with
      | some o, some g => .next (s.kvReplayed grp g o)
      | _, _ => .next s

/-! ## HOME_ACCESS_PERFORM (04: R80) -/

/-- HOME_ACCESS_PERFORM (04: R80): one access arrives at its home and is performed, or the gate holds it; reply is what a
peer or the home answers. It may come before its turn for agents that the orders before it do not reach (04: R90, R95); a store then
keeps its bytes from the agents that they do. -/
def execHomeAccessPerform (grp seq idx : Nat) (reply : Reply) (s : State) : Out :=
  match Table.get? s.groups grp with
  | none => .next s
  | some g =>
    match g.opAt seq with
    | none => .next s
    | some o =>
      match o.accs[idx]? with
      | none => .next s
      | some a =>
        .next (if s.mayPerformEarly grp g o idx a then s.arriveAcc grp g o idx a reply else s)

end Sys2Proof.Machine
end

