-- ==== Sys2Proof/WellFormed.lean ====
section
/-!
DEFINITION. Well-formed instructions: the reserved values that the operand types leave room for (07: R137 step 2).
-/

namespace Sys2Proof

/-- cvt between i32 and i32, or n32 and n32, is not a form of R197: b = 0x36 and 0x3F are the q4 forms under .rne and
reserved under the other modes (10: R197). -/
def CvtFmt.pairOk (dst src : CvtFmt) : Bool :=
  !((dst == .i32 && src == .i32) || (dst == .n32 && src == .n32))

/-- .bs is reserved with mma format 0, 1 or 8 (13: R246). -/
def MmaFmt.bsOk (fmt : MmaFmt) (bs : Bool) : Bool :=
  !(bs && (fmt == .f32 || fmt == .f64 || fmt == .q4))

/-- What the types of the operands do not already say: the values the spec reserves in a field (07: R137, 13: R246).
A step without an encoding has nothing to check here. -/
def Instr.wellFormed (i : Instr) : Bool :=
  match i with
  | .iadd _ _ _ _ => true
  | .iaddi _ _ _ _ => true
  | .isub _ _ _ _ => true
  | .iadc _ _ _ _ => true
  | .isbb _ _ _ _ => true
  | .imul _ _ _ _ => true
  | .imulh _ _ _ _ => true
  | .imulhu _ _ _ _ => true
  | .imad _ _ _ _ => true
  | .imin _ _ _ _ => true
  | .imax _ _ _ _ => true
  | .iminu _ _ _ _ => true
  | .imaxu _ _ _ _ => true
  | .iabs _ _ _ => true
  | .ineg _ _ _ => true
  | .rng _ _ _ => true
  | .movi _ _ _ => true
  | .movhi _ _ _ => true
  | .andL _ _ _ _ => true
  | .orL _ _ _ _ => true
  | .xorL _ _ _ _ => true
  | .andn _ _ _ _ => true
  | .shl _ _ _ _ => true
  | .shr _ _ _ _ => true
  | .sar _ _ _ _ => true
  | .rol _ _ _ _ => true
  | .bfx _ _ _ _ => true
  | .bfxu _ _ _ _ => true
  | .bfi _ _ _ _ => true
  | .popc _ _ _ => true
  | .clz _ _ _ => true
  | .ctz _ _ _ => true
  | .brev _ _ _ => true
  | .sel _ _ _ _ => true
  | .cvtsr _ _ _ _ => true
  | .icmp _ _ _ _ _ => true
  | .itst _ _ _ _ _ => true
  | .fcmp _ _ _ _ => true
  | .dcmp _ _ _ _ => true
  | .cmov _ _ _ => true
  | .cmovV _ _ _ => true
  | .cmovI _ _ _ => true
  | .cmovR _ _ => true
  | .iaddmin _ _ _ _ => true
  | .iaddmax _ _ _ _ => true
  | .faddmin _ _ _ _ => true
  | .addw _ _ _ _ => true
  | .subw _ _ _ _ => true
  | .shlw _ _ _ _ => true
  | .shrw _ _ _ _ => true
  | .sarw _ _ _ _ => true
  | .mulw _ _ _ _ => true
  | .badd _ _ _ _ => true
  | .bfma _ _ _ _ => true
  | .idivI32 _ _ _ _ => true
  | .idivN32 _ _ _ _ => true
  | .iremI32 _ _ _ _ => true
  | .iremN32 _ _ _ _ => true
  | .fdiv _ _ _ _ => true
  | .fsqrt _ _ _ => true
  | .frcp _ _ _ => true
  | .frsq _ _ _ => true
  | .fexp2 _ _ _ => true
  | .flog2 _ _ _ => true
  | .fsin _ _ _ => true
  | .fcos _ _ _ => true
  | .ddiv _ _ _ _ => true
  | .dsqrt _ _ _ => true
  | .aaddN64 _ _ _ _ _ _ => true
  | .aminI64 _ _ _ _ _ _ => true
  | .amaxI64 _ _ _ _ _ _ => true
  | .aminN64 _ _ _ _ _ _ => true
  | .amaxN64 _ _ _ _ _ _ => true
  | .aandN64 _ _ _ _ _ _ => true
  | .aorN64 _ _ _ _ _ _ => true
  | .axorN64 _ _ _ _ _ _ => true
  | .ldI8 _ _ _ _ _ => true
  | .ldN8 _ _ _ _ _ => true
  | .ldI16 _ _ _ _ _ => true
  | .ldN16 _ _ _ _ _ => true
  | .ldN32 _ _ _ _ _ => true
  | .ldN64 _ _ _ _ _ => true
  | .ldN128 _ _ _ _ _ => true
  | .axchgN64 _ _ _ _ _ _ => true
  | .stN8 _ _ _ _ => true
  | .stN16 _ _ _ _ => true
  | .stN32 _ _ _ _ => true
  | .stN64 _ _ _ _ => true
  | .stN128 _ _ _ _ => true
  | .ldk _ _ _ _ _ => true
  | .ldProbe _ _ _ _ _ => true
  | .acasN64 _ _ _ _ _ _ => true
  | .aaddN32 _ _ _ _ _ _ => true
  | .aminI32 _ _ _ _ _ _ => true
  | .amaxI32 _ _ _ _ _ _ => true
  | .aminN32 _ _ _ _ _ _ => true
  | .amaxN32 _ _ _ _ _ _ => true
  | .aandN32 _ _ _ _ _ _ => true
  | .aorN32 _ _ _ _ _ _ => true
  | .axorN32 _ _ _ _ _ _ => true
  | .axchgN32 _ _ _ _ _ _ => true
  | .acasN32 _ _ _ _ _ _ => true
  | .faddOrdF32 _ _ _ _ => true
  | .faddOrdF64 _ _ _ _ => true
  | .ldaN32 _ _ _ _ _ _ => true
  | .ldaN64 _ _ _ _ _ _ => true
  | .staN32 _ _ _ _ _ => true
  | .staN64 _ _ _ _ _ => true
  | .bra _ _ => true
  | .bral _ _ => true
  | .jmp _ _ _ => true
  | .ret _ _ => true
  | .yield _ => true
  | .nop _ => true
  | .exit _ => true
  | .hadd _ _ _ _ => true
  | .hfma _ _ _ _ => true
  | .fadd _ _ _ _ => true
  | .fsub _ _ _ _ => true
  | .fmul _ _ _ _ => true
  | .ffma _ _ _ _ => true
  | .fmin _ _ _ _ => true
  | .fmax _ _ _ _ => true
  | .dadd _ _ _ _ => true
  | .shfl _ _ _ _ => true
  | .shflI _ _ _ _ => true
  | .lsh _ _ _ _ => true
  | .lshI _ _ _ _ => true
  | .lrot _ _ _ _ => true
  | .lrotI _ _ _ _ => true
  | .bcast _ _ _ _ => true
  | .bcastI _ _ _ _ => true
  | .scan _ _ _ _ => true
  | .sample _ _ _ _ => true
  | .cvtRne _ _ _ dst src => CvtFmt.pairOk dst src
  | .cvtRneF32Q4 _ _ _ => true
  | .cvtRneQ4F32 _ _ _ => true
  | .cvtRz _ _ _ dst src => CvtFmt.pairOk dst src
  | .cvtRu _ _ _ dst src => CvtFmt.pairOk dst src
  | .cvtRd _ _ _ dst src => CvtFmt.pairOk dst src
  | .dmul _ _ _ _ => true
  | .dfma _ _ _ _ => true
  | .sadd _ _ _ => true
  | .ssub _ _ _ => true
  | .smul _ _ _ => true
  | .smulh _ _ _ _ => true
  | .sand _ _ _ => true
  | .sor _ _ _ => true
  | .sxor _ _ _ => true
  | .sshl _ _ _ => true
  | .sshr _ _ _ => true
  | .ssar _ _ _ => true
  | .smin _ _ _ _ => true
  | .smax _ _ _ _ => true
  | .scmp _ _ => true
  | .ssel _ _ _ _ => true
  | .smovi _ _ => true
  | .smovhi _ _ => true
  | .saddi _ _ => true
  | .lread _ _ _ => true
  | .sbcast _ _ _ => true
  | .ballot _ _ _ => true
  | .idxImm _ => true
  | .idxReg _ => true
  | .prioImm _ => true
  | .prioReg _ => true
  | .ubra _ _ => true
  | .bar _ _ => true
  | .gbar _ _ => true
  | .arrive _ _ => true
  | .wait _ _ _ => true
  | .sleep _ _ _ _ _ => true
  | .refresh => true
  | .rootsw _ _ _ => true
  | .tlbfFill _ _ => true
  | .tlbfReq _ _ => true
  | .tlbfBad _ _ => true
  | .trap _ => true
  | .tret => true
  | .preq => true
  | .brk _ => true
  | .gateArm _ => true
  | .gateCancel _ => true
  | .pmark _ => true
  | .pmarkV _ _ => true
  | .sld _ _ _ _ => true
  | .sst _ _ _ => true
  | .fence _ _ => true
  | .copy _ _ s _ _ => s != 63#6
  | .chain _ s _ => s != 63#6
  | .chwp _ _ s _ _ => s != 63#6
  | .publ _ _ _ => true
  | .rput _ _ _ => true
  | .rtake _ s _ => s != 63#6
  | .tld _ _ s _ => s != 63#6
  | .wld _ s _ _ => s != 63#6
  | .mma fmt _ _ s _ bs => s != 63#6 && MmaFmt.bsOk fmt bs
  | .azero _ _ _ _ => true
  | .ast _ _ s _ _ => s != 63#6
  | .blsub n _ s _ => s != 63#6 && n != 0#8
  | .blcol _ s _ => s != 63#6
  | .qcast s _ => s != 63#6
  | .creduce s _ => s != 63#6
  | .tidset _ s _ => s != 63#6
  | .tidget _ s _ => s != 63#6
  | .stins _ s _ => s != 63#6
  | .stlook _ s _ => s != 63#6
  | .kvres _ s _ => s != 63#6
  | .sread _ _ _ => true
  | .swrite _ _ => true
  | .stamp _ _ => true
  | .reset => true
  | .image _ _ => true
  | .boot => true
  | .config _ _ => true
  | .attest _ => true
  | .vlog => true
  | .queueCreate _ _ _ _ _ _ _ _ => true
  | .queueMap _ _ => true
  | .queueDelete _ => true
  | .regionSuspend _ => true
  | .regionResume _ => true
  | .regionKill _ => true
  | .install _ _ _ => true
  | .hold _ _ _ => true
  | .unhold _ _ _ => true
  | .release _ => true
  | .passign _ _ => true
  | .pfree _ => true
  | .answer _ _ _ => true
  | .importSet _ _ => true
  | .exportSet _ _ => true
  | .profile _ _ _ _ _ => true
  | .debugAttach _ => true
  | .debugComparatorWrite _ _ => true
  | .debugResume _ _ => true
  | .debugReadAccumulator _ _ _ => true
  | .debugDetach => true
  | .freeze => true
  | .freezeDump _ => true
  | .freezeThaw => true
  | .replayRecord _ _ _ _ _ => true
  | .replayArm _ _ _ _ _ => true
  | .replayEnd _ => true
  | .notifyWrite _ _ => true
  | .eventWrite _ => true
  | .ntailWrite _ => true
  | .registerWrite _ _ => true
  | .queueSlotMap _ _ => true
  | .queueSlotUnmap _ => true
  | .launchPacket _ => true
  | .graphPacket _ => true
  | .waitPacket _ => true
  | .waitConditionMet _ => true
  | .regionRegister _ => true
  | .regionUpdate _ => true
  | .regionUnregister _ => true
  | .kvTableSet _ => true
  | .launchStart _ => true
  | .gangClaim _ _ => true
  | .gangPlace _ _ => true
  | .launchComplete _ => true
  | .loopIteration _ => true
  | .groupActivate _ => true
  | .groupEvict _ => true
  | .parkThreshold _ => true
  | .parkComplete _ => true
  | .fairnessLimit _ => true
  | .progressWaitLimit _ => true
  | .watchdog _ => true
  | .preemptRequest _ => true
  | .noticeDeadline _ => true
  | .gangParkComplete _ => true
  | .gangResume _ _ => true
  | .trapEntry _ => true
  | .valueLands _ _ => true
  | .lineFill _ _ => true
  | .storeQueueDepart _ => true
  | .homeAccessPerform _ _ _ _ => true
  | .walkStart _ => true
  | .walkerInstructionLimit _ => true
  | .logEntryReplay _ _ => true
  | .slotReclaim _ _ => true
  | .rootswStep _ => true
  | .sleepWake _ _ _ => true
  | .publInstant _ _ => true
  | .engineCommandStart _ _ => true
  | .engineCommandComplete _ _ _ => true
  | .chainRecord _ _ _ => true
  | .groupRetire _ => true
  | .gateTimeout _ => true
  | .pcComparatorMatch _ => true
  | .profilingInterval => true
  | .pcSample _ _ => true
  | .ingressRequest _ => true
  | .portBringUp _ _ _ => true
  | .portLoss _ => true
  | .linkKeyRenewal _ => true
  | .ptpEvent _ => true
  | .powerThrottle _ => true
  | .thermalHalt _ => true
  | .i3cResetRequest => true
  | .uncorrectableError _ _ => true
  | .shareWindowEnd => true
  | .ptpReferenceLoss => true

/-- Whether the instruction has a 32-bit word (rows 0 to 210 of the table). -/
def Instr.isWord (i : Instr) : Bool :=
  match i with
  | .iadd _ _ _ _ => true
  | .iaddi _ _ _ _ => true
  | .isub _ _ _ _ => true
  | .iadc _ _ _ _ => true
  | .isbb _ _ _ _ => true
  | .imul _ _ _ _ => true
  | .imulh _ _ _ _ => true
  | .imulhu _ _ _ _ => true
  | .imad _ _ _ _ => true
  | .imin _ _ _ _ => true
  | .imax _ _ _ _ => true
  | .iminu _ _ _ _ => true
  | .imaxu _ _ _ _ => true
  | .iabs _ _ _ => true
  | .ineg _ _ _ => true
  | .rng _ _ _ => true
  | .movi _ _ _ => true
  | .movhi _ _ _ => true
  | .andL _ _ _ _ => true
  | .orL _ _ _ _ => true
  | .xorL _ _ _ _ => true
  | .andn _ _ _ _ => true
  | .shl _ _ _ _ => true
  | .shr _ _ _ _ => true
  | .sar _ _ _ _ => true
  | .rol _ _ _ _ => true
  | .bfx _ _ _ _ => true
  | .bfxu _ _ _ _ => true
  | .bfi _ _ _ _ => true
  | .popc _ _ _ => true
  | .clz _ _ _ => true
  | .ctz _ _ _ => true
  | .brev _ _ _ => true
  | .sel _ _ _ _ => true
  | .cvtsr _ _ _ _ => true
  | .icmp _ _ _ _ _ => true
  | .itst _ _ _ _ _ => true
  | .fcmp _ _ _ _ => true
  | .dcmp _ _ _ _ => true
  | .cmov _ _ _ => true
  | .cmovV _ _ _ => true
  | .cmovI _ _ _ => true
  | .cmovR _ _ => true
  | .iaddmin _ _ _ _ => true
  | .iaddmax _ _ _ _ => true
  | .faddmin _ _ _ _ => true
  | .addw _ _ _ _ => true
  | .subw _ _ _ _ => true
  | .shlw _ _ _ _ => true
  | .shrw _ _ _ _ => true
  | .sarw _ _ _ _ => true
  | .mulw _ _ _ _ => true
  | .badd _ _ _ _ => true
  | .bfma _ _ _ _ => true
  | .idivI32 _ _ _ _ => true
  | .idivN32 _ _ _ _ => true
  | .iremI32 _ _ _ _ => true
  | .iremN32 _ _ _ _ => true
  | .fdiv _ _ _ _ => true
  | .fsqrt _ _ _ => true
  | .frcp _ _ _ => true
  | .frsq _ _ _ => true
  | .fexp2 _ _ _ => true
  | .flog2 _ _ _ => true
  | .fsin _ _ _ => true
  | .fcos _ _ _ => true
  | .ddiv _ _ _ _ => true
  | .dsqrt _ _ _ => true
  | .aaddN64 _ _ _ _ _ _ => true
  | .aminI64 _ _ _ _ _ _ => true
  | .amaxI64 _ _ _ _ _ _ => true
  | .aminN64 _ _ _ _ _ _ => true
  | .amaxN64 _ _ _ _ _ _ => true
  | .aandN64 _ _ _ _ _ _ => true
  | .aorN64 _ _ _ _ _ _ => true
  | .axorN64 _ _ _ _ _ _ => true
  | .ldI8 _ _ _ _ _ => true
  | .ldN8 _ _ _ _ _ => true
  | .ldI16 _ _ _ _ _ => true
  | .ldN16 _ _ _ _ _ => true
  | .ldN32 _ _ _ _ _ => true
  | .ldN64 _ _ _ _ _ => true
  | .ldN128 _ _ _ _ _ => true
  | .axchgN64 _ _ _ _ _ _ => true
  | .stN8 _ _ _ _ => true
  | .stN16 _ _ _ _ => true
  | .stN32 _ _ _ _ => true
  | .stN64 _ _ _ _ => true
  | .stN128 _ _ _ _ => true
  | .ldk _ _ _ _ _ => true
  | .ldProbe _ _ _ _ _ => true
  | .acasN64 _ _ _ _ _ _ => true
  | .aaddN32 _ _ _ _ _ _ => true
  | .aminI32 _ _ _ _ _ _ => true
  | .amaxI32 _ _ _ _ _ _ => true
  | .aminN32 _ _ _ _ _ _ => true
  | .amaxN32 _ _ _ _ _ _ => true
  | .aandN32 _ _ _ _ _ _ => true
  | .aorN32 _ _ _ _ _ _ => true
  | .axorN32 _ _ _ _ _ _ => true
  | .axchgN32 _ _ _ _ _ _ => true
  | .acasN32 _ _ _ _ _ _ => true
  | .faddOrdF32 _ _ _ _ => true
  | .faddOrdF64 _ _ _ _ => true
  | .ldaN32 _ _ _ _ _ _ => true
  | .ldaN64 _ _ _ _ _ _ => true
  | .staN32 _ _ _ _ _ => true
  | .staN64 _ _ _ _ _ => true
  | .bra _ _ => true
  | .bral _ _ => true
  | .jmp _ _ _ => true
  | .ret _ _ => true
  | .yield _ => true
  | .nop _ => true
  | .exit _ => true
  | .hadd _ _ _ _ => true
  | .hfma _ _ _ _ => true
  | .fadd _ _ _ _ => true
  | .fsub _ _ _ _ => true
  | .fmul _ _ _ _ => true
  | .ffma _ _ _ _ => true
  | .fmin _ _ _ _ => true
  | .fmax _ _ _ _ => true
  | .dadd _ _ _ _ => true
  | .shfl _ _ _ _ => true
  | .shflI _ _ _ _ => true
  | .lsh _ _ _ _ => true
  | .lshI _ _ _ _ => true
  | .lrot _ _ _ _ => true
  | .lrotI _ _ _ _ => true
  | .bcast _ _ _ _ => true
  | .bcastI _ _ _ _ => true
  | .scan _ _ _ _ => true
  | .sample _ _ _ _ => true
  | .cvtRne _ _ _ _ _ => true
  | .cvtRneF32Q4 _ _ _ => true
  | .cvtRneQ4F32 _ _ _ => true
  | .cvtRz _ _ _ _ _ => true
  | .cvtRu _ _ _ _ _ => true
  | .cvtRd _ _ _ _ _ => true
  | .dmul _ _ _ _ => true
  | .dfma _ _ _ _ => true
  | .sadd _ _ _ => true
  | .ssub _ _ _ => true
  | .smul _ _ _ => true
  | .smulh _ _ _ _ => true
  | .sand _ _ _ => true
  | .sor _ _ _ => true
  | .sxor _ _ _ => true
  | .sshl _ _ _ => true
  | .sshr _ _ _ => true
  | .ssar _ _ _ => true
  | .smin _ _ _ _ => true
  | .smax _ _ _ _ => true
  | .scmp _ _ => true
  | .ssel _ _ _ _ => true
  | .smovi _ _ => true
  | .smovhi _ _ => true
  | .saddi _ _ => true
  | .lread _ _ _ => true
  | .sbcast _ _ _ => true
  | .ballot _ _ _ => true
  | .idxImm _ => true
  | .idxReg _ => true
  | .prioImm _ => true
  | .prioReg _ => true
  | .ubra _ _ => true
  | .bar _ _ => true
  | .gbar _ _ => true
  | .arrive _ _ => true
  | .wait _ _ _ => true
  | .sleep _ _ _ _ _ => true
  | .refresh => true
  | .rootsw _ _ _ => true
  | .tlbfFill _ _ => true
  | .tlbfReq _ _ => true
  | .tlbfBad _ _ => true
  | .trap _ => true
  | .tret => true
  | .preq => true
  | .brk _ => true
  | .gateArm _ => true
  | .gateCancel _ => true
  | .pmark _ => true
  | .pmarkV _ _ => true
  | .sld _ _ _ _ => true
  | .sst _ _ _ => true
  | .fence _ _ => true
  | .copy _ _ _ _ _ => true
  | .chain _ _ _ => true
  | .chwp _ _ _ _ _ => true
  | .publ _ _ _ => true
  | .rput _ _ _ => true
  | .rtake _ _ _ => true
  | .tld _ _ _ _ => true
  | .wld _ _ _ _ => true
  | .mma _ _ _ _ _ _ => true
  | .azero _ _ _ _ => true
  | .ast _ _ _ _ _ => true
  | .blsub _ _ _ _ => true
  | .blcol _ _ _ => true
  | .qcast _ _ => true
  | .creduce _ _ => true
  | .tidset _ _ _ => true
  | .tidget _ _ _ => true
  | .stins _ _ _ => true
  | .stlook _ _ _ => true
  | .kvres _ _ _ => true
  | .sread _ _ _ => true
  | .swrite _ _ => true
  | .stamp _ _ => true
  | .reset => false
  | .image _ _ => false
  | .boot => false
  | .config _ _ => false
  | .attest _ => false
  | .vlog => false
  | .queueCreate _ _ _ _ _ _ _ _ => false
  | .queueMap _ _ => false
  | .queueDelete _ => false
  | .regionSuspend _ => false
  | .regionResume _ => false
  | .regionKill _ => false
  | .install _ _ _ => false
  | .hold _ _ _ => false
  | .unhold _ _ _ => false
  | .release _ => false
  | .passign _ _ => false
  | .pfree _ => false
  | .answer _ _ _ => false
  | .importSet _ _ => false
  | .exportSet _ _ => false
  | .profile _ _ _ _ _ => false
  | .debugAttach _ => false
  | .debugComparatorWrite _ _ => false
  | .debugResume _ _ => false
  | .debugReadAccumulator _ _ _ => false
  | .debugDetach => false
  | .freeze => false
  | .freezeDump _ => false
  | .freezeThaw => false
  | .replayRecord _ _ _ _ _ => false
  | .replayArm _ _ _ _ _ => false
  | .replayEnd _ => false
  | .notifyWrite _ _ => false
  | .eventWrite _ => false
  | .ntailWrite _ => false
  | .registerWrite _ _ => false
  | .queueSlotMap _ _ => false
  | .queueSlotUnmap _ => false
  | .launchPacket _ => false
  | .graphPacket _ => false
  | .waitPacket _ => false
  | .waitConditionMet _ => false
  | .regionRegister _ => false
  | .regionUpdate _ => false
  | .regionUnregister _ => false
  | .kvTableSet _ => false
  | .launchStart _ => false
  | .gangClaim _ _ => false
  | .gangPlace _ _ => false
  | .launchComplete _ => false
  | .loopIteration _ => false
  | .groupActivate _ => false
  | .groupEvict _ => false
  | .parkThreshold _ => false
  | .parkComplete _ => false
  | .fairnessLimit _ => false
  | .progressWaitLimit _ => false
  | .watchdog _ => false
  | .preemptRequest _ => false
  | .noticeDeadline _ => false
  | .gangParkComplete _ => false
  | .gangResume _ _ => false
  | .trapEntry _ => false
  | .valueLands _ _ => false
  | .lineFill _ _ => false
  | .storeQueueDepart _ => false
  | .homeAccessPerform _ _ _ _ => false
  | .walkStart _ => false
  | .walkerInstructionLimit _ => false
  | .logEntryReplay _ _ => false
  | .slotReclaim _ _ => false
  | .rootswStep _ => false
  | .sleepWake _ _ _ => false
  | .publInstant _ _ => false
  | .engineCommandStart _ _ => false
  | .engineCommandComplete _ _ _ => false
  | .chainRecord _ _ _ => false
  | .groupRetire _ => false
  | .gateTimeout _ => false
  | .pcComparatorMatch _ => false
  | .profilingInterval => false
  | .pcSample _ _ => false
  | .ingressRequest _ => false
  | .portBringUp _ _ _ => false
  | .portLoss _ => false
  | .linkKeyRenewal _ => false
  | .ptpEvent _ => false
  | .powerThrottle _ => false
  | .thermalHalt _ => false
  | .i3cResetRequest => false
  | .uncorrectableError _ _ => false
  | .shareWindowEnd => false
  | .ptpReferenceLoss => false

/-- Well-formedness as a proposition. -/
abbrev Instr.WellFormed (i : Instr) : Prop := i.wellFormed = true

end Sys2Proof
end

