-- ==== Sys2Proof/Decode.lean ====
section
/-!
DEFINITION. Decoding, total on every word and rejecting by name (07: R136 to R140, 08: R157 to R163), and after it the
encoder, written from the same tables.
-/

namespace Sys2Proof

/-- Bits lo + n - 1 down to lo of a word. -/
def fld (w : Word) (lo n : Nat) : BitVec n := w.extractLsb' lo n

/-- The major code: bits 31:24 (07: R136). -/
def major (w : Word) : BitVec 8 := fld w 24 8

/-- A field whose n high bits are reserved and zero (07: R140). -/
def pad (n : Nat) {k : Nat} (x : BitVec k) : BitVec (n + k) := 0#n ++ x

/-- The low k bits, when the n bits above them are zero. -/
def unpad (n k : Nat) (x : BitVec (n + k)) : Option (BitVec k) :=
  if x.extractLsb' k n = 0#n then some (x.extractLsb' 0 k) else none

/-- The low k bits read by dec, when the n bits above them are zero. -/
def unpadTo (n k : Nat) {α : Type} (dec : BitVec k → Option α) (x : BitVec (n + k)) : Option α :=
  (unpad n k x).bind dec

/-- A one-bit selector in a field of n bits. -/
def encBool (n : Nat) (b : Bool) : BitVec n := if b then 1#n else 0#n

/-- Reads a one-bit selector; other values are reserved. -/
def decBool {n : Nat} (x : BitVec n) : Option Bool :=
  if x = 0#n then some false else if x = 1#n then some true else none

/-- Two selectors in bits 1 and 0 of a 6-bit field (12: R229). -/
def encBools (hi lo : Bool) : BitVec 6 := 0#4 ++ BitVec.ofBool hi ++ BitVec.ofBool lo

/-- Reads the two selectors of R229. -/
def decBools (x : BitVec 6) : Option (Bool × Bool) :=
  match x.toNat with
  | 0 => some (false, false)
  | 1 => some (false, true)
  | 2 => some (true, false)
  | 3 => some (true, true)
  | _ => none

/-- Reads the selector in bit 1, with bit 0 reserved (arrive, 12: R229). -/
def decBoolHi (x : BitVec 6) : Option Bool :=
  match x.toNat with
  | 0 => some false
  | 2 => some true
  | _ => none

/-- The ordering of sta: 0 relaxed, 2 release (11: R210). -/
def encRel (r : Bool) : BitVec 2 := if r then 2#2 else 0#2

/-- Reads the ordering of sta. -/
def decRel (x : BitVec 2) : Option Bool :=
  match x.toNat with
  | 0 => some false
  | 2 => some true
  | _ => none

/-- The code of a condition (07: R142). -/
def Cond.code (c : Cond) : BitVec 4 :=
  match c with
  | .al => 0 | .eq => 1 | .ne => 2 | .lt => 3 | .ge => 4 | .le => 5 | .gt => 6 | .lo => 7
  | .hs => 8 | .ls => 9 | .hi => 10 | .mi => 11 | .pl => 12 | .vs => 13 | .vc => 14

/-- The condition of a code; 15 is reserved (07: R142). -/
def Cond.dec (x : BitVec 4) : Option Cond :=
  match x.toNat with
  | 0 => some .al | 1 => some .eq | 2 => some .ne | 3 => some .lt | 4 => some .ge | 5 => some .le
  | 6 => some .gt | 7 => some .lo | 8 => some .hs | 9 => some .ls | 10 => some .hi | 11 => some .mi
  | 12 => some .pl | 13 => some .vs | 14 => some .vc
  | _ => none

/-- A guard's six bits (07: R142). -/
def Guard.enc (g : Guard) : BitVec 6 := g.creg ++ g.cond.code

/-- Reads a guard. -/
def Guard.dec (x : BitVec 6) : Option Guard :=
  (Cond.dec (x.extractLsb' 0 4)).map (Guard.mk (x.extractLsb' 4 2))

/-- The code of a scope (07: R154). -/
def Scope.code (s : Scope) : BitVec 4 :=
  match s with
  | .thread => 0 | .group => 1 | .wg => 2 | .core => 3 | .gang => 4 | .cluster => 5 | .die => 6
  | .device => 7 | .host => 8 | .pool => 9 | .peer => 10 | .system => 11

/-- The scope of a code; 12 to 15 are reserved (08: R163). -/
def Scope.dec (x : BitVec 4) : Option Scope :=
  match x.toNat with
  | 0 => some .thread | 1 => some .group | 2 => some .wg | 3 => some .core | 4 => some .gang
  | 5 => some .cluster | 6 => some .die | 7 => some .device | 8 => some .host | 9 => some .pool
  | 10 => some .peer | 11 => some .system
  | _ => none

/-- The code of an ordering (07: R154). -/
def Ord.code (o : Ord) : BitVec 2 :=
  match o with
  | .rlx => 0 | .acq => 1 | .rel => 2 | .acqrel => 3

/-- The ordering of a code. -/
def Ord.dec (x : BitVec 2) : Option Ord :=
  match x.toNat with
  | 0 => some .rlx | 1 => some .acq | 2 => some .rel | _ => some .acqrel

/-- The code of a fence kind (11: R215). -/
def FenceKind.code (k : FenceKind) : BitVec 2 :=
  match k with
  | .acq => 1 | .rel => 2 | .full => 3

/-- The fence kind of a code; 0 is reserved. -/
def FenceKind.dec (x : BitVec 2) : Option FenceKind :=
  match x.toNat with
  | 1 => some .acq | 2 => some .rel | 3 => some .full | _ => none

/-- The sys field of fence: six zero bits, kind, scope (11: R215). -/
def FenceKind.encScope (k : FenceKind) (s : Scope) : BitVec 12 := 0#6 ++ k.code ++ s.code

/-- Reads the sys field of fence. -/
def FenceKind.decScope (x : BitVec 12) : Option (FenceKind × Scope) :=
  if x.extractLsb' 6 6 = 0#6 then
    (FenceKind.dec (x.extractLsb' 4 2)).bind fun k => (Scope.dec (x.extractLsb' 0 4)).map fun s => (k, s)
  else none

/-- The code of a cvt format (10: R196). -/
def CvtFmt.code (f : CvtFmt) : BitVec 3 :=
  match f with
  | .f32 => 0 | .f64 => 1 | .f16 => 2 | .bf16 => 3 | .e4m3 => 4 | .e5m2 => 5 | .i32 => 6 | .n32 => 7

/-- The cvt format of a code. -/
def CvtFmt.dec (x : BitVec 3) : CvtFmt :=
  match x.toNat with
  | 0 => .f32 | 1 => .f64 | 2 => .f16 | 3 => .bf16 | 4 => .e4m3 | 5 => .e5m2 | 6 => .i32 | _ => .n32

/-- Destination and source formats in the b field (10: R196). -/
def CvtFmt.encPair (d s : CvtFmt) : BitVec 6 := d.code ++ s.code

/-- Reads the b field of cvt. -/
def CvtFmt.decPair (x : BitVec 6) : Option (CvtFmt × CvtFmt) :=
  some (CvtFmt.dec (x.extractLsb' 3 3), CvtFmt.dec (x.extractLsb' 0 3))

/-- The g field of cvtsr (10: R199). -/
def CvtsrForm.code (f : CvtsrForm) : BitVec 6 :=
  match f with
  | .bf16 => 0 | .f16 => 1 | .bf16x2 => 2 | .f16x2 => 3

/-- Reads the g field of cvtsr; 4 to 63 are reserved. -/
def CvtsrForm.dec (x : BitVec 6) : Option CvtsrForm :=
  match x.toNat with
  | 0 => some .bf16 | 1 => some .f16 | 2 => some .bf16x2 | 3 => some .f16x2
  | _ => none

/-- The b field of scan (10: R203). -/
def ScanOp.code (o : ScanOp) : BitVec 6 :=
  match o with
  | .iadd => 0 | .iaddX => 1 | .fadd => 2 | .faddX => 3 | .imin => 4 | .imax => 5

/-- Reads the b field of scan; 6 to 63 are reserved. -/
def ScanOp.dec (x : BitVec 6) : Option ScanOp :=
  match x.toNat with
  | 0 => some .iadd | 1 => some .iaddX | 2 => some .fadd | 3 => some .faddX | 4 => some .imin | 5 => some .imax
  | _ => none

/-- The size code of ld.probe (11: R209). -/
def ProbeSize.code (s : ProbeSize) : BitVec 4 :=
  match s with
  | .n8 => 0 | .n16 => 1 | .n32 => 2 | .n64 => 3 | .n128 => 4

/-- Reads the size code of ld.probe; 5 to 15 are reserved. -/
def ProbeSize.dec (x : BitVec 4) : Option ProbeSize :=
  match x.toNat with
  | 0 => some .n8 | 1 => some .n16 | 2 => some .n32 | 3 => some .n64 | 4 => some .n128
  | _ => none

/-- The b field of lread (12: R225). -/
def LaneSel.encB (l : LaneSel) : BitVec 6 :=
  match l with
  | .imm _ => 0#6
  | .reg b => b

/-- The f field of lread (12: R225). -/
def LaneSel.encF (l : LaneSel) : BitVec 6 :=
  match l with
  | .imm k => pad 1 k
  | .reg _ => 32#6

/-- Reads the b and f fields of lread. -/
def LaneSel.dec (b f : BitVec 6) : Option LaneSel :=
  if f = 32#6 then some (.reg b)
  else if b = 0#6 then (unpad 1 5 f).map LaneSel.imm
  else none

/-- The condition bits of sleep (12: R233). -/
def SleepCond.code (c : SleepCond) : BitVec 2 :=
  match c with
  | .eq => 0 | .ne => 1 | .lo => 2 | .hs => 3

/-- Reads the condition bits of sleep. -/
def SleepCond.dec (x : BitVec 2) : SleepCond :=
  match x.toNat with
  | 0 => .eq | 1 => .ne | 2 => .lo | _ => .hs

/-- The f field of sleep: bits 2:0 the condition, bit 3 .n64 (12: R233). -/
def encSleep (n64 : Bool) (c : SleepCond) : BitVec 6 := 0#2 ++ BitVec.ofBool n64 ++ 0#1 ++ c.code

/-- Reads the f field of sleep; condition codes 4 to 7 are reserved. -/
def decSleep (x : BitVec 6) : Option (Bool × SleepCond) :=
  if x.extractLsb' 4 2 = 0#2 ∧ x.extractLsb' 2 1 = 0#1 then
    some (decide (x.extractLsb' 3 1 = 1#1), SleepCond.dec (x.extractLsb' 0 2))
  else none

/-- The variant of copy (13: R246). -/
def CopyVar.code (v : CopyVar) : BitVec 2 :=
  match v with
  | .plain => 0 | .x24 => 1 | .slant => 2

/-- Reads the variant of copy; 3 is reserved. -/
def CopyVar.dec (x : BitVec 2) : Option CopyVar :=
  match x.toNat with
  | 0 => some .plain | 1 => some .x24 | 2 => some .slant
  | _ => none

/-- The mma format code (13: R246). -/
def MmaFmt.code (f : MmaFmt) : BitVec 4 :=
  match f with
  | .f32 => 0 | .f64 => 1 | .f16 => 2 | .bf16 => 3 | .e4m3 => 4 | .e5m2 => 5 | .q4 => 8

/-- Reads the mma format code. -/
def MmaFmt.dec (x : BitVec 4) : Option MmaFmt :=
  match x.toNat with
  | 0 => some .f32 | 1 => some .f64 | 2 => some .f16 | 3 => some .bf16 | 4 => some .e4m3 | 5 => some .e5m2
  | 8 => some .q4
  | _ => none

/-- The tid field of mma: bits 7:4 format, bit 3 zero, bits 2:0 tile (13: R246). -/
def MmaFmt.encTile (f : MmaFmt) (t : BitVec 3) : BitVec 8 := f.code ++ 0#1 ++ t

/-- Reads the tid field of mma. -/
def MmaFmt.decTile (x : BitVec 8) : Option (MmaFmt × BitVec 3) :=
  if x.extractLsb' 3 1 = 0#1 then (MmaFmt.dec (x.extractLsb' 4 4)).map fun f => (f, x.extractLsb' 0 3) else none

/-- The number of a special register (12: R243). -/
def SpecReg.code (r : SpecReg) : BitVec 12 :=
  match r with
  | .laneid => 0x000 | .grpid => 0x001 | .wgidX => 0x002 | .wgidY => 0x003 | .gangid => 0x004 | .wgidZ => 0x005
  | .cluid => 0x006 | .dieid => 0x007 | .devid => 0x008 | .time => 0x010 | .cycle => 0x011 | .seed => 0x012
  | .prio => 0x013 | .rootslot => 0x014 | .tvec => 0x015 | .xi => 0x016
  | .chwp n => 0x004#9 ++ n
  | .lcr n => 0x006#9 ++ n
  | .trapcode => 0x040 | .trappc => 0x041 | .tretpc => 0x042 | .trapaddr => 0x043 | .trapmask => 0x044
  | .trapinfo => 0x045 | .trapcur => 0x046
  | .role n => 1#4 ++ n

/-- The special register of a number; other numbers are reserved (12: R243). -/
def SpecReg.dec (x : BitVec 12) : Option SpecReg :=
  if x.extractLsb' 8 4 = 1#4 then some (.role (x.extractLsb' 0 8))
  else if x.extractLsb' 3 9 = 4#9 then some (.chwp (x.extractLsb' 0 3))
  else if x.extractLsb' 3 9 = 6#9 then some (.lcr (x.extractLsb' 0 3))
  else match x.toNat with
  | 0x000 => some .laneid | 0x001 => some .grpid | 0x002 => some .wgidX | 0x003 => some .wgidY
  | 0x004 => some .gangid | 0x005 => some .wgidZ | 0x006 => some .cluid | 0x007 => some .dieid
  | 0x008 => some .devid | 0x010 => some .time | 0x011 => some .cycle | 0x012 => some .seed
  | 0x013 => some .prio | 0x014 => some .rootslot | 0x015 => some .tvec | 0x016 => some .xi
  | 0x040 => some .trapcode | 0x041 => some .trappc | 0x042 => some .tretpc | 0x043 => some .trapaddr
  | 0x044 => some .trapmask | 0x045 => some .trapinfo | 0x046 => some .trapcur
  | _ => none

/-- The number of a writable special register (12: R243). -/
def WSpecReg.code (r : WSpecReg) : BitVec 12 :=
  match r with
  | .tvec => 0x015 | .tretpc => 0x042
  | .lcr n => 0x006#9 ++ n

/-- The writable special register of a number; a write to any other number is ILLFLD (12: R243). -/
def WSpecReg.dec (x : BitVec 12) : Option WSpecReg :=
  if x.extractLsb' 3 9 = 6#9 then some (.lcr (x.extractLsb' 0 3))
  else match x.toNat with
  | 0x015 => some .tvec | 0x042 => some .tretpc
  | _ => none

/-- Format L3 (07: R138, R139). -/
def packL3 (op : BitVec 8) (g : BitVec 6) (d : BitVec 6) (a : BitVec 6) (b : BitVec 6) : Word :=
  op ++ g ++ d ++ a ++ b

/-- Format LL (07: R138, R139). -/
def packLL (op : BitVec 8) (d : BitVec 6) (a : BitVec 6) (b : BitVec 6) (l : BitVec 4) (f : BitVec 2) : Word :=
  op ++ d ++ a ++ b ++ l ++ f

/-- Format LM (07: R138, R139). -/
def packLM (op : BitVec 8) (g : BitVec 6) (d : BitVec 6) (a : BitVec 6) (s : BitVec 2) (l : BitVec 4) : Word :=
  op ++ g ++ d ++ a ++ s ++ l

/-- Format LA (07: R138, R139). -/
def packLA (op : BitVec 8) (d : BitVec 6) (a : BitVec 6) (s : BitVec 2) (c : BitVec 4) (l : BitVec 4) (o : BitVec 2) : Word :=
  op ++ d ++ a ++ s ++ c ++ l ++ o

/-- Format L1I (07: R138, R139). -/
def packL1I (op : BitVec 8) (g : BitVec 6) (d : BitVec 6) (i : BitVec 12) : Word :=
  op ++ g ++ d ++ i

/-- Format LB (07: R138, R139). -/
def packLB (op : BitVec 8) (g : BitVec 6) (o : BitVec 18) : Word :=
  op ++ g ++ o

/-- Format LC (07: R138, R139). -/
def packLC (op : BitVec 8) (g : BitVec 6) (k : BitVec 2) (f : BitVec 4) (a : BitVec 6) (b : BitVec 6) : Word :=
  op ++ g ++ k ++ f ++ a ++ b

/-- Format GI (07: R138, R139). -/
def packGI (op : BitVec 8) (d : BitVec 6) (i : BitVec 18) : Word :=
  op ++ d ++ i

/-- Format GB (07: R138, R139). -/
def packGB (op : BitVec 8) (c : BitVec 4) (o : BitVec 20) : Word :=
  op ++ c ++ o

/-- Format GM (07: R138, R139). -/
def packGM (op : BitVec 8) (d : BitVec 6) (a : BitVec 6) (o : BitVec 8) (l : BitVec 4) : Word :=
  op ++ d ++ a ++ o ++ l

/-- Format GE (07: R138, R139). -/
def packGE (op : BitVec 8) (t : BitVec 8) (r : BitVec 4) (s : BitVec 6) (l : BitVec 4) (f : BitVec 2) : Word :=
  op ++ t ++ r ++ s ++ l ++ f

/-- Format GS (07: R138, R139). -/
def packGS (op : BitVec 8) (d : BitVec 6) (y : BitVec 12) (f : BitVec 6) : Word :=
  op ++ d ++ y ++ f

/-- Reads the fields of iadd, isub, iadc, isbb, imul, imulh and the like. -/
def decL3_gdab (mk : Guard → BitVec 6 → BitVec 6 → BitVec 6 → Instr) (w : Word) : Option Instr :=
  (Guard.dec (fld w 18 6)).bind fun g =>
    some (mk g (fld w 12 6) (fld w 6 6) (fld w 0 6))

/-- Reads the fields of iaddi. -/
def decL3_gdaimm (mk : Guard → BitVec 6 → BitVec 6 → BitVec 6 → Instr) (w : Word) : Option Instr :=
  (Guard.dec (fld w 18 6)).bind fun g =>
    some (mk g (fld w 12 6) (fld w 6 6) (fld w 0 6))

/-- Reads the fields of iabs, ineg, rng, popc, clz, ctz and the like. -/
def decL3_gda (zb : BitVec 6) (mk : Guard → BitVec 6 → BitVec 6 → Instr) (w : Word) : Option Instr :=
  if fld w 0 6 = zb then
    (Guard.dec (fld w 18 6)).bind fun g =>
    some (mk g (fld w 12 6) (fld w 6 6))
  else none

/-- Reads the fields of movi, movhi. -/
def decL1I_gdimm (mk : Guard → BitVec 6 → BitVec 12 → Instr) (w : Word) : Option Instr :=
  (Guard.dec (fld w 18 6)).bind fun g =>
    some (mk g (fld w 12 6) (fld w 0 12))

/-- Reads the fields of sel. -/
def decL3_cdab (mk : Guard → BitVec 6 → BitVec 6 → BitVec 6 → Instr) (w : Word) : Option Instr :=
  (Guard.dec (fld w 18 6)).bind fun c =>
    some (mk c (fld w 12 6) (fld w 6 6) (fld w 0 6))

/-- Reads the fields of cvtsr. -/
def decL3_formdab (mk : CvtsrForm → BitVec 6 → BitVec 6 → BitVec 6 → Instr) (w : Word) : Option Instr :=
  (CvtsrForm.dec (fld w 18 6)).bind fun form =>
    some (mk form (fld w 12 6) (fld w 6 6) (fld w 0 6))

/-- Reads the fields of icmp, itst. -/
def decLC_gcdwideab (mk : Guard → BitVec 2 → Bool → BitVec 6 → BitVec 6 → Instr) (w : Word) : Option Instr :=
  (Guard.dec (fld w 18 6)).bind fun g =>
    (decBool (fld w 12 4)).bind fun wide =>
    some (mk g (fld w 16 2) wide (fld w 6 6) (fld w 0 6))

/-- Reads the fields of fcmp, dcmp. -/
def decLC_gcdab (zf : BitVec 4) (mk : Guard → BitVec 2 → BitVec 6 → BitVec 6 → Instr) (w : Word) : Option Instr :=
  if fld w 12 4 = zf then
    (Guard.dec (fld w 18 6)).bind fun g =>
    some (mk g (fld w 16 2) (fld w 6 6) (fld w 0 6))
  else none

/-- Reads the fields of cmov. -/
def decLC_gcdcj (zf : BitVec 4) (zb : BitVec 6) (mk : Guard → BitVec 2 → BitVec 2 → Instr) (w : Word) : Option Instr :=
  if fld w 12 4 = zf ∧ fld w 0 6 = zb then
    (Guard.dec (fld w 18 6)).bind fun g =>
    (unpad 4 2 (fld w 6 6)).bind fun cj =>
    some (mk g (fld w 16 2) cj)
  else none

/-- Reads the fields of cmovV. -/
def decLC_gcda (zf : BitVec 4) (zb : BitVec 6) (mk : Guard → BitVec 2 → BitVec 6 → Instr) (w : Word) : Option Instr :=
  if fld w 12 4 = zf ∧ fld w 0 6 = zb then
    (Guard.dec (fld w 18 6)).bind fun g =>
    some (mk g (fld w 16 2) (fld w 6 6))
  else none

/-- Reads the fields of cmovI. -/
def decLC_gcdimm (zf : BitVec 4) (za : BitVec 6) (mk : Guard → BitVec 2 → BitVec 4 → Instr) (w : Word) : Option Instr :=
  if fld w 12 4 = zf ∧ fld w 6 6 = za then
    (Guard.dec (fld w 18 6)).bind fun g =>
    (unpad 2 4 (fld w 0 6)).bind fun imm =>
    some (mk g (fld w 16 2) imm)
  else none

/-- Reads the fields of cmovR. -/
def decLC_ga (zk : BitVec 2) (zf : BitVec 4) (zb : BitVec 6) (mk : Guard → BitVec 6 → Instr) (w : Word) : Option Instr :=
  if fld w 16 2 = zk ∧ fld w 12 4 = zf ∧ fld w 0 6 = zb then
    (Guard.dec (fld w 18 6)).bind fun g =>
    some (mk g (fld w 6 6))
  else none

/-- Reads the fields of idivI32, idivN32, iremI32, iremN32, fdiv, ddiv. -/
def decLL_dabla (zf : BitVec 2) (mk : BitVec 6 → BitVec 6 → BitVec 6 → BitVec 4 → Instr) (w : Word) : Option Instr :=
  if fld w 0 2 = zf then
    some (mk (fld w 18 6) (fld w 12 6) (fld w 6 6) (fld w 2 4))
  else none

/-- Reads the fields of fsqrt, frcp, frsq, fexp2, flog2, fsin and the like. -/
def decLL_dala (zb : BitVec 6) (zf : BitVec 2) (mk : BitVec 6 → BitVec 6 → BitVec 4 → Instr) (w : Word) : Option Instr :=
  if fld w 6 6 = zb ∧ fld w 0 2 = zf then
    some (mk (fld w 18 6) (fld w 12 6) (fld w 2 4))
  else none

/-- Reads the fields of aaddN64, aminI64, amaxI64, aminN64, amaxN64, aandN64 and the like. -/
def decLA_dabssclaord (mk : BitVec 6 → BitVec 6 → BitVec 2 → Scope → BitVec 4 → Ord → Instr) (w : Word) : Option Instr :=
  (Scope.dec (fld w 6 4)).bind fun sc =>
    (Ord.dec (fld w 0 2)).bind fun ord =>
    some (mk (fld w 18 6) (fld w 12 6) (fld w 10 2) sc (fld w 2 4) ord)

/-- Reads the fields of ldI8, ldN8, ldI16, ldN16, ldN32, ldN64 and the like. -/
def decLM_gdabsla (mk : Guard → BitVec 6 → BitVec 6 → BitVec 2 → BitVec 4 → Instr) (w : Word) : Option Instr :=
  (Guard.dec (fld w 18 6)).bind fun g =>
    some (mk g (fld w 12 6) (fld w 6 6) (fld w 4 2) (fld w 0 4))

/-- Reads the fields of stN8, stN16, stN32, stN64, stN128. -/
def decLM_gdabs (zl : BitVec 4) (mk : Guard → BitVec 6 → BitVec 6 → BitVec 2 → Instr) (w : Word) : Option Instr :=
  if fld w 0 4 = zl then
    (Guard.dec (fld w 18 6)).bind fun g =>
    some (mk g (fld w 12 6) (fld w 6 6) (fld w 4 2))
  else none

/-- Reads the fields of ldProbe. -/
def decLM_gcjabssize (mk : Guard → BitVec 2 → BitVec 6 → BitVec 2 → ProbeSize → Instr) (w : Word) : Option Instr :=
  (Guard.dec (fld w 18 6)).bind fun g =>
    (unpad 4 2 (fld w 12 6)).bind fun cj =>
    (ProbeSize.dec (fld w 0 4)).bind fun size =>
    some (mk g cj (fld w 6 6) (fld w 4 2) size)

/-- Reads the fields of faddOrdF32, faddOrdF64. -/
def decLA_dabssc (zl : BitVec 4) (zo : BitVec 2) (mk : BitVec 6 → BitVec 6 → BitVec 2 → Scope → Instr) (w : Word) : Option Instr :=
  if fld w 2 4 = zl ∧ fld w 0 2 = zo then
    (Scope.dec (fld w 6 4)).bind fun sc =>
    some (mk (fld w 18 6) (fld w 12 6) (fld w 10 2) sc)
  else none

/-- Reads the fields of ldaN32, ldaN64. -/
def decLA_dabssclaacq (mk : BitVec 6 → BitVec 6 → BitVec 2 → Scope → BitVec 4 → Bool → Instr) (w : Word) : Option Instr :=
  (Scope.dec (fld w 6 4)).bind fun sc =>
    (decBool (fld w 0 2)).bind fun acq =>
    some (mk (fld w 18 6) (fld w 12 6) (fld w 10 2) sc (fld w 2 4) acq)

/-- Reads the fields of staN32, staN64. -/
def decLA_dabsscrel (zl : BitVec 4) (mk : BitVec 6 → BitVec 6 → BitVec 2 → Scope → Bool → Instr) (w : Word) : Option Instr :=
  if fld w 2 4 = zl then
    (Scope.dec (fld w 6 4)).bind fun sc =>
    (decRel (fld w 0 2)).bind fun rel =>
    some (mk (fld w 18 6) (fld w 12 6) (fld w 10 2) sc rel)
  else none

/-- Reads the fields of bra, bral. -/
def decLB_goff (mk : Guard → BitVec 18 → Instr) (w : Word) : Option Instr :=
  (Guard.dec (fld w 18 6)).bind fun g =>
    some (mk g (fld w 0 18))

/-- Reads the fields of ret. -/
def decL3_ga (zd : BitVec 6) (zb : BitVec 6) (mk : Guard → BitVec 6 → Instr) (w : Word) : Option Instr :=
  if fld w 12 6 = zd ∧ fld w 0 6 = zb then
    (Guard.dec (fld w 18 6)).bind fun g =>
    some (mk g (fld w 6 6))
  else none

/-- Reads the fields of yield, nop, exit. -/
def decL3_g (zd : BitVec 6) (za : BitVec 6) (zb : BitVec 6) (mk : Guard → Instr) (w : Word) : Option Instr :=
  if fld w 12 6 = zd ∧ fld w 6 6 = za ∧ fld w 0 6 = zb then
    (Guard.dec (fld w 18 6)).bind fun g =>
    some (mk g)
  else none

/-- Reads the fields of shflI, lshI, lrotI, bcastI. -/
def decL3_gdak (mk : Guard → BitVec 6 → BitVec 6 → BitVec 5 → Instr) (w : Word) : Option Instr :=
  (Guard.dec (fld w 18 6)).bind fun g =>
    (unpad 1 5 (fld w 0 6)).bind fun k =>
    some (mk g (fld w 12 6) (fld w 6 6) k)

/-- Reads the fields of scan. -/
def decL3_gdaop (mk : Guard → BitVec 6 → BitVec 6 → ScanOp → Instr) (w : Word) : Option Instr :=
  (Guard.dec (fld w 18 6)).bind fun g =>
    (ScanOp.dec (fld w 0 6)).bind fun op =>
    some (mk g (fld w 12 6) (fld w 6 6) op)

/-- Reads the fields of cvtRne, cvtRz, cvtRu, cvtRd. -/
def decL3_gdadstsrc (mk : Guard → BitVec 6 → BitVec 6 → CvtFmt → CvtFmt → Instr) (w : Word) : Option Instr :=
  (Guard.dec (fld w 18 6)).bind fun g =>
    (CvtFmt.decPair (fld w 0 6)).bind fun (dst, src) =>
    if CvtFmt.pairOk dst src then some (mk g (fld w 12 6) (fld w 6 6) dst src) else none

/-- Reads the fields of sadd, ssub, smul, sand, sor, sxor and the like. -/
def decL3_dab (zb : BitVec 6) (mk : BitVec 6 → BitVec 6 → BitVec 6 → Instr) (w : Word) : Option Instr :=
  if fld w 0 6 = zb then
    some (mk (fld w 18 6) (fld w 12 6) (fld w 6 6))
  else none

/-- Reads the fields of smulh, smin, smax. -/
def decL3_dabuns (mk : BitVec 6 → BitVec 6 → BitVec 6 → Bool → Instr) (w : Word) : Option Instr :=
  (decBool (fld w 0 6)).bind fun uns =>
    some (mk (fld w 18 6) (fld w 12 6) (fld w 6 6) uns)

/-- Reads the fields of scmp, tlbfFill, tlbfReq, tlbfBad. -/
def decL3_ab (zg : BitVec 6) (zb : BitVec 6) (mk : BitVec 6 → BitVec 6 → Instr) (w : Word) : Option Instr :=
  if fld w 18 6 = zg ∧ fld w 0 6 = zb then
    some (mk (fld w 12 6) (fld w 6 6))
  else none

/-- Reads the fields of ssel. -/
def decL3_dabc (mk : BitVec 6 → BitVec 6 → BitVec 6 → Cond → Instr) (w : Word) : Option Instr :=
  (unpadTo 2 4 Cond.dec (fld w 0 6)).bind fun c =>
    some (mk (fld w 18 6) (fld w 12 6) (fld w 6 6) c)

/-- Reads the fields of smovi, smovhi, saddi. -/
def decGI_dimm (mk : BitVec 6 → BitVec 18 → Instr) (w : Word) : Option Instr :=
  some (mk (fld w 18 6) (fld w 0 18))

/-- Reads the fields of lread. -/
def decL3_dalane (mk : BitVec 6 → BitVec 6 → LaneSel → Instr) (w : Word) : Option Instr :=
  (LaneSel.dec (fld w 6 6) (fld w 0 6)).bind fun lane =>
    some (mk (fld w 18 6) (fld w 12 6) lane)

/-- Reads the fields of sbcast. -/
def decL3_dahi (za : BitVec 6) (mk : BitVec 6 → BitVec 6 → Bool → Instr) (w : Word) : Option Instr :=
  if fld w 6 6 = za then
    (decBool (fld w 0 6)).bind fun hi =>
    some (mk (fld w 18 6) (fld w 12 6) hi)
  else none

/-- Reads the fields of ballot. -/
def decL3_dkc (zb : BitVec 6) (mk : BitVec 6 → BitVec 2 → Cond → Instr) (w : Word) : Option Instr :=
  if fld w 0 6 = zb then
    (unpad 4 2 (fld w 12 6)).bind fun k =>
    (unpadTo 2 4 Cond.dec (fld w 6 6)).bind fun c =>
    some (mk (fld w 18 6) k c)
  else none

/-- Reads the fields of idxImm. -/
def decGS_imm (zd : BitVec 6) (zf : BitVec 6) (mk : BitVec 8 → Instr) (w : Word) : Option Instr :=
  if fld w 18 6 = zd ∧ fld w 0 6 = zf then
    (unpad 4 8 (fld w 6 12)).bind fun imm =>
    some (mk imm)
  else none

/-- Reads the fields of idxReg, prioReg, gateArm, gateCancel. -/
def decGS_d (zy : BitVec 12) (zf : BitVec 6) (mk : BitVec 6 → Instr) (w : Word) : Option Instr :=
  if fld w 6 12 = zy ∧ fld w 0 6 = zf then
    some (mk (fld w 18 6))
  else none

/-- Reads the fields of prioImm. -/
def decGS_imm2 (zd : BitVec 6) (zf : BitVec 6) (mk : BitVec 2 → Instr) (w : Word) : Option Instr :=
  if fld w 18 6 = zd ∧ fld w 0 6 = zf then
    (unpad 10 2 (fld w 6 12)).bind fun imm =>
    some (mk imm)
  else none

/-- Reads the fields of ubra. -/
def decGB_coff (mk : Cond → BitVec 20 → Instr) (w : Word) : Option Instr :=
  (Cond.dec (fld w 20 4)).bind fun c =>
    some (mk c (fld w 0 20))

/-- Reads the fields of bar, gbar. -/
def decGS_nrefresh (zd : BitVec 6) (mk : BitVec 3 → Bool → Instr) (w : Word) : Option Instr :=
  if fld w 18 6 = zd then
    (unpad 9 3 (fld w 6 12)).bind fun n =>
    (decBool (fld w 0 6)).bind fun refresh =>
    some (mk n refresh)
  else none

/-- Reads the fields of arrive. -/
def decGS_ngang (zd : BitVec 6) (mk : BitVec 3 → Bool → Instr) (w : Word) : Option Instr :=
  if fld w 18 6 = zd then
    (unpad 9 3 (fld w 6 12)).bind fun n =>
    (decBoolHi (fld w 0 6)).bind fun gang =>
    some (mk n gang)
  else none

/-- Reads the fields of wait. -/
def decGS_ngangrefresh (zd : BitVec 6) (mk : BitVec 3 → Bool → Bool → Instr) (w : Word) : Option Instr :=
  if fld w 18 6 = zd then
    (unpad 9 3 (fld w 6 12)).bind fun n =>
    (decBools (fld w 0 6)).bind fun (gang, refresh) =>
    some (mk n gang refresh)
  else none

/-- Reads the fields of sleep. -/
def decL3_dabn64c (mk : BitVec 6 → BitVec 6 → BitVec 6 → Bool → SleepCond → Instr) (w : Word) : Option Instr :=
  (decSleep (fld w 0 6)).bind fun (n64, c) =>
    some (mk (fld w 18 6) (fld w 12 6) (fld w 6 6) n64 c)

/-- Reads the fields of refresh, tret, preq. -/
def decGS_ (zd : BitVec 6) (zy : BitVec 12) (zf : BitVec 6) (mk : Instr) (w : Word) : Option Instr :=
  if fld w 18 6 = zd ∧ fld w 6 12 = zy ∧ fld w 0 6 = zf then
    some mk
  else none

/-- Reads the fields of trap, brk, pmark. -/
def decGS_imm3 (zd : BitVec 6) (zf : BitVec 6) (mk : BitVec 12 → Instr) (w : Word) : Option Instr :=
  if fld w 18 6 = zd ∧ fld w 0 6 = zf then
    some (mk (fld w 6 12))
  else none

/-- Reads the fields of pmarkV. -/
def decGS_dimm (zf : BitVec 6) (mk : BitVec 6 → BitVec 12 → Instr) (w : Word) : Option Instr :=
  if fld w 0 6 = zf then
    some (mk (fld w 18 6) (fld w 6 12))
  else none

/-- Reads the fields of sld. -/
def decGM_daoffla (mk : BitVec 6 → BitVec 6 → BitVec 8 → BitVec 4 → Instr) (w : Word) : Option Instr :=
  some (mk (fld w 18 6) (fld w 12 6) (fld w 4 8) (fld w 0 4))

/-- Reads the fields of sst. -/
def decGM_daoff (zl : BitVec 4) (mk : BitVec 6 → BitVec 6 → BitVec 8 → Instr) (w : Word) : Option Instr :=
  if fld w 0 4 = zl then
    some (mk (fld w 18 6) (fld w 12 6) (fld w 4 8))
  else none

/-- Reads the fields of fence. -/
def decGS_kindsc (zd : BitVec 6) (zf : BitVec 6) (mk : FenceKind → Scope → Instr) (w : Word) : Option Instr :=
  if fld w 18 6 = zd ∧ fld w 0 6 = zf then
    (FenceKind.decScope (fld w 6 12)).bind fun (kind, sc) =>
    some (mk kind sc)
  else none

/-- Reads the fields of copy. -/
def decGE_tidchslavar (mk : BitVec 8 → BitVec 3 → BitVec 6 → BitVec 4 → CopyVar → Instr) (w : Word) : Option Instr :=
  (unpad 1 3 (fld w 12 4)).bind fun ch =>
    (CopyVar.dec (fld w 0 2)).bind fun var =>
    if (fld w 6 6) != 63#6 then some (mk (fld w 16 8) ch (fld w 6 6) (fld w 2 4) var) else none

/-- Reads the fields of chain. -/
def decGE_chsla (zt : BitVec 8) (zf : BitVec 2) (mk : BitVec 3 → BitVec 6 → BitVec 4 → Instr) (w : Word) : Option Instr :=
  if fld w 16 8 = zt ∧ fld w 0 2 = zf then
    (unpad 1 3 (fld w 12 4)).bind fun ch =>
    if (fld w 6 6) != 63#6 then some (mk ch (fld w 6 6) (fld w 2 4)) else none
  else none

/-- Reads the fields of chwp. -/
def decGE_scchslaacq (mk : Scope → BitVec 3 → BitVec 6 → BitVec 4 → Bool → Instr) (w : Word) : Option Instr :=
  (unpadTo 4 4 Scope.dec (fld w 16 8)).bind fun sc =>
    (unpad 1 3 (fld w 12 4)).bind fun ch =>
    (decBool (fld w 0 2)).bind fun acq =>
    if (fld w 6 6) != 63#6 then some (mk sc ch (fld w 6 6) (fld w 2 4) acq) else none

/-- Reads the fields of publ. -/
def decGE_tidsla (zr : BitVec 4) (zf : BitVec 2) (mk : BitVec 8 → BitVec 6 → BitVec 4 → Instr) (w : Word) : Option Instr :=
  if fld w 12 4 = zr ∧ fld w 0 2 = zf then
    some (mk (fld w 16 8) (fld w 6 6) (fld w 2 4))
  else none

/-- Reads the fields of rput. -/
def decGE_ringsla (zr : BitVec 4) (zf : BitVec 2) (mk : BitVec 4 → BitVec 6 → BitVec 4 → Instr) (w : Word) : Option Instr :=
  if fld w 12 4 = zr ∧ fld w 0 2 = zf then
    (unpad 4 4 (fld w 16 8)).bind fun ring =>
    some (mk ring (fld w 6 6) (fld w 2 4))
  else none

/-- Reads the fields of rtake. -/
def decGE_ringsla2 (zr : BitVec 4) (zf : BitVec 2) (mk : BitVec 4 → BitVec 6 → BitVec 4 → Instr) (w : Word) : Option Instr :=
  if fld w 12 4 = zr ∧ fld w 0 2 = zf then
    (unpad 4 4 (fld w 16 8)).bind fun ring =>
    if (fld w 6 6) != 63#6 then some (mk ring (fld w 6 6) (fld w 2 4)) else none
  else none

/-- Reads the fields of tld. -/
def decGE_tidtilesla (zf : BitVec 2) (mk : BitVec 8 → BitVec 3 → BitVec 6 → BitVec 4 → Instr) (w : Word) : Option Instr :=
  if fld w 0 2 = zf then
    (unpad 1 3 (fld w 12 4)).bind fun tile =>
    if (fld w 6 6) != 63#6 then some (mk (fld w 16 8) tile (fld w 6 6) (fld w 2 4)) else none
  else none

/-- Reads the fields of wld. -/
def decGE_tidslax24 (zr : BitVec 4) (mk : BitVec 8 → BitVec 6 → BitVec 4 → Bool → Instr) (w : Word) : Option Instr :=
  if fld w 12 4 = zr then
    (decBool (fld w 0 2)).bind fun x24 =>
    if (fld w 6 6) != 63#6 then some (mk (fld w 16 8) (fld w 6 6) (fld w 2 4) x24) else none
  else none

/-- Reads the fields of mma. -/
def decGE_fmttileaccslabs (mk : MmaFmt → BitVec 3 → BitVec 3 → BitVec 6 → BitVec 4 → Bool → Instr) (w : Word) : Option Instr :=
  (MmaFmt.decTile (fld w 16 8)).bind fun (fmt, tile) =>
    (unpad 1 3 (fld w 12 4)).bind fun acc =>
    (decBool (fld w 0 2)).bind fun bs =>
    if (fld w 6 6) != 63#6 && MmaFmt.bsOk fmt bs then some (mk fmt tile acc (fld w 6 6) (fld w 2 4) bs) else none

/-- Reads the fields of azero. -/
def decGE_accslaf64 (zt : BitVec 8) (mk : BitVec 3 → BitVec 6 → BitVec 4 → Bool → Instr) (w : Word) : Option Instr :=
  if fld w 16 8 = zt then
    (unpad 1 3 (fld w 12 4)).bind fun acc =>
    (decBool (fld w 0 2)).bind fun f64 =>
    some (mk acc (fld w 6 6) (fld w 2 4) f64)
  else none

/-- Reads the fields of ast. -/
def decGE_tidaccslabs (mk : BitVec 8 → BitVec 3 → BitVec 6 → BitVec 4 → Bool → Instr) (w : Word) : Option Instr :=
  (unpad 1 3 (fld w 12 4)).bind fun acc =>
    (decBool (fld w 0 2)).bind fun bs =>
    if (fld w 6 6) != 63#6 then some (mk (fld w 16 8) acc (fld w 6 6) (fld w 2 4) bs) else none

/-- Reads the fields of blsub. -/
def decGE_nslotsla (zf : BitVec 2) (mk : BitVec 8 → BitVec 4 → BitVec 6 → BitVec 4 → Instr) (w : Word) : Option Instr :=
  if fld w 0 2 = zf then
    if (fld w 6 6) != 63#6 && (fld w 16 8) != 0#8 then some (mk (fld w 16 8) (fld w 12 4) (fld w 6 6) (fld w 2 4)) else none
  else none

/-- Reads the fields of blcol. -/
def decGE_slotsla (zt : BitVec 8) (zf : BitVec 2) (mk : BitVec 4 → BitVec 6 → BitVec 4 → Instr) (w : Word) : Option Instr :=
  if fld w 16 8 = zt ∧ fld w 0 2 = zf then
    if (fld w 6 6) != 63#6 then some (mk (fld w 12 4) (fld w 6 6) (fld w 2 4)) else none
  else none

/-- Reads the fields of qcast, creduce. -/
def decGE_sla (zt : BitVec 8) (zr : BitVec 4) (zf : BitVec 2) (mk : BitVec 6 → BitVec 4 → Instr) (w : Word) : Option Instr :=
  if fld w 16 8 = zt ∧ fld w 12 4 = zr ∧ fld w 0 2 = zf then
    if (fld w 6 6) != 63#6 then some (mk (fld w 6 6) (fld w 2 4)) else none
  else none

/-- Reads the fields of tidset, tidget, stins, stlook, kvres. -/
def decGE_tidsla2 (zr : BitVec 4) (zf : BitVec 2) (mk : BitVec 8 → BitVec 6 → BitVec 4 → Instr) (w : Word) : Option Instr :=
  if fld w 12 4 = zr ∧ fld w 0 2 = zf then
    if (fld w 6 6) != 63#6 then some (mk (fld w 16 8) (fld w 6 6) (fld w 2 4)) else none
  else none

/-- Reads the fields of sread. -/
def decGS_dregvec (mk : BitVec 6 → SpecReg → Bool → Instr) (w : Word) : Option Instr :=
  (SpecReg.dec (fld w 6 12)).bind fun reg =>
    (decBool (fld w 0 6)).bind fun vec =>
    some (mk (fld w 18 6) reg vec)

/-- Reads the fields of swrite. -/
def decGS_dreg (zf : BitVec 6) (mk : BitVec 6 → WSpecReg → Instr) (w : Word) : Option Instr :=
  if fld w 0 6 = zf then
    (WSpecReg.dec (fld w 6 12)).bind fun reg =>
    some (mk (fld w 18 6) reg)
  else none

/-- Reads the fields of stamp. -/
def decGS_dord (zy : BitVec 12) (mk : BitVec 6 → Bool → Instr) (w : Word) : Option Instr :=
  if fld w 6 12 = zy then
    (decBool (fld w 0 6)).bind fun ord =>
    some (mk (fld w 18 6) ord)
  else none

/-- The words of one major code (08: R157, R159): unassigned codes are none. -/
def decodeMajor (m : Nat) (w : Word) : Option (Option Instr) :=
  match m with
  | 0x01 => some (decL3_gdab .iadd w)
  | 0x02 => some (decL3_gdaimm .iaddi w)
  | 0x03 => some (decL3_gdab .isub w)
  | 0x04 => some (decL3_gdab .iadc w)
  | 0x05 => some (decL3_gdab .isbb w)
  | 0x06 => some (decL3_gdab .imul w)
  | 0x07 => some (decL3_gdab .imulh w)
  | 0x08 => some (decL3_gdab .imulhu w)
  | 0x09 => some (decL3_gdab .imad w)
  | 0x0A => some (decL3_gdab .imin w)
  | 0x0B => some (decL3_gdab .imax w)
  | 0x0C => some (decL3_gdab .iminu w)
  | 0x0D => some (decL3_gdab .imaxu w)
  | 0x0E => some ((decL3_gda 0#6 .iabs w) <|> (decL3_gda 1#6 .ineg w))
  | 0x0F => some (decL3_gda 0#6 .rng w)
  | 0x10 => some (decL1I_gdimm .movi w)
  | 0x11 => some (decL1I_gdimm .movhi w)
  | 0x12 => some (decL3_gdab .andL w)
  | 0x13 => some (decL3_gdab .orL w)
  | 0x14 => some (decL3_gdab .xorL w)
  | 0x15 => some (decL3_gdab .andn w)
  | 0x16 => some (decL3_gdab .shl w)
  | 0x17 => some (decL3_gdab .shr w)
  | 0x18 => some (decL3_gdab .sar w)
  | 0x19 => some (decL3_gdab .rol w)
  | 0x1A => some (decL3_gdab .bfx w)
  | 0x1B => some (decL3_gdab .bfxu w)
  | 0x1C => some (decL3_gdab .bfi w)
  | 0x1D => some ((decL3_gda 0#6 .popc w) <|> (decL3_gda 1#6 .clz w) <|> (decL3_gda 2#6 .ctz w) <|> (decL3_gda 3#6 .brev w))
  | 0x1E => some (decL3_cdab .sel w)
  | 0x1F => some (decL3_formdab .cvtsr w)
  | 0x20 => some (decLC_gcdwideab .icmp w)
  | 0x21 => some (decLC_gcdwideab .itst w)
  | 0x22 => some (decLC_gcdab 0#4 .fcmp w)
  | 0x23 => some (decLC_gcdab 0#4 .dcmp w)
  | 0x24 => some ((decLC_gcdcj 0#4 0#6 .cmov w) <|> (decLC_gcda 1#4 0#6 .cmovV w) <|> (decLC_gcdimm 2#4 0#6 .cmovI w) <|> (decLC_ga 0#2 3#4 0#6 .cmovR w))
  | 0x25 => some (decL3_gdab .iaddmin w)
  | 0x26 => some (decL3_gdab .iaddmax w)
  | 0x27 => some (decL3_gdab .faddmin w)
  | 0x28 => some (decL3_gdab .addw w)
  | 0x29 => some (decL3_gdab .subw w)
  | 0x2A => some (decL3_gdab .shlw w)
  | 0x2B => some (decL3_gdab .shrw w)
  | 0x2C => some (decL3_gdab .sarw w)
  | 0x2D => some (decL3_gdab .mulw w)
  | 0x2E => some (decL3_gdab .badd w)
  | 0x2F => some (decL3_gdab .bfma w)
  | 0x30 => some ((decLL_dabla 0#2 .idivI32 w) <|> (decLL_dabla 1#2 .idivN32 w) <|> (decLL_dabla 2#2 .iremI32 w) <|> (decLL_dabla 3#2 .iremN32 w))
  | 0x31 => some (decLL_dabla 0#2 .fdiv w)
  | 0x32 => some (decLL_dala 0#6 0#2 .fsqrt w)
  | 0x33 => some ((decLL_dala 0#6 0#2 .frcp w) <|> (decLL_dala 0#6 1#2 .frsq w))
  | 0x34 => some ((decLL_dala 0#6 0#2 .fexp2 w) <|> (decLL_dala 0#6 1#2 .flog2 w))
  | 0x35 => some ((decLL_dala 0#6 0#2 .fsin w) <|> (decLL_dala 0#6 1#2 .fcos w))
  | 0x36 => some (decLL_dabla 0#2 .ddiv w)
  | 0x37 => some (decLL_dala 0#6 0#2 .dsqrt w)
  | 0x38 => some (decLA_dabssclaord .aaddN64 w)
  | 0x39 => some (decLA_dabssclaord .aminI64 w)
  | 0x3A => some (decLA_dabssclaord .amaxI64 w)
  | 0x3B => some (decLA_dabssclaord .aminN64 w)
  | 0x3C => some (decLA_dabssclaord .amaxN64 w)
  | 0x3D => some (decLA_dabssclaord .aandN64 w)
  | 0x3E => some (decLA_dabssclaord .aorN64 w)
  | 0x3F => some (decLA_dabssclaord .axorN64 w)
  | 0x40 => some (decLM_gdabsla .ldI8 w)
  | 0x41 => some (decLM_gdabsla .ldN8 w)
  | 0x42 => some (decLM_gdabsla .ldI16 w)
  | 0x43 => some (decLM_gdabsla .ldN16 w)
  | 0x44 => some (decLM_gdabsla .ldN32 w)
  | 0x45 => some (decLM_gdabsla .ldN64 w)
  | 0x46 => some (decLM_gdabsla .ldN128 w)
  | 0x47 => some (decLA_dabssclaord .axchgN64 w)
  | 0x48 => some (decLM_gdabs 0#4 .stN8 w)
  | 0x49 => some (decLM_gdabs 0#4 .stN16 w)
  | 0x4A => some (decLM_gdabs 0#4 .stN32 w)
  | 0x4B => some (decLM_gdabs 0#4 .stN64 w)
  | 0x4C => some (decLM_gdabs 0#4 .stN128 w)
  | 0x4D => some (decLM_gdabsla .ldk w)
  | 0x4E => some (decLM_gcjabssize .ldProbe w)
  | 0x4F => some (decLA_dabssclaord .acasN64 w)
  | 0x50 => some (decLA_dabssclaord .aaddN32 w)
  | 0x51 => some (decLA_dabssclaord .aminI32 w)
  | 0x52 => some (decLA_dabssclaord .amaxI32 w)
  | 0x53 => some (decLA_dabssclaord .aminN32 w)
  | 0x54 => some (decLA_dabssclaord .amaxN32 w)
  | 0x55 => some (decLA_dabssclaord .aandN32 w)
  | 0x56 => some (decLA_dabssclaord .aorN32 w)
  | 0x57 => some (decLA_dabssclaord .axorN32 w)
  | 0x58 => some (decLA_dabssclaord .axchgN32 w)
  | 0x59 => some (decLA_dabssclaord .acasN32 w)
  | 0x5A => some (decLA_dabssc 0#4 0#2 .faddOrdF32 w)
  | 0x5B => some (decLA_dabssc 0#4 0#2 .faddOrdF64 w)
  | 0x5C => some (decLA_dabssclaacq .ldaN32 w)
  | 0x5D => some (decLA_dabssclaacq .ldaN64 w)
  | 0x5E => some (decLA_dabsscrel 0#4 .staN32 w)
  | 0x5F => some (decLA_dabsscrel 0#4 .staN64 w)
  | 0x60 => some (decLB_goff .bra w)
  | 0x61 => some (decLB_goff .bral w)
  | 0x62 => some (decL3_gda 0#6 .jmp w)
  | 0x63 => some (decL3_ga 0#6 0#6 .ret w)
  | 0x64 => some (decL3_g 0#6 0#6 0#6 .yield w)
  | 0x65 => some (decL3_g 0#6 0#6 0#6 .nop w)
  | 0x66 => some (decL3_g 0#6 0#6 0#6 .exit w)
  | 0x67 => some (decL3_gdab .hadd w)
  | 0x68 => some (decL3_gdab .hfma w)
  | 0x69 => some (decL3_gdab .fadd w)
  | 0x6A => some (decL3_gdab .fsub w)
  | 0x6B => some (decL3_gdab .fmul w)
  | 0x6C => some (decL3_gdab .ffma w)
  | 0x6D => some (decL3_gdab .fmin w)
  | 0x6E => some (decL3_gdab .fmax w)
  | 0x6F => some (decL3_gdab .dadd w)
  | 0x70 => some (decL3_gdab .shfl w)
  | 0x71 => some (decL3_gdak .shflI w)
  | 0x72 => some (decL3_gdab .lsh w)
  | 0x73 => some (decL3_gdak .lshI w)
  | 0x74 => some (decL3_gdab .lrot w)
  | 0x75 => some (decL3_gdak .lrotI w)
  | 0x76 => some (decL3_gdab .bcast w)
  | 0x77 => some (decL3_gdak .bcastI w)
  | 0x78 => some (decL3_gdaop .scan w)
  | 0x79 => some (decL3_gdab .sample w)
  | 0x7A => some ((decL3_gdadstsrc .cvtRne w) <|> (decL3_gda 54#6 .cvtRneF32Q4 w) <|> (decL3_gda 63#6 .cvtRneQ4F32 w))
  | 0x7B => some (decL3_gdadstsrc .cvtRz w)
  | 0x7C => some (decL3_gdadstsrc .cvtRu w)
  | 0x7D => some (decL3_gdadstsrc .cvtRd w)
  | 0x7E => some (decL3_gdab .dmul w)
  | 0x7F => some (decL3_gdab .dfma w)
  | 0x81 => some (decL3_dab 0#6 .sadd w)
  | 0x82 => some (decL3_dab 0#6 .ssub w)
  | 0x83 => some (decL3_dab 0#6 .smul w)
  | 0x84 => some (decL3_dabuns .smulh w)
  | 0x85 => some (decL3_dab 0#6 .sand w)
  | 0x86 => some (decL3_dab 0#6 .sor w)
  | 0x87 => some (decL3_dab 0#6 .sxor w)
  | 0x88 => some (decL3_dab 0#6 .sshl w)
  | 0x89 => some (decL3_dab 0#6 .sshr w)
  | 0x8A => some (decL3_dab 0#6 .ssar w)
  | 0x8B => some (decL3_dabuns .smin w)
  | 0x8C => some (decL3_dabuns .smax w)
  | 0x8D => some (decL3_ab 0#6 0#6 .scmp w)
  | 0x8E => some (decL3_dabc .ssel w)
  | 0x90 => some (decGI_dimm .smovi w)
  | 0x91 => some (decGI_dimm .smovhi w)
  | 0x92 => some (decGI_dimm .saddi w)
  | 0x93 => some (decL3_dalane .lread w)
  | 0x94 => some (decL3_dahi 0#6 .sbcast w)
  | 0x95 => some (decL3_dkc 0#6 .ballot w)
  | 0x96 => some ((decGS_imm 0#6 0#6 .idxImm w) <|> (decGS_d 0#12 1#6 .idxReg w))
  | 0x97 => some ((decGS_imm2 0#6 0#6 .prioImm w) <|> (decGS_d 0#12 1#6 .prioReg w))
  | 0xA0 => some (decGB_coff .ubra w)
  | 0xA1 => some (decGS_nrefresh 0#6 .bar w)
  | 0xA2 => some (decGS_nrefresh 0#6 .gbar w)
  | 0xA3 => some (decGS_ngang 0#6 .arrive w)
  | 0xA4 => some (decGS_ngangrefresh 0#6 .wait w)
  | 0xA5 => some (decL3_dabn64c .sleep w)
  | 0xA6 => some (decGS_ 0#6 0#12 0#6 .refresh w)
  | 0xA7 => some (decL3_dab 0#6 .rootsw w)
  | 0xA8 => some ((decL3_ab 0#6 0#6 .tlbfFill w) <|> (decL3_ab 0#6 1#6 .tlbfReq w) <|> (decL3_ab 0#6 2#6 .tlbfBad w))
  | 0xA9 => some (decGS_imm3 0#6 0#6 .trap w)
  | 0xAA => some (decGS_ 0#6 0#12 0#6 .tret w)
  | 0xAB => some (decGS_ 0#6 0#12 0#6 .preq w)
  | 0xAC => some (decGS_imm3 0#6 0#6 .brk w)
  | 0xAD => some ((decGS_d 0#12 0#6 .gateArm w) <|> (decGS_d 0#12 1#6 .gateCancel w))
  | 0xAE => some ((decGS_imm3 0#6 0#6 .pmark w) <|> (decGS_dimm 1#6 .pmarkV w))
  | 0xB0 => some (decGM_daoffla .sld w)
  | 0xB1 => some (decGM_daoff 0#4 .sst w)
  | 0xB2 => some (decGS_kindsc 0#6 0#6 .fence w)
  | 0xC0 => some (decGE_tidchslavar .copy w)
  | 0xC1 => some (decGE_chsla 0#8 0#2 .chain w)
  | 0xC2 => some (decGE_scchslaacq .chwp w)
  | 0xC3 => some (decGE_tidsla 0#4 0#2 .publ w)
  | 0xC4 => some (decGE_ringsla 0#4 0#2 .rput w)
  | 0xC5 => some (decGE_ringsla2 0#4 0#2 .rtake w)
  | 0xC6 => some (decGE_tidtilesla 0#2 .tld w)
  | 0xC7 => some (decGE_tidslax24 0#4 .wld w)
  | 0xC8 => some (decGE_fmttileaccslabs .mma w)
  | 0xC9 => some (decGE_accslaf64 0#8 .azero w)
  | 0xCA => some (decGE_tidaccslabs .ast w)
  | 0xCB => some (decGE_nslotsla 0#2 .blsub w)
  | 0xCC => some (decGE_slotsla 0#8 0#2 .blcol w)
  | 0xCD => some (decGE_sla 0#8 0#4 0#2 .qcast w)
  | 0xCE => some (decGE_sla 0#8 0#4 0#2 .creduce w)
  | 0xCF => some (decGE_tidsla2 0#4 0#2 .tidset w)
  | 0xD0 => some (decGE_tidsla2 0#4 0#2 .tidget w)
  | 0xD1 => some (decGE_tidsla2 0#4 0#2 .stins w)
  | 0xD2 => some (decGE_tidsla2 0#4 0#2 .stlook w)
  | 0xD3 => some (decGE_tidsla2 0#4 0#2 .kvres w)
  | 0xF0 => some (decGS_dregvec .sread w)
  | 0xF1 => some (decGS_dreg 0#6 .swrite w)
  | 0xF2 => some (decGS_dord 0#12 .stamp w)
  | _ => none

/-- What decoding a word gives: an instruction, an unassigned major code (ILLOP), or a reserved field value (ILLFLD)
(07: R137 steps 1 and 2, 08: R163). -/
inductive Decoded where
  | ok (i : Instr)
  | illop
  | illfld
  deriving DecidableEq, Repr

/-- Decodes any word (08: R163: every word has one of the outcomes). -/
def decode (w : Word) : Decoded :=
  match decodeMajor (major w).toNat w with
  | none => .illop
  | some none => .illfld
  | some (some i) => .ok i

/-- The word of an instruction, from the encoding tables of 07 to 13; the steps without an encoding give word 0. -/
def encode (i : Instr) : Word :=
  match i with
  | .iadd g d a b => packL3 0x01#8 g.enc d a b
  | .iaddi g d a imm => packL3 0x02#8 g.enc d a imm
  | .isub g d a b => packL3 0x03#8 g.enc d a b
  | .iadc g d a b => packL3 0x04#8 g.enc d a b
  | .isbb g d a b => packL3 0x05#8 g.enc d a b
  | .imul g d a b => packL3 0x06#8 g.enc d a b
  | .imulh g d a b => packL3 0x07#8 g.enc d a b
  | .imulhu g d a b => packL3 0x08#8 g.enc d a b
  | .imad g d a b => packL3 0x09#8 g.enc d a b
  | .imin g d a b => packL3 0x0A#8 g.enc d a b
  | .imax g d a b => packL3 0x0B#8 g.enc d a b
  | .iminu g d a b => packL3 0x0C#8 g.enc d a b
  | .imaxu g d a b => packL3 0x0D#8 g.enc d a b
  | .iabs g d a => packL3 0x0E#8 g.enc d a 0#6
  | .ineg g d a => packL3 0x0E#8 g.enc d a 1#6
  | .rng g d a => packL3 0x0F#8 g.enc d a 0#6
  | .movi g d imm => packL1I 0x10#8 g.enc d imm
  | .movhi g d imm => packL1I 0x11#8 g.enc d imm
  | .andL g d a b => packL3 0x12#8 g.enc d a b
  | .orL g d a b => packL3 0x13#8 g.enc d a b
  | .xorL g d a b => packL3 0x14#8 g.enc d a b
  | .andn g d a b => packL3 0x15#8 g.enc d a b
  | .shl g d a b => packL3 0x16#8 g.enc d a b
  | .shr g d a b => packL3 0x17#8 g.enc d a b
  | .sar g d a b => packL3 0x18#8 g.enc d a b
  | .rol g d a b => packL3 0x19#8 g.enc d a b
  | .bfx g d a b => packL3 0x1A#8 g.enc d a b
  | .bfxu g d a b => packL3 0x1B#8 g.enc d a b
  | .bfi g d a b => packL3 0x1C#8 g.enc d a b
  | .popc g d a => packL3 0x1D#8 g.enc d a 0#6
  | .clz g d a => packL3 0x1D#8 g.enc d a 1#6
  | .ctz g d a => packL3 0x1D#8 g.enc d a 2#6
  | .brev g d a => packL3 0x1D#8 g.enc d a 3#6
  | .sel c d a b => packL3 0x1E#8 c.enc d a b
  | .cvtsr form d a b => packL3 0x1F#8 form.code d a b
  | .icmp g cd wide a b => packLC 0x20#8 g.enc cd (encBool 4 wide) a b
  | .itst g cd wide a b => packLC 0x21#8 g.enc cd (encBool 4 wide) a b
  | .fcmp g cd a b => packLC 0x22#8 g.enc cd 0#4 a b
  | .dcmp g cd a b => packLC 0x23#8 g.enc cd 0#4 a b
  | .cmov g cd cj => packLC 0x24#8 g.enc cd 0#4 (pad 4 cj) 0#6
  | .cmovV g cd a => packLC 0x24#8 g.enc cd 1#4 a 0#6
  | .cmovI g cd imm => packLC 0x24#8 g.enc cd 2#4 0#6 (pad 2 imm)
  | .cmovR g a => packLC 0x24#8 g.enc 0#2 3#4 a 0#6
  | .iaddmin g d a b => packL3 0x25#8 g.enc d a b
  | .iaddmax g d a b => packL3 0x26#8 g.enc d a b
  | .faddmin g d a b => packL3 0x27#8 g.enc d a b
  | .addw g d a b => packL3 0x28#8 g.enc d a b
  | .subw g d a b => packL3 0x29#8 g.enc d a b
  | .shlw g d a b => packL3 0x2A#8 g.enc d a b
  | .shrw g d a b => packL3 0x2B#8 g.enc d a b
  | .sarw g d a b => packL3 0x2C#8 g.enc d a b
  | .mulw g d a b => packL3 0x2D#8 g.enc d a b
  | .badd g d a b => packL3 0x2E#8 g.enc d a b
  | .bfma g d a b => packL3 0x2F#8 g.enc d a b
  | .idivI32 d a b la => packLL 0x30#8 d a b la 0#2
  | .idivN32 d a b la => packLL 0x30#8 d a b la 1#2
  | .iremI32 d a b la => packLL 0x30#8 d a b la 2#2
  | .iremN32 d a b la => packLL 0x30#8 d a b la 3#2
  | .fdiv d a b la => packLL 0x31#8 d a b la 0#2
  | .fsqrt d a la => packLL 0x32#8 d a 0#6 la 0#2
  | .frcp d a la => packLL 0x33#8 d a 0#6 la 0#2
  | .frsq d a la => packLL 0x33#8 d a 0#6 la 1#2
  | .fexp2 d a la => packLL 0x34#8 d a 0#6 la 0#2
  | .flog2 d a la => packLL 0x34#8 d a 0#6 la 1#2
  | .fsin d a la => packLL 0x35#8 d a 0#6 la 0#2
  | .fcos d a la => packLL 0x35#8 d a 0#6 la 1#2
  | .ddiv d a b la => packLL 0x36#8 d a b la 0#2
  | .dsqrt d a la => packLL 0x37#8 d a 0#6 la 0#2
  | .aaddN64 d a bs sc la ord => packLA 0x38#8 d a bs sc.code la ord.code
  | .aminI64 d a bs sc la ord => packLA 0x39#8 d a bs sc.code la ord.code
  | .amaxI64 d a bs sc la ord => packLA 0x3A#8 d a bs sc.code la ord.code
  | .aminN64 d a bs sc la ord => packLA 0x3B#8 d a bs sc.code la ord.code
  | .amaxN64 d a bs sc la ord => packLA 0x3C#8 d a bs sc.code la ord.code
  | .aandN64 d a bs sc la ord => packLA 0x3D#8 d a bs sc.code la ord.code
  | .aorN64 d a bs sc la ord => packLA 0x3E#8 d a bs sc.code la ord.code
  | .axorN64 d a bs sc la ord => packLA 0x3F#8 d a bs sc.code la ord.code
  | .ldI8 g d a bs la => packLM 0x40#8 g.enc d a bs la
  | .ldN8 g d a bs la => packLM 0x41#8 g.enc d a bs la
  | .ldI16 g d a bs la => packLM 0x42#8 g.enc d a bs la
  | .ldN16 g d a bs la => packLM 0x43#8 g.enc d a bs la
  | .ldN32 g d a bs la => packLM 0x44#8 g.enc d a bs la
  | .ldN64 g d a bs la => packLM 0x45#8 g.enc d a bs la
  | .ldN128 g d a bs la => packLM 0x46#8 g.enc d a bs la
  | .axchgN64 d a bs sc la ord => packLA 0x47#8 d a bs sc.code la ord.code
  | .stN8 g d a bs => packLM 0x48#8 g.enc d a bs 0#4
  | .stN16 g d a bs => packLM 0x49#8 g.enc d a bs 0#4
  | .stN32 g d a bs => packLM 0x4A#8 g.enc d a bs 0#4
  | .stN64 g d a bs => packLM 0x4B#8 g.enc d a bs 0#4
  | .stN128 g d a bs => packLM 0x4C#8 g.enc d a bs 0#4
  | .ldk g d a bs la => packLM 0x4D#8 g.enc d a bs la
  | .ldProbe g cj a bs size => packLM 0x4E#8 g.enc (pad 4 cj) a bs size.code
  | .acasN64 d a bs sc la ord => packLA 0x4F#8 d a bs sc.code la ord.code
  | .aaddN32 d a bs sc la ord => packLA 0x50#8 d a bs sc.code la ord.code
  | .aminI32 d a bs sc la ord => packLA 0x51#8 d a bs sc.code la ord.code
  | .amaxI32 d a bs sc la ord => packLA 0x52#8 d a bs sc.code la ord.code
  | .aminN32 d a bs sc la ord => packLA 0x53#8 d a bs sc.code la ord.code
  | .amaxN32 d a bs sc la ord => packLA 0x54#8 d a bs sc.code la ord.code
  | .aandN32 d a bs sc la ord => packLA 0x55#8 d a bs sc.code la ord.code
  | .aorN32 d a bs sc la ord => packLA 0x56#8 d a bs sc.code la ord.code
  | .axorN32 d a bs sc la ord => packLA 0x57#8 d a bs sc.code la ord.code
  | .axchgN32 d a bs sc la ord => packLA 0x58#8 d a bs sc.code la ord.code
  | .acasN32 d a bs sc la ord => packLA 0x59#8 d a bs sc.code la ord.code
  | .faddOrdF32 d a bs sc => packLA 0x5A#8 d a bs sc.code 0#4 0#2
  | .faddOrdF64 d a bs sc => packLA 0x5B#8 d a bs sc.code 0#4 0#2
  | .ldaN32 d a bs sc la acq => packLA 0x5C#8 d a bs sc.code la (encBool 2 acq)
  | .ldaN64 d a bs sc la acq => packLA 0x5D#8 d a bs sc.code la (encBool 2 acq)
  | .staN32 d a bs sc rel => packLA 0x5E#8 d a bs sc.code 0#4 (encRel rel)
  | .staN64 d a bs sc rel => packLA 0x5F#8 d a bs sc.code 0#4 (encRel rel)
  | .bra g off => packLB 0x60#8 g.enc off
  | .bral g off => packLB 0x61#8 g.enc off
  | .jmp g d a => packL3 0x62#8 g.enc d a 0#6
  | .ret g a => packL3 0x63#8 g.enc 0#6 a 0#6
  | .yield g => packL3 0x64#8 g.enc 0#6 0#6 0#6
  | .nop g => packL3 0x65#8 g.enc 0#6 0#6 0#6
  | .exit g => packL3 0x66#8 g.enc 0#6 0#6 0#6
  | .hadd g d a b => packL3 0x67#8 g.enc d a b
  | .hfma g d a b => packL3 0x68#8 g.enc d a b
  | .fadd g d a b => packL3 0x69#8 g.enc d a b
  | .fsub g d a b => packL3 0x6A#8 g.enc d a b
  | .fmul g d a b => packL3 0x6B#8 g.enc d a b
  | .ffma g d a b => packL3 0x6C#8 g.enc d a b
  | .fmin g d a b => packL3 0x6D#8 g.enc d a b
  | .fmax g d a b => packL3 0x6E#8 g.enc d a b
  | .dadd g d a b => packL3 0x6F#8 g.enc d a b
  | .shfl g d a b => packL3 0x70#8 g.enc d a b
  | .shflI g d a k => packL3 0x71#8 g.enc d a (pad 1 k)
  | .lsh g d a b => packL3 0x72#8 g.enc d a b
  | .lshI g d a k => packL3 0x73#8 g.enc d a (pad 1 k)
  | .lrot g d a b => packL3 0x74#8 g.enc d a b
  | .lrotI g d a k => packL3 0x75#8 g.enc d a (pad 1 k)
  | .bcast g d a b => packL3 0x76#8 g.enc d a b
  | .bcastI g d a k => packL3 0x77#8 g.enc d a (pad 1 k)
  | .scan g d a op => packL3 0x78#8 g.enc d a op.code
  | .sample g d a b => packL3 0x79#8 g.enc d a b
  | .cvtRne g d a dst src => packL3 0x7A#8 g.enc d a (CvtFmt.encPair dst src)
  | .cvtRneF32Q4 g d a => packL3 0x7A#8 g.enc d a 54#6
  | .cvtRneQ4F32 g d a => packL3 0x7A#8 g.enc d a 63#6
  | .cvtRz g d a dst src => packL3 0x7B#8 g.enc d a (CvtFmt.encPair dst src)
  | .cvtRu g d a dst src => packL3 0x7C#8 g.enc d a (CvtFmt.encPair dst src)
  | .cvtRd g d a dst src => packL3 0x7D#8 g.enc d a (CvtFmt.encPair dst src)
  | .dmul g d a b => packL3 0x7E#8 g.enc d a b
  | .dfma g d a b => packL3 0x7F#8 g.enc d a b
  | .sadd d a b => packL3 0x81#8 d a b 0#6
  | .ssub d a b => packL3 0x82#8 d a b 0#6
  | .smul d a b => packL3 0x83#8 d a b 0#6
  | .smulh d a b uns => packL3 0x84#8 d a b (encBool 6 uns)
  | .sand d a b => packL3 0x85#8 d a b 0#6
  | .sor d a b => packL3 0x86#8 d a b 0#6
  | .sxor d a b => packL3 0x87#8 d a b 0#6
  | .sshl d a b => packL3 0x88#8 d a b 0#6
  | .sshr d a b => packL3 0x89#8 d a b 0#6
  | .ssar d a b => packL3 0x8A#8 d a b 0#6
  | .smin d a b uns => packL3 0x8B#8 d a b (encBool 6 uns)
  | .smax d a b uns => packL3 0x8C#8 d a b (encBool 6 uns)
  | .scmp a b => packL3 0x8D#8 0#6 a b 0#6
  | .ssel d a b c => packL3 0x8E#8 d a b (pad 2 c.code)
  | .smovi d imm => packGI 0x90#8 d imm
  | .smovhi d imm => packGI 0x91#8 d imm
  | .saddi d imm => packGI 0x92#8 d imm
  | .lread d a lane => packL3 0x93#8 d a lane.encB lane.encF
  | .sbcast d a hi => packL3 0x94#8 d a 0#6 (encBool 6 hi)
  | .ballot d k c => packL3 0x95#8 d (pad 4 k) (pad 2 c.code) 0#6
  | .idxImm imm => packGS 0x96#8 0#6 (pad 4 imm) 0#6
  | .idxReg d => packGS 0x96#8 d 0#12 1#6
  | .prioImm imm => packGS 0x97#8 0#6 (pad 10 imm) 0#6
  | .prioReg d => packGS 0x97#8 d 0#12 1#6
  | .ubra c off => packGB 0xA0#8 c.code off
  | .bar n refresh => packGS 0xA1#8 0#6 (pad 9 n) (encBool 6 refresh)
  | .gbar n refresh => packGS 0xA2#8 0#6 (pad 9 n) (encBool 6 refresh)
  | .arrive n gang => packGS 0xA3#8 0#6 (pad 9 n) (encBools gang false)
  | .wait n gang refresh => packGS 0xA4#8 0#6 (pad 9 n) (encBools gang refresh)
  | .sleep d a b n64 c => packL3 0xA5#8 d a b (encSleep n64 c)
  | .refresh => packGS 0xA6#8 0#6 0#12 0#6
  | .rootsw d a b => packL3 0xA7#8 d a b 0#6
  | .tlbfFill a b => packL3 0xA8#8 0#6 a b 0#6
  | .tlbfReq a b => packL3 0xA8#8 0#6 a b 1#6
  | .tlbfBad a b => packL3 0xA8#8 0#6 a b 2#6
  | .trap imm => packGS 0xA9#8 0#6 imm 0#6
  | .tret => packGS 0xAA#8 0#6 0#12 0#6
  | .preq => packGS 0xAB#8 0#6 0#12 0#6
  | .brk imm => packGS 0xAC#8 0#6 imm 0#6
  | .gateArm d => packGS 0xAD#8 d 0#12 0#6
  | .gateCancel d => packGS 0xAD#8 d 0#12 1#6
  | .pmark imm => packGS 0xAE#8 0#6 imm 0#6
  | .pmarkV d imm => packGS 0xAE#8 d imm 1#6
  | .sld d a off la => packGM 0xB0#8 d a off la
  | .sst d a off => packGM 0xB1#8 d a off 0#4
  | .fence kind sc => packGS 0xB2#8 0#6 (FenceKind.encScope kind sc) 0#6
  | .copy tid ch s la var => packGE 0xC0#8 tid (pad 1 ch) s la var.code
  | .chain ch s la => packGE 0xC1#8 0#8 (pad 1 ch) s la 0#2
  | .chwp sc ch s la acq => packGE 0xC2#8 (pad 4 sc.code) (pad 1 ch) s la (encBool 2 acq)
  | .publ tid s la => packGE 0xC3#8 tid 0#4 s la 0#2
  | .rput ring s la => packGE 0xC4#8 (pad 4 ring) 0#4 s la 0#2
  | .rtake ring s la => packGE 0xC5#8 (pad 4 ring) 0#4 s la 0#2
  | .tld tid tile s la => packGE 0xC6#8 tid (pad 1 tile) s la 0#2
  | .wld tid s la x24 => packGE 0xC7#8 tid 0#4 s la (encBool 2 x24)
  | .mma fmt tile acc s la bs => packGE 0xC8#8 (MmaFmt.encTile fmt tile) (pad 1 acc) s la (encBool 2 bs)
  | .azero acc s la f64 => packGE 0xC9#8 0#8 (pad 1 acc) s la (encBool 2 f64)
  | .ast tid acc s la bs => packGE 0xCA#8 tid (pad 1 acc) s la (encBool 2 bs)
  | .blsub n slot s la => packGE 0xCB#8 n slot s la 0#2
  | .blcol slot s la => packGE 0xCC#8 0#8 slot s la 0#2
  | .qcast s la => packGE 0xCD#8 0#8 0#4 s la 0#2
  | .creduce s la => packGE 0xCE#8 0#8 0#4 s la 0#2
  | .tidset tid s la => packGE 0xCF#8 tid 0#4 s la 0#2
  | .tidget tid s la => packGE 0xD0#8 tid 0#4 s la 0#2
  | .stins tid s la => packGE 0xD1#8 tid 0#4 s la 0#2
  | .stlook tid s la => packGE 0xD2#8 tid 0#4 s la 0#2
  | .kvres tid s la => packGE 0xD3#8 tid 0#4 s la 0#2
  | .sread d reg vec => packGS 0xF0#8 d reg.code (encBool 6 vec)
  | .swrite d reg => packGS 0xF1#8 d reg.code 0#6
  | .stamp d ord => packGS 0xF2#8 d 0#12 (encBool 6 ord)
  | .reset => 0#32
  | .image _ _ => 0#32
  | .boot => 0#32
  | .config _ _ => 0#32
  | .attest _ => 0#32
  | .vlog => 0#32
  | .queueCreate _ _ _ _ _ _ _ _ => 0#32
  | .queueMap _ _ => 0#32
  | .queueDelete _ => 0#32
  | .regionSuspend _ => 0#32
  | .regionResume _ => 0#32
  | .regionKill _ => 0#32
  | .install _ _ _ => 0#32
  | .hold _ _ _ => 0#32
  | .unhold _ _ _ => 0#32
  | .release _ => 0#32
  | .passign _ _ => 0#32
  | .pfree _ => 0#32
  | .answer _ _ _ => 0#32
  | .importSet _ _ => 0#32
  | .exportSet _ _ => 0#32
  | .profile _ _ _ _ _ => 0#32
  | .debugAttach _ => 0#32
  | .debugComparatorWrite _ _ => 0#32
  | .debugResume _ _ => 0#32
  | .debugReadAccumulator _ _ _ => 0#32
  | .debugDetach => 0#32
  | .freeze => 0#32
  | .freezeDump _ => 0#32
  | .freezeThaw => 0#32
  | .replayRecord _ _ _ _ _ => 0#32
  | .replayArm _ _ _ _ _ => 0#32
  | .replayEnd _ => 0#32
  | .notifyWrite _ _ => 0#32
  | .eventWrite _ => 0#32
  | .ntailWrite _ => 0#32
  | .registerWrite _ _ => 0#32
  | .queueSlotMap _ _ => 0#32
  | .queueSlotUnmap _ => 0#32
  | .launchPacket _ => 0#32
  | .graphPacket _ => 0#32
  | .waitPacket _ => 0#32
  | .waitConditionMet _ => 0#32
  | .regionRegister _ => 0#32
  | .regionUpdate _ => 0#32
  | .regionUnregister _ => 0#32
  | .kvTableSet _ => 0#32
  | .launchStart _ => 0#32
  | .gangClaim _ _ => 0#32
  | .gangPlace _ _ => 0#32
  | .launchComplete _ => 0#32
  | .loopIteration _ => 0#32
  | .groupActivate _ => 0#32
  | .groupEvict _ => 0#32
  | .parkThreshold _ => 0#32
  | .parkComplete _ => 0#32
  | .fairnessLimit _ => 0#32
  | .progressWaitLimit _ => 0#32
  | .watchdog _ => 0#32
  | .preemptRequest _ => 0#32
  | .noticeDeadline _ => 0#32
  | .gangParkComplete _ => 0#32
  | .gangResume _ _ => 0#32
  | .trapEntry _ => 0#32
  | .valueLands _ _ => 0#32
  | .lineFill _ _ => 0#32
  | .storeQueueDepart _ => 0#32
  | .homeAccessPerform _ _ _ _ => 0#32
  | .walkStart _ => 0#32
  | .walkerInstructionLimit _ => 0#32
  | .logEntryReplay _ _ => 0#32
  | .slotReclaim _ _ => 0#32
  | .rootswStep _ => 0#32
  | .sleepWake _ _ _ => 0#32
  | .publInstant _ _ => 0#32
  | .engineCommandStart _ _ => 0#32
  | .engineCommandComplete _ _ _ => 0#32
  | .chainRecord _ _ _ => 0#32
  | .groupRetire _ => 0#32
  | .gateTimeout _ => 0#32
  | .pcComparatorMatch _ => 0#32
  | .profilingInterval => 0#32
  | .pcSample _ _ => 0#32
  | .ingressRequest _ => 0#32
  | .portBringUp _ _ _ => 0#32
  | .portLoss _ => 0#32
  | .linkKeyRenewal _ => 0#32
  | .ptpEvent _ => 0#32
  | .powerThrottle _ => 0#32
  | .thermalHalt _ => 0#32
  | .i3cResetRequest => 0#32
  | .uncorrectableError _ _ => 0#32
  | .shareWindowEnd => 0#32
  | .ptpReferenceLoss => 0#32

/-- The instruction the decoder reads from a table word, whose bits are numbered as spec/opcode_table.json numbers
them; every instruction is one 32-bit word (07: R136). -/
def decodeTableWord (_nbits w : Nat) : Option Instr :=
  match decode (BitVec.ofNat 32 w) with
  | .ok i => some i
  | .illop => none
  | .illfld => none

end Sys2Proof
end

