-- ==== Sys2Proof/Machine/Sched.lean ====
section
/-!
DEFINITION. Which set of which group issues next, and what an issue does around the word it runs (01: R11 to R13, R25 to
R28; 07: R146; 16: R301; 12: R239, R240; 24: R395, R396; 25: R404).
-/

namespace Sys2Proof

/-- The guard of a lane word; none where the format has none (07: R143, 24: R395). -/
def Instr.guardOf (i : Instr) : Option Guard :=
  match i with
  | .iadd g _ _ _ => some g
  | .iaddi g _ _ _ => some g
  | .isub g _ _ _ => some g
  | .iadc g _ _ _ => some g
  | .isbb g _ _ _ => some g
  | .imul g _ _ _ => some g
  | .imulh g _ _ _ => some g
  | .imulhu g _ _ _ => some g
  | .imad g _ _ _ => some g
  | .imin g _ _ _ => some g
  | .imax g _ _ _ => some g
  | .iminu g _ _ _ => some g
  | .imaxu g _ _ _ => some g
  | .iabs g _ _ => some g
  | .ineg g _ _ => some g
  | .rng g _ _ => some g
  | .movi g _ _ => some g
  | .movhi g _ _ => some g
  | .andL g _ _ _ => some g
  | .orL g _ _ _ => some g
  | .xorL g _ _ _ => some g
  | .andn g _ _ _ => some g
  | .shl g _ _ _ => some g
  | .shr g _ _ _ => some g
  | .sar g _ _ _ => some g
  | .rol g _ _ _ => some g
  | .bfx g _ _ _ => some g
  | .bfxu g _ _ _ => some g
  | .bfi g _ _ _ => some g
  | .popc g _ _ => some g
  | .clz g _ _ => some g
  | .ctz g _ _ => some g
  | .brev g _ _ => some g
  | .icmp g _ _ _ _ => some g
  | .itst g _ _ _ _ => some g
  | .fcmp g _ _ _ => some g
  | .dcmp g _ _ _ => some g
  | .cmov g _ _ => some g
  | .cmovV g _ _ => some g
  | .cmovI g _ _ => some g
  | .cmovR g _ => some g
  | .iaddmin g _ _ _ => some g
  | .iaddmax g _ _ _ => some g
  | .faddmin g _ _ _ => some g
  | .addw g _ _ _ => some g
  | .subw g _ _ _ => some g
  | .shlw g _ _ _ => some g
  | .shrw g _ _ _ => some g
  | .sarw g _ _ _ => some g
  | .mulw g _ _ _ => some g
  | .badd g _ _ _ => some g
  | .bfma g _ _ _ => some g
  | .ldI8 g _ _ _ _ => some g
  | .ldN8 g _ _ _ _ => some g
  | .ldI16 g _ _ _ _ => some g
  | .ldN16 g _ _ _ _ => some g
  | .ldN32 g _ _ _ _ => some g
  | .ldN64 g _ _ _ _ => some g
  | .ldN128 g _ _ _ _ => some g
  | .stN8 g _ _ _ => some g
  | .stN16 g _ _ _ => some g
  | .stN32 g _ _ _ => some g
  | .stN64 g _ _ _ => some g
  | .stN128 g _ _ _ => some g
  | .ldk g _ _ _ _ => some g
  | .ldProbe g _ _ _ _ => some g
  | .bra g _ => some g
  | .bral g _ => some g
  | .jmp g _ _ => some g
  | .ret g _ => some g
  | .yield g => some g
  | .nop g => some g
  | .exit g => some g
  | .hadd g _ _ _ => some g
  | .hfma g _ _ _ => some g
  | .fadd g _ _ _ => some g
  | .fsub g _ _ _ => some g
  | .fmul g _ _ _ => some g
  | .ffma g _ _ _ => some g
  | .fmin g _ _ _ => some g
  | .fmax g _ _ _ => some g
  | .dadd g _ _ _ => some g
  | .shfl g _ _ _ => some g
  | .shflI g _ _ _ => some g
  | .lsh g _ _ _ => some g
  | .lshI g _ _ _ => some g
  | .lrot g _ _ _ => some g
  | .lrotI g _ _ _ => some g
  | .bcast g _ _ _ => some g
  | .bcastI g _ _ _ => some g
  | .scan g _ _ _ => some g
  | .sample g _ _ _ => some g
  | .cvtRne g _ _ _ _ => some g
  | .cvtRneF32Q4 g _ _ => some g
  | .cvtRneQ4F32 g _ _ => some g
  | .cvtRz g _ _ _ _ => some g
  | .cvtRu g _ _ _ _ => some g
  | .cvtRd g _ _ _ _ => some g
  | .dmul g _ _ _ => some g
  | .dfma g _ _ _ => some g
  | _ => none

end Sys2Proof

namespace Sys2Proof.Machine

/-! ## Fetch (08: R164, 03: R61, R74, R75) -/

/-- What a fetch gives. -/
inductive Fetched where
  | word (w : Word)
  /-- its translation waits for a walk -/
  | miss
  /-- an atomic of the group on its bytes is outstanding, whose value is not known yet -/
  | held
  /-- ACCESS -/
  | denied
  /-- an error response to the read of the word at an address -/
  | spoilt (pa : Nat) (e : ErrorKind)
  deriving DecidableEq, Repr

/-- The operations of a group that write bytes of a word and are not performed (08: R164). -/
def State.writesOn (s : State) (g : Group) (pa : Nat) : List MemOp :=
  g.fl.ops.filter fun o => o.kind.writes && o.accs.any fun a => !a.over &&
    match s.accPa a with
    | none => false
    | some x => rangesMeet x a.size pa 4

/-- The word that a fetch reads: the newest bytes of the visible frame, those of the group's own stores before all, so that a fence
and a closer need add nothing (08: R164; log 15). The read may end in an error response (23: R384). -/
def State.fetchWord (s : State) (g : Group) (pa : Nat) : Fetched :=
  let ws := s.writesOn g pa
  match s.spoilt pa 4 false with
  | some e => .spoilt pa e
  | none =>
  if ws.isEmpty then .word (s.mem.w32 pa)
  else if ws.any fun o => o.kind.reads then .held
  else
    .word (BitVec.ofNat 32 (leNat ((List.range 4).map fun i =>
      ((ws.filterMap fun o => match o.kind with
        | .store _ => (s.queuedByte o (pa + i)).map Prod.snd
        | .load _ _ => none
        | .atom _ _ => none
        | .cas _ => none
        | .fadd _ => none
        | .ldk => none
        | .fence _ => none).getLast?).getD (s.mem.byte (pa + i)))))

/-- The fetch of a set's word, by the TLBs of the core. -/
def State.fetch (s : State) (g : Group) (m : BitVec 32) : Fetched :=
  match s.fetchAt g (g.fetchLane m) with
  | .leaf e => s.fetchWord g (s.leafPa e (g.pc (g.fetchLane m)) false)
  | .physical pa => s.fetchWord g pa
  | .miss => .miss
  | .denied => .denied

/-! ## Readiness (16: R301) -/

/-- Operand-log entries in use. -/
def Group.logged (g : Group) : Nat := (g.fl.ops.filter fun o => o.log.isSome).length

/-- Whether the windows let a word issue: the one after a window and a closer wait for the value, and so does a word of
another set that reads or writes the destination (07: R146, R147). -/
def Group.pendsReady (g : Group) (closer : Bool) (us : List RegUse) (set : BitVec 32) : Bool :=
  g.fl.pend.all fun e =>
    e.2.landed ||
      (if e.2.set &&& set != 0#32 then !(closer || e.2.remaining == 0)
      else !us.any fun u => u.touches g.regs.xi e.2)

/-- Whether a word is an acquire, a release or a fence, or arrives at a barrier: it waits for the operand log to empty
(02: R58, 12: R231, R233). -/
def Instr.ordered (i : Instr) : Bool :=
  match i with
  | .fence _ _ => true
  | .ldaN32 _ _ _ _ _ acq => acq
  | .ldaN64 _ _ _ _ _ acq => acq
  | .staN32 _ _ _ _ rel => rel
  | .staN64 _ _ _ _ rel => rel
  | .aaddN64 _ _ _ _ _ o => o != .rlx
  | .aminI64 _ _ _ _ _ o => o != .rlx
  | .amaxI64 _ _ _ _ _ o => o != .rlx
  | .aminN64 _ _ _ _ _ o => o != .rlx
  | .amaxN64 _ _ _ _ _ o => o != .rlx
  | .aandN64 _ _ _ _ _ o => o != .rlx
  | .aorN64 _ _ _ _ _ o => o != .rlx
  | .axorN64 _ _ _ _ _ o => o != .rlx
  | .axchgN64 _ _ _ _ _ o => o != .rlx
  | .acasN64 _ _ _ _ _ o => o != .rlx
  | .aaddN32 _ _ _ _ _ o => o != .rlx
  | .aminI32 _ _ _ _ _ o => o != .rlx
  | .amaxI32 _ _ _ _ _ o => o != .rlx
  | .aminN32 _ _ _ _ _ o => o != .rlx
  | .amaxN32 _ _ _ _ _ o => o != .rlx
  | .aandN32 _ _ _ _ _ o => o != .rlx
  | .aorN32 _ _ _ _ _ o => o != .rlx
  | .axorN32 _ _ _ _ _ o => o != .rlx
  | .axchgN32 _ _ _ _ _ o => o != .rlx
  | .acasN32 _ _ _ _ _ o => o != .rlx
  | .bar _ _ => true
  | .gbar _ _ => true
  | .arrive _ _ => true
  | .sleep _ _ _ _ _ => true
  | .chwp _ _ _ _ acq => acq
  | _ => false

/-- Whether a word waits for the group's earlier accesses to be done, an install and the instant of a PUBL among them: an arrival, which
is a release (12: R231; 22: R375; 05: R106), and stamp.ord (12: R243). -/
def Instr.afterAll (i : Instr) : Bool :=
  match i with
  | .bar _ _ => true
  | .gbar _ _ => true
  | .arrive _ _ => true
  | .stamp _ ord => ord
  | _ => false

/-- Whether a word is a refresh point, which reads the region's current slot (03: R69): it follows the earlier acquires of the group (22:
R375). -/
def Instr.refreshes (i : Instr) : Bool :=
  match i with
  | .refresh => true
  | .bar _ r => r
  | .gbar _ r => r
  | .wait _ _ r => r
  | _ => false

/-- Whether a uniform operand covers the destination of an outstanding rootsw. -/
def RegUse.meetsRoot (u : RegUse) (r : RootSw) : Bool :=
  u.cls == .uniform && r.d != 63#6 && decide (u.n ≤ r.d.toNat) && decide (r.d.toNat < u.n + max 1 u.width)

/-- Whether a word reads the result of an outstanding rootsw: such words alone wait for its step (08: R161, 22: R375). -/
def Group.awaitsRoot (g : Group) (us : List RegUse) : Bool := g.fl.roots.any fun r => us.any fun u => u.rd && u.meetsRoot r

/-- A word that has run wrote the destination of earlier rootsws, whose results are then older than what the register holds (22: R375). -/
def Group.passRoots (us : List RegUse) (before : Nat) (g : Group) : Group :=
  { g with fl := { g.fl with roots := g.fl.roots.map fun r =>
      if (decide (r.seq < before) && us.any fun u => u.wr != 0 && u.meetsRoot r) then { r with d := 63#6 } else r } }

/-- Whether an acquire, an acquiring fence or chwp, or a PUBL of the group is outstanding, which keeps a read of the current slot later (22:
R375; 05: R106). -/
def Group.acquiring (g : Group) : Bool :=
  (g.fl.ops.any fun o => o.isAcquire && !(o.isFence && g.fenceMet o)) || g.heldByCommand g.fl.nextSeq

/-- Whether the move of a pending destination needs a line that is elsewhere: a value for all 32 lanes needs none (02: R50, R52). -/
def Group.pendMissing (g : Group) (p : Pend) : Bool :=
  !p.uniform && p.lanes != BitVec.allOnes 32 && (List.range p.width).any fun j => g.ctl.missing.contains (p.reg + j)

/-- The pending destinations whose values move at an issue of a set (07: R146, R147). -/
def Group.movesAt (g : Group) (closer : Bool) (set : BitVec 32) : List Pend :=
  (g.fl.pend.filter fun e => e.2.set &&& set != 0#32 && (closer || e.2.remaining == 0)).map Prod.snd

/-- Whether an issue of a set moves a value into a line that is elsewhere. -/
def Group.moveMissing (g : Group) (closer : Bool) (set : BitVec 32) : Bool := (g.movesAt closer set).any g.pendMissing

/-- Whether a word writes an operand in all 32 lanes and does not read it: its line is allocated without a fill, at the issue, or, where the
destination stays pending, at the move (02: R50, R56). -/
def Group.writesWhole (g : Group) (i : Instr) (set : BitVec 32) (u : RegUse) : Bool :=
  set == BitVec.allOnes 32 && !u.rd && decide (u.width ≤ u.wr) &&
    (match Instr.guardOf i with
      | none => true
      | some gd => g.passing gd set == set)

/-- Whether a register that a word names has its line elsewhere (02: R50, R52). -/
def Group.lineMissing (g : Group) (i : Instr) (set : BitVec 32) : Bool :=
  !g.ctl.missing.isEmpty && (Instr.uses i).any fun u => u.cls == .vector && !g.writesWhole i set u &&
    match u.first g.regs.xi with
    | none => false
    | some n => (List.range u.width).any fun j => g.ctl.missing.contains (n + j)

/-- The lines that pending destinations cover. -/
def pendLines (ps : List Pend) : List Nat := ps.flatMap fun p => if p.uniform then [] else (List.range p.width).map (p.reg + ·)

/-- The lines of pending destinations that are written in all 32 lanes. -/
def Group.wholeMoves (g : Group) (ps : List Pend) : List Nat :=
  (pendLines (ps.filter fun p => p.lanes == BitVec.allOnes 32)).filter g.ctl.missing.contains

/-- The lines that a word writes at its issue in all 32 lanes, and does not read. -/
def Group.wholeWrites (g : Group) (set : BitVec 32) (i : Instr) : List Nat :=
  (Instr.uses i).flatMap fun u =>
    if u.cls == .vector && (Instr.lookahead i).isNone && g.writesWhole i set u then ((u.first g.regs.xi).map fun n => (List.range u.width).map (n + ·)).getD [] else []

/-- The lines elsewhere that an issue of a set allocates without reading them: those that its word writes whole, and those that values for
all lanes move into (02: R50). -/
def Group.wholeLines (g : Group) (i : Option Instr) (set : BitVec 32) : List Nat :=
  if g.ctl.missing.isEmpty then []
  else ((i.map (g.wholeWrites set)).getD []).filter g.ctl.missing.contains ++ g.wholeMoves (g.movesAt ((i.map Instr.closes).getD false) set)

/-- Whether a decoded word of a set is ready to issue (16: R301; 02: R55, R56, R58; 13: R247). -/
def Group.wordReady (g : Group) (i : Instr) (set : BitVec 32) : Bool :=
  let us := Instr.uses i
  g.pendsReady (Instr.closes i) us set && !g.lineMissing i set
    && !g.moveMissing (Instr.closes i) set
    && !(g.fl.probes.any fun p => p.set &&& set != 0#32)
    && (g.moves (Instr.closes i) set).room i
    && (!Instr.isMemory i || g.logged < 4)
    && (!Instr.ordered i || g.logged == 0)
    && (!Instr.afterAll i || (!(g.fl.ops.any fun o => o.kind.reads || o.kind.writes) && g.fl.roots.isEmpty && g.fl.publ.isNone))
    && (!Instr.refreshes i || (g.fl.roots.isEmpty && !g.acquiring))
    && !g.awaitsRoot us
    && (!Instr.isEngine i || g.issued.length < 16)

/-- One issue set of a group as the scheduler sees it. -/
structure SetView where
  mask : BitVec 32
  pc : BitVec 64
  /-- Wait count: the largest of its lanes' (01: R13). -/
  count : Nat
  /-- Its next word is ready, and in which pipe: uniform or lane. -/
  ready : Bool
  uniform : Bool
  deriving DecidableEq, Repr

/-- The wait count of a set. -/
def Group.countOf (g : Group) (m : BitVec 32) : Nat :=
  (lanesOf m).foldl (fun c l => max c (Table.getD g.ctl.counts l 0#24).toNat) 0

/-- A boundary trap that a set takes in place of its issue (12: R239, R240): the first in order that it holds a lane of;
a notice is taken by any set. -/
def Group.boundaryFor (g : Group) (m : BitVec 32) : Option TrapReq :=
  if g.tr.st.active then none
  else g.tr.boundary.find? fun t => t.code == codePnotice || t.mask &&& m != 0#32

/-- Whether the moves of a set's issue can be made, of a word that has no meaning (07: R146). -/
def State.movesReady (s : State) (g : Group) (m : BitVec 32) : Bool :=
  g.pendsReady false [] m && !g.moveMissing false m && (g.wholeLines none m).all (s.lineThere g)

/-- One set of a group: its word, fetched and decoded, says whether it is ready and in which pipe, whatever trap waits to be taken in its
place (16: R301; 12: R240). -/
def State.viewSet (s : State) (g : Group) (pc : BitVec 64) (m : BitVec 32) : SetView :=
  let c := g.countOf m
  match s.fetch g m with
  | .miss => ⟨m, pc, c, false, false⟩
  | .held => ⟨m, pc, c, false, false⟩
  | .denied => ⟨m, pc, c, true, false⟩
  | .spoilt _ _ => ⟨m, pc, c, true, false⟩
  | .word w =>
    match decode w with
    | .ok i => ⟨m, pc, c, g.wordReady i m && (g.wholeLines (some i) m).all (s.lineThere g), w.getLsbD 31⟩
    | .illop => ⟨m, pc, c, s.movesReady g m, w.getLsbD 31⟩
    | .illfld => ⟨m, pc, c, s.movesReady g m, w.getLsbD 31⟩

/-- The issue sets of a group. -/
def State.views (s : State) (g : Group) : List SetView :=
  g.sets.map fun e => s.viewSet g e.1 e.2

/-! ## The current set (01: R12, R13) -/

/-- How many lanes a mask has. -/
def lanesIn (m : BitVec 32) : Nat := (lanesOf m).length

/-- The set that is better under f, larger first; the lowest PC on ties. -/
def bestSet (f : SetView → Nat) (vs : List SetView) : Option SetView :=
  vs.foldl (fun b v =>
    match b with
    | none => some v
    | some x => if f x < f v || (f x = f v && v.pc.toNat < x.pc.toNat) then some v else b) none

/-- The choice at the end of a turn among ready sets (01: R12). -/
def chooseSet (promise : Bool) (yielded : BitVec 32) (rs : List SetView) : Option SetView :=
  let due := rs.filter fun v => 256 ≤ v.count
  if promise && !due.isEmpty then bestSet SetView.count due
  else
    let fresh := rs.filter fun v => v.mask != yielded
    bestSet (fun v => lanesIn v.mask) (if fresh.isEmpty then rs else fresh)

/-- The current set while its turn lasts, among ready sets: it ends when the set is not ready, is no longer the same set or has
yielded, and, under the promise, after each issue (its count is then zero) while another set has reached the limit (01: R12, R13). -/
def Group.turnLasts (g : Group) (promise : Bool) (rs : List SetView) : Option SetView :=
  match rs.find? fun v => v.mask == g.ctl.cur && g.ctl.yielded == 0#32 with
  | none => none
  | some v => if promise && v.count == 0 && rs.any fun x => x.mask != v.mask && 256 ≤ x.count then none else some v

/-- The set that a group issues from next: the current set while its turn lasts, else the choice (01: R12, R13). -/
def Group.turnSet (g : Group) (promise : Bool) (vs : List SetView) : Option SetView :=
  let rs := vs.filter SetView.ready
  (g.turnLasts promise rs).orElse fun _ => chooseSet promise g.ctl.yielded rs

/-! ## The group (01: R25, R26) -/

/-- Whether a group may issue at all: active, on a running device, not stopped, and with no trap that waits to be entered; the walker
only while it serves a walk, and no longer than its limit (21: R365). -/
def State.mayStand (s : State) (g : Group) : Bool :=
  s.host.dev == .running && !s.dbg.frozen && g.ctl.act == .active && !g.ctl.dead && !g.ctl.stopped
    && g.ctl.notice != .done && g.tr.entering.isNone
    && (!g.id.walker || ((s.core g.ctl.core).walking && decide ((s.core g.ctl.core).walkIssued < 4096)))
    && (match Table.get? s.gangs g.id.gang with
        | none => true
        | some a => match a.preempt with
          | .none => true
          | .notice _ => true
          | .forced => false
          | .parked => false)

/-- The waiting set whose count has reached the watchdog limit while the promise is off (01: R28). DESIGN CHOICE (log 72): of several,
the one of the lowest lane; and the counts are the wait counts of R13, so waits from before the promise was turned off are counted. -/
def State.watchdogSet (s : State) (g : Group) : Option SetView :=
  let lim := s.watchdog (s.regionOf g)
  if lim = 0 || s.promise (s.regionOf g) || g.id.walker || !s.mayStand g then none
  else (s.views g).find? fun v => v.ready && lim ≤ v.count

/-- Whether a group may issue: it may stand, and WATCHDOG does not end its issue (01: R28). -/
def State.mayIssue (s : State) (g : Group) : Bool := s.mayStand g && (s.watchdogSet g).isNone

/-- The sets that a group may issue from: while it steps, the one that the trap state names (25: R405). -/
def State.openViews (s : State) (g : Group) : List SetView :=
  if g.ctl.stepping then (s.views g).filter fun v => v.mask &&& g.tr.st.mask != 0#32 else s.views g

/-- The set that a group would issue from, when it may issue. -/
def State.candidate (s : State) (g : Group) : Option SetView :=
  if s.mayIssue g then g.turnSet (s.promise (s.regionOf g)) (s.openViews g) else none

/-- Lexicographic order of lists of numbers. -/
def lexLt (a b : List Nat) : Bool :=
  match a, b with
  | [], [] => false
  | [], _ :: _ => true
  | _ :: _, [] => false
  | x :: r, y :: t => decide (x < y) || (x == y && lexLt r t)

/-- Whether a group goes ahead of class order: it has waited 4,096 aclk with a ready instruction, and the promise is on (01: R26,
R27). -/
def State.urgent (s : State) (g : Group) : Bool :=
  (g.ctl.urgent || decide (g.ctl.readySince + 4096 ≤ s.clk.cycle)) && s.promise (s.regionOf g)

/-- The order in which groups take a pipe: the walker, then urgent groups by waiting time, then class, longest wait since
the last issue in the pipe, creation, slot (01: R25, R26; 21: R363). -/
def State.issueKey (s : State) (k : Nat) (g : Group) (uniform : Bool) : List Nat :=
  [if g.id.walker then 0 else 1,
   if s.urgent g then g.ctl.readySince else 2 ^ 64,
   s.effClass k,
   if uniform then g.ctl.lastUni else g.ctl.lastLane,
   g.id.created, g.ctl.slot]

/-- The group that a core issues from in a pipe, and the set (01: R25). -/
def State.pickOn (s : State) (core : Nat) (uniform : Bool) : Option (Nat × SetView) :=
  let cs := s.groups.filterMap fun p =>
    if p.2.ctl.core != core then none
    else
      match s.candidate p.2 with
      | none => none
      | some v => if v.uniform == uniform then some (s.issueKey p.1 p.2 uniform, p.1, v) else none
  (cs.foldl (fun b c =>
    match b with
    | none => some c
    | some x => if lexLt c.1 x.1 then some c else b) none).map Prod.snd

/-! ## Counts (01: R13, 24: R395, R398) -/

/-- The counts after an issue of one set: it goes to zero, every other ready set adds one (01: R13). -/
def issueCounts (cs : Table (BitVec 24)) (m : BitVec 32) (vs : List SetView) : Table (BitVec 24) :=
  vs.foldl (fun t v =>
    let n : BitVec 24 :=
      if v.mask = m then 0#24
      else if v.ready then BitVec.ofNat 24 (min (v.count + 1) (2 ^ 24 - 1))
      else BitVec.ofNat 24 v.count
    (lanesOf v.mask).foldl (fun t l => Table.put 0#24 t l n) t) cs

/-- What an issue changes in the group's scheduling state. -/
def Group.noteIssue (g : Group) (v : SetView) (vs : List SetView) (stamp now : Nat) : Group :=
  { g with ctl := { g.ctl with
    counts := issueCounts g.ctl.counts v.mask vs
    cur := v.mask
    yielded := 0#32
    fetched := (lanesOf v.mask).foldl Table.erase g.ctl.fetched
    lastLane := if v.uniform then g.ctl.lastLane else stamp
    lastUni := if v.uniform then stamp else g.ctl.lastUni
    readySince := now
    issuedAt := some now
    urgent := false
    uncompared := g.ctl.uncompared &&& ~~~ v.mask } }

/-! ## Register lines (02: R50, R51) -/

/-- The vector registers of a group whose lines are written: they are in the core, and dirty (02: R50). A word dirties the lines that
it writes whatever its guards pass (log 18). -/
def Group.dirtyLines (ns : List Nat) (g : Group) : Group :=
  if ns.isEmpty then g
  else { g with ctl := { g.ctl with
    missing := g.ctl.missing.filter fun n => !ns.contains n
    dirty := g.ctl.dirty ++ (ns.filter fun n => !g.ctl.dirty.contains n).eraseDups } }

/-- The lines that a word names, and those that it writes at its issue: a destination that stays pending is written at its move. -/
def Group.namedLines (g : Group) (i : Instr) (written : Bool) : List Nat :=
  ((Instr.uses i).filter fun u => u.cls == .vector && (!written || (u.wr != 0 && (pendDest i g.regs.xi).isNone))).flatMap fun u =>
    match u.first g.regs.xi with
    | none => []
    | some n => (List.range (if written then u.wr else u.width)).map (n + ·)

/-- The lines that the operand cache holds after a use of one, least recently used first (02: R51). -/
def operandUse (ls : List Nat) (n : Nat) : List Nat :=
  let ls := ls.filter (· != n) ++ [n]
  ls.drop (ls.length - 6)

/-- Lines of a group were used last, some of them written. -/
def Group.useLines (written used : List Nat) (stamp : Nat) (g : Group) : Group :=
  let g := g.dirtyLines written
  if used.isEmpty then g
  else { g with ctl := { g.ctl with
    used := used.foldl (fun t n => Table.set t n stamp) g.ctl.used
    operands := used.foldl operandUse g.ctl.operands } }

/-- What the moves of an issue do to the lines of a group (02: R50). -/
def Group.noteMoves (i : Instr) (set : BitVec 32) (stamp : Nat) (g : Group) : Group :=
  let moved := pendLines (g.movesAt (Instr.closes i) set)
  g.useLines moved moved stamp

/-- What a word that has run did to the lines of its group: it used those that it names, and wrote some. One that trapped at its issue has no
effect on any register, and its lines stay as they are (02: R43, R50). -/
def Group.noteLines (i : Instr) (stamp : Nat) (g : Group) : Group :=
  if g.tr.entering.isSome then g else g.useLines (g.namedLines i true) (g.namedLines i false) stamp

/-- What a word that has run did to its group beside its own meaning: to register lines, and to the rootsws issued before it. -/
def Group.noteWord (i : Instr) (stamp before : Nat) (g : Group) : Group :=
  let g := g.noteLines i stamp
  if g.tr.entering.isSome then g else g.passRoots (Instr.uses i) before

/-- The misses of the operand cache at an issue (24: R398). -/
def Group.operandMisses (g : Group) (i : Option Instr) : Nat :=
  ((((i.map fun i => g.namedLines i false).getD []).eraseDups).filter fun n => !g.ctl.operands.contains n).length

/-- The bin of a PC (24: R394, R395). -/
def Partition.binOf (p : Partition) (pc : Nat) : Nat :=
  ((List.range 7).find? fun n =>
    match p.bins[n]? with
    | none => false
    | some (base, limit) => decide (base ≤ pc) && decide (pc < limit)).getD 7

/-- Adds to a stroke sum of the device and of a die (24: R400). -/
def Partition.stroke (p : Partition) (die bin cat n : Nat) : Partition :=
  let add := fun (t : Table Nat) (r : Nat) =>
    Table.put 0 t (40 * r + 5 * bin + cat) ((Table.getD t (40 * r + 5 * bin + cat) 0 + n) % 2 ^ 64)
  { p with strokes := add (add p.strokes 0) (1 + die) }

/-- The lane counts of an issued lane word (24: R395): absent, divergence, guarded, active go to the bin of its PC, on a
core that holds a bin set of the group's partition; its slot leaves the idle ones of the aclk that have passed (log 41). -/
def State.strokeWord (s : State) (g : Group) (set : BitVec 32) (pc : Nat) (i : Option Instr) : State :=
  match Table.get? s.prof.parts g.view.partition, (s.core g.ctl.core).binSet g.view.partition with
  | some p, some _ =>
    if !p.on 1 then s else
    let pass := match i.bind Instr.guardOf with
      | none => set
      | some gd => g.passing gd set
    let active := lanesIn pass
    let guarded := lanesIn (set &&& ~~~ pass)
    let live := lanesIn g.live
    let bin := p.binOf pc
    let die := g.ctl.core / 4 / Config.clustersPerDie
    let s := s.modPart g.view.partition fun p =>
      ((((p.stroke die bin 0 active).stroke die bin 1 (live - active - guarded)).stroke die bin 2 guarded).stroke die bin 3
        (32 - live)).stroke die 7 4 (2 ^ 64 - 32)
    s.setLcr g bin (s.lcr g bin + BitVec.ofNat 64 active)
  | _, _ => s

/-- What an issued word counts for its partition (24: R395, R398). -/
def State.countWord (s : State) (g : Group) (v : SetView) (i : Option Instr) : State :=
  let s := s.tally g.view.partition (if v.uniform then 0x02 else 0x01) 1
  let s := if (i.map Instr.isEngine).getD false then s.tally g.view.partition 0x0B 1 else s
  let s := if g.operandMisses i = 0 then s else s.tally g.view.partition 0x04 (g.operandMisses i)
  if v.uniform then s else s.strokeWord g v.mask v.pc.toNat i

/-! ## PC comparators (25: R404) -/

/-- Whether comparator word w matches the PC, queue and GRPID of a group. -/
def comparatorMatches (w : BitVec 128) (pc : BitVec 64) (queue grpid : Nat) : Bool :=
  w.getLsbD 63 && (w.setWidth 56).setWidth 64 == pc && (w.getLsbD 64 || (w.extractLsb' 96 16).toNat == queue)
    && w.getLsbD (112 + grpid % 16)

/-- The comparator that stops a set of a held group before it issues. -/
def State.comparatorHit (s : State) (g : Group) (v : SetView) : Option Nat :=
  let pc := v.pc
  if g.ctl.uncompared &&& v.mask ≠ 0#32 || g.id.walker || !s.debugHeld (s.regionOf g) then none
  else (List.range 8).find? fun k =>
    comparatorMatches (Table.getD s.dbg.comparators k 0#128) pc (s.launchOf g).1 g.id.grpid

/-! ## Issue -/

/-- A trap of a set at the issue of a word that is not run: the moves of the issue happen first (07: R146). -/
def State.trapWord (s : State) (k : Nat) (set : BitVec 32) (t : TrapReq) : State :=
  (s.modGroup k fun g => (g.dirtyLines (pendLines (g.movesAt false set))).moves false set).raiseAtIssue k t

/-- A group with one boundary trap taken off. -/
def Group.dropBoundary (t : TrapReq) (g : Group) : Group :=
  { g with tr := { g.tr with boundary := dropFirst (· == t) g.tr.boundary } }

/-- A set takes a boundary trap in place of its issue (12: R240): its PC becomes the return PC. Of a set that takes DIVERGE, the lanes enter that
were in the set which issued the access (26: R417). DEDUCED (log 80). -/
def State.takeBoundary (s : State) (k : Nat) (m : BitVec 32) (pc : BitVec 64) (t : TrapReq) : State :=
  (s.modGroup k (Group.dropBoundary t)).raiseAtIssue k
    { t with mask := if t.code == codeDiverge then t.mask &&& m else m, ret := pc.setWidth 56 }

/-- BREAK raised by a comparator before the word issues (25: R404). -/
def breakBefore (m : BitVec 32) (pc : BitVec 64) (w : Word) (k : Nat) : TrapReq where
  code := codeBreak
  pc := pc.setWidth 56
  ret := pc.setWidth 56
  word := w
  mask := m
  failed := 0
  info := 0
  addr := 0
  imm := BitVec.ofNat 12 k
  cur := 0
  rank := 0

/-- STEP after the one word that a stepping group issues (25: R405). -/
def stepTrap (is : Issue) : TrapReq :=
  { is.trap codeStep with ret := 0, rank := 200 }

/-- The lanes of a mask that stand with its lowest live lane. -/
def Group.setOf (g : Group) (m : BitVec 32) : BitVec 32 :=
  match lanesOf (m &&& g.live) with
  | [] => 0#32
  | l :: _ => maskOf fun j => has (m &&& g.live) j && g.pc j == g.pc l && (g.waitOf j).isSome == (g.waitOf l).isSome

/-- STEP is taken at once after its word, also by a set that waits, unless an earlier boundary trap of the set comes first (25: R405; 12: R240).
DESIGN CHOICE (log 38): of several sets that the word has left, the one of the lowest lane takes it. -/
def State.takeStep (s : State) (k : Nat) : State :=
  match Table.get? s.groups k with
  | none => s
  | some g =>
    if g.tr.st.active || g.tr.entering.isSome then s
    else
      match g.tr.boundary.find? fun t => t.code == codeStep with
      | none => s
      | some t =>
        let m := g.setOf t.mask
        if m = 0#32 || (g.boundaryFor m) != some t then s else s.takeBoundary k m (g.pc ((lanesOf m).headD 0)) t

/-- State with the issue slot filled or empty. -/
def State.setIssue (s : State) (is : Option Issue) : State := { s with issue := is }

/-- After a word ran: the slot is empty; a stepping group takes STEP at its next boundary. -/
def State.afterWord (s : State) (is : Issue) (stepping : Bool) : State :=
  let s := s.setIssue none
  if stepping then
    ((s.modGroup is.grp fun g => { g with ctl := { g.ctl with stepping := false } }).raiseBoundary is.grp (stepTrap is)).takeStep is.grp
  else s

/-- Runs a decoded word in the issue slot, notes what it did beside its meaning, and empties the slot (log 4). -/
def State.runIssued (run : Instr → State → Out) (s : State) (is : Issue) (i : Instr) (stamp before : Nat) (stepping : Bool) : Out :=
  match run i (s.setIssue (some is)) with
  | .next t => .next ((t.modGroup is.grp (Group.noteWord i stamp before)).afterWord is stepping)
  | .fault f => .fault f
  | .refused r => .refused r

/-- The issue of one set of a group: fetch, decode, and the word's meaning; or the trap at the fetch or the boundary trap that takes its
place. A word that was not fetched moves no value, and its trap is entered when the pending values have landed (07: R149). -/
def State.issueSet (run : Instr → State → Out) (s : State) (k : Nat) (g : Group) (v : SetView) : Out :=
  match g.boundaryFor v.mask with
  | some t => .next (s.takeBoundary k v.mask v.pc t)
  | none =>
    match s.fetch g v.mask with
    | .miss => .next s
    | .held => .next s
    | .denied => .next (s.raiseAtIssue k (fetchTrap v.pc v.mask))
    | .spoilt pa e => .next ((s.homeViolation pa e fun s => s.laneViolation g.ctl.core v.pc).raiseAtIssue k (fetchTrap v.pc v.mask))
    | .word w =>
      match s.comparatorHit g v with
      | some c => .next (s.trapWord k v.mask (breakBefore v.mask v.pc w c))
      | none =>
        let is : Issue := ⟨k, v.mask, v.pc.setWidth 56, w⟩
        let s := (s.setGroup k (g.noteIssue v (s.views g) (s.fresh + 1) s.clk.cycle))
        let s := { s with fresh := s.fresh + 1 }
        let s := if g.id.walker then s.modCore g.ctl.core fun c => { c with walkIssued := c.walkIssued + 1 } else s
        match decode w with
        | .ok i => ((s.countWord g v (some i)).modGroup k (Group.noteMoves i v.mask s.fresh)).runIssued run is i s.fresh g.fl.nextSeq g.ctl.stepping
        | .illop => .next (((s.countWord g v none).trapWord k v.mask (is.trap codeIllop)).afterWord is g.ctl.stepping)
        | .illfld =>
          let code := if (Word.duty w).any fun d => d != g.id.duty then codeIllop else codeIllfld
          .next (((s.countWord g v none).trapWord k v.mask (is.trap code)).afterWord is g.ctl.stepping)

/-- A core issues from one pipe. -/
def State.issueOn (run : Instr → State → Out) (s : State) (core : Nat) (uniform : Bool) : Out :=
  match s.pickOn core uniform with
  | none => .next s
  | some (k, v) =>
    match Table.get? s.groups k with
    | none => .next s
    | some g => s.issueSet run k g v

/-- The cores that hold groups. -/
def State.busyCores (s : State) : List Nat := (s.groups.map fun p => p.2.ctl.core).eraseDups

/-- The pipe that issues by default: of the pipes with a group to issue, the one whose last issue is oldest (log 1). -/
def State.issueTurn (s : State) : Option (Nat × Bool) :=
  let last := fun (c : Nat) (u : Bool) =>
    s.groups.foldl (fun m p => if p.2.ctl.core = c then max m (if u then p.2.ctl.lastUni else p.2.ctl.lastLane) else m) 0
  let ps := (s.busyCores.flatMap fun c => [(c, false), (c, true)]).filter fun p => (s.pickOn p.1 p.2).isSome
  (ps.foldl (fun b p =>
    match b with
    | none => some (last p.1 p.2, p)
    | some x => if last p.1 p.2 < x.1 then some (last p.1 p.2, p) else b) none).map Prod.snd

end Sys2Proof.Machine
end

