-- ==== Sys2Proof/Machine/Engines.lean ====
section
/-!
DEFINITION. Engine commands: issue, which engine takes them and when they start, status words; copies, chains, write
pointers, PUBL and stage rings (13: R246 to R259; 05: R101 to R107).
-/

namespace Sys2Proof

/-- The engine that takes a command, as a number: commands of one group to one engine start in issue order (13: R247). -/
def Instr.engine (i : Instr) : Nat :=
  match i with
  | .copy _ ch _ _ _ => 10 + ch.toNat
  | .chain ch _ _ => 10 + ch.toNat
  | .chwp _ ch _ _ _ => 10 + ch.toNat
  | .publ _ _ _ => 1
  | .rput ring _ _ => 100 + 2 * ring.toNat
  | .rtake ring _ _ => 101 + 2 * ring.toNat
  | .tld _ _ _ _ => 2
  | .wld _ _ _ _ => 2
  | .mma _ _ _ _ _ _ => 2
  | .azero _ _ _ _ => 2
  | .ast _ _ _ _ _ => 2
  | .blsub _ _ _ _ => 3
  | .blcol _ _ _ => 3
  | .qcast _ _ => 4
  | .creduce _ _ => 4
  | .tidset _ _ _ => 7
  | .tidget _ _ _ => 7
  | .stins _ _ _ => 5
  | .stlook _ _ _ => 5
  | .kvres _ _ _ => 6
  | _ => 0

/-- The engine code of a trace record (24: R401). -/
def Instr.engineCode (i : Instr) : Nat :=
  match i with
  | .copy _ ch _ _ _ => 0x10 + ch.toNat
  | .chain ch _ _ => 0x10 + ch.toNat
  | .chwp _ ch _ _ _ => 0x10 + ch.toNat
  | .publ _ _ _ => 0x70
  | .tld _ _ _ _ => 0x20
  | .wld _ _ _ _ => 0x20
  | .mma _ _ _ _ _ _ => 0x20
  | .azero _ _ _ _ => 0x20
  | .ast _ _ _ _ _ => 0x20
  | .blsub _ _ _ _ => 0x30
  | .blcol _ _ _ => 0x30
  | .qcast _ _ => 0x40
  | .creduce _ _ => 0x40
  | .stins _ _ _ => 0x50
  | .stlook _ _ _ => 0x50
  | .kvres _ _ _ => 0x60
  | _ => 0

/-- The tensor field of a command, for the commands that read their entry at start (13: R247). -/
def Instr.tensor (i : Instr) : Option Nat :=
  match i with
  | .copy tid _ _ _ _ => some tid.toNat
  | .tld tid _ _ _ => some tid.toNat
  | .wld tid _ _ _ => some tid.toNat
  | .ast tid _ _ _ _ => some tid.toNat
  | .tidget tid _ _ => some tid.toNat
  | .stins tid _ _ => some tid.toNat
  | .stlook tid _ _ => some tid.toNat
  | .kvres tid _ _ => some tid.toNat
  | _ => none

/-- The channel of a copy or a chain: the commands that deliver on it (05: R103). -/
def Instr.delivers (i : Instr) : Option Nat :=
  match i with
  | .copy _ ch _ _ _ => some ch.toNat
  | .chain ch _ _ => some ch.toNat
  | _ => none

/-- Commands that write shadow destinations (05: R105, R106). -/
def Instr.shadows (i : Instr) : Bool :=
  match i with
  | .copy _ _ _ _ _ => true
  | .chain _ _ _ => true
  | .ast _ _ _ _ _ => true
  | _ => false

/-- Whether a command is a PUBL. -/
def Instr.isPubl (i : Instr) : Bool :=
  match i with
  | .publ _ _ _ => true
  | _ => false

end Sys2Proof

namespace Sys2Proof.Machine

/-! ## Issue (13: R246, R247) -/

/-- The operand block of n registers from the field on; sz reads zero. -/
def Group.block (g : Group) (f : BitVec 6) (n : Nat) : List (BitVec 64) :=
  (List.range n).map fun j => if f = 63#6 then 0#64 else g.sreg (f.toNat + j)

/-- A command as it enters its queue. -/
def newCmd (i : Instr) (is : Issue) (g : Group) (ops : List (BitVec 64)) (pend : Option Nat) (stamp : Nat) : EngCmd where
  seq := g.fl.nextSeq
  word := is.word
  ins := i
  ops := ops
  pend := pend
  started := false
  stamp := stamp
  tid := []
  progress := 0
  pointer := 0
  clipped := 0
  records := 0
  total := 0
  record := ops.getD 0 0#64
  image := []
  ended := none
  round := 0
  req := none
  answered := []
  failed := false
  walkOn := none
  walked := []

/-- The group after it has queued a command; a PUBL holds its later accesses (05: R106). -/
def Group.queueCmd (g : Group) (is : Issue) (c : EngCmd) : Group :=
  let g := g.advance is
  { g with fl := { g.fl with
    cmds := g.fl.cmds ++ [c]
    nextSeq := c.seq + 1
    publ := if c.ins.isPubl && g.fl.publ.isNone then some c.seq else g.fl.publ } }

/-- Issues a command: the operand block of n registers is read, the first of them awaits the status (13: R246, R247). -/
def State.issueEngine (s : State) (i : Instr) (f : BitVec 6) (n : Nat) (la : BitVec 4) : Out :=
  s.runWord i fun is g s =>
    let ops := g.block f n
    let done := fun (pend : Option Nat) (g' : Group) =>
      Host.Outcome.next
        ({ s with fresh := s.fresh + 1 }.setGroup is.grp (g'.queueCmd is (newCmd i is g ops pend s.fresh)))
    if f = 63#6 then done none g
    else
      match g.openPend true f.toNat 1 is.mask is.mask la with
      | none => .next s
      | some (slot, g') => done (some slot) g'

/-- copy (13: R252). -/
def execCopy (tid : BitVec 8) (ch : BitVec 3) (f : BitVec 6) (la : BitVec 4) (var : CopyVar) (s : State) : Out :=
  s.issueEngine (.copy tid ch f la var) f 4 la

/-- chain (13: R256). -/
def execChain (ch : BitVec 3) (f : BitVec 6) (la : BitVec 4) (s : State) : Out :=
  s.issueEngine (.chain ch f la) f 1 la

/-- chwp (13: R257). -/
def execChwp (sc : Scope) (ch : BitVec 3) (f : BitVec 6) (la : BitVec 4) (acq : Bool) (s : State) : Out :=
  s.issueEngine (.chwp sc ch f la acq) f 1 la

/-- publ (13: R258). -/
def execPubl (tid : BitVec 8) (f : BitVec 6) (la : BitVec 4) (s : State) : Out :=
  s.issueEngine (.publ tid f la) f 1 la

/-- rput (13: R259). -/
def execRput (ring : BitVec 4) (f : BitVec 6) (la : BitVec 4) (s : State) : Out :=
  s.issueEngine (.rput ring f la) f 1 la

/-- rtake (13: R259). -/
def execRtake (ring : BitVec 4) (f : BitVec 6) (la : BitVec 4) (s : State) : Out :=
  s.issueEngine (.rtake ring f la) f 1 la

/-- tld (13: R260). -/
def execTld (tid : BitVec 8) (tile : BitVec 3) (f : BitVec 6) (la : BitVec 4) (s : State) : Out :=
  s.issueEngine (.tld tid tile f la) f 1 la

/-- wld (13: R261). -/
def execWld (tid : BitVec 8) (f : BitVec 6) (la : BitVec 4) (x24 : Bool) (s : State) : Out :=
  s.issueEngine (.wld tid f la x24) f 2 la

/-- mma (13: R262). -/
def execMma (fmt : MmaFmt) (tile acc : BitVec 3) (f : BitVec 6) (la : BitVec 4) (bs : Bool) (s : State) : Out :=
  s.issueEngine (.mma fmt tile acc f la bs) f 1 la

/-- azero (13: R263). -/
def execAzero (acc : BitVec 3) (f : BitVec 6) (la : BitVec 4) (f64 : Bool) (s : State) : Out :=
  s.issueEngine (.azero acc f la f64) f 1 la

/-- ast (13: R264). -/
def execAst (tid : BitVec 8) (acc : BitVec 3) (f : BitVec 6) (la : BitVec 4) (bs : Bool) (s : State) : Out :=
  s.issueEngine (.ast tid acc f la bs) f 1 la

/-- blsub (13: R265). -/
def execBlsub (n : BitVec 8) (slot : BitVec 4) (f : BitVec 6) (la : BitVec 4) (s : State) : Out :=
  s.issueEngine (.blsub n slot f la) f 1 la

/-- blcol (13: R266). -/
def execBlcol (slot : BitVec 4) (f : BitVec 6) (la : BitVec 4) (s : State) : Out :=
  s.issueEngine (.blcol slot f la) f 1 la

/-- qcast (13: R267). -/
def execQcast (f : BitVec 6) (la : BitVec 4) (s : State) : Out := s.issueEngine (.qcast f la) f 2 la

/-- creduce (13: R268). -/
def execCreduce (f : BitVec 6) (la : BitVec 4) (s : State) : Out := s.issueEngine (.creduce f la) f 1 la

/-- tidset (13: R251). -/
def execTidset (tid : BitVec 8) (f : BitVec 6) (la : BitVec 4) (s : State) : Out :=
  s.issueEngine (.tidset tid f la) f 1 la

/-- tidget (13: R251). -/
def execTidget (tid : BitVec 8) (f : BitVec 6) (la : BitVec 4) (s : State) : Out :=
  s.issueEngine (.tidget tid f la) f 1 la

/-- stins (13: R271). -/
def execStins (tid : BitVec 8) (f : BitVec 6) (la : BitVec 4) (s : State) : Out :=
  s.issueEngine (.stins tid f la) f 1 la

/-- stlook (13: R271). -/
def execStlook (tid : BitVec 8) (f : BitVec 6) (la : BitVec 4) (s : State) : Out :=
  s.issueEngine (.stlook tid f la) f 1 la

/-- kvres (13: R273). -/
def execKvres (tid : BitVec 8) (f : BitVec 6) (la : BitVec 4) (s : State) : Out :=
  s.issueEngine (.kvres tid f la) f 2 la

/-! ## Status words and verdicts (13: R248) -/

/-- A status word: code, count, quantity (13: R248). -/
def statusWord (code count quantity : Nat) : BitVec 64 :=
  BitVec.ofNat 64 (code * 2 ^ 56 + min count 0xFFFF * 2 ^ 40 + quantity % 2 ^ 40)

/-- What an engine's work on a command comes to. -/
inductive Verdict where
  /-- a page request is due -/
  | stall (va : BitVec 64) (kind : Nat)
  /-- a walk of a page under a slot is due -/
  | walk (slot : Nat) (gen : BitVec 16) (va : BitVec 64) (kind : Nat)
  /-- it waits for another agent -/
  | wait
  /-- it completes with a status -/
  | ends (code count quantity : Nat)
  /-- it completes with a word of its own layout -/
  | value (x : BitVec 64)
  deriving DecidableEq, Repr

/-- Logs the violation of an error response that a command of a group received (23: R384 to R387). -/
def State.errorNote (s : State) (g : Group) (e : Option ErrorAt) : State :=
  match e with
  | none => s
  | some e =>
    match e.home with
    | none => s.laneViolation g.ctl.core (e.va.getD 0#64)
    | some pa => s.homeViolation pa e.kind fun s =>
      match e.va with
      | some va => s.laneViolation g.ctl.core va
      | none => s.violation (BitVec.ofNat 64 pa) (s.homeSource pa) 1 0

/-- A stopped access as a verdict: the state before the work when it is to be made again, the given state on a failure. -/
def Stop.verdict (e : Stop) (g : Group) (before after : State) (count quantity : Nat) : State × Verdict :=
  match e with
  | .page va kind => (before, .stall va kind)
  | .walk slot gen va kind => (before, .walk slot gen va kind)
  | .hold => (before, .wait)
  | .fail c err => (after.errorNote g err, .ends c count quantity)

/-- The reader of a command (21: R369). -/
def EngCmd.reader (c : EngCmd) (g : Group) : Reader where
  g := g
  answered := c.answered
  walked := c.walked
  failed := c.failed

/-- Operand register j of a command. -/
def EngCmd.op (c : EngCmd) (j : Nat) : BitVec 64 := c.ops.getD j 0#64

/-! ## Copies (13: R252 to R255) -/

/-- The geometry of a copy. -/
structure CopyGeo where
  var : CopyVar
  tid : List Byte
  i0 : Int
  i1 : Int
  i2 : Int
  e0 : Nat
  e1 : Nat
  e2 : Nat
  dst : BitVec 64
  /-- Elements and bytes of a unit: an element, a byte of q4 codes, or a rotated pair. -/
  per : Nat
  unit : Nat
  s1 : Nat
  s2 : Nat
  deriving DecidableEq, Repr

/-- The dense stride along dimension 1. -/
def CopyGeo.dense (c : CopyGeo) : Nat := c.e0 / c.per * c.unit

/-- The geometry that an entry and four operands give (13: R252). -/
def copyGeo (var : CopyVar) (tid : List Byte) (o : List (BitVec 64)) : CopyGeo :=
  let w0 := o.getD 0 0#64
  let w1 := o.getD 1 0#64
  let w2 := o.getD 2 0#64
  let w3 := o.getD 3 0#64
  let bits := formatBits (tidFormat tid)
  let per := if bits = 4 || var == .slant then 2 else 1
  let unit := per * bits / 8
  let e0 := (w2.setWidth 32).toNat
  let e1 := (w2.extractLsb' 32 16).toNat
  let s1 := (w3.setWidth 24).toNat
  let s2 := (w3.extractLsb' 24 24).toNat
  let s1 := if s1 = 0 then e0 / per * unit else s1
  { var, tid, i0 := (w0.setWidth 32).toInt, i1 := (w0.extractLsb' 32 32).toInt, i2 := (w3.extractLsb' 48 16).toInt
    e0, e1, e2 := (w2.extractLsb' 48 16).toNat, dst := w1, per, unit, s1, s2 := if s2 = 0 then e1 * s1 else s2 }

/-- Units and bytes of the stream. -/
def CopyGeo.units (c : CopyGeo) : Nat := c.e0 / c.per * c.e1 * c.e2
def CopyGeo.bytes (c : CopyGeo) : Nat := c.units * c.unit

/-- The kinds of source that a variant accepts (13: R252). -/
def copyKinds (var : CopyVar) (kind : Nat) : Bool :=
  match var with
  | .plain => kind == 0 || kind == 1
  | .x24 => kind == 2
  | .slant => kind == 1

/-- The code that a copy ends with before it delivers anything (13: R250, R252 to R254); code 0 ends an empty box. -/
def CopyGeo.early (c : CopyGeo) : Option Nat :=
  let kv := tidKind c.tid == 1
  if tidMalformed c.tid || !copyKinds c.var (tidKind c.tid) || (c.var == .slant && !slantFormat (tidFormat c.tid)) then some 4
  else if c.e0 * c.e1 * c.e2 = 0 then some 0
  else if c.dst.extractLsb' 56 8 ≠ 0#8 || 2 ^ 40 ≤ c.bytes
      || (kv && (c.e2 != 1 || c.i2 != 0))
      || (c.var == .slant && (c.i0 % 2 != 0 || c.e0 % 2 != 0))
      || (tidFormat c.tid == 8
        && (c.i0 % 32 != 0 || c.e0 % 32 != 0 || c.s1 != c.dense || c.s2 != c.e1 * c.dense)) then some 5
  else none

/-- The coordinates of the first element of unit u. -/
def CopyGeo.at (c : CopyGeo) (u : Nat) : Int × Int × Int :=
  let row := c.e0 / c.per
  (c.i0 + (u % row * c.per : Nat), c.i1 + (u / row % c.e1 : Nat), c.i2 + (u / row / c.e1 : Nat))

/-- The destination of unit u. -/
def CopyGeo.to (c : CopyGeo) (u : Nat) : BitVec 64 :=
  let row := c.e0 / c.per
  c.dst + BitVec.ofNat 64 (u % row * c.unit + u / row % c.e1 * c.s1 + u / row / c.e1 * c.s2)

/-- Whether an element lies inside its tensor (13: R252, R254). -/
def inTensor (tid : List Byte) (c0 c1 c2 : Int) : Bool :=
  if tidKind tid = 1 then decide (0 ≤ c0) && decide (c0 < (tidH tid * tidDh tid : Nat)) && decide (0 ≤ c1)
  else decide (0 ≤ c0) && decide (c0 < tidN0 tid) && decide (0 ≤ c1) && decide (c1 < tidN1 tid) && decide (0 ≤ c2)
    && decide (c2 < tidN2 tid)

/-- The fill pattern of an element (13: R249). -/
def tidFillOf (tid : List Byte) : Nat := tidFill tid % 2 ^ formatBits (tidFormat tid)

/-- The address of plain element (c0, c1, c2), or of the byte that holds a q4 code (13: R249). -/
def plainAt (tid : List Byte) (c0 c1 c2 : Nat) : BitVec 64 :=
  tidBase tid + BitVec.ofNat 64 (c0 * formatBits (tidFormat tid) / 8 + c1 * tidStride1 tid + c2 * tidStride2 tid)

/-- The pattern of a dense element of a 2:4 tensor (13: R253). -/
def Run.sparse (r : Run) (rd : Reader) (tid : List Byte) (c0 c1 c2 : Nat) : Except Stop (Run × Nat) :=
  let bits := formatBits (tidFormat tid)
  let grp := c0 / 4
  let row := c2 * tidN1 tid + c1
  match r.read rd kindEngineRead (BitVec.ofNat 64 (tidMeta tid + (row * (tidN0 tid / 4) + grp) / 2)) 1 with
  | .error e => .error e
  | .ok (r, m) =>
    let nib := bitsOf (leNat m) (4 * (grp % 2)) 4
    let idx := if nib / 4 = c0 % 4 then some (2 * grp + 1) else if nib % 4 = c0 % 4 then some (2 * grp) else none
    match idx with
    | none => .ok (r, 0)
    | some v =>
      match r.read rd kindEngineRead (plainAt tid v c1 c2) (max 1 (bits / 8)) with
      | .error e => .error e
      | .ok (r, b) => .ok (r, if bits = 4 then bitsOf (leNat b) (4 * (v % 2)) 4 else leNat b)

/-- The pattern of n elements of a row of paged KV from element c0 of position p on, as a number (13: R254). -/
def Run.kvRow (r : Run) (rd : Reader) (tid : List Byte) (p c0 n : Nat) : Except Stop (Run × KvEntry × Nat) :=
  let bits := formatBits (tidFormat tid)
  match r.kvEntry rd tid p kindEngineRead with
  | .error e => .error e
  | .ok (r, ent) =>
    match r.s.kvResolve rd.g.id.launch ent with
    | .error e => .error e
    | .ok page =>
      (({ r with s := r.s.kvSecond rd.g.id.launch ent } : Run).kvBytes rd (kvEntryAt tid p) page ((p % 32 * (tidH tid * tidDh tid) + c0) * bits / 8) (n * bits / 8)).map fun x =>
        (x.1, ent, leNat x.2)

/-- The rotated pair of a paged-KV row: R218 steps 6 and 7. -/
def Run.slantPair (r : Run) (rd : Reader) (tid : List Byte) (p c0 : Nat) : Except Stop (Run × Nat) :=
  let bits := formatBits (tidFormat tid)
  match r.kvRow rd tid p c0 2 with
  | .error e => .error e
  | .ok (r, ent, v) =>
    match r.read rd kindEngineRead (tidAux tid + BitVec.ofNat 64 (4 * (c0 % tidDh tid / 2))) 4, formatOf (tidFormat tid) with
    | .error e, _ => .error e
    | .ok _, none => .error (.fail 4 none)
    | .ok (r, fr), some f =>
      let x := rotatePair f (v % 2 ^ bits) (v / 2 ^ bits) (slantAngle ent.slant (p % 32) (leNat fr))
      .ok (r, x.1 + 2 ^ bits * x.2)

/-- The source's pattern of a unit whose first element is inside the tensor. -/
def Run.unitOf (r : Run) (rd : Reader) (c : CopyGeo) (c0 c1 c2 : Nat) : Except Stop (Run × Nat) :=
  match c.var with
  | .slant => r.slantPair rd c.tid c1 c0
  | .plain =>
    if tidKind c.tid = 1 then (r.kvRow rd c.tid c1 c0 c.per).map fun x => (x.1, x.2.2)
    else (r.read rd kindEngineRead (plainAt c.tid c0 c1 c2) c.unit).map fun x => (x.1, leNat x.2)
  | .x24 =>
    match r.sparse rd c.tid c0 c1 c2 with
    | .error e => .error e
    | .ok (r, lo) =>
      if c.per = 1 then .ok (r, lo)
      else (r.sparse rd c.tid (c0 + 1) c1 c2).map fun x => (x.1, lo + 2 ^ formatBits (tidFormat c.tid) * x.2)

/-- The bytes of unit u, and how many of its elements are clipped: clipped elements are the fill (13: R252). -/
def Run.copyUnit (r : Run) (rd : Reader) (c : CopyGeo) (u : Nat) : Except Stop (Run × List Byte × Nat) :=
  let x := c.at u
  let bits := formatBits (tidFormat c.tid)
  let ins := (List.range c.per).map fun j => inTensor c.tid (x.1 + (j : Nat)) x.2.1 x.2.2
  let src := if ins.any id then r.unitOf rd c x.1.toNat x.2.1.toNat x.2.2.toNat else .ok (r, 0)
  src.map fun y =>
    let v := (List.range c.per).foldl (fun v j =>
      v + 2 ^ (bits * j) * (if ins.getD j false then bitsOf y.2 (bits * j) bits else tidFillOf c.tid)) 0
    (y.1, leBytes c.unit v, (ins.filter fun b => !b).length)

/-- How far a copy has come. -/
structure Delivery where
  r : Run
  /-- Bytes delivered, and elements clipped. -/
  done : Nat
  clipped : Nat
  stop : Option Stop

/-- The locations of as many of n bytes as can be reached, and what stops the next. -/
def State.reachable (s : State) (rd : Reader) (va : BitVec 64) (n : Nat) : List Loc × Option Stop :=
  match n with
  | 0 => ([], none)
  | m + 1 =>
    match s.locate rd kindEngineWrite true va with
    | .error e => ([], some e)
    | .ok l =>
      let x := State.reachable s rd (va + 1#64) m
      (l :: x.1, x.2)

/-- Delivers the next bytes of a unit, in order, as far as they can be reached (05: R103; 13: R255). -/
def Delivery.put (d : Delivery) (rd : Reader) (c : CopyGeo) (u : Nat) (bs : List Byte) (cl : Nat) : Delivery :=
  let skip := d.done - u * c.unit
  let va := c.to u + BitVec.ofNat 64 skip
  let x := d.r.s.reachable rd va bs.length
  if x.1.isEmpty then { d with stop := x.2 }
  else
    match d.r.writeAt rd (some va) x.1 (bs.take x.1.length) with
    | .error e => { d with stop := some e }
    | .ok r =>
      { r := r, done := d.done + x.1.length, clipped := d.clipped + (if skip + x.1.length = c.unit then cl else 0), stop := x.2 }

/-- Delivers units until the box, the limit or an access ends it (13: R252). DESIGN CHOICE (log 72): source bytes may be read in any
order, and the result of an overlapping source is open (05: R103; 13: R252); a unit's source is read as it is delivered. -/
def CopyGeo.run (c : CopyGeo) (rd : Reader) (fuel limit : Nat) (d : Delivery) : Delivery :=
  match fuel with
  | 0 => d
  | n + 1 =>
    if limit ≤ d.done || c.bytes ≤ d.done || d.stop.isSome then d
    else
      let u := d.done / c.unit
      match d.r.copyUnit rd c u with
      | .error e => { d with stop := some e }
      | .ok (r, bs, cl) =>
        CopyGeo.run c rd n limit
          (({ d with r := r } : Delivery).put rd c u ((bs.drop (d.done - u * c.unit)).take (limit - d.done)) cl)

/-- Changes a command of a group. -/
def State.modCmd (s : State) (k seq : Nat) (f : EngCmd → EngCmd) : State :=
  s.modGroup k fun g => g.setCmds (g.fl.cmds.map fun c => if c.seq = seq then f c else c)

/-- Runs a copy for a command up to a limit of its stream: the command's progress, the channel's pointer and what stops it
(05: R104; 13: R255). -/
def Run.copyTo (r : Run) (k : Nat) (g : Group) (c : EngCmd) (ch : Nat) (geo : CopyGeo) (limit : Nat) :
    Run × EngCmd × Option Stop :=
  let d := geo.run (c.reader g) (geo.units + 1) limit { r := r, done := c.progress, clipped := c.clipped, stop := none }
  let n := d.done - c.progress
  let s := (d.r.s.modGang g.id.gang fun a =>
    { a with chwp := Table.put 0#64 a.chwp ch (Table.getD a.chwp ch 0#64 + BitVec.ofNat 64 n) }).tally g.view.partition 0x0C n
  let c' := { c with progress := d.done, clipped := d.clipped }
  ({ d.r with s := s.modCmd k c.seq fun x => { x with progress := d.done, clipped := d.clipped } }, c', d.stop)

/-- A copy up to a place of its stream: at the end it completes (13: R252, R255). -/
def Run.copyPart (r : Run) (k : Nat) (g : Group) (c : EngCmd) (ch : Nat) (geo : CopyGeo) (limit : Nat) : State × Verdict :=
  let x := r.copyTo k g c ch geo limit
  match x.2.2 with
  | some e => e.verdict g x.1.s x.1.s x.2.1.clipped x.2.1.progress
  | none => (x.1.s, if limit < geo.bytes then .wait else .ends 0 x.2.1.clipped x.2.1.progress)

/-- The work of a copy (13: R252, R255). -/
def State.workCopy (s : State) (k : Nat) (g : Group) (c : EngCmd) (ch : BitVec 3) (var : CopyVar) (ext : EngineReply) :
    State × Verdict :=
  let geo := copyGeo var c.tid c.ops
  match geo.early with
  | some code => (s, .ends code 0 0)
  | none => (Run.of s ext).copyPart k g c ch.toNat geo geo.bytes

/-! ## Chains (13: R256) -/

/-- Fields of a record. -/
def recNext (r : List Byte) : BitVec 64 := BitVec.ofNat 64 (leNat (r.take 8))
def recControl (r : List Byte) : Nat := leNat ((r.drop 8).take 8)
def recOps (r : List Byte) : List (BitVec 64) :=
  (List.range 4).map fun j => BitVec.ofNat 64 (leNat ((r.drop (16 + 8 * j)).take 8))

/-- The variant of a record; none for f = 3. -/
def recVar (r : List Byte) : Option CopyVar :=
  match bitsOf (recControl r) 8 2 with
  | 0 => some .plain
  | 1 => some .x24
  | 2 => some .slant
  | _ => none

/-- Whether a record has a reserved bit set. -/
def recReserved (r : List Byte) : Bool :=
  bitsOf (recControl r) 1 7 != 0 || bitsOf (recControl r) 10 6 != 0 || recControl r / 2 ^ 24 != 0
    || leNat ((r.drop 0x38).take 8) != 0

/-- A chain ends with a code. -/
def State.endChain (s : State) (k : Nat) (c : EngCmd) (code : Nat) : State × Verdict :=
  (s.modCmd k c.seq fun x => { x with ended := some (code, c.total) }, .wait)

/-- A record is over with a code: its status is written and own is cleared, in that order; when one of these fails, the chain ends with
that code and what it has done (13: R255, R256). -/
def Run.endRecord (r : Run) (k : Nat) (g : Group) (c : EngCmd) (code : Nat) : State × Verdict :=
  let rd := c.reader g
  let s := r.s
  let total := c.total + c.progress
  match r.write rd false (c.record + 0x30#64) (leBytes 8 (statusWord code c.clipped c.progress).toNat) with
  | .error e => e.verdict g s s c.records total
  | .ok r =>
    match r.write rd false (c.record + 8#64) (leBytes 8 (recControl c.image / 2 * 2)) with
    | .error e => e.verdict g s r.s c.records total
    | .ok r =>
      let next := recNext c.image
      (r.s.modCmd k c.seq fun x => { x with
        records := if code = 0 then c.records + 1 else c.records
        total := total, progress := 0, clipped := 0, image := [], record := next
        ended := if code ≠ 0 || next = 0#64 then some (code, total) else none }, .wait)

/-- Reads the chain's next record (13: R256). -/
def Run.readRecord (r : Run) (k : Nat) (g : Group) (c : EngCmd) : Except (State × Verdict) (Run × EngCmd) :=
  if c.image ≠ [] then .ok (r, c)
  else if c.record.toNat % 64 ≠ 0 then .error (r.s.endChain k c 5)
  else
    match r.read (c.reader g) kindEngineRead c.record 64 with
    | .error (.fail code err) => .error ((r.s.errorNote g err).endChain k c code)
    | .error e => .error (e.verdict g r.s r.s 0 0)
    | .ok (r, bs) =>
      let c' := { c with
        image := bs
        tid := r.s.tidReplica g.id.launch (g.ctl.core / 4) (bitsOf (recControl bs) 16 8)
        pointer := ((Table.get? r.s.gangs g.id.gang).map fun a =>
          (Table.getD a.chwp ((c.ins.delivers).getD 0) 0#64).toNat).getD 0 }
      .ok ({ r with s := r.s.modCmd k c.seq fun _ => c' }, c')

/-- The copy of a record that a chain has read: none when the record is not one, or ends without delivering. -/
def EngCmd.recordGeo (c : EngCmd) : Option CopyGeo :=
  if recControl c.image % 2 = 0 || recReserved c.image then none
  else (recVar c.image).map fun var => copyGeo var c.tid (recOps c.image)

/-- The copy of a chain's record up to a place of its stream: at the end the record is over (13: R256). -/
def Run.recordPart (r : Run) (k : Nat) (g : Group) (c : EngCmd) (ch : Nat) (geo : CopyGeo) (limit : Nat) : State × Verdict :=
  let x := r.copyTo k g c ch geo limit
  match x.2.2 with
  | some (.fail code err) => ({ x.1 with s := x.1.s.errorNote g err } : Run).endRecord k g x.2.1 code
  | some e => e.verdict g x.1.s x.1.s 0 0
  | none => if limit < geo.bytes then (x.1.s, .wait) else x.1.endRecord k g x.2.1 0

/-- One record of a chain (13: R256). -/
def State.workRecord (s : State) (k : Nat) (g : Group) (c : EngCmd) (ch : BitVec 3) (ext : EngineReply) : State × Verdict :=
  match (Run.of s ext).readRecord k g c with
  | .error x => x
  | .ok (r, c) =>
    if recControl c.image % 2 = 0 then r.s.endChain k c 0
    else
      match c.recordGeo with
      | none => r.endRecord k g c 4
      | some geo =>
        match geo.early with
        | some code => r.endRecord k g c code
        | none => r.recordPart k g c ch.toNat geo geo.bytes

/-! ## PUBL (05: R106, R107) -/

/-- Commands of the groups of a gang. -/
def State.gangCmds (s : State) (gang : Nat) : List EngCmd :=
  (s.groups.filter fun p => p.2.id.gang == gang && !p.2.id.walker).flatMap fun p => p.2.fl.cmds

/-- Whether the commands that a PUBL waits for have completed (05: R106 step 2). -/
def State.shadowsDone (s : State) (gang stamp : Nat) : Bool :=
  !(s.gangCmds gang).any fun c => c.ins.shadows && decide (c.stamp < stamp)

/-- The position of the earliest PUBL of a group whose instant is outstanding. -/
def Group.publNext (g : Group) : Option Nat :=
  (g.fl.cmds.find? fun c => c.ins.isPubl && c.ended.isNone).map EngCmd.seq

/-- Sets in SLEEP on a translated address read their word again: the frame behind it may have changed (05: R107). -/
def State.watchPublish (s : State) : State :=
  { s with groups := s.groups.map fun p =>
    if p.2.fl.sleepers.isEmpty then p
    else (p.1, p.2.setSleepers (p.2.fl.sleepers.map fun z =>
      if inTree z.va && z.pa.isSome then { z with due := true } else z)) }

/-- The instant of a PUBL (05: R106 step 3, R107; 21: R362): the counter of a slot that is assigned to the group's region or
to one above it goes up by one. -/
def State.publish (s : State) (k : Nat) (g : Group) (c : EngCmd) (slot : Nat) : State :=
  let own := match Table.get? s.xlat.owners slot with
    | none => false
    | some top => s.under top (s.regionOf g)
  let v := Table.getD s.xlat.publish slot 0#64 + 1#64
  let s := if own then { s with xlat := { s.xlat with publish := Table.put 0#64 s.xlat.publish slot v } }.watchPublish else s
  let s := s.modCmd k c.seq fun x => { x with ended := some (if own then (0, v.toNat) else (0x0B, 0)) }
  s.modGroup k fun g => { g with fl := { g.fl with publ := g.publNext } }

/-! ## Stage rings (13: R259) -/

/-- A ring of a gang. -/
def Gang.ring (a : Gang) (n : Nat) : Ring := Table.getD a.rings n ⟨[], 0, 0⟩

/-- The word that a put or a take lands. -/
def ringWord (index : Nat) (payload : BitVec 48) : BitVec 64 :=
  BitVec.ofNat 64 (index / 8 % 2 * 2 ^ 51 + index % 8 * 2 ^ 48 + payload.toNat)

/-- The rings that a launch declares. -/
def State.ringCount (s : State) (launch : Nat) : Nat := ((Table.get? s.launches launch).map fun l => l.record.rings).getD 0

/-- Whether a started command of the gang to the same ring end reached it first. -/
def State.ringBehind (s : State) (gang : Nat) (c : EngCmd) : Bool :=
  (s.gangCmds gang).any fun x => x.started && x.ins.engine == c.ins.engine && decide (x.stamp < c.stamp)

/-- A put (13: R259). DESIGN CHOICE (log 85): the word with code 0x05 holds phase, slot and payload 0. -/
def State.workRput (s : State) (g : Group) (c : EngCmd) (ring : BitVec 4) : State × Verdict :=
  if s.ringCount g.id.launch ≤ ring.toNat then (s, .ends 5 0 0)
  else
    match Table.get? s.gangs g.id.gang with
    | none => (s, .wait)
    | some a =>
      let r := a.ring ring.toNat
      if 8 ≤ r.entries.length || s.ringBehind g.id.gang c then (s, .wait)
      else
        let p := (c.op 0).setWidth 48
        (s.modGang g.id.gang fun a =>
          { a with rings := Table.set a.rings ring.toNat ⟨r.entries ++ [p], r.puts + 1, r.takes⟩ }, .value (ringWord r.puts p))

/-- A take (13: R259). -/
def State.workRtake (s : State) (g : Group) (c : EngCmd) (ring : BitVec 4) : State × Verdict :=
  if s.ringCount g.id.launch ≤ ring.toNat then (s, .ends 5 0 0)
  else
    match Table.get? s.gangs g.id.gang with
    | none => (s, .wait)
    | some a =>
      let r := a.ring ring.toNat
      match r.entries with
      | [] => (s, .wait)
      | p :: rest =>
        if s.ringBehind g.id.gang c then (s, .wait)
        else
          (s.modGang g.id.gang fun a =>
            { a with rings := Table.set a.rings ring.toNat ⟨rest, r.puts, r.takes + 1⟩ }, .value (ringWord r.takes p))

end Sys2Proof.Machine
end

