-- ==== Sys2Proof/Machine/BroadEdge.lean ====
section
/-!
DEFINITION. The Broad Edge: tile and panel loads, mma, azero, accumulator stores (13: R260 to R264; 06: R117 to R123, R127,
R128).
-/

namespace Sys2Proof.Machine

/-! ## Tiles and accumulators (02: R45) -/

/-- A tile, or a panel: 2,048 bytes by row, and 4 scale bytes a row. -/
structure TileData where
  bytes : List Byte
  scales : List Byte
  deriving DecidableEq, Repr

/-- Writes bytes into a table from an index on. -/
def putBytes (t : Table Byte) (at_ : Nat) (bs : List Byte) : Table Byte :=
  match bs with
  | [] => t
  | b :: r => putBytes (Table.put 0#8 t at_ b) (at_ + 1) r

/-- Group with tile n replaced (02: R45). -/
def Group.setTile (g : Group) (n : Nat) (d : TileData) : Group :=
  { g with regs := { g.regs with
    tiles := putBytes g.regs.tiles (2048 * n) d.bytes
    scales := putBytes g.regs.scales (128 * n) d.scales } }

/-- The bits of element (i, j) of f32 accumulator n. -/
def Group.acc32 (g : Group) (n i j : Nat) : BitVec 32 := Table.getD g.regs.acc (1024 * n + 32 * i + j) 0#32

/-- Group with element (i, j) of f32 accumulator n replaced. -/
def Group.setAcc32 (g : Group) (n i j : Nat) (x : BitVec 32) : Group :=
  { g with regs := { g.regs with acc := Table.put 0#32 g.regs.acc (1024 * n + 32 * i + j) x } }

/-- The bits of element (i, j) of the f64 pair that begins at accumulator n. -/
def Group.acc64 (g : Group) (n i j : Nat) : BitVec 64 :=
  Table.getD g.regs.acc (1024 * n + 2 * (32 * i + j) + 1) 0#32 ++ Table.getD g.regs.acc (1024 * n + 2 * (32 * i + j)) 0#32

/-- Group with element (i, j) of an f64 pair replaced. -/
def Group.setAcc64 (g : Group) (n i j : Nat) (x : BitVec 64) : Group :=
  let at_ := 1024 * n + 2 * (32 * i + j)
  let low := Table.put 0#32 g.regs.acc at_ (x.setWidth 32)
  { g with regs := { g.regs with acc := Table.put 0#32 low (at_ + 1) (x.extractLsb' 32 32) } }

/-! ## Loads (13: R260, R261) -/

/-- Elements of a row of 64 bytes, and its scale blocks (13: R260). -/
def rowElems (bits : Nat) : Nat := 512 / bits
def rowBlocks (bits : Nat) : Nat := if bits = 4 then 4 else if bits = 8 then 2 else 1

/-- The scale-1 byte of a format (13: R260). -/
def scaleOne (tid : List Byte) : Nat := if tidFormat tid = 8 then 64 * tidQ4Type tid + 32 else 0x7F

/-- The flat row r of a tensor as (c1, c2); none outside it. -/
def flatRow (tid : List Byte) (r : Int) : Option (Nat × Nat) :=
  if tidN1 tid = 0 || r < 0 then none
  else if r.toNat / tidN1 tid < tidN2 tid then some (r.toNat % tidN1 tid, r.toNat / tidN1 tid) else none

/-- The address of the scale byte of the block of column c0 (13: R249). -/
def scaleAt (tid : List Byte) (c0 c1 c2 : Nat) : BitVec 64 :=
  tidAux tid + BitVec.ofNat 64 ((c2 * tidN1 tid + c1) * ((tidN0 tid + 31) / 32) + c0 / 32)

/-- One element of a load: a plain byte address is read whole, a q4 code as the half of its byte, a 2:4 element expanded. -/
def Run.loadElem (r : Run) (rd : Reader) (tid : List Byte) (x24 : Bool) (c0 c1 c2 : Nat) : Except Stop (Run × Nat) :=
  let bits := formatBits (tidFormat tid)
  if x24 then r.sparse rd tid c0 c1 c2
  else
    (r.read rd kindEngineRead (plainAt tid c0 c1 c2) (max 1 (bits / 8))).map fun x =>
      (x.1, if bits = 4 then bitsOf (leNat x.2) (4 * (c0 % 2)) 4 else leNat x.2)

/-- The elements from column c0 of a row on, as one number, and how many are clipped: clipped elements take the fill. -/
def Run.loadRow (r : Run) (rd : Reader) (tid : List Byte) (x24 : Bool) (row : Option (Nat × Nat)) (c0 : Int) (n : Nat) :
    Except Stop (Run × Nat × Nat) :=
  match n with
  | 0 => .ok (r, 0, 0)
  | m + 1 =>
    let bits := formatBits (tidFormat tid)
    let head : Except Stop (Run × Nat × Nat) := match row with
      | none => .ok (r, tidFillOf tid, 1)
      | some (c1, c2) =>
        if 0 ≤ c0 && c0 < tidN0 tid then (r.loadElem rd tid x24 c0.toNat c1 c2).map fun x => (x.1, x.2, 0)
        else .ok (r, tidFillOf tid, 1)
    match head with
    | .error e => .error e
    | .ok (r, v, cl) =>
      (Run.loadRow r rd tid x24 row (c0 + 1) m).map fun x => (x.1, v + 2 ^ bits * x.2.1, cl + x.2.2)

/-- The 4 scale bytes of a row: those of its blocks, then zeros (13: R260; 02: R45). DESIGN CHOICE (log 87): a block of the tile that meets
two blocks of the tensor takes the byte of the tensor block of its first element, or that of block 0 when that element is before 0. -/
def Run.loadScales (r : Run) (rd : Reader) (tid : List Byte) (row : Option (Nat × Nat)) (i0 : Int) (b : Nat) :
    Except Stop (Run × List Byte) :=
  match b with
  | 0 => .ok (r, [])
  | m + 1 =>
    match Run.loadScales r rd tid row i0 m with
    | .error e => .error e
    | .ok (r, bs) =>
      let c := i0 + (32 * m : Nat)
      if rowBlocks (formatBits (tidFormat tid)) ≤ m then .ok (r, bs ++ [0#8])
      else
        match row with
        | none => .ok (r, bs ++ [BitVec.ofNat 8 (scaleOne tid)])
        | some (c1, c2) =>
          let n : Nat := min 32 (rowElems (formatBits (tidFormat tid)))
          if tidAux tid = 0#64 || min (c + n) (tidN0 tid : Int) ≤ max c 0 then .ok (r, bs ++ [BitVec.ofNat 8 (scaleOne tid)])
          else (r.read rd kindEngineRead (scaleAt tid c.toNat c1 c2) 1).map fun x => (x.1, bs ++ x.2)

/-- The rows of a load, from row i on. -/
def Run.loadRows (r : Run) (rd : Reader) (tid : List Byte) (x24 : Bool) (i0 r0 : Int) (n : Nat) :
    Except Stop (Run × TileData × Nat) :=
  match n with
  | 0 => .ok (r, ⟨[], []⟩, 0)
  | m + 1 =>
    match Run.loadRows r rd tid x24 i0 r0 m with
    | .error e => .error e
    | .ok (r, d, cl) =>
      let row := flatRow tid (r0 + (m : Nat))
      match r.loadRow rd tid x24 row i0 (rowElems (formatBits (tidFormat tid))) with
      | .error e => .error e
      | .ok (r, v, cl') =>
        (r.loadScales rd tid row i0 4).map fun x => (x.1, ⟨d.bytes ++ leBytes 64 v, d.scales ++ x.2⟩, cl + cl')

/-- The clipped elements of a load, by its coordinates alone. -/
def loadClipped (tid : List Byte) (i0 r0 : Int) : Nat :=
  ((List.range 32).map fun i =>
    ((List.range (rowElems (formatBits (tidFormat tid)))).filter fun j =>
      (flatRow tid (r0 + (i : Nat))).isNone || !(decide (0 ≤ i0 + (j : Nat)) && decide (i0 + (j : Nat) < tidN0 tid))).length).foldl
    (· + ·) 0

/-- The code that a load ends with before it reads anything (13: R250, R260, R261). -/
def loadEarly (tid : List Byte) (x24 : Bool) (i0 : Int) : Option Nat :=
  if tidMalformed tid || tidKind tid != (if x24 then 2 else 0) then some 4
  else if tidFormat tid = 8 && i0 % 128 != 0 then some 5
  else none

/-- The data of a load, or what it comes to instead; a failed load reports its clipped elements and 2,048 as a whole one
does (13: R260, R261). -/
def State.load (s : State) (g : Group) (c : EngCmd) (x24 : Bool) (ext : EngineReply) :
    Except (State × Verdict) (State × TileData × Nat) :=
  let i0 := ((c.op 0).setWidth 32).toInt
  let r0 := ((c.op 0).extractLsb' 32 32).toInt
  match loadEarly c.tid x24 i0 with
  | some code => .error (s, .ends code 0 0)
  | none =>
    match (Run.of s ext).loadRows (c.reader g) c.tid x24 i0 r0 32 with
    | .error e => .error (e.verdict g s s (loadClipped c.tid i0 r0) 2048)
    | .ok (r, d, cl) => .ok (r.s, d, cl)

/-- tld (13: R260): the tile takes its rows and scale bytes as one step. -/
def State.workTld (s : State) (k : Nat) (g : Group) (c : EngCmd) (tile : BitVec 3) (ext : EngineReply) : State × Verdict :=
  match s.load g c false ext with
  | .error x => x
  | .ok (s, d, cl) => (s.modGroup k fun g => g.setTile tile.toNat d, .ends 0 cl 2048)

/-- The panels of a gang's window (13: R261). -/
def State.panelCount (s : State) (launch : Nat) : Nat := ((Table.get? s.launches launch).map fun l => l.record.panels).getD 0

/-- wld (13: R261): the panel is replaced as one step. DESIGN CHOICE (log 86): a slot that the window lacks gives 0x05 whatever the entry holds. -/
def State.workWld (s : State) (g : Group) (c : EngCmd) (x24 : Bool) (ext : EngineReply) : State × Verdict :=
  let slot := (c.op 1).toNat
  if s.panelCount g.id.launch ≤ slot || 512 ≤ slot then (s, .ends 5 0 0)
  else
    match s.load g c x24 ext with
    | .error x => x
    | .ok (s, d, cl) =>
      let p : Panel := { bytes := putBytes [] 0 d.bytes, scales := putBytes [] 0 d.scales, fmt := some (tidFormat c.tid)
                         tid := c.tid, origin := c.op 0, x24 := x24 }
      (s.modGang g.id.gang fun a => { a with panels := Table.set a.panels slot p }, .ends 0 cl 2048)

/-! ## mma (13: R262) -/

/-- The format code of an mma. -/
def mmaCode (f : MmaFmt) : Nat :=
  match f with
  | .f32 => 0 | .f64 => 1 | .f16 => 2 | .bf16 => 3 | .e4m3 => 4 | .e5m2 => 5 | .q4 => 8

/-- Products of a K-group (06: R128). -/
def kGroup (f : MmaFmt) : Nat :=
  match f with
  | .f32 => 4 | .f64 => 1 | .f16 => 16 | .bf16 => 16 | .e4m3 => 32 | .e5m2 => 32 | .q4 => 32

/-- The value of element k of row i of 64-byte rows with scale bytes: a q4 element under its block's byte, another format
under 2^(e - 127) when the command reads scales (13: R262; 06: R118). -/
def edgeElem (bytes scales : Table Byte) (f : MmaFmt) (bs : Bool) (i k : Nat) : FVal :=
  let bits := formatBits (mmaCode f)
  let sc := (Table.getD scales (4 * i + k / 32) 0#8).toNat
  let raw := if bits = 4 then bitsOf (Table.getD bytes (64 * i + k / 2) 0#8).toNat (4 * (k % 2)) 4
    else leNat ((List.range (bits / 8)).map fun b => Table.getD bytes (64 * i + bits / 8 * k + b) 0#8)
  match formatOf (mmaCode f) with
  | none => q4Value sc raw
  | some fmt =>
    if !bs then fmt.decode raw
    else if sc = 255 then .nan
    else (fmt.decode raw).mul (.fin false 1 ((sc : Int) - 127))

/-- The part of a table from lo up to lo + n, renumbered from 0. -/
def windowOf (t : Table Byte) (lo n : Nat) : Table Byte :=
  t.filterMap fun e => if lo ≤ e.1 && e.1 < lo + n then some (e.1 - lo, e.2) else none

/-- The exact products of a run of n elements from k on. -/
def edgeProducts (a b : Nat → FVal) (k n : Nat) : List FVal := (List.range n).map fun j => (a (k + j)).mul (b (k + j))

/-- One f32 accumulator element: K-groups in ascending k (06: R128). -/
def edgeSum (a b : Nat → FVal) (per n k : Nat) (c : BitVec 32) : BitVec 32 :=
  match n with
  | 0 => c
  | m + 1 => edgeSum a b per m (k + per) (windowSum c (edgeProducts a b k per))

/-- One f64 accumulator element: a chain of fused multiply-adds in ascending k (06: R127). -/
def edgeChain (a b : Nat → FVal) (n k : Nat) (c : BitVec 64) : BitVec 64 :=
  match n with
  | 0 => c
  | m + 1 => edgeChain a b m (k + 1) (rnd64 (((a k).mul (b k)).add (val64 c)))

/-- The accumulators after tile x panel has been added (13: R262). -/
def Group.mma (g : Group) (f : MmaFmt) (tile acc : Nat) (bs : Bool) (pb ps : Table Byte) : Group :=
  let tb := windowOf g.regs.tiles (2048 * tile) 2048
  let ts := windowOf g.regs.scales (128 * tile) 128
  let kr := rowElems (formatBits (mmaCode f))
  (List.range 1024).foldl (fun g n =>
    let i := n / 32
    let j := n % 32
    let a := fun k => edgeElem tb ts f bs i k
    let b := fun k => edgeElem pb ps f bs j k
    if f == .f64 then g.setAcc64 acc i j (edgeChain a b kr 0 (g.acc64 acc i j))
    else g.setAcc32 acc i j (edgeSum a b (kGroup f) (kr / kGroup f) 0 (g.acc32 acc i j))) g

/-- The aclk that an mma holds the engine (13: R262). -/
def mmaCost (f : MmaFmt) : Nat := if f == .f32 || f == .f64 then 4 else 2

/-- The scale bytes of a panel never loaded: 1 (13: R261). -/
def blankScales (f : MmaFmt) : Table Byte :=
  (List.range 128).map fun n => (n, if mmaCode f = 8 then 32#8 else 0x7F#8)

/-- mma as its engine takes it: the whole step, and the status code (13: R262; 06: R129). -/
def State.takeMma (s : State) (k : Nat) (g : Group) (c : EngCmd) (f : MmaFmt) (tile acc : BitVec 3) (bs : Bool) : State × Nat :=
  let slot := (c.op 0).toNat
  if s.panelCount g.id.launch ≤ slot || 512 ≤ slot then (s, 5)
  else
    let panel := (Table.get? s.gangs g.id.gang).bind fun a => Table.get? a.panels slot
    let fits := match panel with
      | none => true
      | some p => p.fmt.isNone || p.fmt == some (mmaCode f)
    if !fits then (s, 6)
    else
      let pb := ((panel.map Panel.bytes)).getD []
      let ps := ((panel.map Panel.scales)).getD (blankScales f)
      let s := s.modRegion (s.regionOf g) fun r => { r with matrixUse := r.matrixUse + mmaCost f }
      (s.modGroup k fun g => g.mma f tile.toNat acc.toNat bs pb ps, 0)

/-! ## azero (13: R263) -/

/-- azero (13: R263). -/
def State.workAzero (s : State) (k : Nat) (acc : BitVec 3) (f64 : Bool) : State × Verdict :=
  let n := if f64 then 2048 else 1024
  (s.modGroup k fun g => { g with regs := { g.regs with
    acc := g.regs.acc.filter fun e => e.1 < 1024 * acc.toNat || 1024 * acc.toNat + n ≤ e.1 } }, .ends 0 0 (4 * n))

/-! ## ast (13: R264) -/

/-- The pattern of a value in a format code, integers included (06: R121 to R123). -/
def packCode (code : Nat) (x : FVal) : Nat :=
  match formatOf code with
  | some f => f.round .rne x
  | none =>
    match code with
    | 6 => (roundToInt .rne (-(2 ^ 31)) (2 ^ 31 - 1) x % 2 ^ 32).toNat
    | 7 => (roundToInt .rne 0 (2 ^ 32 - 1) x).toNat
    | 9 => (roundToInt .rne (-128) 127 x % 2 ^ 8).toNat
    | _ => (roundToInt .rne 0 255 x).toNat

/-- The largest finite value of a format. -/
def FloatFmt.maxVal (f : FloatFmt) : FVal := f.decode (f.maxBits false)

/-- Whether a value is a NaN or an infinity. -/
def FVal.special (x : FVal) : Bool :=
  match x with
  | .nan => true
  | .inf _ => true
  | .fin _ _ _ => false

/-- The exponent byte of a .bs block (13: R264). -/
def bsExp (f : FloatFmt) (xs : List FVal) : Nat :=
  if xs.any FVal.special then 255
  else if (magMax xs).cmp (.fin false 0 0) == some .eq then 0
  else
    ((List.range 255).find? fun (e : Nat) =>
      (magMax xs).cmp (f.maxVal.mul (.fin false 1 ((e : Int) - 127))) != some .gt).getD 254

/-- The patterns of a .bs block and its scale byte (13: R264). -/
def bsBlock (f : FloatFmt) (xs : List FVal) : List Nat × Nat :=
  let e := bsExp f xs
  (xs.map fun x => if e = 255 then f.nan else f.round .rne (x.mul (.fin false 1 (127 - (e : Int)))), e)

/-- The value of element (i, j) that ast stores, scaled by 2^x. -/
def Group.astValue (g : Group) (code acc : Nat) (x : Int) (i j : Nat) : FVal :=
  (if code = 1 then val64 (g.acc64 acc i j) else val32 (g.acc32 acc i j)).mul (.fin false 1 x)

/-- The code that ast ends with before it writes anything (13: R250, R264). -/
def astEarly (tid : List Byte) (w : BitVec 64) (acc : Nat) (bs : Bool) : Option Nat :=
  let code := tidFormat tid
  let c0 := (w.setWidth 24).toInt
  if tidMalformed tid || tidKind tid != 0 || (bs && !(code == 2 || code == 3 || code == 4 || code == 5)) then some 4
  else if w.extractLsb' 56 8 ≠ 0#8 then some 5
  else if code = 1 && acc % 2 = 1 then some 6
  else if (code = 8 || bs) && (c0 % 32 != 0 || tidAux tid == 0#64) then some 5
  else none

/-- The patterns of a row's unclipped elements, and its scale byte where the form writes one. -/
def astRow (tid : List Byte) (bs : Bool) (xs : List FVal) : List Nat × Option Nat :=
  if tidFormat tid = 8 then
    let x := q4Block (tidQ4Type tid) xs
    (x.1, some x.2)
  else if bs then
    match formatOf (tidFormat tid) with
    | none => ([], none)
    | some f =>
      let x := bsBlock f xs
      (x.1, some x.2)
  else (xs.map (packCode (tidFormat tid)), none)

/-- Writes a row's patterns from column c on; the half of a q4 byte that belongs to a clipped element is kept. -/
def Run.astWrite (r : Run) (rd : Reader) (tid : List Byte) (c c1 c2 : Nat) (ps : List Nat) : Except Stop (Run × Nat) :=
  let bits := formatBits (tidFormat tid)
  let va := plainAt tid c c1 c2
  let n := (ps.length * bits + 7) / 8
  let v := ps.foldr (fun p v => p + 2 ^ bits * v) 0
  let last := if ps.length * bits % 8 = 0 then Except.ok 0
    else
      match r.s.locate rd kindEngineWrite true (va + BitVec.ofNat 64 (n - 1)) with
      | .error e => .error e
      | .ok (.pa p) => .ok ((r.s.mem.byte p).toNat / 16)
      | .ok (.peer _) => .ok ((r.ext.headD 0#8).toNat / 16)
  match last with
  | .error e => .error e
  | .ok h => (r.write rd true va (leBytes n (v + 2 ^ (8 * n - 4) * h))).map fun r => (r, n)

/-- One row of ast: bytes written and elements clipped. -/
def Run.astRowAt (r : Run) (rd : Reader) (g : Group) (tid : List Byte) (acc : Nat) (bs : Bool) (c0 r0 x : Int) (i : Nat) :
    Except Stop (Run × Nat) :=
  match flatRow tid (r0 + (i : Nat)) with
  | none => .ok (r, 0)
  | some (c1, c2) =>
    let js := (List.range 32).filter fun j => decide (0 ≤ c0 + (j : Nat)) && decide (c0 + (j : Nat) < tidN0 tid)
    match js with
    | [] => .ok (r, 0)
    | j :: _ =>
      let row := astRow tid bs (js.map fun j => g.astValue (tidFormat tid) acc x i j)
      let c := (c0 + (j : Nat)).toNat
      match r.astWrite rd tid c c1 c2 row.1 with
      | .error e => .error e
      | .ok (r, n) =>
        match row.2 with
        | none => .ok (r, n)
        | some e => (r.write rd true (scaleAt tid c c1 c2) [BitVec.ofNat 8 e]).map fun r => (r, n + 1)

/-- The rows of ast from row i on: what has been written, and what stops it. -/
def Run.astRows (r : Run) (rd : Reader) (g : Group) (tid : List Byte) (acc : Nat) (bs : Bool) (c0 r0 x : Int) (n qty : Nat) :
    Run × Nat × Option Stop :=
  match n with
  | 0 => (r, qty, none)
  | m + 1 =>
    match r.astRowAt rd g tid acc bs c0 r0 x (31 - m) with
    | .error e => (r, qty, some e)
    | .ok (r, b) => Run.astRows r rd g tid acc bs c0 r0 x m (qty + b)

/-- The clipped elements of ast. -/
def astClipped (tid : List Byte) (c0 r0 : Int) : Nat :=
  ((List.range 32).map fun i =>
    ((List.range 32).filter fun j =>
      (flatRow tid (r0 + (i : Nat))).isNone || !(decide (0 ≤ c0 + (j : Nat)) && decide (c0 + (j : Nat) < tidN0 tid))).length).foldl
    (· + ·) 0

/-- ast (13: R264). DESIGN CHOICE (log 83): its accesses are made in one step. -/
def State.workAst (s : State) (g : Group) (c : EngCmd) (acc : BitVec 3) (bs : Bool) (ext : EngineReply) : State × Verdict :=
  let w := c.op 0
  match astEarly c.tid w acc.toNat bs with
  | some code => (s, .ends code 0 0)
  | none =>
    let c0 := (w.setWidth 24).toInt
    let r0 := (w.extractLsb' 24 24).toInt
    let x := (Run.of s ext).astRows (c.reader g) g c.tid acc.toNat bs c0 r0
      (w.extractLsb' 48 8).toInt 32 0
    match x.2.2 with
    | none => (x.1.s, .ends 0 (astClipped c.tid c0 r0) x.2.1)
    | some e => e.verdict g s x.1.s (astClipped c.tid c0 r0) x.2.1

end Sys2Proof.Machine
end

