-- ==== Sys2Proof/Machine/Collect.lean ====
section
/-!
DEFINITION. The Blotter, multicast and collectives (13: R265 to R269; 06: R131, R132).
-/

namespace Sys2Proof.Machine

/-! ## The Blotter (13: R265, R266) -/

/-- A Blotter slot of a gang. -/
def Gang.blot (a : Gang) (n : Nat) : BlotSlot := Table.getD a.blots n ⟨0, 0, false, []⟩

/-- blsub (13: R265). -/
def State.workBlsub (s : State) (g : Group) (c : EngCmd) (n : BitVec 8) (slot : BitVec 4) : State × Verdict :=
  match Table.get? s.gangs g.id.gang with
  | none => (s, .wait)
  | some a =>
    let b := a.blot slot.toNat
    let rank := ((c.op 0).extractLsb' 56 8).toNat
    let bad := (b.count != 0 && b.count != n.toNat) || decide (n.toNat ≤ rank) || (Table.get? b.ranks rank).isSome
    let b' : BlotSlot := if bad then { b with failed := true }
      else { b with count := n.toNat, ranks := Table.set b.ranks rank (((c.op 0).setWidth 56).setWidth 64) }
    (s.modGang g.id.gang fun a => { a with blots := Table.set a.blots slot.toNat b' }, .ends (if bad then 9 else 0) 0 0)

/-- A partial record: m, l and o. -/
structure Partial where
  m : BitVec 32
  l : BitVec 32
  o : List (BitVec 32)
  deriving DecidableEq, Repr

/-- A x fA + B x fB, formed exactly and rounded once. -/
def mixParts (a fa b fb : BitVec 32) : BitVec 32 := rnd32 (((val32 a).mul (val32 fa)).add ((val32 b).mul (val32 fb)))

/-- Merge of a lower and a higher side (13: R266). -/
def mergePartials (a b : Partial) : Partial :=
  let nan := BitVec.ofNat 32 f32.nan
  let low := BitVec.ofNat 32 (f32.infBits true)
  let bad := fun (x : BitVec 32) => (val32 x).isNan || x == BitVec.ofNat 32 (f32.infBits false)
  if bad a.m || bad b.m then ⟨nan, nan, a.o.map fun _ => nan⟩
  else
    let m := fminmax true a.m b.m
    if m = low then ⟨low, 0#32, a.o.map fun _ => 0#32⟩
    else
      let factor := fun (x : BitVec 32) =>
        if x = low then 0#32 else rnd32 (val32 (rnd32 ((val32 x).add (val32 m).neg))).exp2
      let fa := factor a.m
      let fb := factor b.m
      ⟨m, mixParts a.l fa b.l fb, (a.o.zip b.o).map fun p => mixParts p.1 fa p.2 fb⟩

/-- 32-bit words of bytes. -/
def words32 (n : Nat) (bs : List Byte) : List (BitVec 32) :=
  (List.range n).map fun j => BitVec.ofNat 32 (leNat ((bs.drop (4 * j)).take 4))

/-- Reads the record at an address (13: R265). -/
def Run.partialAt (r : Run) (rd : Reader) (va : BitVec 64) : Except Stop (Run × Partial) :=
  if va.toNat % 16 ≠ 0 then .error (.fail 5 none)
  else
    match r.read rd kindEngineRead va 16 with
    | .error e => .error e
    | .ok (r, h) =>
      let w := words32 4 h
      let dh := (w.getD 2 0#32).toNat
      if dh = 0 || 256 < dh || w.getD 3 0#32 != 0#32 then .error (.fail 5 none)
      else (r.read rd kindEngineRead (va + 16#64) (4 * dh)).map fun x =>
        (x.1, ⟨w.getD 0 0#32, w.getD 1 0#32, words32 dh x.2⟩)

/-- Reads the records of the listed addresses. -/
def Run.partials (r : Run) (rd : Reader) (vas : List (BitVec 64)) : Except Stop (Run × List Partial) :=
  match vas with
  | [] => .ok (r, [])
  | va :: t =>
    match r.partialAt rd va with
    | .error e => .error e
    | .ok (r, p) => (Run.partials r rd t).map fun x => (x.1, p :: x.2)

/-- The bytes of a record. -/
def Partial.toBytes (p : Partial) : List Byte :=
  leBytes 4 p.m.toNat ++ leBytes 4 p.l.toNat ++ leBytes 4 p.o.length ++ leBytes 4 0 ++ p.o.flatMap fun x => leBytes 4 x.toNat

/-- Collects a full round (13: R266). -/
def State.collect (s : State) (g : Group) (c : EngCmd) (b : BlotSlot) (ext : EngineReply) : State × Verdict :=
  if b.failed then (s, .ends 9 0 0)
  else
    let rd := c.reader g
    match (Run.of s ext).partials rd b.ranks.vals with
    | .error e => e.verdict g s s 0 0
    | .ok (_, []) => (s, .ends 9 0 0)
    | .ok (r, p :: ps) =>
      if ps.any fun q => q.o.length != p.o.length then (s, .ends 9 0 0)
      else if (c.op 0).toNat % 16 ≠ 0 then (s, .ends 5 0 0)
      else
        let res := ps.foldl mergePartials p
        match r.write rd false (c.op 0) res.toBytes with
        | .error e => e.verdict g s s 0 0
        | .ok r => (r.s, .ends 0 b.count (16 + 4 * res.o.length))

/-- Whether a started blcol of the gang took the slot first. -/
def State.blotBehind (s : State) (gang : Nat) (c : EngCmd) : Bool :=
  (s.gangCmds gang).any fun x => x.started && x.ins.engine == 3 && decide (x.stamp < c.stamp) &&
    match x.ins, c.ins with
    | .blcol a _ _, .blcol b _ _ => a == b
    | _, _ => false

/-- blcol (13: R266): waits for its round, collects it, and opens the next round with any code. DESIGN CHOICE (log 83): its accesses are made
in one step. -/
def State.workBlcol (s : State) (g : Group) (c : EngCmd) (slot : BitVec 4) (ext : EngineReply) : State × Verdict :=
  match Table.get? s.gangs g.id.gang with
  | none => (s, .wait)
  | some a =>
    let b := a.blot slot.toNat
    if b.count = 0 || b.ranks.length < b.count || s.blotBehind g.id.gang c then (s, .wait)
    else
      match s.collect g c b ext with
      | (s, .ends code n q) =>
        (s.modGang g.id.gang fun a => { a with blots := Table.set a.blots slot.toNat ⟨b.round + 1, 0, false, []⟩ },
          .ends code n q)
      | (s, .stall va kind) => (s, .stall va kind)
      | (s, .walk slot gen va kind) => (s, .walk slot gen va kind)
      | (s, .wait) => (s, .wait)
      | (s, .value x) => (s, .value x)

/-! ## qcast (13: R267) -/

/-- The address that n bytes at an offset of a role's window go to, or the code of a role that is skipped. -/
def State.castAt (s : State) (g : Group) (role off n : Nat) : Except Nat Nat :=
  let b := s.bindingOf g.id.launch role
  if 256 ≤ role then .error 5
  else if bindKind b ≠ 1 then .error 1
  else if bindWindow b < off + n then .error 5
  else .ok ((if bindTarget b = ownCluster then gangWindowAt g.id.gang else launchWindowAt g.id.launch (bindTarget b)) + off)

/-- Delivers the bytes to one role: its code when it is skipped. -/
def State.castRole (s : State) (g : Group) (role off : Nat) (bs : List Byte) : State × Nat :=
  match s.castAt g role off bs.length with
  | .error code => (s, code)
  | .ok pa => (s.engineStore pa bs, 0)

/-- Whether a store that was performed early keeps the bytes of one of n roles from the engines of a group (04: R90). -/
def State.castBlocked (s : State) (g : Group) (first off len n : Nat) : Bool :=
  (List.range n).any fun i =>
    match s.castAt g (first + i) off len with
    | .error _ => false
    | .ok pa => s.earlyBlocks g.engines true (.home pa) len

/-- Delivers to n roles from the first on: the roles delivered, and the code of the lowest one skipped. -/
def State.castRoles (s : State) (g : Group) (role off : Nat) (bs : List Byte) (n : Nat) : State × Nat × Nat :=
  match n with
  | 0 => (s, 0, 0)
  | m + 1 =>
    let x := s.castRole g role off bs
    let y := State.castRoles x.1 g (role + 1) off bs m
    (y.1, y.2.1 + (if x.2 = 0 then 1 else 0), if x.2 = 0 then y.2.2 else x.2)

/-- qcast (13: R267). DESIGN CHOICE (log 83): its accesses are made in one step. -/
def State.workQcast (s : State) (g : Group) (c : EngCmd) (ext : EngineReply) : State × Verdict :=
  let w := c.op 1
  let len := (w.setWidth 16).toNat
  if w.extractLsb' 55 9 ≠ 0#9 then (s, .ends 5 0 0)
  else
    match (Run.of s ext).read (c.reader g) kindEngineRead (c.op 0) len with
    | .error e => e.verdict g s s 0 0
    | .ok (r, bs) =>
      if r.s.castBlocked g (w.extractLsb' 16 8).toNat (w.extractLsb' 32 23).toNat len (w.extractLsb' 24 8).toNat then (s, .wait)
      else
        let x := r.s.castRoles g (w.extractLsb' 16 8).toNat (w.extractLsb' 32 23).toNat bs (w.extractLsb' 24 8).toNat
        (x.1, .ends x.2.2 x.2.1 (x.2.1 * len))

/-! ## creduce (13: R268, R269) -/

/-- Fields of a descriptor. -/
def redField (d : List Byte) (off n : Nat) : Nat := leNat ((d.drop off).take n)
def redCount (d : List Byte) : Nat := redField d 0x18 4
def redOp (d : List Byte) : Nat := redField d 0x1C 1
def redSource (d : List Byte) : Nat := redField d 0x1D 1 % 16
def redWire (d : List Byte) : Nat := redField d 0x1D 1 / 16
def redDest (d : List Byte) : Nat := redField d 0x1E 1
def redMode (d : List Byte) : Nat := redField d 0x1F 1
def redFirst (d : List Byte) : Nat := redField d 0x20 1
def redRanks (d : List Byte) : Nat := redField d 0x21 1
def redRank (d : List Byte) : Nat := redField d 0x22 1
def redKey (d : List Byte) : Nat := redField d 0x24 4
def redResidual (d : List Byte) : BitVec 64 := BitVec.ofNat 64 (redField d 0x10 8)

/-- Bytes of n elements of a format: a Q4 buffer holds its codes, then its scale bytes. -/
def bufferBytes (code n : Nat) : Nat := if code = 8 then n / 2 + n / 32 else n * (formatBits code / 8)

/-- The code that a descriptor ends with before the rank joins (13: R268, R269). DESIGN CHOICE (log 88): a value out of its range or a
reserved byte gives 0x05 and a format above 10 gives 0x04, and such a rank does not join the collective. -/
def redEarly (d : List Byte) : Option Nat :=
  let q4 := redSource d == 8 || redWire d == 8 || redDest d == 8
  if decide (2 < redOp d) || decide (1 < redMode d) || redRanks d == 0 || decide (255 < redFirst d + redRanks d - 1)
      || decide (redRanks d ≤ redRank d) || redField d 0x23 1 != 0 || redField d 0x28 24 != 0
      || (q4 && redCount d % 32 != 0) then some 5
  else if decide (10 < redSource d) || decide (10 < redWire d) || decide (10 < redDest d)
      || (redResidual d != 0#64 && !(redSource d == 0 && decide (formatBits (redWire d) < 32))) then some 4
  else none

/-- Element e of a buffer of n elements, exactly. -/
def bufferVal (code n : Nat) (bs : List Byte) (e : Nat) : FVal :=
  if code = 8 then
    q4Value ((bs.getD (n / 2 + e / 32) 0#8).toNat) (bitsOf (bs.getD (e / 2) 0#8).toNat (4 * (e % 2)) 4)
  else
    let k := formatBits code / 8
    let v := leNat ((bs.drop (k * e)).take k)
    match formatOf code with
    | some f => f.decode v
    | none => .ofInt (if code = 6 || code = 9 then signedOf k v else v)

/-- The values of a buffer. -/
def bufferVals (code n : Nat) (bs : List Byte) : List FVal := (List.range n).map (bufferVal code n bs)

/-- Values in blocks of 32. -/
def blocksOf (xs : List FVal) (n : Nat) : List (List FVal) := (List.range n).map fun b => (xs.drop (32 * b)).take 32

/-- The bytes of values in a format: one rounding each, or the Q4 block conversion (06: R119, R131). -/
def packBuffer (code : Nat) (xs : List FVal) : List Byte :=
  if code = 8 then
    let bs := (blocksOf xs (xs.length / 32)).map (q4Block Config.collectiveType.toNat)
    (bs.flatMap fun b => leBytes 16 (b.1.foldr (fun p v => p + 16 * v) 0)) ++ bs.map fun b => BitVec.ofNat 8 b.2
  else xs.flatMap fun x => leBytes (formatBits code / 8) (packCode code x)

/-- The contribution of a rank and its new residuals (06: R132). -/
def contributionOf (d : List Byte) (ys res : List FVal) : List Byte × List Byte :=
  let wire := redWire d
  if redResidual d = 0#64 then (packBuffer wire ys, [])
  else
    let ts := (ys.zip res).map fun p => val32 (rnd32 (p.1.add p.2))
    let sent := packBuffer wire ts
    let qs := bufferVals wire ts.length sent
    (sent, (ts.zip qs).flatMap fun p => leBytes 4 (if p.1.special then 0#32 else rnd32 (p.1.add p.2.neg)).toNat)

/-- The residuals that a rank starts from: +0 under another key (13: R269). -/
def Run.residuals (r : Run) (rd : Reader) (d : List Byte) : Except Stop (Run × List FVal) :=
  let n := redCount d
  if redResidual d = 0#64 then .ok (r, [])
  else
    match r.read rd kindEngineRead (redResidual d) 4 with
    | .error e => .error e
    | .ok (r, h) =>
      if leNat h ≠ redKey d then .ok (r, List.replicate n (.fin false 0 0))
      else (r.read rd kindEngineRead (redResidual d + 16#64) (4 * n)).map fun x => (x.1, bufferVals 0 n x.2)

/-- Whether two ranks' parameters agree: count, op, formats, mode, first, n and key (13: R268). -/
def sameParams (a b : List Byte) : Bool :=
  let cut := fun (p : List Byte) => (p.take 6) ++ ((p.drop 7).take 3) ++ ((p.drop 12).take 4)
  cut a == cut b

/-- Whether role first + r of a launch is bound to this device. -/
def State.rankHere (s : State) (launch first r : Nat) : Bool :=
  let b := s.bindingOf launch (first + r)
  bindKind b == 2 && bindTarget b == s.device.toNat

/-- Joins a collective with a contribution (13: R268): the first of its key that this rank has not joined. -/
def State.joinColl (s : State) (k : Nat) (g : Group) (c : EngCmd) (d sent : List Byte) : State :=
  let params := (d.drop 0x18).take 16
  let rank : CollRank := { rank := redRank d, grp := k, seq := c.seq, params, data := sent, left := false }
  let mine := fun (x : Coll) => x.key.toNat == redKey d && x.launch == g.id.launch && !x.ranks.any fun r => r.rank == redRank d
  let bad := !s.rankHere g.id.launch (redFirst d) (redRank d)
  match s.colls.find? mine with
  | some x =>
    let failed := if bad || x.ranks.any fun r => !sameParams r.params params then some 9 else x.failed
    let colls := s.colls.map fun (y : Coll) =>
      if y.round = x.round then { y with ranks := y.ranks ++ [rank], failed := failed } else y
    ({ s with colls := colls } : State).modCmd k c.seq fun y => { y with round := x.round, image := d }
  | none =>
    let n := s.fresh + 1
    let s : State := { s with
      fresh := n
      colls := s.colls ++ [{ key := BitVec.ofNat 32 (redKey d), round := n, launch := g.id.launch, ranks := [rank]
                             failed := if bad then some 9 else none }] }
    s.modCmd k c.seq fun y => { y with round := n, image := d }

/-- Reads the descriptor and the contribution of a rank, and joins. -/
def State.workJoin (s : State) (k : Nat) (g : Group) (c : EngCmd) (ext : EngineReply) : State × Verdict :=
  let rd := c.reader g
  if (c.op 0).toNat % 64 ≠ 0 then (s, .ends 5 0 0)
  else
    match (Run.of s ext).read rd kindEngineRead (c.op 0) 64 with
    | .error e => e.verdict g s s 0 0
    | .ok (r, d) =>
      match redEarly d with
      | some code => (r.s, .ends code 0 0)
      | none =>
        match r.read rd kindEngineRead (BitVec.ofNat 64 (redField d 0 8)) (bufferBytes (redSource d) (redCount d)) with
        | .error e => e.verdict g s s 0 0
        | .ok (r, src) =>
          match r.residuals rd d with
          | .error e => e.verdict g s s 0 0
          | .ok (r, res) =>
            let x := contributionOf d (bufferVals (redSource d) (redCount d) src) res
            (r.s.joinColl k g c d (x.1 ++ x.2), .wait)

/-- The contributions by rank, those of other devices from what they sent: 16 bytes of parameters and the wire bytes each.
none while some rank is missing; a code when they disagree. -/
def State.gather (s : State) (x : Coll) (d : List Byte) (bytes : List Byte) (n r : Nat) :
    Option (Except Nat (List (List Byte))) :=
  match n with
  | 0 => some (.ok [])
  | m + 1 =>
    let len := bufferBytes (redWire d) (redCount d)
    let b := s.bindingOf x.launch (redFirst d + r)
    if bindKind b ≠ 2 then some (.error 1)
    else if bindTarget b = s.device.toNat then
      match x.ranks.find? fun q => q.rank == r with
      | none => none
      | some q => (State.gather s x d bytes m (r + 1)).map fun e => e.map fun l => q.data.take len :: l
    else if bytes.length < 16 + len then none
    else if !sameParams (bytes.take 16) ((d.drop 0x18).take 16) then some (.error 9)
    else
      (State.gather s x d (bytes.drop (16 + len)) m (r + 1)).map fun e => e.map fun l => ((bytes.drop 16).take len) :: l

/-- The smaller or the larger of two values, NaN winning. -/
def pickVal (max : Bool) (a b : FVal) : FVal :=
  if a.isNan || b.isNan then .nan
  else
    let less := match a.cmp b with
      | some .lt => true
      | some .gt => false
      | some .eq => (match a with | .fin neg _ _ => neg | .inf _ => false | .nan => false)
      | none => false
    if less != max then a else b

/-- A contribution taken into the accumulator format of a sum; a minimum and a maximum are exact (06: R131). -/
def takeIn (op wire : Nat) (x : FVal) : FVal :=
  if op = 0 && (wire = 6 || wire = 7) then
    if (val32 (rnd32 x)).cmp x == some .eq then x
    else val32 (Config.intInto32 (wire == 6) (BitVec.ofInt 32 (roundToInt .rne (-(2 ^ 31)) (2 ^ 32 - 1) x)))
  else x

/-- Combines a pair (06: R131). -/
def combine (op : Nat) (acc64 : Bool) (a b : FVal) : FVal :=
  match op with
  | 0 => if acc64 then val64 (rnd64 (a.add b)) else val32 (rnd32 (a.add b))
  | 1 => pickVal false a b
  | _ => pickVal true a b

/-- One level of the canonical tree. -/
def treeLevel (f : FVal → FVal → FVal) (xs : List FVal) : List FVal :=
  match xs with
  | [] => []
  | [x] => [x]
  | a :: b :: r => f a b :: treeLevel f r

/-- The canonical tree (06: R131). -/
def treeFold (f : FVal → FVal → FVal) (fuel : Nat) (xs : List FVal) : FVal :=
  match fuel, xs with
  | _, [x] => x
  | n + 1, xs => treeFold f n (treeLevel f xs)
  | 0, _ => .nan

/-- The result of a collective, in the destination format (06: R131). -/
def reduceAll (d : List Byte) (cs : List (List Byte)) : List Byte :=
  let n := redCount d
  let wire := redWire d
  let vs := cs.map (bufferVals wire n)
  packBuffer (redDest d) ((List.range n).map fun e =>
    treeFold (combine (redOp d) (wire == 1)) 8 (vs.map fun v => takeIn (redOp d) wire (v.getD e .nan)))

/-- A rank's command is over: its collective goes once every rank bound to this device is over. -/
def State.leaveColl (s : State) (x : Coll) (k seq : Nat) : State :=
  let ranks := x.ranks.map fun r => if r.grp = k && r.seq = seq then { r with left := true } else r
  let due := x.ranks.flatMap fun r =>
    (List.range (leNat ((r.params.drop 9).take 1))).filter fun n => s.rankHere x.launch (leNat ((r.params.drop 8).take 1)) n
  let gone := ranks.all CollRank.left && due.all fun n => ranks.any fun r => r.rank == n
  { s with colls := if gone then s.colls.filter fun y => y.round != x.round
      else s.colls.map fun y => if y.round = x.round then { y with ranks } else y }

/-- Writes a rank's result and residuals (13: R269). -/
def Run.deposit (r : Run) (rd : Reader) (d res : List Byte) (out : List Byte) (receives : Bool) : Except Stop Run :=
  let first := if receives then r.write rd false (BitVec.ofNat 64 (redField d 8 8)) out else .ok r
  match first with
  | .error e => .error e
  | .ok r =>
    if redResidual d = 0#64 then .ok r
    else
      match r.write rd false (redResidual d) (leBytes 4 (redKey d)) with
      | .error e => .error e
      | .ok r => r.write rd false (redResidual d + 16#64) res

/-- Whether the device of another rank is lost: an error at once. One later meets the accesses that deposit the result. -/
def lostRank (ext : EngineReply) : Bool := (ext.error.map fun e => e.2 == 0).getD false

/-- The work of a rank that has joined (13: R268, R269). -/
def State.workReduce (s : State) (k : Nat) (g : Group) (c : EngCmd) (ext : EngineReply) : State × Verdict :=
  match s.colls.find? fun x => x.round == c.round with
  | none => (s, .ends 0x0A 0 0)
  | some x =>
    let leave := fun (code : Nat) => (s.leaveColl x k c.seq, Verdict.ends code 0 0)
    match x.failed with
    | some code => leave code
    | none =>
      if lostRank ext then leave 0x0A
      else
        let d := c.image
        match s.gather x d ext.bytes (redRanks d) 0 with
        | none => (s, .wait)
        | some (.error code) => leave code
        | some (.ok cs) =>
          let out := reduceAll d cs
          let receives := redMode d == 0 || redRank d == 0
          let res := match x.ranks.find? fun q => q.rank == redRank d with
            | none => []
            | some q => q.data.drop (bufferBytes (redWire d) (redCount d))
          match (Run.of s { ext with bytes := [], error := ext.error.map fun e => (e.1, e.2 - 1) }).deposit (c.reader g) d res out receives with
          | .error (.fail code err) => ((s.errorNote g err).leaveColl x k c.seq, .ends code 0 0)
          | .error e => e.verdict g s s 0 0
          | .ok r => (r.s.leaveColl x k c.seq, .ends 0 0 (if receives then out.length else 0))

/-- creduce (13: R268). DESIGN CHOICE (log 83): the reads that join are made in one step, and so are the writes that complete. -/
def State.workCreduce (s : State) (k : Nat) (g : Group) (c : EngCmd) (ext : EngineReply) : State × Verdict :=
  if c.round = 0 then s.workJoin k g c ext else s.workReduce k g c ext

end Sys2Proof.Machine
end

