-- ==== Sys2Proof/Machine/Stencil.lean ====
section
/-!
DEFINITION. Moving tensor-identifier entries, the Stencil, and the KV resolver (13: R251, R270 to R273).
-/

namespace Sys2Proof.Machine

/-! ## Tensor identifiers (13: R251) -/

/-- A table of tensor-identifier entries with entry n replaced. -/
def putTid (n : Nat) (bs : List Byte) (t : Table Byte) : Table Byte :=
  ((List.range 64).zip bs).foldl (fun t p => Table.put 0#8 t (64 * n + p.1) p.2) t

/-- The bytes that a tidset replaces its entry by: those it has read, or those it reads and judges now (13: R251). -/
def State.tidImage (s : State) (g : Group) (c : EngCmd) (ext : EngineReply) : Except (State × Verdict) (State × List Byte) :=
  if c.image ≠ [] then .ok (s, c.image)
  else if (c.op 0).toNat % 64 ≠ 0 then .error (s, .ends 5 0 0)
  else
    match (Run.of s ext).read (c.reader g) kindEngineRead (c.op 0) 64 with
    | .error e => .error (e.verdict g s s 0 0)
    | .ok (r, bs) => if tidMalformed bs then .error (r.s, .ends 4 0 0) else .ok (r.s, bs)

/-- tidset (13: R251): with its status every replica holds the new entry. -/
def State.workTidset (s : State) (g : Group) (c : EngCmd) (tid : BitVec 8) (ext : EngineReply) : State × Verdict :=
  match s.tidImage g c ext with
  | .error x => x
  | .ok (s, bs) =>
    (s.modLaunch g.id.launch fun l =>
      { l with tids := putTid tid.toNat bs l.tids, tidAhead := l.tidAhead.filter fun e => e.2.1 != tid.toNat }, .ends 0 0 64)

/-- The replica of a cluster takes the entry of a tidset, which has read its bytes, before the status lands (13: R251; 15: R300). -/
def State.takeReplica (s : State) (k : Nat) (g : Group) (c : EngCmd) (tid : BitVec 8) (cluster : Nat) (ext : EngineReply) : State :=
  match s.tidImage g c ext with
  | .error _ => s
  | .ok (s, bs) =>
    (s.modCmd k c.seq fun x => { x with image := bs }).modLaunch g.id.launch fun l =>
      { l with tidAhead := l.tidAhead ++ [(cluster, tid.toNat, bs)] }

/-- tidget (13: R250, R251). DESIGN CHOICE (log 83): its accesses are made in one step. -/
def State.workTidget (s : State) (g : Group) (c : EngCmd) (ext : EngineReply) : State × Verdict :=
  if tidMalformed c.tid then (s, .ends 4 0 0)
  else if (c.op 0).toNat % 64 ≠ 0 then (s, .ends 5 0 0)
  else
    match (Run.of s ext).write (c.reader g) false (c.op 0) c.tid with
    | .error e => e.verdict g s s 0 0
    | .ok r => (r.s, .ends 0 0 64)

/-! ## The Stencil (13: R270, R271) -/

/-- Reads an n32. -/
def Run.read32 (r : Run) (rd : Reader) (va : BitVec 64) : Except Stop (Run × BitVec 32) :=
  (r.read rd kindEngineRead va 4).map fun x => (x.1, BitVec.ofNat 32 (leNat x.2))

/-- Writes an n32. -/
def Run.write32 (r : Run) (rd : Reader) (va : BitVec 64) (v : BitVec 32) : Except Stop Run :=
  r.write rd false va (leBytes 4 v.toNat)

/-- The address of node i and of bucket b. -/
def nodeAt (tid : List Byte) (i : Nat) : BitVec 64 := tidBase tid + BitVec.ofNat 64 (16 * i)
def bucketAt (tid : List Byte) (b : Nat) : BitVec 64 := tidAux tid + BitVec.ofNat 64 (4 * b)

/-- Walks a bucket: the node found, and the collisions seen. A chain of more nodes than the table holds ends there. -/
def Run.bucket (r : Run) (rd : Reader) (tid : List Byte) (h parent token : BitVec 32) (fuel node : Nat) :
    Except Stop (Run × Option Nat × Nat) :=
  match fuel with
  | 0 => .ok (r, none, 0)
  | n + 1 =>
    if node = 0 then .ok (r, none, 0)
    else
      match r.read rd kindEngineRead (nodeAt tid node) 16 with
      | .error e => .error e
      | .ok (r, bs) =>
        let w := words32 4 bs
        let same := w.getD 2 0#32 == h
        let is := same && w.getD 0 0#32 == parent && w.getD 1 0#32 == token
        (Run.bucket r rd tid h parent token n (w.getD 3 0#32).toNat).map fun x =>
          (x.1, if is then some node else x.2.1, x.2.2 + (if same && !is then 1 else 0))

/-- How far a path has been walked. -/
structure PathWalk where
  r : Run
  h : BitVec 32
  parent : BitVec 32
  collisions : Nat
  fresh : Nat
  matched : Nat
  /-- Ends with this code. -/
  code : Option Nat
  stop : Option Stop

/-- A walk with an access that may stop it. -/
def PathWalk.after (w : PathWalk) (x : Except Stop Run) (k : PathWalk → PathWalk) : PathWalk :=
  match x with
  | .error e => { w with stop := some e }
  | .ok r => k { w with r := r }

/-- Zeros the outputs from k up to the length. -/
def PathWalk.zeroFrom (rd : Reader) (path : BitVec 64) (k n : Nat) (w : PathWalk) : PathWalk :=
  match n with
  | 0 => w
  | m + 1 => w.after (w.r.write32 rd (path + BitVec.ofNat 64 (0x108 + 4 * k)) 0#32) fun w => PathWalk.zeroFrom rd path (k + 1) m w

/-- A new node at the head of its bucket (13: R271). -/
def PathWalk.insert (rd : Reader) (tid : List Byte) (bucket : Nat) (head h token : BitVec 32) (w : PathWalk) : PathWalk × Nat :=
  match w.r.read32 rd (tidBase tid) with
  | .error e => ({ w with stop := some e }, 0)
  | .ok (r, count) =>
    if count.toNat + 1 = tidN0 tid || tidN0 tid = 0 then ({ w with r := r, code := some 8 }, 0)
    else
      let c := count + 1#32
      let bs := leBytes 4 w.parent.toNat ++ leBytes 4 token.toNat ++ leBytes 4 h.toNat ++ leBytes 4 head.toNat
      let w := ({ w with r := r } : PathWalk).after (r.write32 rd (tidBase tid) c) fun w =>
        w.after (w.r.write rd false (nodeAt tid c.toNat) bs) fun w =>
          w.after (w.r.write32 rd (bucketAt tid bucket) c) fun w => { w with fresh := w.fresh + 1 }
      (w, c.toNat)

/-- One token of a path (13: R271). -/
def PathWalk.token (rd : Reader) (tid : List Byte) (path : BitVec 64) (insert : Bool) (len k : Nat) (w : PathWalk) : PathWalk :=
  match w.r.read32 rd (path + BitVec.ofNat 64 (8 + 4 * k)) with
  | .error e => { w with stop := some e }
  | .ok (r, token) =>
    let h := (w.h ^^^ token) * 0x01000193#32
    let b := h.toNat % tidN1 tid
    match r.read32 rd (bucketAt tid b) with
    | .error e => { w with stop := some e }
    | .ok (r, head) =>
      match r.bucket rd tid h w.parent token (tidN0 tid) head.toNat with
      | .error e => { w with stop := some e }
      | .ok (r, found, coll) =>
        let w := { w with r := r, h := h, collisions := w.collisions + coll }
        let out := fun (node : Nat) (w : PathWalk) =>
          w.after (w.r.write32 rd (path + BitVec.ofNat 64 (0x108 + 4 * k)) (BitVec.ofNat 32 node)) fun w =>
            { w with parent := BitVec.ofNat 32 node }
        match found with
        | some node => out node { w with matched := w.matched + 1 }
        | none =>
          if insert then
            let x := w.insert rd tid b head h token
            if x.1.stop.isSome || x.1.code.isSome then x.1 else out x.2 x.1
          else { PathWalk.zeroFrom rd path k (len - k) w with code := some 0 }

/-- The tokens of a path from k on. -/
def PathWalk.path (rd : Reader) (tid : List Byte) (path : BitVec 64) (insert : Bool) (len n : Nat) (w : PathWalk) : PathWalk :=
  match n with
  | 0 => w
  | m + 1 =>
    if w.stop.isSome || w.code.isSome then w
    else PathWalk.path rd tid path insert len m (w.token rd tid path insert len (len - (m + 1)))

/-- The hash that a path starts from (13: R271). -/
def Run.startHash (r : Run) (rd : Reader) (tid : List Byte) (start : Nat) : Except Stop (Run × BitVec 32) :=
  if start = 0 then .ok (r, 0x811C9DC5#32) else r.read32 rd (nodeAt tid start + 8#64)

/-- The collisions of a walk are added to the header, and the status is formed (13: R271). -/
def State.pathEnd (s : State) (rd : Reader) (tid : List Byte) (insert : Bool) (w : PathWalk) : State × Verdict :=
  let qty := if insert then w.fresh else w.matched
  match w.stop with
  | some e => e.verdict rd.g s w.r.s w.collisions qty
  | none =>
    if w.collisions = 0 then (w.r.s, .ends (w.code.getD 0) w.collisions qty)
    else
      match w.r.read32 rd (tidBase tid + 4#64) with
      | .error e => e.verdict rd.g s w.r.s w.collisions qty
      | .ok (r, total) =>
        match r.write32 rd (tidBase tid + 4#64) (total + BitVec.ofNat 32 w.collisions) with
        | .error e => e.verdict rd.g s w.r.s w.collisions qty
        | .ok r => (r.s, .ends (w.code.getD 0) w.collisions qty)

/-- stins and stlook (13: R271). DESIGN CHOICE (log 83): the accesses of one command are made in one step. -/
def State.workPath (s : State) (g : Group) (c : EngCmd) (insert : Bool) (ext : EngineReply) : State × Verdict :=
  let tid := c.tid
  let path := c.op 0
  let rd := c.reader g
  if tidMalformed tid || tidKind tid != 3 then (s, .ends 4 0 0)
  else if path.toNat % 16 ≠ 0 then (s, .ends 5 0 0)
  else
    match (Run.of s ext).read rd kindEngineRead path 8 with
    | .error e => e.verdict g s s 0 0
    | .ok (r, bs) =>
      let len := leNat (bs.take 4)
      let start := leNat (bs.drop 4)
      match r.read32 rd (tidBase tid) with
      | .error e => e.verdict g s s 0 0
      | .ok (r, count) =>
        if len = 0 || 64 < len || (start != 0 && decide (count.toNat ≤ start)) then (r.s, .ends 5 0 0)
        else
          match r.startHash rd tid start with
          | .error e => e.verdict g s s 0 0
          | .ok (r, h) =>
            s.pathEnd rd tid insert (PathWalk.path rd tid path insert len len
              { r, h, parent := BitVec.ofNat 32 start, collisions := 0, fresh := 0, matched := 0, code := none, stop := none })

/-! ## The KV resolver (13: R273) -/

/-- The record of a page: slant base, block, and physical address, tier and code (13: R273). -/
def kvRecord (e : KvEntry) (pa tier code : Nat) : List Byte :=
  leBytes 4 e.slant ++ leBytes 4 e.block ++ leBytes 8 (pa % 2 ^ 52 + tier * 2 ^ 52 + code * 2 ^ 56)

/-- The record of a page that fails: the spec states no physical address for it, so that is a free value (log 8). -/
def Run.failedPage (r : Run) (e : KvEntry) (code : Nat) : Run × List Byte × Bool :=
  ({ r with s := { r.s with open_ := r.s.open_ + 1 } }, kvRecord e (Config.freeValue r.s.open_).toNat e.tier code, true)

/-- Resolves one page: its record and whether it failed. A peer's page is the address that its owner answers. -/
def Run.resolvePage (r : Run) (rd : Reader) (tid : List Byte) (p : Nat) : Except Stop (Run × List Byte × Bool) :=
  match r.kvEntry rd tid p kindEngineRead with
  | .error e => .error e
  | .ok (x, e) =>
    let r := { x with s := x.s.kvSecond rd.g.id.launch e }
    match x.s.kvResolve rd.g.id.launch e with
    | .ok (.here pa) => .ok (r, kvRecord e pa e.tier 0, false)
    | .ok (.peer slot) =>
      match r.enter rd false (some (kvEntryAt tid p)) [.peer slot] with
      | .ok r => .ok ({ r with ext := r.ext.drop 8 }, kvRecord e (leNat (r.ext.take 8)) e.tier 0, false)
      | .error (.fail code err) => .ok (({ r with s := r.s.errorNote rd.g err } : Run).failedPage e code)
      | .error x => .error x
    | .error (.fail code _) => .ok (r.failedPage e code)
    | .error x => .error x

/-- Resolves n pages from page q on: pages resolved and failed (13: R273). -/
def Run.resolvePages (r : Run) (rd : Reader) (tid : List Byte) (out : BitVec 64) (q n : Nat) :
    Run × Nat × Nat × Option Stop :=
  match n with
  | 0 => (r, 0, 0, none)
  | m + 1 =>
    match r.resolvePage rd tid (32 * q) with
    | .error e => (r, 0, 0, some e)
    | .ok (r, bs, bad) =>
      match r.write rd false out bs with
      | .error e => (r, 0, 0, some e)
      | .ok r =>
        let x := Run.resolvePages r rd tid (out + 16#64) (q + 1) m
        (x.1, x.2.1 + (if bad then 0 else 1), x.2.2.1 + (if bad then 1 else 0), x.2.2.2)

/-- kvres (13: R273). DESIGN CHOICE: its accesses are made in one step (log 83), and nonzero bits 63:48 of sd end it with 0x05 (log 89). -/
def State.workKvres (s : State) (g : Group) (c : EngCmd) (ext : EngineReply) : State × Verdict :=
  let n := ((c.op 0).extractLsb' 32 16).toNat
  if tidMalformed c.tid || tidKind c.tid != 1 then (s, .ends 4 0 0)
  else if n = 0 || 4096 < n || (c.op 0).extractLsb' 48 16 ≠ 0#16 then (s, .ends 5 0 0)
  else
    let x := (Run.of s ext).resolvePages (c.reader g) c.tid (c.op 1)
      (((c.op 0).setWidth 32).toNat / 32) n
    match x.2.2.2 with
    | some e => e.verdict g s x.1.s x.2.2.1 x.2.1
    | none => (x.1.s, .ends 0 x.2.2.1 x.2.1)

end Sys2Proof.Machine
end

