-- ==== Sys2Proof/Machine/EngineEvents.lean ====
section
/-!
DEFINITION. The life of an engine command after issue: start, records of a chain, the instant of a PUBL, completion
(13: R247, R255, R256; 05: R101 to R107; 21: R369; 24: R401).
-/

namespace Sys2Proof.Machine

/-- The command at a position of a group. -/
def Group.cmdAt (g : Group) (seq : Nat) : Option EngCmd := g.fl.cmds.find? fun c => c.seq == seq

/-! ## When engines work -/

/-- Whether a PUBL of the gang waits for a command at step 2 (05: R106; 01: R36). -/
def State.publWaits (s : State) (gang : Nat) (c : EngCmd) : Bool :=
  c.ins.shadows && (s.gangCmds gang).any fun p => p.ins.isPubl && p.started && p.ended.isNone && decide (c.stamp < p.stamp)

/-- Whether the gang of a group is being parked by force or is parked (01: R36). -/
def State.gangStopped (s : State) (gang : Nat) : Bool :=
  match Table.get? s.gangs gang with
  | none => false
  | some a => match a.preempt with
    | .none => false
    | .notice _ => false
    | .forced => true
    | .parked => true

/-- Whether a command is a chain that stands between two of its records. -/
def EngCmd.betweenRecords (c : EngCmd) : Bool :=
  match c.ins with
  | .chain _ _ _ => c.image == [] && c.ended.isNone
  | _ => false

/-- Whether a command is an mma. -/
def EngCmd.isMma (c : EngCmd) : Bool :=
  match c.ins with
  | .mma _ _ _ _ _ _ => true
  | _ => false

/-- Whether an engine may take a command on or go on with it: a forced park stops all but an mma in progress, a PUBL at step 2 and the
commands it waits for (01: R36); a freeze stops the commands not started, the chains between records and the commands that have come to a
wait for another party (25: R407). -/
def State.engineRuns (s : State) (g : Group) (c : EngCmd) : Bool :=
  s.host.dev == .running && (!s.dbg.frozen || (c.started && !c.betweenRecords)) && !g.ctl.dead
    && (!g.ctl.saved || c.isReload) && !s.dbg.halted.contains c.stamp
    && (!s.gangStopped g.id.gang || s.publWaits g.id.gang c || (c.started && (c.ins.isPubl || c.isMma)))

/-- Whether a Stencil command stands on the table of another one, which its Stencil has taken: commands on one table are served one at
a time (13: R270). The table of a command is told by the tree that translates it and the table's address. -/
def State.tableTaken (s : State) (g : Group) (c : EngCmd) : Bool :=
  c.ins.engine == 5 &&
    (let tid := s.tidReplica g.id.launch (g.ctl.core / 4) (c.ins.tensor.getD 0)
     s.groups.any fun p => p.2.view.holder == g.view.holder && p.2.fl.cmds.any fun x =>
       x.started && x.ins.engine == 5 && tidBase x.tid == tidBase tid)

/-- Whether the engine is free for a command: the group's earlier commands to it have started, the Broad Edge's have
completed, a channel has no earlier copy or chain of the gang left, a Stencil table is not being served, and the weight-buffer loads that a
resumption has reissued are done (13: R247, R270; 05: R103; 01: R37). -/
def State.engineFree (s : State) (g : Group) (c : EngCmd) : Bool :=
  (g.fl.cmds.all fun x => decide (c.seq ≤ x.seq) || x.ins.engine != c.ins.engine || (x.started && c.ins.engine != 2))
    && (match c.ins.delivers with
        | none => true
        | some ch => !(s.gangCmds g.id.gang).any fun x => x.ins.delivers == some ch && decide (x.stamp < c.stamp))
    && !s.tableTaken g c && (c.ins.engine != 2 || !(s.gangCmds g.id.gang).any EngCmd.isReload)

/-- Whether a command may start, the matrix engine shares apart (13: R247; 05: R101). -/
def State.mayTake (s : State) (g : Group) (c : EngCmd) : Bool :=
  !c.started && s.engineRuns g c && g.released c.seq && !g.heldBehind c.seq && s.engineFree g c

/-- The aclk that the matrix engines of a device have in a window of 4,096 aclk, of which a share counts 1/256 units. DESIGN CHOICE
(log 74): the engines of all its clusters together. -/
def matrixWindow : Nat := 4096 * Config.clusters

/-- Whether the region of a group has used its matrix engine share, at the values in force since the group's last refresh point (01:
R30, R31). -/
def State.matrixUsed (s : State) (g : Group) : Bool := s.shareUsed g.view.matrixShares Region.matrixUse matrixWindow

/-- Whether an mma of a group loses its turn: its region has used its share, and a queue of another region, which has not, waits for the
same engine (01: R31; log 74). -/
def State.turnLost (s : State) (g : Group) (c : EngCmd) : Bool :=
  c.isMma && s.matrixUsed g && s.groups.any fun p =>
    p.2.ctl.core / 4 == g.ctl.core / 4 && s.regionOf p.2 != s.regionOf g && !s.matrixUsed p.2
      && p.2.fl.cmds.any fun x => x.isMma && s.mayTake p.2 x

/-- The queues of a cluster with an mma that may start, by the creation of their groups. -/
def State.mmaQueues (s : State) (cluster : Nat) : List Nat :=
  (s.groups.filter fun p => p.2.ctl.core / 4 == cluster && p.2.fl.cmds.any fun x => x.isMma && s.mayTake p.2 x && !s.turnLost p.2 x).map
    fun p => p.2.id.created

/-- The queue that the Broad Edge of a cluster serves next: round robin, the one after the queue that it served last (13: R262). -/
def State.mmaNext (s : State) (cluster : Nat) : Option Nat :=
  let qs := s.mmaQueues cluster
  let least := fun (xs : List Nat) => xs.foldl (fun b x => some ((b.map (min x)).getD x)) (none : Option Nat)
  match (s.cluster cluster).served with
  | none => least qs
  | some last => (least (qs.filter fun x => decide (last < x))).or (least qs)

/-- Whether a command may start (13: R247, R262; 05: R101; 01: R31). -/
def State.mayStart (s : State) (g : Group) (c : EngCmd) : Bool :=
  s.mayTake g c && !s.turnLost g c && (!c.isMma || s.mmaNext (g.ctl.core / 4) == some g.id.created)

/-- The write pointer of a channel. -/
def State.pointerOf (s : State) (gang ch : Nat) : BitVec 64 :=
  match Table.get? s.gangs gang with
  | none => 0#64
  | some a => Table.getD a.chwp ch 0#64

/-! ## Start -/

/-- A command as its engine takes it: the entry is read; a ring command reaches its ring; chwp reads the pointer; an mma has
its turn (13: R247, R257, R259, R262). -/
def State.start (s : State) (k : Nat) (g : Group) (c : EngCmd) : State :=
  let tid := match c.ins.tensor with
    | none => []
    | some n => s.tidReplica g.id.launch (g.ctl.core / 4) n
  let c' := { c with started := true, tid := tid, pointer := match c.ins.delivers with
    | none => 0
    | some ch => (s.pointerOf g.id.gang ch).toNat }
  let s := s.modCmd k c.seq fun _ => c'
  match c.ins with
  | .chwp _ ch _ _ _ => s.modCmd k c.seq fun x => { x with ended := some (0, (s.pointerOf g.id.gang ch.toNat).toNat) }
  | .rput _ _ _ => { s.modCmd k c.seq fun x => { x with stamp := s.fresh } with fresh := s.fresh + 1 }
  | .rtake _ _ _ => { s.modCmd k c.seq fun x => { x with stamp := s.fresh } with fresh := s.fresh + 1 }
  | .mma f tile acc _ _ bs =>
    let x := s.takeMma k g c' f tile acc bs
    (x.1.modCmd k c.seq fun y => { y with ended := some (x.2, 0) }).modCluster (g.ctl.core / 4) fun x => { x with served := some g.id.created }
  | _ => s

/-- ENGINE_COMMAND_START (13: R247). -/
def execEngineCommandStart (grp seq : Nat) (s : State) : Out :=
  match Table.get? s.groups grp with
  | none => .next s
  | some g =>
    match g.cmdAt seq with
    | none => .next s
    | some c => .next (if s.mayStart g c then s.start grp g c else s)

/-! ## Work and completion -/

/-- What a started command comes to (13: R251 to R273). -/
def State.work (s : State) (k : Nat) (g : Group) (c : EngCmd) (ext : EngineReply) : State × Verdict :=
  match c.ins with
  | .copy _ ch _ _ var => s.workCopy k g c ch var ext
  | .chain _ _ _ =>
    match c.ended with
    | none => (s, .wait)
    | some (code, qty) => (s, .ends code c.records qty)
  | .chwp _ _ _ _ _ => (s, .value (BitVec.ofNat 64 ((c.ended.map Prod.snd).getD 0)))
  | .publ _ _ _ =>
    match c.ended with
    | none => (s, .wait)
    | some (code, v) => (s, .ends code 0 v)
  | .rput ring _ _ => s.workRput g c ring
  | .rtake ring _ _ => s.workRtake g c ring
  | .tld _ tile _ _ => s.workTld k g c tile ext
  | .wld _ _ _ x24 => s.workWld g c x24 ext
  | .mma _ _ _ _ _ _ => (s, .ends ((c.ended.map Prod.fst).getD 0) 0 0)
  | .azero acc _ _ f64 => s.workAzero k acc f64
  | .ast _ acc _ _ bs => s.workAst g c acc bs ext
  | .blsub n slot _ _ => s.workBlsub g c n slot
  | .blcol slot _ _ => s.workBlcol g c slot ext
  | .qcast _ _ => s.workQcast g c ext
  | .creduce _ _ => s.workCreduce k g c ext
  | .tidset tid _ _ => s.workTidset g c tid ext
  | .tidget _ _ _ => s.workTidget g c ext
  | .stins _ _ _ => s.workPath g c true ext
  | .stlook _ _ _ => s.workPath g c false ext
  | .kvres _ _ _ => s.workKvres g c ext
  | _ => (s, .wait)

/-- The trace record of a completion, one in 2^t of those of the partition on the cluster (24: R401). -/
def State.traceCmd (s : State) (g : Group) (c : EngCmd) (x : BitVec 64) : State :=
  match Table.get? s.prof.parts g.view.partition with
  | none => s
  | some p =>
    if !p.on 4 then s
    else
      let cl := g.ctl.core / 4
      let n := Table.getD p.traced cl 0 + 1
      let s := s.modPart g.view.partition fun p => { p with traced := Table.put 0 p.traced cl n }
      if n % 2 ^ p.rate = 0 then
        s.profRecord g.view.partition (s.recordBytes g 3 c.ins.engineCode 0 x (c.word.setWidth 64))
      else s

/-- A value has landed for a pending destination; of a parked group, its context is to hold it (25: R406). -/
def Group.noteLate (g : Group) (slot : Nat) : Group :=
  if g.ctl.act == .parked then { g with fl := { g.fl with late := g.fl.late ++ [slot] } } else g

/-- A command completes: the pins of its answers drop, its word lands, and it leaves the group (13: R247; 21: R369). -/
def State.finishCmd (s : State) (k : Nat) (c : EngCmd) (x : BitVec 64) : State :=
  match Table.get? s.groups k with
  | none => s
  | some g =>
    let h := g.view.holder
    let s := c.answered.foldl (fun s p => s.unpin h p.2) s
    let g' := match c.pend with
      | none => g
      | some slot => (g.landUniform slot x).noteLate slot
    let g' := g'.setCmds (g'.fl.cmds.filter fun y => y.seq != c.seq)
    let g' := { g' with fl := { g'.fl with publ := g'.publNext } }
    let s := match c.ins with
      | .mma _ _ _ _ _ _ => s.tally g.view.partition 0x0D 1
      | _ => s
    if c.isReload then s.setGroup k g' else (s.setGroup k g').traceCmd g c x

/-- A verdict takes effect: the page request of a stalled command is posted, or the walk that it waits for is queued (13: R255; 21:
R363, R369). -/
def State.settleCmd (k : Nat) (g : Group) (c : EngCmd) (x : State × Verdict) : State :=
  match x.2 with
  | .wait => x.1
  | .ends code n q => x.1.finishCmd k c (statusWord code n q)
  | .value v => x.1.finishCmd k c v
  | .stall va kind =>
    let h := g.view.holder
    let slot := ((c.reader g).slotFor (pageOf va)).1
    let r := x.1.postRequest (pageOf va) h slot (slotGen (x.1.slotWord h slot)) kind
    r.1.modCmd k c.seq fun y => { y with req := some r.2 }
  | .walk slot gen va kind =>
    (x.1.queueWalk g.ctl.core (x.1.walkOf g.view.partition g.view.holder slot gen kind false va)).modCmd k c.seq
      fun y => { y with walkOn := some (slot, pageOf va) }

/-- Whether a started command may work now. -/
def State.mayWork (s : State) (g : Group) (c : EngCmd) : Bool :=
  c.started && c.req.isNone && c.walkOn.isNone && s.engineRuns g c

/-- What a peer supplies before it answers. -/
def noReply : EngineReply := { bytes := [], error := none, silent := true }

/-- The stream that a copy channel delivers for a command: that of a copy, or of a record that a chain has read. -/
def EngCmd.stream (c : EngCmd) : Option (Nat × CopyGeo) :=
  match c.ins with
  | .copy _ ch _ _ var => some (ch.toNat, copyGeo var c.tid c.ops)
  | .chain ch _ _ => if c.image = [] || c.ended.isSome then none else c.recordGeo.map fun geo => (ch.toNat, geo)
  | _ => none

/-- The address of byte n of a stream. -/
def CopyGeo.byteAt (c : CopyGeo) (n : Nat) : Nat := (c.to (n / c.unit) + BitVec.ofNat 64 (n % c.unit)).toNat

/-- The first place of a stream, from n on, at which its destination enters another 256-byte block; the end of the stream when none does
(01: R36). -/
def CopyGeo.boundary (c : CopyGeo) (n fuel : Nat) : Nat :=
  match fuel with
  | 0 => n
  | m + 1 => if n = 0 || c.byteAt n / 256 != c.byteAt (n - 1) / 256 then n else CopyGeo.boundary c (n + 1) m

/-- Whether a copy in progress, or a chain's, stands off the 256-byte boundaries of its destination (01: R36 step 2). -/
def EngCmd.midBlock (c : EngCmd) : Bool :=
  match c.stream with
  | none => false
  | some (_, geo) => c.started && c.ended.isNone && decide (c.progress < geo.boundary c.progress (geo.bytes - c.progress))

/-- Whether a park by force stops a copy at its next boundary, which it has still to reach (01: R36 step 2). -/
def State.mayStop (s : State) (g : Group) (c : EngCmd) : Bool :=
  s.host.dev == .running && s.gangStopped g.id.gang && !g.ctl.dead && !g.ctl.saved && c.midBlock && c.req.isNone && c.walkOn.isNone

/-- A copy that a park by force stops is delivered up to its next boundary, with what a peer answers; a failure ends it, and ends the record
of a chain (01: R36 step 2). -/
def State.copyStops (s : State) (k : Nat) (g : Group) (c : EngCmd) (ext : EngineReply) : State × Verdict :=
  match c.stream with
  | none => (s, .wait)
  | some (ch, geo) =>
    let stop := geo.boundary c.progress (geo.bytes - c.progress)
    match c.ins with
    | .chain _ _ _ => (Run.of s ext).recordPart k g c ch geo stop
    | _ => (Run.of s ext).copyPart k g c ch geo stop

/-- ENGINE_COMMAND_COMPLETE (13: R247): the engine does what is left of the command, and its status lands; it stalls for a
page, or goes on waiting for another agent. A copy that a park by force stops goes on to its boundary (01: R36). -/
def execEngineCommandComplete (grp seq : Nat) (ext : EngineReply) (s : State) : Out :=
  match Table.get? s.groups grp with
  | none => .next s
  | some g =>
    match g.cmdAt seq with
    | none => .next s
    | some c =>
      .next (if s.mayWork g c then State.settleCmd grp g c (s.work grp g c ext)
        else if s.mayStop g c then State.settleCmd grp g c (s.copyStops grp g c ext) else s)

/-- CHAIN_RECORD (13: R256): one record of a chain, or what a park by force leaves of it up to a boundary (01: R36). -/
def execChainRecord (grp seq : Nat) (ext : EngineReply) (s : State) : Out :=
  match Table.get? s.groups grp with
  | none => .next s
  | some g =>
    match g.cmdAt seq with
    | none => .next s
    | some c =>
      match c.ins with
      | .chain ch _ _ =>
        .next (if s.mayWork g c && c.ended.isNone then State.settleCmd grp g c (s.workRecord grp g c ch ext)
          else if s.mayStop g c then State.settleCmd grp g c (s.copyStops grp g c ext) else s)
      | _ => .next s

/-- Whether the instant of a PUBL may come (05: R106). -/
def State.mayPublish (s : State) (g : Group) (c : EngCmd) : Bool :=
  c.started && c.ended.isNone && s.engineRuns g c && s.shadowsDone g.id.gang c.stamp

/-- PUBL_INSTANT (05: R106, R107). -/
def execPublInstant (grp seq : Nat) (s : State) : Out :=
  match Table.get? s.groups grp with
  | none => .next s
  | some g =>
    match g.cmdAt seq with
    | none => .next s
    | some c =>
      match c.ins with
      | .publ slot _ _ => .next (if s.mayPublish g c then s.publish grp g c slot.toNat else s)
      | _ => .next s

/-- A copy channel delivers the bytes of a stream up to a place. What hangs on a peer is left to the completion of the command or the
record, which has the peer's answer; so is a failure (log 44). -/
def Run.deliverUpTo (r : Run) (grp : Nat) (g : Group) (c : EngCmd) (ch limit : Nat) (geo : CopyGeo) : State :=
  if geo.early.isSome then r.s
  else
    let x := r.copyTo grp g c ch geo (min geo.bytes limit)
    match x.2.2 with
    | some (.fail _ _) => x.1.s
    | some e => State.settleCmd grp g c (e.verdict g x.1.s x.1.s 0 0)
    | none => x.1.s

/-- A copy channel delivers some bytes of a started copy, or of the record of a chain, which it reads first (05: R103, R104; log 1). -/
def State.deliver (s : State) (grp seq bytes : Nat) : State :=
  match Table.get? s.groups grp with
  | none => s
  | some g =>
    match g.cmdAt seq with
    | none => s
    | some c =>
      if !s.mayWork g c || c.ended.isSome || c.ins.delivers.isNone then s
      else
        let first : Except (State × Verdict) (Run × EngCmd) := match c.ins with
          | .chain _ _ _ => (Run.of s noReply).readRecord grp g c
          | _ => .ok (Run.of s noReply, c)
        match first with
        | .error x => State.settleCmd grp g c x
        | .ok (r, c) =>
          match c.stream with
          | none => r.s
          | some (ch, geo) => r.deliverUpTo grp g c ch (c.progress + bytes) geo

/-- The copies in progress of a group stop at a 256-byte boundary of their destinations, those of chains too, as far as no peer has to answer
(01: R36 step 2). -/
def State.copyToBoundary (s : State) (k : Nat) (g : Group) : State :=
  g.fl.cmds.foldl (fun s c => if s.mayStop g c then State.settleCmd k g c (s.copyStops k g c noReply) else s) s

/-- A replica of a started tidset's entry is replaced before its status lands (15: R300). -/
def State.replicaTurn (s : State) (grp seq cluster : Nat) (ext : EngineReply) : State :=
  match Table.get? s.groups grp with
  | none => s
  | some g =>
    match g.cmdAt seq with
    | none => s
    | some c =>
      match c.ins with
      | .tidset tid _ _ => if s.mayWork g c then s.takeReplica grp g c tid cluster ext else s
      | _ => s

end Sys2Proof.Machine
end

