-- ==== Sys2Proof/Machine/Context.lean ====
section
/-!
DEFINITION. The context of a group in memory: header folio, log folio, vector, tile, accumulator and scale areas and the
engine record; writing it, reading it back, and context faults (02: R44 to R59, R419; 12: R241; 13: R274; 20: R349).
-/

namespace Sys2Proof.Machine

/-! ## Where context bytes lie (02: R44, R53) -/

/-- A context address as the control die translates it for a descriptor or a new context, by the tree itself (20: R349; log 75). -/
def State.ctxDirect (s : State) (g : Group) (va : BitVec 64) : CtxReach :=
  let x := g.ctxSlot (pageOf va)
  let w := s.slotWord g.view.holder x.1
  if x.2 && !slotValid w then .failed else s.ctxJudge x.2 va (walkReach kindContext (s.walk w va))

/-- The physical addresses of the listed addresses, or the first that does not translate. -/
def reachAll (f : BitVec 64 → CtxReach) (vas : List (BitVec 64)) : Except CtxReach (List Nat) :=
  match vas with
  | [] => .ok []
  | va :: r =>
    match f va with
    | .pa n =>
      match reachAll f r with
      | .ok ns => .ok (n :: ns)
      | .error e => .error e
    | .page v => .error (.page v)
    | .walk slot v => .error (.walk slot v)
    | .failed => .error .failed
    | .spoilt p e => .error (.spoilt p e)

/-- ACCESS of a group's own context, for its region's fault domain (02: R53; 02: R46). No instruction traps and no lane enters a
handler; the spec gives no trap PC and no return PC, which are free values (log 8). -/
def ctxTrap (pc ret : BitVec 64) (addr : BitVec 64) : TrapReq where
  code := codeAccess
  pc := pc.setWidth 56
  ret := ret.setWidth 56 &&& ~~~ 3#56
  word := 0
  mask := 0
  failed := 0
  info := 0
  addr := addr
  imm := 0
  cur := 0
  rank := 0

/-! ## Folios and areas (02: R45) -/

/-- Vector folios: ceil(V / 32). -/
def Alloc.folios (a : Alloc) : Nat := (a.v + 31) / 32

/-- Offset of the tile area. -/
def Alloc.tileArea (a : Alloc) : Nat := 0x2000 + 4096 * a.folios

/-- C, the bytes of a context (02: R44). -/
def contextBytes (a : Alloc) (d : Duty) : Nat := a.tileArea + (if d == .matrix then 0xD000 else 0)

/-- Bytes at an offset of the context. -/
abbrev Piece := Nat × List Byte

/-- The folios that pieces touch, as offsets. -/
def foliosOf (ps : List Piece) : List Nat :=
  (ps.flatMap fun p => [p.1 / 4096, (p.1 + p.2.length - 1) / 4096]).eraseDups

/-- The physical address of a context offset, given its folios' addresses. -/
def folioPa (fs ns : List Nat) (off : Nat) : Nat :=
  (((fs.zip ns).find? fun p => p.1 == off / 4096).map Prod.snd).getD 0 + off % 4096

/-- The first error response that an access to bytes of the context meets at its home (05: R98; log 77). -/
def State.ctxSpoilt (s : State) (write : Bool) (xs : List (Nat × Nat)) : Option CtxReach :=
  xs.findSome? fun x => (s.spoilt x.1 x.2 write).map fun e => .spoilt x.1 e

/-- Bytes of a group's context are stored; those in a CXL window are counted (24: R398). -/
def State.ctxStore (s : State) (g : Group) (pa : Nat) (bs : List Byte) : State := (s.countCxl g pa bs.length false true).storeBytes pa bs

/-- Writes pieces of the context by a translation; each lies in one folio. With one error response none is written. -/
def State.ctxPut (s : State) (f : BitVec 64 → CtxReach) (g : Group) (ps : List Piece) : Except CtxReach State :=
  let fs := foliosOf ps
  match reachAll f (fs.map fun n => g.ctl.ctx + BitVec.ofNat 64 (4096 * n)) with
  | .error e => .error e
  | .ok ns =>
    match s.ctxSpoilt true (ps.map fun p => (folioPa fs ns p.1, p.2.length)) with
    | some e => .error e
    | none => .ok (ps.foldl (fun s p => s.ctxStore g (folioPa fs ns p.1) p.2) s)

/-- A core writes pieces of the context. -/
def State.ctxWrite (s : State) (g : Group) (ps : List Piece) : Except CtxReach State := s.ctxPut (s.ctxReach g) g ps

/-- Writes the pieces whose folios translate (02: R53). -/
def State.ctxWriteSome (s : State) (g : Group) (ps : List Piece) : State :=
  ps.foldl (fun t p =>
    match s.ctxReach g (g.ctl.ctx + BitVec.ofNat 64 (4096 * (p.1 / 4096))) with
    | .pa n => if (t.spoilt (n + p.1 % 4096) p.2.length true).isSome then t else t.ctxStore g (n + p.1 % 4096) p.2
    | .page _ => t
    | .walk _ _ => t
    | .failed => t
    | .spoilt _ _ => t) s

/-- Reads n bytes at an offset of the context, within one folio. -/
def State.ctxRead (s : State) (g : Group) (off n : Nat) : Except CtxReach (List Byte) :=
  match s.ctxReach g (g.ctl.ctx + BitVec.ofNat 64 off) with
  | .pa p =>
    (match s.ctxSpoilt false [(p, n)] with
      | some e => .error e
      | none => .ok (s.mem.bytes p n))
  | .page v => .error (.page v)
  | .walk slot v => .error (.walk slot v)
  | .failed => .error .failed
  | .spoilt p e => .error (.spoilt p e)

/-- Reads of n bytes at an offset of the context are counted, when they go to a CXL window (24: R398). -/
def State.countCtx (s : State) (g : Group) (off n : Nat) : State :=
  match s.ctxReach g (g.ctl.ctx + BitVec.ofNat 64 off) with
  | .pa p => s.countCxl g p n true false
  | _ => s

/-- Whether a context access has failed for good, so that the fault domain decides (02: R53; log 77). -/
def CtxReach.fails (e : CtxReach) : Bool :=
  match e with
  | .pa _ => false
  | .page _ => false
  | .walk _ _ => false
  | .failed => true
  | .spoilt _ _ => true

/-- Whether a write of pieces of the context fails for good. -/
def State.ctxFails (s : State) (g : Group) (ps : List Piece) : Bool :=
  match s.ctxWrite g ps with
  | .ok _ => false
  | .error e => e.fails

/-! ## Header folio (02: R46, R47; 12: R241) -/

/-- The allocation word (02: R47). -/
def allocWord (a : Alloc) (d : Duty) : Nat :=
  (match d with | .copy => 0 | .matrix => 1 | .vector => 2) * 2 ^ 32 + a.a * 2 ^ 24 + a.t * 2 ^ 16 + a.s / 8 * 2 ^ 8 + a.v / 8

/-- The 64 bytes of the trap state (12: R241). -/
def TrapState.toBytes (t : TrapState) : List Byte :=
  leBytes 8 t.trapWord.toNat ++ leBytes 8 t.pc.toNat ++ leBytes 8 t.ret.toNat ++ leBytes 4 t.word.toNat ++ leBytes 4 t.mask.toNat
    ++ leBytes 4 t.failed.toNat ++ leBytes 4 t.info.toNat ++ leBytes 8 t.addr.toNat ++ leBytes 8 t.cur.toNat ++ leBytes 8 0

/-- The trap record of a group's own context goes into its header, when the header folio translates (02: R46, R53); the rest of the
header stands. -/
def State.recordTrap (s : State) (k : Nat) : State :=
  match Table.get? s.groups k with
  | none => s
  | some g =>
    match s.ctxPut (s.ctxDirect g) g [(0x180, g.tr.st.toBytes)] with
    | .ok s => s
    | .error _ => s

/-- ACCESS of a group's own context goes to the fault domain; the address is the header offset of a malformed header (02:
R46), and no rule states another (log 8). -/
def State.ctxDomain (s : State) (k : Nat) (off : Option Nat) : State :=
  let addr := match off with
    | some n => BitVec.ofNat 64 n
    | none => Config.freeValue (s.open_ + 2)
  let t := ctxTrap (Config.freeValue s.open_) (Config.freeValue (s.open_ + 1)) addr
  (({ s with open_ := s.open_ + 3 } : State).toFaultDomain k t).recordTrap k

/-- A context waits for the walk of a page (02: R53; 21: R363). -/
def State.ctxWalk (s : State) (k : Nat) (g : Group) (slot : Nat) (va : BitVec 64) : State :=
  let h := g.view.holder
  let mine := (slot, pageOf va)
  (s.queueWalk g.ctl.core (s.walkOf g.view.partition h slot (slotGen (s.slotWord h slot)) kindContext false va)).modGroup k fun g =>
    { g with ctl := { g.ctl with ctxWalkOn := if g.ctl.ctxWalkOn.contains mine then g.ctl.ctxWalkOn else g.ctl.ctxWalkOn ++ [mine] } }

/-- A context fault (02: R53): a walk, a page request of kind context, or, for a failure, ACCESS to the fault domain. -/
def State.ctxFault (s : State) (k : Nat) (g : Group) (e : CtxReach) : State :=
  match e with
  | .pa _ => s
  | .walk slot va => s.ctxWalk k g slot va
  | .page va =>
    let r := s.postRequest (pageOf va) g.view.holder g.pinSlot g.pinGen kindContext
    r.1.modGroup k fun g => { g with ctl := { g.ctl with
      ctxReqs := if g.ctl.ctxReqs.contains (pageOf va, r.2) then g.ctl.ctxReqs else g.ctl.ctxReqs ++ [(pageOf va, r.2)]
      ctxWalked := g.ctl.ctxWalked.filter fun y => y.2.1 != pageOf va } }
  | .failed => s.ctxDomain k none
  | .spoilt pa e => (s.homeViolation pa e id).ctxDomain k none

/-- The context fault of a group takes an answer (02: R53, 21: R367). -/
def State.answerCtx (s : State) (k id page : Nat) (slot : Option Nat) : State :=
  match Table.get? s.groups k with
  | none => s
  | some g =>
    if !(g.ctl.ctxReqs.any fun p => p.2 == id) then s
    else
      let g' := { g with ctl := { g.ctl with ctxReqs := g.ctl.ctxReqs.filter fun p => p.2 != id } }
      match slot with
      | some n => s.setGroup k { g' with ctl := { g'.ctl with ctxAns := g'.ctl.ctxAns ++ [(page, n)] } }
      | none => (s.setGroup k g').ctxDomain k none

/-- Bytes of 32 lanes, n each. -/
def perLane (n : Nat) (f : Nat → Nat) : List Byte := (List.range 32).flatMap fun l => leBytes n (f l)

/-- The operand-log descriptor of an operation (02: R55): every lane of the set of an sld or sst waits for its one translation. -/
def MemOp.descriptor (o : MemOp) : List Byte :=
  let waits := if o.uniform then (if o.accs.any fun a => !a.st.known then o.set else 0#32)
    else maskOf fun l => o.accs.any fun a => a.lane == l && !a.st.known
  let failed := o.accs.any fun a => a.st.isFailed
  leBytes 8 (1 + 4 * failed.toNat) ++ leBytes 4 o.word.toNat ++ leBytes 8 o.pc.toNat ++ leBytes 8 o.base.toNat
    ++ leBytes 4 waits.toNat

/-- The operation in log entry e. -/
def Group.logged? (g : Group) (e : Nat) : Option MemOp := g.fl.ops.find? fun o => o.log == some e

/-- A pending descriptor (02: R56). -/
def Pend.descriptor (p : Pend) : Nat :=
  1 + 2 * p.landed.toNat + 4 * p.width.log2 + 16 * p.remaining + 256 * p.reg + 2 ^ 16 * p.line + 2 ^ 19 * p.uniform.toNat

/-- The pieces of the header folio without the engine record (02: R46); unused ranges are not written. -/
def Group.headerPieces (g : Group) : List Piece :=
  [(0x000, perLane 8 fun l => if has g.live l then (g.pc l).toNat else 0),
   (0x100, perLane 2 fun l => (g.cond l).toNat),
   (0x140, leBytes 8 g.regs.ucc.toNat ++ leBytes 8 g.regs.xi.toNat
      ++ leBytes 8 (g.ctl.present.toNat + 2 ^ 32 * g.ctl.exited.toNat) ++ leBytes 8 (allocWord g.id.alloc g.id.duty)
      ++ leBytes 8 g.ctl.cls.toNat ++ leBytes 8 (g.pinSlot + 2 ^ 16 * g.pinGen.toNat) ++ leBytes 8 g.fl.hash.toNat),
   (0x180, g.tr.st.toBytes),
   (0x200, (List.range 63).flatMap fun n => leBytes 8 (g.sreg n).toNat),
   (0x400, (List.range 4).flatMap fun e => match g.logged? e with
      | none => List.replicate 32 0#8
      | some o => o.descriptor),
   (0x480, (List.range 8).flatMap fun p => leBytes 8 (((Table.get? g.fl.pend p).map Pend.descriptor).getD 0)),
   (0x4C0, perLane 4 fun l => (Table.getD g.ctl.counts l 0#24).toNat)]

/-! ## Log folio (02: R48) -/

/-- The lane offset of an access of an operation: a token position for LDK. DESIGN CHOICE (log 75): a lane without an access has 0. -/
def MemOp.offset (o : MemOp) (l : Nat) : Nat :=
  if o.kind == .ldk then ((o.kv.find? fun x => x.lane == l).map KvLane.pos).getD 0 % 2 ^ 32
  else
    match o.accs.find? fun a => a.lane == l && a.off == 0 with
    | none => 0
    | some a => ((a.va - o.base).setWidth 32).toNat

/-- Word j of a lane's source data: store data in address order, the operand of an atomic, or the compare and the new value
of a CAS; a load has none. DESIGN CHOICE (log 75): what has no source data holds 0. -/
def MemOp.source (o : MemOp) (l j : Nat) : Nat :=
  let at8 := fun (off : Nat) => ((o.accs.find? fun a => a.lane == l && a.off == off).map fun a => a.data.toNat).getD 0
  let half := bitsOf (at8 (8 * (j / 2))) (32 * (j % 2)) 32
  match o.kind with
  | .cas n =>
    match o.accs.find? fun a => a.lane == l with
    | none => 0
    | some a => if n = 8 then (if j < 2 then bitsOf a.cmp.toNat (32 * j) 32 else bitsOf a.data.toNat (32 * (j - 2)) 32)
        else if j = 0 then a.cmp.toNat % 2 ^ 32 else if j = 1 then a.data.toNat % 2 ^ 32 else 0
  | .store _ => half
  | .atom _ _ => half
  | .fadd _ => half
  | .load _ _ => 0
  | .ldk => 0
  | .fence _ => 0

/-- The lane of an operation whose data stands at place l of the entry's lines: DESIGN CHOICE (log 75): the one access of an sld or sst
stands at place 0. -/
def MemOp.placeLane (o : MemOp) (l : Nat) : Nat := if o.uniform && l = 0 then uniformLane else l

/-- The pieces of the log folio. -/
def Group.logPieces (g : Group) : List Piece :=
  ((List.range 4).filterMap fun e => (g.logged? e).map fun o =>
    (0x1000 + 640 * e, perLane 4 (fun l => o.offset (o.placeLane l)) ++ (List.range 4).flatMap fun j =>
      perLane 4 fun l => o.source (o.placeLane l) j))
    ++ [(0x1A00, (List.range 8).flatMap fun m => perLane 4 fun k => (g.landingWord m k).toNat)]

/-! ## Vector lines, tiles and the engine record (02: R45; 13: R274) -/

/-- The piece of a vector line. -/
def Group.linePiece (g : Group) (n : Nat) : Piece := (0x2000 + 128 * n, perLane 4 fun l => (g.vreg n l).toNat)

/-- The pieces of the vector lines that are in the core and dirty (02: R50, R51); the lines beyond V of the vector area are dirty after the
group's creation, and hold zeros (02: R49). -/
def Group.vectorPieces (g : Group) : List Piece :=
  ((List.range (32 * g.id.alloc.folios)).filter fun n => g.ctl.dirty.contains n && !g.ctl.missing.contains n).map g.linePiece

/-- The bytes of a table from lo on, n of them. -/
def bytesFrom (t : Table Byte) (lo n : Nat) : List Byte := (List.range n).map fun i => Table.getD t (lo + i) 0#8

/-- The pieces of the tile, accumulator and tile scale areas, folio by folio (02: R45). -/
def Group.tilePieces (g : Group) : List Piece :=
  if g.id.duty != .matrix then []
  else
    let t0 := g.id.alloc.tileArea
    ((List.range 4).map fun f => (t0 + 4096 * f, bytesFrom g.regs.tiles (4096 * f) 4096))
      ++ ((List.range 8).map fun n => (t0 + 0x4000 + 4096 * n,
        (List.range 1024).flatMap fun w => leBytes 4 (Table.getD g.regs.acc (1024 * n + w) 0#32).toNat))
      ++ [(t0 + 0xC000, bytesFrom g.regs.scales 0 1024 ++ List.replicate 3072 0#8)]

/-- An entry of the engine record (13: R274). -/
def EngCmd.entry (c : EngCmd) : List Byte :=
  leBytes 8 (c.word.toNat + 2 ^ 62 * c.started.toNat + 2 ^ 63)
    ++ ((List.range 4).flatMap fun j => leBytes 8 (c.op j).toNat)
    ++ leBytes 8 (match c.ins with | .chain _ _ _ => c.records | _ => c.progress)
    ++ leBytes 8 (match c.ins with | .copy _ _ _ _ _ => c.pointer | _ => 0) ++ leBytes 8 0

/-- The engine record: 16 entries in issue order. -/
def Group.enginePiece (g : Group) : Piece :=
  (0x800, ((List.range 16).flatMap fun i => match g.issued[i]? with
    | none => List.replicate 64 0#8
    | some c => c.entry))

/-! ## Values that land in a parked context (25: R406) -/

/-- The pieces of the context that hold the values which have landed since the park, given the pending descriptors as they stand there: the
landing lines and the landed bit. One that software has cleared takes none (02: R419). -/
def Group.latePieces (g : Group) (desc : Nat → Nat) : List Piece :=
  g.fl.late.flatMap fun p =>
    match Table.get? g.fl.pend p with
    | none => []
    | some q =>
      if desc p % 2 = 0 then []
      else (0x480 + 8 * p, leBytes 1 (desc p ||| 2)) :: (List.range q.width).map fun j =>
        (0x1A00 + 128 * (q.line + j), perLane 4 fun k => (g.landingWord (q.line + j) k).toNat)

/-- Writes those values. -/
def State.putLate (s : State) (f : BitVec 64 → CtxReach) (g : Group) : Except CtxReach State :=
  match f g.ctl.ctx with
  | .pa n =>
    match s.ctxSpoilt false [(n + 0x480, 64)] with
    | some e => .error e
    | none => s.ctxPut f g (g.latePieces fun p => (s.mem.byte (n + 0x480 + 8 * p)).toNat)
  | e => .error e

/-! ## Descriptor (20: R349) -/

/-- The state field of a group descriptor. -/
def Group.descState (g : Group) : Nat :=
  match g.ctl.act with
  | .active => 0
  | .parking => 1
  | .parked => 2

/-- The RO fields of a group descriptor, from offset 0x08 on. -/
def State.descBytes (s : State) (g : Group) (stack : Nat) : List Byte :=
  let q := s.launchOf g
  leBytes 8 stack ++ leBytes 8 g.descState ++ leBytes 8 (q.1 + 2 ^ 16 * q.2) ++ leBytes 8 (s.gangidOf g)
    ++ leBytes 8 (s.workgroupId g % 2 ^ 32 + 2 ^ 32 * (g.id.grpid % 16) + 2 ^ 36 * (g.ctl.core / 4) + 2 ^ 45 * (g.ctl.core % 4))
    ++ leBytes 8 (s.workgroupId g) ++ leBytes 8 0

/-- The physical address of a group's descriptor, while its page is mapped. -/
def State.descPa (s : State) (g : Group) : Option Nat :=
  match s.ctxDirect g (BitVec.ofNat 64 g.id.desc) with
  | .pa n => some n
  | .page _ => none
  | .walk _ _ => none
  | .failed => none
  | .spoilt _ _ => none

/-- Guard and stack bytes of a frame (20: R349). -/
def stackBytes (r : Record) : Nat := (32 * r.laneStack + r.uniStack + 0xFFFF) / 0x10000 * 0x10000
def guardBytes (r : Record) : Nat := if stackBytes r = 0 then 0 else 0x10000

/-- The stack block base of a group; 0 when the record asks for no stack (19: R326). -/
def State.stackBase (s : State) (g : Group) : Nat :=
  match Table.get? s.launches g.id.launch with
  | none => 0
  | some l => if stackBytes l.record = 0 then 0 else g.id.frame + guardBytes l.record

/-- The device rewrites the RO fields of a group's descriptor (20: R349). -/
def State.putDescriptor (s : State) (k : Nat) : State :=
  match Table.get? s.groups k with
  | none => s
  | some g =>
    match s.descPa g with
    | none => s
    | some p => s.deviceStore (p + 8) (s.descBytes g (s.stackBase g))

/-- The context of a group where its descriptor places it now (02: R54). -/
def State.readCtx (s : State) (g : Group) : Except CtxReach Group :=
  match s.ctxDirect g (BitVec.ofNat 64 g.id.desc) with
  | .pa d =>
    match s.ctxSpoilt false [(d, 8)] with
    | some e => .error e
    | none => .ok { g with ctl := { g.ctl with ctx := s.mem.w64 d } }
  | e => .error e

/-- The values that have landed for a parked group go into its context; while that does not take them, they wait for the group's activation
(25: R406). -/
def State.landLate (s : State) (k : Nat) : State :=
  match Table.get? s.groups k with
  | none => s
  | some g =>
    if g.fl.late.isEmpty || g.ctl.act != .parked || g.ctl.dead then s
    else
      match s.readCtx g with
      | .error _ => s
      | .ok g1 =>
        match s.putLate (s.ctxDirect g1) g1 with
        | .error _ => s
        | .ok s => s.modGroup k fun g => { g with fl := { g.fl with late := [] } }

/-! ## Saving (01: R20, R36) -/

/-- What the device writes of a new context: the header folio with its engine record, and, of a group created parked, zeros over the
vector area (02: R49). -/
def Group.firstPieces (g : Group) (active : Bool) : List Piece :=
  g.headerPieces ++ [g.enginePiece] ++ (if active then [] else (List.range (32 * g.id.alloc.folios)).map g.linePiece)

/-- The pieces of a park: header, log and vector lines, and of a group that was created parked those of a new context; a forced one adds
tiles and the engine record. -/
def Group.parkPieces (g : Group) (forced : Bool) : List Piece :=
  (match g.ctl.act, g.ctl.cause with
    | .parked, _ => []
    | .parking, .created => g.firstPieces false
    | _, _ => g.headerPieces ++ g.logPieces ++ g.vectorPieces)
    ++ (if forced then g.tilePieces ++ [g.enginePiece] else [])

/-! ## Reading back (02: R46, R51, R53, R419) -/

/-- The fields of the header folio at a park, as bytes by offset. -/
abbrev Folio := List Byte

/-- n bytes at an offset of a folio as a number. -/
def at_ (f : Folio) (off n : Nat) : Nat := leNat ((f.drop off).take n)

/-- The offset of the first reserved bit of the header that is set (02: R46, R47; 12: R241; 02: R55, R56); none when all
are zero. -/
def headerBad (f : Folio) : Option Nat :=
  let checks : List (Nat × Bool) :=
    (((List.range 32).map fun l => (8 * l, at_ f (8 * l + 7) 1 != 0)) ++
      [(0x140, at_ f 0x140 8 / 16 != 0), (0x148, at_ f 0x148 8 / 256 != 0), (0x160, at_ f 0x160 8 / 4 != 0),
       (0x180, bitsOf (at_ f 0x180 8) 11 5 != 0 || at_ f 0x180 8 / 2 ^ 28 != 0),
       (0x188, at_ f 0x18F 1 != 0), (0x190, at_ f 0x197 1 != 0 || at_ f 0x190 1 % 4 != 0), (0x1A4, at_ f 0x1A4 4 / 32 != 0),
       (0x1B8, at_ f 0x1B8 8 != 0)]) ++
      ((List.range 4).map fun e => (0x400 + 32 * e,
        bitsOf (at_ f (0x400 + 32 * e) 8) 1 1 != 0 || at_ f (0x400 + 32 * e) 8 / 8 != 0 || at_ f (0x413 + 32 * e) 1 != 0)) ++
      ((List.range 32).map fun l => (0x4C0 + 4 * l, at_ f (0x4C3 + 4 * l) 1 != 0))
  (checks.find? Prod.snd).map Prod.fst

/-- A pending destination that software has made: it is of every lane, and nothing lands in it (log 75). -/
def Pend.made : Pend where
  uniform := false
  reg := 0
  width := 1
  line := 0
  set := BitVec.allOnes 32
  lanes := BitVec.allOnes 32
  remaining := 0
  landed := false

/-- A pending descriptor as it stands in the header (02: R56, R419). -/
def pendFrom (v : Nat) (old : Pend) : Pend :=
  { old with uniform := v.testBit 19, line := bitsOf v 16 3, reg := bitsOf v 8 8, remaining := bitsOf v 4 4
             width := 2 ^ bitsOf v 2 2 }

/-- Whether the register of a pending destination breaks the alignment or the bounds of 02: R43. -/
def Pend.misplaced (p : Pend) (a : Alloc) : Bool :=
  p.reg % p.width != 0 || (if p.uniform then decide (min a.s 63 < p.reg + p.width) else decide (min a.v 255 < p.reg + p.width))

/-- Whether a descriptor is ill formed by itself (02: R419). DESIGN CHOICE (log 75): one that is not valid is checked for its reserved
bits only. -/
def pendBad (v : Nat) (old : Option Pend) (a : Alloc) : Bool :=
  v / 2 ^ 20 != 0 ||
  (v % 2 == 1 &&
    (let p := pendFrom v Pend.made
     decide (bitsOf v 2 2 = 3) || decide (8 < p.line + p.width) || v.testBit 1 != (old.map Pend.landed).getD false || p.misplaced a))

/-- Whether two valid descriptors share a landing line. -/
def pendShare (vs : List Nat) (i : Nat) : Bool :=
  let p := pendFrom (vs.getD i 0) Pend.made
  vs.getD i 0 % 2 == 1 && (List.range 8).any fun j =>
    let q := pendFrom (vs.getD j 0) Pend.made
    j != i && vs.getD j 0 % 2 == 1 && decide (p.line < q.line + q.width) && decide (q.line < p.line + p.width)

/-- The offset of the first ill-formed pending descriptor (02: R419). -/
def pendsBad (f : Folio) (g : Group) : Option Nat :=
  let vs := (List.range 8).map fun p => at_ f (0x480 + 8 * p) 8
  ((List.range 8).find? fun p => pendBad (vs.getD p 0) (Table.get? g.fl.pend p) g.id.alloc || pendShare vs p).map
    fun p => 0x480 + 8 * p

/-- The offset of the first engine entry that was altered other than by clearing valid (13: R274). -/
def enginesBad (f : Folio) (g : Group) : Option Nat :=
  ((List.range 16).find? fun i =>
    let now := (f.drop (0x800 + 64 * i)).take 64
    match g.issued[i]? with
    | none => leNat now != 0
    | some c =>
      let was := c.entry
      now != was && leNat now + 2 ^ 63 != leNat was).map fun i => 0x800 + 64 * i

/-- The commands whose valid bit the driver cleared (13: R274). -/
def enginesDropped (f : Folio) (g : Group) : List EngCmd :=
  (List.range 16).filterMap fun i =>
    match g.issued[i]? with
    | none => none
    | some c => if bitsOf (at_ f (0x800 + 64 * i) 8) 63 1 = 0 then some c else none

/-- The trap state that a header holds (12: R241). -/
def trapFrom (f : Folio) : TrapState where
  code := BitVec.ofNat 8 (at_ f 0x180 1)
  active := (at_ f 0x180 8).testBit 8
  resume := (at_ f 0x180 8).testBit 9
  held := (at_ f 0x180 8).testBit 10
  imm := BitVec.ofNat 12 (at_ f 0x182 2)
  pc := BitVec.ofNat 56 (at_ f 0x188 8)
  ret := BitVec.ofNat 56 (at_ f 0x190 8)
  word := BitVec.ofNat 32 (at_ f 0x198 4)
  mask := BitVec.ofNat 32 (at_ f 0x19C 4)
  failed := BitVec.ofNat 32 (at_ f 0x1A0 4)
  info := BitVec.ofNat 32 (at_ f 0x1A4 4)
  addr := BitVec.ofNat 64 (at_ f 0x1A8 8)
  cur := BitVec.ofNat 56 (at_ f 0x1B0 8)

/-- A table of n entries read from a folio, its zeros left out. -/
def tableFrom {w : Nat} (f : Folio) (off size n : Nat) : Table (BitVec w) :=
  (List.range n).foldl (fun t i => Table.put 0 t i (BitVec.ofNat w (at_ f (off + size * i) size))) []

/-- What a memory word does, its ordering and scope, and its bytes, as its instruction gives them (11: R208 to R213; 12: R227). -/
structure MemShape where
  kind : MemKind
  ord : Ord
  scope : Scope
  size : Nat
  uniform : Bool := false
  deriving DecidableEq, Repr

/-- A plain access. -/
def MemShape.plain (kind : MemKind) (size : Nat) : MemShape := { kind := kind, ord := .rlx, scope := .device, size := size }

/-- The shape of the words that take an operand-log entry (02: R55); none of others. -/
def Instr.memShape (i : Instr) : Option MemShape :=
  match i with
  | .ldI8 _ _ _ _ _ => some (.plain (.load 1 true) 1)
  | .ldN8 _ _ _ _ _ => some (.plain (.load 1 false) 1)
  | .ldI16 _ _ _ _ _ => some (.plain (.load 2 true) 2)
  | .ldN16 _ _ _ _ _ => some (.plain (.load 2 false) 2)
  | .ldN32 _ _ _ _ _ => some (.plain (.load 4 false) 4)
  | .ldN64 _ _ _ _ _ => some (.plain (.load 8 false) 8)
  | .ldN128 _ _ _ _ _ => some (.plain (.load 16 false) 16)
  | .stN8 _ _ _ _ => some (.plain (.store 1) 1)
  | .stN16 _ _ _ _ => some (.plain (.store 2) 2)
  | .stN32 _ _ _ _ => some (.plain (.store 4) 4)
  | .stN64 _ _ _ _ => some (.plain (.store 8) 8)
  | .stN128 _ _ _ _ => some (.plain (.store 16) 16)
  | .ldk _ _ _ _ _ => some (.plain .ldk 8)
  | .ldaN32 _ _ _ sc _ acq => some { kind := .load 4 false, ord := if acq then .acq else .rlx, scope := sc, size := 4 }
  | .ldaN64 _ _ _ sc _ acq => some { kind := .load 8 false, ord := if acq then .acq else .rlx, scope := sc, size := 8 }
  | .staN32 _ _ _ sc rel => some { kind := .store 4, ord := if rel then .rel else .rlx, scope := sc, size := 4 }
  | .staN64 _ _ _ sc rel => some { kind := .store 8, ord := if rel then .rel else .rlx, scope := sc, size := 8 }
  | .aaddN32 _ _ _ sc _ ord => some { kind := .atom .add 4, ord := ord, scope := sc, size := 4 }
  | .aminI32 _ _ _ sc _ ord => some { kind := .atom .minI 4, ord := ord, scope := sc, size := 4 }
  | .amaxI32 _ _ _ sc _ ord => some { kind := .atom .maxI 4, ord := ord, scope := sc, size := 4 }
  | .aminN32 _ _ _ sc _ ord => some { kind := .atom .minN 4, ord := ord, scope := sc, size := 4 }
  | .amaxN32 _ _ _ sc _ ord => some { kind := .atom .maxN 4, ord := ord, scope := sc, size := 4 }
  | .aandN32 _ _ _ sc _ ord => some { kind := .atom .band 4, ord := ord, scope := sc, size := 4 }
  | .aorN32 _ _ _ sc _ ord => some { kind := .atom .bor 4, ord := ord, scope := sc, size := 4 }
  | .axorN32 _ _ _ sc _ ord => some { kind := .atom .bxor 4, ord := ord, scope := sc, size := 4 }
  | .axchgN32 _ _ _ sc _ ord => some { kind := .atom .xchg 4, ord := ord, scope := sc, size := 4 }
  | .aaddN64 _ _ _ sc _ ord => some { kind := .atom .add 8, ord := ord, scope := sc, size := 8 }
  | .aminI64 _ _ _ sc _ ord => some { kind := .atom .minI 8, ord := ord, scope := sc, size := 8 }
  | .amaxI64 _ _ _ sc _ ord => some { kind := .atom .maxI 8, ord := ord, scope := sc, size := 8 }
  | .aminN64 _ _ _ sc _ ord => some { kind := .atom .minN 8, ord := ord, scope := sc, size := 8 }
  | .amaxN64 _ _ _ sc _ ord => some { kind := .atom .maxN 8, ord := ord, scope := sc, size := 8 }
  | .aandN64 _ _ _ sc _ ord => some { kind := .atom .band 8, ord := ord, scope := sc, size := 8 }
  | .aorN64 _ _ _ sc _ ord => some { kind := .atom .bor 8, ord := ord, scope := sc, size := 8 }
  | .axorN64 _ _ _ sc _ ord => some { kind := .atom .bxor 8, ord := ord, scope := sc, size := 8 }
  | .axchgN64 _ _ _ sc _ ord => some { kind := .atom .xchg 8, ord := ord, scope := sc, size := 8 }
  | .acasN32 _ _ _ sc _ ord => some { kind := .cas 4, ord := ord, scope := sc, size := 4 }
  | .acasN64 _ _ _ sc _ ord => some { kind := .cas 8, ord := ord, scope := sc, size := 8 }
  | .faddOrdF32 _ _ _ sc => some { kind := .fadd false, ord := .rlx, scope := sc, size := 4 }
  | .faddOrdF64 _ _ _ sc => some { kind := .fadd true, ord := .rlx, scope := sc, size := 8 }
  | .sld _ _ _ _ => some { MemShape.plain (.load 8 false) 8 with uniform := true }
  | .sst _ _ _ => some { MemShape.plain (.store 8) 8 with uniform := true }
  | _ => none

/-- The shape of the word of an entry. -/
def wordShape (w : Word) : Option MemShape :=
  match decode w with
  | .ok i => Instr.memShape i
  | .illop => none
  | .illfld => none

/-- An entry of the operand log as the header and the log folio hold it (02: R48, R55). -/
structure LogEntry where
  /-- Header folio, log folio, number. -/
  f : Folio
  lf : Folio
  e : Nat

/-- The descriptor's fields. -/
def LogEntry.at (x : LogEntry) : Nat := 0x400 + 32 * x.e
def LogEntry.valid (x : LogEntry) : Bool := at_ x.f x.at 1 % 2 == 1
def LogEntry.failed (x : LogEntry) : Bool := (at_ x.f x.at 1).testBit 2
def LogEntry.word (x : LogEntry) : Word := BitVec.ofNat 32 (at_ x.f (x.at + 8) 4)
def LogEntry.pc (x : LogEntry) : BitVec 56 := BitVec.ofNat 56 (at_ x.f (x.at + 12) 8)
def LogEntry.base (x : LogEntry) : BitVec 64 := BitVec.ofNat 64 (at_ x.f (x.at + 20) 8)
def LogEntry.waits (x : LogEntry) : BitVec 32 := BitVec.ofNat 32 (at_ x.f (x.at + 28) 4)

/-- Word l of data line j, and the 8 bytes of two lines. -/
def LogEntry.line (x : LogEntry) (j l : Nat) : Nat := at_ x.lf (640 * x.e + 128 * j + 4 * l) 4
def LogEntry.wide (x : LogEntry) (j l : Nat) : BitVec 64 := BitVec.ofNat 64 (x.line j l + 2 ^ 32 * x.line (j + 1) l)

/-- The source data of a place. -/
def LogEntry.data (x : LogEntry) (m : MemShape) (l : Nat) : LaneData :=
  match m.kind with
  | .cas n => if n = 8 then ⟨x.wide 3 l, 0#64, x.wide 1 l⟩ else ⟨BitVec.ofNat 64 (x.line 2 l), 0#64, BitVec.ofNat 64 (x.line 1 l)⟩
  | .store n => if n ≤ 4 then ⟨BitVec.ofNat 64 (x.line 1 l), 0#64, 0#64⟩ else ⟨x.wide 1 l, x.wide 3 l, 0#64⟩
  | .atom _ n => if n = 4 then ⟨BitVec.ofNat 64 (x.line 1 l), 0#64, 0#64⟩ else ⟨x.wide 1 l, 0#64, 0#64⟩
  | .fadd f64 => if f64 then ⟨x.wide 1 l, 0#64, 0#64⟩ else ⟨BitVec.ofNat 64 (x.line 1 l), 0#64, 0#64⟩
  | .load _ _ => ⟨0#64, 0#64, 0#64⟩
  | .ldk => ⟨0#64, 0#64, 0#64⟩
  | .fence _ => ⟨0#64, 0#64, 0#64⟩

/-- Whether the accesses of a lane are those of an entry: the same bytes, and the same data where they write. -/
def sameAccs (writes : Bool) (as bs : List LaneAcc) : Bool :=
  let key := fun (a : LaneAcc) => (a.off, a.size, a.va, if writes then (a.data, a.cmp) else (0#64, 0#64))
  as.map key == bs.map key

/-- The accesses of a lane of an operation, and for LDK its token position, as an entry gives them: those that stand while the entry names
the same; else they begin anew (02: R46). A lane that neither waits nor is translated is gone. -/
def State.laneFromLog (s : State) (g : Group) (x : LogEntry) (m : MemShape) (o : MemOp) (l : Nat) : List LaneAcc × List KvLane :=
  let place := if m.uniform then 0 else l
  let mine := o.accs.filter fun a => a.lane == l
  let waits := if m.uniform then x.waits != 0#32 else has x.waits l
  let stands := mine.any fun a => a.st.known
  if !waits && !stands then ([], [])
  else if m.kind == .ldk then
    let kvs := o.kv.filter fun y => y.lane == l
    let pos := x.line 0 l
    if o.base == x.base && o.kind == .ldk && kvs.any fun y => y.pos == pos then (mine, kvs)
    else
      let kv := s.kvLanes g x.base [(l, pos)]
      (kv.flatMap fun y => s.kvReads g x.base y (Table.getD g.fl.ordinals l 0), kv)
  else
    let va := x.base + BitVec.ofNat 64 (x.line 0 place)
    let d := x.data m place
    let d := match m.kind with
      | .fadd _ => { d with cmp := (mine.head?.map LaneAcc.cmp).getD (BitVec.ofNat 64 (g.faddOrdinal l)) }
      | _ => d
    let st := match s.startAccess g m.kind.writes m.size va with
      | .trap c => AccState.failed c
      | .ok st => st
    let new := laneAccs l m.size va st d.lo d.hi d.cmp ((mine.head?.map LaneAcc.ordinal).getD (Table.getD g.fl.ordinals l 0))
    (if o.kind == m.kind && sameAccs m.kind.writes mine new then mine else new, [])

/-- The failed bit of an entry (02: R46, R55): set by software, the lanes that wait have failed; cleared, those that have failed are gone
(log 75). -/
def MemOp.withFailed (failed : Bool) (o : MemOp) : MemOp :=
  let was := o.accs.any fun a => a.st.isFailed
  if failed == was then o
  else if failed then { o with accs := o.accs.map fun a => if a.st.known then a else { a with st := .failed codeAccess } }
  else { o with accs := o.accs.filter fun a => !a.st.isFailed }

/-- An operation in the log takes its entry as it stands: word, PC, base, waiting lanes, offsets and source data (02: R46, R55). -/
def State.opFromLog (s : State) (g : Group) (x : LogEntry) (m : MemShape) (o : MemOp) : MemOp :=
  let ls := (if m.uniform then [uniformLane] else List.range 32).map fun l => s.laneFromLog g x m o l
  MemOp.withFailed x.failed { o with
    word := x.word, pc := x.pc, base := x.base, kind := m.kind, ord := m.ord, scope := m.scope
    accs := ls.flatMap Prod.fst, kv := ls.flatMap Prod.snd
    queue := if m.kind.writes then (if o.queue == .none then .queued else o.queue) else .none }

/-- An operation that software has made by setting the valid bit of a free entry: it comes last in program order, and has no destination
(log 75). -/
def LogEntry.made (x : LogEntry) (g : Group) : MemOp where
  seq := g.fl.nextSeq + x.e
  pc := x.pc
  word := x.word
  set := x.waits
  kind := .load 0 false
  ord := .rlx
  scope := .device
  base := x.base
  accs := []
  pend := none
  queue := .none
  log := some x.e
  slot := g.pinSlot
  gen := g.pinGen
  answered := []
  kv := []

/-- Whether the entry of an operation is gone: software cleared its valid bit, or wrote a word that takes no entry (log 75). -/
def MemOp.dropped (f : Folio) (o : MemOp) : Bool :=
  match o.log with
  | none => false
  | some e => !LogEntry.valid ⟨f, [], e⟩ || (wordShape (LogEntry.word ⟨f, [], e⟩)).isNone

/-- The entries that software has filled. -/
def logMade (f lf : Folio) (g : Group) : List MemOp :=
  ((List.range 4).map fun e => (⟨f, lf, e⟩ : LogEntry)).filterMap fun x =>
    if x.valid && (g.logged? x.e).isNone && (wordShape x.word).isSome then some (x.made g) else none

/-- The operations as the log folio holds them. -/
def State.opsFrom (s : State) (f lf : Folio) (g : Group) : List MemOp :=
  ((g.fl.ops.filter fun o => !o.dropped f) ++ logMade f lf g).map fun o => match o.log with
    | none => o
    | some e =>
      match wordShape (LogEntry.word ⟨f, lf, e⟩) with
      | none => o
      | some m => s.opFromLog g ⟨f, lf, e⟩ m o

/-- The pending destinations as the header holds them: a cleared one is dropped, and with it its landing (02: R419). -/
def pendsFrom (f : Folio) (ps : Table Pend) : Table Pend :=
  (List.range 8).filterMap fun p =>
    let v := at_ f (0x480 + 8 * p) 8
    if v % 2 = 0 then none else some (p, pendFrom v ((Table.get? ps p).getD Pend.made))

/-- The group as its header and log folios give it at activation (02: R46, R51, R419). -/
def Group.fromFolios (f lf : Folio) (promise : Bool) (ops : List MemOp) (g : Group) : Group :=
  let cap := fun (n : Nat) => if promise then min n 256 else n
  let ps := pendsFrom f g.fl.pend
  let gone := fun (p : Nat) => (Table.get? ps p).isNone
  { g with
    ctl := { g.ctl with
      pcs := (List.range 32).foldl (fun t l =>
        if has g.live l then Table.put 0#64 t l (BitVec.ofNat 64 (at_ f (8 * l) 8)) else t) []
      counts := (List.range 32).foldl (fun t l => Table.put 0#24 t l (BitVec.ofNat 24 (cap (at_ f (0x4C0 + 4 * l) 3)))) []
      cls := BitVec.ofNat 2 (at_ f 0x160 8)
      missing := List.range g.id.alloc.v
      dirty := []
      used := []
      operands := []
      filling := [] }
    regs := { g.regs with
      v := []
      s := tableFrom f 0x200 8 63
      c := tableFrom f 0x100 2 32
      ucc := BitVec.ofNat 4 (at_ f 0x140 8)
      xi := BitVec.ofNat 8 (at_ f 0x148 8) }
    fl := { g.fl with
      pend := ps
      landing := tableFrom lf 0xA00 4 256
      nextSeq := if (logMade f lf g).isEmpty then g.fl.nextSeq else g.fl.nextSeq + 4
      ops := ops.map fun o => match o.pend with
        | none => o
        | some p => if gone p then { o with pend := none } else o
      cmds := g.fl.cmds.map fun c => match c.pend with
        | none => c
        | some p => if gone p then { c with pend := none } else c }
    tr := { g.tr with st := trapFrom f } }

/-- The tiles, accumulators and tile scales that a saved context holds (01: R37). -/
def State.readTiles (s : State) (g : Group) : Except CtxReach Group :=
  if g.id.duty != .matrix then .ok g
  else
    let t0 := g.id.alloc.tileArea
    match reachAll (s.ctxReach g) ((List.range 13).map fun i => g.ctl.ctx + BitVec.ofNat 64 (t0 + 4096 * i)) with
    | .error e => .error e
    | .ok ns =>
      match s.ctxSpoilt false (ns.map fun n => (n, 4096)) with
      | some e => .error e
      | none =>
      let folio := fun (i : Nat) => s.mem.bytes (ns.getD i 0) 4096
      let tiles := (List.range 4).foldl (fun t i => putBytes t (4096 * i) (folio i)) []
      let acc := (List.range 8).foldl (fun t n =>
        ((List.range 1024).zip (words32 1024 (folio (4 + n)))).foldl (fun t p => Table.put 0#32 t (1024 * n + p.1) p.2) t) []
      .ok { g with regs := { g.regs with tiles := tiles, acc := acc, scales := putBytes [] 0 ((folio 12).take 1024) } }

end Sys2Proof.Machine
end

