-- ==== Sys2Proof/Machine/IssueEvents.lean ====
section
/-!
DEFINITION. The steps around issue: trap entry, the fairness timer, the progress promise, the watchdog, comparators, the
walker slot, the gate's timeout, the reclaiming of root slots (12: R239, R240; 01: R13, R26, R28; 25: R404; 21: R363, R365;
17: R305; 03: R70).
-/

namespace Sys2Proof.Machine

/-! ## The walker slot (21: R363 to R365) -/

/-- The key of the walker group of a core. -/
def walkerKey (core : Nat) : Nat := 2 * core + 1

/-- The walker slot belongs to no region, so to no profiling partition (24: R395): a number that no partition has. -/
def noPartition : Nat := 2 ^ 16

/-- The walker group of a core before its first walk (log 3): one lane, full allocations, registers at zero. -/
def freshWalker (core entry : Nat) : Group where
  id := { launch := 0, gang := 0, wg := 0, grpid := 0, duty := .copy, alloc := ⟨256, 64, 0, 0⟩, notice := false, walker := true,
          created := 0, frame := 0, desc := 0, arena := 0 }
  ctl := { core := core, slot := 64, present := 1#32, exited := 0#32, pcs := Table.put 0#64 [] 0 (BitVec.ofNat 64 entry)
           counts := [], waits := [], fetched := [], cur := 0#32, yielded := 0#32, cls := 0#2, lastLane := 0, lastUni := 0
           readySince := 0, urgent := false, act := .active, cause := .none, waitSince := none, wakeSince := none
           notice := .none, stopped := false, stepping := false, uncompared := 0#32, missing := [], dirty := [], used := []
           operands := [], filling := [], ctx := 0#64, ctxReqs := [], ctxAns := [], ctxWalkOn := [], ctxWalked := [], saved := false
           lastExit := 0#56, compared := false, issuedAt := none, watchdogged := false, dead := false }
  regs := { v := [], s := [], c := [], ucc := 0#4, xi := 0#8, tiles := [], scales := [], acc := [] }
  fl := { ops := [], probes := [], pend := [], landing := [], late := [], nextSeq := 0, ordinals := [], faddOrdinals := [], hash := 0#32, cmds := []
          roots := [], sleepers := [], publ := none, hashing := [] }
  tr := { st := { code := 0#8, active := false, resume := false, held := false, imm := 0#12, pc := 0#56, ret := 0#56
                  word := 0#32, mask := 0#32, failed := 0#32, info := 0#32, addr := 0#64, cur := 0#56 }
          tvec := 0#56, entering := none, boundary := [], saved := [] }
  pinSlot := 0
  pinGen := 0#16
  view := { determinism := 0, publishScope := 7, partition := noPartition, parkThreshold := 2048, noticeDeadline := 80000
            faultDomain := 0, activeBudgets := [], matrixShares := [], cxlShares := [], holder := 0 }

/-- The walker group of a core stands at its entry point with the registers of a walk (21: R363). -/
def Group.startWalk (entry : Nat) (w : Walk) (g : Group) : Group :=
  let g := { g with
    ctl := { g.ctl with pcs := Table.put 0#64 g.ctl.pcs 0 (BitVec.ofNat 64 entry), exited := 0#32, waits := [], cur := 0#32 }
    tr := { g.tr with entering := none } }
  ((g.ws 0#6 (BitVec.ofNat 64 (w.page * 2 ^ 16))).ws 1#6 w.root).ws 2#6 (BitVec.ofNat 64 (w.kind + 8 * w.probe.toNat))

/-- WALK_START (21: R363): the walker slot takes the next walk of its core's queue. -/
def execWalkStart (core : Nat) (s : State) : Out :=
  let c := s.core core
  match c.walks with
  | [] => .next s
  | w :: _ =>
    if c.walking || s.host.dev != .running then .next s
    else
      let s := s.modCore core fun c => { c with walking := true, walkIssued := 0 }
      let g := Table.getD s.groups (walkerKey core) (freshWalker core s.boot.walkerEntry)
      .next (s.setGroup (walkerKey core) (g.startWalk s.boot.walkerEntry w))

/-- A walk fails: a walker-fault notice is posted, and its accesses take ACCESS (21: R365). -/
def State.failWalk (s : State) (core : Nat) : State :=
  let s := s.modGroup (walkerKey core) fun g => { g with tr := { g.tr with entering := none } }
  match (s.core core).walks with
  | [] => s
  | w :: _ => if (s.core core).walking then (s.notice (walkerNotice core w)).endWalk core w .bad else s

/-- WALKER_INSTRUCTION_LIMIT (21: R365): 4,096 instructions without a tlbf. -/
def execWalkerInstructionLimit (core : Nat) (s : State) : Out :=
  .next (if (s.core core).walking && 4096 ≤ (s.core core).walkIssued then s.failWalk core else s)

/-! ## Trap entry (12: R239, R240) -/

/-- Every pending value of a group moves into its destination (07: R149). -/
def Group.moveAll (g : Group) : Group :=
  g.fl.pend.foldl (fun g e => g.movePend e.1 e.2) (g.dirtyLines (pendLines (g.fl.pend.map Prod.snd)))

/-- Whether every pending value has landed, and its lines are there or can be allocated (07: R149; 02: R50). -/
def State.mayMoveAll (s : State) (g : Group) : Bool :=
  (g.fl.pend.all fun e => e.2.landed && !g.pendMissing e.2) && (g.wholeMoves (g.fl.pend.map Prod.snd)).all (s.lineThere g)

/-- The waiting set that a boundary trap is taken by at once: its issuing set, or, for a notice, any set, when no set of
it stands ready to issue (12: R240). It is the waiting set of the lowest PC. -/
def Group.waitingSetFor (g : Group) (t : TrapReq) : Option (BitVec 32 × BitVec 64) :=
  let mine := fun (l : Nat) => t.code == codePnotice || has t.mask l
  let waits := (lanesOf g.live).filter fun l =>
    match g.waitOf l with
    | some (.barrier _ _ _ _) => true
    | some (.arrive _ _ _ _) => true
    | some (.sleep _) => true
    | some (.fetch _) => false
    | none => false
  if ((lanesOf g.live).filter fun l => !waits.contains l).any mine then none
  else
    let cs := (groupPcs (waits.map fun l => (l, g.pc l)) []).filter fun e => (lanesOf e.2).any mine
    (cs.foldl (fun b e =>
      match b with
      | none => some e
      | some x => if e.1.toNat < x.1.toNat then some e else b) none).map fun e => (e.2, e.1)

/-- Whether traps may be entered on a group now. -/
def State.mayEnter (s : State) (g : Group) : Bool :=
  s.mayStand { g with tr := { g.tr with entering := none } }

/-- A boundary trap of whose issuing set no lane is left: the fault domain takes it, once the group is out of its handler (12: R239, R240; 09:
R186). -/
def Group.lostBoundary (g : Group) : Option TrapReq :=
  if g.ctl.dead || (g.tr.st.active && g.live != 0#32) then none
  else g.tr.boundary.find? fun t => t.code != codePnotice && t.mask &&& g.live == 0#32

/-- Whether a trap of a group waits for every pending value to move. -/
def Group.entersTrap (g : Group) : Bool := g.tr.entering.isSome || g.lostBoundary.isSome

/-- The first boundary trap that a waiting set takes at once. -/
def Group.boundaryWaiting (g : Group) : Option (TrapReq × BitVec 32 × BitVec 64) :=
  if g.tr.st.active then none
  else g.tr.boundary.findSome? fun t => (g.waitingSetFor t).map fun x => (t, x)

/-- TRAP_ENTRY (12: R239): a raised trap is entered once every pending value has landed; a boundary trap of a waiting set
at once, one of which no lane is left in the fault domain; a trap of the walker routine ends its walk. -/
def execTrapEntry (grp : Nat) (s : State) : Out :=
  match Table.get? s.groups grp with
  | none => .next s
  | some g =>
    match g.tr.entering with
    | some t =>
      if g.id.walker then .next (s.failWalk g.ctl.core)
      else if g.ctl.dead || g.ctl.act == .parked || !s.mayMoveAll g then .next s
      else
        let g := { g.moveAll with tr := { g.moveAll.tr with entering := none } }
        .next ((s.setGroup grp g).takeTrap grp t)
    | none =>
      match g.lostBoundary with
      | some t => .next (if g.ctl.act != .parked && s.mayMoveAll g then (s.setGroup grp (g.moveAll.dropBoundary t)).toFaultDomain grp t else s)
      | none =>
        if !s.mayEnter g then .next s
        else
          match g.boundaryWaiting with
          | none => .next s
          | some (t, m, pc) => .next (s.takeBoundary grp m pc t)

/-! ## Timers of issue (01: R13, R26, R28) -/

/-- The ready sets of a group that may issue. -/
def State.readySets (s : State) (g : Group) : List SetView :=
  if s.mayStand g then (s.views g).filter SetView.ready else []

/-- Whether the fairness limit ends the current turn of a group: it has issued in its turn, and another set has reached the limit. -/
def State.fairnessDue (s : State) (g : Group) : Bool :=
  s.promise (s.regionOf g) && g.ctl.cur != 0#32 && g.countOf g.ctl.cur == 0 &&
    (s.readySets g).any fun v => v.mask != g.ctl.cur && 256 ≤ v.count

/-- FAIRNESS_LIMIT (01: R13): the current turn ends, and the set that has waited longest takes the next. -/
def execFairnessLimit (grp : Nat) (s : State) : Out :=
  match Table.get? s.groups grp with
  | none => .next s
  | some g =>
    .next (if s.fairnessDue g then s.setGroup grp { g with ctl := { g.ctl with cur := 0#32 } } else s)

/-- Whether a group has waited 4,096 aclk with a ready instruction under the promise (01: R26). -/
def State.progressDue (s : State) (g : Group) : Bool :=
  !g.ctl.urgent && s.promise (s.regionOf g) && decide (g.ctl.readySince + 4096 ≤ s.clk.cycle) && !(s.readySets g).isEmpty

/-- PROGRESS_WAIT_LIMIT (01: R26): the group takes the next slot of its pipe. -/
def execProgressWaitLimit (grp : Nat) (s : State) : Out :=
  match Table.get? s.groups grp with
  | none => .next s
  | some g =>
    .next (if s.progressDue g then s.setGroup grp { g with ctl := { g.ctl with urgent := true } } else s)

/-- The record of WATCHDOG: the waiting set, and the PC of the current set (01: R28, 16: R303). -/
def watchdogTrap (g : Group) (v : SetView) : TrapReq where
  code := codeWatchdog
  pc := v.pc.setWidth 56
  ret := v.pc.setWidth 56
  word := 0
  mask := v.mask
  failed := 0
  info := 0
  addr := 0
  imm := 0
  cur := if g.ctl.cur = 0#32 then 0#56 else (g.pc ((lanesOf g.ctl.cur).headD 0)).setWidth 56
  rank := 0

/-- WATCHDOG (01: R28): the trap ends the group's issue and goes to the region's fault domain once the pending values have
landed (12: R239). -/
def execWatchdog (grp : Nat) (s : State) : Out :=
  match Table.get? s.groups grp with
  | none => .next s
  | some g =>
    match s.watchdogSet g with
    | none => .next s
    | some v => .next (s.raiseAtIssue grp (watchdogTrap g v))

/-- Whether the current set of a group needs no choice: no lane stands, or one set does, which is the current one (01: R12). -/
def Group.settled (g : Group) : Bool :=
  match g.sets with
  | [] => g.ctl.cur == 0#32
  | [e] => e.2 == g.ctl.cur && g.ctl.yielded == 0#32
  | _ => false

/-- A group that has no ready set: it has no current set, and its wait for an issue starts anew when one is ready (01: R12, R26). -/
def Group.noneReady (now : Nat) (g : Group) : Group :=
  { g with ctl := { g.ctl with cur := 0#32, readySince := now, urgent := false } }

/-- The current set as a turn leaves it: a turn that has ended gives way to the choice among the ready sets, and with none ready
there is no current set (01: R12). A set that WATCHDOG is due on is left waiting (01: R28). -/
def State.noteTurn (s : State) (g : Group) : Group :=
  if g.settled || !s.mayStand g || (s.watchdogSet g).isSome then g
  else
    let promise := s.promise (s.regionOf g)
    let rs := (s.openViews g).filter SetView.ready
    if (g.turnLasts promise rs).isSome then g
    else
      match chooseSet promise g.ctl.yielded rs with
      | none => g.noneReady s.clk.cycle
      | some v => { g with ctl := { g.ctl with cur := v.mask, yielded := 0#32 } }

/-- The current sets of all groups after a turn. -/
def State.noteTurns (s : State) : State := { s with groups := s.groups.map fun p => (p.1, s.noteTurn p.2) }

/-- The walks that the fetches of groups which may issue wait for are queued (03: R74, 21: R363). -/
def State.noteFetches (s : State) : State :=
  s.groups.foldl (fun s p =>
    if p.2.id.walker || !s.mayStand p.2 then s
    else (p.2.sets.filterMap (s.fetchMiss p.2)).foldl (fun s w => s.queueWalk p.2.ctl.core w) s) s

/-- PC_COMPARATOR_MATCH (25: R404): the set that would issue next takes BREAK before its word issues. -/
def execPcComparatorMatch (grp : Nat) (s : State) : Out :=
  match Table.get? s.groups grp with
  | none => .next s
  | some g =>
    match s.candidate g with
    | none => .next s
    | some v =>
      match s.comparatorHit g v, s.fetch g v.mask with
      | some c, .word w => .next (s.trapWord grp v.mask (breakBefore v.mask v.pc w c))
      | _, _ => .next s

/-! ## The gate's timeout (05: R113, 17: R305) -/

/-- The arrival stamps and clocks of the accesses that a gate holds. -/
def State.heldClocks (s : State) (g : Gate) : List (Nat × Nat) :=
  (s.heldAccs g.words).filterMap fun h =>
    match (Table.get? s.groups h.2.1).bind fun g => (g.opAt h.2.2.1).bind fun o => o.accs[h.2.2.2]? with
    | none => none
    | some a => a.held

/-- Whether a gate's timeout has passed: an access is held that long, and no scripted access was performed since it
arrived. -/
def State.gateExpired (s : State) (g : Gate) : Bool :=
  (s.heldClocks g).any fun h => decide (h.2 + g.timeout ≤ s.clk.cycle) && decide (g.progressed < h.1)

/-- GATE_TIMEOUT (17: R305): the gate ends with code 2. -/
def execGateTimeout (rcb : Nat) (s : State) : Out :=
  match (Table.get? s.regions rcb).bind Region.gate with
  | none => .next s
  | some g => .next (if s.gateExpired g then s.endGate rcb 2 else s)

/-! ## Reclaiming root slots (03: R70) -/

/-- The reclaim notice: region, slot and generation, and the freed root slot word (21: R359; layout: log 9). -/
def reclaimNotice (rcb slot : Nat) (w : BitVec 64) : List Byte := noticeBytes 2 rcb slot w.toNat

/-- The walks under a tag serve no one: those that wait leave their queues, and the one that a walker has begun is for no region (03: R70). -/
def State.walksDrop (s : State) (region : Nat) (gen : BitVec 16) : State :=
  let mine := fun (w : Walk) => w.region == region && w.gen == gen
  { s with cores := s.cores.map fun p =>
    (p.1, { p.2 with walks :=
      if p.2.walking then (p.2.walks.take 1).map (fun w => if mine w then { w with region := 0 } else w) ++ (p.2.walks.drop 1).filter fun w => !mine w
      else p.2.walks.filter fun w => !mine w }) }

/-- SLOT_RECLAIM (03: R70): TLB entries of the tag go on every die, the valid bit is cleared, the notice is posted. -/
def execSlotReclaim (rcb slot : Nat) (s : State) : Out :=
  match Table.get? s.regions rcb with
  | none => .next s
  | some r =>
    if !r.unused.contains slot then .next s
    else
      let w := Table.getD r.slots slot 0#64
      let s := (s.tlbDrop rcb (slotGen w)).walksDrop rcb (slotGen w)
      let s := s.modRegion rcb fun r =>
        { r with slots := Table.put 0#64 r.slots slot (w &&& ~~~ 1#64), unused := r.unused.filter (· != slot) }
      .next (s.notice (reclaimNotice rcb slot w))

end Sys2Proof.Machine
end

