-- ==== Sys2Proof/Machine/Park.lean ====
section
/-!
DEFINITION. Parking, activation, eviction and line fills of groups, and the pre-emption of gangs (01: R19 to R22, R33 to R37;
02: R46, R51 to R53, R419; 12: R232; 16: R303).
-/

namespace Sys2Proof.Machine

/-! ## When a group may park (01: R20) -/

/-- Whether a gang parks now: forced, or every group with a notice handler has executed PREQ (01: R36). -/
def State.gangParks (s : State) (gang : Nat) : Bool :=
  match Table.get? s.gangs gang with
  | none => false
  | some a => match a.preempt with
    | .none => false
    | .notice _ => s.groups.all fun p =>
        p.2.id.gang != gang || p.2.id.walker || p.2.ctl.dead || p.2.ctl.notice == .done || p.2.live == 0#32
    | .forced => true
    | .parked => false

/-- Whether an access waits for a page request. -/
def AccState.waits (a : AccState) : Bool :=
  match a with
  | .wait _ => true
  | .miss => false
  | .leaf _ => false
  | .direct _ => false
  | .peer _ => false
  | .answered _ => false
  | .failed _ => false

/-- Whether an operation stays in the operand log across a park: it has faulted, and what of it can be performed is (01: R36; 02: R57). A
faulted store keeps its place in the queue whole (02: R58). -/
def MemOp.stays (o : MemOp) : Bool :=
  o.log.isSome && (o.accs.any fun a => a.st.waits)
    && o.accs.all fun a => a.over || a.st.waits || (o.queue == .queued && a.st.known)

/-- Whether the group's store queue has drained and every load is complete (01: R20; 04: R88); a park by force leaves what has faulted in
the operand log, and waits for a store or load behind it (01: R36; 02: R58). -/
def Group.drained (g : Group) (forced : Bool) : Bool :=
  g.fl.publ.isNone && g.fl.probes.isEmpty && g.fl.ops.all fun o => forced && o.stays

/-- Whether no work of a group that a forced park waits for is left, copies apart: a PUBL at step 2 and what it waits for, and an mma in
progress (01: R36 step 2). -/
def State.enginesRest (s : State) (g : Group) : Bool :=
  g.fl.cmds.all fun c => !s.publWaits g.id.gang c && !(c.ins.isPubl && c.started && c.ended.isNone) && !(c.isMma && c.started)

/-- Whether a copy of a group stands off its boundary, where a forced park does not leave it (01: R36 step 2). -/
def Group.midBlocks (g : Group) : Bool := g.fl.cmds.any EngCmd.midBlock

/-- Whether a copy of a group is held off its boundary by a page or a walk. -/
def Group.blockWaits (g : Group) : Bool := g.fl.cmds.any fun c => c.midBlock && (c.req.isSome || c.walkOn.isSome)

/-- Whether the gang of a group is suspended (01: R32). -/
def State.gangSuspended (s : State) (gang : Nat) : Bool := ((Table.get? s.gangs gang).map Gang.suspended).getD false

/-- Whether the fault domain has a group whose own context does not take its bytes (02: R53): it stands until the driver goes on
with it. -/
def State.ctxFailed (s : State) (g : Group) : Bool :=
  (g.ctl.cause == .suspend || s.gangSuspended g.id.gang) && g.tr.st.code == codeAccess && g.tr.st.mask == 0#32

/-- The addresses of the folios that a park writes. -/
def Group.parkFolios (g : Group) (forced : Bool) : List (BitVec 64) :=
  (foliosOf (g.parkPieces forced)).map fun f => g.ctl.ctx + BitVec.ofNat 64 (4096 * f)

/-- Whether a park may go on to its folios: none has a fault outstanding, and none has failed for the fault domain. -/
def State.parkFits (s : State) (g : Group) (forced : Bool) : Bool :=
  let vas := g.parkFolios forced
  !(vas.any g.ctxWaits) && (!s.ctxFailed g || !s.ctxFails g (g.parkPieces forced))

/-- Whether a group may be saved now. A park waits for a trap that is being entered, unless the trap waits for the status of a command which the
park or a freeze keeps from completing. A context fault against a folio that the park does not write stays pending across it (01: R37, 02: R53). -/
def State.mayPark (s : State) (g : Group) : Bool :=
  let forced := s.gangParks g.id.gang
  !g.id.walker && !g.ctl.dead && g.fl.roots.isEmpty && g.drained forced
    && (g.tr.entering.isNone || ((forced || s.dbg.frozen) && g.fl.pend.any fun e => !e.2.landed))
    && (if forced then s.enginesRest g && !g.blockWaits && (g.ctl.act != .parked || !g.ctl.saved) else g.ctl.act == .parking)
    && s.parkFits g forced

/-! ## Bin sets (24: R396) -/

/-- Whether a group of a partition is placed on a core. -/
def State.onCore (s : State) (core part : Nat) : Bool :=
  s.groups.any fun p => p.2.ctl.core == core && p.2.view.partition == part && !p.2.id.walker && !p.2.ctl.dead
    && ((Table.get? s.gangs p.2.id.gang).map Gang.preempt).getD .none != .parked

/-- A group of a partition is placed on a core: when it is the first of the partition there, the core takes a bin set for it while it
holds fewer than four. -/
def State.binPlace (s : State) (core part : Nat) : State :=
  match Table.get? s.prof.parts part with
  | none => s
  | some p =>
    if !p.on 1 || s.onCore core part || ((s.core core).binSet part).isSome then s
    else if (s.core core).bins.length < 4 then
      s.modCore core fun c => { c with bins := c.bins ++ [{ partition := part, lcr := [] }] }
    else s

/-- The bin sets of partitions whose last group has left the core are freed. -/
def State.freeBins (s : State) : State :=
  { s with cores := s.cores.map fun p =>
    if p.2.bins.isEmpty then p else (p.1, { p.2 with bins := p.2.bins.filter fun b => s.onCore p.1 b.partition }) }

/-! ## Parking -/

/-- A group whose parking is complete: its lines have left the core (02: R51). A park by force does not lift a stop of the debugger or of
the fault domain. -/
def Group.parked (forced : Bool) (now : Nat) (g : Group) : Group :=
  let g' : Group := { g with ctl := { g.ctl with
    act := .parked
    cause := if forced && g.ctl.cause != .suspend && g.ctl.cause != .debug then .preempt else g.ctl.cause
    saved := g.ctl.saved || forced
    ctxAns := []
    ctxWalked := []
    missing := List.range g.id.alloc.v
    dirty := []
    used := []
    operands := []
    filling := []
    wakeSince := none
    urgent := false
    cur := 0#32
    yielded := 0#32 } }
  if forced then g' else g'.noteWait now

/-- Saves a group (02: R53): with every folio that is written translated it counts as parked; else the folios that do translate are
written, and the context fault is served. The debug notice of a group that a debugger has stopped follows its park (25: R405). -/
def State.saveGroup (s : State) (k : Nat) (forced : Bool) : State :=
  match Table.get? s.groups k with
  | none => s
  | some g =>
    match s.ctxWrite g (g.parkPieces forced) with
    | .error e => (s.ctxWriteSome g (g.parkPieces forced)).ctxFault k g e
    | .ok s =>
      let s := (s.modGroup k (Group.parked forced s.clk.cycle)).putDescriptor k
      let s := if g.ctl.act == .parking && g.ctl.stopped && g.ctl.cause == .debug then
          s.notice (noticeBytes 5 g.id.desc g.tr.st.code.toNat g.tr.st.pc.toNat) else s
      if g.ctl.cause == .created || g.ctl.act == .parked then s else s.tally g.view.partition 0x09 1

/-- A park by force: the copies in progress come to their boundaries first, which can post a page request, queue a walk or take a peer's answer
that the park then waits for (01: R36). -/
def State.forceSave (s : State) (k : Nat) (g : Group) : State :=
  let t := s.copyToBoundary k g
  match Table.get? t.groups k with
  | none => t
  | some g' => if t.enginesRest g' && !g'.midBlocks then t.saveGroup k true else t

/-- Whether a park goes on now: a copy that a silent peer holds off its boundary keeps a park by force where it is. -/
def State.parkMoves (s : State) (k : Nat) (g : Group) : Bool :=
  !s.gangParks g.id.gang ||
    match Table.get? (s.copyToBoundary k g).groups k with
    | none => true
    | some g' => !g'.midBlocks || g'.fl.cmds != g.fl.cmds

/-- PARK_COMPLETE (01: R20, R36): the context is written, and the group counts as parked. -/
def execParkComplete (grp : Nat) (s : State) : Out :=
  match Table.get? s.groups grp with
  | none => .next s
  | some g =>
    if !s.mayPark g then .next s
    else .next (if s.gangParks g.id.gang then s.forceSave grp g else s.saveGroup grp false)

/-! ## The park threshold (01: R20; 12: R232, R233) -/

/-- The threshold of a group's wait: that of a SLEEP which overrides it, the smallest of several; else the region's. -/
def Group.threshold (g : Group) : Nat :=
  let own := g.fl.sleepers.filterMap fun z => z.threshold.map BitVec.toNat
  own.foldl min (if own.length = g.fl.sleepers.length && own.length ≠ 0 && g.ctl.waits.all fun w => w.2.isSleep
    then own.headD 0 else g.view.parkThreshold)

/-- Whether a group has waited for more than its threshold. -/
def State.thresholdDue (s : State) (g : Group) : Bool :=
  g.ctl.act == .active && !g.id.walker && !g.ctl.dead && g.ctl.ctxReqs.isEmpty && g.allWait && g.tr.entering.isNone
    && g.boundaryWaiting.isNone &&
    match g.ctl.waitSince with
    | none => false
    | some t => decide (g.threshold = 0) || decide (t + g.threshold < s.clk.cycle)

/-- PARK_THRESHOLD (01: R20): the group begins to park. -/
def execParkThreshold (grp : Nat) (s : State) : Out :=
  match Table.get? s.groups grp with
  | none => .next s
  | some g => .next (if s.thresholdDue g then (s.setGroup grp (g.park .wait)).putDescriptor grp else s)

/-! ## Activation (01: R21) -/

/-- Whether a notice waits for a parked group (01: R34), which no debugger and no fault domain holds. -/
def Group.noticeDue (g : Group) : Bool := g.ctl.notice == .pending && g.ctl.cause != .debug && g.ctl.cause != .suspend

/-- Whether a gang lets its groups be active. -/
def State.gangRuns (s : State) (gang : Nat) : Bool :=
  match Table.get? s.gangs gang with
  | none => false
  | some a => match a.preempt with
    | .none => true
    | .notice _ => true
    | .forced => false
    | .parked => false

/-- Whether the wake condition of a parked group holds (01: R20, R34; 12: R232). -/
def State.wakes (s : State) (g : Group) : Bool :=
  g.ctl.act == .parked && !g.ctl.dead && s.gangRuns g.id.gang &&
    (g.noticeDue || match g.ctl.cause with
      | .none => true
      | .wait => !g.allWait
      | .evicted => true
      | .created => true
      | .resumed => true
      | .preempt => false
      | .debug => false
      | .suspend => false)

/-- Whether a group counts as active: one that was created parked does not, while its zeros are written (02: R49). -/
def Group.counts (g : Group) : Bool :=
  !g.id.walker && !g.ctl.dead && g.ctl.act != .parked && !(g.ctl.act == .parking && g.ctl.cause == .created)

/-- Active groups of a core, the walker slot apart. -/
def State.activeOn (s : State) (core : Nat) : Nat := (s.groups.filter fun p => p.2.ctl.core == core && p.2.counts).length

/-- Active groups of a region's subtree. -/
def State.activeUnder (s : State) (rcb : Nat) : Nat := (s.groups.filter fun p => p.2.counts && s.under rcb (s.regionOf p.2)).length

/-- Whether the active-group budgets that bind a group, as in force since its last refresh point, allow one more (01: R30, R31). -/
def State.budgetAllows (s : State) (g : Group) : Bool := g.view.activeBudgets.all fun b => decide (s.activeUnder b.1 < b.2)

/-- The order of ready groups: notices first, then class, longest ready, slot (01: R21, R34). -/
def State.wakeKey (s : State) (k : Nat) (g : Group) : List Nat :=
  [if g.noticeDue then 0 else 1, s.effClass k, g.ctl.wakeSince.getD s.clk.cycle, g.ctl.slot]

/-- Whether a parked group may activate on its core now, the order among ready groups apart. -/
def State.roomFor (s : State) (g : Group) : Bool :=
  decide (s.activeOn g.ctl.core < 64) && s.budgetAllows g

/-- The addresses that an activation of a group needs: header and log folios; and a restoration: the header folio and the tile areas (02: R53;
01: R37). -/
def Group.activationVas (g : Group) (ctx : BitVec 64) : List (BitVec 64) :=
  if !g.ctl.saved then [ctx, ctx + 0x1000#64]
  else ctx :: (if g.id.duty == .matrix then
    (List.range 13).map fun i => ctx + BitVec.ofNat 64 (g.id.alloc.tileArea + 4096 * i) else [])

/-- Whether no context fault keeps a group from activating, or from its restoration (02: R53): one against a line that it does not need does not
(01: R37). -/
def State.ctxReady (s : State) (g : Group) : Bool :=
  !g.ctxWaits (BitVec.ofNat 64 g.id.desc) && (match s.descPa g with
    | none => true
    | some d => !((g.activationVas (s.mem.w64 d)).any g.ctxWaits))

/-- Whether every group of a gang has its tiles and saved commands back, but for one that has failed for the fault domain (01: R37). -/
def State.gangRestored (s : State) (gang : Nat) : Bool :=
  s.groups.all fun p => p.2.id.gang != gang || p.2.id.walker || !p.2.ctl.saved || p.2.ctl.dead || s.ctxFailed p.2

/-- Whether a group is ready to activate (01: R21, R37; 02: R53). -/
def State.readyToWake (s : State) (g : Group) : Bool := s.wakes g && !g.ctl.saved && s.gangRestored g.id.gang && s.ctxReady g

/-- Whether a group is the next to activate on its core (01: R21). -/
def State.mayActivate (s : State) (k : Nat) (g : Group) : Bool :=
  s.host.dev == .running && !s.dbg.frozen && s.readyToWake g && s.roomFor g &&
    !(s.groups.any fun p => p.1 != k && p.2.ctl.core == g.ctl.core && s.readyToWake p.2 && s.roomFor p.2
      && lexLt (s.wakeKey p.1 p.2) (s.wakeKey k g))

/-- The group stands active. When the driver reactivates it after WATCHDOG, its counts are zero and the waiting set has the first turn (16:
R303). -/
def Group.awake (now : Nat) (g : Group) : Group :=
  let again := g.ctl.cause == .resumed && g.ctl.watchdogged
  let h := g.ctl.ctx
  { g with ctl := { g.ctl with
    act := .active
    cause := .none
    wakeSince := none
    ctxAns := g.ctl.ctxAns.filter fun p => p.1 != pageOf h && p.1 != pageOf (h + 0x1000#64)
    ctxWalked := []
    readySince := now
    urgent := false
    watchdogged := g.ctl.watchdogged && !again
    counts := if again then [] else g.ctl.counts
    cur := if again then g.tr.st.mask else 0#32
    yielded := 0#32 } }

/-- Drops a command at activation: its status lands with code 0 and quantity 0 (13: R274). -/
def State.dropCmd (s : State) (k : Nat) (c : EngCmd) : State := s.finishCmd k c (statusWord 0 0 0)

/-- An operation whose log entry was cleared is gone: its pins drop and its destination keeps its old value. -/
def State.dropOps (s : State) (k : Nat) (g : Group) (f : Folio) : State :=
  (g.fl.ops.filter (MemOp.dropped f)).foldl (fun s o =>
    let s := s.freeLog g o
    match o.pend with
    | none => s
    | some p => s.modGroup k (Group.markLanded · p)) s

/-- The accesses of a group that are to be translated anew meet the TLBs. -/
def State.retryMisses (s : State) (k : Nat) (g : Group) : State :=
  let h := g.view.holder
  s.threadGroup k fun s o a => s.tryAcc g.view.partition g.ctl.core h o.slot o.gen o.kind.access a

/-- A group goes on from its header and log folios: the entries that software made pin the group's slot, and what software cleared is
dropped (02: R46, R55, R419). -/
def State.standUp (s : State) (k : Nat) (g : Group) (f lf : Folio) : State :=
  let h := g.view.holder
  let promise := s.promise (s.regionOf g)
  let s := s.setGroup k ((g.fromFolios f lf promise (s.opsFrom f lf g)).awake s.clk.cycle)
  let s := s.dropOps k g f
  let s := (logMade f lf g).foldl (fun s _ => s.pin h g.pinSlot) s
  (s.retryMisses k g).putDescriptor k

/-- A group whose header folio is malformed does not activate (02: R46, R419). -/
def Group.folioBad (g : Group) (f : Folio) : Option Nat := (headerBad f).orElse fun _ => pendsBad f g

/-- A group whose context is malformed at an offset goes to the fault domain, with the trap state that the header holds (02: R46). -/
def State.ctxMalformed (s : State) (k : Nat) (g : Group) (f : Folio) (off : Nat) : State :=
  (s.setGroup k { g with tr := { g.tr with st := trapFrom f } }).ctxDomain k (some off)

/-- Goes on with a group's context where its descriptor places it now, its late values written (02: R54; 25: R406). -/
def State.withCtx (s : State) (k : Nat) (g : Group) (f : State → Group → State) : State :=
  match s.readCtx g with
  | .error e => s.ctxFault k g e
  | .ok g =>
    match if g.fl.late.isEmpty then .ok s else s.putLate (s.ctxReach g) g with
    | .error e => (s.setGroup k g).ctxFault k g e
    | .ok s =>
      let g := { g with fl := { g.fl with late := [] } }
      f (s.setGroup k g) g

/-- Reads a group's context back (02: R46, R51, R53, R419). -/
def State.activate (s : State) (k : Nat) (g : Group) : State :=
  s.withCtx k g fun s g =>
    match s.ctxRead g 0 4096, s.ctxRead g 0x1000 4096 with
    | .error e, _ => s.ctxFault k g e
    | .ok _, .error e => s.ctxFault k g e
    | .ok f, .ok lf =>
      match g.folioBad f with
      | some off => s.ctxMalformed k g f off
      | none => ((s.countCtx g 0 4096).countCtx g 0x1000 4096).standUp k g f lf

/-! ## Restoration after a park by force (01: R37; 13: R274) -/

/-- Whether a group of a resumed gang may take its tiles and its saved commands back. -/
def State.mayRestore (s : State) (g : Group) : Bool :=
  s.host.dev == .running && !s.dbg.frozen && s.gangRuns g.id.gang && !s.gangParks g.id.gang && g.ctl.saved && g.ctl.act == .parked
    && !g.ctl.dead && !s.ctxFailed g && s.ctxReady g

/-- A group of a resumed gang takes its tiles, their scale bytes and its accumulators back from its context, and its saved commands may go on;
one whose valid bit the driver cleared is dropped (01: R37; 13: R274). -/
def State.restore (s : State) (k : Nat) : State :=
  match Table.get? s.groups k with
  | none => s
  | some g =>
    if !s.mayRestore g then s
    else
      s.withCtx k g fun s g =>
        match s.ctxRead g 0 4096 with
        | .error e => s.ctxFault k g e
        | .ok f =>
          match enginesBad f g with
          | some off => s.ctxMalformed k g f off
          | none =>
            match s.readTiles g with
            | .error e => s.ctxFault k g e
            | .ok g =>
              let s := (if g.id.duty == .matrix then List.range 13 else []).foldl
                (fun s i => s.countCtx g (g.id.alloc.tileArea + 4096 * i) 4096) (s.countCtx g 0 4096)
              let s := s.setGroup k { g with ctl := { g.ctl with saved := false, ctxWalked := [] } }
              (enginesDropped f g).foldl (fun s c => s.dropCmd k c) s

/-- GROUP_ACTIVATE (01: R21). -/
def execGroupActivate (grp : Nat) (s : State) : Out :=
  match Table.get? s.groups grp with
  | none => .next s
  | some g => .next (if s.mayActivate grp g then s.activate grp g else s)

/-! ## Eviction (01: R22) -/

/-- Whether a group can be evicted at all (01: R22; 02: R53). -/
def Group.evictable (g : Group) : Bool :=
  g.ctl.act == .active && !g.id.walker && !g.ctl.dead && g.fl.cmds.isEmpty && g.ctl.notice != .handler && g.ctl.ctxReqs.isEmpty
    && !(g.tr.st.active && g.tr.st.code == codePnotice)

/-- The order of candidates: least urgent class first, then least recently issued. DESIGN CHOICE (log 72): of several that have never
issued, the one of the lower slot. -/
def State.evictKey (s : State) (k : Nat) (g : Group) : List Nat :=
  [3 - s.effClass k, max g.ctl.lastLane g.ctl.lastUni, g.ctl.slot]

/-- Whether a group is the candidate of its core. -/
def State.candidateOf (s : State) (k : Nat) (g : Group) : Bool :=
  g.evictable && !(s.groups.any fun p => p.1 != k && p.2.ctl.core == g.ctl.core && p.2.evictable
    && lexLt (s.evictKey p.1 p.2) (s.evictKey k g))

/-- Whether a group is ready to activate in the place of a candidate (01: R22). -/
def State.wantsPlace (s : State) (k : Nat) (g : Group) (p : Nat × Group) : Bool :=
  p.1 != k && p.2.ctl.core == g.ctl.core && s.readyToWake p.2 && decide (s.effClass p.1 ≤ s.effClass k)

/-- Whether a ready group waits for the place of a candidate (01: R22). -/
def State.placeWanted (s : State) (k : Nat) (g : Group) : Bool :=
  decide (64 ≤ s.activeOn g.ctl.core) && s.groups.any (s.wantsPlace k g)

/-- Whether a ready group could take the place of a candidate that has parked, under the budgets too: the default order evicts for no other
(log 1). -/
def State.evictionHelps (s : State) (k : Nat) (g : Group) : Bool :=
  let t := s.setGroup k { g with ctl := { g.ctl with act := .parked } }
  s.groups.any fun p => s.wantsPlace k g p && t.budgetAllows p.2

/-- Whether the register misses of a core over the last 1,024 aclk exceed the firmware threshold (01: R22). -/
def State.missesOver (s : State) (core : Nat) : Bool :=
  decide (s.boot.missThreshold < ((s.core core).misses.filter fun t => decide (s.clk.cycle < t + 1024)).length)

/-- Whether the activation policy evicts a group (01: R22). -/
def State.mayEvict (s : State) (k : Nat) (g : Group) : Bool :=
  s.candidateOf k g && (s.placeWanted k g || s.missesOver g.ctl.core)

/-- GROUP_EVICT (01: R22): the core's candidate begins to park. -/
def execGroupEvict (grp : Nat) (s : State) : Out :=
  match Table.get? s.groups grp with
  | none => .next s
  | some g => .next (if s.mayEvict grp g then (s.setGroup grp (g.park .evicted)).putDescriptor grp else s)

/-! ## The register cache (02: R50 to R53) -/

/-- The set of a core's register cache that a line lies in, of 128. DESIGN CHOICE (log 18): the spec names the tag, and not the index. -/
def lineSet (slot reg : Nat) : Nat := (32 * slot + reg) % 128

/-- The ways of a set that groups use: two of the 16 hold the locked lines of the walker slot's 256 registers. -/
def lineWays : Nat := 14

/-- The registers of a group whose lines lie in a set. -/
def lineRegs (slot v set : Nat) : List Nat :=
  let r := (set + 128 - 32 * slot % 128) % 128
  [r, r + 128].filter fun n => decide (n < v)

/-- The lines of a set that are in a core: stamp of the last use, group, register. -/
def State.linesIn (s : State) (core set : Nat) : List (Nat × Nat × Nat) :=
  s.groups.flatMap fun p =>
    if p.2.ctl.core != core || p.2.id.walker || p.2.ctl.dead || p.2.ctl.act == .parked then []
    else ((lineRegs p.2.ctl.slot p.2.id.alloc.v set).filter fun n => !p.2.ctl.missing.contains n).map fun n =>
      (Table.getD p.2.ctl.used n 0, p.1, n)

/-- Whether the lines of a core's groups can fill a set at all: each group has two at most. -/
def State.crowded (s : State) (core : Nat) : Bool := decide (8 ≤ s.activeOn core)

/-- Whether a set of a core's cache has no free way. -/
def State.setFull (s : State) (core set : Nat) : Bool := s.crowded core && decide (lineWays ≤ (s.linesIn core set).length)

/-- The line of a set that was used least recently (02: R50). -/
def State.victim (s : State) (core set : Nat) : Option (Nat × Nat) :=
  ((s.linesIn core set).foldl (fun b x =>
    match b with
    | none => some x
    | some y => if lexLt [x.1, x.2.1, x.2.2] [y.1, y.2.1, y.2.2] then some x else b) none).map Prod.snd

/-- Whether a set of a core's cache gives up a line: it holds more lines than ways, or a fill waits for a way (02: R50). -/
def State.gives (s : State) (core set : Nat) : Bool :=
  s.crowded core &&
    (let n := (s.linesIn core set).length
     decide (lineWays < n) || (decide (lineWays ≤ n) && s.groups.any fun p =>
       p.2.ctl.core == core && p.2.ctl.act == .active && p.2.ctl.filling.any fun r => lineSet p.2.ctl.slot r == set))

/-- Whether a core may replace a line: it is the least recently used one of a set that gives one up, no fault stands against its page, and a
dirty one of a group that has failed for the fault domain can be written (02: R50, R53). -/
def State.mayReplace (s : State) (grp line : Nat) : Bool :=
  match Table.get? s.groups grp with
  | none => false
  | some g =>
    let set := lineSet g.ctl.slot line
    s.gives g.ctl.core set && s.victim g.ctl.core set == some (grp, line) && !g.ctxWaits (g.lineAddr line)
      && !(g.ctl.dirty.contains line && s.ctxFailed g && s.ctxFails g [g.linePiece line])

/-- The line that a core replaces next. -/
def State.replaceDue (s : State) (core : Nat) : Option (Nat × Nat) :=
  if !s.crowded core then none
  else (List.range 128).findSome? fun set => (s.victim core set).bind fun x => if s.mayReplace x.1 x.2 then some x else none

/-- A line leaves a group's part of the register cache. -/
def Group.dropLine (line : Nat) (g : Group) : Group :=
  { g with ctl := { g.ctl with
    missing := (List.range g.id.alloc.v).filter fun n => n == line || g.ctl.missing.contains n
    dirty := g.ctl.dirty.filter (· != line)
    operands := g.ctl.operands.filter (· != line)
    used := Table.erase g.ctl.used line } }

/-- A core replaces the least recently used line of a set (02: R50): a dirty one is written back, and a write-back that does not translate
is a context fault (02: R53). -/
def State.replaceLine (s : State) (grp line : Nat) : State :=
  match Table.get? s.groups grp with
  | none => s
  | some g =>
    if !s.mayReplace grp line then s
    else if !g.ctl.dirty.contains line then s.setGroup grp (g.dropLine line)
    else
      match s.ctxWrite g [g.linePiece line] with
      | .error e => s.ctxFault grp g e
      | .ok s => s.setGroup grp (g.dropLine line)

/-! ## Line fills (02: R52, R53) -/

/-- The lines that a word of a set needs filled: those it names, but for the ones it writes whole, and those that values of some lanes
move into (02: R50). -/
def Group.fillsFor (g : Group) (i : Option Instr) (set : BitVec 32) : List Nat :=
  let named := ((i.map fun i => (Instr.uses i).flatMap fun u =>
    if u.cls == .vector && !g.writesWhole i set u then ((u.first g.regs.xi).map fun n => (List.range u.width).map (n + ·)).getD []
    else []).getD [])
  (named ++ pendLines ((g.movesAt ((i.map Instr.closes).getD false) set).filter g.pendMissing)).filter g.ctl.missing.contains

/-- The next words of the sets of a group that stand. -/
def State.nextWords (s : State) (g : Group) : List (Option Instr × BitVec 32) :=
  g.sets.filterMap fun e =>
    match s.fetch g e.2 with
    | .miss => none
    | .held => none
    | .denied => none
    | .spoilt _ _ => none
    | .word w =>
      match decode w with
      | .ok i => some (some i, e.2)
      | .illop => some (none, e.2)
      | .illfld => some (none, e.2)

/-- Whether a group's lines are wanted: it is active, and may issue or enter a trap. -/
def State.wantsLines (s : State) (g : Group) : Bool :=
  !g.ctl.missing.isEmpty && g.ctl.act == .active && !g.id.walker && s.mayEnter g

/-- The lines that a group waits for: those of the next words of its sets, or of the values that move before a trap is entered. -/
def State.linesWanted (s : State) (g : Group) : List Nat :=
  if !s.wantsLines g then []
  else if g.entersTrap then
    (pendLines ((g.fl.pend.map Prod.snd).filter g.pendMissing)).filter g.ctl.missing.contains
  else ((s.nextWords g).flatMap fun e => g.fillsFor e.1 e.2).eraseDups

/-- The lines that a group is to allocate without a fill, whose folios do not translate. -/
def State.foliosWanted (s : State) (g : Group) : List Nat :=
  if !s.wantsLines g then []
  else
    (if g.entersTrap then g.wholeMoves (g.fl.pend.map Prod.snd) else (s.nextWords g).flatMap fun e => g.wholeLines e.1 e.2).filter
      fun n => !s.lineThere g n && !g.ctxWaits (g.lineAddr n)

/-- Whether a line fill may end: it is in flight, no fault stands against its page, and its set has a free way. -/
def State.mayFill (s : State) (g : Group) (line : Nat) : Bool :=
  s.wantsLines g && g.ctl.filling.contains line && g.ctl.missing.contains line && !g.ctxWaits (g.lineAddr line)
    && !s.setFull g.ctl.core (lineSet g.ctl.slot line)

/-- A line of 32 words comes into the core. -/
def Group.fillLine (line : Nat) (bs : List Byte) (g : Group) : Group :=
  let g := { g with ctl := { g.ctl with
    missing := g.ctl.missing.filter (· != line)
    filling := g.ctl.filling.filter (· != line) } }
  ((List.range 32).zip (words32 32 bs)).foldl (fun g p => g.setVreg line p.1 p.2) g

/-- A line was used last (02: R50). -/
def Group.touchLine (line stamp : Nat) (g : Group) : Group := { g with ctl := { g.ctl with used := Table.set g.ctl.used line stamp } }

/-- LINE_FILL (02: R52): a line comes from the context; one that does not translate is a context fault. -/
def execLineFill (grp line : Nat) (s : State) : Out :=
  match Table.get? s.groups grp with
  | none => .next s
  | some g =>
    if !s.mayFill g line then .next s
    else
      match s.ctxRead g (0x2000 + 128 * line) 128 with
      | .error e => .next (s.ctxFault grp g e)
      | .ok bs => .next ((s.countCtx g (0x2000 + 128 * line) 128).setGroup grp ((g.fillLine line bs).touchLine line s.fresh))

/-- Whether a walk that ended for a context has put its page into the TLBs, which serve it from then on. -/
def State.walkServed (s : State) (g : Group) (y : Walked) : Bool :=
  let h := g.view.holder
  match y.2.2 with
  | .fill _ => (s.tlb g.ctl.core h (slotGen (s.slotWord h y.1)) y.2.1).isSome
  | .req _ => false
  | .bad => false

/-- The fills of a group after a turn: the misses of its next words, up to six in flight (02: R52), each a register miss (01: R22; 24:
R398). -/
def State.noteFillsOf (s : State) (k : Nat) : State :=
  match Table.get? s.groups k with
  | none => s
  | some g =>
    let g := { g with ctl := { g.ctl with ctxWalked := g.ctl.ctxWalked.filter fun y => !s.walkServed g y } }
    let s := s.setGroup k g
    let old := g.ctl.filling.filter g.ctl.missing.contains
    let new := ((s.linesWanted g).filter fun n => !old.contains n).take (6 - old.length)
    let s := s.setGroup k { g with ctl := { g.ctl with filling := old ++ new } }
    let s := if new.isEmpty then s else (s.modCore g.ctl.core fun c => { c with
      misses := (c.misses.filter fun t => decide (s.clk.cycle < t + 1024)) ++ new.map fun _ => s.clk.cycle }).tally g.view.partition 0x03
        new.length
    match s.foliosWanted g with
    | [] => s
    | n :: _ => s.ctxFault k g (s.ctxReach g (g.lineAddr n))

/-- The fills and walks of the contexts of all groups after a turn. -/
def State.noteFills (s : State) : State :=
  s.groups.foldl (fun s p =>
    if p.2.ctl.ctxWalked.isEmpty && p.2.ctl.filling.isEmpty && !s.wantsLines p.2 then s else s.noteFillsOf p.1) s

/-! ## Pre-emption (01: R33 to R37) -/

/-- PNOTICE, raised at a group's next instruction boundary (01: R34, 12: R240). -/
def noticeTrap (g : Group) : TrapReq where
  code := codePnotice
  pc := (g.pc ((lanesOf g.live).headD 0)).setWidth 56
  ret := 0
  word := 0
  mask := g.live
  failed := 0
  info := 0
  addr := 0
  imm := 0
  cur := 0
  rank := 300

/-- A group takes part in a notice phase (01: R34). -/
def Group.beginNotice (g : Group) : Group :=
  if g.live = 0#32 then g
  else if g.id.notice then { g.raiseBoundary (noticeTrap g) with ctl := { g.ctl with notice := .pending } }
  else { g with ctl := { g.ctl with notice := .done } }

/-- The launch of a gang lies in this region. -/
def State.gangRegion (s : State) (a : Gang) : Nat := ((Table.get? s.launches a.launch).map fun l => l.region).getD 0

/-- The notice deadline of a gang: that of its groups, as in force since their last refresh points (01: R30). DESIGN CHOICE (log 49): of
groups that hold different ones, the longest; a gang without groups takes its region's. -/
def State.gangDeadline (s : State) (gang : Nat) (a : Gang) : Nat :=
  match (s.groupsOf gang).filterMap fun k => (Table.get? s.groups k).map fun g => g.view.noticeDeadline with
  | [] => s.noticeDeadline (s.gangRegion a)
  | d :: ds => ds.foldl max d

/-- Whether a group of a gang declares a notice handler (01: R34; 16: R302). -/
def State.gangNotices (s : State) (gang : Nat) : Bool :=
  (s.groupsOf gang).any fun k => ((Table.get? s.groups k).map fun g => g.id.notice).getD false

/-- PREEMPT_REQUEST (01: R33, R34, R36): the notice phase begins; with a deadline of 0, or with no notice handler declared, there is none
(16: R302). -/
def execPreemptRequest (gang : Nat) (s : State) : Out :=
  match Table.get? s.gangs gang with
  | none => .next s
  | some a =>
    if a.preempt ≠ .none then .next s
    else
      let d := s.gangDeadline gang a
      if d = 0 || !s.gangNotices gang then .next (s.forceGang gang false)
      else
        let s := s.modGang gang fun a => { a with preempt := .notice (s.clk.cycle + d) }
        .next ((s.groupsOf gang).foldl (fun s k => s.modGroup k Group.beginNotice) s)

/-- Whether the deadline of a gang's notice has passed. -/
def State.deadlineDue (s : State) (a : Gang) : Bool :=
  match a.preempt with
  | .notice d => decide (d ≤ s.clk.cycle)
  | .none => false
  | .forced => false
  | .parked => false

/-- NOTICE_DEADLINE (01: R36): the device parks every group of the gang by force. -/
def execNoticeDeadline (gang : Nat) (s : State) : Out :=
  match Table.get? s.gangs gang with
  | none => .next s
  | some a => .next (if s.deadlineDue a then s.modGang gang fun a => { a with preempt := .forced } else s)

/-- Whether every group of a parking gang has been saved (01: R36). -/
def State.gangSaved (s : State) (gang : Nat) : Bool :=
  (s.groupsOf gang).all fun k =>
    match Table.get? s.groups k with
    | none => true
    | some g => g.ctl.act == .parked && g.ctl.saved

/-- GANG_PARK_COMPLETE (01: R36). -/
def execGangParkComplete (gang : Nat) (s : State) : Out :=
  match Table.get? s.gangs gang with
  | none => .next s
  | some a =>
    if !s.gangParks gang || !s.gangSaved gang then .next s
    else
      let s := s.modGang gang fun a => { a with preempt := .parked }
      .next (s.tally (s.partition (s.gangRegion a)) 0x0A 1)

end Sys2Proof.Machine
end

