-- ==== Sys2Proof/Machine/Device.lean ====
section
/-!
DEFINITION. The control die's own accesses; BAR0, the mailbox and its requests; boot, configuration, attestation and the
violation log (20: R337; 23: R377 to R381, R387).
-/

namespace Sys2Proof.Machine

/-! ## Accesses of the control die (20: R337, R339; log 30) -/

/-- The physical address behind a virtual address under a region's current slot; none when it does not translate. -/
def State.vaPa (s : State) (rcb kind : Nat) (va : BitVec 64) : Option Nat :=
  let h := s.slotHolder rcb
  let w := s.slotWord h (s.currentSlot h)
  if !slotValid w || !inTree va then none
  else
    match walkReach kind (s.walk w va) with
    | .leaf e => some (s.leafPa e va false)
    | .request => none
    | .denied _ => none

/-- The n bytes at a physical address as the control die reads them: none when the home answers with an error response (23: R384). -/
def State.paBytes (s : State) (pa n : Nat) : Option (List Byte) := if (s.spoilt pa n false).isSome then none else some (s.mem.bytes pa n)

/-- The n bytes from a virtual address up, n at most 64 KiB. -/
def State.vaBytes (s : State) (rcb : Nat) (va : BitVec 64) (n : Nat) : Option (List Byte) :=
  let m := 65536 - (va.setWidth 16).toNat
  match s.vaPa rcb kindRead va with
  | none => none
  | some p =>
    if n ≤ m then s.paBytes p n
    else
      match s.vaPa rcb kindRead (va + BitVec.ofNat 64 m) with
      | none => none
      | some q => (s.paBytes p m).bind fun x => (s.paBytes q (n - m)).map fun y => x ++ y

/-- The n32 at a virtual address as the control die reads it; none when it does not translate or its home answers with an error response. -/
def State.vaWord (s : State) (rcb : Nat) (va : BitVec 64) : Option (BitVec 32) :=
  (s.vaPa rcb kindRead va).bind fun pa => (s.paBytes pa 4).map fun b => BitVec.ofNat 32 (leNat b)

/-- What a read of n bytes by the control die leaves at their home: an access that scripts do not name (05: R112), or an error response,
which is logged (23: R386). -/
def State.paNote (s : State) (pa n : Nat) : State :=
  match s.spoilt pa n false with
  | none => s.noteBytes pa n
  | some e => s.homeViolation pa e fun s => s.violation (BitVec.ofNat 64 pa) (s.homeSource pa) 3 0

/-- The same for a read at a virtual address, within one page, with what its walk leaves. -/
def State.pageNote (s : State) (rcb : Nat) (va : BitVec 64) (n : Nat) : State :=
  match s.vaPa rcb kindRead va with
  | none =>
    let w := s.slotWord (s.slotHolder rcb) (s.currentSlot (s.slotHolder rcb))
    if slotValid w && inTree va then s.noteWalkEnd w va else s
  | some pa => s.paNote pa n

/-- The same for the n bytes from a virtual address up, n at most 64 KiB. -/
def State.vaNote (s : State) (rcb : Nat) (va : BitVec 64) (n : Nat) : State :=
  let m := 65536 - (va.setWidth 16).toNat
  if n ≤ m then s.pageNote rcb va n else (s.pageNote rcb va m).pageNote rcb (va + BitVec.ofNat 64 m) (n - m)

/-- Stores a number of n bytes, which lie in one page; an address that does not translate stores nothing (log 30). -/
def State.vaStore (s : State) (rcb : Nat) (va : BitVec 64) (n v : Nat) : State :=
  match s.vaPa rcb kindWrite va with
  | none => s
  | some p => s.engineStore p (leBytes n v)

/-- The field of n bytes at an offset. -/
def fieldAt (bs : List Byte) (off n : Nat) : Nat := leNat ((bs.drop off).take n)

/-! ## BAR0 (23: R377) -/

/-- STATUS. -/
def HostIf.status (h : HostIf) : BitVec 64 :=
  BitVec.ofNat 64 ((match h.dev with | .recovery => 0 | .booting => 1 | .running => 2 | .halted => 3)
    + 4 * h.unconfigured.toNat + 8 * h.timeUnlocked.toNat + 2 ^ 32 * h.lastSeq.toNat)

/-- State with the host interface changed. -/
def State.modHost (s : State) (f : HostIf → HostIf) : State := { s with host := f s.host }

/-- A table of bytes with bytes from an offset up replaced. -/
def putBytesAt (t : Table Byte) (off : Nat) (bs : List Byte) : Table Byte :=
  ((List.range bs.length).zip bs).foldl (fun t p => Table.put 0#8 t (off + p.1) p.2) t

/-- The bytes of a table. -/
def tableBytes (t : Table Byte) (off n : Nat) : List Byte := (List.range n).map fun i => Table.getD t (off + i) 0#8

/-- The result of a code that is not accepted (23: R378). -/
def notAccepted : BitVec 64 := BitVec.allOnes 64

/-- Whether firmware takes a code in the current state (23: R378, R379). -/
def HostIf.accepts (h : HostIf) (code : Nat) : Bool :=
  match h.dev with
  | .running => code != 0x0002
  | .halted => false
  | .recovery => code == 0x0001 || code == 0x0002 || code == 0x0003 || code == 0x0030
  | .booting => code == 0x0001 || code == 0x0002 || code == 0x0003 || code == 0x0030

/-- The codes of the mailbox (23: R378; 24: R393; 25). -/
def knownCodes : List Nat :=
  [0x0001, 0x0002, 0x0003, 0x0010, 0x0011, 0x0020, 0x0021, 0x0022, 0x0023, 0x0024, 0x0025, 0x0026, 0x0027, 0x0028, 0x0030,
   0x0031, 0x0032, 0x0033, 0x0034, 0x0035]

/-- Firmware writes the response, then the sequence, then the event (23: R378). -/
def State.respond (s : State) (q : Request) (result : BitVec 64) (data : List Byte) : State :=
  s.modHost fun h => { h with
    response := putBytesAt [] 0 (leBytes 2 q.code ++ leBytes 2 q.len.toNat ++ leBytes 4 q.seq.toNat ++ leBytes 8 result.toNat ++ data)
    lastSeq := q.seq
    event := h.event ||| 1#3
    taken := none }

/-- Operands of 8 bytes each. -/
def opWords (ns : List Nat) : List Byte := ns.flatMap (leBytes 8)

/-- Serves the request that firmware has taken, when it has this code and these operands, which the row of the table names (23: R378;
layout: log 31). -/
def State.serve (s : State) (code : Nat) (ops : List Byte) (f : Request → State → State) : Out :=
  match s.host.taken with
  | none => .next s
  | some q =>
    if q.code ≠ code || q.operands.take ops.length ≠ ops then .next s
    else if s.host.accepts code then .next (f q s)
    else .next (s.respond q notAccepted [])

/-- Serves a request whose answer is a result alone. -/
def State.serveWith (s : State) (code : Nat) (ops : List Byte) (f : State → State × BitVec 64) : Out :=
  s.serve code ops fun q s => (f s).1.respond q (f s).2 []

/-- Operand n of 8 bytes. -/
def opNat (ops : List Byte) (n : Nat) : Nat := leNat ((ops.drop (8 * n)).take 8)

/-- Whether the block of a known code names an operation that the device has: a sub-operation of the code, a list that the block holds, a
bit or an accumulator number in range. DESIGN CHOICE (log 31): another block is answered as an unknown code. -/
def blockKnown (code : Nat) (ops : List Byte) : Bool :=
  match code with
  | 0x0001 => decide (opNat ops 1 ≤ 4072)
  | 0x0003 => decide (opNat ops 1 ≤ 4072)
  | 0x0010 => decide (opNat ops 0 ≤ 2)
  | 0x0011 => decide (opNat ops 0 ≤ 2)
  | 0x0023 => decide (opNat ops 0 ≤ 510)
  | 0x0033 => match opNat ops 0 with
    | 1 => true
    | 2 => true
    | 3 => decide (leNat ((ops.drop 16).take 1) ≤ 1)
    | 4 => decide (leNat ((ops.drop 16).take 1) ≤ 7)
    | 5 => true
    | 6 => decide (leNat ((ops.drop 16).take 1) ≤ 7)
    | _ => false
  | 0x0034 => decide (opNat ops 0 ≤ 2)
  | 0x0035 => decide (1 ≤ opNat ops 0) && decide (opNat ops 0 ≤ 3)
  | _ => knownCodes.contains code

/-- A write to DOORBELL (23: R378): firmware copies the whole block when the value equals its sequence and no request is in progress;
an unknown code is answered at once. -/
def State.doorbell (s : State) (v : BitVec 32) : State :=
  let seq := BitVec.ofNat 32 (leNat (tableBytes s.host.request 4 4))
  if s.host.taken.isSome || v ≠ seq then s
  else
    let q : Request := {
      code := leNat (tableBytes s.host.request 0 2)
      len := BitVec.ofNat 16 (leNat (tableBytes s.host.request 2 2))
      seq := seq
      operands := tableBytes s.host.request 8 4088 }
    if knownCodes.contains q.code && blockKnown q.code q.operands then s.modHost fun h => { h with taken := some q }
    else s.respond q notAccepted []

/-- What a host read of the aligned 8 bytes at an offset of BAR0 returns (23: R377; 00: R4, R5): write-only registers and reserved fields
read as zero. -/
def HostIf.bar0 (h : HostIf) (off : Nat) : BitVec 64 :=
  if off = 0x0008 then h.status
  else if off = 0x0010 then h.event.setWidth 64
  else if off = 0x0018 then h.nhead.setWidth 64
  else if off = 0x0020 then h.ntail.setWidth 64
  else if 0x1000 ≤ off && off + 8 ≤ 0x2000 then BitVec.ofNat 64 (leNat (tableBytes h.request (off - 0x1000) 8))
  else if 0x2000 ≤ off && off + 8 ≤ 0x3000 then BitVec.ofNat 64 (leNat (tableBytes h.response (off - 0x2000) 8))
  else if 0x3000 ≤ off && off + 8 ≤ 0x4000 then BitVec.ofNat 64 (leNat (tableBytes h.notices (off - 0x3000) 8))
  else 0#64

/-- EVENT_WRITE (23: R377): a one clears its bit. -/
def execEventWrite (v : BitVec 64) (s : State) : Out :=
  .next (s.modHost fun h => { h with event := h.event &&& ~~~ v.setWidth 3 })

/-- NTAIL_WRITE (23: R377, R378): notices that wait for room follow. -/
def execNtailWrite (v : BitVec 64) (s : State) : Out :=
  .next (s.modHost fun h => placeNotices (h.backlog.length + 1) { h with ntail := v.setWidth 7 })

/-! ## Boot (23: R379 to R381) -/

/-- The bytes written so far to a staging area, from offset 0 up. -/
def stagedBytes (t : Table Byte) : List Byte := tableBytes t 0 (t.foldl (fun n p => max n (p.1 + 1)) 0)

/-- Bytes written to a staging area, the zeros among them too. -/
def stageBytes (t : Table Byte) (off : Nat) (bs : List Byte) : Table Byte :=
  ((List.range bs.length).zip bs).foldl (fun t p => Table.set t (off + p.1) p.2) t

/-- The operands of an IMAGE or CONFIG request: offset, bytes, data. -/
def dataOps (off : Nat) (data : List Byte) : List Byte := opWords [off, data.length] ++ data

/-- IMAGE (23: R379): bytes of the image go to the 64 MiB staging area; result 1 for bytes beyond it (log 31). -/
def execImage (off : Nat) (data : List Byte) (s : State) : Out :=
  s.serveWith 0x0001 (dataOps off data) fun s =>
    if 0x4000000 < off + data.length then (s, 1)
    else ({ s with boot := { s.boot with staging := stageBytes s.boot.staging off data } }, 0)

/-- CONFIG (23: R379, R380). -/
def execConfig (off : Nat) (data : List Byte) (s : State) : Out :=
  s.serveWith 0x0003 (dataOps off data) fun s => ({ s with boot := { s.boot with config := stageBytes s.boot.config off data } }, 0)

/-! ### The configuration record (23: R380, R382) -/

def gib : Nat := 0x40000000

/-- Entry n of the interleave-set table (23: R382). -/
def cxlSetOf (b : List Byte) : Config.CxlSet where
  base := fieldAt b 0x00 8
  size := fieldAt b 0x08 8
  ports := BitVec.ofNat 32 (fieldAt b 0x10 4)
  granule := fieldAt b 0x14 1
  sharedMode := fieldAt b 0x15 1 == 1

/-- The ways of a set. -/
def cxlWays (c : Config.CxlSet) : Nat := (lanesOf c.ports).length

/-- Whether an entry obeys its rules by itself: base, size, ways, granule, mode, reserved bytes; its ports of one CXL version, and, when
it is shared, none of CXL 2.0. -/
def cxlSetOk (b : List Byte) : Bool :=
  let c := cxlSetOf b
  let w := cxlWays c
  let old := (lanesOf c.ports).map Config.cxlPort2
  b.length == 32 && c.base % gib == 0 && decide (Config.cxlBase ≤ c.base) && decide (c.base + c.size ≤ Config.cxlEnd)
    && w != 0 && 2 ^ w.log2 == w && c.size != 0 && c.size % (gib * w) == 0 && decide (8 ≤ c.granule) && decide (c.granule ≤ 14)
    && decide (fieldAt b 0x15 1 ≤ 1) && fieldAt b 0x16 10 == 0
    && (old.all id || !(old.any id)) && !(c.sharedMode && old.any id)

/-- Whether no two windows overlap. -/
def windowsApart (ws : List Config.CxlSet) : Bool :=
  match ws with
  | [] => true
  | w :: r => (r.all fun x => !(decide (w.base < x.base + x.size) && decide (x.base < w.base + w.size))) && windowsApart r

/-- Whether a record is valid (23: R380, R382). -/
def recordValid (r : Config.RecordImage) : Bool :=
  let ws := r.sets.map cxlSetOf
  Config.fraotteSignatureOk r.operatorKey r.certificate
    && Config.operatorSignatureOk r.operatorKey (Config.sha512 r.signed) r.signature
    && r.identity == Config.identityKey && r.reservedZero
    && decide (r.sets.length ≤ 256) && r.sets.all cxlSetOk && windowsApart ws
    && decide (ws.foldl (fun n w => n + w.size) 0 ≤ 64 * 2 ^ 40)
    && decide (20 ≤ r.powerCap) && decide (r.powerCap ≤ 52) && decide (r.spares ≤ 16)

/-- The settings of a record, when it is there and valid. -/
def configRecord (bs : List Byte) : Option Config.Settings :=
  let r := Config.recordImage bs
  if bs = [] || !recordValid r then none
  else some {
    device := r.device, sets := r.sets.map cxlSetOf, ports := r.ports, peers := r.peers, ptpDomain := r.ptpDomain
    ptpPorts := r.ptpPorts, powerCap := r.powerCap, spares := r.spares }

/-- The power cap in steps of 0.1 kW: 2.0 kW while the device is unconfigured (23: R380). -/
def State.powerCap (s : State) : Nat := (s.boot.settings.map Config.Settings.powerCap).getD 20

/-- The step of boot that fails, by number (23: R379). -/
def bootFailure (img : List Byte) : Option Nat :=
  let h := Config.imageHeader img
  let body := img.take h.length
  if !h.magic || 0x4000000 < h.length || 1 < h.keyIndex then some 1
  else if h.length < 64 || img.length < h.length then some 2
  else if !Config.imageSignatureOk h.keyIndex (Config.sha512 (body.take (h.length - 64))) (body.drop (h.length - 64)) then
    some 3
  else none

/-- The machine once boot has verified an image: firmware and the walker run from it (23: R379, R380). -/
def State.booted (s : State) (img : List Byte) : State :=
  let h := Config.imageHeader img
  let cfgBytes := stagedBytes s.boot.config
  let cfg := configRecord cfgBytes
  let s : State := { s with boot := { s.boot with
    digest := Config.sha512 ((img.take h.length).take (h.length - 64))
    configDigest := if cfg.isSome then (Config.sha512 cfgBytes).take 32 else []
    version := h.securityVersion
    walkerEntry := h.walkerEntry
    settings := cfg } }
  s.modHost fun x => { x with dev := .running, unconfigured := cfg.isNone, timeUnlocked := !s.clk.reference }

/-- BOOT (23: R379): the first failing step ends it, with the staging area cleared. -/
def execBoot (s : State) : Out :=
  s.serveWith 0x0002 [] fun s =>
    let img := stagedBytes s.boot.staging
    match bootFailure img with
    | some n => ({ s with boot := { s.boot with staging := [] } }, BitVec.ofNat 64 n)
    | none => (s.booted img, 0)

/-- Bytes padded with zeros to a length. -/
def padTo (n : Nat) (bs : List Byte) : List Byte := (bs ++ List.replicate n 0#8).take n

/-- The signed part of an attestation report (23: R381). -/
def State.reportBody (s : State) (nonce : List Byte) : List Byte :=
  padTo 32 nonce ++ padTo 64 s.boot.digest ++ leBytes 4 s.boot.version.toNat ++ leBytes 4 s.device.toNat
    ++ padTo 32 s.boot.configDigest ++ leBytes 8 s.clk.time ++ padTo 32 Config.identityKey

/-- ATTEST (23: R381): the report follows the result (log 31). -/
def execAttest (nonce : List Byte) (s : State) : Out :=
  s.serve 0x0030 (padTo 32 nonce) fun q s =>
    let body := s.reportBody nonce
    s.respond q 0 (body ++ padTo 64 (Config.identitySign (Config.sha512 body)))

/-- The 32 bytes of a violation record (23: R387). -/
def Violation.toBytes (v : Violation) : List Byte :=
  leBytes 8 v.time.toNat ++ leBytes 8 v.address.toNat ++ leBytes 4 v.source.toNat ++ leBytes 1 v.kind ++ leBytes 1 v.reason
    ++ leBytes 2 0 ++ leBytes 8 v.dropped

/-- VLOG (23: R387): reads records in order and frees them, as many as a response holds; the result is their number (log
31). -/
def execVlog (s : State) : Out :=
  s.serve 0x0031 [] fun q s =>
    let vs := s.fab.violations.take 127
    let s := { s with fab := { s.fab with violations := s.fab.violations.drop 127 } }
    s.respond q (BitVec.ofNat 64 vs.length) (vs.flatMap Violation.toBytes)

/-! ## Reset (23: R379, R383) -/

/-- A byte of a shared CXL window: such a window's key is not drawn at boot, so its contents may outlive a reset (23: R383,
R384). -/
def State.inShared (s : State) (pa : Nat) : Bool :=
  match s.boot.settings with
  | none => false
  | some c => c.sets.any fun w => w.sharedMode && decide (w.base ≤ pa) && decide (pa < w.base + w.size)

/-- The machine after a reset; the contents of private windows do not survive it (23: R383), nor, in this model, those of
the slices (log 2). -/
def State.resetFrom (s : State) : State :=
  { State.reset with agenda := s.agenda, open_ := s.open_, mem := s.mem.filter fun p => s.inShared p.1 }

/-- RESET (23: R379). -/
def execReset (s : State) : Out := .next s.resetFrom

/-- I3C_RESET_REQUEST (23: R391). -/
def execI3cResetRequest (s : State) : Out := .next s.resetFrom

end Sys2Proof.Machine
end

