-- ==== Sys2Proof/Machine/Queues.lean ====
section
/-!
DEFINITION. Queues, notify writes, packets and their order, wait and device packets (20: R334 to R343).
-/

namespace Sys2Proof.Machine

/-! ## Queues (20: R334 to R336) -/

/-- Hardware queue slots and queue descriptors (20: R334). -/
def hwSlots : Nat := 4096
def queueCount : Nat := 65536

/-- A queue. -/
def State.queue? (s : State) (q : Nat) : Option Queue := Table.get? s.disp.queues q

/-- State with a queue changed by f. -/
def State.modQueue (s : State) (q : Nat) (f : Queue → Queue) : State :=
  { s with disp := { s.disp with queues := Table.modify s.disp.queues q f } }

/-- Whether index n lies ahead of w under the wrap comparison (20: R335, R336). -/
def ahead (n w : BitVec 32) : Bool := n != w && decide ((n - w).toNat < 2 ^ 31)

/-- The 64 bytes of a queue's descriptor in the queue table (20: R334). -/
def Queue.toBytes (q : Queue) : List Byte :=
  leBytes 8 q.ring.toNat ++ leBytes 4 q.size ++ leBytes 2 q.qgroup ++ leBytes 2 (q.privileged.toNat + 2 * q.error.toNat) ++ leBytes 8 q.rcb
    ++ leBytes 8 q.readAddr.toNat ++ leBytes 8 q.wake.toNat ++ leBytes 4 q.savedWrite.toNat ++ leBytes 4 q.savedRead.toNat ++ leBytes 16 0

/-- A queue as its descriptor has it. -/
def Queue.ofBytes (b : List Byte) (q : Queue) : Queue :=
  { q with
    ring := BitVec.ofNat 64 (fieldAt b 0x00 8)
    size := fieldAt b 0x08 4
    qgroup := fieldAt b 0x0C 2
    privileged := (fieldAt b 0x0E 2).testBit 0
    error := (fieldAt b 0x0E 2).testBit 1
    rcb := fieldAt b 0x10 8
    readAddr := BitVec.ofNat 64 (fieldAt b 0x18 8)
    wake := BitVec.ofNat 64 (fieldAt b 0x20 8)
    savedWrite := BitVec.ofNat 32 (fieldAt b 0x28 4)
    savedRead := BitVec.ofNat 32 (fieldAt b 0x2C 4) }

/-- Firmware writes the descriptor of a queue in the queue table, once it has named the table's base (20: R334; log 23). -/
def State.putQueue (s : State) (q : Nat) : State :=
  match s.boot.queueTable, s.queue? q with
  | some base, some x => s.engineStore (base + 64 * q) x.toBytes
  | _, _ => s

/-- Whether a reserved field of a queue's descriptor is set: flag bits 15:2, bytes 0x30 to 0x3F (20: R334; 00: R5). -/
def queueReserved (b : List Byte) : Bool := fieldAt b 0x0E 2 / 4 != 0 || fieldAt b 0x30 16 != 0

/-- A queue as the table has it; as the control die keeps it while no table is named. The descriptor is rejected when a reserved field is set,
or when its read gets an error response (20: R334; 00: R5). -/
def State.tableQueue (s : State) (q : Nat) (x : Queue) : Option Queue :=
  match s.boot.queueTable with
  | none => some x
  | some base => (s.paBytes (base + 64 * q) 64).bind fun b => if queueReserved b then none else some (x.ofBytes b)

/-- What the read of a queue's descriptor leaves at its home. -/
def State.noteTable (s : State) (q : Nat) : State :=
  match s.boot.queueTable with
  | none => s
  | some base => s.paNote (base + 64 * q) 64

/-- A queue takes a write of n to its notify register (20: R335). -/
def Queue.takeNotify (q : Queue) (n : BitVec 32) : Queue :=
  if !ahead n q.write then q
  else if (n - q.write).toNat ≤ q.size - (q.write - q.read).toNat then { q with write := n }
  else { q with error := true }

/-- A mapped queue takes a notify; an error flag that it sets goes into the descriptor too (20: R334, R335). -/
def State.notifyQueue (s : State) (q : Nat) (n : BitVec 32) : State :=
  match s.queue? q with
  | none => s
  | some x =>
    let s := s.modQueue q fun x => x.takeNotify n
    if x.error == (x.takeNotify n).error then s else s.putQueue q

/-- Firmware clears the error flag of a queue, which goes on (20: R335). -/
def State.clearError (s : State) (q : Nat) : State := (s.modQueue q fun x => { x with error := false }).putQueue q

/-- NOTIFY_WRITE (20: R335, R336): delivered to the queue's slot, or, while it is unmapped, an amax on its wake word. -/
def execNotifyWrite (q : Nat) (v : BitVec 64) (s : State) : Out :=
  let n := v.setWidth 32
  match s.queue? q with
  | none => .next s
  | some x =>
    match x.slot with
    | some _ => .next (s.notifyQueue q n)
    | none =>
      match s.vaWord x.rcb x.wake with
      | none => .next (s.vaNote x.rcb x.wake 4)
      | some w => .next (if ahead n w then s.vaStore x.rcb x.wake 4 n.toNat else s.vaNote x.rcb x.wake 4)

/-- The wake word of a queue (20: R334). DESIGN CHOICE (log 81): one that cannot be read counts as the saved write index. -/
def State.wakeWord (s : State) (q : Queue) : BitVec 32 := (s.vaWord q.rcb q.wake).getD q.savedWrite

/-- Whether the fields of a queue are legal (20: R334). -/
def queueFieldsOk (q ring size qgroup : Nat) (flags : BitVec 16) (readAddr wake : Nat) : Bool :=
  decide (q < queueCount) && decide (ring < 2 ^ 56) && ring % 4096 == 0 && decide (64 ≤ size) && decide (size ≤ 65536)
    && 2 ^ size.log2 == size && decide (qgroup < 256) && decide (flags.toNat < 4) && readAddr % 4 == 0 && wake % 4 == 0

/-- Whether a queue can be mapped to a slot: the slot is free, and the descriptor legal. -/
def State.mayMap (s : State) (k : Nat) (q : Queue) (hw : Nat) : Bool :=
  q.slot.isNone && decide (hw < hwSlots) && !(s.disp.queues.any fun p => p.2.slot == some hw)
    && ((s.tableQueue k q).map fun y => queueFieldsOk k y.ring.toNat y.size y.qgroup 0#16 y.readAddr.toNat y.wake.toNat).getD false

/-- A queue is mapped to a slot: its descriptor is read, the saved indices stand again, and what notify writes left on the wake word is
taken (20: R334, R336). -/
def State.mapQueue (s : State) (q hw : Nat) : State :=
  match s.queue? q with
  | none => s
  | some x =>
    let t := s.noteTable q
    match s.tableQueue q x with
    | none => t
    | some y =>
      if !s.mayMap q x hw then t
      else
        ((t.vaNote y.rcb y.wake 4).modQueue q fun _ => { y with slot := some hw, write := y.savedWrite, read := y.savedRead }).notifyQueue q
          (s.wakeWord y)

/-- QUEUE_SLOT_MAP (20: R334, R336): firmware maps a queue under its own policy. -/
def execQueueSlotMap (q hwSlot : Nat) (s : State) : Out :=
  .next (if s.host.dev == .running then s.mapQueue q hwSlot else s)

/-- QUEUE_SLOT_UNMAP (20: R336): one step; the indices are saved, in the descriptor. -/
def execQueueSlotUnmap (q : Nat) (s : State) : Out :=
  match (s.queue? q).bind Queue.slot with
  | none => .next s
  | some _ => .next ((s.modQueue q fun x => { x with slot := none, savedWrite := x.write, savedRead := x.read }).putQueue q)

/-- QUEUE_CREATE (20: R334): result 1 for an illegal field, or while the queue is mapped (log 31). -/
def execQueueCreate (q ring size qgroup : Nat) (flags : BitVec 16) (rcb readAddr wake : Nat) (s : State) : Out :=
  s.serveWith 0x0010 (opWords [0, q, ring, size, qgroup] ++ leBytes 2 flags.toNat ++ opWords [rcb, readAddr, wake]) fun s =>
    let mapped := match s.queue? q with
      | none => false
      | some x => x.slot.isSome
    if !queueFieldsOk q ring size qgroup flags readAddr wake || mapped then (s, 1)
    else
      let x : Queue := {
        ring := BitVec.ofNat 64 ring, size, qgroup, privileged := flags.getLsbD 0, error := flags.getLsbD 1, rcb
        readAddr := BitVec.ofNat 64 readAddr, wake := BitVec.ofNat 64 wake, savedWrite := 0, savedRead := 0, slot := none
        write := 0, read := 0 }
      (({ s with disp := { s.disp with queues := Table.set s.disp.queues q x } } : State).putQueue q, 0)

/-- QUEUE_MAP (20: R334): result 1 when the queue or the slot is not there to be mapped (log 31). -/
def execQueueMap (q hwSlot : Nat) (s : State) : Out :=
  s.serveWith 0x0010 (opWords [1, q, hwSlot]) fun s =>
    match s.queue? q with
    | none => (s, 1)
    | some x => if s.mayMap q x hwSlot then (s.mapQueue q hwSlot, 0) else (s, 1)

/-- QUEUE_DELETE (20: R334): result 1 while the queue is mapped or a packet of it has not completed (log 31). -/
def execQueueDelete (q : Nat) (s : State) : Out :=
  s.serveWith 0x0010 (opWords [2, q]) fun s =>
    match s.queue? q with
    | none => (s, 1)
    | some x =>
      if x.slot.isSome || s.disp.packets.any fun p => p.2.queue == q then (s, 1)
      else ({ s with disp := { s.disp with queues := Table.erase s.disp.queues q } }, 0)

/-! ## Packets (20: R337, R338) -/

/-- The address of ring unit j of a queue. -/
def Queue.unitAt (q : Queue) (j : BitVec 32) : BitVec 64 := q.ring + BitVec.ofNat 64 (64 * (j.toNat % q.size))

/-- The bytes of n ring units from the read index on. -/
def State.units (s : State) (q : Queue) (n : Nat) : Option (List Byte) :=
  (List.range n).foldl (fun acc j =>
    match acc, s.vaBytes q.rcb (q.unitAt (q.read + BitVec.ofNat 32 j)) 64 with
    | some a, some b => some (a ++ b)
    | _, _ => none) (some [])

/-- What reading n ring units from the read index on leaves at their homes (05: R112; 23: R386). -/
def State.noteUnits (s : State) (q : Queue) (n : Nat) : State :=
  (List.range n).foldl (fun s j => s.vaNote q.rcb (q.unitAt (q.read + BitVec.ofNat 32 j)) 64) s

def pktKind (b : List Byte) : Nat := fieldAt b 0 1
def pktVersion (b : List Byte) : Nat := fieldAt b 1 1
def pktUnits (b : List Byte) : Nat := fieldAt b 2 2
def pktBody (b : List Byte) : BitVec 64 := BitVec.ofNat 64 (fieldAt b 0x08 8)
def pktCompletion (b : List Byte) : BitVec 64 := BitVec.ofNat 64 (fieldAt b 0x10 8)
def pktValue (b : List Byte) : BitVec 64 := BitVec.ofNat 64 (fieldAt b 0x18 8)
def pktArg (b : List Byte) : Nat := fieldAt b 0x20 8
def pktCond (b : List Byte) : Nat := fieldAt b 0x28 8

/-- The ring units of a packet whose header is given. -/
def pktLength (b : List Byte) : Nat := if pktVersion b = 2 && pktUnits b = 5 then 5 else 1

/-- The next packet of a queue, once all its units have been notified (20: R337, R338). -/
def State.peek (s : State) (q : Queue) : Option (List Byte) :=
  let n := (q.write - q.read).toNat
  if s.host.dev != .running || q.slot.isNone || q.error || n = 0 then none
  else
    match s.units q 1 with
    | none => none
    | some h => if pktLength h = 1 then some h else if n < 5 then none else s.units q 5

/-- The range entries of a packet (20: R338). -/
def pktRanges (b : List Byte) : List Range :=
  if pktLength b = 1 then []
  else
    (List.range 16).filterMap fun j =>
      let r : Range := { write := decide (8 ≤ j), base := fieldAt b (64 + 16 * j) 8, len := fieldAt b (72 + 16 * j) 8 }
      if r.len = 0 then none else some r

/-- Whether a range entry has a reserved bit set or passes 2^56. -/
def rangesBad (b : List Byte) : Bool :=
  pktLength b != 1 && (List.range 16).any fun j =>
    decide (2 ^ 56 ≤ fieldAt b (64 + 16 * j) 8) || decide (2 ^ 56 < fieldAt b (64 + 16 * j) 8 + fieldAt b (72 + 16 * j) 8)

/-- Whether the configured windows of the CXL range cover the bytes from lo up to hi without a gap (03: R65); each window is met once. -/
def State.cxlCovers (s : State) (fuel lo hi : Nat) : Bool :=
  match fuel with
  | 0 => decide (hi ≤ lo)
  | n + 1 =>
    if hi ≤ lo then true
    else if !s.inCxl lo then false
    else
      match (s.boot.settings.map Config.Settings.sets).getD [] |>.find? fun w => decide (w.base ≤ lo) && decide (lo < w.base + w.size) with
      | none => false
      | some w => State.cxlCovers s n (w.base + w.size) hi

/-- Whether n bytes from a physical address up lie wholly in the slice range, or wholly in the CXL range (03: R65). -/
def State.spanOk (s : State) (base n : Nat) : Bool :=
  (inSlice base && decide (base + n ≤ base / Config.sliceStride * Config.sliceStride + Config.sliceBytes))
    || s.cxlCovers (((s.boot.settings.map fun c => c.sets.length).getD 0) + 1) base (base + n) && s.inCxl base

/-- Whether the bytes of a table of the KV second stage lie in one range (20: R340). -/
def State.kvSpanOk (s : State) (base count : Nat) : Bool :=
  base % 8 == 0 && (if count = 0 then s.inMemory base else s.spanOk base (8 * count))

/-- Whether a packet is malformed (20: R338, R339, R340). -/
def State.pktBad (s : State) (b : List Byte) : Bool :=
  let k := pktKind b
  !(1 ≤ k && k ≤ 5) || !(pktVersion b == 1 || pktVersion b == 2) || (pktVersion b == 2 && decide (2 < k))
    || pktUnits b != (if pktVersion b = 1 then 1 else 5) || fieldAt b 4 4 != 0 || fieldAt b 0x30 16 != 0
    || (pktCompletion b).toNat % 16 != 0 || (decide (k < 3) && pktArg b != 0) || (k != 3 && pktCond b != 0)
    || (k == 3 && (decide (3 < pktCond b) || (pktBody b).toNat % 4 != 0))
    || (k == 4 && (!(1 ≤ pktArg b && pktArg b ≤ 3) || (pktBody b).toNat % 256 != 0 || !s.inMemory (pktBody b).toNat))
    || (k == 5 && !s.kvSpanOk (pktBody b).toNat (pktArg b)) || rangesBad b

/-- The row that a packet belongs to: 1 launch, 2 graph, 3 wait, 4 to 6 region, 7 device; a packet of a reserved kind or
argument completes under the first row of its like. -/
def pktRow (b : List Byte) : Nat :=
  match pktKind b with
  | 2 => 2
  | 3 => 3
  | 4 => if pktArg b = 2 then 5 else if pktArg b = 3 then 6 else 4
  | 5 => 7
  | _ => 1

/-! ## Completion (20: R339) -/

/-- The completion record: the status, then the value. -/
def State.writeCompletion (s : State) (rcb : Nat) (at_ value status : BitVec 64) : State :=
  if at_ = 0#64 || at_.toNat % 16 ≠ 0 then s
  else (s.vaStore rcb (at_ + 8#64) 8 status.toNat).vaStore rcb at_ 8 value.toNat

/-- The region that the control die reads and writes a queue's memory under. -/
def State.queueRegion (s : State) (q : Nat) : Nat := ((s.queue? q).map Queue.rcb).getD 0

/-- A packet completes: its record is written and its interval entries are free (20: R339, R342). -/
def State.completePacket (s : State) (k : Nat) (status : BitVec 64) : State :=
  match Table.get? s.disp.packets k with
  | none => s
  | some p =>
    let s := s.writeCompletion (s.queueRegion p.queue) p.completion p.value status
    { s with disp := { s.disp with packets := Table.erase s.disp.packets k } }

/-! ## Parsing and order (20: R337, R341, R342) -/

/-- Whether two ranges share a byte. -/
def Range.meets (a b : Range) : Bool := decide (a.base < b.base + b.len) && decide (b.base < a.base + a.len)

/-- Whether a packet with ranges rs has a hazard with an earlier one. -/
def hazard (rs : List Range) (earlier : List Range) : Bool :=
  rs.any fun a => earlier.any fun b => (a.write || b.write) && a.meets b

/-- The queue group of a queue. -/
def State.groupOfQueue (s : State) (q : Nat) : Nat := ((s.queue? q).map Queue.qgroup).getD 0

/-- The packets that a packet of a queue waits for: those of its queue that come first by R341, those of its group by
R342. -/
def State.waitsOn (s : State) (q : Nat) (version : Nat) (rs : List Range) : List Nat :=
  (s.disp.packets.filter fun p =>
    (p.2.queue == q && (version == 1 || p.2.version == 1))
      || (s.groupOfQueue p.2.queue == s.groupOfQueue q && hazard rs p.2.ranges)).map Prod.fst

/-- Whether the interval table of a queue's group has room for n more entries (20: R342). -/
def State.intervalRoom (s : State) (q n : Nat) : Bool :=
  decide ((s.disp.packets.filter fun p => s.groupOfQueue p.2.queue == s.groupOfQueue q).foldl (fun m p => m + p.2.ranges.length) 0
    + n ≤ 4096)

/-- The read index of a queue advances past a parsed packet, and is stored (20: R337). -/
def State.advanceRead (s : State) (q n : Nat) : State :=
  let s := s.modQueue q fun x => { x with read := x.read + BitVec.ofNat 32 n }
  match s.queue? q with
  | none => s
  | some x => s.vaStore x.rcb x.readAddr 4 x.read.toNat

/-- A graph before its first node. -/
def GraphRun.idle : GraphRun where
  begun := false
  node := 0
  loops := []
  started := []
  statuses := []
  bad := false

/-- A well-formed packet is parsed; the answer is its number. -/
def State.enterPacket (s : State) (q : Nat) (b : List Byte) (kind : PacketKind) (graph : GraphRun) : State × Nat :=
  let rs := pktRanges b
  let p : Packet := {
    queue := q, version := pktVersion b, kind, completion := pktCompletion b, value := pktValue b, ranges := rs
    after := s.waitsOn q (pktVersion b) rs, graph }
  let n := s.fresh + 1
  let s : State := { s with fresh := n, disp := { s.disp with packets := Table.set s.disp.packets n p } }
  (s.advanceRead q (pktLength b), n)

/-- Whether every packet that a packet waits for has completed. -/
def State.pktFree (s : State) (p : Packet) : Bool := p.after.all fun k => (Table.get? s.disp.packets k).isNone

/-- Parses the next packet of a queue when it belongs to a row: f gives the state after a well-formed packet; a malformed one
completes with code 0x04. soon asks that the packet could start at once. -/
def State.parse (s : State) (q row : Nat) (soon : Bool) (f : Queue → List Byte → State → State) : State :=
  match s.queue? q with
  | none => s
  | some x =>
    match s.peek x with
    | none => s
    | some b =>
      if pktRow b ≠ row then s
      else if s.pktBad b then
        ((s.noteUnits x (pktLength b)).advanceRead q (pktLength b)).writeCompletion x.rcb (pktCompletion b) (pktValue b) (statusWord 4 0 0)
      else if !s.intervalRoom q (pktRanges b).length then s
      else if soon && (s.dbg.frozen || s.disp.packets.any fun p => p.2.queue == q) then s
      else f x b (s.noteUnits x (pktLength b))

/-- Parses a packet that takes effect and completes at once: region and device packets, from privileged queues only (20:
R339, R341). -/
def State.parseNow (s : State) (q row : Nat) (f : List Byte → State → State × BitVec 64) : Out :=
  .next (s.parse q row true fun x b s =>
    let s := s.advanceRead q (pktLength b)
    if !x.privileged then s.writeCompletion x.rcb (pktCompletion b) (pktValue b) (statusWord 3 6 0)
    else
      let y := f b s
      y.1.writeCompletion x.rcb (pktCompletion b) (pktValue b) y.2)

/-! ## Wait and device packets (20: R340) -/

/-- WAIT_PACKET (20: R340): a wait word that does not translate makes the packet malformed (log 32). -/
def execWaitPacket (q : Nat) (s : State) : Out :=
  .next (s.parse q 3 true fun x b s =>
    match s.vaPa x.rcb kindRead (pktBody b) with
    | none => (s.advanceRead q 1).writeCompletion x.rcb (pktCompletion b) (pktValue b) (statusWord 4 0 0)
    | some _ => (s.enterPacket q b (.wait (pktBody b) (pktCond b) (BitVec.ofNat 32 (pktArg b))) .idle).1)

/-- The condition of a wait packet: eq, ne, hs, lo. -/
def waitHolds (cond : Nat) (w v : BitVec 32) : Bool :=
  match cond with
  | 0 => w == v
  | 1 => w != v
  | 2 => !w.ult v
  | _ => w.ult v

/-- Whether the word of a wait packet satisfies its condition. -/
def State.waitMet (s : State) (p : Packet) : Bool :=
  match p.kind with
  | .wait addr cond v =>
    match s.vaWord (s.queueRegion p.queue) addr with
    | none => false
    | some w => waitHolds cond w v
  | .launch => false
  | .graph => false

/-- What the read of a wait packet's word leaves at its home. -/
def State.waitNote (s : State) (p : Packet) : State :=
  match p.kind with
  | .wait addr _ _ => s.vaNote (s.queueRegion p.queue) addr 4
  | .launch => s
  | .graph => s

/-- WAIT_CONDITION_MET (20: R340). -/
def execWaitConditionMet (pkt : Nat) (s : State) : Out :=
  match Table.get? s.disp.packets pkt with
  | none => .next s
  | some p => .next (if s.waitMet p then (s.waitNote p).completePacket pkt 0 else s)

/-- KV_TABLE_SET (20: R340, 13: R272). -/
def execKvTableSet (q : Nat) (s : State) : Out :=
  s.parseNow q 7 fun b s =>
    ({ s with disp := { s.disp with kvBase := (pktBody b).toNat, kvCount := pktArg b } }, 0)

/-- REGISTER_WRITE (23: R377): an 8-byte store to BAR0. -/
def execRegisterWrite (off : Nat) (v : BitVec 64) (s : State) : Out :=
  if off = 0x0000 then .next (s.doorbell (v.setWidth 32))
  else if off = 0x0010 then execEventWrite v s
  else if off = 0x0020 then execNtailWrite v s
  else if 0x1000 ≤ off && off + 8 ≤ 0x2000 then
    .next (s.modHost fun h => { h with request := putBytesAt h.request (off - 0x1000) (leBytes 8 v.toNat) })
  else if 0x10000 ≤ off && off < 0x90000 && off % 8 == 0 then execNotifyWrite ((off - 0x10000) / 8) v s
  else .next s

end Sys2Proof.Machine
end

