-- ==== Sys2Proof/Machine/Regions.lean ====
section
/-!
DEFINITION. Region control blocks: registration, update, unregistering; the driver's suspend, resume and kill (20: R350,
R351; 01: R29, R30, R32).
-/

namespace Sys2Proof.Machine

/-! ## The block (20: R350) -/

/-- A field of n bytes of a block as a bit vector. -/
def rcbField (b : List Byte) (off n : Nat) : BitVec (8 * n) := BitVec.ofNat (8 * n) (fieldAt b off n)

/-- The region that a block describes, before its level and clipping are known. -/
def regionOfBlock (b : List Byte) : Region where
  parent := fieldAt b 0x000 8
  level := 1
  clipped := 0
  activeGroups := BitVec.ofNat 32 (fieldAt b 0x010 4)
  windowBytes := BitVec.ofNat 64 (fieldAt b 0x018 8)
  matrixShare := BitVec.ofNat 16 (fieldAt b 0x020 2)
  cxlShare := BitVec.ofNat 16 (fieldAt b 0x022 2)
  ceiling := BitVec.ofNat 8 (fieldAt b 0x024 1)
  faultDomain := BitVec.ofNat 8 (fieldAt b 0x025 1)
  promise := BitVec.ofNat 8 (fieldAt b 0x026 1)
  determinism := BitVec.ofNat 8 (fieldAt b 0x027 1)
  publishScope := BitVec.ofNat 8 (fieldAt b 0x028 1)
  partition := BitVec.ofNat 8 (fieldAt b 0x029 1)
  inheritSlots := decide (fieldAt b 0x02A 1 % 2 = 1)
  current := bitsOf (fieldAt b 0x02A 1) 1 3
  watchdog := BitVec.ofNat 32 (fieldAt b 0x02C 4)
  parkThreshold := BitVec.ofNat 32 (fieldAt b 0x030 4)
  noticeDeadline := BitVec.ofNat 32 (fieldAt b 0x034 4)
  slots := (List.range 8).foldl (fun t i => Table.put 0#64 t i (BitVec.ofNat 64 (fieldAt b (0x040 + 8 * i) 8))) []
  inheritMask := decide (fieldAt b 0x080 8 % 2 = 1)
  mask := BitVec.ofNat 320 (fieldAt b 0x088 40)
  arena := BitVec.ofNat 64 (fieldAt b 0x0B0 8)
  frameBytes := BitVec.ofNat 32 (fieldAt b 0x0B8 4)
  frames := BitVec.ofNat 32 (fieldAt b 0x0BC 4)
  pins := []
  holds := []
  unused := []
  suspended := false
  killed := false
  gate := none
  recorder := none
  matrixUse := 0
  cxlUse := []
  replay := none

/-- Whether a byte field is inherit or at most a limit. -/
def upTo {n : Nat} (v : BitVec n) (lim : Nat) : Bool := v == BitVec.allOnes n || decide (v.toNat ≤ lim)

/-- Whether a slot word has its reserved bits zero, and, when it is valid, its node in memory (03: R67; 00: R5). -/
def State.slotWordOk (s : State) (w : BitVec 64) : Bool :=
  w.extractLsb' 4 5 == 0 && !w.getLsbD 1 && (!slotValid w || s.inMemory (slotNode w))

/-- Whether no two valid slots hold one generation (03: R67). -/
def slotsDistinct (t : Table (BitVec 64)) : Bool :=
  (List.range 8).all fun i => (List.range i).all fun j =>
    !(slotValid (Table.getD t i 0#64) && slotValid (Table.getD t j 0#64)
      && slotGen (Table.getD t i 0#64) == slotGen (Table.getD t j 0#64))

/-- Whether every value of a block lies in its range (20: R350). -/
def State.blockOk (s : State) (b : List Byte) : Bool :=
  let r := regionOfBlock b
  fieldAt b 0x014 4 == 0 && fieldAt b 0x02A 1 < 16 && fieldAt b 0x02B 1 == 0 && fieldAt b 0x038 8 == 0 && fieldAt b 0x0C0 64 == 0
    && fieldAt b 0x080 8 < 2 && upTo r.matrixShare 256 && upTo r.cxlShare 256 && upTo r.ceiling 3 && upTo r.faultDomain 2
    && upTo r.promise 1 && upTo r.determinism 3 && (r.publishScope == 0xFF#8 || (decide (7 ≤ r.publishScope.toNat) && decide (r.publishScope.toNat ≤ 11)))
    && upTo r.partition 63 && upTo r.watchdog (2 ^ 24 - 1) && upTo r.parkThreshold 65535 && upTo r.noticeDeadline (2 ^ 24 - 1)
    && (r.frameBytes == BitVec.allOnes 32 || (r.frameBytes.toNat % 65536 == 0 && r.arena.toNat % 65536 == 0 && decide (r.arena.toNat < 2 ^ 55)))
    && (r.parent != 0 || r.frameBytes != BitVec.allOnes 32)

/-- The budgets and the ceiling that a region clips, in table order (20: R350; 01: R30). -/
def State.clippedOf (s : State) (r : Region) : BitVec 12 :=
  if r.parent = 0 then 0
  else
    let above := fun (v : Option Nat) (up : Option Nat) => match v, up with
      | some v, some u => decide (u < v)
      | _, _ => false
    BitVec.ofNat 12 ((above (own r.activeGroups) (s.activeBudget r.parent)).toNat
      + 2 * (above (own r.windowBytes) (s.windowBudget r.parent)).toNat
      + 4 * (above (own r.matrixShare) (some (s.matrixShare r.parent))).toNat
      + 8 * (above (own r.cxlShare) (some (s.cxlShare r.parent))).toNat
      + 16 * (match own r.ceiling with
        | some v => decide (v < s.ceiling r.parent)
        | none => false).toNat)

/-- The status word of a block. -/
def Region.statusWord (r : Region) : Nat := 2 ^ 63 + 2 ^ 32 * r.clipped.toNat + r.level

/-- Clipping is decided again for a region and its descendants, and their status is stored (20: R350, R351). -/
def State.reclip (s : State) (top : Nat) : State :=
  ((s.regions.filter fun p => s.under top p.1).map Prod.fst).foldl (fun s k =>
    let s := s.modRegion k fun r => { r with clipped := s.clippedOf r }
    match Table.get? s.regions k with
    | none => s
    | some r => s.engineStore (k + 8) (leBytes 8 r.statusWord)) s

/-- Whether the effective cluster mask of a region lies in its parent's. -/
def State.maskOk (s : State) (r : Region) : Bool :=
  r.parent == 0 || r.inheritMask || r.mask &&& ~~~ (s.clusterMask r.parent) == 0

/-- Whether a region is registered; a killed one is, until it is unregistered (20: R351; 21: R372). -/
def State.registered (s : State) (rcb : Nat) : Bool := (Table.get? s.regions rcb).isSome

/-- Whether a region is registered and not killed (21: R372). -/
def State.alive (s : State) (rcb : Nat) : Bool :=
  match Table.get? s.regions rcb with
  | none => false
  | some r => !r.killed

/-- The level of a region under its parent. -/
def State.levelUnder (s : State) (parent : Nat) : Nat := if parent = 0 then 1 else ((Table.get? s.regions parent).map fun r => r.level + 1).getD 9

/-- The status of a region packet: region error with a reason (20: R339). -/
def regionError (reason : Nat) : BitVec 64 := statusWord 5 reason 0

/-- What registering a block as a region comes to: state and status (20: R351). -/
def State.registerRegion (s : State) (k : Nat) (bs : List Byte) (r : Region) : State × BitVec 64 :=
  if (Table.get? s.regions k).isSome then (s, regionError 4)
  else if r.parent ≠ 0 && (Table.get? s.regions r.parent).isNone then (s, regionError 1)
  else if 8 < r.level then (s, regionError 2)
  else if !s.blockOk bs || !s.maskOk r || !slotsDistinct r.slots || !(r.slots.all fun p => s.slotWordOk p.2) then (s, regionError 4)
  else (({ s with regions := Table.set s.regions k r.noteUnused } : State).reclip k, 0)

/-- The block that a region packet names, as the control die reads it; none when a home of it answers with an error response (log 77). -/
def State.blockBytes (s : State) (k : Nat) : Option (List Byte) := s.paBytes k 256

/-- The region of a block at its level. -/
def State.regionAt (s : State) (bs : List Byte) : Region := { regionOfBlock bs with level := s.levelUnder (fieldAt bs 0 8) }

/-- REGION_REGISTER (20: R350, R351): the block is copied; a second registration counts as a field value (log 32). -/
def execRegionRegister (q : Nat) (s : State) : Out :=
  s.parseNow q 4 fun b s =>
    let k := (pktBody b).toNat
    match s.blockBytes k with
    | none => (s.paNote k 256, regionError 4)
    | some bs => (s.paNote k 256).registerRegion k bs (s.regionAt bs)

/-- The fields that an update copies: all but the root slots and the slot byte (20: R351). -/
def Region.updated (r n : Region) : Region :=
  { r with
    parent := n.parent
    activeGroups := n.activeGroups, windowBytes := n.windowBytes, matrixShare := n.matrixShare, cxlShare := n.cxlShare
    ceiling := n.ceiling, faultDomain := n.faultDomain, promise := n.promise, determinism := n.determinism
    publishScope := n.publishScope, partition := n.partition, watchdog := n.watchdog, parkThreshold := n.parkThreshold
    noticeDeadline := n.noticeDeadline, inheritMask := n.inheritMask, mask := n.mask, arena := n.arena
    frameBytes := n.frameBytes, frames := n.frames }

/-- The level of a region by its ancestors; one past 8 when it has too many, or is its own ancestor. -/
def State.levelOf (s : State) (rcb : Nat) : Nat := (chainIn s.regions 9 rcb).length

/-- The regions of a subtree. -/
def State.subtree (s : State) (top : Nat) : List Nat := (s.regions.filter fun p => s.under top p.1).map Prod.fst

/-- The levels of a subtree follow its ancestors. -/
def State.relevel (s : State) (top : Nat) : State :=
  { s with regions := s.regions.map fun p => if s.under top p.1 then (p.1, { p.2 with level := s.levelOf p.1 }) else p }

/-- What the state after an update fails with (20: R350, R351). DESIGN CHOICE (log 32): a parent that an update names is held to the
conditions of a registration. -/
def State.updateFails (s t : State) (k : Nat) (n : Region) : Option Nat :=
  if n.parent ≠ 0 && (Table.get? s.regions n.parent).isNone then some 1
  else if (t.subtree k).any fun j => decide (8 < t.levelOf j) then some 2
  else if (t.subtree k).any fun j => !(((Table.get? t.regions j).map t.maskOk).getD true) then some 4
  else none

/-- REGION_UPDATE (20: R351): a region of the subtree whose cluster mask would leave its parent's fails it too (20: R350). -/
def execRegionUpdate (q : Nat) (s : State) : Out :=
  s.parseNow q 5 fun b s =>
    let k := (pktBody b).toNat
    match Table.get? s.regions k, s.blockBytes k with
    | none, _ => (s, regionError 1)
    | some _, none => (s.paNote k 256, regionError 4)
    | some _, some bs =>
      let n := regionOfBlock bs
      let s := s.paNote k 256
      if !s.blockOk bs then (s, regionError 4)
      else
        let t := s.modRegion k fun r => r.updated n
        match s.updateFails t k n with
        | some reason => (s, regionError reason)
        | none => ((t.relevel k).reclip k, 0)

/-- Whether a region is in use: a child, a running launch, a held pin (20: R351). -/
def State.regionBusy (s : State) (k : Nat) (r : Region) : Bool :=
  s.regions.any (fun p => p.2.parent == k) || s.launches.any (fun p => p.2.region == k && p.2.started) || !r.pins.isEmpty || !r.holds.isEmpty

/-- REGION_UNREGISTER (20: R351, 21: R362): its publish slots are free, their counters stand. -/
def execRegionUnregister (q : Nat) (s : State) : Out :=
  s.parseNow q 6 fun b s =>
    let k := (pktBody b).toNat
    match Table.get? s.regions k with
    | none => (s, regionError 1)
    | some r =>
      if s.regionBusy k r then (s, regionError 3)
      else
        let s := (List.range 8).foldl (fun s i => s.tlbDrop k (slotGen (Table.getD r.slots i 0#64))) s
        let s : State := { s with
          regions := Table.erase s.regions k
          xlat := { s.xlat with owners := s.xlat.owners.filter fun p => p.2 != k } }
        (s.engineStore (k + 8) (leBytes 8 0), 0)

/-! ## Suspend, resume, kill by the driver (01: R32; 23: R378) -/

/-- REGION_SUSPEND (01: R32): result 1 for a region that is not registered (log 31). -/
def execRegionSuspend (rcb : Nat) (s : State) : Out :=
  s.serveWith 0x0011 (opWords [0, rcb]) fun s => if s.registered rcb then (s.suspendRegion rcb, 0) else (s, 1)

/-- A group that waited for the driver may go on (01: R20, R32; 25: R418); its context is translated anew (02: R53). -/
def Group.released? (g : Group) : Group :=
  if g.ctl.cause == .suspend then { g with ctl := { g.ctl with cause := .resumed, ctxAns := [], ctxWalked := [] } } else g

/-- The driver resumes a region and its subtree: suspended gangs may be placed again (01: R32, R37). -/
def State.resumeRegion (s : State) (top : Nat) : State :=
  let mine := fun (launch : Nat) =>
    match Table.get? s.launches launch with
    | none => false
    | some l => s.under top l.region
  { s with
    regions := s.regions.map fun p => if s.under top p.1 then (p.1, { p.2 with suspended := false }) else p
    gangs := s.gangs.map fun p => if mine p.2.launch then (p.1, { p.2 with suspended := false, again := p.2.again || p.2.suspended }) else p
    groups := s.groups.map fun p => if mine p.2.id.launch && !p.2.id.walker then (p.1, p.2.released?) else p }

/-- REGION_RESUME (01: R32; 17: R303). -/
def execRegionResume (rcb : Nat) (s : State) : Out :=
  s.serveWith 0x0011 (opWords [1, rcb]) fun s => if s.registered rcb then (s.resumeRegion rcb, 0) else (s, 1)

/-- REGION_KILL (01: R32). -/
def execRegionKill (rcb : Nat) (s : State) : Out :=
  s.serveWith 0x0011 (opWords [2, rcb]) fun s => if s.registered rcb then (s.killRegion rcb, 0) else (s, 1)

end Sys2Proof.Machine
end

