-- ==== Sys2Proof/Machine/Launches.lean ====
section
/-!
DEFINITION. Launches: descriptors, records and binding tables, start and rejection, claims, placement, retirement and
completion; kernel graphs (20: R343 to R349, R352; 19: R326, R332; 05: R109, R130; 14: R291 to R293; 25: R409, R415, R418).
-/

namespace Sys2Proof.Machine

/-! ## Descriptors, records, binding tables (20: R344, R345; 19: R332) -/

/-- The descriptor in 128 bytes (20: R344). -/
def descOf (b : List Byte) : LaunchDesc where
  record := BitVec.ofNat 64 (fieldAt b 0x00 8)
  region := fieldAt b 0x08 8
  x := fieldAt b 0x10 4
  y := fieldAt b 0x14 2
  z := fieldAt b 0x16 2
  privileged := decide (fieldAt b 0x18 4 % 2 = 1)
  spillBytes := fieldAt b 0x1C 4
  seed := BitVec.ofNat 64 (fieldAt b 0x20 8)
  binding := BitVec.ofNat 64 (fieldAt b 0x28 8)
  spill := BitVec.ofNat 64 (fieldAt b 0x30 8)
  args := (List.range 8).map fun k => BitVec.ofNat 64 (fieldAt b (0x40 + 8 * k) 8)

/-- Whether a descriptor has a reserved bit set or a field out of range. -/
def descBad (b : List Byte) : Bool :=
  let d := descOf b
  d.x == 0 || d.y == 0 || d.z == 0 || decide (1 < fieldAt b 0x18 4) || d.spillBytes % 64 != 0 || d.binding.toNat % 64 != 0
    || d.spill.toNat % 64 != 0 || (d.spill == 0 && d.spillBytes != 0) || fieldAt b 0x38 8 != 0

/-- Groups of a workgroup (01: R8). -/
def Record.groups (r : Record) : Nat := (r.t + 31) / 32

/-- A position entry (19: R332). -/
def positionOf (e : Nat) : Position where
  notice := decide (bitsOf e 39 1 = 1)
  cls := BitVec.ofNat 2 (bitsOf e 36 2)
  duty := match bitsOf e 32 2 with
    | 0 => .copy
    | 1 => .matrix
    | _ => .vector
  alloc := { v := 8 * bitsOf e 0 6, s := 8 * bitsOf e 8 4, t := bitsOf e 16 4, a := bitsOf e 24 4 }

/-- The launch record in its header of 0xA8 bytes. -/
def recordOf (b : List Byte) : Record :=
  let t := fieldAt b 0x12 2
  { entry := BitVec.ofNat 56 (fieldAt b 0x00 8)
    tvec := BitVec.ofNat 56 (fieldAt b 0x08 8)
    w := fieldAt b 0x10 2
    t := t
    rings := fieldAt b 0x14 1
    panels := fieldAt b 0x16 2
    classT := decide (bitsOf (fieldAt b 0x18 4) 0 1 = 1)
    classA := decide (bitsOf (fieldAt b 0x18 4) 1 1 = 1)
    laneStack := fieldAt b 0x1C 4
    uniStack := fieldAt b 0x20 4
    positions := (List.range (min 16 ((t + 31) / 32))).map fun p => positionOf (fieldAt b (0x28 + 8 * p) 8) }

def roleCount (b : List Byte) : Nat := fieldAt b 0x24 2
def templateCount (b : List Byte) : Nat := fieldAt b 0x26 2

/-- Whether a position entry has a reserved bit set, or duty 3 (19: R332, 02: R47). -/
def positionBad (e : Nat) : Bool :=
  decide (2 ^ 40 ≤ e) || bitsOf e 38 1 != 0 || bitsOf e 34 2 != 0 || bitsOf e 28 4 != 0 || bitsOf e 20 4 != 0 || bitsOf e 12 4 != 0
    || bitsOf e 6 2 != 0 || bitsOf e 32 2 == 3

/-- Whether the header of a record has a reserved bit set or a value out of range (19: R332; log 33). -/
def recordBad (b : List Byte) : Bool :=
  let r := recordOf b
  !(1 ≤ r.w && r.w ≤ 4) || !(1 ≤ r.t && r.t ≤ 512) || decide (16 < r.rings) || fieldAt b 0x15 1 != 0 || decide (512 < r.panels)
    || decide (4 ≤ fieldAt b 0x18 4) || r.laneStack % 16 != 0 || decide (65536 < r.laneStack) || r.uniStack % 8 != 0
    || decide (4096 < r.uniStack) || decide (256 < roleCount b) || decide (256 < templateCount b)
    || decide (2 ^ 56 ≤ fieldAt b 0x00 8) || fieldAt b 0x00 8 % 4 != 0 || decide (2 ^ 56 ≤ fieldAt b 0x08 8) || fieldAt b 0x08 8 % 4 != 0
    || (List.range 16).any fun p =>
        let e := fieldAt b (0x28 + 8 * p) 8
        if p < r.groups then positionBad e else e != 0

/-- Whether a role entry is out of range; a template entry names a tensor identifier below 256. -/
def roleBad (e : Nat) : Bool :=
  bitsOf e 8 2 == 0 || bitsOf e 10 22 != 0 || decide (2 ^ 55 ≤ e) || (bitsOf e 8 2 != 1 && bitsOf e 32 23 != 0)

/-- The role entries and the templates that follow a record's header. -/
structure RecordTail where
  roles : List Nat
  templates : List (Nat × List Byte)
  bad : Bool
  deriving DecidableEq, Repr

/-- Whether a tensor-identifier entry has a reserved bit set (13: R249). -/
def tidReserved (b : List Byte) : Bool :=
  decide (2 ^ 8 ≤ fieldAt b 0x24 4) || decide (2 ^ 48 ≤ fieldAt b 0x28 8) || decide (2 ^ 48 ≤ fieldAt b 0x30 8) || fieldAt b 0x3C 4 != 0

def tailOf (hd tl : List Byte) : RecordTail :=
  let n := roleCount hd
  let roles := (List.range n).map fun k => fieldAt tl (8 * k) 8
  let ts := (List.range (templateCount hd)).map fun k => (fieldAt tl (8 * n + 72 * k) 8, ((tl.drop (8 * n + 72 * k + 8)).take 64))
  { roles, templates := ts, bad := roles.any roleBad || ts.any fun t => decide (256 ≤ t.1) || tidReserved t.2 }

/-- Whether an allocation breaks 02: R38. -/
def allocBad (p : Position) : Bool :=
  !(8 ≤ p.alloc.v && p.alloc.v ≤ 256) || !(8 ≤ p.alloc.s && p.alloc.s ≤ 64) || decide (8 < p.alloc.t) || decide (8 < p.alloc.a)
    || p.alloc.a % 2 != 0 || (p.duty != .matrix && (p.alloc.t != 0 || p.alloc.a != 0))

/-- Whether an entry of a binding table is malformed (20: R345). -/
def bindingBad (b : BitVec 64) : Bool :=
  b.extractLsb' 55 9 != 0 || b.extractLsb' 3 5 != 0
    || (match bindKind b with
      | 0 => b.getLsbD 2 || bindWindow b != 0
      | 1 => bindWindow b % 256 != 0 || decide (0x600000 < bindWindow b) || (decide (Config.clusters ≤ bindTarget b) && bindTarget b != ownCluster)
      | 2 => b.getLsbD 2 || bindWindow b != 0 || decide (2 ^ 22 ≤ bindTarget b)
      | _ => b.getLsbD 2 || bindWindow b != 0 || decide (256 ≤ bindTarget b))

/-- What a launch reads when it starts. -/
structure LaunchImage where
  desc : LaunchDesc
  record : Record
  tail : RecordTail
  binding : List (BitVec 64)
  deriving DecidableEq, Repr

/-- Reads descriptor, record and binding table; a rejection names its reason (20: R344; unreadable: log 33). -/
def State.readLaunch (s : State) (rcb : Nat) (addr : BitVec 64) : Except Nat LaunchImage :=
  if addr.toNat % 64 ≠ 0 then .error 1
  else
    match s.vaBytes rcb addr 128 with
    | none => .error 1
    | some db =>
      if descBad db then .error 1
      else
        let d := descOf db
        match s.vaBytes rcb d.record 0xA8 with
        | none => .error 1
        | some hd =>
          if recordBad hd then .error 1
          else
            let r := recordOf hd
            match s.vaBytes rcb (d.record + 0xA8#64) (8 * roleCount hd + 72 * templateCount hd), s.vaBytes rcb d.binding 2048 with
            | none, _ => .error 1
            | some tl, none => if (tailOf hd tl).bad || decide (2 ^ 64 < d.x * r.w * d.y * d.z) then .error 1 else .error 4
            | some tl, some bt =>
              if (tailOf hd tl).bad || decide (2 ^ 64 < d.x * r.w * d.y * d.z) then .error 1
              else .ok {
                desc := d, record := r, tail := tailOf hd tl
                binding := (List.range 256).map fun k => BitVec.ofNat 64 (fieldAt bt (8 * k) 8) }

/-! ## Where a launch may run (20: R346, R348; 25: R414) -/

/-- Whether a cluster is held spare: the highest-numbered ones (23: R380, 25: R414; log 34). A spare takes work as a replacement only, also
once it is in service. -/
def State.spare (s : State) (c : Nat) : Bool :=
  match s.boot.settings with
  | none => false
  | some x => decide (Config.clusters - x.spares ≤ c)

/-- Whether a spare cluster is free for the work of a cluster: it stands for that cluster, or for none yet (25: R414). -/
def State.spareFor (s : State) (c a : Nat) : Bool :=
  s.spare c && !(s.cluster c).retired && ((s.cluster c).standsFor.isNone || (s.cluster c).standsFor == some a)

/-- A spare cluster stands for a cluster from now on. -/
def State.takeSpare (s : State) (c a : Nat) : State := if s.spare c then s.modCluster c fun x => { x with standsFor := some a } else s

/-- The cores of a cluster that are in service. -/
def State.coresOf (s : State) (c : Nat) : List Nat := ((List.range 4).map fun j => 4 * c + j).filter fun k => !(s.core k).retired

/-- Whether a cluster takes work of its own: it is in service and no spare (25: R414). -/
def State.inService (s : State) (c : Nat) : Bool := !(s.cluster c).retired && !s.spare c

/-- The clusters that a binding table and a region make eligible (20: R348). -/
def State.eligible (s : State) (rcb : Nat) (binding : List (BitVec 64)) : List Nat :=
  let named := binding.filter fun b => bindKind b == 1 && b.getLsbD 2 && bindTarget b != ownCluster
  (List.range Config.clusters).filter fun c => s.inService c &&
    (if named.isEmpty then (s.clusterMask rcb).getLsbD c else named.any fun b => bindTarget b == c)

/-- The largest window of the own-cluster roles: the bytes of a gang window (20: R346). -/
def gangWindowOf (binding : List (BitVec 64)) : Nat :=
  binding.foldl (fun m b => if bindKind b = 1 && bindTarget b = ownCluster then max m (bindWindow b) else m) 0

/-- The launch windows that a binding table asks for, by cluster (20: R346). -/
def launchWindowsOf (binding : List (BitVec 64)) : Table Nat :=
  binding.foldl (fun t b =>
    if bindKind b = 1 && bindTarget b ≠ ownCluster then Table.put 0 t (bindTarget b) (max (Table.getD t (bindTarget b) 0) (bindWindow b))
    else t) []

/-- Window bytes held on a cluster. -/
def State.windowBytesOn (s : State) (c : Nat) : Nat :=
  s.launches.foldl (fun n p => n + Table.getD p.2.windows c 0) 0
    + s.gangs.foldl (fun n p => if p.2.cluster = c then n + p.2.window else n) 0

/-- Window bytes held by a region's subtree (01: R31). -/
def State.windowBytesOf (s : State) (top : Nat) : Nat :=
  s.launches.foldl (fun n p => if s.under top p.2.region then n + p.2.windows.foldl (fun m w => m + w.2) 0 else n) 0
    + s.gangs.foldl (fun n p => if s.under top (s.gangRegion p.2) then n + p.2.window else n) 0

/-- Whether the window budgets of a region and of its ancestors allow more bytes (01: R31). -/
def State.windowsAllow (s : State) (fuel rcb extra : Nat) : Bool :=
  match fuel with
  | 0 => true
  | n + 1 =>
    match Table.get? s.regions rcb with
    | none => true
    | some r =>
      (match s.windowBudget rcb with
        | none => true
        | some b => decide (s.windowBytesOf rcb + extra ≤ b)) && (r.parent == 0 || State.windowsAllow s n r.parent extra)

/-- The record of a gang's launch. -/
def State.recordOfGang (s : State) (a : Gang) : Option Record := (Table.get? s.launches a.launch).map Launch.record

/-- Stage rings and weight-buffer panels held on a cluster (13: R259, R261). -/
def State.heldOn (s : State) (c : Nat) (f : Record → Nat) : Nat :=
  s.gangs.foldl (fun n p => if p.2.cluster = c then n + ((s.recordOfGang p.2).map f).getD 0 else n) 0

/-- Free frames of a region's arena, lowest first: a group that is placed keeps the bytes that it was given, wherever the arena lies since (20:
R349; 01: R30). -/
def State.freeFrameNos (s : State) (rcb : Nat) : List Nat :=
  let h := s.arenaHolder rcb
  let a := s.arena rcb
  let used := (s.groups.filter fun p => p.2.id.arena == h && !p.2.id.walker && !p.2.ctl.dead).map fun p => (p.2.id.frame, p.2.id.desc + 64)
  (List.range a.2.2).filter fun n => !used.any fun u => decide (a.1 + n * a.2.1 < u.2) && decide (u.1 < a.1 + (n + 1) * a.2.1)

/-- Whether a cluster has room for a gang of a launch, its frames apart (20: R348). -/
def State.clusterRoom (s : State) (l : Launch) (c window : Nat) : Bool :=
  !(s.cluster c).retired && decide (l.record.w ≤ (s.coresOf c).length)
    && decide (s.windowBytesOn c + window ≤ Config.sliceBytes)
    && decide (s.heldOn c Record.rings + l.record.rings ≤ 16)
    && decide (s.heldOn c Record.panels + l.record.panels ≤ 512)

/-- Whether a cluster could place one gang of a launch now (20: R348). -/
def State.couldPlace (s : State) (l : Launch) (c : Nat) : Bool :=
  let w := gangWindowOf l.binding.vals
  s.clusterRoom l c w && s.windowsAllow 8 l.region w
    && decide (l.record.w * l.record.groups ≤ (s.freeFrameNos l.region).length)

/-! ## Start and rejection (20: R344, R347) -/

/-- The bytes that a frame must hold (20: R349). -/
def frameNeed (r : Record) : Nat :=
  guardBytes r + stackBytes r
    + (r.positions.foldl (fun m p => max m (contextBytes p.alloc p.duty)) 0 + 0xFFF) / 0x1000 * 0x1000 + 64

/-- Whether a cluster could ever hold one gang of a launch: its cores in service, and the bytes of its slice for the gang window and for
the launch's own launch window there (20: R344, R346, R348). -/
def State.couldEver (s : State) (r : Record) (binding : List (BitVec 64)) (c : Nat) : Bool :=
  decide (r.w ≤ (s.coresOf c).length)
    && decide (gangWindowOf binding + Table.getD (launchWindowsOf binding) c 0 ≤ Config.sliceBytes)

/-- Why a launch is rejected, the lowest reason first (20: R344; log 33). -/
def State.rejection (s : State) (l : Launch) (rcb : Nat) (m : LaunchImage) : Option Nat :=
  let r := m.record
  let mode := s.determinism rcb
  let ar := s.arena rcb
  let h := s.slotHolder rcb
  if r.positions.any allocBad then some 2
  else if (mode = 1 && (r.classT || r.classA)) || (mode = 3 && r.classT)
      || (2 ≤ mode && decide (2 ^ 28 < m.desc.x * r.w * m.desc.y * m.desc.z)) then some 3
  else if m.binding.any bindingBad
      || m.tail.roles.any fun e => bindKind (m.binding.getD (e % 256) 0#64) != bitsOf e 8 2 then some 4
  else if !s.alive rcb then some 5
  else if m.desc.privileged && !l.queuePriv then some 6
  else if !((s.eligible rcb m.binding).any (s.couldEver r m.binding)) || decide (ar.2.2 < r.w * r.groups) then some 7
  else if ar.2.1 < frameNeed r then some 8
  else if !slotValid (s.slotWord h (s.currentSlot h)) then some 9
  else none

/-- The tensor-identifier entries that the templates give (19: R332). -/
def tidsOf (ts : List (Nat × List Byte)) : Table Byte :=
  ts.foldl (fun t e => ((List.range 64).zip e.2).foldl (fun t p => Table.put 0#8 t (64 * e.1 + p.1) p.2) t) []

/-- Gangs of a launch (01: R15). -/
def LaunchDesc.gangs (d : LaunchDesc) : Nat := d.x * d.y * d.z

/-- A launch starts (20: R346, R347): its windows are held, its slot is pinned, its counter is zero. -/
def State.startLaunch (s : State) (k : Nat) (l : Launch) (rcb : Nat) (m : LaunchImage) : State :=
  let h := s.slotHolder rcb
  let slot := s.currentSlot h
  let l' : Launch := { l with
    desc := m.desc, region := rcb, started := true, record := m.record
    binding := ((List.range 256).zip m.binding).foldl (fun t p => Table.put 0#64 t p.1 p.2) []
    tids := tidsOf m.tail.templates, windows := launchWindowsOf m.binding, counter := 0, dispatchers := [], pin := some (h, slot) }
  ({ s with launches := Table.set s.launches k l' } : State).pin h slot

/-- A launch is rejected: it completes without placing any gang. -/
def State.rejectLaunch (s : State) (k reason : Nat) : State :=
  s.modLaunch k fun l => { l with status := some (statusWord 3 reason 0) }

/-- Whether a launch may start: its packet's turn has come, and the launches that it follows have completed (20: R341, R342,
R352). -/
def State.mayStartLaunch (s : State) (l : Launch) : Bool :=
  !l.started && !l.killed && l.status.isNone && s.host.dev == .running && !s.dbg.frozen
    && (match Table.get? s.disp.packets l.packet with
      | none => false
      | some p => s.pktFree p)
    && l.after.all fun k => (Table.get? s.launches k).isNone

/-- Whether the launch windows of a launch fit (20: R346; 01: R31). -/
def State.windowsFit (s : State) (rcb : Nat) (ws : Table Nat) : Bool :=
  ws.all (fun p => decide (s.windowBytesOn p.1 + p.2 ≤ Config.sliceBytes))
    && s.windowsAllow 8 rcb (ws.foldl (fun n p => n + p.2) 0)

/-- LAUNCH_START (20: R344, R346, R347): rejected, started, or waiting for its windows. -/
def execLaunchStart (launch : Nat) (s : State) : Out :=
  match Table.get? s.launches launch with
  | none => .next s
  | some l =>
    if !s.mayStartLaunch l then .next s
    else
      match s.readLaunch (s.queueRegion l.queue) l.descAddr with
      | .error n => .next (s.rejectLaunch launch n)
      | .ok m =>
        let rcb := if m.desc.region = 0 then s.queueRegion l.queue else m.desc.region
        match s.rejection l rcb m with
        | some n => .next (s.rejectLaunch launch n)
        | none =>
          if s.windowsFit rcb (launchWindowsOf m.binding) then
            .next ((s.vaNote (s.queueRegion l.queue) l.descAddr 128).startLaunch launch l rcb m)
          else .next s

/-! ## Claims (20: R347) -/

/-- A die's dispatcher of a launch. -/
def Launch.dispatcher (l : Launch) (die : Nat) : Dispatcher := Table.getD l.dispatchers die ⟨[], false⟩

/-- The clusters of a die. -/
def clustersOf (die : Nat) : List Nat := (List.range Config.clustersPerDie).map fun j => Config.clustersPerDie * die + j

/-- The clusters of a die where a gang of a launch could be placed now. -/
def State.placesOn (s : State) (l : Launch) (die : Nat) : List Nat :=
  let es := s.eligible l.region l.binding.vals
  (clustersOf die).filter fun c => es.contains c && s.couldPlace l c

/-- Whether a dispatcher may claim. -/
def State.mayClaim (s : State) (l : Launch) (die : Nat) : Bool :=
  l.started && !l.killed && s.host.dev == .running && decide (die < 16) && !(l.dispatcher die).stopped
    && decide ((l.dispatcher die).claimed.length < 16) && !(s.placesOn l die).isEmpty

/-- GANG_CLAIM (20: R347): a fetch-and-add of 16 on the workgroup counter. -/
def execGangClaim (launch die : Nat) (s : State) : Out :=
  match Table.get? s.launches launch with
  | none => .next s
  | some l =>
    if !s.mayClaim l die then .next s
    else
      let d := l.dispatcher die
      let n := l.desc.gangs
      let b := l.counter
      let d' : Dispatcher := if n ≤ b then { d with stopped := true }
        else { d with claimed := d.claimed ++ (List.range (min 16 (n - b))).map fun i => b + i }
      .next (s.modLaunch launch fun l => { l with counter := b + 16, dispatchers := Table.set l.dispatchers die d' })

/-! ## Placement (20: R348, R349; 01: R9, R14, R21; 02: R49) -/

/-- The smaller under a key, the first on ties. -/
def leastBy (f : Nat → Nat) (xs : List Nat) : Option Nat :=
  xs.foldl (fun b x =>
    match b with
    | none => some x
    | some y => if f x < f y then some x else b) none

/-- Active groups of a cluster. -/
def State.activeOnCluster (s : State) (c : Nat) : Nat := ((List.range 4).map fun j => s.activeOn (4 * c + j)).foldl (· + ·) 0

/-- Inserts a core by active groups, then number. -/
def insertCore (f : Nat → Nat) (x : Nat) (xs : List Nat) : List Nat :=
  match xs with
  | [] => [x]
  | y :: r => if f x < f y || (f x = f y && x < y) then x :: y :: r else y :: insertCore f x r

/-- The w cores of a cluster with the fewest active groups (20: R348). -/
def State.pickCores (s : State) (c w : Nat) : List Nat := ((s.coresOf c).foldr (insertCore s.activeOn) []).take w

/-- The lowest free group slot of a core (log 35). -/
def State.freeSlot (s : State) (core : Nat) : Nat :=
  let used := (s.groups.filter fun p => p.2.ctl.core == core && !p.2.id.walker).map fun p => p.2.ctl.slot
  ((List.range (used.length + 1)).find? fun n => !used.contains n).getD 0

/-- The present lanes of position p (01: R8). -/
def Record.presentLanes (r : Record) (p : Nat) : BitVec 32 := maskOf fun l => decide (32 * p + l < r.t)

/-- The launch registers of a group (19: R326). -/
def launchRegs (l : Launch) (stack : Nat) : Table (BitVec 64) :=
  let r := l.record
  let t := ((List.range 8).zip l.desc.args).foldl (fun t p => Table.put 0#64 t p.1 p.2) []
  let t := if stack = 0 then t else Table.put 0#64 t 57 (BitVec.ofNat 64 (stack + 32 * r.laneStack + r.uniStack))
  let t := Table.put 0#64 t 58 (BitVec.ofNat 64 r.laneStack)
  Table.put 0#64 t 59 (BitVec.ofNat 64 stack)

/-- Where a new group stands. -/
structure Place where
  launch : Nat
  gang : Nat
  wg : Nat
  grpid : Nat
  core : Nat
  rootSlot : Nat
  deriving DecidableEq, Repr

/-- A group at its creation, before it is known whether it activates (01: R9, 19: R326). -/
def State.newGroup (s : State) (l : Launch) (pl : Place) (pos : Position) (frameNo : Nat) : Group :=
  let ar := s.arena l.region
  let frame := ar.1 + frameNo * ar.2.1
  let gb := guardBytes l.record + stackBytes l.record
  let stack := if stackBytes l.record = 0 then 0 else frame + guardBytes l.record
  let present := l.record.presentLanes pl.grpid
  { id := { launch := pl.launch, gang := pl.gang, wg := pl.wg, grpid := pl.grpid, duty := pos.duty, alloc := pos.alloc, notice := pos.notice
            walker := false, created := s.fresh + 1, frame := frame
            desc := frame + gb + (contextBytes pos.alloc pos.duty + 0xFFF) / 0x1000 * 0x1000, arena := s.arenaHolder l.region }
    ctl := { core := pl.core, slot := s.freeSlot pl.core, present := present, exited := 0#32
             pcs := (lanesOf present).foldl (fun t k => Table.put 0#64 t k (l.record.entry.setWidth 64)) []
             counts := [], waits := [], fetched := [], cur := 0#32, yielded := 0#32, cls := pos.cls, lastLane := 0, lastUni := 0
             readySince := s.clk.cycle, urgent := false, act := .parked, cause := .created, waitSince := none
             wakeSince := some s.clk.cycle, notice := .none, stopped := false, stepping := false, uncompared := 0#32
             missing := List.range pos.alloc.v, dirty := [], used := [], operands := [], filling := []
             ctx := BitVec.ofNat 64 (frame + gb), ctxReqs := [], ctxAns := [], ctxWalkOn := [], ctxWalked := []
             saved := false, lastExit := 0#56, compared := false, issuedAt := none, watchdogged := false, dead := false }
    regs := { v := [], s := launchRegs l stack, c := [], ucc := 0#4, xi := 0#8, tiles := [], scales := [], acc := [] }
    fl := { ops := [], probes := [], pend := [], landing := [], late := [], nextSeq := 0, ordinals := [], faddOrdinals := [], hash := 0#32, cmds := []
            roots := [], sleepers := [], publ := none, hashing := [] }
    tr := { st := { code := 0#8, active := false, resume := false, held := false, imm := 0#12, pc := 0#56, ret := 0#56
                    word := 0#32, mask := 0#32, failed := 0#32, info := 0#32, addr := 0#64, cur := 0#56 }
            tvec := l.record.tvec, entering := none, boundary := [], saved := [] }
    pinSlot := pl.rootSlot
    pinGen := slotGen (s.slotWord (s.slotHolder l.region) pl.rootSlot)
    view := s.viewOf l.region }

/-- A new group that activates: its vector lines stand in the core as dirty lines of zeros (02: R49). -/
def Group.bornActive (g : Group) : Group :=
  { g with ctl := { g.ctl with
    act := .active, cause := .none, wakeSince := none, missing := [], dirty := List.range (32 * g.id.alloc.folios) } }

/-- A new group that does not activate, and whose context takes no bytes yet: it counts as parked once they are written, and occupies no
register line (02: R49). -/
def Group.bornParking (g : Group) : Group := { g with ctl := { g.ctl with act := .parking, wakeSince := none } }

/-- Writes the whole descriptor of a new group (20: R349). -/
def State.firstDescriptor (s : State) (k : Nat) (g : Group) : State :=
  match s.descPa g with
  | none => s
  | some p => (s.deviceStore p (leBytes 8 g.ctl.ctx.toNat)).putDescriptor k

/-- The number of a new group: ordinary groups have even keys. -/
def State.groupKey (s : State) : Nat := 2 * (s.fresh + 1)

/-- Creates one group, which is parked until it is known whether it activates (20: R348). -/
def State.createGroup (s : State) (l : Launch) (pl : Place) (pos : Position) : State :=
  match s.freeFrameNos l.region with
  | [] => s
  | n :: _ =>
    let k := s.groupKey
    let g := s.newGroup l pl pos n
    let s : State := { s with fresh := s.fresh + 1 }
    (((s.binPlace pl.core g.view.partition).pin (s.slotHolder l.region) pl.rootSlot).setGroup k g)

/-- A new group activates under R21, or is created parked; its context and its descriptor are written (01: R21; 02: R49; 20: R348). A
frame of an active group that is not mapped takes no bytes (log 35). -/
def State.enroll (s : State) (k : Nat) : State :=
  match Table.get? s.groups k with
  | none => s
  | some g =>
    let active := s.mayActivate k g
    let s := match s.ctxPut (s.ctxDirect g) g (g.firstPieces active), active with
      | .ok s, true => s.setGroup k g.bornActive
      | .ok s, false => s
      | .error _, true => s.setGroup k g.bornActive
      | .error _, false => s.setGroup k g.bornParking
    s.firstDescriptor k g

/-- Inserts a group in the order in which ready groups activate. -/
def State.insertWake (s : State) (x : Nat × Group) (xs : List (Nat × Group)) : List (Nat × Group) :=
  match xs with
  | [] => [x]
  | y :: r => if lexLt (s.wakeKey x.1 x.2) (s.wakeKey y.1 y.2) then x :: y :: r else y :: State.insertWake s x r

/-- The dispatcher has placed its next gang; the launch's pin drops with the last gang (22: R374). -/
def State.placedOne (s : State) (k die : Nat) : State :=
  match Table.get? s.launches k with
  | none => s
  | some l =>
    let d := l.dispatcher die
    let ds := Table.set l.dispatchers die { d with claimed := d.claimed.drop 1 }
    let last := decide (l.desc.gangs ≤ l.counter) && ds.all fun p => p.2.claimed.isEmpty
    let s := s.modLaunch k fun l => { l with dispatchers := ds, pin := if last then none else l.pin }
    match last, l.pin with
    | true, some p => s.unpin p.1 p.2
    | _, _ => s

/-- Places a gang on a cluster (20: R348). -/
def State.placeGang (s : State) (k : Nat) (l : Launch) (gangid c : Nat) : State :=
  let a := s.fresh + 1
  let cores := s.pickCores c l.record.w
  let slot := s.currentSlot (s.slotHolder l.region)
  let gang : Gang := {
    launch := k, gangid, cluster := c, cores, window := gangWindowOf l.binding.vals, chwp := [], rings := [], blots := [], panels := []
    bars := [], preempt := .none, suspended := false, again := false, displaced := false, created := a }
  let s : State := { s with fresh := a, gangs := Table.set s.gangs a gang }
  let all := ((List.range cores.length).zip cores).flatMap fun w =>
    ((List.range l.record.groups).zip l.record.positions).map fun p => (w, p)
  let s := all.foldl (fun s e => s.createGroup l ⟨k, a, e.1.1, e.2.1, e.1.2, slot⟩ e.2.2) s
  let new := (s.groups.filter fun p => p.2.id.gang == a && !p.2.id.walker).foldr s.insertWake []
  new.foldl (fun s p => s.enroll p.1) s

/-- GANG_PLACE (20: R347, R348). -/
def execGangPlace (launch die : Nat) (s : State) : Out :=
  match Table.get? s.launches launch with
  | none => .next s
  | some l =>
    if s.dbg.frozen || l.killed || !l.started || s.host.dev != .running then .next s
    else
      match (l.dispatcher die).claimed, leastBy s.activeOnCluster (s.placesOn l die) with
      | gangid :: _, some c => .next ((s.placeGang launch l gangid c).placedOne launch die)
      | _, _ => .next s

/-! ## Retirement (01: R10; 09: R186; 25: R409, R415, R418) -/

/-- Whether a group meets every condition of retirement. -/
def Group.mayRetire (g : Group) : Bool :=
  g.live == 0#32 && !g.id.walker && !g.ctl.dead && g.fl.ops.isEmpty && g.fl.cmds.isEmpty && g.fl.roots.isEmpty
    && g.tr.entering.isNone && g.lostBoundary.isNone && g.ctl.act != .parking && g.ctl.cause != .suspend

/-- The retirement entries of the record logs (25: R409, R415). -/
def State.logRetirement (s : State) (g : Group) : State :=
  let rcb := s.regionOf g
  let lane := (lanesOf g.ctl.present).headD 0
  let bytes := leBytes 4 (s.groupNumber g) ++ leBytes 1 lane ++ leBytes 1 2 ++ leBytes 2 0xFFFF
    ++ leBytes 4 (Table.getD g.fl.ordinals lane 0) ++ leBytes 2 0 ++ leBytes 2 0 ++ leBytes 4 g.fl.hash.toNat ++ leBytes 12 0
  (s.regions.filter fun p => p.2.recorder.isSome && s.under p.1 rcb).foldl (fun s p =>
    match (Table.get? s.regions p.1).bind Region.recorder with
    | none => s
    | some r => if r.status = 0 then (s.appendLog p.1 r bytes).1 else s) s

/-- Whether a replay log contradicts a group's hash: it holds another, or no entry for the group (25: R418). -/
def State.retireDiverges (s : State) (g : Group) : Bool :=
  !g.ctl.compared && s.regions.any fun p =>
    match p.2.replay with
    | none => false
    | some es => s.under p.1 (s.regionOf g) && !es.any fun e => e.1 == s.groupNumber g && e.2 == g.fl.hash

/-- DIVERGE at retirement (25: R418). -/
def retireTrap (g : Group) : TrapReq where
  code := codeDiverge
  pc := g.ctl.lastExit
  ret := g.ctl.lastExit
  word := 0
  mask := 0
  failed := 0
  info := 0
  addr := 0
  imm := 0
  cur := 0
  rank := 100

/-- Drops the bytes of memory from lo to hi - 1: the storage of a window that is released (log 7). -/
def Memory.drop (m : Memory) (lo hi : Nat) : Memory := m.filter fun p => !(lo ≤ p.1 && p.1 < hi)

/-- A gang whose groups have all retired is gone (01: R10, 20: R346). -/
def State.retireGang (s : State) (gang launch : Nat) : State :=
  if s.groups.any fun p => p.2.id.gang == gang && !p.2.id.walker then s
  else
    ({ s with
      gangs := Table.erase s.gangs gang
      mem := s.mem.drop (gangWindowAt gang) (gangWindowAt (gang + 1)) } : State).modLaunch launch
      fun l => { l with retired := l.retired + 1 }

/-- A group retires: its pin drops and its frame is free (01: R10, 20: R349). -/
def State.retireGroup (s : State) (k : Nat) (g : Group) : State :=
  let s := s.logRetirement g
  let rcb := s.regionOf g
  let s := s.unpin g.view.holder g.pinSlot
  let s : State := { s with groups := Table.erase s.groups k }
  s.retireGang g.id.gang g.id.launch

/-- GROUP_RETIRE (01: R10, 09: R186, 25: R418). -/
def execGroupRetire (grp : Nat) (s : State) : Out :=
  match Table.get? s.groups grp with
  | none => .next s
  | some g =>
    if !g.mayRetire || (g.ctl.compared && s.gangStopped g.id.gang) then .next s
    else if s.retireDiverges g then
      .next ((s.setGroup grp { g with ctl := { g.ctl with compared := true } }).toFaultDomain grp (retireTrap g))
    else .next (s.retireGroup grp g)

/-! ## Completion (20: R343; 05: R109, R110, R130) -/

/-- The order of contributions: f64 epochs before f32 epochs (11: R214), then the word, then the key (05: R109). -/
def Contribution.key (c : Contribution) : List Nat := [if c.f64 then 0 else 1, c.pa, c.wgid, c.thread, c.ordinal]

/-- Inserts a contribution in order. -/
def insertContribution (x : Contribution) (xs : List Contribution) : List Contribution :=
  match xs with
  | [] => [x]
  | y :: r => if lexLt x.key y.key then x :: y :: r else y :: insertContribution x r

/-- A word with one contribution added (06: R130). -/
def Contribution.addTo (v : BitVec 64) (c : Contribution) : BitVec 64 :=
  if c.f64 then rnd64 ((val64 v).add (val64 c.data)) else (rnd32 ((val32 (v.setWidth 32)).add (val32 (c.data.setWidth 32)))).setWidth 64

/-- The epoch of one word closes: its contributions, in the order of their keys, are added to what the word holds, and the result is
performed as one store, which scripts do not name (05: R109, R112). An error response to the read of the word is logged, and nothing is
stored (23: R384, R385). -/
def State.closeWord (s : State) (f64 : Bool) (pa : Nat) (cs : List Contribution) : State :=
  let n := if f64 then 8 else 4
  match s.spoilt pa n false with
  | some e => s.homeViolation pa e id
  | none => s.engineStore pa (leBytes n ((cs.foldl Contribution.addTo (BitVec.ofNat 64 (s.mem.nat pa n))).toNat))

/-- Whether an address lies in the window of a gang that has retired: its words are gone. -/
def State.windowGone (s : State) (pa : Nat) : Bool :=
  decide (2 ^ 60 ≤ pa) && decide (pa < 2 ^ 61) && (Table.get? s.gangs ((pa - 2 ^ 60) / 2 ^ 24)).isNone

/-- The epochs of contributions to homes of this device close: one for each word and format, in the order of their keys (05: R109). -/
def State.closeContributions (s : State) (cs : List Contribution) : State :=
  let cs := (cs.filter fun c => !s.windowGone c.pa).foldr insertContribution []
  ((cs.map fun c => (c.f64, c.pa)).eraseDups).foldl (fun s w => s.closeWord w.1 w.2 (cs.filter fun c => (c.f64, c.pa) == w)) s

/-- The epochs of a launch close (05: R109); an overflow has discarded every contribution. Those made through the import window are added
by their exporters (05: R110). -/
def State.closeEpochs (s : State) (l : Launch) : State := s.closeContributions (l.contributions.filter fun c => c.remote.isNone)

/-- Whether a launch has done all it will: rejected, killed, or its last gang retired, with no store left to perform. -/
def State.launchOver (s : State) (k : Nat) (l : Launch) : Bool :=
  (l.status.isSome || l.killed || (l.started && decide (l.retired = l.desc.gangs)))
    && !s.groups.any fun p => p.2.id.launch == k && !p.2.id.walker

/-- The status of a launch at its completion (20: R339). -/
def Launch.finalStatus (l : Launch) : BitVec 64 :=
  match l.status with
  | some x => x
  | none => if l.killed then statusWord 2 0 l.retired else if l.overflow then statusWord 1 0 l.retired else statusWord 0 0 l.retired

/-- The code of a status word (20: R339). -/
def statusCode (w : BitVec 64) : Nat := w.toNat / 2 ^ 56

/-- The status of a graph: the first status of its launches in start order whose code is nonzero (20: R352). -/
def GraphRun.status (r : GraphRun) : BitVec 64 :=
  if r.bad then statusWord 4 0 0
  else (r.started.filterMap fun k => Table.get? r.statuses k).headD 0

/-- Whether a graph's chain has ended and all its launches have completed. -/
def State.graphOver (s : State) (r : GraphRun) : Bool :=
  r.begun && (r.bad || (r.node == 0 && r.loops.isEmpty)) && r.started.all fun k => (Table.get? s.launches k).isNone

/-- Changes the graph of a packet. -/
def State.modGraph (s : State) (k : Nat) (f : GraphRun → GraphRun) : State :=
  { s with disp := { s.disp with packets := Table.modify s.disp.packets k fun p => { p with graph := f p.graph } } }

/-- A graph packet completes when its graph is over. -/
def State.settleGraph (s : State) (k : Nat) : State :=
  match Table.get? s.disp.packets k with
  | none => s
  | some p => if p.kind == .graph && s.graphOver p.graph then s.completePacket k p.graph.status else s

/-- The packet of a launch learns that it has completed. -/
def State.launchDone (s : State) (k pkt : Nat) (status : BitVec 64) : State :=
  match Table.get? s.disp.packets pkt with
  | none => s
  | some p =>
    match p.kind with
    | .launch => s.completePacket pkt status
    | .graph =>
      (s.modGraph pkt fun r => { r with
        statuses := if statusCode status = 0 then r.statuses else Table.set r.statuses k status }).settleGraph pkt
    | .wait _ _ _ => s

/-- LAUNCH_COMPLETE (20: R343): its epochs close, its windows are released, its packet completes. -/
def execLaunchComplete (launch : Nat) (s : State) : Out :=
  match Table.get? s.launches launch with
  | none => .next s
  | some l =>
    if !s.launchOver launch l then .next s
    else
      let s := if l.killed then s else s.closeEpochs l
      let s := match l.pin with
        | none => s
        | some p => s.unpin p.1 p.2
      let s : State := { s with
        launches := Table.erase s.launches launch
        mem := s.mem.drop (launchWindowAt launch 0) (launchWindowAt (launch + 1) 0)
        colls := s.colls.filter fun c => c.launch != launch }
      .next (s.launchDone launch l.packet l.finalStatus)

/-! ## Launch and graph packets (20: R338, R352; 14: R291 to R293) -/

/-- Adds a launch that has been parsed; its number is its launch sequence number (20: R349). -/
def State.addLaunch (s : State) (q pkt : Nat) (addr : BitVec 64) (after : List Nat) : State × Nat :=
  let k := s.disp.launchSeq + 1
  let rcb := s.queueRegion q
  let named := match s.vaBytes rcb addr 128 with
    | none => 0
    | some b => fieldAt b 0x08 8
  let l : Launch := {
    queue := q, seq := k, packet := pkt, descAddr := addr
    desc := { record := 0, region := 0, x := 0, y := 0, z := 0, privileged := false, spillBytes := 0, seed := 0, binding := 0, spill := 0
              args := [] }
    region := if named = 0 then rcb else named
    queuePriv := ((s.queue? q).map Queue.privileged).getD false
    after := after, started := false, killed := false
    record := { entry := 0, tvec := 0, w := 1, t := 1, rings := 0, panels := 0, classT := false, classA := false, laneStack := 0
                uniStack := 0, positions := [] }
    binding := [], tids := [], windows := [], counter := 0, dispatchers := [], retired := 0, pin := none, contributions := [], tidAhead := []
    overflow := false, status := none }
  ({ s with disp := { s.disp with launchSeq := k }, launches := Table.set s.launches k l }, k)

/-- LAUNCH_PACKET (20: R338, R344): parsed, it waits its turn to start. -/
def execLaunchPacket (q : Nat) (s : State) : Out :=
  .next (s.parse q 1 false fun _ b s =>
    let x := s.enterPacket q b .launch .idle
    (x.1.addLaunch q x.2 (pktBody b) []).1)

/-- Whether a launch node has a bit set that must be zero (20: R352). -/
def launchNodeBad (b : List Byte) : Bool :=
  fieldAt b 0x00 8 != 1 || decide (1 < fieldAt b 0x10 8) || fieldAt b 0x18 8 != 0 || fieldAt b 0x20 8 != 0 || fieldAt b 0x28 8 != 0
    || fieldAt b 0x38 8 != 0

/-- Whether a loop node has a reserved bit set or a misaligned address (14: R291). DESIGN CHOICE (log 79): the body and next addresses are
held to 64 bytes too. -/
def loopNodeBad (at_ : BitVec 64) (b : List Byte) : Bool :=
  fieldAt b 0x00 8 != 2 || at_.toNat % 64 != 0 || fieldAt b 0x08 8 % 64 != 0 || fieldAt b 0x10 8 % 4 != 0 || fieldAt b 0x18 8 % 4 != 0
    || fieldAt b 0x20 8 % 8 != 0 || fieldAt b 0x30 8 % 64 != 0

/-- A loop ends: count and status are written, and the chain goes on at its next node (14: R291, R292). -/
def State.exitLoop (s : State) (pkt rcb : Nat) (at_ : BitVec 64) (b : List Byte) (code count : Nat) (loops : List LoopRun) : State :=
  let s := s.vaStore rcb (at_ + 0x2C#64) 4 count
  let s := s.vaStore rcb (at_ + 0x38#64) 8 (code * 2 ^ 56 + count % 2 ^ 32)
  (s.modGraph pkt fun r => { r with node := BitVec.ofNat 64 (fieldAt b 0x30 8), loops := loops }).settleGraph pkt

/-- The launches that a launch node with after = 1 follows: those of the innermost body, or of the graph (20: R352). -/
def GraphRun.earlier (r : GraphRun) : List Nat :=
  match r.loops with
  | [] => r.started
  | x :: _ => x.body

/-- Runs one node of a graph (20: R352, 14: R291). DESIGN CHOICE (log 79): a node that cannot be read ends the graph with code 0x04, and a
launch node is held to 64 bytes. -/
def State.runNode (s : State) (pkt : Nat) (p : Packet) : State :=
  let rcb := s.queueRegion p.queue
  let n := p.graph.node
  match s.vaBytes rcb n 64 with
  | none => (s.modGraph pkt fun r => { r with bad := true }).settleGraph pkt
  | some b =>
    let s := s.vaNote rcb n 64
    if fieldAt b 0 1 = 2 then
      if loopNodeBad n b then s.exitLoop pkt rcb n b 4 0 p.graph.loops
      else s.modGraph pkt fun r => { r with node := 0, loops := ⟨n, 0, []⟩ :: r.loops }
    else if launchNodeBad b || n.toNat % 64 ≠ 0 then (s.modGraph pkt fun r => { r with bad := true }).settleGraph pkt
    else
      let after := if fieldAt b 0x10 8 % 2 = 1 then p.graph.earlier else []
      let x := s.addLaunch p.queue pkt (BitVec.ofNat 64 (fieldAt b 0x08 8)) after
      (x.1.modGraph pkt fun r => { r with
        node := BitVec.ofNat 64 (fieldAt b 0x30 8)
        started := r.started ++ [x.2]
        loops := r.loops.map fun y => { y with body := y.body ++ [x.2] } }).settleGraph pkt

/-- The graph of a queue that has a node to run. -/
def State.graphReady (s : State) (q : Nat) : Option (Nat × Packet) :=
  if s.host.dev != .running || s.dbg.frozen then none
  else s.disp.packets.find? fun p => p.2.queue == q && p.2.kind == .graph && !p.2.graph.bad
    && (if p.2.graph.begun then p.2.graph.node != 0 else s.pktFree p.2)

/-- GRAPH_PACKET (20: R352): a graph of the queue runs its next node; with none ready, the next packet is parsed. A body of
0 has no node. -/
def execGraphPacket (q : Nat) (s : State) : Out :=
  match s.graphReady q with
  | some (k, p) =>
    if p.graph.begun then .next (s.runNode k p)
    else .next ((s.modGraph k fun r => { r with begun := true }).settleGraph k)
  | none =>
    .next (s.parse q 2 false fun _ b s =>
      (s.enterPacket q b .graph { GraphRun.idle with node := pktBody b }).1)

/-- What a loop check comes to (14: R292): an exit code, or one more body. DESIGN CHOICE (log 79): a halt or condition word that does not
translate, or whose home answers with an error response, counts as 0. -/
def State.loopCheck (s : State) (rcb : Nat) (b : List Byte) (r : GraphRun) (l : LoopRun) : Option Nat :=
  let word := fun (va : BitVec 64) => (s.vaWord rcb va).getD 0#32
  let halt := BitVec.ofNat 64 (fieldAt b 0x18 8)
  let limit := fieldAt b 0x28 4
  if l.body.any fun k => (Table.get? r.statuses k).isSome then some 3
  else if halt ≠ 0#64 && word halt ≠ 0#32 then some 1
  else if word (BitVec.ofNat 64 (fieldAt b 0x10 8)) = 0#32 then some 0
  else if limit ≠ 0 && limit = l.count then some 2
  else none

/-- What the reads of a loop check leave at their homes: the halt word's, and then the condition's (14: R292). -/
def State.loopNote (s : State) (rcb : Nat) (b : List Byte) : State :=
  let halt := BitVec.ofNat 64 (fieldAt b 0x18 8)
  let s := if halt = 0#64 then s else s.vaNote rcb halt 4
  if halt ≠ 0#64 && (s.vaWord rcb halt).getD 0#32 ≠ 0#32 then s else s.vaNote rcb (BitVec.ofNat 64 (fieldAt b 0x10 8)) 4

/-- Whether a loop stands at its check: the body's chain has ended and its launches have completed. -/
def State.loopWaits (s : State) (p : Packet) : Bool :=
  p.kind == .graph && p.graph.begun && !p.graph.bad && p.graph.node == 0 &&
    match p.graph.loops with
    | [] => false
    | l :: _ => l.body.all fun k => (Table.get? s.launches k).isNone

/-- LOOP_ITERATION (14: R292, R293): the check at the head of a loop, and the start of the next body. DESIGN CHOICE (log 79): a node that
cannot be read ends the graph with code 0x04. -/
def execLoopIteration (pkt : Nat) (s : State) : Out :=
  match Table.get? s.disp.packets pkt with
  | none => .next s
  | some p =>
    if !s.loopWaits p || s.dbg.frozen then .next s
    else
      match p.graph.loops with
      | [] => .next s
      | l :: outer =>
        let rcb := s.queueRegion p.queue
        match s.vaBytes rcb l.node 64 with
        | none => .next ((s.modGraph pkt fun r => { r with bad := true }).settleGraph pkt)
        | some b =>
          let check := s.loopCheck rcb b p.graph l
          let s := s.vaNote rcb l.node 64
          let s := if check = some 3 then s else s.loopNote rcb b
          match check with
          | some code => .next (s.exitLoop pkt rcb l.node b code l.count outer)
          | none =>
            let s := s.vaStore rcb (BitVec.ofNat 64 (fieldAt b 0x20 8)) 8 l.count
            .next (s.modGraph pkt fun r => { r with
              node := BitVec.ofNat 64 (fieldAt b 0x08 8), loops := ⟨l.node, l.count + 1, []⟩ :: outer })

end Sys2Proof.Machine
end

