-- ==== Sys2Proof/Machine/Resume.lean ====
section
/-!
DEFINITION. Resuming a pre-empted gang, and the retiring of a core or a cluster after an uncorrectable error (01: R37; 25: R414).
-/

namespace Sys2Proof.Machine

/-! ## Resuming a gang (01: R37) -/

/-- The recorded load of a weight-buffer panel as a command that its engine has taken: it has no word and no destination. -/
def Panel.reload (p : Panel) (slot seq stamp : Nat) : EngCmd where
  seq := seq
  word := 0#32
  ins := .wld 0#8 63#6 0#4 p.x24
  ops := [p.origin, BitVec.ofNat 64 slot]
  pend := none
  started := true
  stamp := stamp
  tid := p.tid
  progress := 0
  pointer := 0
  clipped := 0
  records := 0
  total := 0
  record := 0#64
  image := []
  ended := none
  round := 0
  req := none
  answered := []
  failed := false
  walkOn := none
  walked := []

/-- The recorded load of one panel is reissued, by the first group of the gang (01: R37 step 3; log 36). -/
def State.reloadPanel (s : State) (k : Nat) (slot : Nat) (p : Panel) : State :=
  match p.fmt with
  | none => s
  | some _ =>
    let s : State := { s with fresh := s.fresh + 1 }
    s.modGroup k fun g => { g with fl := { g.fl with
      nextSeq := g.fl.nextSeq + 1, cmds := g.fl.cmds ++ [p.reload slot g.fl.nextSeq s.fresh] } }

/-- The recorded loads of a gang are reissued. -/
def State.reloadPanels (s : State) (gang : Nat) : State :=
  match Table.get? s.gangs gang, s.groupsOf gang with
  | some a, k :: _ => a.panels.foldl (fun s p => s.reloadPanel k p.1 p.2) s
  | _, _ => s

/-- A group of a resumed gang on its new core: it wakes at once, unless a debugger or the fault domain holds it, and a notice that it has
not taken is over. What it had begun to translate on the old core begins anew. -/
def Group.moveTo (core slot : Nat) (g : Group) : Group :=
  { g with
    ctl := { g.ctl with
      core := core, slot := slot
      cause := if g.ctl.cause == .debug || g.ctl.cause == .suspend then g.ctl.cause else .resumed
      notice := .none, wakeSince := none, ctxWalkOn := [], ctxWalked := [] }
    fl := { g.fl with cmds := g.issued.map fun c => { c with walkOn := none, walked := [] } }
    tr := { g.tr with boundary := g.tr.boundary.filter fun t => t.code != codePnotice } }

/-- Moves one group of a resumed gang. -/
def State.moveGroup (s : State) (cores : List Nat) (k : Nat) : State :=
  match Table.get? s.groups k with
  | none => s
  | some g =>
    let core := cores.getD g.id.wg g.ctl.core
    let g := g.moveTo core (s.freeSlot core)
    (((s.binPlace core g.view.partition).setGroup k g).putDescriptor k)

/-- Whether the cluster of a gang still holds it: enough of its cores are in service (25: R414). -/
def State.keepsGang (s : State) (a : Gang) (l : Launch) : Bool :=
  !(s.cluster a.cluster).retired && decide (l.record.w ≤ (s.coresOf a.cluster).length)

/-- The clusters on which a gang may be resumed, their room apart: its own, and those that a launch is placed on (01: R37). One that a retired
unit has displaced stays on its cluster when that still holds it, and is else offered the free spares before the others (25: R414). -/
def State.resumesOn (s : State) (a : Gang) (l : Launch) : List Nat × List Nat :=
  let es := s.eligible l.region l.binding.vals
  if !a.displaced then (if s.spare a.cluster then a.cluster :: es else es, [])
  else if s.keepsGang a l then ([a.cluster], [])
  else ((List.range Config.clusters).filter fun c => s.spareFor c a.cluster, es)

/-- Whether a gang may be resumed on a cluster: R348 without the frames, which it keeps (01: R37; 25: R414). -/
def State.mayResume (s : State) (gang : Nat) (a : Gang) (l : Launch) (c : Nat) : Bool :=
  let s0 : State := { s with gangs := Table.erase s.gangs gang }
  let first := (s.resumesOn a l).1.filter fun c => s0.clusterRoom l c a.window
  a.preempt == .parked && !a.suspended && s.host.dev == .running && !s.dbg.frozen
    && (first.contains c || (first.isEmpty && (s.resumesOn a l).2.contains c && s0.clusterRoom l c a.window))

/-- Whether no cluster can ever take a gang that a retired unit has displaced (25: R414). -/
def State.stranded (s : State) (a : Gang) : Bool :=
  a.displaced &&
    match Table.get? s.launches a.launch with
    | none => false
    | some l => !((s.resumesOn a l).1 ++ (s.resumesOn a l).2).any (s.couldEver l.record l.binding.vals)

/-- The cluster on which a gang that the driver has resumed is placed again: its own while it may, else the lowest that takes
it (log 1). -/
def State.againOn (s : State) (gang : Nat) (a : Gang) : Option Nat :=
  if !a.again || a.preempt != .parked then none
  else
    match Table.get? s.launches a.launch with
    | none => none
    | some l =>
      if s.mayResume gang a l a.cluster then some a.cluster
      else (List.range Config.clusters).find? fun c => s.mayResume gang a l c

/-- GANG_RESUME (01: R37): the whole gang at once, each workgroup on a core of its own. -/
def execGangResume (gang cluster : Nat) (s : State) : Out :=
  match Table.get? s.gangs gang with
  | none => .next s
  | some a =>
    match Table.get? s.launches a.launch with
    | none => .next s
    | some l =>
      if !s.mayResume gang a l cluster then .next s
      else
        let s := if cluster = a.cluster then s else s.takeSpare cluster a.cluster
        let cores := s.pickCores cluster l.record.w
        let s := s.modGang gang fun a => { a with cluster := cluster, cores := cores, again := false, displaced := false }
        let s := (s.groupsOf gang).foldl (fun s k => s.moveGroup cores k) s
        let s := s.modGang gang fun a => { a with preempt := .none }
        .next (s.reloadPanels gang)

/-! ## Uncorrectable errors (25: R414) -/

/-- The launches that hold a window on a cluster. -/
def State.windowHolders (s : State) (c : Nat) : List Nat :=
  (s.launches.filter fun p => (Table.get? p.2.windows c).isSome).map Prod.fst

/-- The cluster that takes over the launch windows of a retired one: a free spare, else one in service with room (25: R414); none of the
launches concerned may hold a window there already (log 34). -/
def State.replacement (s : State) (c : Nat) : Option Nat :=
  let ls := s.windowHolders c
  let fits := fun (t : Nat) => decide (s.windowBytesOn t + s.windowBytesOn c ≤ Config.sliceBytes)
    && ls.all fun k => match Table.get? s.launches k with
      | none => true
      | some l => (Table.get? l.windows t).isNone
  let all := (List.range Config.clusters).filter fun t => t != c && fits t
  match all.find? fun t => s.spareFor t c with
  | some t => some t
  | none => all.find? s.inService

/-- The bytes of one window move to another place. -/
def Memory.moveRange (m : Memory) (lo hi at_ : Nat) : Memory :=
  (m.filter fun p => lo ≤ p.1 && p.1 < hi).foldl (fun m p => m.setByte (at_ + (p.1 - lo)) p.2) (m.drop lo hi)

/-- A binding that names a cluster names another (25: R414). -/
def rebind (c t : Nat) (b : BitVec 64) : BitVec 64 :=
  if bindKind b = 1 && bindTarget b = c then (b &&& ~~~ (0xFFFFFF#64 <<< 8)) ||| (BitVec.ofNat 64 t <<< 8) else b

/-- The contributions to words of a launch window move with it (05: R109). -/
def State.moveContributions (s : State) (first last new : Nat) (cs : List Contribution) : List Contribution :=
  cs.map fun c =>
    if c.remote.isNone && decide (first ≤ c.pa) && decide (c.pa < last) then { c with pa := c.pa - first + new, home := s.homeOf (c.pa - first + new) }
    else c

/-- The launch windows of a retired cluster move, and the bindings and contributions follow. -/
def State.moveWindows (s : State) (c t : Nat) : State :=
  let s := if (s.windowHolders c).isEmpty then s else s.takeSpare t c
  (s.windowHolders c).foldl (fun s k =>
    let s := s.setMem (s.mem.moveRange (launchWindowAt k c) (launchWindowAt k (c + 1)) (launchWindowAt k t))
    s.modLaunch k fun l => { l with
      windows := Table.set (Table.erase l.windows c) t (Table.getD l.windows c 0)
      binding := l.binding.map fun p => (p.1, rebind c t p.2)
      contributions := s.moveContributions (launchWindowAt k c) (launchWindowAt k (c + 1)) (launchWindowAt k t) l.contributions }) s

/-- The fault domain decides when a displaced gang or launch window finds no cluster (25: R414; 01: R32). -/
def State.interrupted (s : State) (rcb : Nat) : State :=
  match s.faultDomain rcb with
  | 0 => s.killRegion rcb
  | 1 => s.suspendRegion rcb
  | _ => s.notice (noticeBytes 3 rcb 0 0)

/-- Every gang on a retired core or cluster is parked by force, and is to be resumed (25: R414; 01: R36). -/
def State.displace (s : State) (p : Gang → Bool) : State :=
  ((s.gangs.filter fun e => p e.2).map Prod.fst).foldl
    (fun s k => (s.forceGang k false).modGang k fun a => { a with again := true, displaced := true }) s

/-- The launch windows of a retired cluster move to its replacement; the regions of those that find none are listed. -/
def State.moveAway (s : State) (c : Nat) : State × List Nat :=
  match s.replacement c with
  | some t => (s.moveWindows c t, [])
  | none => (s, (s.windowHolders c).filterMap fun k => (Table.get? s.launches k).map Launch.region)

/-- The fault domains of the listed regions, and of those with a displaced gang that no cluster can take, decide the outcome (25: R414). -/
def State.interruptStranded (s : State) (rs : List Nat) : State :=
  let gs := (s.gangs.filter fun p => s.stranded p.2).map fun p => s.gangRegion p.2
  (rs ++ gs).eraseDups.foldl State.interrupted s

/-- UNCORRECTABLE_ERROR (25: R414): the unit takes no further work. -/
def execUncorrectableError (cluster : Nat) (core : Option Nat) (s : State) : Out :=
  if Config.clusters ≤ cluster then .next s
  else
    match core with
    | some j =>
      let k := 4 * cluster + j % 4
      .next (((s.modCore k fun c => { c with retired := true }).displace fun a => a.cores.contains k).interruptStranded [])
    | none =>
      let x := ((s.modCluster cluster fun c => { c with retired := true }).displace fun a => a.cluster == cluster).moveAway cluster
      .next (x.1.interruptStranded x.2)

end Sys2Proof.Machine
end

