-- ==== Sys2Proof/Machine/Requests.lean ====
section
/-!
DEFINITION. The driver's requests for translation trees, publish slots, page answers, imports and exports, and the requests of
peers at an export (21: R356 to R373).
-/

namespace Sys2Proof.Machine

/-! ## Roots, holds, publish slots (21: R356 to R362) -/

/-- INSTALL (21: R356, R357; 12: R237). -/
def execInstall (rcb : Nat) (word : BitVec 64) (gen : BitVec 16) (s : State) : Out :=
  s.serveWith 0x0020 (opWords [rcb] ++ leBytes 8 word.toNat ++ leBytes 2 gen.toNat) fun s =>
    if !s.registered rcb then (s, BitVec.ofNat 64 (5 * 2 ^ 56)) else s.rootStep (s.slotHolder rcb) word (gen.setWidth 64)

/-- Whether a slot of a region is valid and holds a generation. -/
def State.slotHolds (s : State) (rcb slot : Nat) (gen : BitVec 16) : Bool :=
  s.registered rcb && decide (slot < 8) && slotValid (s.slotWord (s.slotHolder rcb) slot)
    && slotGen (s.slotWord (s.slotHolder rcb) slot) == gen

/-- State with the firmware holds of a slot changed (03: R68). -/
def State.modHold (s : State) (h slot : Nat) (f : Nat → Nat) : State :=
  s.modRegion h fun r => { r with holds := Table.put 0 r.holds slot (f (Table.getD r.holds slot 0)) }.noteUnused

/-- HOLD (21: R356, R358). -/
def execHold (rcb slot : Nat) (gen : BitVec 16) (s : State) : Out :=
  s.serveWith 0x0021 (opWords [rcb, slot] ++ leBytes 2 gen.toNat) fun s => if s.slotHolds rcb slot gen then (s.modHold (s.slotHolder rcb) slot (· + 1), 0) else (s, 1)

/-- UNHOLD (21: R356). -/
def execUnhold (rcb slot : Nat) (gen : BitVec 16) (s : State) : Out :=
  s.serveWith 0x0022 (opWords [rcb, slot] ++ leBytes 2 gen.toNat) fun s =>
    let held := match Table.get? s.regions (s.slotHolder rcb) with
      | none => 0
      | some r => Table.getD r.holds slot 0
    if s.slotHolds rcb slot gen && held != 0 then (s.modHold (s.slotHolder rcb) slot (· - 1), 0) else (s, 1)

/-- RELEASE (21: R356, R361): walks read nodes from memory, so nothing is cached (log 20); result 1 for another count (log 31). -/
def execRelease (nodes : List Nat) (s : State) : Out :=
  s.serveWith 0x0023 (opWords (nodes.length :: nodes)) fun s => (s, if 1 ≤ nodes.length && nodes.length ≤ 256 then 0 else 1)

/-- PASSIGN (21: R356, R362). -/
def execPassign (slot rcb : Nat) (s : State) : Out :=
  s.serveWith 0x0024 (opWords [slot, rcb]) fun s =>
    if 256 ≤ slot || (Table.get? s.xlat.owners slot).isSome then (s, 1)
    else if !s.registered rcb then (s, 2)
    else ({ s with xlat := { s.xlat with owners := Table.set s.xlat.owners slot rcb } }, 0)

/-- PFREE (21: R356, R362): the counter stands. -/
def execPfree (slot : Nat) (s : State) : Out :=
  s.serveWith 0x0025 (opWords [slot]) fun s =>
    if (Table.get? s.xlat.owners slot).isNone then (s, 1)
    else ({ s with xlat := { s.xlat with owners := Table.erase s.xlat.owners slot } }, 0)

/-! ## Imports and exports (21: R370, R371, R373) -/

/-- Whether an access in flight uses an import slot. -/
def State.importBusy (s : State) (slot : Nat) : Bool :=
  s.groups.any fun p => p.2.fl.ops.any fun o => o.accs.any fun a => a.st == .peer slot && !a.done

/-- Whether an import entry has a reserved bit set. -/
def importReserved (e : BitVec 128) : Bool := e.extractLsb' 40 22 != 0 || e.extractLsb' 22 2 != 0

/-- Entry n of a table of the control die is written, in its place in memory once firmware has named the table's base (21: R370, R371). -/
def State.putEntry (s : State) (base : Option Nat) (bytes n v : Nat) : State :=
  match base with
  | none => s
  | some b => s.engineStore (b + bytes * n) (leBytes bytes v)

/-- IMPORT (21: R356, R370, R373): it waits for the accesses that read the old entry. -/
def execImportSet (slot : Nat) (entry : BitVec 128) (s : State) : Out :=
  if s.importBusy slot && s.host.accepts 0x0027 then .next s
  else
    s.serveWith 0x0027 (opWords [slot] ++ leBytes 16 entry.toNat) fun s =>
      if 65536 ≤ slot || importReserved entry then (s, 1)
      else
        let s := s.putEntry s.boot.importTable 16 slot entry.toNat
        ({ s with xlat := { s.xlat with imports := Table.put 0#128 s.xlat.imports slot entry } }, 0)

def expKey (e : BitVec 512) : BitVec 64 := e.setWidth 64
def expBase (e : BitVec 512) : BitVec 64 := e.extractLsb' 64 64
def expLength (e : BitVec 512) : Nat := (e.extractLsb' 128 64).toNat
def expRegion (e : BitVec 512) : Nat := (e.extractLsb' 192 64).toNat
def expControl (e : BitVec 512) : BitVec 64 := e.extractLsb' 256 64
def expValid (e : BitVec 512) : Bool := (expControl e).getLsbD 0
def expKv (e : BitVec 512) : Bool := (expControl e).getLsbD 1
def expDevice (e : BitVec 512) : BitVec 22 := (expControl e).extractLsb' 8 22

/-- Whether an export entry has a reserved bit set, or a base or length where kind 1 wants zero. -/
def exportReserved (e : BitVec 512) : Bool :=
  (expBase e).extractLsb' 56 8 != 0 || decide (2 ^ 38 ≤ expLength e) || (expControl e).extractLsb' 5 3 != 0
    || (expControl e).extractLsb' 31 33 != 0 || e.extractLsb' 320 192 != 0 || (expKv e && (expBase e != 0 || expLength e != 0))

/-- EXPORT (21: R356, R371, R373): it waits for the requests admitted under the old entry. -/
def execExportSet (slot : Nat) (entry : BitVec 512) (s : State) : Out :=
  if s.xlat.ingress.any (fun i => i.req.slot == slot) && s.host.accepts 0x0028 then .next s
  else
    s.serveWith 0x0028 (opWords [slot] ++ leBytes 64 entry.toNat) fun s =>
      if 65536 ≤ slot || exportReserved entry then (s, 1)
      else
        let s := s.putEntry s.boot.exportTable 64 slot entry.toNat
        ({ s with xlat := { s.xlat with exports := Table.put 0#512 s.xlat.exports slot entry } }, 0)

/-! ## Requests of peers (21: R372) -/

/-- Whether an access is a load, a store, or an atomic. -/
def peerRights (a : PeerAccess) : Nat :=
  match a with
  | .load => 2
  | .store _ => 3
  | _ => 4

/-- The first check of R372 that a request fails. -/
def State.ingressFails (s : State) (q : PeerRequest) : Option Nat :=
  let e := Table.getD s.xlat.exports q.slot 0#512
  let h := s.slotHolder (expRegion e)
  if !expValid e then some 1
  else if q.importer ≠ expDevice e && !(expControl e).getLsbD 30 then some 2
  else if q.key ≠ expKey e then some 3
  else if q.kv ≠ expKv e then some 4
  else if (if q.kv then 65536 else expLength e) < q.off + q.size then some 5
  else if !(expControl e).getLsbD (peerRights q.access) then some 6
  else if !s.alive (expRegion e) || !slotValid (s.slotWord h (s.currentSlot h)) then some 7
  else none

/-- An error response to a peer, logged at the target with the importer and the port (21: R372, 23: R387; the address field: log 37). -/
def State.ingressError (s : State) (q : PeerRequest) (reason : Nat) : State :=
  s.violation (1#64 <<< 63 ||| BitVec.ofNat 64 (q.slot % 65536 * 2 ^ 38 + q.off % 2 ^ 38))
    (q.importer.setWidth 32 ||| (BitVec.ofNat 32 q.port <<< 24)) 2 reason

/-- The atomic operation and operand of a peer's access. -/
def peerAtom (a : PeerAccess) : Option (AtomOp × BitVec 64) :=
  match a with
  | .load => none
  | .store _ => none
  | .add d => some (.add, d)
  | .min sg d => some (if sg then .minI else .minN, d)
  | .max sg d => some (if sg then .maxI else .maxN, d)
  | .band d => some (.band, d)
  | .bor d => some (.bor, d)
  | .bxor d => some (.bxor, d)
  | .swap d => some (.xchg, d)
  | .cas _ _ => none
  | .fadd _ _ _ _ _ => none

/-- What a peer's access writes at its home, over the old value. -/
def peerWrites (q : PeerRequest) (old : BitVec 64) : Option (BitVec 64) :=
  match q.access with
  | .store d => some d
  | .cas c n => if old = c then some n else none
  | .load => none
  | .fadd _ _ _ _ _ => none
  | a => (peerAtom a).map fun x => x.1.apply q.size old x.2

/-- A peer's access is performed at its home: an access that scripts do not name (05: R112). A write that its home refuses gets an error
response, and so does an access that meets spoilt data, which is logged (23: R383 to R385). -/
def State.peerPerform (s : State) (q : PeerRequest) (pa : Nat) : State :=
  let w := peerWrites q (BitVec.ofNat 64 (s.mem.nat pa q.size))
  match (if peerRights q.access = 3 then s.spoilt pa q.size true else (s.spoilt pa q.size w.isSome).or (s.spoilt pa q.size false)) with
  | some e => s.homeViolation pa e fun s => s.violation (BitVec.ofNat 64 pa) (s.homeSource pa) 3 0
  | none =>
  let s := match w with
    | none => s
    | some v => s.storeBytes pa (leBytes q.size v.toNat)
  let s : State := match q.access with
    | .fadd launch wgid thread ordinal d =>
      { s with xlat := { s.xlat with peerAdds := s.xlat.peerAdds ++
        [{ importer := q.importer, launch
           add := { pa, home := s.homeOf pa, f64 := q.size == 8, wgid, thread, ordinal, data := d, remote := none } }] } }
    | _ => s
  (s.homeNote pa .anonymous none).1

/-- The kind of a peer's access for translation. -/
def peerKind (a : PeerAccess) : Nat := if peerRights a = 2 then kindRead else kindWrite

/-- Where an admitted request goes, when it translates under a slot of its region. -/
def State.ingressPa (s : State) (q : PeerRequest) (holder slot : Nat) : Option Nat :=
  let e := Table.getD s.xlat.exports q.slot 0#512
  let va := expBase e + BitVec.ofNat 64 q.off
  if q.kv then (s.secondStage q.block none).map fun page => page + q.off
  else
    match walkReach (peerKind q.access) (s.walk (s.slotWord holder slot) va) with
    | .leaf l => some (s.leafPa l va false)
    | .request => none
    | .denied _ => none

/-- Whether a store that was performed before its turn keeps a peer's request from its bytes for now (04: R95). -/
def State.ingressHeld (s : State) (q : PeerRequest) (holder slot : Nat) : Bool :=
  match s.ingressPa q holder slot with
  | none => false
  | some pa => s.earlyBlocks .peer (peerRights q.access != 2) (.home pa) q.size

/-- A memory request that has passed the checks is translated under a slot of its region, and performed. -/
def State.ingressMemory (s : State) (q : PeerRequest) : State :=
  let e := Table.getD s.xlat.exports q.slot 0#512
  let h := s.slotHolder (expRegion e)
  let slot := s.currentSlot h
  let va := expBase e + BitVec.ofNat 64 q.off
  match walkReach (peerKind q.access) (s.walk (s.slotWord h slot) va) with
  | .leaf l => s.peerPerform q (s.leafPa l va false)
  | .denied _ => (s.noteWalkEnd (s.slotWord h slot) va).ingressError q 8
  | .request =>
    let x := s.postRequest (pageOf va) h slot (slotGen (s.slotWord h slot)) (peerKind q.access)
    let s := x.1.pin h slot
    { s with xlat := { s.xlat with ingress := s.xlat.ingress ++ [{ req := q, id := x.2, holder := h, slot }] } }

/-- INGRESS_REQUEST (21: R372): a peer's request reaches an export of this device over a port that is up (23: R388). What it answers leaves the device. -/
def execIngressRequest (req : PeerRequest) (s : State) : Out :=
  let h := s.slotHolder (expRegion (Table.getD s.xlat.exports req.slot 0#512))
  if s.host.dev != .running || (Table.get? s.fab.ports req.port).isNone then .next s
  else
    match s.ingressFails req with
    | some reason => .next (s.ingressError req reason)
    | none =>
      if s.ingressHeld req h (s.currentSlot h) then .next s
      else if req.kv then
        match s.secondStage req.block none with
        | none => .next ((s.secondRead req.block).ingressError req 9)
        | some page => .next ((s.secondRead req.block).peerPerform req (page + req.off))
      else .next (s.ingressMemory req)

/-- A launch of a peer has ended: its contributions are added as those of a launch of this device are (05: R109, R110). -/
def State.closePeer (s : State) (importer : BitVec 22) (launch : Nat) : State :=
  let mine := s.xlat.peerAdds.filter fun p => p.importer == importer && p.launch == launch
  let s : State := { s with xlat := { s.xlat with
    peerAdds := s.xlat.peerAdds.filter fun p => !(p.importer == importer && p.launch == launch) } }
  s.closeContributions (mine.map PeerAdd.add)

/-- A peer's request takes the answer of its page request (21: R372). -/
def State.answerIngress (s : State) (i : Ingress) (slot : Option Nat) : State :=
  let e := Table.getD s.xlat.exports i.req.slot 0#512
  let va := expBase e + BitVec.ofNat 64 i.req.off
  let s := match slot with
    | none => s.ingressError i.req 8
    | some n =>
      let w := s.slotWord i.holder n
      if !slotValid w then s.ingressError i.req 8
      else
        match walkReach (peerKind i.req.access) (s.walk w va) with
        | .leaf l => s.peerPerform i.req (s.leafPa l va false)
        | .request => s.ingressError i.req 8
        | .denied _ => (s.noteWalkEnd w va).ingressError i.req 8
  s.unpin i.holder i.slot

/-! ## Answers (21: R367, R368) -/

/-- An answer resolves every waiter of its request. -/
def State.answer (s : State) (id page : Nat) (slot : Option Nat) : State :=
  let s : State := { s with xlat := { s.xlat with requests := Table.erase s.xlat.requests id } }
  let s := (s.groups.map Prod.fst).foldl (fun s k =>
    ((((s.answerOps k id slot).answerFetch k id slot).answerSleep k id slot).answerCmds k id page slot).answerCtx k id page slot) s
  let mine := s.xlat.ingress.filter fun i => i.id == id
  let s : State := { s with xlat := { s.xlat with ingress := s.xlat.ingress.filter fun i => i.id != id } }
  mine.foldl (fun s i => s.answerIngress i slot) s

/-- The slot that an answer names for the waiters of a request, or none when it counts as a failed answer: an invalid slot (03: R76), or,
for a write request, a tree that does not give W = 1 (21: R367). -/
def State.answerSlot (s : State) (q : PageReq) (code slot : Nat) : Option Nat :=
  let w := s.slotWord q.region slot
  if code ≠ 0 || 8 ≤ slot || !slotValid w then none
  else if !isWrite q.kind then some slot
  else
    match walkReach q.kind (s.walk w (BitVec.ofNat 64 (q.page * 2 ^ 16))) with
    | .leaf _ => some slot
    | .request => none
    | .denied _ => none

/-- Whether an answer has to wait: a request of a peer that it lets go on is held off its bytes. -/
def State.answerHeld (s : State) (id : Nat) (slot : Option Nat) : Bool :=
  match slot with
  | none => false
  | some n => s.xlat.ingress.any fun i => i.id == id && s.ingressHeld i.req i.holder n

/-- An answer that names no outstanding request, or one of a killed region, is discarded and logged (21: R368). -/
def State.discardAnswer (s : State) (id code : Nat) : State := { s with fab := { s.fab with eventLog := s.fab.eventLog ++ [(id, code)] } }

/-- ANSWER (21: R356, R367, R368). -/
def execAnswer (id code slot : Nat) (s : State) : Out :=
  let held := match Table.get? s.xlat.requests id with
    | none => false
    | some q => s.answerHeld id (s.answerSlot q code slot)
  if held && s.host.accepts 0x0026 then .next s
  else
    s.serveWith 0x0026 (opWords [id, code, slot]) fun s =>
      match Table.get? s.xlat.requests id with
      | none => (s.discardAnswer id code, 0)
      | some q =>
        if !s.alive q.region then (s.discardAnswer id code, 0)
        else (s.answer id q.page (s.answerSlot q code slot), 0)

end Sys2Proof.Machine
end

