-- ==== Sys2Proof/Machine/DebugOps.lean ====
section
/-!
DEFINITION. The driver's requests of debugging, freezing, recording and replay (25: R403 to R410; 26: R415, R416).
-/

namespace Sys2Proof.Machine

/-! ## Debugging (25: R403 to R406) -/

/-- Whether a group stands parked in the resident debug handler (25: R405). -/
def Group.inDebugger (g : Group) : Bool := g.ctl.stopped && g.ctl.cause == .debug && !g.id.walker && !g.ctl.dead

/-- A group leaves the resident debug handler; with step it issues one word of the set that the trap state names (25: R404,
R405). -/
def Group.debugResume (step : Bool) (g : Group) : Group :=
  { g with ctl := { g.ctl with
    stopped := false, stepping := step, cause := .resumed, uncompared := g.ctl.uncompared ||| g.tr.st.mask } }

/-- DEBUG_ATTACH (25: R403): result 1 while a debugger is attached, and for a region that is not registered (log 38). -/
def execDebugAttach (rcb : Nat) (s : State) : Out :=
  s.serveWith 0x0033 (opWords [1, rcb]) fun s =>
    if s.dbg.attached.isSome || !s.registered rcb then (s, 1)
    else ({ s with dbg := { s.dbg with attached := some rcb } }, 0)

/-- The bits of a comparator word that are not reserved (25: R404). -/
def comparatorBits : BitVec 128 := 0xFFFFFFFF0000000180FFFFFFFFFFFFFC#128

/-- DEBUG_COMPARATOR_WRITE (25: R404): every core holds the word at once, and reserved bits are ignored (00: R5); result 1 for another number
(log 38). -/
def execDebugComparatorWrite (k : Nat) (w : BitVec 128) (s : State) : Out :=
  s.serveWith 0x0033 (opWords [2, k] ++ leBytes 16 w.toNat) fun s =>
    if 8 ≤ k then (s, 1)
    else ({ s with dbg := { s.dbg with comparators := Table.put 0#128 s.dbg.comparators k (w &&& comparatorBits) } }, 0)

/-- DEBUG_RESUME (25: R405): result 1 for a group that the debugger has not stopped (log 38). -/
def execDebugResume (grp : Nat) (stepOne : Bool) (s : State) : Out :=
  s.serveWith 0x0033 (opWords [3, grp] ++ leBytes 1 stepOne.toNat) fun s =>
    match Table.get? s.groups grp with
    | none => (s, 1)
    | some g => if g.inDebugger then (s.setGroup grp (g.debugResume stepOne), 0) else (s, 1)

/-- The accumulators that a command names; an f64 form names an even one and the next (13: R262 to R264). -/
def State.namesAcc (s : State) (g : Group) (c : EngCmd) (acc : Nat) : Bool :=
  let two := fun (a : BitVec 3) (f64 : Bool) => a.toNat == acc || (f64 && a.toNat + 1 == acc)
  match c.ins with
  | .mma f _ a _ _ _ => two a (f == .f64)
  | .azero a _ _ f64 => two a f64
  | .ast t a _ _ _ => two a (tidFormat (s.tidEntry g.id.launch t.toNat) == 1)
  | _ => false

/-- The 4 KiB of an accumulator as the accumulator area of a context holds them (02: R45). -/
def Group.accBytes (g : Group) (acc : Nat) : List Byte :=
  (List.range 1024).flatMap fun w => leBytes 4 (Table.getD g.regs.acc (1024 * acc + w) 0#32).toNat

/-- Whether a debugger may read the tiles and accumulators of a group: it holds the group, and the group is parked (25: R406). -/
def State.readable (s : State) (g : Group) : Bool :=
  s.dbg.attached.isSome && s.debugHeld (s.regionOf g) && g.ctl.act == .parked && !g.id.walker && !g.ctl.dead

/-- DEBUG_READ_ACCUMULATOR (25: R406): pending while a command that names it has not completed; else its bytes, to a physical
buffer (log 38). -/
def execDebugReadAccumulator (grp : Nat) (acc : BitVec 3) (buf : Nat) (s : State) : Out :=
  s.serveWith 0x0033 (opWords [4, grp] ++ leBytes 1 acc.toNat ++ opWords [buf]) fun s =>
    match Table.get? s.groups grp with
    | none => (s, 1)
    | some g =>
      if !s.readable g || !s.spanOk buf 4096 || buf % 8 != 0 then (s, 1)
      else if g.fl.cmds.any fun c => s.namesAcc g c acc.toNat then (s, 2)
      else (s.engineStore buf (g.accBytes acc.toNat), 0)

/-- Whether a command names a tile (13: R260, R262). -/
def EngCmd.namesTile (c : EngCmd) (tile : Nat) : Bool :=
  match c.ins with
  | .tld _ t _ _ => t.toNat == tile
  | .mma _ t _ _ _ _ => t.toNat == tile
  | _ => false

/-- The 2 KiB of a tile, and its 128 scale bytes, as the areas of a context hold them (02: R45). -/
def Group.tileBytes (g : Group) (tile : Nat) : List Byte := bytesFrom g.regs.tiles (2048 * tile) 2048 ++ bytesFrom g.regs.scales (128 * tile) 128

/-- A read of a tile follows the rule of a read of an accumulator (25: R406). DESIGN CHOICE (log 38): R403 to R406 number no sub-operation for
it; it is sub-operation 6 of DEBUG. -/
def State.tileRead (s : State) (grp : Nat) (tile : BitVec 3) (buf : Nat) : Out :=
  s.serveWith 0x0033 (opWords [6, grp] ++ leBytes 1 tile.toNat ++ opWords [buf]) fun s =>
    match Table.get? s.groups grp with
    | none => (s, 1)
    | some g =>
      if !s.readable g || !s.spanOk buf 2176 || buf % 8 != 0 then (s, 1)
      else if g.fl.cmds.any fun c => c.namesTile tile.toNat then (s, 2)
      else (s.engineStore buf (g.tileBytes tile.toNat), 0)

/-- A group that the debugger stopped goes on as it detaches, without a step; one that the fault domain holds too stays with the fault
domain. -/
def Group.detached (g : Group) : Group :=
  if g.inDebugger then g.debugResume false
  else if g.ctl.stopped then { g with ctl := { g.ctl with stopped := false, uncompared := g.ctl.uncompared ||| g.tr.st.mask } }
  else g

/-- DEBUG_DETACH (25: R403): comparators are cleared, and every group in the resident handler resumes without a step. -/
def execDebugDetach (s : State) : Out :=
  s.serveWith 0x0033 (opWords [5]) fun s =>
    if s.dbg.attached.isNone then (s, 1)
    else
      ({ s with
        dbg := { s.dbg with attached := none, comparators := [] }
        groups := s.groups.map fun p => (p.1, p.2.detached) }, 0)

/-! ## Freezing (25: R407) -/

/-- Whether a started command waits for another party: its work now comes to nothing, whatever another device answers. -/
def State.waitsForParty (s : State) (k : Nat) (g : Group) (c : EngCmd) : Bool :=
  match c.ins with
  | .rput _ _ _ => (s.work k g c noReply).2 == .wait
  | .rtake _ _ _ => (s.work k g c noReply).2 == .wait
  | .blcol _ _ _ => (s.work k g c noReply).2 == .wait
  | .creduce _ _ => c.round != 0 && (s.work k g c noReply).2 == .wait
  | _ => false

/-- Whether a command stands at a command boundary, PUBL apart: not started, saved, between records, stopped by the freeze, or waiting for
another party (25: R407; log 39). -/
def State.rests (s : State) (k : Nat) (g : Group) (c : EngCmd) : Bool :=
  !c.started || g.ctl.saved || s.gangStopped g.id.gang || c.betweenRecords || s.dbg.halted.contains c.stamp || s.waitsForParty k g c

/-- Whether a command stands at a command boundary; a PUBL does while the commands that its instant waits for do (25: R407; 05: R106). -/
def State.stands (s : State) (k : Nat) (g : Group) (c : EngCmd) : Bool :=
  s.rests k g c || (c.ins.isPubl && c.ended.isNone && !s.mayPublish g c && s.groups.all fun p =>
    p.2.id.gang != g.id.gang || p.2.id.walker || p.2.fl.cmds.all fun x => !(x.ins.shadows && decide (x.stamp < c.stamp)) || s.rests p.1 p.2 x)

/-- The started commands that have come to a wait for another party while the device is frozen stay there until the thaw (25: R407). -/
def State.noteHalts (s : State) : State :=
  if !s.dbg.frozen then s
  else
    let new := s.groups.flatMap fun p => (p.2.fl.cmds.filter fun c =>
      c.started && !s.dbg.halted.contains c.stamp && s.waitsForParty p.1 p.2 c).map EngCmd.stamp
    if new.isEmpty then s else { s with dbg := { s.dbg with halted := s.dbg.halted ++ new } }

/-- Whether the device stands at a command boundary everywhere. -/
def State.allStand (s : State) : Bool := s.groups.all fun p => p.2.ctl.dead || p.2.fl.cmds.all fun c => s.stands p.1 p.2 c

/-- FREEZE (25: R407): issue stops at once; the request returns when every started command stands, and a later turn answers
it until then (log 1). -/
def execFreeze (s : State) : Out :=
  s.serve 0x0034 (opWords [0]) fun q s =>
    let s : State := { s with dbg := { s.dbg with frozen := true, freezing := true } }
    if s.allStand then ({ s with dbg := { s.dbg with freezing := false } } : State).respond q 0 [] else s

/-- A group parks under R405 for a dump; one that parks already goes on doing so. -/
def Group.dumpPark (g : Group) : Group := if g.ctl.act == .active then g.park .debug else g

/-- Whether every group is parked. -/
def State.allParked (s : State) : Bool := s.groups.all fun p => p.2.id.walker || p.2.ctl.dead || p.2.ctl.act == .parked

/-- A queue in a dump: 64 bytes (log 39). -/
def queueDump (n : Nat) (q : Queue) : List Byte :=
  leBytes 8 q.ring.toNat ++ leBytes 4 q.size ++ leBytes 2 q.qgroup ++ leBytes 2 (q.privileged.toNat + 2 * q.error.toNat)
    ++ leBytes 8 q.rcb ++ leBytes 8 q.readAddr.toNat ++ leBytes 8 q.wake.toNat
    ++ leBytes 4 (if q.slot.isSome then q.write else q.savedWrite).toNat
    ++ leBytes 4 (if q.slot.isSome then q.read else q.savedRead).toNat
    ++ leBytes 4 n ++ leBytes 4 (match q.slot with | none => 0xFFFFFFFF | some h => h) ++ leBytes 8 0

/-- A region in a dump: 256 bytes in the layout of its block (20: R350; log 39). -/
def regionDump (r : Region) : List Byte :=
  leBytes 8 r.parent ++ leBytes 8 r.statusWord ++ leBytes 4 r.activeGroups.toNat ++ leBytes 4 0 ++ leBytes 8 r.windowBytes.toNat
    ++ leBytes 2 r.matrixShare.toNat ++ leBytes 2 r.cxlShare.toNat ++ leBytes 1 r.ceiling.toNat ++ leBytes 1 r.faultDomain.toNat
    ++ leBytes 1 r.promise.toNat ++ leBytes 1 r.determinism.toNat ++ leBytes 1 r.publishScope.toNat ++ leBytes 1 r.partition.toNat
    ++ leBytes 1 (r.inheritSlots.toNat + 2 * r.current) ++ leBytes 1 0 ++ leBytes 4 r.watchdog.toNat
    ++ leBytes 4 r.parkThreshold.toNat ++ leBytes 4 r.noticeDeadline.toNat ++ leBytes 8 0
    ++ (List.range 8).flatMap (fun i => leBytes 8 (Table.getD r.slots i 0#64).toNat)
    ++ leBytes 8 r.inheritMask.toNat ++ leBytes 40 r.mask.toNat ++ leBytes 8 r.arena.toNat ++ leBytes 4 r.frameBytes.toNat
    ++ leBytes 4 r.frames.toNat ++ leBytes 64 0

/-- The groups that a dump holds. -/
def State.dumped (s : State) : List Group := (s.groups.filter fun p => !p.2.id.walker && !p.2.ctl.dead).map Prod.snd

/-- The dump (25: R407; layout: log 39): three counts; for each group its descriptor's fields and its commands in the form of
R274; queues; regions. -/
def State.dumpBytes (s : State) : List Byte :=
  leBytes 8 s.dumped.length ++ leBytes 8 s.disp.queues.length ++ leBytes 8 s.regions.length ++ leBytes 40 0
    ++ s.dumped.flatMap (fun g => leBytes 8 g.ctl.ctx.toNat ++ s.descBytes g (s.stackBase g) ++ g.enginePiece.2)
    ++ s.disp.queues.flatMap (fun p => queueDump p.1 p.2) ++ s.regions.flatMap fun p => regionDump p.2

/-- FREEZE_DUMP (25: R407): result 1 outside a freeze, and for a buffer out of memory (log 39); it answers when every group is
parked. -/
def execFreezeDump (buf : Nat) (s : State) : Out :=
  s.serve 0x0034 (opWords [1, buf]) fun q s =>
    if !s.dbg.frozen || s.dbg.freezing then s.respond q 1 []
    else
      let s : State := { s with
        dbg := { s.dbg with dumping := some buf }
        groups := s.groups.map fun p => if p.2.id.walker || p.2.ctl.dead then p else (p.1, p.2.dumpPark) }
      if !s.allParked then s
      else
        let s : State := { s with dbg := { s.dbg with dumping := none } }
        if buf % 8 ≠ 0 || !s.spanOk buf s.dumpBytes.length then s.respond q 1 []
        else (s.engineStore buf s.dumpBytes).respond q 0 []

/-- A group that a dump parked may wake. -/
def Group.thaw (g : Group) : Group :=
  if g.ctl.cause == .debug && !g.ctl.stopped then { g with ctl := { g.ctl with cause := .none } } else g

/-- FREEZE_THAW (25: R407): everything resumes; result 1 outside a freeze. -/
def execFreezeThaw (s : State) : Out :=
  s.serveWith 0x0034 (opWords [2]) fun s =>
    if !s.dbg.frozen then (s, 1)
    else
      ({ s with
        dbg := { s.dbg with frozen := false, freezing := false, dumping := none, halted := [] }
        groups := s.groups.map fun p => (p.1, p.2.thaw) }, 0)

/-! ## Record and replay (25: R409, R410; 26: R415, R416) -/

/-- The physical words of a watch list of a region, translated under its current slot for reads; none when a word is
misaligned or does not translate. -/
def State.watchWords (s : State) (rcb : Nat) (list : BitVec 64) (count : Nat) : Option (List Nat) :=
  match s.vaBytes rcb list (8 * count) with
  | none => none
  | some b =>
    (List.range count).foldr (fun i acc =>
      let va := BitVec.ofNat 64 (fieldAt b (8 * i) 8)
      match acc, s.vaPa rcb kindRead va with
      | some ws, some pa => if va.setWidth 3 = 0#3 then some (pa :: ws) else none
      | _, _ => none) (some [])

/-- Whether a region is in record or replay mode by request. -/
def State.inMode (s : State) (rcb : Nat) : Bool :=
  match Table.get? s.regions rcb with
  | none => false
  | some r => r.recorder.isSome || r.replay.isSome

/-- Whether the operands of REPLAY 1 and 2 may be taken; the log is aligned to its entries (log 40). -/
def State.replayOk (s : State) (rcb count : Nat) (log : BitVec 64) (bytes : Nat) : Bool :=
  s.registered rcb && !s.inMode rcb && decide (count ≤ 1024) && decide (64 ≤ bytes) && log.toNat % 32 == 0
    && (s.vaPa rcb kindWrite log).isSome && (s.vaPa rcb kindWrite (log + 32#64)).isSome

/-- REPLAY_RECORD (25: R409): the region records from now on; result 1 for operands that cannot be taken (log 40). -/
def execReplayRecord (rcb : Nat) (list : BitVec 64) (count : Nat) (log : BitVec 64) (bytes : Nat) (s : State) : Out :=
  s.serveWith 0x0035 (opWords [1, rcb, list.toNat, count, log.toNat, bytes]) fun s =>
    if !s.replayOk rcb count log bytes then (s, 1)
    else
      match s.watchWords rcb list count with
      | none => (s, 1)
      | some ws =>
        let r : Recorder := {
          watch := ws, log, bytes, slot := s.currentSlot (s.slotHolder rcb), holder := s.slotHolder rcb, entries := 0, status := 0, open_ := [] }
        let s := (List.range 8).foldl (fun s i => s.logStore rcb r (8 * i) 8 0) s
        (s.setRecorder rcb (some r), 0)

/-- An entry of a log (25: R409). -/
structure ReplayEntry where
  group : Nat
  lane : Nat
  store : Bool
  retires : Bool
  word : Nat
  ordinal : Nat
  run : Nat
  hash : BitVec 32
  deriving DecidableEq, Repr

/-- The entry in 32 bytes. -/
def replayEntryOf (b : List Byte) : ReplayEntry where
  group := fieldAt b 0 4
  lane := fieldAt b 4 1
  store := decide (bitsOf (fieldAt b 5 1) 0 1 = 1)
  retires := decide (bitsOf (fieldAt b 5 1) 1 1 = 1)
  word := fieldAt b 6 2
  ordinal := fieldAt b 8 4
  run := fieldAt b 12 2
  hash := BitVec.ofNat 32 (fieldAt b 16 4)

/-- Whether a reserved field of an entry is set (25: R409; 00: R5). -/
def entryReserved (b : List Byte) : Bool := fieldAt b 5 1 / 4 != 0 || fieldAt b 14 2 != 0 || fieldAt b 20 12 != 0

/-- The n entries of a log from entry i on; none when one of them does not translate, or has a reserved field set (00: R5). -/
def State.readLog (s : State) (rcb : Nat) (log : BitVec 64) (n i : Nat) : Option (List ReplayEntry) :=
  match n with
  | 0 => some []
  | m + 1 =>
    match s.vaBytes rcb (log + BitVec.ofNat 64 (64 + 32 * i)) 32, State.readLog s rcb log m (i + 1) with
    | some b, some es => if entryReserved b then none else some (replayEntryOf b :: es)
    | _, _ => none

/-- The script entries of a log entry (26: R416): one for each access of its run; the last one ends the run. -/
def ReplayEntry.script (ws : List Nat) (e : ReplayEntry) : List ScriptEntry :=
  if e.retires then []
  else
    (List.range e.run).map fun j =>
      { word := ws.getD e.word 0, group := e.group, lane := e.lane, ordinal := e.ordinal + j
        run := if j + 1 = e.run then some (e.hash, e.store) else none }

/-- Whether the entries of a log can be replayed (26: R416): words of the watch list, runs of at least one access, and at most
65,535 accesses in all. -/
def logFits (es : List ReplayEntry) (count : Nat) : Bool :=
  es.all (fun e => e.retires || (decide (e.word < count) && decide (1 ≤ e.run)))
    && decide (es.foldl (fun n e => if e.retires then n else n + e.run) 0 ≤ 65535)

/-- A region replays a log: its gate is armed over every word of the watch list, and the status goes to the header (25: R410; 26: R416); a log with no access is done
as soon as it is armed. -/
def State.beginReplay (s : State) (rcb : Nat) (ws : List Nat) (es : List ReplayEntry) (status : Nat) : State :=
  let script := es.flatMap (ReplayEntry.script ws)
  let s := (s.endGate rcb 3).armGate rcb script ws.eraseDups status (2 ^ 20) true
  let s := if script.isEmpty then s.disarm rcb 1 else s
  s.modRegion rcb fun r => { r with replay := some ((es.filter ReplayEntry.retires).map fun e => (e.group, e.hash)) }

/-- REPLAY_ARM (25: R410; 26: R416). -/
def execReplayArm (rcb : Nat) (list : BitVec 64) (count : Nat) (log : BitVec 64) (bytes : Nat) (s : State) : Out :=
  s.serveWith 0x0035 (opWords [2, rcb, list.toNat, count, log.toNat, bytes]) fun s =>
    if !s.replayOk rcb count log bytes then (s, 1)
    else
      match s.watchWords rcb list count, s.vaBytes rcb log 64, s.vaPa rcb kindWrite (log + 8#64) with
      | some ws, some hd, some status =>
        let n := fieldAt hd 0 8
        if fieldAt hd 8 8 ≠ 1 || fieldAt hd 16 48 ≠ 0 || bytes < 64 + 32 * n then (s, 1)
        else
          match s.readLog rcb log n 0 with
          | none => (s, 1)
          | some es => if logFits es count then (s.beginReplay rcb ws es status, 0) else (s, 1)
      | _, _, _ => (s, 1)

/-- REPLAY_END (25: R409, R410): recording ends with status 1, or the replay's gate is cancelled; result 1 in neither mode (log
40). -/
def execReplayEnd (rcb : Nat) (s : State) : Out :=
  s.serveWith 0x0035 (opWords [3, rcb]) fun s =>
    match Table.get? s.regions rcb with
    | none => (s, 1)
    | some r =>
      match r.recorder, r.replay with
      | some c, _ =>
        let s := if c.status = 0 then s.recordStatus rcb c 1 else s
        (s.setRecorder rcb none, 0)
      | none, some _ =>
        let s := match r.gate with
          | none => s
          | some g => if g.replay then s.endGate rcb 3 else s
        (s.modRegion rcb fun r => { r with replay := none }, 0)
      | none, none => (s, 1)

end Sys2Proof.Machine
end

