-- ==== Sys2Proof/Machine/ProfEvents.lean ====
section
/-!
DEFINITION. Profiling partitions: their memory, intervals, snapshots, PC samples, and what passing time counts (24: R393 to
R402).
-/

namespace Sys2Proof.Machine

/-! ## Memory (24: R393) -/

/-- A partition whose memory has just been given: it counts nothing before its first interval. -/
def Partition.given (snap ctl ring bytes : Nat) : Partition where
  snap := snap
  ctl := ctl
  ring := ring
  bytes := bytes
  enable := 0
  period := 0
  rate := 0
  rejected := false
  bins := []
  events := []
  interval := 0
  counts := []
  enabledTime := []
  countedTime := []
  strokes := []
  readIndex := 0
  writeIndex := 0
  lost := 0
  lostSlots := 0
  version := 0
  traced := []

/-- Whether n bytes at a physical address are 64 KiB aligned and in memory. -/
def State.frameOk (s : State) (a n : Nat) : Bool := a % 65536 == 0 && s.spanOk a n

/-- Profiling with the memory of a partition given; the first one begins an interval, which counts for none (24: R394). -/
def State.profGiven (s : State) (part : Nat) (p : Partition) : Prof :=
  let q := s.prof
  let q : Prof := if q.parts.isEmpty then { q with started := s.clk.cycle, index := s.clk.time / 10000 } else q
  { q with parts := Table.set q.parts part p }

/-- PROFILE (24: R393). -/
def execProfile (part snap ctl ring bytes : Nat) (s : State) : Out :=
  s.serveWith 0x0032 (opWords [part, snap, ctl, ring, bytes]) fun s =>
    if 64 ≤ part then (s, 1)
    else if snap = 0 && ctl = 0 && ring = 0 && bytes = 0 then
      ({ s with prof := { s.prof with parts := Table.erase s.prof.parts part } }, 0)
    else if s.frameOk snap 65536 && s.frameOk ctl 65536 && s.frameOk ring bytes && bytes % 65536 == 0 && decide (65536 ≤ bytes)
        && decide (bytes ≤ 0x4000000) then
      ({ s with prof := s.profGiven part (.given snap ctl ring bytes) }, 0)
    else (s, 1)

/-! ## Control frames (24: R394) -/

/-- The bins of a control frame. -/
def frameBins (b : List Byte) : List (Nat × Nat) := (List.range 7).map fun n => (fieldAt b (0x20 + 16 * n) 8, fieldAt b (0x28 + 16 * n) 8)

/-- The selectors of a control frame. -/
def frameEvents (b : List Byte) : List Nat := (List.range 32).map fun k => fieldAt b (0x90 + 2 * k) 2

/-- Whether a control frame has a reserved bit set or a value out of range (24: R394, R398). -/
def frameBad (b : List Byte) : Bool :=
  decide (32 ≤ fieldAt b 0 8) || (bitsOf (fieldAt b 0 8) 2 1 == 1 && decide (fieldAt b 8 4 < 4096)) || decide (20 < fieldAt b 12 1)
    || fieldAt b 13 3 != 0 || fieldAt b 0x18 8 != 0
    || (frameBins b).any (fun p => decide (2 ^ 56 ≤ p.1) || decide (2 ^ 56 ≤ p.2) || !(decide (p.1 < p.2) || (p.1 == 0 && p.2 == 0)))
    || (frameEvents b).any (fun e => decide (0x12 < e)) || ((b.drop 0xD0).take 3888).any fun x => x != 0#8

/-- A partition takes the values of its control frame for the interval that begins (24: R394, R399). -/
def Partition.take (p : Partition) (b : List Byte) : Partition :=
  if frameBad b then { p with rejected := true, interval := p.interval + 1 }
  else
    { p with
      rejected := false, enable := BitVec.ofNat 5 (fieldAt b 0 8), period := fieldAt b 8 4, rate := fieldAt b 12 1
      readIndex := fieldAt b 0x10 8, bins := frameBins b, events := frameEvents b
      interval := if p.events = frameEvents b then p.interval + 1 else 0 }

/-! ## Intervals and snapshots (24: R394, R399, R400) -/

/-- A table of times with n added at the listed keys. -/
def addTimes (t : Table Nat) (es : List Nat) (n : Nat) : Table Nat :=
  es.foldl (fun t e => Table.put 0 t e ((Table.getD t e 0 + n) % 2 ^ 64)) t

/-- The times of an interval of n aclk: every selector was enabled, and those that were counted were counted (24: R399). -/
def Partition.addInterval (p : Partition) (n : Nat) : Partition :=
  if !p.on 0 then p
  else
    { p with
      enabledTime := addTimes p.enabledTime (p.selectors.map selectorKey) n
      countedTime := addTimes p.countedTime (p.counted.map selectorKey) n }

/-- The fields of a snapshot from offset 0x0008 to 0x0030, its events and its strokes (24: R400). -/
def Partition.head (p : Partition) (time : Nat) : List Byte :=
  leBytes 8 time ++ leBytes 8 p.writeIndex ++ leBytes 8 p.lost ++ leBytes 8 p.lostSlots ++ leBytes 8 p.rejected.toNat
def Partition.eventBytes (p : Partition) : List Byte :=
  (List.range 32).flatMap fun k =>
    let e := p.events.getD k 0
    if e = 0 then List.replicate 24 0#8
    else
      let key := selectorKey (k, e)
      leBytes 8 (Table.getD p.counts key 0) ++ leBytes 8 (Table.getD p.enabledTime key 0) ++ leBytes 8 (Table.getD p.countedTime key 0)
def Partition.strokeBytes (p : Partition) : List Byte := (List.range 680).flatMap fun i => leBytes 8 (Table.getD p.strokes i 0)

/-- The device writes a snapshot in the order of R400: lead version, fields, trail version, lead version. -/
def State.writeSnapshot (s : State) (p : Partition) (time : Nat) : State :=
  let s := s.storeNat p.snap 8 (p.version + 1)
  let s := s.deviceStore (p.snap + 0x0008) (p.head time)
  let s := s.deviceStore (p.snap + 0x0040) p.eventBytes
  let s := s.deviceStore (p.snap + 0x0400) p.strokeBytes
  let s := s.storeNat (p.snap + 0xFFF8) 8 (p.version + 2)
  s.storeNat p.snap 8 (p.version + 2)

/-- TIME at the end of the current interval. -/
def State.intervalEnd (s : State) : Nat := 10000 * (s.prof.index + 1)

/-- One partition at the end of an interval: its snapshot, then its next control frame. DESIGN CHOICE (log 77): a frame whose read gets an
error response is rejected, and the error is logged. -/
def State.turnPartition (s : State) (k : Nat) : State :=
  match Table.get? s.prof.parts k with
  | none => s
  | some p =>
    let p := p.addInterval (s.clk.cycle - s.prof.started)
    let s := s.writeSnapshot p s.intervalEnd
    let p := { p with version := p.version + 2 }
    match s.spoilt p.ctl 4096 false with
    | none => s.modPart k fun _ => p.take (s.mem.bytes p.ctl 4096)
    | some e => (s.homeViolation p.ctl e id).modPart k fun _ => { p with rejected := true, interval := p.interval + 1 }

/-- Whether the current interval has ended; without a partition there is none (24: R394). -/
def State.intervalDue (s : State) : Bool := !s.prof.parts.isEmpty && decide (s.intervalEnd ≤ s.clk.time)

/-- PROFILING_INTERVAL (24: R394, R400): an interval ends for every partition, and the next one begins. -/
def execProfilingInterval (s : State) : Out :=
  if !s.intervalDue then .next s
  else
    let s := s.prof.parts.keys.foldl State.turnPartition s
    .next { s with prof := { s.prof with started := s.clk.cycle, index := s.prof.index + 1 } }

/-! ## PC samples (24: R397) -/

/-- The aclk at which the last sample of a partition came due; none before the first. -/
def State.sampleDue (s : State) (p : Partition) : Option Nat :=
  let n := (s.clk.cycle - s.prof.started) / p.period
  if !p.on 2 || p.period = 0 || n = 0 then none else some (s.prof.started + p.period * n)

/-- Whether a core owes a sample for a partition. -/
def State.owesSample (s : State) (core part : Nat) : Option Nat :=
  match Table.get? s.prof.parts part with
  | none => none
  | some p =>
    match s.sampleDue p with
    | none => none
    | some t => if t ≤ Table.getD (s.core core).sampledAt part 0 then none else some t

/-- The partition's groups that are placed on a core. -/
def State.sampleGroups (s : State) (core part : Nat) : List (Nat × Group) :=
  s.groups.filter fun p => p.2.ctl.core == core && p.2.view.partition == part && !p.2.id.walker && !p.2.ctl.dead
    && (match Table.get? s.gangs p.2.id.gang with
        | none => true
        | some a => a.preempt != .parked)

/-- The element with the smallest key. -/
def minBy (f : Nat × Group → Nat) (xs : List (Nat × Group)) : Option (Nat × Group) :=
  xs.foldl (fun b x =>
    match b with
    | none => some x
    | some y => if f x < f y then some x else b) none

/-- The next candidate after the one last sampled, in group-slot order. -/
def State.nextSample (s : State) (core part : Nat) : Option (Nat × Group) :=
  let xs := s.sampleGroups core part
  let after := match Table.get? (s.core core).sampled part with
    | none => xs
    | some n => xs.filter fun p => decide (n < p.2.ctl.slot)
  minBy (fun p => p.2.ctl.slot) (if after.isEmpty then xs else after)

/-- The set that is sampled, and its PC: the current set; the set that R12 would choose; the set with the lowest PC. -/
def State.sampleSet (s : State) (g : Group) : BitVec 32 × BitVec 64 :=
  let cur := g.ctl.cur &&& g.live
  if cur ≠ 0#32 then (cur, g.pc ((lanesOf cur).headD 0))
  else
    match chooseSet (s.promise (s.regionOf g)) g.ctl.yielded ((s.views g).filter SetView.ready) with
    | some v => (v.mask, v.pc)
    | none =>
      let sets := groupPcs ((lanesOf g.live).map fun l => (l, g.pc l)) []
      match sets.foldl (fun b e =>
        match b with
        | none => some e
        | some x => if e.1.toNat < x.1.toNat then some e else b) none with
      | none => (0#32, 0#64)
      | some e => (e.2, e.1)

/-- Whether a lane of a set waits so. -/
def Group.anyWait (g : Group) (m : BitVec 32) (p : LaneWait → Bool) : Bool := (lanesOf m).any fun l => ((g.waitOf l).map p).getD false

/-- The next word of a set, when its fetch gives one that has a meaning. -/
def State.nextInstr (s : State) (g : Group) (m : BitVec 32) : Option Instr :=
  match s.fetch g m with
  | .word w => (match decode w with
    | .ok i => some i
    | .illop => none
    | .illfld => none)
  | .miss => none
  | .held => none
  | .denied => none
  | .spoilt _ _ => none

/-- Whether a window that has run out, or that the next word closes, holds a set (07: R146). -/
def Group.windowHolds (g : Group) (i : Option Instr) (m : BitVec 32) : Bool :=
  g.fl.pend.any fun e => !e.2.landed && e.2.set &&& m != 0#32 && ((i.map Instr.closes).getD false || e.2.remaining == 0)

/-- Whether the next word of a set waits on an order of memory accesses, of rootsw or of PUBL, or on landing lines (02: R56, R58; 05: R100, R106; 08:
R164; 22: R375). A set whose ld.probe
waits for its walk counts here (log 41). -/
def State.memoryHolds (s : State) (g : Group) (i : Option Instr) (m : BitVec 32) : Bool :=
  (g.fl.probes.any fun p => p.set &&& m != 0#32) || s.fetch g m == .held ||
    match i with
    | none => false
    | some i => (Instr.ordered i && g.logged != 0)
        || (Instr.afterAll i && ((g.fl.ops.any fun o => o.kind.reads || o.kind.writes) || !g.fl.roots.isEmpty || g.fl.publ.isSome))
        || (Instr.refreshes i && (!g.fl.roots.isEmpty || g.acquiring)) || !(g.moves (Instr.closes i) m).room i

/-- Why the next word of a set does not issue, from its operands and queues: reasons 2, 4, 7, 5, 3, else 1. -/
def State.wordReason (s : State) (g : Group) (i : Option Instr) (m : BitVec 32) : Nat :=
  if !(g.fillsFor i m).isEmpty then 2
  else if g.windowHolds i m then 4
  else if (i.map Instr.isEngine).getD false && decide (16 ≤ g.issued.length) then 7
  else if s.memoryHolds g i m then 5
  else if !((i.map fun i => g.wordReady i m).getD true) then 3
  else 1

/-- Whether a set waits on a fault: of its fetch, or of a line of the context that its next word needs; on a fifth log entry; or on another
set's handler (24: R397). A set whose fetch waits for a walk counts here, whether a page request follows or not (log 41). -/
def State.faultWait (s : State) (g : Group) (i : Option Instr) (m : BitVec 32) : Bool :=
  s.fetch g m == .miss
    || g.anyWait m (fun w => match w with | .fetch _ => true | .barrier _ _ _ _ => false | .arrive _ _ _ _ => false | .sleep _ => false)
    || ((g.fillsFor i m ++ g.wholeLines i m).any fun n => g.ctxWaits (g.lineAddr n))
    || ((i.map Instr.isMemory).getD false && decide (4 ≤ g.logged))
    || (g.tr.st.active && g.tr.st.mask &&& m == 0#32)

/-- The reason of a sample: the first row of R397 that applies. -/
def State.sampleReason (s : State) (g : Group) (m : BitVec 32) : Nat :=
  let next := s.nextInstr g m
  if g.ctl.issuedAt = some s.clk.cycle then 0
  else if g.ctl.act ≠ .active then 9
  else if s.faultWait g next m then 8
  else if g.anyWait m (fun w => match w with | .fetch _ => false | .barrier _ _ _ _ => true | .arrive _ _ _ _ => true | .sleep _ => true) then 6
  else s.wordReason g next m

/-- PC_SAMPLE (24: R397): a core takes one sample for a partition when one is due. -/
def execPcSample (core part : Nat) (s : State) : Out :=
  match s.owesSample core part with
  | none => .next s
  | some t =>
    let s := s.modCore core fun c => { c with sampledAt := Table.set c.sampledAt part t }
    match s.nextSample core part with
    | none => .next s
    | some (_, g) =>
      let x := s.sampleSet g
      let s := s.modCore core fun c => { c with sampled := Table.set c.sampled part g.ctl.slot }
      .next (s.profRecord part (s.recordBytes g 1 0 (s.sampleReason g x.1) x.2 (markB x.1 g)))

/-- Whether a number of aclk may pass before the next sample of a core that holds groups: none while one is owed, and no more than up to the
next that comes due. -/
def State.samplesAllow (s : State) (aclk : Nat) : Bool :=
  s.prof.parts.all fun p => !p.2.on 2 || p.2.period == 0 || aclk == 0 ||
    (decide ((s.clk.cycle - s.prof.started) % p.2.period + aclk ≤ p.2.period)
      && s.busyCores.all fun c => (s.owesSample c p.1).isNone)

/-! ## Passing time (24: R395, R396, R398) -/

/-- The lane slots of n aclk of a core count as idle for the partitions that hold a bin set there; an issued lane word takes
its slot out of them (log 41). -/
def State.idleSlots (s : State) (core n : Nat) : State :=
  (s.core core).bins.foldl (fun s b =>
    s.modPart b.partition fun p =>
      if p.on 1 then p.stroke (core / 4 / Config.clustersPerDie) 7 4 (32 * n) else p) s

/-- The slots of a core for the partitions that find no bin set there, and none free. -/
def State.lostSlotsOn (s : State) (core n : Nat) : State :=
  let ps := (s.groups.filterMap fun p =>
    if p.2.ctl.core == core && s.onCore core p.2.view.partition && !p.2.id.walker && !p.2.ctl.dead then some p.2.view.partition
    else none).eraseDups
  ps.foldl (fun s part =>
    if ((s.core core).binSet part).isSome || (s.core core).bins.length < 4 then s
    else s.modPart part fun p => if p.on 1 then { p with lostSlots := p.lostSlots + n } else p) s

/-- What n aclk count for the partitions. -/
def State.passTime (s : State) (n : Nat) : State :=
  if s.prof.parts.isEmpty then s
  else
    let s := s.cores.keys.foldl (fun s c => s.idleSlots c n) s
    let s := s.busyCores.foldl (fun s c => s.lostSlotsOn c n) s
    s.groups.foldl (fun s p =>
      if p.2.ctl.waitSince.isSome && p.2.ctl.act == .active && !p.2.ctl.dead then s.tally p.2.view.partition 0x11 n else s) s

end Sys2Proof.Machine
end

