-- ==== Sys2Proof/Machine/Fabric.lean ====
section
/-!
DEFINITION. The Molod ports, time, power and temperature, and the windows of the budgets of shares (01: R31; 23: R388 to R391;
05: R98; 13: R268).
-/

namespace Sys2Proof.Machine

/-! ## Ports (23: R388) -/

/-- The number of Molod ports. -/
def portCount : Nat := 36

/-- State with the fabric changed. -/
def State.modFab (s : State) (f : Fabric → Fabric) : State := { s with fab := f s.fab }

/-- PORT_BRING_UP (23: R388): the port comes up when its record bit is set, the peer is the one named, and its identity and the
key exchange hold (ok); else it stays down and is logged. -/
def execPortBringUp (port : Nat) (peer : BitVec 22) (ok : Bool) (s : State) : Out :=
  if portCount ≤ port || s.host.dev != .running || (Table.get? s.fab.ports port).isSome then .next s
  else if ok && s.expectedPeer port == some peer then .next (s.modFab fun f => { f with ports := Table.set f.ports port ⟨0, 0⟩ })
  else .next (s.violation 0#64 (peer.setWidth 32 ||| (BitVec.ofNat 32 port <<< 24)) 5 0)

/-- The accesses in flight to a device: group, position, place. -/
def State.inFlightTo (s : State) (dev : BitVec 22) : List (Nat × Nat × Nat) :=
  s.groups.flatMap fun p => p.2.fl.ops.flatMap fun o =>
    (List.range o.accs.length).filterMap fun i =>
      match o.accs[i]? with
      | none => none
      | some a =>
        match a.st with
        | .peer slot =>
          if !a.over && s.importDevice slot == dev && o.ready && (!o.kind.writes || o.queue == .outbound) then some (p.1, o.seq, i)
          else none
        | .miss => none
        | .wait _ => none
        | .leaf _ => none
        | .direct _ => none
        | .answered _ => none
        | .failed _ => none

/-- Whether a collective has a rank on a device (13: R268). -/
def State.rankOn (s : State) (c : Coll) (dev : BitVec 22) : Bool :=
  c.ranks.any fun r =>
    let first := leNat ((r.params.drop 8).take 1)
    (List.range (leNat ((r.params.drop 9).take 1))).any fun j =>
      let b := s.bindingOf c.launch (first + j)
      bindKind b == 2 && bindTarget b == dev.toNat

/-- The reads of SLEEP in flight to a device: group, position. -/
def State.sleepsTo (s : State) (dev : BitVec 22) : List (Nat × Nat) :=
  s.groups.flatMap fun p => (p.2.fl.sleepers.filter fun z =>
    p.2.sleepDue z && s.sleepReach p.2 z == .peer && s.importDevice (z.va.extractLsb' 38 16).toNat == dev).map fun z => (p.1, z.seq)

/-- A read of SLEEP in flight fails. -/
def State.loseSleep (s : State) (k seq : Nat) : State :=
  match Table.get? s.groups k with
  | none => s
  | some g =>
    match g.fl.sleepers.find? fun z => z.seq == seq with
    | none => s
    | some z => s.sleepStep k g z (.error .access)

/-- What an engine command comes to when a port to a device is lost: an access of it in flight to the device fails; nothing, when it has
none. -/
def State.loseCmd (s : State) (dev : BitVec 22) (k seq : Nat) : State :=
  match Table.get? s.groups k with
  | none => s
  | some g =>
    match g.cmdAt seq with
    | none => s
    | some c =>
      if !s.mayWork g c then s
      else
        let lost : EngineReply := { noReply with lost := some dev }
        let x := match c.ins with
          | .chain ch _ _ => if c.ended.isSome then ((s, Verdict.wait), (s, Verdict.wait))
              else (s.workRecord k g c ch noReply, s.workRecord k g c ch lost)
          | _ => (s.work k g c noReply, s.work k g c lost)
        if x.1.2 == x.2.2 then s else State.settleCmd k g c x.2

/-- What the loss of a port to a device does: the accesses in flight to it fail, those of lanes, LDK, SLEEP and engines; with no other port
to it up, it is lost, and its collectives end with code 0x0A. -/
def State.loseDevice (s : State) (dev : BitVec 22) : State :=
  let cmds := s.groups.flatMap fun p => p.2.fl.cmds.map fun c => (p.1, c.seq)
  let sleeps := s.sleepsTo dev
  let s := (s.inFlightTo dev).foldl (fun s e => s.performAt e.1 e.2.1 e.2.2 (.error .access)) s
  let s := sleeps.foldl (fun s e => s.loseSleep e.1 e.2) s
  let s := cmds.foldl (fun s e => s.loseCmd dev e.1 e.2) s
  if s.fab.ports.any fun p => s.expectedPeer p.1 == some dev then s
  else { s with colls := s.colls.map fun c => if s.rankOn c dev && c.failed.isNone then { c with failed := some 0x0A } else c }

/-- PORT_LOSS (23: R388). -/
def execPortLoss (port : Nat) (s : State) : Out :=
  if (Table.get? s.fab.ports port).isNone then .next s
  else
    let s := s.modFab fun f => { f with ports := Table.erase f.ports port }
    match s.expectedPeer port with
    | none => .next s
    | some dev => .next (s.loseDevice dev)

/-- The frames that one key protects (23: R388). -/
def keyFrames : Nat := 2 ^ 32

/-- Whether the key of a port is to be renewed. -/
def State.keyDue (s : State) (port : Nat) : Bool :=
  match Table.get? s.fab.ports port with
  | none => false
  | some p => decide (keyFrames ≤ p.frames)

/-- LINK_KEY_RENEWAL (23: R388): an up port that has sent 2^32 frames under its key takes a new one. -/
def execLinkKeyRenewal (port : Nat) (s : State) : Out :=
  .next (if s.keyDue port then s.modFab fun f => { f with ports := Table.modify f.ports port fun p => ⟨0, p.renewals + 1⟩ } else s)

/-- An up port sends frames, as many as its key has left (23: R388). -/
def State.sendFrames (s : State) (port n : Nat) : State :=
  s.modFab fun f => { f with ports := Table.modify f.ports port fun p => { p with frames := min keyFrames (p.frames + n) } }

/-! ## Time (23: R389) -/

/-- The last value of TIME, which counts in 64 bits. -/
def lastTime : Nat := 2 ^ 64 - 1

/-- Whether a port carries PTP in the domain of the record (23: R380, R389); an unconfigured device has no such port. -/
def State.carriesPtp (s : State) (port domain : Nat) : Bool :=
  match s.boot.settings with
  | none => false
  | some c => decide (port < portCount) && c.ptpPorts.getLsbD port && c.ptpDomain == domain && (Table.get? s.fab.ports port).isSome

/-- TIME takes a forward step; it ends one interval of profiling at most (23: R389; log 41). -/
def State.stepTime (s : State) (t : Nat) : State :=
  { s with
    clk := { s.clk with time := t }
    prof := { s.prof with index := max s.prof.index (t / 10000 - 1) } }

/-- PTP_EVENT (23: R389): a port that carries PTP sees a reference; TIME behind it by more than 1 ms takes one forward step, and otherwise
the correction slews as time passes. -/
def execPtpEvent (m : PtpMessage) (s : State) : Out :=
  if !s.carriesPtp m.port m.domain then .next s
  else
    let s : State := if s.clk.time + 1000000 < m.reference then s.stepTime (min m.reference lastTime) else s
    let s : State := { s with clk := { s.clk with reference := true } }
    .next (s.modHost fun h => { h with timeUnlocked := false })

/-- PTP_REFERENCE_LOSS (23: R389): TIME runs free, and STATUS bit 3 is set. -/
def execPtpReferenceLoss (s : State) : Out :=
  .next (({ s with clk := { s.clk with reference := false } } : State).modHost fun h => { h with timeUnlocked := true })

/-! ## Power and temperature (23: R390) -/

/-- Whether the drawn power has reached the record's cap, in steps of 0.1 kW, or the junction temperature 105 °C (23: R390). -/
def State.hot (s : State) (r : PowerReading) : Bool := decide (100 * s.powerCap ≤ r.watts) || decide (105 ≤ r.celsius)

/-- POWER_THROTTLE (23: R390): aclk goes down by 25 MHz, no lower than 400 MHz, while the device is hot; else up again, no
higher than 800 MHz (log 42). -/
def execPowerThrottle (r : PowerReading) (s : State) : Out :=
  .next { s with clk := { s.clk with mhz := if s.hot r then max 400 (s.clk.mhz - 25) else min 800 (s.clk.mhz + 25) } }

/-- THERMAL_HALT (23: R390): at 115 °C every region is killed, and the device is halted until reset. -/
def execThermalHalt (celsius : Nat) (s : State) : Out :=
  if celsius < 115 then .next s
  else
    let tops := (s.regions.filter fun p => p.2.parent == 0).map Prod.fst
    .next ((tops.foldl State.killRegion s).modHost fun h => { h with dev := .halted })

/-! ## Shares (01: R31) -/

/-- A region in a new window of the shares. -/
def Region.newWindow (r : Region) : Region := { r with matrixUse := 0, cxlUse := [] }

/-- When the window of the shares is over, a new one of 4,096 aclk begins for every region (01: R31). -/
def State.endShareWindow (s : State) : State :=
  if s.clk.cycle < s.clk.window + 4096 then s
  else
    { s with
      regions := s.regions.map fun p => (p.1, p.2.newWindow)
      clk := { s.clk with window := s.clk.cycle - (s.clk.cycle - s.clk.window) % 4096 } }

/-- SHARE_WINDOW_END (01: R31): the window of 4,096 aclk ends when it is over, and not before. -/
def execShareWindowEnd (s : State) : Out := .next s.endShareWindow

end Sys2Proof.Machine
end

