-- ==== Sys2Proof/Machine/Dispatch.lean ====
section
/-!
DEFINITION. The meaning of every instruction: one arm per constructor of Instr, each one direct call.
-/

namespace Sys2Proof.Machine

def exec (i : Instr) (s : State) : Host.Outcome State Fault Refusal :=
  match i with
  | .iadd g d a b => Sys2Proof.Machine.execIadd g d a b s
  | .iaddi g d a imm => Sys2Proof.Machine.execIaddi g d a imm s
  | .isub g d a b => Sys2Proof.Machine.execIsub g d a b s
  | .iadc g d a b => Sys2Proof.Machine.execIadc g d a b s
  | .isbb g d a b => Sys2Proof.Machine.execIsbb g d a b s
  | .imul g d a b => Sys2Proof.Machine.execImul g d a b s
  | .imulh g d a b => Sys2Proof.Machine.execImulh g d a b s
  | .imulhu g d a b => Sys2Proof.Machine.execImulhu g d a b s
  | .imad g d a b => Sys2Proof.Machine.execImad g d a b s
  | .imin g d a b => Sys2Proof.Machine.execImin g d a b s
  | .imax g d a b => Sys2Proof.Machine.execImax g d a b s
  | .iminu g d a b => Sys2Proof.Machine.execIminu g d a b s
  | .imaxu g d a b => Sys2Proof.Machine.execImaxu g d a b s
  | .iabs g d a => Sys2Proof.Machine.execIabs g d a s
  | .ineg g d a => Sys2Proof.Machine.execIneg g d a s
  | .rng g d a => Sys2Proof.Machine.execRng g d a s
  | .movi g d imm => Sys2Proof.Machine.execMovi g d imm s
  | .movhi g d imm => Sys2Proof.Machine.execMovhi g d imm s
  | .andL g d a b => Sys2Proof.Machine.execAndL g d a b s
  | .orL g d a b => Sys2Proof.Machine.execOrL g d a b s
  | .xorL g d a b => Sys2Proof.Machine.execXorL g d a b s
  | .andn g d a b => Sys2Proof.Machine.execAndn g d a b s
  | .shl g d a b => Sys2Proof.Machine.execShl g d a b s
  | .shr g d a b => Sys2Proof.Machine.execShr g d a b s
  | .sar g d a b => Sys2Proof.Machine.execSar g d a b s
  | .rol g d a b => Sys2Proof.Machine.execRol g d a b s
  | .bfx g d a b => Sys2Proof.Machine.execBfx g d a b s
  | .bfxu g d a b => Sys2Proof.Machine.execBfxu g d a b s
  | .bfi g d a b => Sys2Proof.Machine.execBfi g d a b s
  | .popc g d a => Sys2Proof.Machine.execPopc g d a s
  | .clz g d a => Sys2Proof.Machine.execClz g d a s
  | .ctz g d a => Sys2Proof.Machine.execCtz g d a s
  | .brev g d a => Sys2Proof.Machine.execBrev g d a s
  | .sel c d a b => Sys2Proof.Machine.execSel c d a b s
  | .cvtsr form d a b => Sys2Proof.Machine.execCvtsr form d a b s
  | .icmp g cd wide a b => Sys2Proof.Machine.execIcmp g cd wide a b s
  | .itst g cd wide a b => Sys2Proof.Machine.execItst g cd wide a b s
  | .fcmp g cd a b => Sys2Proof.Machine.execFcmp g cd a b s
  | .dcmp g cd a b => Sys2Proof.Machine.execDcmp g cd a b s
  | .cmov g cd cj => Sys2Proof.Machine.execCmov g cd cj s
  | .cmovV g cd a => Sys2Proof.Machine.execCmovV g cd a s
  | .cmovI g cd imm => Sys2Proof.Machine.execCmovI g cd imm s
  | .cmovR g a => Sys2Proof.Machine.execCmovR g a s
  | .iaddmin g d a b => Sys2Proof.Machine.execIaddmin g d a b s
  | .iaddmax g d a b => Sys2Proof.Machine.execIaddmax g d a b s
  | .faddmin g d a b => Sys2Proof.Machine.execFaddmin g d a b s
  | .addw g d a b => Sys2Proof.Machine.execAddw g d a b s
  | .subw g d a b => Sys2Proof.Machine.execSubw g d a b s
  | .shlw g d a b => Sys2Proof.Machine.execShlw g d a b s
  | .shrw g d a b => Sys2Proof.Machine.execShrw g d a b s
  | .sarw g d a b => Sys2Proof.Machine.execSarw g d a b s
  | .mulw g d a b => Sys2Proof.Machine.execMulw g d a b s
  | .badd g d a b => Sys2Proof.Machine.execBadd g d a b s
  | .bfma g d a b => Sys2Proof.Machine.execBfma g d a b s
  | .idivI32 d a b la => Sys2Proof.Machine.execIdivI32 d a b la s
  | .idivN32 d a b la => Sys2Proof.Machine.execIdivN32 d a b la s
  | .iremI32 d a b la => Sys2Proof.Machine.execIremI32 d a b la s
  | .iremN32 d a b la => Sys2Proof.Machine.execIremN32 d a b la s
  | .fdiv d a b la => Sys2Proof.Machine.execFdiv d a b la s
  | .fsqrt d a la => Sys2Proof.Machine.execFsqrt d a la s
  | .frcp d a la => Sys2Proof.Machine.execFrcp d a la s
  | .frsq d a la => Sys2Proof.Machine.execFrsq d a la s
  | .fexp2 d a la => Sys2Proof.Machine.execFexp2 d a la s
  | .flog2 d a la => Sys2Proof.Machine.execFlog2 d a la s
  | .fsin d a la => Sys2Proof.Machine.execFsin d a la s
  | .fcos d a la => Sys2Proof.Machine.execFcos d a la s
  | .ddiv d a b la => Sys2Proof.Machine.execDdiv d a b la s
  | .dsqrt d a la => Sys2Proof.Machine.execDsqrt d a la s
  | .aaddN64 d a bs sc la ord => Sys2Proof.Machine.execAaddN64 d a bs sc la ord s
  | .aminI64 d a bs sc la ord => Sys2Proof.Machine.execAminI64 d a bs sc la ord s
  | .amaxI64 d a bs sc la ord => Sys2Proof.Machine.execAmaxI64 d a bs sc la ord s
  | .aminN64 d a bs sc la ord => Sys2Proof.Machine.execAminN64 d a bs sc la ord s
  | .amaxN64 d a bs sc la ord => Sys2Proof.Machine.execAmaxN64 d a bs sc la ord s
  | .aandN64 d a bs sc la ord => Sys2Proof.Machine.execAandN64 d a bs sc la ord s
  | .aorN64 d a bs sc la ord => Sys2Proof.Machine.execAorN64 d a bs sc la ord s
  | .axorN64 d a bs sc la ord => Sys2Proof.Machine.execAxorN64 d a bs sc la ord s
  | .ldI8 g d a bs la => Sys2Proof.Machine.execLdI8 g d a bs la s
  | .ldN8 g d a bs la => Sys2Proof.Machine.execLdN8 g d a bs la s
  | .ldI16 g d a bs la => Sys2Proof.Machine.execLdI16 g d a bs la s
  | .ldN16 g d a bs la => Sys2Proof.Machine.execLdN16 g d a bs la s
  | .ldN32 g d a bs la => Sys2Proof.Machine.execLdN32 g d a bs la s
  | .ldN64 g d a bs la => Sys2Proof.Machine.execLdN64 g d a bs la s
  | .ldN128 g d a bs la => Sys2Proof.Machine.execLdN128 g d a bs la s
  | .axchgN64 d a bs sc la ord => Sys2Proof.Machine.execAxchgN64 d a bs sc la ord s
  | .stN8 g d a bs => Sys2Proof.Machine.execStN8 g d a bs s
  | .stN16 g d a bs => Sys2Proof.Machine.execStN16 g d a bs s
  | .stN32 g d a bs => Sys2Proof.Machine.execStN32 g d a bs s
  | .stN64 g d a bs => Sys2Proof.Machine.execStN64 g d a bs s
  | .stN128 g d a bs => Sys2Proof.Machine.execStN128 g d a bs s
  | .ldk g d a bs la => Sys2Proof.Machine.execLdk g d a bs la s
  | .ldProbe g cj a bs size => Sys2Proof.Machine.execLdProbe g cj a bs size s
  | .acasN64 d a bs sc la ord => Sys2Proof.Machine.execAcasN64 d a bs sc la ord s
  | .aaddN32 d a bs sc la ord => Sys2Proof.Machine.execAaddN32 d a bs sc la ord s
  | .aminI32 d a bs sc la ord => Sys2Proof.Machine.execAminI32 d a bs sc la ord s
  | .amaxI32 d a bs sc la ord => Sys2Proof.Machine.execAmaxI32 d a bs sc la ord s
  | .aminN32 d a bs sc la ord => Sys2Proof.Machine.execAminN32 d a bs sc la ord s
  | .amaxN32 d a bs sc la ord => Sys2Proof.Machine.execAmaxN32 d a bs sc la ord s
  | .aandN32 d a bs sc la ord => Sys2Proof.Machine.execAandN32 d a bs sc la ord s
  | .aorN32 d a bs sc la ord => Sys2Proof.Machine.execAorN32 d a bs sc la ord s
  | .axorN32 d a bs sc la ord => Sys2Proof.Machine.execAxorN32 d a bs sc la ord s
  | .axchgN32 d a bs sc la ord => Sys2Proof.Machine.execAxchgN32 d a bs sc la ord s
  | .acasN32 d a bs sc la ord => Sys2Proof.Machine.execAcasN32 d a bs sc la ord s
  | .faddOrdF32 d a bs sc => Sys2Proof.Machine.execFaddOrdF32 d a bs sc s
  | .faddOrdF64 d a bs sc => Sys2Proof.Machine.execFaddOrdF64 d a bs sc s
  | .ldaN32 d a bs sc la acq => Sys2Proof.Machine.execLdaN32 d a bs sc la acq s
  | .ldaN64 d a bs sc la acq => Sys2Proof.Machine.execLdaN64 d a bs sc la acq s
  | .staN32 d a bs sc rel => Sys2Proof.Machine.execStaN32 d a bs sc rel s
  | .staN64 d a bs sc rel => Sys2Proof.Machine.execStaN64 d a bs sc rel s
  | .bra g off => Sys2Proof.Machine.execBra g off s
  | .bral g off => Sys2Proof.Machine.execBral g off s
  | .jmp g d a => Sys2Proof.Machine.execJmp g d a s
  | .ret g a => Sys2Proof.Machine.execRet g a s
  | .yield g => Sys2Proof.Machine.execYield g s
  | .nop g => Sys2Proof.Machine.execNop g s
  | .exit g => Sys2Proof.Machine.execExit g s
  | .hadd g d a b => Sys2Proof.Machine.execHadd g d a b s
  | .hfma g d a b => Sys2Proof.Machine.execHfma g d a b s
  | .fadd g d a b => Sys2Proof.Machine.execFadd g d a b s
  | .fsub g d a b => Sys2Proof.Machine.execFsub g d a b s
  | .fmul g d a b => Sys2Proof.Machine.execFmul g d a b s
  | .ffma g d a b => Sys2Proof.Machine.execFfma g d a b s
  | .fmin g d a b => Sys2Proof.Machine.execFmin g d a b s
  | .fmax g d a b => Sys2Proof.Machine.execFmax g d a b s
  | .dadd g d a b => Sys2Proof.Machine.execDadd g d a b s
  | .shfl g d a b => Sys2Proof.Machine.execShfl g d a b s
  | .shflI g d a k => Sys2Proof.Machine.execShflI g d a k s
  | .lsh g d a b => Sys2Proof.Machine.execLsh g d a b s
  | .lshI g d a k => Sys2Proof.Machine.execLshI g d a k s
  | .lrot g d a b => Sys2Proof.Machine.execLrot g d a b s
  | .lrotI g d a k => Sys2Proof.Machine.execLrotI g d a k s
  | .bcast g d a b => Sys2Proof.Machine.execBcast g d a b s
  | .bcastI g d a k => Sys2Proof.Machine.execBcastI g d a k s
  | .scan g d a op => Sys2Proof.Machine.execScan g d a op s
  | .sample g d a b => Sys2Proof.Machine.execSample g d a b s
  | .cvtRne g d a dst src => Sys2Proof.Machine.execCvtRne g d a dst src s
  | .cvtRneF32Q4 g d a => Sys2Proof.Machine.execCvtRneF32Q4 g d a s
  | .cvtRneQ4F32 g d a => Sys2Proof.Machine.execCvtRneQ4F32 g d a s
  | .cvtRz g d a dst src => Sys2Proof.Machine.execCvtRz g d a dst src s
  | .cvtRu g d a dst src => Sys2Proof.Machine.execCvtRu g d a dst src s
  | .cvtRd g d a dst src => Sys2Proof.Machine.execCvtRd g d a dst src s
  | .dmul g d a b => Sys2Proof.Machine.execDmul g d a b s
  | .dfma g d a b => Sys2Proof.Machine.execDfma g d a b s
  | .sadd d a b => Sys2Proof.Machine.execSadd d a b s
  | .ssub d a b => Sys2Proof.Machine.execSsub d a b s
  | .smul d a b => Sys2Proof.Machine.execSmul d a b s
  | .smulh d a b uns => Sys2Proof.Machine.execSmulh d a b uns s
  | .sand d a b => Sys2Proof.Machine.execSand d a b s
  | .sor d a b => Sys2Proof.Machine.execSor d a b s
  | .sxor d a b => Sys2Proof.Machine.execSxor d a b s
  | .sshl d a b => Sys2Proof.Machine.execSshl d a b s
  | .sshr d a b => Sys2Proof.Machine.execSshr d a b s
  | .ssar d a b => Sys2Proof.Machine.execSsar d a b s
  | .smin d a b uns => Sys2Proof.Machine.execSmin d a b uns s
  | .smax d a b uns => Sys2Proof.Machine.execSmax d a b uns s
  | .scmp a b => Sys2Proof.Machine.execScmp a b s
  | .ssel d a b c => Sys2Proof.Machine.execSsel d a b c s
  | .smovi d imm => Sys2Proof.Machine.execSmovi d imm s
  | .smovhi d imm => Sys2Proof.Machine.execSmovhi d imm s
  | .saddi d imm => Sys2Proof.Machine.execSaddi d imm s
  | .lread d a lane => Sys2Proof.Machine.execLread d a lane s
  | .sbcast d a hi => Sys2Proof.Machine.execSbcast d a hi s
  | .ballot d k c => Sys2Proof.Machine.execBallot d k c s
  | .idxImm imm => Sys2Proof.Machine.execIdxImm imm s
  | .idxReg d => Sys2Proof.Machine.execIdxReg d s
  | .prioImm imm => Sys2Proof.Machine.execPrioImm imm s
  | .prioReg d => Sys2Proof.Machine.execPrioReg d s
  | .ubra c off => Sys2Proof.Machine.execUbra c off s
  | .bar n refresh => Sys2Proof.Machine.execBar n refresh s
  | .gbar n refresh => Sys2Proof.Machine.execGbar n refresh s
  | .arrive n gang => Sys2Proof.Machine.execArrive n gang s
  | .wait n gang refresh => Sys2Proof.Machine.execWait n gang refresh s
  | .sleep d a b n64 c => Sys2Proof.Machine.execSleep d a b n64 c s
  | .refresh => Sys2Proof.Machine.execRefresh s
  | .rootsw d a b => Sys2Proof.Machine.execRootsw d a b s
  | .tlbfFill a b => Sys2Proof.Machine.execTlbfFill a b s
  | .tlbfReq a b => Sys2Proof.Machine.execTlbfReq a b s
  | .tlbfBad a b => Sys2Proof.Machine.execTlbfBad a b s
  | .trap imm => Sys2Proof.Machine.execTrap imm s
  | .tret => Sys2Proof.Machine.execTret s
  | .preq => Sys2Proof.Machine.execPreq s
  | .brk imm => Sys2Proof.Machine.execBrk imm s
  | .gateArm d => Sys2Proof.Machine.execGateArm d s
  | .gateCancel d => Sys2Proof.Machine.execGateCancel d s
  | .pmark imm => Sys2Proof.Machine.execPmark imm s
  | .pmarkV d imm => Sys2Proof.Machine.execPmarkV d imm s
  | .sld d a off la => Sys2Proof.Machine.execSld d a off la s
  | .sst d a off => Sys2Proof.Machine.execSst d a off s
  | .fence kind sc => Sys2Proof.Machine.execFence kind sc s
  | .copy tid ch x2 la var => Sys2Proof.Machine.execCopy tid ch x2 la var s
  | .chain ch x1 la => Sys2Proof.Machine.execChain ch x1 la s
  | .chwp sc ch x2 la acq => Sys2Proof.Machine.execChwp sc ch x2 la acq s
  | .publ tid x1 la => Sys2Proof.Machine.execPubl tid x1 la s
  | .rput ring x1 la => Sys2Proof.Machine.execRput ring x1 la s
  | .rtake ring x1 la => Sys2Proof.Machine.execRtake ring x1 la s
  | .tld tid tile x2 la => Sys2Proof.Machine.execTld tid tile x2 la s
  | .wld tid x1 la x24 => Sys2Proof.Machine.execWld tid x1 la x24 s
  | .mma fmt tile acc x3 la bs => Sys2Proof.Machine.execMma fmt tile acc x3 la bs s
  | .azero acc x1 la f64 => Sys2Proof.Machine.execAzero acc x1 la f64 s
  | .ast tid acc x2 la bs => Sys2Proof.Machine.execAst tid acc x2 la bs s
  | .blsub n slot x2 la => Sys2Proof.Machine.execBlsub n slot x2 la s
  | .blcol slot x1 la => Sys2Proof.Machine.execBlcol slot x1 la s
  | .qcast x0 la => Sys2Proof.Machine.execQcast x0 la s
  | .creduce x0 la => Sys2Proof.Machine.execCreduce x0 la s
  | .tidset tid x1 la => Sys2Proof.Machine.execTidset tid x1 la s
  | .tidget tid x1 la => Sys2Proof.Machine.execTidget tid x1 la s
  | .stins tid x1 la => Sys2Proof.Machine.execStins tid x1 la s
  | .stlook tid x1 la => Sys2Proof.Machine.execStlook tid x1 la s
  | .kvres tid x1 la => Sys2Proof.Machine.execKvres tid x1 la s
  | .sread d reg vec => Sys2Proof.Machine.execSread d reg vec s
  | .swrite d reg => Sys2Proof.Machine.execSwrite d reg s
  | .stamp d ord => Sys2Proof.Machine.execStamp d ord s
  | .reset => Sys2Proof.Machine.execReset s
  | .image off data => Sys2Proof.Machine.execImage off data s
  | .boot => Sys2Proof.Machine.execBoot s
  | .config off data => Sys2Proof.Machine.execConfig off data s
  | .attest nonce => Sys2Proof.Machine.execAttest nonce s
  | .vlog => Sys2Proof.Machine.execVlog s
  | .queueCreate q ring size qgroup flags rcb readAddr wake => Sys2Proof.Machine.execQueueCreate q ring size qgroup flags rcb readAddr wake s
  | .queueMap q hwSlot => Sys2Proof.Machine.execQueueMap q hwSlot s
  | .queueDelete q => Sys2Proof.Machine.execQueueDelete q s
  | .regionSuspend rcb => Sys2Proof.Machine.execRegionSuspend rcb s
  | .regionResume rcb => Sys2Proof.Machine.execRegionResume rcb s
  | .regionKill rcb => Sys2Proof.Machine.execRegionKill rcb s
  | .install rcb word gen => Sys2Proof.Machine.execInstall rcb word gen s
  | .hold rcb slot gen => Sys2Proof.Machine.execHold rcb slot gen s
  | .unhold rcb slot gen => Sys2Proof.Machine.execUnhold rcb slot gen s
  | .release nodes => Sys2Proof.Machine.execRelease nodes s
  | .passign slot rcb => Sys2Proof.Machine.execPassign slot rcb s
  | .pfree slot => Sys2Proof.Machine.execPfree slot s
  | .answer id code slot => Sys2Proof.Machine.execAnswer id code slot s
  | .importSet slot entry => Sys2Proof.Machine.execImportSet slot entry s
  | .exportSet slot entry => Sys2Proof.Machine.execExportSet slot entry s
  | .profile part snap ctl ring bytes => Sys2Proof.Machine.execProfile part snap ctl ring bytes s
  | .debugAttach rcb => Sys2Proof.Machine.execDebugAttach rcb s
  | .debugComparatorWrite k w => Sys2Proof.Machine.execDebugComparatorWrite k w s
  | .debugResume grp stepOne => Sys2Proof.Machine.execDebugResume grp stepOne s
  | .debugReadAccumulator grp acc buf => Sys2Proof.Machine.execDebugReadAccumulator grp acc buf s
  | .debugDetach => Sys2Proof.Machine.execDebugDetach s
  | .freeze => Sys2Proof.Machine.execFreeze s
  | .freezeDump buf => Sys2Proof.Machine.execFreezeDump buf s
  | .freezeThaw => Sys2Proof.Machine.execFreezeThaw s
  | .replayRecord rcb list count log bytes => Sys2Proof.Machine.execReplayRecord rcb list count log bytes s
  | .replayArm rcb list count log bytes => Sys2Proof.Machine.execReplayArm rcb list count log bytes s
  | .replayEnd rcb => Sys2Proof.Machine.execReplayEnd rcb s
  | .notifyWrite q v => Sys2Proof.Machine.execNotifyWrite q v s
  | .eventWrite v => Sys2Proof.Machine.execEventWrite v s
  | .ntailWrite v => Sys2Proof.Machine.execNtailWrite v s
  | .registerWrite off v => Sys2Proof.Machine.execRegisterWrite off v s
  | .queueSlotMap q hwSlot => Sys2Proof.Machine.execQueueSlotMap q hwSlot s
  | .queueSlotUnmap q => Sys2Proof.Machine.execQueueSlotUnmap q s
  | .launchPacket q => Sys2Proof.Machine.execLaunchPacket q s
  | .graphPacket q => Sys2Proof.Machine.execGraphPacket q s
  | .waitPacket q => Sys2Proof.Machine.execWaitPacket q s
  | .waitConditionMet pkt => Sys2Proof.Machine.execWaitConditionMet pkt s
  | .regionRegister q => Sys2Proof.Machine.execRegionRegister q s
  | .regionUpdate q => Sys2Proof.Machine.execRegionUpdate q s
  | .regionUnregister q => Sys2Proof.Machine.execRegionUnregister q s
  | .kvTableSet q => Sys2Proof.Machine.execKvTableSet q s
  | .launchStart launch => Sys2Proof.Machine.execLaunchStart launch s
  | .gangClaim launch die => Sys2Proof.Machine.execGangClaim launch die s
  | .gangPlace launch die => Sys2Proof.Machine.execGangPlace launch die s
  | .launchComplete launch => Sys2Proof.Machine.execLaunchComplete launch s
  | .loopIteration pkt => Sys2Proof.Machine.execLoopIteration pkt s
  | .groupActivate grp => Sys2Proof.Machine.execGroupActivate grp s
  | .groupEvict grp => Sys2Proof.Machine.execGroupEvict grp s
  | .parkThreshold grp => Sys2Proof.Machine.execParkThreshold grp s
  | .parkComplete grp => Sys2Proof.Machine.execParkComplete grp s
  | .fairnessLimit grp => Sys2Proof.Machine.execFairnessLimit grp s
  | .progressWaitLimit grp => Sys2Proof.Machine.execProgressWaitLimit grp s
  | .watchdog grp => Sys2Proof.Machine.execWatchdog grp s
  | .preemptRequest gang => Sys2Proof.Machine.execPreemptRequest gang s
  | .noticeDeadline gang => Sys2Proof.Machine.execNoticeDeadline gang s
  | .gangParkComplete gang => Sys2Proof.Machine.execGangParkComplete gang s
  | .gangResume gang cluster => Sys2Proof.Machine.execGangResume gang cluster s
  | .trapEntry grp => Sys2Proof.Machine.execTrapEntry grp s
  | .valueLands grp seq => Sys2Proof.Machine.execValueLands grp seq s
  | .lineFill grp line => Sys2Proof.Machine.execLineFill grp line s
  | .storeQueueDepart grp => Sys2Proof.Machine.execStoreQueueDepart grp s
  | .homeAccessPerform grp seq idx reply => Sys2Proof.Machine.execHomeAccessPerform grp seq idx reply s
  | .walkStart core => Sys2Proof.Machine.execWalkStart core s
  | .walkerInstructionLimit core => Sys2Proof.Machine.execWalkerInstructionLimit core s
  | .logEntryReplay grp seq => Sys2Proof.Machine.execLogEntryReplay grp seq s
  | .slotReclaim rcb slot => Sys2Proof.Machine.execSlotReclaim rcb slot s
  | .rootswStep grp => Sys2Proof.Machine.execRootswStep grp s
  | .sleepWake grp pc reply => Sys2Proof.Machine.execSleepWake grp pc reply s
  | .publInstant grp seq => Sys2Proof.Machine.execPublInstant grp seq s
  | .engineCommandStart grp seq => Sys2Proof.Machine.execEngineCommandStart grp seq s
  | .engineCommandComplete grp seq ext => Sys2Proof.Machine.execEngineCommandComplete grp seq ext s
  | .chainRecord grp seq ext => Sys2Proof.Machine.execChainRecord grp seq ext s
  | .groupRetire grp => Sys2Proof.Machine.execGroupRetire grp s
  | .gateTimeout rcb => Sys2Proof.Machine.execGateTimeout rcb s
  | .pcComparatorMatch grp => Sys2Proof.Machine.execPcComparatorMatch grp s
  | .profilingInterval => Sys2Proof.Machine.execProfilingInterval s
  | .pcSample core part => Sys2Proof.Machine.execPcSample core part s
  | .ingressRequest req => Sys2Proof.Machine.execIngressRequest req s
  | .portBringUp port peer ok => Sys2Proof.Machine.execPortBringUp port peer ok s
  | .portLoss port => Sys2Proof.Machine.execPortLoss port s
  | .linkKeyRenewal port => Sys2Proof.Machine.execLinkKeyRenewal port s
  | .ptpEvent message => Sys2Proof.Machine.execPtpEvent message s
  | .powerThrottle reading => Sys2Proof.Machine.execPowerThrottle reading s
  | .thermalHalt celsius => Sys2Proof.Machine.execThermalHalt celsius s
  | .i3cResetRequest => Sys2Proof.Machine.execI3cResetRequest s
  | .uncorrectableError cluster core => Sys2Proof.Machine.execUncorrectableError cluster core s
  | .shareWindowEnd => Sys2Proof.Machine.execShareWindowEnd s
  | .ptpReferenceLoss => Sys2Proof.Machine.execPtpReferenceLoss s

end Sys2Proof.Machine
end

