-- ==== Sys2Proof/Machine/Turns.lean ====
section
/-!
DEFINITION. Which agent moves next, and one move of it (log 1): the turn at the head of the agenda; with an empty agenda the
first of the machine's own steps that is due, and otherwise the issue of a word.
-/

namespace Sys2Proof.Machine

/-! ## The machine's own steps that are due -/

/-- The first that some element of a list gives. -/
def firstOf {α β : Type} (f : α → Option β) (xs : List α) : Option β :=
  match xs with
  | [] => none
  | x :: r =>
    match f x with
    | some i => some i
    | none => firstOf f r

/-- The first of several offers that is there. -/
def firstOffer {α β : Type} (x : α) (fs : List (α → Option β)) : Option β :=
  match fs with
  | [] => none
  | f :: r =>
    match f x with
    | some i => some i
    | none => firstOffer x r

/-- A step when a condition holds. -/
def dueIf (b : Bool) (f : Unit → Out) : Option Out := if b then some (f ()) else none

/-- The next step of a started command, as far as no peer has to answer. -/
def State.workOn (s : State) (k : Nat) (g : Group) (c : EngCmd) : State × Verdict :=
  match c.ins with
  | .chain ch _ _ => if c.ended.isSome then s.work k g c noReply else s.workRecord k g c ch noReply
  | _ => s.work k g c noReply

/-- The CXL ports at which a command has requests waiting (01: R31). -/
def State.portsOf (s : State) (k : Nat) (g : Group) (c : EngCmd) : List Nat :=
  if !s.mayWork g c then []
  else
    let use := fun (t : State) (port : Nat) => ((Table.get? t.regions (s.regionOf g)).map fun r => Table.getD r.cxlUse port 0).getD 0
    let t := (s.workOn k g c).1
    (List.range 32).filter fun port => use t port != use s port

/-- Whether requests of a group at a CXL port queue behind one of an engine of another region, which has not used its share (01: R31). -/
def State.engineBehind (s : State) (g : Group) (port : Nat) : Bool :=
  s.cxlUsed g && s.groups.any fun p => s.regionOf p.2 != s.regionOf g && !s.cxlUsed p.2 &&
    p.2.fl.cmds.any fun c => (s.portsOf p.1 p.2 c).contains port

/-- Whether a request of a lane at an address queues so. -/
def State.laneQueues (s : State) (g : Group) (pa : Nat) : Bool := s.inCxl pa && s.engineBehind g (s.cxlPortOf pa)

/-- Whether the requests of a command queue so. -/
def State.cmdQueues (s : State) (k : Nat) (g : Group) (c : EngCmd) : Bool := s.cxlUsed g && (s.portsOf k g c).any (s.engineBehind g)

/-- Whether an access can be performed at a home of this device now, and is not held there already. -/
def State.accessDue (s : State) (k : Nat) (g : Group) (o : MemOp) (i : Nat) (a : LaneAcc) : Bool :=
  match s.accPa a with
  | none => false
  | some pa => s.mayPerform k g o i a && !s.staysHeld k g o a pa && !s.laneQueues g pa

/-- The steps of a memory word. -/
def State.opDue (s : State) (k : Nat) (g : Group) (o : MemOp) : Option Out :=
  if g.mayLand o && !g.ctl.dead then some (execValueLands k o.seq s)
  else if g.ctl.act != .parked && o.accs.any (s.mayReplay g.ctl.core g.view.holder) then some (execLogEntryReplay k o.seq s)
  else
    firstOf (fun i =>
      match o.accs[i]? with
      | none => none
      | some a => dueIf (s.accessDue k g o i a) fun _ => execHomeAccessPerform k o.seq i (.done 0) s) (List.range o.accs.length)

/-- The steps of memory words and of the store queue of a group. -/
def State.memoryDue (s : State) (p : Nat × Group) : Option Out :=
  match firstOf (s.opDue p.1 p.2) p.2.fl.ops with
  | some i => some i
  | none =>
    match p.2.queueHead with
    | none => none
    | some o => dueIf (p.2.mayDepart o && !p.2.ctl.dead) fun _ => execStoreQueueDepart p.1 s

/-- The entry of a trap. -/
def State.trapDue (s : State) (p : Nat × Group) : Option Out :=
  let g := p.2
  dueIf (match g.tr.entering with
    | some _ => g.id.walker || (!g.ctl.dead && g.ctl.act != .parked && s.mayMoveAll g)
    | none => (if g.lostBoundary.isSome then g.ctl.act != .parked && s.mayMoveAll g else g.boundaryWaiting.isSome && s.mayEnter g)) fun _ => execTrapEntry p.1 s

/-- Whether a read of SLEEP needs no peer and can be made now. -/
def State.sleepReadDue (s : State) (k : Nat) (g : Group) (z : Sleeper) : Bool :=
  g.sleepDue z && !g.ctl.dead &&
    match s.sleepReach g z with
    | .here st pa => !s.sleepBlocked k g z st pa && !s.laneQueues g pa
    | .peer => false
    | .miss w => !s.walkPending g.ctl.core w.region w.gen w.page
    | .fail _ => true

/-- The reads of SLEEP that need no peer. -/
def State.sleepDue (s : State) (p : Nat × Group) : Option Out :=
  firstOf (fun z => dueIf (s.sleepReadDue p.1 p.2 z) fun _ => execSleepWake p.1 z.pc (.done 0) s) p.2.fl.sleepers

/-- The step of a root switch. -/
def State.rootDue (s : State) (p : Nat × Group) : Option Out :=
  match p.2.fl.roots with
  | [] => none
  | r :: _ => dueIf (p.2.rootReady r) fun _ => execRootswStep p.1 s

/-- The timers of issue. -/
def State.timerDue (s : State) (p : Nat × Group) : Option Out :=
  if s.fairnessDue p.2 then some (execFairnessLimit p.1 s)
  else if s.progressDue p.2 then some (execProgressWaitLimit p.1 s)
  else dueIf (s.watchdogSet p.2).isSome fun _ => execWatchdog p.1 s

/-- Whether the work of a command gets somewhere: it ends or stalls, or leaves the command further on. -/
def moves (k : Nat) (c : EngCmd) (x : State × Verdict) : Bool :=
  x.2 != .wait || ((Table.get? x.1.groups k).bind fun g => g.cmdAt c.seq) != some c

/-- The steps of an engine command that hang on no other device: a peer that has not answered holds the rest. -/
def State.commandDue (s : State) (k : Nat) (g : Group) (c : EngCmd) : Option Out :=
  if s.mayStart g c then some (execEngineCommandStart k c.seq s)
  else if s.mayStop g c then dueIf (moves k c (s.copyStops k g c noReply)) fun _ => execEngineCommandComplete k c.seq noReply s
  else if !s.mayWork g c || s.cmdQueues k g c then none
  else if c.ins.isPubl && c.ended.isNone then dueIf (s.mayPublish g c) fun _ => execPublInstant k c.seq s
  else
    match c.ins with
    | .chain ch _ _ =>
      if c.ended.isSome then some (execEngineCommandComplete k c.seq noReply s)
      else dueIf (moves k c (s.workRecord k g c ch noReply)) fun _ => execChainRecord k c.seq noReply s
    | _ => dueIf (moves k c (s.work k g c noReply)) fun _ => execEngineCommandComplete k c.seq noReply s

/-- The steps of a group's engine commands. -/
def State.engineDue (s : State) (p : Nat × Group) : Option Out := firstOf (s.commandDue p.1 p.2) p.2.fl.cmds

/-- Parking, activation, line fills and retirement of a group. -/
def State.groupDue (s : State) (p : Nat × Group) : Option Out :=
  let g := p.2
  if s.mayPark g && s.parkMoves p.1 g then some (execParkComplete p.1 s)
  else if s.mayRestore g then some (.next (s.restore p.1))
  else if s.thresholdDue g then some (execParkThreshold p.1 s)
  else if s.mayActivate p.1 g then some (execGroupActivate p.1 s)
  else if s.placeWanted p.1 g && s.candidateOf p.1 g && s.evictionHelps p.1 g then some (execGroupEvict p.1 s)
  else if g.mayRetire && !(g.ctl.compared && s.gangStopped g.id.gang) then some (execGroupRetire p.1 s)
  else if g.ctl.dead then none
  else (g.ctl.filling.find? (s.mayFill g)).map fun n => execLineFill p.1 n s

/-- The replacement of a register line of a core (02: R50). -/
def State.coreDue (s : State) (p : Nat × Core) : Option Out := (s.replaceDue p.1).map fun x => .next (s.replaceLine x.1 x.2)

/-- The steps of a gang's pre-emption, and its return after the driver has resumed it. -/
def State.gangDue (s : State) (p : Nat × Gang) : Option Out :=
  if s.deadlineDue p.2 then some (execNoticeDeadline p.1 s)
  else if s.gangParks p.1 && s.gangSaved p.1 then some (execGangParkComplete p.1 s)
  else (s.againOn p.1 p.2).map fun c => execGangResume p.1 c s

/-- The steps of a region: a slot to reclaim, a gate whose timeout has passed. -/
def State.regionDue (s : State) (p : Nat × Region) : Option Out :=
  match p.2.unused with
  | n :: _ => some (execSlotReclaim p.1 n s)
  | [] =>
    match p.2.gate with
    | none => none
    | some g => dueIf (s.gateExpired g) fun _ => execGateTimeout p.1 s

/-- Whether a launch that may start is rejected or finds room for its windows. -/
def State.startDue (s : State) (l : Launch) : Bool :=
  s.mayStartLaunch l &&
    match s.readLaunch (s.queueRegion l.queue) l.descAddr with
    | .error _ => true
    | .ok m =>
      let rcb := if m.desc.region = 0 then s.queueRegion l.queue else m.desc.region
      (s.rejection l rcb m).isSome || s.windowsFit rcb (launchWindowsOf m.binding)

/-- The steps of a launch. -/
def State.launchDue (s : State) (p : Nat × Launch) : Option Out :=
  let l := p.2
  if s.launchOver p.1 l then some (execLaunchComplete p.1 s)
  else if !l.started then dueIf (s.startDue l) fun _ => execLaunchStart p.1 s
  else
    firstOf (fun die =>
      if s.mayClaim l die && (l.dispatcher die).claimed.isEmpty then some (execGangClaim p.1 die s)
      else dueIf (!s.dbg.frozen && !l.killed && s.host.dev == .running && !(l.dispatcher die).claimed.isEmpty
        && !(s.placesOn l die).isEmpty) fun _ => execGangPlace p.1 die s) (List.range 16)

/-- The step that takes a queue's next packet. -/
def State.packetStep (s : State) (q row : Nat) : Out :=
  match row with
  | 1 => execLaunchPacket q s
  | 2 => execGraphPacket q s
  | 3 => execWaitPacket q s
  | 4 => execRegionRegister q s
  | 5 => execRegionUpdate q s
  | 6 => execRegionUnregister q s
  | _ => execKvTableSet q s

/-- Whether the next packet of a queue can be taken. -/
def State.packetTaken (s : State) (q : Nat) (b : List Byte) : Bool :=
  let row := pktRow b
  s.pktBad b || (s.intervalRoom q (pktRanges b).length
    && (row == 1 || row == 2 || !(s.dbg.frozen || s.disp.packets.any fun p => p.2.queue == q)))

/-- The lowest hardware slot that no queue holds. -/
def State.freeHwSlot (s : State) : Option Nat :=
  let used := s.disp.queues.filterMap fun p => p.2.slot
  ((List.range (used.length + 1)).find? fun n => !used.contains n).bind fun n => if n < hwSlots then some n else none

/-- The steps of a queue: it is mapped when packets wait for it; a graph of it goes on; its next packet is taken. -/
def State.queueDue (s : State) (p : Nat × Queue) : Option Out :=
  match p.2.slot with
  | none =>
    (s.tableQueue p.1 p.2).bind fun q =>
      if s.host.dev == .running && (ahead (s.wakeWord q) q.savedWrite || q.savedWrite != q.savedRead) then
        s.freeHwSlot.bind fun n => dueIf (s.mayMap p.1 p.2 n) fun _ => execQueueSlotMap p.1 n s
      else none
  | some _ =>
    if (s.graphReady p.1).isSome then some (execGraphPacket p.1 s)
    else
      match s.peek p.2 with
      | none => none
      | some b => dueIf (s.packetTaken p.1 b) fun _ => s.packetStep p.1 (pktRow b)

/-- The steps of a packet. -/
def State.packetDue (s : State) (p : Nat × Packet) : Option Out :=
  if s.waitMet p.2 then some (execWaitConditionMet p.1 s) else dueIf (s.loopWaits p.2 && !s.dbg.frozen) fun _ => execLoopIteration p.1 s

/-- A walker routine that has run too long. -/
def State.walkerDue (s : State) (p : Nat × Core) : Option Out := dueIf (p.2.walking && decide (4096 ≤ p.2.walkIssued)) fun _ => execWalkerInstructionLimit p.1 s

/-- The samples that a core owes. -/
def State.samplesDue (s : State) (core : Nat) : Option Out :=
  firstOf (fun part => dueIf (s.owesSample core part).isSome fun _ => execPcSample core part s) s.prof.parts.keys

/-- The ends of profiling intervals and samples. -/
def State.profDue (s : State) : Option Out :=
  if s.prof.parts.isEmpty then none
  else
    match firstOf s.samplesDue s.busyCores with
    | some i => some i
    | none => dueIf s.intervalDue fun _ => execProfilingInterval s

/-- The renewal of a link key (23: R388). -/
def State.linkDue (s : State) : Option Out := (s.fab.ports.keys.find? s.keyDue).map fun n => execLinkKeyRenewal n s

/-- The answer of a FREEZE 0 or 1 that waits. -/
def State.freezeDue (s : State) : Option Out :=
  if s.dbg.freezing then dueIf s.allStand fun _ => execFreeze s
  else
    match s.dbg.dumping with
    | none => none
    | some buf => dueIf s.allParked fun _ => execFreezeDump buf s

/-- Whether a store performed early is kept from the control die, which then takes no step that could read its bytes until the store's turn
has come (04: R90): a release at a scope that covers the device. -/
def State.controlHeld (s : State) : Bool :=
  s.early.any fun e => e.write && Scope.wholeDevice e.scope && (Table.get? s.groups e.grp).isSome

/-- Whether an access, a read of SLEEP or a command, by its group and position, queues at a CXL port behind an engine of another region. -/
def State.portQueues (s : State) (grp : Nat) (pas : Group → List Nat) (seq : Option Nat) : Bool :=
  match Table.get? s.groups grp with
  | none => false
  | some g => (pas g).any (s.laneQueues g) || match seq.bind g.cmdAt with
    | none => false
    | some c => s.cmdQueues grp g c

/-- The addresses of this device that an access of an operation goes to. -/
def State.accAt (s : State) (seq idx : Nat) (g : Group) : List Nat :=
  ((g.fl.ops.find? fun o => o.seq == seq).bind fun o => (o.accs[idx]?).bind s.accPa).toList

/-- The addresses of this device that the reads of SLEEP at a PC go to. -/
def State.sleepAt (s : State) (pc : BitVec 56) (g : Group) : List Nat :=
  (g.fl.sleepers.filter fun z => z.pc == pc && g.sleepDue z).filterMap fun z =>
    match s.sleepReach g z with
    | .here _ pa => some pa
    | .peer => none
    | .miss _ => none
    | .fail _ => none

/-- Whether a step of the table waits for accesses performed early, which are kept from the agent whose memory it reads: the control die, or the
walker of a core (04: R90); or for requests of another region at a CXL port (01: R31). -/
def State.stepHeld (s : State) (i : Instr) : Bool :=
  match i with
  | .queueSlotMap _ _ => s.controlHeld
  | .notifyWrite _ _ => s.controlHeld
  | .registerWrite off _ => decide (0x10000 ≤ off) && s.controlHeld
  | .launchPacket _ => s.controlHeld
  | .graphPacket _ => s.controlHeld
  | .waitPacket _ => s.controlHeld
  | .waitConditionMet _ => s.controlHeld
  | .regionRegister _ => s.controlHeld
  | .regionUpdate _ => s.controlHeld
  | .regionUnregister _ => s.controlHeld
  | .kvTableSet _ => s.controlHeld
  | .launchStart _ => s.controlHeld
  | .launchComplete _ => s.controlHeld
  | .loopIteration _ => s.controlHeld
  | .replayRecord _ _ _ _ _ => s.controlHeld
  | .replayArm _ _ _ _ _ => s.controlHeld
  | .profilingInterval => s.controlHeld
  | .walkStart core => s.walkerHeld core
  | .homeAccessPerform grp seq idx _ => s.portQueues grp (s.accAt seq idx) none
  | .sleepWake grp pc _ => s.portQueues grp (s.sleepAt pc) none
  | .engineCommandComplete grp seq _ => s.portQueues grp (fun _ => []) (some seq)
  | .chainRecord grp seq _ => s.portQueues grp (fun _ => []) (some seq)
  | _ => false

/-- An offer of the control die. -/
def byControl {α : Type} (f : α → Option Out) (x : α) : Option (Agent × Out) := (f x).map fun o => (.control, o)

/-- The first of the machine's own steps that is due, with the agent that takes it. -/
def State.due (s : State) : Option (Agent × Out) :=
  firstOffer s [
    fun s => firstOf (byControl s.walkerDue) s.cores,
    fun s => firstOf (fun p => (s.memoryDue p).map fun o => (.group p.1, o)) s.groups,
    fun s => firstOf (byControl s.trapDue) s.groups,
    fun s => firstOf (byControl s.sleepDue) s.groups,
    fun s => firstOf (byControl s.rootDue) s.groups,
    fun s => firstOf (byControl s.timerDue) s.groups,
    fun s => firstOf (fun p => (s.engineDue p).map fun o => (p.2.engines, o)) s.groups,
    fun s => firstOf (byControl s.groupDue) s.groups,
    fun s => firstOf (byControl s.coreDue) s.cores,
    fun s => firstOf (byControl s.gangDue) s.gangs,
    fun s => firstOf (byControl s.regionDue) s.regions,
    fun s => if s.controlHeld then none else firstOf (byControl s.packetDue) s.disp.packets,
    fun s => if s.controlHeld then none else firstOf (byControl s.launchDue) s.launches,
    fun s => if s.controlHeld then none else firstOf (byControl s.queueDue) s.disp.queues,
    fun s => if s.controlHeld then none else byControl State.profDue s,
    byControl State.linkDue,
    byControl State.freezeDue]

/-- A core whose walk queue waits for the walker; a store performed early is kept from the walker of an agent of its instance (04: R90). -/
def State.walkDue (s : State) : Option Nat :=
  if s.host.dev == .running then (s.cores.find? fun p => !p.2.walking && !p.2.walks.isEmpty && !s.walkerHeld p.1).map Prod.fst else none

/-- The move with an empty agenda, with the agent that makes it; none when nothing is left to do. -/
def State.defaultMove (s : State) : Option (Agent × Out) :=
  match s.walkDue with
  | some c => some (.control, .next (s.serveWalk c))
  | none =>
    match s.due with
    | some x => some x
    | none =>
      match s.issueTurn with
      | none => none
      | some (core, uniform) => some (.control, s.issueOn exec core uniform)

/-! ## One turn -/

/-- How far TIME gets ahead of its fastest pace, and behind its slowest: 500 ppm faster and slower than the aclk that pass, in the unit of
Clock.fast (23: R389). -/
def State.pace (s : State) (aclk ns : Nat) : Nat × Nat :=
  let a := 1000 * aclk
  let b := ns * s.clk.mhz
  (s.clk.fast + 2000 * b - 2001 * a, s.clk.slow + 1999 * a - 2000 * b)

/-- Whether TIME keeps its pace over all the time that passes, but for the rounding to whole ns (23: R389; log 5). -/
def State.paced (s : State) (aclk ns : Nat) : Bool :=
  decide ((s.pace aclk ns).1 ≤ 2000 * s.clk.mhz) && decide ((s.pace aclk ns).2 ≤ 2000 * s.clk.mhz)

/-- Whether the clocks may advance by so much at once: TIME keeps its pace and its 64 bits, and they pass the end of no profiling interval and no
sample that is due (23: R389; 24: R394, R397). -/
def State.mayElapse (s : State) (aclk ns : Nat) : Bool :=
  s.paced aclk ns && s.samplesAllow aclk && decide (s.clk.time + ns ≤ lastTime) && (s.prof.parts.isEmpty || decide (s.clk.time + ns ≤ s.intervalEnd))

/-- Clocks advance (log 5): a group with nothing ready starts its wait anew; partitions count the time. -/
def State.elapse (s : State) (aclk ns : Nat) : State :=
  if !s.mayElapse aclk ns then s
  else
    let now := s.clk.cycle + aclk
    let p := s.pace aclk ns
    let s := ({ s.passTime aclk with clk := { s.clk with cycle := now, time := s.clk.time + ns, fast := p.1, slow := p.2 } } : State).endShareWindow
    { s with
      groups := s.groups.map fun p =>
        if (s.readySets p.2).isEmpty then (p.1, { p.2 with ctl := { p.2.ctl with readySince := now, urgent := false } }) else p }

/-- The bytes of an access by an agent outside. -/
def OutAccess.size (a : OutAccess) : Nat :=
  match a with
  | .load n => n
  | .store bs => bs.length
  | .atom _ n _ => n
  | .cas n _ _ => n

/-- Whether an access by an agent outside reads its bytes. -/
def OutAccess.reads (a : OutAccess) : Bool :=
  match a with
  | .store _ => false
  | .load _ => true
  | .atom _ _ _ => true
  | .cas _ _ _ => true

/-- The bytes that an access by an agent outside writes over the old value. -/
def OutAccess.writes (a : OutAccess) (old : BitVec 64) : Option (List Byte) :=
  match a with
  | .load _ => none
  | .store bs => some bs
  | .atom op n d => some (leBytes n (op.apply n old d).toNat)
  | .cas n c d => if old = c then some (leBytes n d.toNat) else none

/-- The agent of an access from outside. -/
def outsider (sharer : Bool) : Agent := if sharer then .sharer else .host

/-- An access by an agent of the host die, or by a sharer of a shared CXL window, at the home of its bytes (05: R97): one that an access
performed early keeps from the bytes waits for a later turn (04: R90); one that the home refuses, or that meets spoilt data, gets an error
response (23: R383 to R385); scripts do not name it (05: R112). What it reads leaves the device. -/
def State.outside (s : State) (sharer : Bool) (pa : Nat) (a : OutAccess) : State :=
  let old := BitVec.ofNat 64 (s.mem.nat pa a.size)
  let w := a.writes old
  if !s.spanOk pa a.size || (sharer && !s.inShared pa) || s.earlyBlocks (outsider sharer) w.isSome (.home pa) a.size then s
  else
    match (if a.reads then (s.spoilt pa a.size w.isSome).or (s.spoilt pa a.size false) else s.spoilt pa a.size true) with
    | some e => s.homeViolation pa e fun s => s.violation (BitVec.ofNat 64 pa) (s.homeSource pa) 3 0
    | none =>
      match w with
      | some bs => s.engineStore pa bs
      | none => s.noteBytes pa a.size

/-- An access by an agent of the host die to an address of a region's tree, within one page: the control die translates it, and reads the
counter of a P = 1 page (05: R107). -/
def State.hostVa (s : State) (rcb : Nat) (va : BitVec 64) (a : OutAccess) : State :=
  if 65536 < (va.setWidth 16).toNat + a.size then s
  else
    match s.vaPa rcb (if a.reads && (a.writes 0#64).isNone then kindRead else kindWrite) va with
    | none => s
    | some pa => s.outside false pa a

/-- The environment spoils a line, whose check then fails or whose data is poisoned, or lets it be (23: R384, R385). -/
def State.spoil (s : State) (line : Nat) (kind : Option ErrorKind) : State :=
  match kind with
  | none => { s with bad := Table.erase s.bad line }
  | some .access => s
  | some e => { s with bad := Table.set s.bad line e }

/-- A CXL port goes down or comes up (23: R384). -/
def State.setCxlPort (s : State) (port : Nat) (up : Bool) : State :=
  s.modFab fun f => { f with cxlDown := (f.cxlDown.filter fun p => p != port) ++ (if up || decide (32 ≤ port) then [] else [port]) }

/-- Firmware's own settings. -/
def State.modBoot (s : State) (f : Boot → Boot) : State := { s with boot := f s.boot }

/-- One turn. -/
def State.turn (s : State) (t : Turn) : Out :=
  match t with
  | .event i => if i.isWord then .fault .wordTurn else if s.stepHeld i then .next s else exec i s
  | .issue core uniform => s.issueOn exec core uniform
  | .elapse aclk ns => .next (s.elapse aclk ns)
  | .outside sharer pa a => .next (s.outside sharer pa a)
  | .hostVa rcb va a => .next (s.hostVa rcb va a)
  | .deliver grp seq bytes => .next (if s.portQueues grp (fun _ => []) (some seq) then s else s.deliver grp seq bytes)
  | .peerClose importer launch => .next (s.closePeer importer launch)
  | .walk core => .next (if s.walkerHeld core then s else s.serveWalk core)
  | .replace grp line => .next (s.replaceLine grp line)
  | .forget core page => .next (s.tlbForget core page)
  | .missThreshold n => .next (s.modBoot fun b => { b with missThreshold := n })
  | .queueTable base => .next (s.modBoot fun b => { b with queueTable := some base })
  | .importTable base => .next (s.modBoot fun b => { b with importTable := some base })
  | .exportTable base => .next (s.modBoot fun b => { b with exportTable := some base })
  | .clearError queue => .next (s.clearError queue)
  | .tidReplica grp seq cluster ext => .next (s.replicaTurn grp seq cluster ext)
  | .frames port n => .next (s.sendFrames port n)
  | .restore grp => .next (s.restore grp)
  | .tileRead grp tile buf => s.tileRead grp tile buf
  | .spoil line kind => .next (s.spoil line kind)
  | .cxlPort port up => .next (s.setCxlPort port up)
  | .corrected => .next (s.modFab fun f => { f with corrected := f.corrected + 1 })

/-- The engines that work for a group; of one that is gone, the control die. -/
def State.enginesOf (s : State) (k : Nat) : Agent := ((Table.get? s.groups k).map Group.engines).getD .control

/-- The agent whose accesses a step of the table makes (04: R89); those that the device makes of itself are the control die's. -/
def State.stepAgent (s : State) (i : Instr) : Agent :=
  match i with
  | .homeAccessPerform grp _ _ _ => .group grp
  | .engineCommandStart grp _ => s.enginesOf grp
  | .engineCommandComplete grp _ _ => s.enginesOf grp
  | .chainRecord grp _ _ => s.enginesOf grp
  | .ingressRequest _ => .peer
  | _ => .control

/-- The agent of a turn. -/
def State.agentOf (s : State) (t : Turn) : Agent :=
  match t with
  | .event i => s.stepAgent i
  | .outside sharer _ _ => outsider sharer
  | .hostVa _ _ _ => .host
  | .deliver grp _ _ => s.enginesOf grp
  | .peerClose _ _ => .peer
  | .tidReplica grp _ _ _ => s.enginesOf grp
  | _ => .control

/-! ## After a turn -/

/-- A group whose activity has changed has its descriptor rewritten, when that does not say so yet (20: R349). -/
def State.noteDescriptor (old s : State) (k : Nat) : State :=
  match Table.get? s.groups k, Table.get? old.groups k with
  | some g, some g0 =>
    if g.ctl.act == g0.ctl.act || g.id.walker || g.ctl.dead then s
    else
      match s.descPa g with
      | none => s
      | some p => if s.mem.bytes (p + 8) 56 = s.descBytes g (s.stackBase g) then s else s.putDescriptor k
  | _, _ => s

/-- The descriptors of all groups after a turn. -/
def State.noteDescriptors (old s : State) : State := (s.groups.map Prod.fst).foldl (State.noteDescriptor old) s

/-- Whether something of a group waits for a page request. -/
def Group.asks (id : Nat) (g : Group) : Bool :=
  (g.fl.ops.any fun o => o.waitsFor id) || g.fetchWaiters id != 0#32 || (g.fl.sleepers.any fun z => z.req == some id)
    || (g.fl.cmds.any fun c => c.req == some id) || g.ctl.ctxReqs.any fun r => r.2 == id

/-- The page requests that a turn posted are counted, for the group that waits (24: R398). -/
def State.countRequests (old s : State) : State :=
  (s.xlat.requests.keys.filter fun id => decide (old.xlat.nextReq ≤ id)).foldl (fun s id =>
    match s.groups.find? fun p => p.2.asks id with
    | none => s
    | some p => s.tally p.2.view.partition 0x07 1) s

/-- The operand-log entries that a group has taken since a state. -/
def Group.entriesTaken (old g : Group) : Nat :=
  if old.ctl.act == .parked then 0
  else (g.fl.ops.filter fun o => o.log.isSome && !(old.fl.ops.any fun x => x.seq == o.seq && x.log.isSome)).length

/-- The operand-log entries that a turn took are counted (24: R398). -/
def State.countEntries (old s : State) : State :=
  s.groups.foldl (fun s p =>
    match Table.get? old.groups p.1 with
    | none => s
    | some g => if g.entriesTaken p.2 = 0 then s else s.tally p.2.view.partition 0x08 (g.entriesTaken p.2)) s

/-- What a turn counts for the partitions beside what its step counts. -/
def State.countTurn (old s : State) : State := if s.prof.parts.isEmpty then s else State.countEntries old (State.countRequests old s)

/-- What has landed for parked groups goes into their contexts (25: R406). -/
def State.landLates (s : State) : State := s.groups.foldl (fun s p => if p.2.fl.late.isEmpty then s else s.landLate p.1) s

/-- A parked group whose wake condition has come to hold is ready from now on (01: R21). -/
def State.noteWakes (s : State) : State :=
  if s.groups.all fun p => p.2.ctl.act != .parked then s
  else
    { s with groups := s.groups.map fun p =>
      if p.2.ctl.wakeSince.isNone && s.wakes p.2 then (p.1, { p.2 with ctl := { p.2.ctl with wakeSince := some s.clk.cycle } })
      else p }

/-- What follows a turn of an agent: early reads that it met are made again, LDK lanes go on, loads that meet a newly known access are made again, descriptors say what groups do, walks and line
fills are queued, and current sets and wake conditions are noted. -/
def State.settle (old : State) (who : Agent) (s : State) : State :=
  let s := State.noteDescriptors old (State.redoKnown old (s.redoEarly old.mem who).kvAdvanceAll)
  (State.countTurn old s.noteFetches.noteFills).noteTurns.noteWakes.freeBins.landLates.noteHalts

/-- What follows a turn. -/
def Out.settle (old : State) (who : Agent) (o : Out) : Out :=
  match o with
  | .next s => .next (State.settle old who s)
  | .fault f => .fault f
  | .refused r => .refused r

/-- One move of the machine: the next turn of the agenda, or the default one; with nothing to do the machine stands. -/
def State.move (s : State) : Out :=
  match s.agenda with
  | t :: r =>
    let s : State := { s with agenda := r }
    Out.settle s (s.agentOf t) (s.turn t)
  | [] =>
    match s.defaultMove with
    | some (who, o) => Out.settle s who o
    | none => .next s

end Sys2Proof.Machine
end

