-- ==== Sys2Proof/Machine/Placed.lean ====
section
/-!
DEFINITION. A machine in which one given word is what a core issues next: what boot, the driver and a launch packet bring about,
placed at once (log 6).
-/

namespace Sys2Proof.Machine

/-- The region of the placed launch: its block, its root slot word (depth 1, node at 0x2000, generation 1), the page of its
code. -/
def placedRcb : Nat := 0x20000
def placedRoot : BitVec 64 := 0x0001000000000201#64
def placedPc : Nat := 0x10000

/-- The leaf of the page of the code, readable, writable and executable, and the TLB entry that a first fetch has left in the core. -/
def placedLeaf : BitVec 64 := BitVec.ofNat 64 (placedPc + 7)
def placedTlb : TlbEntry := { region := placedRcb, gen := 1#16, page := 1, leaf := placedLeaf }

/-- The region: every field inherits but the slots. -/
def placedRegion : Region where
  parent := 0
  level := 1
  clipped := 0
  activeGroups := BitVec.allOnes 32
  windowBytes := BitVec.allOnes 64
  matrixShare := BitVec.allOnes 16
  cxlShare := BitVec.allOnes 16
  ceiling := BitVec.allOnes 8
  faultDomain := BitVec.allOnes 8
  promise := BitVec.allOnes 8
  determinism := BitVec.allOnes 8
  publishScope := BitVec.allOnes 8
  partition := BitVec.allOnes 8
  inheritSlots := false
  current := 0
  watchdog := BitVec.allOnes 32
  parkThreshold := BitVec.allOnes 32
  noticeDeadline := BitVec.allOnes 32
  slots := [(0, placedRoot)]
  inheritMask := true
  mask := 0
  arena := 0
  frameBytes := 0x20000
  frames := 1
  pins := [(0, 2)]
  holds := []
  unused := []
  suspended := false
  killed := false
  gate := none
  recorder := none
  matrixUse := 0
  cxlUse := []
  replay := none

/-- The duty of the group that runs a word (01: R16). -/
def placedDuty (w : Word) : Duty :=
  match decode w with
  | .ok i => (Instr.duty i).getD .vector
  | .illop => .vector
  | .illfld => .vector

/-- Whether a word is for the walker slot alone (08: R162). -/
def placedWalker (w : Word) : Bool :=
  match decode w with
  | .ok i => i.privilege == .w
  | .illop => false
  | .illfld => false

/-- The one position of the placed launch: full allocations for its duty. -/
def placedPosition (d : Duty) : Position where
  notice := false
  cls := 0
  duty := d
  alloc := if d == .matrix then ⟨256, 64, 8, 8⟩ else ⟨256, 64, 0, 0⟩

/-- The placed launch: one gang of one workgroup of 32 threads, privileged, all its gangs claimed. -/
def placedLaunch (d : Duty) : Launch where
  queue := 0
  seq := 1
  packet := 0
  descAddr := 0
  desc := { record := 0, region := placedRcb, x := 1, y := 1, z := 1, privileged := true, spillBytes := 0, seed := 0, binding := 0
            spill := 0, args := [] }
  region := placedRcb
  queuePriv := true
  after := []
  started := true
  killed := false
  record := { entry := BitVec.ofNat 56 placedPc, tvec := 0, w := 1, t := 32, rings := 16, panels := 512, classT := false, classA := false
              laneStack := 0, uniStack := 0, positions := [placedPosition d] }
  binding := []
  tids := []
  tidAhead := []
  windows := []
  counter := 16
  dispatchers := (List.range 16).map fun die => (die, ⟨[], true⟩)
  retired := 0
  pin := some (placedRcb, 0)
  contributions := []
  overflow := false
  status := none

/-- The placed gang, on core 0. -/
def placedGang : Gang where
  launch := 1
  gangid := 0
  cluster := 0
  cores := [0]
  window := 0
  chwp := []
  rings := []
  blots := []
  panels := []
  bars := []
  preempt := .none
  suspended := false
  again := false
  displaced := false
  created := 1

/-- A running device with the placed region, launch and gang, and a word at the placed page. -/
def State.placedDevice (s : State) (d : Duty) (w : Word) : State :=
  { s with
    agenda := []
    issue := none
    fresh := 2
    host := { s.host with dev := .running }
    boot := { s.boot with walkerEntry := placedPc }
    mem := (s.mem.store 0x2008 8 placedLeaf.toNat).store placedPc 4 w.toNat
    regions := [(placedRcb, placedRegion)]
    launches := [(1, placedLaunch d)]
    gangs := [(1, placedGang)]
    groups := []
    cores := [] }

/-- The walk that the walker slot serves when a word of the walker is placed. -/
def placedWalk : Walk where
  region := placedRcb
  slot := 0
  gen := 1
  root := placedRoot
  page := 1
  kind := kindRead
  probe := false
  part := 0

/-- The machine in which a word is what core 0 issues next: a group of 32 threads stands at it, or, for a word of the walker, the
walker slot, at the same physical address. -/
def State.placeWord (s : State) (w : Word) : State :=
  let d := placedDuty w
  let s := s.placedDevice d w
  if placedWalker w then
    { s with
      cores := [(0, { Core.fresh with walks := [placedWalk], walking := true })]
      groups := [(walkerKey 0, (freshWalker 0 placedPc).startWalk placedPc placedWalk)] }
  else
    { s with
      cores := [(0, { Core.fresh with tlb := [placedTlb] })]
      groups := [(2, (s.newGroup (placedLaunch d) ⟨1, 1, 0, 0, 0, 0⟩ (placedPosition d) 0).bornActive)] }

end Sys2Proof.Machine
end

