-- ==== Sys2Proof/Machine/Step.lean ====
section
/-!
DEFINITION. One step of the machine, and the machine in which a given word is fetched next.
-/

namespace Sys2Proof.Machine

/-- One step: one move of one agent (log 1). -/
def step (s : State) : Host.Outcome State Fault Refusal := s.move

/-- s with the word of w placed where a core fetches its next instruction (log 6); every instruction is one word of 32 bits. -/
def State.withFetchWord (s : State) (_nbits w : Nat) : State := s.placeWord (BitVec.ofNat 32 w)

end Sys2Proof.Machine
end

