-- ==== Sys2Proof/Laws/Decode.lean ====
section
/-!
SUPPORT. The field lemmas of the encodings: reading a field of a packed word gives the field, and every operand codec
reads back what it wrote.
-/

-- One declaration after another, as in PerInstr.lean.
set_option Elab.async false

namespace Sys2Proof

theorem extract_hi {n m : Nat} (a : BitVec n) (b : BitVec m) (lo k : Nat) (h : m ≤ lo) :
    (a ++ b).extractLsb' lo k = a.extractLsb' (lo - m) k := by
  ext i hi
  simp only [BitVec.getElem_extractLsb', BitVec.getLsbD_append]
  have : ¬ (lo + i < m) := by omega
  simp only [this, if_false]
  congr 1; omega

theorem extract_lo {n m : Nat} (a : BitVec n) (b : BitVec m) (lo k : Nat) (h : lo + k ≤ m) :
    (a ++ b).extractLsb' lo k = b.extractLsb' lo k := by
  ext i hi
  simp only [BitVec.getElem_extractLsb', BitVec.getLsbD_append]
  have : lo + i < m := by omega
  simp only [this, if_true]

theorem extract_all {n : Nat} (a : BitVec n) : a.extractLsb' 0 n = a := by
  ext i hi; simp

@[simp] theorem unpad_pad (n : Nat) {k : Nat} (x : BitVec k) : unpad n k (pad n x) = some x := by
  unfold unpad pad
  have h1 : (0#n ++ x).extractLsb' k n = 0#n :=
    (extract_hi _ _ _ _ (Nat.le_refl k)).trans (by rw [Nat.sub_self]; exact extract_all _)
  have h2 : (0#n ++ x).extractLsb' 0 k = x :=
    (extract_lo _ _ _ _ (by omega)).trans (extract_all _)
  rw [h1, h2]; simp

@[simp] theorem Cond.dec_code (c : Cond) : Cond.dec c.code = some c := by cases c <;> rfl
@[simp] theorem Guard.dec_enc (g : Guard) : Guard.dec g.enc = some g := by
  have h1 : g.enc.extractLsb' 0 4 = g.cond.code := (extract_lo _ _ _ _ (by decide)).trans (extract_all _)
  have h2 : g.enc.extractLsb' 4 2 = g.creg := (extract_hi _ _ _ _ (by decide)).trans (extract_all _)
  rw [Guard.dec, h1, h2]; simp
@[simp] theorem Scope.dec_code (c : Scope) : Scope.dec c.code = some c := by cases c <;> rfl
@[simp] theorem Ord.dec_code (c : Ord) : Ord.dec c.code = some c := by cases c <;> rfl
@[simp] theorem CvtsrForm.dec_code (c : CvtsrForm) : CvtsrForm.dec c.code = some c := by cases c <;> rfl
@[simp] theorem ScanOp.dec_code (c : ScanOp) : ScanOp.dec c.code = some c := by cases c <;> rfl
@[simp] theorem ProbeSize.dec_code (c : ProbeSize) : ProbeSize.dec c.code = some c := by cases c <;> rfl
@[simp] theorem CopyVar.dec_code (c : CopyVar) : CopyVar.dec c.code = some c := by cases c <;> rfl
@[simp] theorem FenceKind.decScope_enc (k : FenceKind) (s : Scope) :
    FenceKind.decScope (k.encScope s) = some (k, s) := by cases k <;> cases s <;> rfl
@[simp] theorem CvtFmt.decPair_enc (d s : CvtFmt) : CvtFmt.decPair (d.encPair s) = some (d, s) := by
  cases d <;> cases s <;> rfl
@[simp] theorem CvtFmt.decPair_54 : CvtFmt.decPair 54#6 = some (.i32, .i32) := by decide
@[simp] theorem CvtFmt.decPair_63 : CvtFmt.decPair 63#6 = some (.n32, .n32) := by decide
@[simp] theorem CvtFmt.pairOk_i32 : CvtFmt.pairOk .i32 .i32 = false := rfl
@[simp] theorem CvtFmt.pairOk_n32 : CvtFmt.pairOk .n32 .n32 = false := rfl
@[simp] theorem MmaFmt.decTile_enc (f : MmaFmt) (t : BitVec 3) : MmaFmt.decTile (f.encTile t) = some (f, t) := by
  have h1 : (f.encTile t).extractLsb' 3 1 = 0#1 :=
    (extract_hi _ _ _ _ (by decide)).trans ((extract_lo _ _ _ _ (by decide)).trans (extract_all _))
  have h2 : (f.encTile t).extractLsb' 4 4 = f.code :=
    (extract_hi _ _ _ _ (by decide)).trans ((extract_hi _ _ _ _ (by decide)).trans (extract_all _))
  have h3 : (f.encTile t).extractLsb' 0 3 = t := (extract_lo _ _ _ _ (by decide)).trans (extract_all _)
  rw [MmaFmt.decTile, h1, h2, h3]; cases f <;> rfl
@[simp] theorem decBool_enc2 (b : Bool) : decBool (encBool 2 b) = some b := by cases b <;> rfl
@[simp] theorem decBool_enc4 (b : Bool) : decBool (encBool 4 b) = some b := by cases b <;> rfl
@[simp] theorem decBool_enc6 (b : Bool) : decBool (encBool 6 b) = some b := by cases b <;> rfl
@[simp] theorem decRel_enc (b : Bool) : decRel (encRel b) = some b := by cases b <;> rfl
@[simp] theorem decBoolHi_enc (b : Bool) : decBoolHi (encBools b false) = some b := by cases b <;> rfl
@[simp] theorem decBools_enc (a b : Bool) : decBools (encBools a b) = some (a, b) := by cases a <;> cases b <;> rfl
@[simp] theorem decSleep_enc (a : Bool) (c : SleepCond) : decSleep (encSleep a c) = some (a, c) := by
  cases a <;> cases c <;> rfl
@[simp] theorem LaneSel.dec_enc (l : LaneSel) : LaneSel.dec l.encB l.encF = some l := by
  cases l with
  | reg b => rfl
  | imm k =>
    have h : ∀ k : BitVec 5, LaneSel.dec (LaneSel.encB (.imm k)) (LaneSel.encF (.imm k)) = some (.imm k) := by
      decide
    exact h k
@[simp] theorem SpecReg.dec_code (r : SpecReg) : SpecReg.dec r.code = some r := by
  cases r with
  | chwp n => exact (by decide : ∀ n : BitVec 3, SpecReg.dec (SpecReg.chwp n).code = some (.chwp n)) n
  | lcr n => exact (by decide : ∀ n : BitVec 3, SpecReg.dec (SpecReg.lcr n).code = some (.lcr n)) n
  | role n =>
    have h1 : (SpecReg.role n).code.extractLsb' 8 4 = 1#4 := (extract_hi _ _ _ _ (by decide)).trans (extract_all _)
    have h2 : (SpecReg.role n).code.extractLsb' 0 8 = n := (extract_lo _ _ _ _ (by decide)).trans (extract_all _)
    rw [SpecReg.dec, h1, h2]; rfl
  | _ => rfl
@[simp] theorem WSpecReg.dec_code (r : WSpecReg) : WSpecReg.dec r.code = some r := by
  cases r with
  | lcr n => exact (by decide : ∀ n : BitVec 3, WSpecReg.dec (WSpecReg.lcr n).code = some (.lcr n)) n
  | _ => rfl
@[simp] theorem unpadTo_Cond {n : Nat} (c : Cond) : unpadTo n 4 Cond.dec (pad n c.code) = some c := by
  simp [unpadTo]
@[simp] theorem unpadTo_Scope {n : Nat} (c : Scope) : unpadTo n 4 Scope.dec (pad n c.code) = some c := by
  simp [unpadTo]
@[simp] theorem major_packL3 (op : BitVec 8) (g : BitVec 6) (d : BitVec 6) (a : BitVec 6) (b : BitVec 6) :
    major (packL3 op g d a b) = op :=
  (extract_hi _ _ _ _ (by decide)).trans ((extract_hi _ _ _ _ (by decide)).trans ((extract_hi _ _ _ _ (by decide)).trans ((extract_hi _ _ _ _ (by decide)).trans (extract_all _))))
@[simp] theorem fld_packL3_g (op : BitVec 8) (g : BitVec 6) (d : BitVec 6) (a : BitVec 6) (b : BitVec 6) :
    fld (packL3 op g d a b) 18 6 = g :=
  (extract_hi _ _ _ _ (by decide)).trans ((extract_hi _ _ _ _ (by decide)).trans ((extract_hi _ _ _ _ (by decide)).trans ((extract_lo _ _ _ _ (by decide)).trans (extract_all _))))
@[simp] theorem fld_packL3_d (op : BitVec 8) (g : BitVec 6) (d : BitVec 6) (a : BitVec 6) (b : BitVec 6) :
    fld (packL3 op g d a b) 12 6 = d :=
  (extract_hi _ _ _ _ (by decide)).trans ((extract_hi _ _ _ _ (by decide)).trans ((extract_lo _ _ _ _ (by decide)).trans (extract_all _)))
@[simp] theorem fld_packL3_a (op : BitVec 8) (g : BitVec 6) (d : BitVec 6) (a : BitVec 6) (b : BitVec 6) :
    fld (packL3 op g d a b) 6 6 = a :=
  (extract_hi _ _ _ _ (by decide)).trans ((extract_lo _ _ _ _ (by decide)).trans (extract_all _))
@[simp] theorem fld_packL3_b (op : BitVec 8) (g : BitVec 6) (d : BitVec 6) (a : BitVec 6) (b : BitVec 6) :
    fld (packL3 op g d a b) 0 6 = b :=
  (extract_lo _ _ _ _ (by decide)).trans (extract_all _)
@[simp] theorem major_packLL (op : BitVec 8) (d : BitVec 6) (a : BitVec 6) (b : BitVec 6) (l : BitVec 4) (f : BitVec 2) :
    major (packLL op d a b l f) = op :=
  (extract_hi _ _ _ _ (by decide)).trans ((extract_hi _ _ _ _ (by decide)).trans ((extract_hi _ _ _ _ (by decide)).trans ((extract_hi _ _ _ _ (by decide)).trans ((extract_hi _ _ _ _ (by decide)).trans (extract_all _)))))
@[simp] theorem fld_packLL_d (op : BitVec 8) (d : BitVec 6) (a : BitVec 6) (b : BitVec 6) (l : BitVec 4) (f : BitVec 2) :
    fld (packLL op d a b l f) 18 6 = d :=
  (extract_hi _ _ _ _ (by decide)).trans ((extract_hi _ _ _ _ (by decide)).trans ((extract_hi _ _ _ _ (by decide)).trans ((extract_hi _ _ _ _ (by decide)).trans ((extract_lo _ _ _ _ (by decide)).trans (extract_all _)))))
@[simp] theorem fld_packLL_a (op : BitVec 8) (d : BitVec 6) (a : BitVec 6) (b : BitVec 6) (l : BitVec 4) (f : BitVec 2) :
    fld (packLL op d a b l f) 12 6 = a :=
  (extract_hi _ _ _ _ (by decide)).trans ((extract_hi _ _ _ _ (by decide)).trans ((extract_hi _ _ _ _ (by decide)).trans ((extract_lo _ _ _ _ (by decide)).trans (extract_all _))))
@[simp] theorem fld_packLL_b (op : BitVec 8) (d : BitVec 6) (a : BitVec 6) (b : BitVec 6) (l : BitVec 4) (f : BitVec 2) :
    fld (packLL op d a b l f) 6 6 = b :=
  (extract_hi _ _ _ _ (by decide)).trans ((extract_hi _ _ _ _ (by decide)).trans ((extract_lo _ _ _ _ (by decide)).trans (extract_all _)))
@[simp] theorem fld_packLL_l (op : BitVec 8) (d : BitVec 6) (a : BitVec 6) (b : BitVec 6) (l : BitVec 4) (f : BitVec 2) :
    fld (packLL op d a b l f) 2 4 = l :=
  (extract_hi _ _ _ _ (by decide)).trans ((extract_lo _ _ _ _ (by decide)).trans (extract_all _))
@[simp] theorem fld_packLL_f (op : BitVec 8) (d : BitVec 6) (a : BitVec 6) (b : BitVec 6) (l : BitVec 4) (f : BitVec 2) :
    fld (packLL op d a b l f) 0 2 = f :=
  (extract_lo _ _ _ _ (by decide)).trans (extract_all _)
@[simp] theorem major_packLM (op : BitVec 8) (g : BitVec 6) (d : BitVec 6) (a : BitVec 6) (s : BitVec 2) (l : BitVec 4) :
    major (packLM op g d a s l) = op :=
  (extract_hi _ _ _ _ (by decide)).trans ((extract_hi _ _ _ _ (by decide)).trans ((extract_hi _ _ _ _ (by decide)).trans ((extract_hi _ _ _ _ (by decide)).trans ((extract_hi _ _ _ _ (by decide)).trans (extract_all _)))))
@[simp] theorem fld_packLM_g (op : BitVec 8) (g : BitVec 6) (d : BitVec 6) (a : BitVec 6) (s : BitVec 2) (l : BitVec 4) :
    fld (packLM op g d a s l) 18 6 = g :=
  (extract_hi _ _ _ _ (by decide)).trans ((extract_hi _ _ _ _ (by decide)).trans ((extract_hi _ _ _ _ (by decide)).trans ((extract_hi _ _ _ _ (by decide)).trans ((extract_lo _ _ _ _ (by decide)).trans (extract_all _)))))
@[simp] theorem fld_packLM_d (op : BitVec 8) (g : BitVec 6) (d : BitVec 6) (a : BitVec 6) (s : BitVec 2) (l : BitVec 4) :
    fld (packLM op g d a s l) 12 6 = d :=
  (extract_hi _ _ _ _ (by decide)).trans ((extract_hi _ _ _ _ (by decide)).trans ((extract_hi _ _ _ _ (by decide)).trans ((extract_lo _ _ _ _ (by decide)).trans (extract_all _))))
@[simp] theorem fld_packLM_a (op : BitVec 8) (g : BitVec 6) (d : BitVec 6) (a : BitVec 6) (s : BitVec 2) (l : BitVec 4) :
    fld (packLM op g d a s l) 6 6 = a :=
  (extract_hi _ _ _ _ (by decide)).trans ((extract_hi _ _ _ _ (by decide)).trans ((extract_lo _ _ _ _ (by decide)).trans (extract_all _)))
@[simp] theorem fld_packLM_s (op : BitVec 8) (g : BitVec 6) (d : BitVec 6) (a : BitVec 6) (s : BitVec 2) (l : BitVec 4) :
    fld (packLM op g d a s l) 4 2 = s :=
  (extract_hi _ _ _ _ (by decide)).trans ((extract_lo _ _ _ _ (by decide)).trans (extract_all _))
@[simp] theorem fld_packLM_l (op : BitVec 8) (g : BitVec 6) (d : BitVec 6) (a : BitVec 6) (s : BitVec 2) (l : BitVec 4) :
    fld (packLM op g d a s l) 0 4 = l :=
  (extract_lo _ _ _ _ (by decide)).trans (extract_all _)
@[simp] theorem major_packLA (op : BitVec 8) (d : BitVec 6) (a : BitVec 6) (s : BitVec 2) (c : BitVec 4) (l : BitVec 4) (o : BitVec 2) :
    major (packLA op d a s c l o) = op :=
  (extract_hi _ _ _ _ (by decide)).trans ((extract_hi _ _ _ _ (by decide)).trans ((extract_hi _ _ _ _ (by decide)).trans ((extract_hi _ _ _ _ (by decide)).trans ((extract_hi _ _ _ _ (by decide)).trans ((extract_hi _ _ _ _ (by decide)).trans (extract_all _))))))
@[simp] theorem fld_packLA_d (op : BitVec 8) (d : BitVec 6) (a : BitVec 6) (s : BitVec 2) (c : BitVec 4) (l : BitVec 4) (o : BitVec 2) :
    fld (packLA op d a s c l o) 18 6 = d :=
  (extract_hi _ _ _ _ (by decide)).trans ((extract_hi _ _ _ _ (by decide)).trans ((extract_hi _ _ _ _ (by decide)).trans ((extract_hi _ _ _ _ (by decide)).trans ((extract_hi _ _ _ _ (by decide)).trans ((extract_lo _ _ _ _ (by decide)).trans (extract_all _))))))
@[simp] theorem fld_packLA_a (op : BitVec 8) (d : BitVec 6) (a : BitVec 6) (s : BitVec 2) (c : BitVec 4) (l : BitVec 4) (o : BitVec 2) :
    fld (packLA op d a s c l o) 12 6 = a :=
  (extract_hi _ _ _ _ (by decide)).trans ((extract_hi _ _ _ _ (by decide)).trans ((extract_hi _ _ _ _ (by decide)).trans ((extract_hi _ _ _ _ (by decide)).trans ((extract_lo _ _ _ _ (by decide)).trans (extract_all _)))))
@[simp] theorem fld_packLA_s (op : BitVec 8) (d : BitVec 6) (a : BitVec 6) (s : BitVec 2) (c : BitVec 4) (l : BitVec 4) (o : BitVec 2) :
    fld (packLA op d a s c l o) 10 2 = s :=
  (extract_hi _ _ _ _ (by decide)).trans ((extract_hi _ _ _ _ (by decide)).trans ((extract_hi _ _ _ _ (by decide)).trans ((extract_lo _ _ _ _ (by decide)).trans (extract_all _))))
@[simp] theorem fld_packLA_c (op : BitVec 8) (d : BitVec 6) (a : BitVec 6) (s : BitVec 2) (c : BitVec 4) (l : BitVec 4) (o : BitVec 2) :
    fld (packLA op d a s c l o) 6 4 = c :=
  (extract_hi _ _ _ _ (by decide)).trans ((extract_hi _ _ _ _ (by decide)).trans ((extract_lo _ _ _ _ (by decide)).trans (extract_all _)))
@[simp] theorem fld_packLA_l (op : BitVec 8) (d : BitVec 6) (a : BitVec 6) (s : BitVec 2) (c : BitVec 4) (l : BitVec 4) (o : BitVec 2) :
    fld (packLA op d a s c l o) 2 4 = l :=
  (extract_hi _ _ _ _ (by decide)).trans ((extract_lo _ _ _ _ (by decide)).trans (extract_all _))
@[simp] theorem fld_packLA_o (op : BitVec 8) (d : BitVec 6) (a : BitVec 6) (s : BitVec 2) (c : BitVec 4) (l : BitVec 4) (o : BitVec 2) :
    fld (packLA op d a s c l o) 0 2 = o :=
  (extract_lo _ _ _ _ (by decide)).trans (extract_all _)
@[simp] theorem major_packL1I (op : BitVec 8) (g : BitVec 6) (d : BitVec 6) (i : BitVec 12) :
    major (packL1I op g d i) = op :=
  (extract_hi _ _ _ _ (by decide)).trans ((extract_hi _ _ _ _ (by decide)).trans ((extract_hi _ _ _ _ (by decide)).trans (extract_all _)))
@[simp] theorem fld_packL1I_g (op : BitVec 8) (g : BitVec 6) (d : BitVec 6) (i : BitVec 12) :
    fld (packL1I op g d i) 18 6 = g :=
  (extract_hi _ _ _ _ (by decide)).trans ((extract_hi _ _ _ _ (by decide)).trans ((extract_lo _ _ _ _ (by decide)).trans (extract_all _)))
@[simp] theorem fld_packL1I_d (op : BitVec 8) (g : BitVec 6) (d : BitVec 6) (i : BitVec 12) :
    fld (packL1I op g d i) 12 6 = d :=
  (extract_hi _ _ _ _ (by decide)).trans ((extract_lo _ _ _ _ (by decide)).trans (extract_all _))
@[simp] theorem fld_packL1I_i (op : BitVec 8) (g : BitVec 6) (d : BitVec 6) (i : BitVec 12) :
    fld (packL1I op g d i) 0 12 = i :=
  (extract_lo _ _ _ _ (by decide)).trans (extract_all _)
@[simp] theorem major_packLB (op : BitVec 8) (g : BitVec 6) (o : BitVec 18) :
    major (packLB op g o) = op :=
  (extract_hi _ _ _ _ (by decide)).trans ((extract_hi _ _ _ _ (by decide)).trans (extract_all _))
@[simp] theorem fld_packLB_g (op : BitVec 8) (g : BitVec 6) (o : BitVec 18) :
    fld (packLB op g o) 18 6 = g :=
  (extract_hi _ _ _ _ (by decide)).trans ((extract_lo _ _ _ _ (by decide)).trans (extract_all _))
@[simp] theorem fld_packLB_o (op : BitVec 8) (g : BitVec 6) (o : BitVec 18) :
    fld (packLB op g o) 0 18 = o :=
  (extract_lo _ _ _ _ (by decide)).trans (extract_all _)
@[simp] theorem major_packLC (op : BitVec 8) (g : BitVec 6) (k : BitVec 2) (f : BitVec 4) (a : BitVec 6) (b : BitVec 6) :
    major (packLC op g k f a b) = op :=
  (extract_hi _ _ _ _ (by decide)).trans ((extract_hi _ _ _ _ (by decide)).trans ((extract_hi _ _ _ _ (by decide)).trans ((extract_hi _ _ _ _ (by decide)).trans ((extract_hi _ _ _ _ (by decide)).trans (extract_all _)))))
@[simp] theorem fld_packLC_g (op : BitVec 8) (g : BitVec 6) (k : BitVec 2) (f : BitVec 4) (a : BitVec 6) (b : BitVec 6) :
    fld (packLC op g k f a b) 18 6 = g :=
  (extract_hi _ _ _ _ (by decide)).trans ((extract_hi _ _ _ _ (by decide)).trans ((extract_hi _ _ _ _ (by decide)).trans ((extract_hi _ _ _ _ (by decide)).trans ((extract_lo _ _ _ _ (by decide)).trans (extract_all _)))))
@[simp] theorem fld_packLC_k (op : BitVec 8) (g : BitVec 6) (k : BitVec 2) (f : BitVec 4) (a : BitVec 6) (b : BitVec 6) :
    fld (packLC op g k f a b) 16 2 = k :=
  (extract_hi _ _ _ _ (by decide)).trans ((extract_hi _ _ _ _ (by decide)).trans ((extract_hi _ _ _ _ (by decide)).trans ((extract_lo _ _ _ _ (by decide)).trans (extract_all _))))
@[simp] theorem fld_packLC_f (op : BitVec 8) (g : BitVec 6) (k : BitVec 2) (f : BitVec 4) (a : BitVec 6) (b : BitVec 6) :
    fld (packLC op g k f a b) 12 4 = f :=
  (extract_hi _ _ _ _ (by decide)).trans ((extract_hi _ _ _ _ (by decide)).trans ((extract_lo _ _ _ _ (by decide)).trans (extract_all _)))
@[simp] theorem fld_packLC_a (op : BitVec 8) (g : BitVec 6) (k : BitVec 2) (f : BitVec 4) (a : BitVec 6) (b : BitVec 6) :
    fld (packLC op g k f a b) 6 6 = a :=
  (extract_hi _ _ _ _ (by decide)).trans ((extract_lo _ _ _ _ (by decide)).trans (extract_all _))
@[simp] theorem fld_packLC_b (op : BitVec 8) (g : BitVec 6) (k : BitVec 2) (f : BitVec 4) (a : BitVec 6) (b : BitVec 6) :
    fld (packLC op g k f a b) 0 6 = b :=
  (extract_lo _ _ _ _ (by decide)).trans (extract_all _)
@[simp] theorem major_packGI (op : BitVec 8) (d : BitVec 6) (i : BitVec 18) :
    major (packGI op d i) = op :=
  (extract_hi _ _ _ _ (by decide)).trans ((extract_hi _ _ _ _ (by decide)).trans (extract_all _))
@[simp] theorem fld_packGI_d (op : BitVec 8) (d : BitVec 6) (i : BitVec 18) :
    fld (packGI op d i) 18 6 = d :=
  (extract_hi _ _ _ _ (by decide)).trans ((extract_lo _ _ _ _ (by decide)).trans (extract_all _))
@[simp] theorem fld_packGI_i (op : BitVec 8) (d : BitVec 6) (i : BitVec 18) :
    fld (packGI op d i) 0 18 = i :=
  (extract_lo _ _ _ _ (by decide)).trans (extract_all _)
@[simp] theorem major_packGB (op : BitVec 8) (c : BitVec 4) (o : BitVec 20) :
    major (packGB op c o) = op :=
  (extract_hi _ _ _ _ (by decide)).trans ((extract_hi _ _ _ _ (by decide)).trans (extract_all _))
@[simp] theorem fld_packGB_c (op : BitVec 8) (c : BitVec 4) (o : BitVec 20) :
    fld (packGB op c o) 20 4 = c :=
  (extract_hi _ _ _ _ (by decide)).trans ((extract_lo _ _ _ _ (by decide)).trans (extract_all _))
@[simp] theorem fld_packGB_o (op : BitVec 8) (c : BitVec 4) (o : BitVec 20) :
    fld (packGB op c o) 0 20 = o :=
  (extract_lo _ _ _ _ (by decide)).trans (extract_all _)
@[simp] theorem major_packGM (op : BitVec 8) (d : BitVec 6) (a : BitVec 6) (o : BitVec 8) (l : BitVec 4) :
    major (packGM op d a o l) = op :=
  (extract_hi _ _ _ _ (by decide)).trans ((extract_hi _ _ _ _ (by decide)).trans ((extract_hi _ _ _ _ (by decide)).trans ((extract_hi _ _ _ _ (by decide)).trans (extract_all _))))
@[simp] theorem fld_packGM_d (op : BitVec 8) (d : BitVec 6) (a : BitVec 6) (o : BitVec 8) (l : BitVec 4) :
    fld (packGM op d a o l) 18 6 = d :=
  (extract_hi _ _ _ _ (by decide)).trans ((extract_hi _ _ _ _ (by decide)).trans ((extract_hi _ _ _ _ (by decide)).trans ((extract_lo _ _ _ _ (by decide)).trans (extract_all _))))
@[simp] theorem fld_packGM_a (op : BitVec 8) (d : BitVec 6) (a : BitVec 6) (o : BitVec 8) (l : BitVec 4) :
    fld (packGM op d a o l) 12 6 = a :=
  (extract_hi _ _ _ _ (by decide)).trans ((extract_hi _ _ _ _ (by decide)).trans ((extract_lo _ _ _ _ (by decide)).trans (extract_all _)))
@[simp] theorem fld_packGM_o (op : BitVec 8) (d : BitVec 6) (a : BitVec 6) (o : BitVec 8) (l : BitVec 4) :
    fld (packGM op d a o l) 4 8 = o :=
  (extract_hi _ _ _ _ (by decide)).trans ((extract_lo _ _ _ _ (by decide)).trans (extract_all _))
@[simp] theorem fld_packGM_l (op : BitVec 8) (d : BitVec 6) (a : BitVec 6) (o : BitVec 8) (l : BitVec 4) :
    fld (packGM op d a o l) 0 4 = l :=
  (extract_lo _ _ _ _ (by decide)).trans (extract_all _)
@[simp] theorem major_packGE (op : BitVec 8) (t : BitVec 8) (r : BitVec 4) (s : BitVec 6) (l : BitVec 4) (f : BitVec 2) :
    major (packGE op t r s l f) = op :=
  (extract_hi _ _ _ _ (by decide)).trans ((extract_hi _ _ _ _ (by decide)).trans ((extract_hi _ _ _ _ (by decide)).trans ((extract_hi _ _ _ _ (by decide)).trans ((extract_hi _ _ _ _ (by decide)).trans (extract_all _)))))
@[simp] theorem fld_packGE_t (op : BitVec 8) (t : BitVec 8) (r : BitVec 4) (s : BitVec 6) (l : BitVec 4) (f : BitVec 2) :
    fld (packGE op t r s l f) 16 8 = t :=
  (extract_hi _ _ _ _ (by decide)).trans ((extract_hi _ _ _ _ (by decide)).trans ((extract_hi _ _ _ _ (by decide)).trans ((extract_hi _ _ _ _ (by decide)).trans ((extract_lo _ _ _ _ (by decide)).trans (extract_all _)))))
@[simp] theorem fld_packGE_r (op : BitVec 8) (t : BitVec 8) (r : BitVec 4) (s : BitVec 6) (l : BitVec 4) (f : BitVec 2) :
    fld (packGE op t r s l f) 12 4 = r :=
  (extract_hi _ _ _ _ (by decide)).trans ((extract_hi _ _ _ _ (by decide)).trans ((extract_hi _ _ _ _ (by decide)).trans ((extract_lo _ _ _ _ (by decide)).trans (extract_all _))))
@[simp] theorem fld_packGE_s (op : BitVec 8) (t : BitVec 8) (r : BitVec 4) (s : BitVec 6) (l : BitVec 4) (f : BitVec 2) :
    fld (packGE op t r s l f) 6 6 = s :=
  (extract_hi _ _ _ _ (by decide)).trans ((extract_hi _ _ _ _ (by decide)).trans ((extract_lo _ _ _ _ (by decide)).trans (extract_all _)))
@[simp] theorem fld_packGE_l (op : BitVec 8) (t : BitVec 8) (r : BitVec 4) (s : BitVec 6) (l : BitVec 4) (f : BitVec 2) :
    fld (packGE op t r s l f) 2 4 = l :=
  (extract_hi _ _ _ _ (by decide)).trans ((extract_lo _ _ _ _ (by decide)).trans (extract_all _))
@[simp] theorem fld_packGE_f (op : BitVec 8) (t : BitVec 8) (r : BitVec 4) (s : BitVec 6) (l : BitVec 4) (f : BitVec 2) :
    fld (packGE op t r s l f) 0 2 = f :=
  (extract_lo _ _ _ _ (by decide)).trans (extract_all _)
@[simp] theorem major_packGS (op : BitVec 8) (d : BitVec 6) (y : BitVec 12) (f : BitVec 6) :
    major (packGS op d y f) = op :=
  (extract_hi _ _ _ _ (by decide)).trans ((extract_hi _ _ _ _ (by decide)).trans ((extract_hi _ _ _ _ (by decide)).trans (extract_all _)))
@[simp] theorem fld_packGS_d (op : BitVec 8) (d : BitVec 6) (y : BitVec 12) (f : BitVec 6) :
    fld (packGS op d y f) 18 6 = d :=
  (extract_hi _ _ _ _ (by decide)).trans ((extract_hi _ _ _ _ (by decide)).trans ((extract_lo _ _ _ _ (by decide)).trans (extract_all _)))
@[simp] theorem fld_packGS_y (op : BitVec 8) (d : BitVec 6) (y : BitVec 12) (f : BitVec 6) :
    fld (packGS op d y f) 6 12 = y :=
  (extract_hi _ _ _ _ (by decide)).trans ((extract_lo _ _ _ _ (by decide)).trans (extract_all _))
@[simp] theorem fld_packGS_f (op : BitVec 8) (d : BitVec 6) (y : BitVec 12) (f : BitVec 6) :
    fld (packGS op d y f) 0 6 = f :=
  (extract_lo _ _ _ _ (by decide)).trans (extract_all _)

/-- A word whose major code is m decodes to what decodeMajor reads for m. -/
theorem decode_of_major {w : Word} {m : BitVec 8} {i : Instr} (hm : major w = m)
    (hd : decodeMajor m.toNat w = some (some i)) : decode w = .ok i := by
  rw [decode, hm, hd]

end Sys2Proof
end

