-- ==== Sys2Proof/Laws/PerInstr.lean ====
section
/-!
SUPPORT. Statements made per instruction. RoundTrip: decoding the word that the encoder writes for a well-formed
instruction gives the instruction back, with every operand.
-/

-- One declaration after another: each theorem that Lean proves on a thread of its own costs the memory of a stack, and the package as
-- one text then passes the limit that check.sh sets.
set_option Elab.async false

namespace Sys2Proof.Laws.RoundTrip

/-- Decode and encode agree on this instruction. -/
def Statement (i : Instr) : Prop := i.isWord = true → i.WellFormed → decode (encode i) = .ok i

theorem iadd (g : Guard) (d : BitVec 6) (a : BitVec 6) (b : BitVec 6) : Statement (.iadd g d a b) := by
  intro _ h
  refine decode_of_major (major_packL3 ..) ?_
  show some (decL3_gdab .iadd (packL3 0x01#8 g.enc d a b)) =
    some (some (.iadd g d a b))
  simp [decL3_gdab]
theorem iaddi (g : Guard) (d : BitVec 6) (a : BitVec 6) (imm : BitVec 6) : Statement (.iaddi g d a imm) := by
  intro _ h
  refine decode_of_major (major_packL3 ..) ?_
  show some (decL3_gdaimm .iaddi (packL3 0x02#8 g.enc d a imm)) =
    some (some (.iaddi g d a imm))
  simp [decL3_gdaimm]
theorem isub (g : Guard) (d : BitVec 6) (a : BitVec 6) (b : BitVec 6) : Statement (.isub g d a b) := by
  intro _ h
  refine decode_of_major (major_packL3 ..) ?_
  show some (decL3_gdab .isub (packL3 0x03#8 g.enc d a b)) =
    some (some (.isub g d a b))
  simp [decL3_gdab]
theorem iadc (g : Guard) (d : BitVec 6) (a : BitVec 6) (b : BitVec 6) : Statement (.iadc g d a b) := by
  intro _ h
  refine decode_of_major (major_packL3 ..) ?_
  show some (decL3_gdab .iadc (packL3 0x04#8 g.enc d a b)) =
    some (some (.iadc g d a b))
  simp [decL3_gdab]
theorem isbb (g : Guard) (d : BitVec 6) (a : BitVec 6) (b : BitVec 6) : Statement (.isbb g d a b) := by
  intro _ h
  refine decode_of_major (major_packL3 ..) ?_
  show some (decL3_gdab .isbb (packL3 0x05#8 g.enc d a b)) =
    some (some (.isbb g d a b))
  simp [decL3_gdab]
theorem imul (g : Guard) (d : BitVec 6) (a : BitVec 6) (b : BitVec 6) : Statement (.imul g d a b) := by
  intro _ h
  refine decode_of_major (major_packL3 ..) ?_
  show some (decL3_gdab .imul (packL3 0x06#8 g.enc d a b)) =
    some (some (.imul g d a b))
  simp [decL3_gdab]
theorem imulh (g : Guard) (d : BitVec 6) (a : BitVec 6) (b : BitVec 6) : Statement (.imulh g d a b) := by
  intro _ h
  refine decode_of_major (major_packL3 ..) ?_
  show some (decL3_gdab .imulh (packL3 0x07#8 g.enc d a b)) =
    some (some (.imulh g d a b))
  simp [decL3_gdab]
theorem imulhu (g : Guard) (d : BitVec 6) (a : BitVec 6) (b : BitVec 6) : Statement (.imulhu g d a b) := by
  intro _ h
  refine decode_of_major (major_packL3 ..) ?_
  show some (decL3_gdab .imulhu (packL3 0x08#8 g.enc d a b)) =
    some (some (.imulhu g d a b))
  simp [decL3_gdab]
theorem imad (g : Guard) (d : BitVec 6) (a : BitVec 6) (b : BitVec 6) : Statement (.imad g d a b) := by
  intro _ h
  refine decode_of_major (major_packL3 ..) ?_
  show some (decL3_gdab .imad (packL3 0x09#8 g.enc d a b)) =
    some (some (.imad g d a b))
  simp [decL3_gdab]
theorem imin (g : Guard) (d : BitVec 6) (a : BitVec 6) (b : BitVec 6) : Statement (.imin g d a b) := by
  intro _ h
  refine decode_of_major (major_packL3 ..) ?_
  show some (decL3_gdab .imin (packL3 0x0A#8 g.enc d a b)) =
    some (some (.imin g d a b))
  simp [decL3_gdab]
theorem imax (g : Guard) (d : BitVec 6) (a : BitVec 6) (b : BitVec 6) : Statement (.imax g d a b) := by
  intro _ h
  refine decode_of_major (major_packL3 ..) ?_
  show some (decL3_gdab .imax (packL3 0x0B#8 g.enc d a b)) =
    some (some (.imax g d a b))
  simp [decL3_gdab]
theorem iminu (g : Guard) (d : BitVec 6) (a : BitVec 6) (b : BitVec 6) : Statement (.iminu g d a b) := by
  intro _ h
  refine decode_of_major (major_packL3 ..) ?_
  show some (decL3_gdab .iminu (packL3 0x0C#8 g.enc d a b)) =
    some (some (.iminu g d a b))
  simp [decL3_gdab]
theorem imaxu (g : Guard) (d : BitVec 6) (a : BitVec 6) (b : BitVec 6) : Statement (.imaxu g d a b) := by
  intro _ h
  refine decode_of_major (major_packL3 ..) ?_
  show some (decL3_gdab .imaxu (packL3 0x0D#8 g.enc d a b)) =
    some (some (.imaxu g d a b))
  simp [decL3_gdab]
theorem iabs (g : Guard) (d : BitVec 6) (a : BitVec 6) : Statement (.iabs g d a) := by
  intro _ h
  refine decode_of_major (major_packL3 ..) ?_
  show some ((decL3_gda 0#6 .iabs (packL3 0x0E#8 g.enc d a 0#6)) <|> (decL3_gda 1#6 .ineg (packL3 0x0E#8 g.enc d a 0#6))) =
    some (some (.iabs g d a))
  simp [decL3_gda]
theorem ineg (g : Guard) (d : BitVec 6) (a : BitVec 6) : Statement (.ineg g d a) := by
  intro _ h
  refine decode_of_major (major_packL3 ..) ?_
  show some ((decL3_gda 0#6 .iabs (packL3 0x0E#8 g.enc d a 1#6)) <|> (decL3_gda 1#6 .ineg (packL3 0x0E#8 g.enc d a 1#6))) =
    some (some (.ineg g d a))
  simp [decL3_gda]
theorem rng (g : Guard) (d : BitVec 6) (a : BitVec 6) : Statement (.rng g d a) := by
  intro _ h
  refine decode_of_major (major_packL3 ..) ?_
  show some (decL3_gda 0#6 .rng (packL3 0x0F#8 g.enc d a 0#6)) =
    some (some (.rng g d a))
  simp [decL3_gda]
theorem movi (g : Guard) (d : BitVec 6) (imm : BitVec 12) : Statement (.movi g d imm) := by
  intro _ h
  refine decode_of_major (major_packL1I ..) ?_
  show some (decL1I_gdimm .movi (packL1I 0x10#8 g.enc d imm)) =
    some (some (.movi g d imm))
  simp [decL1I_gdimm]
theorem movhi (g : Guard) (d : BitVec 6) (imm : BitVec 12) : Statement (.movhi g d imm) := by
  intro _ h
  refine decode_of_major (major_packL1I ..) ?_
  show some (decL1I_gdimm .movhi (packL1I 0x11#8 g.enc d imm)) =
    some (some (.movhi g d imm))
  simp [decL1I_gdimm]
theorem andL (g : Guard) (d : BitVec 6) (a : BitVec 6) (b : BitVec 6) : Statement (.andL g d a b) := by
  intro _ h
  refine decode_of_major (major_packL3 ..) ?_
  show some (decL3_gdab .andL (packL3 0x12#8 g.enc d a b)) =
    some (some (.andL g d a b))
  simp [decL3_gdab]
theorem orL (g : Guard) (d : BitVec 6) (a : BitVec 6) (b : BitVec 6) : Statement (.orL g d a b) := by
  intro _ h
  refine decode_of_major (major_packL3 ..) ?_
  show some (decL3_gdab .orL (packL3 0x13#8 g.enc d a b)) =
    some (some (.orL g d a b))
  simp [decL3_gdab]
theorem xorL (g : Guard) (d : BitVec 6) (a : BitVec 6) (b : BitVec 6) : Statement (.xorL g d a b) := by
  intro _ h
  refine decode_of_major (major_packL3 ..) ?_
  show some (decL3_gdab .xorL (packL3 0x14#8 g.enc d a b)) =
    some (some (.xorL g d a b))
  simp [decL3_gdab]
theorem andn (g : Guard) (d : BitVec 6) (a : BitVec 6) (b : BitVec 6) : Statement (.andn g d a b) := by
  intro _ h
  refine decode_of_major (major_packL3 ..) ?_
  show some (decL3_gdab .andn (packL3 0x15#8 g.enc d a b)) =
    some (some (.andn g d a b))
  simp [decL3_gdab]
theorem shl (g : Guard) (d : BitVec 6) (a : BitVec 6) (b : BitVec 6) : Statement (.shl g d a b) := by
  intro _ h
  refine decode_of_major (major_packL3 ..) ?_
  show some (decL3_gdab .shl (packL3 0x16#8 g.enc d a b)) =
    some (some (.shl g d a b))
  simp [decL3_gdab]
theorem shr (g : Guard) (d : BitVec 6) (a : BitVec 6) (b : BitVec 6) : Statement (.shr g d a b) := by
  intro _ h
  refine decode_of_major (major_packL3 ..) ?_
  show some (decL3_gdab .shr (packL3 0x17#8 g.enc d a b)) =
    some (some (.shr g d a b))
  simp [decL3_gdab]
theorem sar (g : Guard) (d : BitVec 6) (a : BitVec 6) (b : BitVec 6) : Statement (.sar g d a b) := by
  intro _ h
  refine decode_of_major (major_packL3 ..) ?_
  show some (decL3_gdab .sar (packL3 0x18#8 g.enc d a b)) =
    some (some (.sar g d a b))
  simp [decL3_gdab]
theorem rol (g : Guard) (d : BitVec 6) (a : BitVec 6) (b : BitVec 6) : Statement (.rol g d a b) := by
  intro _ h
  refine decode_of_major (major_packL3 ..) ?_
  show some (decL3_gdab .rol (packL3 0x19#8 g.enc d a b)) =
    some (some (.rol g d a b))
  simp [decL3_gdab]
theorem bfx (g : Guard) (d : BitVec 6) (a : BitVec 6) (b : BitVec 6) : Statement (.bfx g d a b) := by
  intro _ h
  refine decode_of_major (major_packL3 ..) ?_
  show some (decL3_gdab .bfx (packL3 0x1A#8 g.enc d a b)) =
    some (some (.bfx g d a b))
  simp [decL3_gdab]
theorem bfxu (g : Guard) (d : BitVec 6) (a : BitVec 6) (b : BitVec 6) : Statement (.bfxu g d a b) := by
  intro _ h
  refine decode_of_major (major_packL3 ..) ?_
  show some (decL3_gdab .bfxu (packL3 0x1B#8 g.enc d a b)) =
    some (some (.bfxu g d a b))
  simp [decL3_gdab]
theorem bfi (g : Guard) (d : BitVec 6) (a : BitVec 6) (b : BitVec 6) : Statement (.bfi g d a b) := by
  intro _ h
  refine decode_of_major (major_packL3 ..) ?_
  show some (decL3_gdab .bfi (packL3 0x1C#8 g.enc d a b)) =
    some (some (.bfi g d a b))
  simp [decL3_gdab]
theorem popc (g : Guard) (d : BitVec 6) (a : BitVec 6) : Statement (.popc g d a) := by
  intro _ h
  refine decode_of_major (major_packL3 ..) ?_
  show some ((decL3_gda 0#6 .popc (packL3 0x1D#8 g.enc d a 0#6)) <|> (decL3_gda 1#6 .clz (packL3 0x1D#8 g.enc d a 0#6)) <|> (decL3_gda 2#6 .ctz (packL3 0x1D#8 g.enc d a 0#6)) <|> (decL3_gda 3#6 .brev (packL3 0x1D#8 g.enc d a 0#6))) =
    some (some (.popc g d a))
  simp [decL3_gda]
theorem clz (g : Guard) (d : BitVec 6) (a : BitVec 6) : Statement (.clz g d a) := by
  intro _ h
  refine decode_of_major (major_packL3 ..) ?_
  show some ((decL3_gda 0#6 .popc (packL3 0x1D#8 g.enc d a 1#6)) <|> (decL3_gda 1#6 .clz (packL3 0x1D#8 g.enc d a 1#6)) <|> (decL3_gda 2#6 .ctz (packL3 0x1D#8 g.enc d a 1#6)) <|> (decL3_gda 3#6 .brev (packL3 0x1D#8 g.enc d a 1#6))) =
    some (some (.clz g d a))
  simp [decL3_gda]
theorem ctz (g : Guard) (d : BitVec 6) (a : BitVec 6) : Statement (.ctz g d a) := by
  intro _ h
  refine decode_of_major (major_packL3 ..) ?_
  show some ((decL3_gda 0#6 .popc (packL3 0x1D#8 g.enc d a 2#6)) <|> (decL3_gda 1#6 .clz (packL3 0x1D#8 g.enc d a 2#6)) <|> (decL3_gda 2#6 .ctz (packL3 0x1D#8 g.enc d a 2#6)) <|> (decL3_gda 3#6 .brev (packL3 0x1D#8 g.enc d a 2#6))) =
    some (some (.ctz g d a))
  simp [decL3_gda]
theorem brev (g : Guard) (d : BitVec 6) (a : BitVec 6) : Statement (.brev g d a) := by
  intro _ h
  refine decode_of_major (major_packL3 ..) ?_
  show some ((decL3_gda 0#6 .popc (packL3 0x1D#8 g.enc d a 3#6)) <|> (decL3_gda 1#6 .clz (packL3 0x1D#8 g.enc d a 3#6)) <|> (decL3_gda 2#6 .ctz (packL3 0x1D#8 g.enc d a 3#6)) <|> (decL3_gda 3#6 .brev (packL3 0x1D#8 g.enc d a 3#6))) =
    some (some (.brev g d a))
  simp [decL3_gda]
theorem sel (c : Guard) (d : BitVec 6) (a : BitVec 6) (b : BitVec 6) : Statement (.sel c d a b) := by
  intro _ h
  refine decode_of_major (major_packL3 ..) ?_
  show some (decL3_cdab .sel (packL3 0x1E#8 c.enc d a b)) =
    some (some (.sel c d a b))
  simp [decL3_cdab]
theorem cvtsr (form : CvtsrForm) (d : BitVec 6) (a : BitVec 6) (b : BitVec 6) : Statement (.cvtsr form d a b) := by
  intro _ h
  refine decode_of_major (major_packL3 ..) ?_
  show some (decL3_formdab .cvtsr (packL3 0x1F#8 form.code d a b)) =
    some (some (.cvtsr form d a b))
  simp [decL3_formdab]
theorem icmp (g : Guard) (cd : BitVec 2) (wide : Bool) (a : BitVec 6) (b : BitVec 6) : Statement (.icmp g cd wide a b) := by
  intro _ h
  refine decode_of_major (major_packLC ..) ?_
  show some (decLC_gcdwideab .icmp (packLC 0x20#8 g.enc cd (encBool 4 wide) a b)) =
    some (some (.icmp g cd wide a b))
  simp [decLC_gcdwideab]
theorem itst (g : Guard) (cd : BitVec 2) (wide : Bool) (a : BitVec 6) (b : BitVec 6) : Statement (.itst g cd wide a b) := by
  intro _ h
  refine decode_of_major (major_packLC ..) ?_
  show some (decLC_gcdwideab .itst (packLC 0x21#8 g.enc cd (encBool 4 wide) a b)) =
    some (some (.itst g cd wide a b))
  simp [decLC_gcdwideab]
theorem fcmp (g : Guard) (cd : BitVec 2) (a : BitVec 6) (b : BitVec 6) : Statement (.fcmp g cd a b) := by
  intro _ h
  refine decode_of_major (major_packLC ..) ?_
  show some (decLC_gcdab 0#4 .fcmp (packLC 0x22#8 g.enc cd 0#4 a b)) =
    some (some (.fcmp g cd a b))
  simp [decLC_gcdab]
theorem dcmp (g : Guard) (cd : BitVec 2) (a : BitVec 6) (b : BitVec 6) : Statement (.dcmp g cd a b) := by
  intro _ h
  refine decode_of_major (major_packLC ..) ?_
  show some (decLC_gcdab 0#4 .dcmp (packLC 0x23#8 g.enc cd 0#4 a b)) =
    some (some (.dcmp g cd a b))
  simp [decLC_gcdab]
theorem cmov (g : Guard) (cd : BitVec 2) (cj : BitVec 2) : Statement (.cmov g cd cj) := by
  intro _ h
  refine decode_of_major (major_packLC ..) ?_
  show some ((decLC_gcdcj 0#4 0#6 .cmov (packLC 0x24#8 g.enc cd 0#4 (pad 4 cj) 0#6)) <|> (decLC_gcda 1#4 0#6 .cmovV (packLC 0x24#8 g.enc cd 0#4 (pad 4 cj) 0#6)) <|> (decLC_gcdimm 2#4 0#6 .cmovI (packLC 0x24#8 g.enc cd 0#4 (pad 4 cj) 0#6)) <|> (decLC_ga 0#2 3#4 0#6 .cmovR (packLC 0x24#8 g.enc cd 0#4 (pad 4 cj) 0#6))) =
    some (some (.cmov g cd cj))
  simp [decLC_ga, decLC_gcda, decLC_gcdcj, decLC_gcdimm]
theorem cmovV (g : Guard) (cd : BitVec 2) (a : BitVec 6) : Statement (.cmovV g cd a) := by
  intro _ h
  refine decode_of_major (major_packLC ..) ?_
  show some ((decLC_gcdcj 0#4 0#6 .cmov (packLC 0x24#8 g.enc cd 1#4 a 0#6)) <|> (decLC_gcda 1#4 0#6 .cmovV (packLC 0x24#8 g.enc cd 1#4 a 0#6)) <|> (decLC_gcdimm 2#4 0#6 .cmovI (packLC 0x24#8 g.enc cd 1#4 a 0#6)) <|> (decLC_ga 0#2 3#4 0#6 .cmovR (packLC 0x24#8 g.enc cd 1#4 a 0#6))) =
    some (some (.cmovV g cd a))
  simp [decLC_ga, decLC_gcda, decLC_gcdcj, decLC_gcdimm]
theorem cmovI (g : Guard) (cd : BitVec 2) (imm : BitVec 4) : Statement (.cmovI g cd imm) := by
  intro _ h
  refine decode_of_major (major_packLC ..) ?_
  show some ((decLC_gcdcj 0#4 0#6 .cmov (packLC 0x24#8 g.enc cd 2#4 0#6 (pad 2 imm))) <|> (decLC_gcda 1#4 0#6 .cmovV (packLC 0x24#8 g.enc cd 2#4 0#6 (pad 2 imm))) <|> (decLC_gcdimm 2#4 0#6 .cmovI (packLC 0x24#8 g.enc cd 2#4 0#6 (pad 2 imm))) <|> (decLC_ga 0#2 3#4 0#6 .cmovR (packLC 0x24#8 g.enc cd 2#4 0#6 (pad 2 imm)))) =
    some (some (.cmovI g cd imm))
  simp [decLC_ga, decLC_gcda, decLC_gcdcj, decLC_gcdimm]
theorem cmovR (g : Guard) (a : BitVec 6) : Statement (.cmovR g a) := by
  intro _ h
  refine decode_of_major (major_packLC ..) ?_
  show some ((decLC_gcdcj 0#4 0#6 .cmov (packLC 0x24#8 g.enc 0#2 3#4 a 0#6)) <|> (decLC_gcda 1#4 0#6 .cmovV (packLC 0x24#8 g.enc 0#2 3#4 a 0#6)) <|> (decLC_gcdimm 2#4 0#6 .cmovI (packLC 0x24#8 g.enc 0#2 3#4 a 0#6)) <|> (decLC_ga 0#2 3#4 0#6 .cmovR (packLC 0x24#8 g.enc 0#2 3#4 a 0#6))) =
    some (some (.cmovR g a))
  simp [decLC_ga, decLC_gcda, decLC_gcdcj, decLC_gcdimm]
theorem iaddmin (g : Guard) (d : BitVec 6) (a : BitVec 6) (b : BitVec 6) : Statement (.iaddmin g d a b) := by
  intro _ h
  refine decode_of_major (major_packL3 ..) ?_
  show some (decL3_gdab .iaddmin (packL3 0x25#8 g.enc d a b)) =
    some (some (.iaddmin g d a b))
  simp [decL3_gdab]
theorem iaddmax (g : Guard) (d : BitVec 6) (a : BitVec 6) (b : BitVec 6) : Statement (.iaddmax g d a b) := by
  intro _ h
  refine decode_of_major (major_packL3 ..) ?_
  show some (decL3_gdab .iaddmax (packL3 0x26#8 g.enc d a b)) =
    some (some (.iaddmax g d a b))
  simp [decL3_gdab]
theorem faddmin (g : Guard) (d : BitVec 6) (a : BitVec 6) (b : BitVec 6) : Statement (.faddmin g d a b) := by
  intro _ h
  refine decode_of_major (major_packL3 ..) ?_
  show some (decL3_gdab .faddmin (packL3 0x27#8 g.enc d a b)) =
    some (some (.faddmin g d a b))
  simp [decL3_gdab]
theorem addw (g : Guard) (d : BitVec 6) (a : BitVec 6) (b : BitVec 6) : Statement (.addw g d a b) := by
  intro _ h
  refine decode_of_major (major_packL3 ..) ?_
  show some (decL3_gdab .addw (packL3 0x28#8 g.enc d a b)) =
    some (some (.addw g d a b))
  simp [decL3_gdab]
theorem subw (g : Guard) (d : BitVec 6) (a : BitVec 6) (b : BitVec 6) : Statement (.subw g d a b) := by
  intro _ h
  refine decode_of_major (major_packL3 ..) ?_
  show some (decL3_gdab .subw (packL3 0x29#8 g.enc d a b)) =
    some (some (.subw g d a b))
  simp [decL3_gdab]
theorem shlw (g : Guard) (d : BitVec 6) (a : BitVec 6) (b : BitVec 6) : Statement (.shlw g d a b) := by
  intro _ h
  refine decode_of_major (major_packL3 ..) ?_
  show some (decL3_gdab .shlw (packL3 0x2A#8 g.enc d a b)) =
    some (some (.shlw g d a b))
  simp [decL3_gdab]
theorem shrw (g : Guard) (d : BitVec 6) (a : BitVec 6) (b : BitVec 6) : Statement (.shrw g d a b) := by
  intro _ h
  refine decode_of_major (major_packL3 ..) ?_
  show some (decL3_gdab .shrw (packL3 0x2B#8 g.enc d a b)) =
    some (some (.shrw g d a b))
  simp [decL3_gdab]
theorem sarw (g : Guard) (d : BitVec 6) (a : BitVec 6) (b : BitVec 6) : Statement (.sarw g d a b) := by
  intro _ h
  refine decode_of_major (major_packL3 ..) ?_
  show some (decL3_gdab .sarw (packL3 0x2C#8 g.enc d a b)) =
    some (some (.sarw g d a b))
  simp [decL3_gdab]
theorem mulw (g : Guard) (d : BitVec 6) (a : BitVec 6) (b : BitVec 6) : Statement (.mulw g d a b) := by
  intro _ h
  refine decode_of_major (major_packL3 ..) ?_
  show some (decL3_gdab .mulw (packL3 0x2D#8 g.enc d a b)) =
    some (some (.mulw g d a b))
  simp [decL3_gdab]
theorem badd (g : Guard) (d : BitVec 6) (a : BitVec 6) (b : BitVec 6) : Statement (.badd g d a b) := by
  intro _ h
  refine decode_of_major (major_packL3 ..) ?_
  show some (decL3_gdab .badd (packL3 0x2E#8 g.enc d a b)) =
    some (some (.badd g d a b))
  simp [decL3_gdab]
theorem bfma (g : Guard) (d : BitVec 6) (a : BitVec 6) (b : BitVec 6) : Statement (.bfma g d a b) := by
  intro _ h
  refine decode_of_major (major_packL3 ..) ?_
  show some (decL3_gdab .bfma (packL3 0x2F#8 g.enc d a b)) =
    some (some (.bfma g d a b))
  simp [decL3_gdab]
theorem idivI32 (d : BitVec 6) (a : BitVec 6) (b : BitVec 6) (la : BitVec 4) : Statement (.idivI32 d a b la) := by
  intro _ h
  refine decode_of_major (major_packLL ..) ?_
  show some ((decLL_dabla 0#2 .idivI32 (packLL 0x30#8 d a b la 0#2)) <|> (decLL_dabla 1#2 .idivN32 (packLL 0x30#8 d a b la 0#2)) <|> (decLL_dabla 2#2 .iremI32 (packLL 0x30#8 d a b la 0#2)) <|> (decLL_dabla 3#2 .iremN32 (packLL 0x30#8 d a b la 0#2))) =
    some (some (.idivI32 d a b la))
  simp [decLL_dabla]
theorem idivN32 (d : BitVec 6) (a : BitVec 6) (b : BitVec 6) (la : BitVec 4) : Statement (.idivN32 d a b la) := by
  intro _ h
  refine decode_of_major (major_packLL ..) ?_
  show some ((decLL_dabla 0#2 .idivI32 (packLL 0x30#8 d a b la 1#2)) <|> (decLL_dabla 1#2 .idivN32 (packLL 0x30#8 d a b la 1#2)) <|> (decLL_dabla 2#2 .iremI32 (packLL 0x30#8 d a b la 1#2)) <|> (decLL_dabla 3#2 .iremN32 (packLL 0x30#8 d a b la 1#2))) =
    some (some (.idivN32 d a b la))
  simp [decLL_dabla]
theorem iremI32 (d : BitVec 6) (a : BitVec 6) (b : BitVec 6) (la : BitVec 4) : Statement (.iremI32 d a b la) := by
  intro _ h
  refine decode_of_major (major_packLL ..) ?_
  show some ((decLL_dabla 0#2 .idivI32 (packLL 0x30#8 d a b la 2#2)) <|> (decLL_dabla 1#2 .idivN32 (packLL 0x30#8 d a b la 2#2)) <|> (decLL_dabla 2#2 .iremI32 (packLL 0x30#8 d a b la 2#2)) <|> (decLL_dabla 3#2 .iremN32 (packLL 0x30#8 d a b la 2#2))) =
    some (some (.iremI32 d a b la))
  simp [decLL_dabla]
theorem iremN32 (d : BitVec 6) (a : BitVec 6) (b : BitVec 6) (la : BitVec 4) : Statement (.iremN32 d a b la) := by
  intro _ h
  refine decode_of_major (major_packLL ..) ?_
  show some ((decLL_dabla 0#2 .idivI32 (packLL 0x30#8 d a b la 3#2)) <|> (decLL_dabla 1#2 .idivN32 (packLL 0x30#8 d a b la 3#2)) <|> (decLL_dabla 2#2 .iremI32 (packLL 0x30#8 d a b la 3#2)) <|> (decLL_dabla 3#2 .iremN32 (packLL 0x30#8 d a b la 3#2))) =
    some (some (.iremN32 d a b la))
  simp [decLL_dabla]
theorem fdiv (d : BitVec 6) (a : BitVec 6) (b : BitVec 6) (la : BitVec 4) : Statement (.fdiv d a b la) := by
  intro _ h
  refine decode_of_major (major_packLL ..) ?_
  show some (decLL_dabla 0#2 .fdiv (packLL 0x31#8 d a b la 0#2)) =
    some (some (.fdiv d a b la))
  simp [decLL_dabla]
theorem fsqrt (d : BitVec 6) (a : BitVec 6) (la : BitVec 4) : Statement (.fsqrt d a la) := by
  intro _ h
  refine decode_of_major (major_packLL ..) ?_
  show some (decLL_dala 0#6 0#2 .fsqrt (packLL 0x32#8 d a 0#6 la 0#2)) =
    some (some (.fsqrt d a la))
  simp [decLL_dala]
theorem frcp (d : BitVec 6) (a : BitVec 6) (la : BitVec 4) : Statement (.frcp d a la) := by
  intro _ h
  refine decode_of_major (major_packLL ..) ?_
  show some ((decLL_dala 0#6 0#2 .frcp (packLL 0x33#8 d a 0#6 la 0#2)) <|> (decLL_dala 0#6 1#2 .frsq (packLL 0x33#8 d a 0#6 la 0#2))) =
    some (some (.frcp d a la))
  simp [decLL_dala]
theorem frsq (d : BitVec 6) (a : BitVec 6) (la : BitVec 4) : Statement (.frsq d a la) := by
  intro _ h
  refine decode_of_major (major_packLL ..) ?_
  show some ((decLL_dala 0#6 0#2 .frcp (packLL 0x33#8 d a 0#6 la 1#2)) <|> (decLL_dala 0#6 1#2 .frsq (packLL 0x33#8 d a 0#6 la 1#2))) =
    some (some (.frsq d a la))
  simp [decLL_dala]
theorem fexp2 (d : BitVec 6) (a : BitVec 6) (la : BitVec 4) : Statement (.fexp2 d a la) := by
  intro _ h
  refine decode_of_major (major_packLL ..) ?_
  show some ((decLL_dala 0#6 0#2 .fexp2 (packLL 0x34#8 d a 0#6 la 0#2)) <|> (decLL_dala 0#6 1#2 .flog2 (packLL 0x34#8 d a 0#6 la 0#2))) =
    some (some (.fexp2 d a la))
  simp [decLL_dala]
theorem flog2 (d : BitVec 6) (a : BitVec 6) (la : BitVec 4) : Statement (.flog2 d a la) := by
  intro _ h
  refine decode_of_major (major_packLL ..) ?_
  show some ((decLL_dala 0#6 0#2 .fexp2 (packLL 0x34#8 d a 0#6 la 1#2)) <|> (decLL_dala 0#6 1#2 .flog2 (packLL 0x34#8 d a 0#6 la 1#2))) =
    some (some (.flog2 d a la))
  simp [decLL_dala]
theorem fsin (d : BitVec 6) (a : BitVec 6) (la : BitVec 4) : Statement (.fsin d a la) := by
  intro _ h
  refine decode_of_major (major_packLL ..) ?_
  show some ((decLL_dala 0#6 0#2 .fsin (packLL 0x35#8 d a 0#6 la 0#2)) <|> (decLL_dala 0#6 1#2 .fcos (packLL 0x35#8 d a 0#6 la 0#2))) =
    some (some (.fsin d a la))
  simp [decLL_dala]
theorem fcos (d : BitVec 6) (a : BitVec 6) (la : BitVec 4) : Statement (.fcos d a la) := by
  intro _ h
  refine decode_of_major (major_packLL ..) ?_
  show some ((decLL_dala 0#6 0#2 .fsin (packLL 0x35#8 d a 0#6 la 1#2)) <|> (decLL_dala 0#6 1#2 .fcos (packLL 0x35#8 d a 0#6 la 1#2))) =
    some (some (.fcos d a la))
  simp [decLL_dala]
theorem ddiv (d : BitVec 6) (a : BitVec 6) (b : BitVec 6) (la : BitVec 4) : Statement (.ddiv d a b la) := by
  intro _ h
  refine decode_of_major (major_packLL ..) ?_
  show some (decLL_dabla 0#2 .ddiv (packLL 0x36#8 d a b la 0#2)) =
    some (some (.ddiv d a b la))
  simp [decLL_dabla]
theorem dsqrt (d : BitVec 6) (a : BitVec 6) (la : BitVec 4) : Statement (.dsqrt d a la) := by
  intro _ h
  refine decode_of_major (major_packLL ..) ?_
  show some (decLL_dala 0#6 0#2 .dsqrt (packLL 0x37#8 d a 0#6 la 0#2)) =
    some (some (.dsqrt d a la))
  simp [decLL_dala]
theorem aaddN64 (d : BitVec 6) (a : BitVec 6) (bs : BitVec 2) (sc : Scope) (la : BitVec 4) (ord : Ord) : Statement (.aaddN64 d a bs sc la ord) := by
  intro _ h
  refine decode_of_major (major_packLA ..) ?_
  show some (decLA_dabssclaord .aaddN64 (packLA 0x38#8 d a bs sc.code la ord.code)) =
    some (some (.aaddN64 d a bs sc la ord))
  simp [decLA_dabssclaord]
theorem aminI64 (d : BitVec 6) (a : BitVec 6) (bs : BitVec 2) (sc : Scope) (la : BitVec 4) (ord : Ord) : Statement (.aminI64 d a bs sc la ord) := by
  intro _ h
  refine decode_of_major (major_packLA ..) ?_
  show some (decLA_dabssclaord .aminI64 (packLA 0x39#8 d a bs sc.code la ord.code)) =
    some (some (.aminI64 d a bs sc la ord))
  simp [decLA_dabssclaord]
theorem amaxI64 (d : BitVec 6) (a : BitVec 6) (bs : BitVec 2) (sc : Scope) (la : BitVec 4) (ord : Ord) : Statement (.amaxI64 d a bs sc la ord) := by
  intro _ h
  refine decode_of_major (major_packLA ..) ?_
  show some (decLA_dabssclaord .amaxI64 (packLA 0x3A#8 d a bs sc.code la ord.code)) =
    some (some (.amaxI64 d a bs sc la ord))
  simp [decLA_dabssclaord]
theorem aminN64 (d : BitVec 6) (a : BitVec 6) (bs : BitVec 2) (sc : Scope) (la : BitVec 4) (ord : Ord) : Statement (.aminN64 d a bs sc la ord) := by
  intro _ h
  refine decode_of_major (major_packLA ..) ?_
  show some (decLA_dabssclaord .aminN64 (packLA 0x3B#8 d a bs sc.code la ord.code)) =
    some (some (.aminN64 d a bs sc la ord))
  simp [decLA_dabssclaord]
theorem amaxN64 (d : BitVec 6) (a : BitVec 6) (bs : BitVec 2) (sc : Scope) (la : BitVec 4) (ord : Ord) : Statement (.amaxN64 d a bs sc la ord) := by
  intro _ h
  refine decode_of_major (major_packLA ..) ?_
  show some (decLA_dabssclaord .amaxN64 (packLA 0x3C#8 d a bs sc.code la ord.code)) =
    some (some (.amaxN64 d a bs sc la ord))
  simp [decLA_dabssclaord]
theorem aandN64 (d : BitVec 6) (a : BitVec 6) (bs : BitVec 2) (sc : Scope) (la : BitVec 4) (ord : Ord) : Statement (.aandN64 d a bs sc la ord) := by
  intro _ h
  refine decode_of_major (major_packLA ..) ?_
  show some (decLA_dabssclaord .aandN64 (packLA 0x3D#8 d a bs sc.code la ord.code)) =
    some (some (.aandN64 d a bs sc la ord))
  simp [decLA_dabssclaord]
theorem aorN64 (d : BitVec 6) (a : BitVec 6) (bs : BitVec 2) (sc : Scope) (la : BitVec 4) (ord : Ord) : Statement (.aorN64 d a bs sc la ord) := by
  intro _ h
  refine decode_of_major (major_packLA ..) ?_
  show some (decLA_dabssclaord .aorN64 (packLA 0x3E#8 d a bs sc.code la ord.code)) =
    some (some (.aorN64 d a bs sc la ord))
  simp [decLA_dabssclaord]
theorem axorN64 (d : BitVec 6) (a : BitVec 6) (bs : BitVec 2) (sc : Scope) (la : BitVec 4) (ord : Ord) : Statement (.axorN64 d a bs sc la ord) := by
  intro _ h
  refine decode_of_major (major_packLA ..) ?_
  show some (decLA_dabssclaord .axorN64 (packLA 0x3F#8 d a bs sc.code la ord.code)) =
    some (some (.axorN64 d a bs sc la ord))
  simp [decLA_dabssclaord]
theorem ldI8 (g : Guard) (d : BitVec 6) (a : BitVec 6) (bs : BitVec 2) (la : BitVec 4) : Statement (.ldI8 g d a bs la) := by
  intro _ h
  refine decode_of_major (major_packLM ..) ?_
  show some (decLM_gdabsla .ldI8 (packLM 0x40#8 g.enc d a bs la)) =
    some (some (.ldI8 g d a bs la))
  simp [decLM_gdabsla]
theorem ldN8 (g : Guard) (d : BitVec 6) (a : BitVec 6) (bs : BitVec 2) (la : BitVec 4) : Statement (.ldN8 g d a bs la) := by
  intro _ h
  refine decode_of_major (major_packLM ..) ?_
  show some (decLM_gdabsla .ldN8 (packLM 0x41#8 g.enc d a bs la)) =
    some (some (.ldN8 g d a bs la))
  simp [decLM_gdabsla]
theorem ldI16 (g : Guard) (d : BitVec 6) (a : BitVec 6) (bs : BitVec 2) (la : BitVec 4) : Statement (.ldI16 g d a bs la) := by
  intro _ h
  refine decode_of_major (major_packLM ..) ?_
  show some (decLM_gdabsla .ldI16 (packLM 0x42#8 g.enc d a bs la)) =
    some (some (.ldI16 g d a bs la))
  simp [decLM_gdabsla]
theorem ldN16 (g : Guard) (d : BitVec 6) (a : BitVec 6) (bs : BitVec 2) (la : BitVec 4) : Statement (.ldN16 g d a bs la) := by
  intro _ h
  refine decode_of_major (major_packLM ..) ?_
  show some (decLM_gdabsla .ldN16 (packLM 0x43#8 g.enc d a bs la)) =
    some (some (.ldN16 g d a bs la))
  simp [decLM_gdabsla]
theorem ldN32 (g : Guard) (d : BitVec 6) (a : BitVec 6) (bs : BitVec 2) (la : BitVec 4) : Statement (.ldN32 g d a bs la) := by
  intro _ h
  refine decode_of_major (major_packLM ..) ?_
  show some (decLM_gdabsla .ldN32 (packLM 0x44#8 g.enc d a bs la)) =
    some (some (.ldN32 g d a bs la))
  simp [decLM_gdabsla]
theorem ldN64 (g : Guard) (d : BitVec 6) (a : BitVec 6) (bs : BitVec 2) (la : BitVec 4) : Statement (.ldN64 g d a bs la) := by
  intro _ h
  refine decode_of_major (major_packLM ..) ?_
  show some (decLM_gdabsla .ldN64 (packLM 0x45#8 g.enc d a bs la)) =
    some (some (.ldN64 g d a bs la))
  simp [decLM_gdabsla]
theorem ldN128 (g : Guard) (d : BitVec 6) (a : BitVec 6) (bs : BitVec 2) (la : BitVec 4) : Statement (.ldN128 g d a bs la) := by
  intro _ h
  refine decode_of_major (major_packLM ..) ?_
  show some (decLM_gdabsla .ldN128 (packLM 0x46#8 g.enc d a bs la)) =
    some (some (.ldN128 g d a bs la))
  simp [decLM_gdabsla]
theorem axchgN64 (d : BitVec 6) (a : BitVec 6) (bs : BitVec 2) (sc : Scope) (la : BitVec 4) (ord : Ord) : Statement (.axchgN64 d a bs sc la ord) := by
  intro _ h
  refine decode_of_major (major_packLA ..) ?_
  show some (decLA_dabssclaord .axchgN64 (packLA 0x47#8 d a bs sc.code la ord.code)) =
    some (some (.axchgN64 d a bs sc la ord))
  simp [decLA_dabssclaord]
theorem stN8 (g : Guard) (d : BitVec 6) (a : BitVec 6) (bs : BitVec 2) : Statement (.stN8 g d a bs) := by
  intro _ h
  refine decode_of_major (major_packLM ..) ?_
  show some (decLM_gdabs 0#4 .stN8 (packLM 0x48#8 g.enc d a bs 0#4)) =
    some (some (.stN8 g d a bs))
  simp [decLM_gdabs]
theorem stN16 (g : Guard) (d : BitVec 6) (a : BitVec 6) (bs : BitVec 2) : Statement (.stN16 g d a bs) := by
  intro _ h
  refine decode_of_major (major_packLM ..) ?_
  show some (decLM_gdabs 0#4 .stN16 (packLM 0x49#8 g.enc d a bs 0#4)) =
    some (some (.stN16 g d a bs))
  simp [decLM_gdabs]
theorem stN32 (g : Guard) (d : BitVec 6) (a : BitVec 6) (bs : BitVec 2) : Statement (.stN32 g d a bs) := by
  intro _ h
  refine decode_of_major (major_packLM ..) ?_
  show some (decLM_gdabs 0#4 .stN32 (packLM 0x4A#8 g.enc d a bs 0#4)) =
    some (some (.stN32 g d a bs))
  simp [decLM_gdabs]
theorem stN64 (g : Guard) (d : BitVec 6) (a : BitVec 6) (bs : BitVec 2) : Statement (.stN64 g d a bs) := by
  intro _ h
  refine decode_of_major (major_packLM ..) ?_
  show some (decLM_gdabs 0#4 .stN64 (packLM 0x4B#8 g.enc d a bs 0#4)) =
    some (some (.stN64 g d a bs))
  simp [decLM_gdabs]
theorem stN128 (g : Guard) (d : BitVec 6) (a : BitVec 6) (bs : BitVec 2) : Statement (.stN128 g d a bs) := by
  intro _ h
  refine decode_of_major (major_packLM ..) ?_
  show some (decLM_gdabs 0#4 .stN128 (packLM 0x4C#8 g.enc d a bs 0#4)) =
    some (some (.stN128 g d a bs))
  simp [decLM_gdabs]
theorem ldk (g : Guard) (d : BitVec 6) (a : BitVec 6) (bs : BitVec 2) (la : BitVec 4) : Statement (.ldk g d a bs la) := by
  intro _ h
  refine decode_of_major (major_packLM ..) ?_
  show some (decLM_gdabsla .ldk (packLM 0x4D#8 g.enc d a bs la)) =
    some (some (.ldk g d a bs la))
  simp [decLM_gdabsla]
theorem ldProbe (g : Guard) (cj : BitVec 2) (a : BitVec 6) (bs : BitVec 2) (size : ProbeSize) : Statement (.ldProbe g cj a bs size) := by
  intro _ h
  refine decode_of_major (major_packLM ..) ?_
  show some (decLM_gcjabssize .ldProbe (packLM 0x4E#8 g.enc (pad 4 cj) a bs size.code)) =
    some (some (.ldProbe g cj a bs size))
  simp [decLM_gcjabssize]
theorem acasN64 (d : BitVec 6) (a : BitVec 6) (bs : BitVec 2) (sc : Scope) (la : BitVec 4) (ord : Ord) : Statement (.acasN64 d a bs sc la ord) := by
  intro _ h
  refine decode_of_major (major_packLA ..) ?_
  show some (decLA_dabssclaord .acasN64 (packLA 0x4F#8 d a bs sc.code la ord.code)) =
    some (some (.acasN64 d a bs sc la ord))
  simp [decLA_dabssclaord]
theorem aaddN32 (d : BitVec 6) (a : BitVec 6) (bs : BitVec 2) (sc : Scope) (la : BitVec 4) (ord : Ord) : Statement (.aaddN32 d a bs sc la ord) := by
  intro _ h
  refine decode_of_major (major_packLA ..) ?_
  show some (decLA_dabssclaord .aaddN32 (packLA 0x50#8 d a bs sc.code la ord.code)) =
    some (some (.aaddN32 d a bs sc la ord))
  simp [decLA_dabssclaord]
theorem aminI32 (d : BitVec 6) (a : BitVec 6) (bs : BitVec 2) (sc : Scope) (la : BitVec 4) (ord : Ord) : Statement (.aminI32 d a bs sc la ord) := by
  intro _ h
  refine decode_of_major (major_packLA ..) ?_
  show some (decLA_dabssclaord .aminI32 (packLA 0x51#8 d a bs sc.code la ord.code)) =
    some (some (.aminI32 d a bs sc la ord))
  simp [decLA_dabssclaord]
theorem amaxI32 (d : BitVec 6) (a : BitVec 6) (bs : BitVec 2) (sc : Scope) (la : BitVec 4) (ord : Ord) : Statement (.amaxI32 d a bs sc la ord) := by
  intro _ h
  refine decode_of_major (major_packLA ..) ?_
  show some (decLA_dabssclaord .amaxI32 (packLA 0x52#8 d a bs sc.code la ord.code)) =
    some (some (.amaxI32 d a bs sc la ord))
  simp [decLA_dabssclaord]
theorem aminN32 (d : BitVec 6) (a : BitVec 6) (bs : BitVec 2) (sc : Scope) (la : BitVec 4) (ord : Ord) : Statement (.aminN32 d a bs sc la ord) := by
  intro _ h
  refine decode_of_major (major_packLA ..) ?_
  show some (decLA_dabssclaord .aminN32 (packLA 0x53#8 d a bs sc.code la ord.code)) =
    some (some (.aminN32 d a bs sc la ord))
  simp [decLA_dabssclaord]
theorem amaxN32 (d : BitVec 6) (a : BitVec 6) (bs : BitVec 2) (sc : Scope) (la : BitVec 4) (ord : Ord) : Statement (.amaxN32 d a bs sc la ord) := by
  intro _ h
  refine decode_of_major (major_packLA ..) ?_
  show some (decLA_dabssclaord .amaxN32 (packLA 0x54#8 d a bs sc.code la ord.code)) =
    some (some (.amaxN32 d a bs sc la ord))
  simp [decLA_dabssclaord]
theorem aandN32 (d : BitVec 6) (a : BitVec 6) (bs : BitVec 2) (sc : Scope) (la : BitVec 4) (ord : Ord) : Statement (.aandN32 d a bs sc la ord) := by
  intro _ h
  refine decode_of_major (major_packLA ..) ?_
  show some (decLA_dabssclaord .aandN32 (packLA 0x55#8 d a bs sc.code la ord.code)) =
    some (some (.aandN32 d a bs sc la ord))
  simp [decLA_dabssclaord]
theorem aorN32 (d : BitVec 6) (a : BitVec 6) (bs : BitVec 2) (sc : Scope) (la : BitVec 4) (ord : Ord) : Statement (.aorN32 d a bs sc la ord) := by
  intro _ h
  refine decode_of_major (major_packLA ..) ?_
  show some (decLA_dabssclaord .aorN32 (packLA 0x56#8 d a bs sc.code la ord.code)) =
    some (some (.aorN32 d a bs sc la ord))
  simp [decLA_dabssclaord]
theorem axorN32 (d : BitVec 6) (a : BitVec 6) (bs : BitVec 2) (sc : Scope) (la : BitVec 4) (ord : Ord) : Statement (.axorN32 d a bs sc la ord) := by
  intro _ h
  refine decode_of_major (major_packLA ..) ?_
  show some (decLA_dabssclaord .axorN32 (packLA 0x57#8 d a bs sc.code la ord.code)) =
    some (some (.axorN32 d a bs sc la ord))
  simp [decLA_dabssclaord]
theorem axchgN32 (d : BitVec 6) (a : BitVec 6) (bs : BitVec 2) (sc : Scope) (la : BitVec 4) (ord : Ord) : Statement (.axchgN32 d a bs sc la ord) := by
  intro _ h
  refine decode_of_major (major_packLA ..) ?_
  show some (decLA_dabssclaord .axchgN32 (packLA 0x58#8 d a bs sc.code la ord.code)) =
    some (some (.axchgN32 d a bs sc la ord))
  simp [decLA_dabssclaord]
theorem acasN32 (d : BitVec 6) (a : BitVec 6) (bs : BitVec 2) (sc : Scope) (la : BitVec 4) (ord : Ord) : Statement (.acasN32 d a bs sc la ord) := by
  intro _ h
  refine decode_of_major (major_packLA ..) ?_
  show some (decLA_dabssclaord .acasN32 (packLA 0x59#8 d a bs sc.code la ord.code)) =
    some (some (.acasN32 d a bs sc la ord))
  simp [decLA_dabssclaord]
theorem faddOrdF32 (d : BitVec 6) (a : BitVec 6) (bs : BitVec 2) (sc : Scope) : Statement (.faddOrdF32 d a bs sc) := by
  intro _ h
  refine decode_of_major (major_packLA ..) ?_
  show some (decLA_dabssc 0#4 0#2 .faddOrdF32 (packLA 0x5A#8 d a bs sc.code 0#4 0#2)) =
    some (some (.faddOrdF32 d a bs sc))
  simp [decLA_dabssc]
theorem faddOrdF64 (d : BitVec 6) (a : BitVec 6) (bs : BitVec 2) (sc : Scope) : Statement (.faddOrdF64 d a bs sc) := by
  intro _ h
  refine decode_of_major (major_packLA ..) ?_
  show some (decLA_dabssc 0#4 0#2 .faddOrdF64 (packLA 0x5B#8 d a bs sc.code 0#4 0#2)) =
    some (some (.faddOrdF64 d a bs sc))
  simp [decLA_dabssc]
theorem ldaN32 (d : BitVec 6) (a : BitVec 6) (bs : BitVec 2) (sc : Scope) (la : BitVec 4) (acq : Bool) : Statement (.ldaN32 d a bs sc la acq) := by
  intro _ h
  refine decode_of_major (major_packLA ..) ?_
  show some (decLA_dabssclaacq .ldaN32 (packLA 0x5C#8 d a bs sc.code la (encBool 2 acq))) =
    some (some (.ldaN32 d a bs sc la acq))
  simp [decLA_dabssclaacq]
theorem ldaN64 (d : BitVec 6) (a : BitVec 6) (bs : BitVec 2) (sc : Scope) (la : BitVec 4) (acq : Bool) : Statement (.ldaN64 d a bs sc la acq) := by
  intro _ h
  refine decode_of_major (major_packLA ..) ?_
  show some (decLA_dabssclaacq .ldaN64 (packLA 0x5D#8 d a bs sc.code la (encBool 2 acq))) =
    some (some (.ldaN64 d a bs sc la acq))
  simp [decLA_dabssclaacq]
theorem staN32 (d : BitVec 6) (a : BitVec 6) (bs : BitVec 2) (sc : Scope) (rel : Bool) : Statement (.staN32 d a bs sc rel) := by
  intro _ h
  refine decode_of_major (major_packLA ..) ?_
  show some (decLA_dabsscrel 0#4 .staN32 (packLA 0x5E#8 d a bs sc.code 0#4 (encRel rel))) =
    some (some (.staN32 d a bs sc rel))
  simp [decLA_dabsscrel]
theorem staN64 (d : BitVec 6) (a : BitVec 6) (bs : BitVec 2) (sc : Scope) (rel : Bool) : Statement (.staN64 d a bs sc rel) := by
  intro _ h
  refine decode_of_major (major_packLA ..) ?_
  show some (decLA_dabsscrel 0#4 .staN64 (packLA 0x5F#8 d a bs sc.code 0#4 (encRel rel))) =
    some (some (.staN64 d a bs sc rel))
  simp [decLA_dabsscrel]
theorem bra (g : Guard) (off : BitVec 18) : Statement (.bra g off) := by
  intro _ h
  refine decode_of_major (major_packLB ..) ?_
  show some (decLB_goff .bra (packLB 0x60#8 g.enc off)) =
    some (some (.bra g off))
  simp [decLB_goff]
theorem bral (g : Guard) (off : BitVec 18) : Statement (.bral g off) := by
  intro _ h
  refine decode_of_major (major_packLB ..) ?_
  show some (decLB_goff .bral (packLB 0x61#8 g.enc off)) =
    some (some (.bral g off))
  simp [decLB_goff]
theorem jmp (g : Guard) (d : BitVec 6) (a : BitVec 6) : Statement (.jmp g d a) := by
  intro _ h
  refine decode_of_major (major_packL3 ..) ?_
  show some (decL3_gda 0#6 .jmp (packL3 0x62#8 g.enc d a 0#6)) =
    some (some (.jmp g d a))
  simp [decL3_gda]
theorem ret (g : Guard) (a : BitVec 6) : Statement (.ret g a) := by
  intro _ h
  refine decode_of_major (major_packL3 ..) ?_
  show some (decL3_ga 0#6 0#6 .ret (packL3 0x63#8 g.enc 0#6 a 0#6)) =
    some (some (.ret g a))
  simp [decL3_ga]
theorem yield (g : Guard) : Statement (.yield g) := by
  intro _ h
  refine decode_of_major (major_packL3 ..) ?_
  show some (decL3_g 0#6 0#6 0#6 .yield (packL3 0x64#8 g.enc 0#6 0#6 0#6)) =
    some (some (.yield g))
  simp [decL3_g]
theorem nop (g : Guard) : Statement (.nop g) := by
  intro _ h
  refine decode_of_major (major_packL3 ..) ?_
  show some (decL3_g 0#6 0#6 0#6 .nop (packL3 0x65#8 g.enc 0#6 0#6 0#6)) =
    some (some (.nop g))
  simp [decL3_g]
theorem exit (g : Guard) : Statement (.exit g) := by
  intro _ h
  refine decode_of_major (major_packL3 ..) ?_
  show some (decL3_g 0#6 0#6 0#6 .exit (packL3 0x66#8 g.enc 0#6 0#6 0#6)) =
    some (some (.exit g))
  simp [decL3_g]
theorem hadd (g : Guard) (d : BitVec 6) (a : BitVec 6) (b : BitVec 6) : Statement (.hadd g d a b) := by
  intro _ h
  refine decode_of_major (major_packL3 ..) ?_
  show some (decL3_gdab .hadd (packL3 0x67#8 g.enc d a b)) =
    some (some (.hadd g d a b))
  simp [decL3_gdab]
theorem hfma (g : Guard) (d : BitVec 6) (a : BitVec 6) (b : BitVec 6) : Statement (.hfma g d a b) := by
  intro _ h
  refine decode_of_major (major_packL3 ..) ?_
  show some (decL3_gdab .hfma (packL3 0x68#8 g.enc d a b)) =
    some (some (.hfma g d a b))
  simp [decL3_gdab]
theorem fadd (g : Guard) (d : BitVec 6) (a : BitVec 6) (b : BitVec 6) : Statement (.fadd g d a b) := by
  intro _ h
  refine decode_of_major (major_packL3 ..) ?_
  show some (decL3_gdab .fadd (packL3 0x69#8 g.enc d a b)) =
    some (some (.fadd g d a b))
  simp [decL3_gdab]
theorem fsub (g : Guard) (d : BitVec 6) (a : BitVec 6) (b : BitVec 6) : Statement (.fsub g d a b) := by
  intro _ h
  refine decode_of_major (major_packL3 ..) ?_
  show some (decL3_gdab .fsub (packL3 0x6A#8 g.enc d a b)) =
    some (some (.fsub g d a b))
  simp [decL3_gdab]
theorem fmul (g : Guard) (d : BitVec 6) (a : BitVec 6) (b : BitVec 6) : Statement (.fmul g d a b) := by
  intro _ h
  refine decode_of_major (major_packL3 ..) ?_
  show some (decL3_gdab .fmul (packL3 0x6B#8 g.enc d a b)) =
    some (some (.fmul g d a b))
  simp [decL3_gdab]
theorem ffma (g : Guard) (d : BitVec 6) (a : BitVec 6) (b : BitVec 6) : Statement (.ffma g d a b) := by
  intro _ h
  refine decode_of_major (major_packL3 ..) ?_
  show some (decL3_gdab .ffma (packL3 0x6C#8 g.enc d a b)) =
    some (some (.ffma g d a b))
  simp [decL3_gdab]
theorem fmin (g : Guard) (d : BitVec 6) (a : BitVec 6) (b : BitVec 6) : Statement (.fmin g d a b) := by
  intro _ h
  refine decode_of_major (major_packL3 ..) ?_
  show some (decL3_gdab .fmin (packL3 0x6D#8 g.enc d a b)) =
    some (some (.fmin g d a b))
  simp [decL3_gdab]
theorem fmax (g : Guard) (d : BitVec 6) (a : BitVec 6) (b : BitVec 6) : Statement (.fmax g d a b) := by
  intro _ h
  refine decode_of_major (major_packL3 ..) ?_
  show some (decL3_gdab .fmax (packL3 0x6E#8 g.enc d a b)) =
    some (some (.fmax g d a b))
  simp [decL3_gdab]
theorem dadd (g : Guard) (d : BitVec 6) (a : BitVec 6) (b : BitVec 6) : Statement (.dadd g d a b) := by
  intro _ h
  refine decode_of_major (major_packL3 ..) ?_
  show some (decL3_gdab .dadd (packL3 0x6F#8 g.enc d a b)) =
    some (some (.dadd g d a b))
  simp [decL3_gdab]
theorem shfl (g : Guard) (d : BitVec 6) (a : BitVec 6) (b : BitVec 6) : Statement (.shfl g d a b) := by
  intro _ h
  refine decode_of_major (major_packL3 ..) ?_
  show some (decL3_gdab .shfl (packL3 0x70#8 g.enc d a b)) =
    some (some (.shfl g d a b))
  simp [decL3_gdab]
theorem shflI (g : Guard) (d : BitVec 6) (a : BitVec 6) (k : BitVec 5) : Statement (.shflI g d a k) := by
  intro _ h
  refine decode_of_major (major_packL3 ..) ?_
  show some (decL3_gdak .shflI (packL3 0x71#8 g.enc d a (pad 1 k))) =
    some (some (.shflI g d a k))
  simp [decL3_gdak]
theorem lsh (g : Guard) (d : BitVec 6) (a : BitVec 6) (b : BitVec 6) : Statement (.lsh g d a b) := by
  intro _ h
  refine decode_of_major (major_packL3 ..) ?_
  show some (decL3_gdab .lsh (packL3 0x72#8 g.enc d a b)) =
    some (some (.lsh g d a b))
  simp [decL3_gdab]
theorem lshI (g : Guard) (d : BitVec 6) (a : BitVec 6) (k : BitVec 5) : Statement (.lshI g d a k) := by
  intro _ h
  refine decode_of_major (major_packL3 ..) ?_
  show some (decL3_gdak .lshI (packL3 0x73#8 g.enc d a (pad 1 k))) =
    some (some (.lshI g d a k))
  simp [decL3_gdak]
theorem lrot (g : Guard) (d : BitVec 6) (a : BitVec 6) (b : BitVec 6) : Statement (.lrot g d a b) := by
  intro _ h
  refine decode_of_major (major_packL3 ..) ?_
  show some (decL3_gdab .lrot (packL3 0x74#8 g.enc d a b)) =
    some (some (.lrot g d a b))
  simp [decL3_gdab]
theorem lrotI (g : Guard) (d : BitVec 6) (a : BitVec 6) (k : BitVec 5) : Statement (.lrotI g d a k) := by
  intro _ h
  refine decode_of_major (major_packL3 ..) ?_
  show some (decL3_gdak .lrotI (packL3 0x75#8 g.enc d a (pad 1 k))) =
    some (some (.lrotI g d a k))
  simp [decL3_gdak]
theorem bcast (g : Guard) (d : BitVec 6) (a : BitVec 6) (b : BitVec 6) : Statement (.bcast g d a b) := by
  intro _ h
  refine decode_of_major (major_packL3 ..) ?_
  show some (decL3_gdab .bcast (packL3 0x76#8 g.enc d a b)) =
    some (some (.bcast g d a b))
  simp [decL3_gdab]
theorem bcastI (g : Guard) (d : BitVec 6) (a : BitVec 6) (k : BitVec 5) : Statement (.bcastI g d a k) := by
  intro _ h
  refine decode_of_major (major_packL3 ..) ?_
  show some (decL3_gdak .bcastI (packL3 0x77#8 g.enc d a (pad 1 k))) =
    some (some (.bcastI g d a k))
  simp [decL3_gdak]
theorem scan (g : Guard) (d : BitVec 6) (a : BitVec 6) (op : ScanOp) : Statement (.scan g d a op) := by
  intro _ h
  refine decode_of_major (major_packL3 ..) ?_
  show some (decL3_gdaop .scan (packL3 0x78#8 g.enc d a op.code)) =
    some (some (.scan g d a op))
  simp [decL3_gdaop]
theorem sample (g : Guard) (d : BitVec 6) (a : BitVec 6) (b : BitVec 6) : Statement (.sample g d a b) := by
  intro _ h
  refine decode_of_major (major_packL3 ..) ?_
  show some (decL3_gdab .sample (packL3 0x79#8 g.enc d a b)) =
    some (some (.sample g d a b))
  simp [decL3_gdab]
theorem cvtRne (g : Guard) (d : BitVec 6) (a : BitVec 6) (dst : CvtFmt) (src : CvtFmt) : Statement (.cvtRne g d a dst src) := by
  intro _ h
  refine decode_of_major (major_packL3 ..) ?_
  simp only [Instr.WellFormed, Instr.wellFormed, Bool.and_eq_true, bne_iff_ne, ne_eq] at h
  show some ((decL3_gdadstsrc .cvtRne (packL3 0x7A#8 g.enc d a (CvtFmt.encPair dst src))) <|> (decL3_gda 54#6 .cvtRneF32Q4 (packL3 0x7A#8 g.enc d a (CvtFmt.encPair dst src))) <|> (decL3_gda 63#6 .cvtRneQ4F32 (packL3 0x7A#8 g.enc d a (CvtFmt.encPair dst src)))) =
    some (some (.cvtRne g d a dst src))
  simp [decL3_gda, decL3_gdadstsrc, h]
theorem cvtRneF32Q4 (g : Guard) (d : BitVec 6) (a : BitVec 6) : Statement (.cvtRneF32Q4 g d a) := by
  intro _ h
  refine decode_of_major (major_packL3 ..) ?_
  show some ((decL3_gdadstsrc .cvtRne (packL3 0x7A#8 g.enc d a 54#6)) <|> (decL3_gda 54#6 .cvtRneF32Q4 (packL3 0x7A#8 g.enc d a 54#6)) <|> (decL3_gda 63#6 .cvtRneQ4F32 (packL3 0x7A#8 g.enc d a 54#6))) =
    some (some (.cvtRneF32Q4 g d a))
  simp [decL3_gda, decL3_gdadstsrc]
theorem cvtRneQ4F32 (g : Guard) (d : BitVec 6) (a : BitVec 6) : Statement (.cvtRneQ4F32 g d a) := by
  intro _ h
  refine decode_of_major (major_packL3 ..) ?_
  show some ((decL3_gdadstsrc .cvtRne (packL3 0x7A#8 g.enc d a 63#6)) <|> (decL3_gda 54#6 .cvtRneF32Q4 (packL3 0x7A#8 g.enc d a 63#6)) <|> (decL3_gda 63#6 .cvtRneQ4F32 (packL3 0x7A#8 g.enc d a 63#6))) =
    some (some (.cvtRneQ4F32 g d a))
  simp [decL3_gda, decL3_gdadstsrc]
theorem cvtRz (g : Guard) (d : BitVec 6) (a : BitVec 6) (dst : CvtFmt) (src : CvtFmt) : Statement (.cvtRz g d a dst src) := by
  intro _ h
  refine decode_of_major (major_packL3 ..) ?_
  simp only [Instr.WellFormed, Instr.wellFormed, Bool.and_eq_true, bne_iff_ne, ne_eq] at h
  show some (decL3_gdadstsrc .cvtRz (packL3 0x7B#8 g.enc d a (CvtFmt.encPair dst src))) =
    some (some (.cvtRz g d a dst src))
  simp [decL3_gdadstsrc, h]
theorem cvtRu (g : Guard) (d : BitVec 6) (a : BitVec 6) (dst : CvtFmt) (src : CvtFmt) : Statement (.cvtRu g d a dst src) := by
  intro _ h
  refine decode_of_major (major_packL3 ..) ?_
  simp only [Instr.WellFormed, Instr.wellFormed, Bool.and_eq_true, bne_iff_ne, ne_eq] at h
  show some (decL3_gdadstsrc .cvtRu (packL3 0x7C#8 g.enc d a (CvtFmt.encPair dst src))) =
    some (some (.cvtRu g d a dst src))
  simp [decL3_gdadstsrc, h]
theorem cvtRd (g : Guard) (d : BitVec 6) (a : BitVec 6) (dst : CvtFmt) (src : CvtFmt) : Statement (.cvtRd g d a dst src) := by
  intro _ h
  refine decode_of_major (major_packL3 ..) ?_
  simp only [Instr.WellFormed, Instr.wellFormed, Bool.and_eq_true, bne_iff_ne, ne_eq] at h
  show some (decL3_gdadstsrc .cvtRd (packL3 0x7D#8 g.enc d a (CvtFmt.encPair dst src))) =
    some (some (.cvtRd g d a dst src))
  simp [decL3_gdadstsrc, h]
theorem dmul (g : Guard) (d : BitVec 6) (a : BitVec 6) (b : BitVec 6) : Statement (.dmul g d a b) := by
  intro _ h
  refine decode_of_major (major_packL3 ..) ?_
  show some (decL3_gdab .dmul (packL3 0x7E#8 g.enc d a b)) =
    some (some (.dmul g d a b))
  simp [decL3_gdab]
theorem dfma (g : Guard) (d : BitVec 6) (a : BitVec 6) (b : BitVec 6) : Statement (.dfma g d a b) := by
  intro _ h
  refine decode_of_major (major_packL3 ..) ?_
  show some (decL3_gdab .dfma (packL3 0x7F#8 g.enc d a b)) =
    some (some (.dfma g d a b))
  simp [decL3_gdab]
theorem sadd (d : BitVec 6) (a : BitVec 6) (b : BitVec 6) : Statement (.sadd d a b) := by
  intro _ h
  refine decode_of_major (major_packL3 ..) ?_
  show some (decL3_dab 0#6 .sadd (packL3 0x81#8 d a b 0#6)) =
    some (some (.sadd d a b))
  simp [decL3_dab]
theorem ssub (d : BitVec 6) (a : BitVec 6) (b : BitVec 6) : Statement (.ssub d a b) := by
  intro _ h
  refine decode_of_major (major_packL3 ..) ?_
  show some (decL3_dab 0#6 .ssub (packL3 0x82#8 d a b 0#6)) =
    some (some (.ssub d a b))
  simp [decL3_dab]
theorem smul (d : BitVec 6) (a : BitVec 6) (b : BitVec 6) : Statement (.smul d a b) := by
  intro _ h
  refine decode_of_major (major_packL3 ..) ?_
  show some (decL3_dab 0#6 .smul (packL3 0x83#8 d a b 0#6)) =
    some (some (.smul d a b))
  simp [decL3_dab]
theorem smulh (d : BitVec 6) (a : BitVec 6) (b : BitVec 6) (uns : Bool) : Statement (.smulh d a b uns) := by
  intro _ h
  refine decode_of_major (major_packL3 ..) ?_
  show some (decL3_dabuns .smulh (packL3 0x84#8 d a b (encBool 6 uns))) =
    some (some (.smulh d a b uns))
  simp [decL3_dabuns]
theorem sand (d : BitVec 6) (a : BitVec 6) (b : BitVec 6) : Statement (.sand d a b) := by
  intro _ h
  refine decode_of_major (major_packL3 ..) ?_
  show some (decL3_dab 0#6 .sand (packL3 0x85#8 d a b 0#6)) =
    some (some (.sand d a b))
  simp [decL3_dab]
theorem sor (d : BitVec 6) (a : BitVec 6) (b : BitVec 6) : Statement (.sor d a b) := by
  intro _ h
  refine decode_of_major (major_packL3 ..) ?_
  show some (decL3_dab 0#6 .sor (packL3 0x86#8 d a b 0#6)) =
    some (some (.sor d a b))
  simp [decL3_dab]
theorem sxor (d : BitVec 6) (a : BitVec 6) (b : BitVec 6) : Statement (.sxor d a b) := by
  intro _ h
  refine decode_of_major (major_packL3 ..) ?_
  show some (decL3_dab 0#6 .sxor (packL3 0x87#8 d a b 0#6)) =
    some (some (.sxor d a b))
  simp [decL3_dab]
theorem sshl (d : BitVec 6) (a : BitVec 6) (b : BitVec 6) : Statement (.sshl d a b) := by
  intro _ h
  refine decode_of_major (major_packL3 ..) ?_
  show some (decL3_dab 0#6 .sshl (packL3 0x88#8 d a b 0#6)) =
    some (some (.sshl d a b))
  simp [decL3_dab]
theorem sshr (d : BitVec 6) (a : BitVec 6) (b : BitVec 6) : Statement (.sshr d a b) := by
  intro _ h
  refine decode_of_major (major_packL3 ..) ?_
  show some (decL3_dab 0#6 .sshr (packL3 0x89#8 d a b 0#6)) =
    some (some (.sshr d a b))
  simp [decL3_dab]
theorem ssar (d : BitVec 6) (a : BitVec 6) (b : BitVec 6) : Statement (.ssar d a b) := by
  intro _ h
  refine decode_of_major (major_packL3 ..) ?_
  show some (decL3_dab 0#6 .ssar (packL3 0x8A#8 d a b 0#6)) =
    some (some (.ssar d a b))
  simp [decL3_dab]
theorem smin (d : BitVec 6) (a : BitVec 6) (b : BitVec 6) (uns : Bool) : Statement (.smin d a b uns) := by
  intro _ h
  refine decode_of_major (major_packL3 ..) ?_
  show some (decL3_dabuns .smin (packL3 0x8B#8 d a b (encBool 6 uns))) =
    some (some (.smin d a b uns))
  simp [decL3_dabuns]
theorem smax (d : BitVec 6) (a : BitVec 6) (b : BitVec 6) (uns : Bool) : Statement (.smax d a b uns) := by
  intro _ h
  refine decode_of_major (major_packL3 ..) ?_
  show some (decL3_dabuns .smax (packL3 0x8C#8 d a b (encBool 6 uns))) =
    some (some (.smax d a b uns))
  simp [decL3_dabuns]
theorem scmp (a : BitVec 6) (b : BitVec 6) : Statement (.scmp a b) := by
  intro _ h
  refine decode_of_major (major_packL3 ..) ?_
  show some (decL3_ab 0#6 0#6 .scmp (packL3 0x8D#8 0#6 a b 0#6)) =
    some (some (.scmp a b))
  simp [decL3_ab]
theorem ssel (d : BitVec 6) (a : BitVec 6) (b : BitVec 6) (c : Cond) : Statement (.ssel d a b c) := by
  intro _ h
  refine decode_of_major (major_packL3 ..) ?_
  show some (decL3_dabc .ssel (packL3 0x8E#8 d a b (pad 2 c.code))) =
    some (some (.ssel d a b c))
  simp [decL3_dabc]
theorem smovi (d : BitVec 6) (imm : BitVec 18) : Statement (.smovi d imm) := by
  intro _ h
  refine decode_of_major (major_packGI ..) ?_
  show some (decGI_dimm .smovi (packGI 0x90#8 d imm)) =
    some (some (.smovi d imm))
  simp [decGI_dimm]
theorem smovhi (d : BitVec 6) (imm : BitVec 18) : Statement (.smovhi d imm) := by
  intro _ h
  refine decode_of_major (major_packGI ..) ?_
  show some (decGI_dimm .smovhi (packGI 0x91#8 d imm)) =
    some (some (.smovhi d imm))
  simp [decGI_dimm]
theorem saddi (d : BitVec 6) (imm : BitVec 18) : Statement (.saddi d imm) := by
  intro _ h
  refine decode_of_major (major_packGI ..) ?_
  show some (decGI_dimm .saddi (packGI 0x92#8 d imm)) =
    some (some (.saddi d imm))
  simp [decGI_dimm]
theorem lread (d : BitVec 6) (a : BitVec 6) (lane : LaneSel) : Statement (.lread d a lane) := by
  intro _ h
  refine decode_of_major (major_packL3 ..) ?_
  show some (decL3_dalane .lread (packL3 0x93#8 d a lane.encB lane.encF)) =
    some (some (.lread d a lane))
  simp [decL3_dalane]
theorem sbcast (d : BitVec 6) (a : BitVec 6) (hi : Bool) : Statement (.sbcast d a hi) := by
  intro _ h
  refine decode_of_major (major_packL3 ..) ?_
  show some (decL3_dahi 0#6 .sbcast (packL3 0x94#8 d a 0#6 (encBool 6 hi))) =
    some (some (.sbcast d a hi))
  simp [decL3_dahi]
theorem ballot (d : BitVec 6) (k : BitVec 2) (c : Cond) : Statement (.ballot d k c) := by
  intro _ h
  refine decode_of_major (major_packL3 ..) ?_
  show some (decL3_dkc 0#6 .ballot (packL3 0x95#8 d (pad 4 k) (pad 2 c.code) 0#6)) =
    some (some (.ballot d k c))
  simp [decL3_dkc]
theorem idxImm (imm : BitVec 8) : Statement (.idxImm imm) := by
  intro _ h
  refine decode_of_major (major_packGS ..) ?_
  show some ((decGS_imm 0#6 0#6 .idxImm (packGS 0x96#8 0#6 (pad 4 imm) 0#6)) <|> (decGS_d 0#12 1#6 .idxReg (packGS 0x96#8 0#6 (pad 4 imm) 0#6))) =
    some (some (.idxImm imm))
  simp [decGS_d, decGS_imm]
theorem idxReg (d : BitVec 6) : Statement (.idxReg d) := by
  intro _ h
  refine decode_of_major (major_packGS ..) ?_
  show some ((decGS_imm 0#6 0#6 .idxImm (packGS 0x96#8 d 0#12 1#6)) <|> (decGS_d 0#12 1#6 .idxReg (packGS 0x96#8 d 0#12 1#6))) =
    some (some (.idxReg d))
  simp [decGS_d, decGS_imm]
theorem prioImm (imm : BitVec 2) : Statement (.prioImm imm) := by
  intro _ h
  refine decode_of_major (major_packGS ..) ?_
  show some ((decGS_imm2 0#6 0#6 .prioImm (packGS 0x97#8 0#6 (pad 10 imm) 0#6)) <|> (decGS_d 0#12 1#6 .prioReg (packGS 0x97#8 0#6 (pad 10 imm) 0#6))) =
    some (some (.prioImm imm))
  simp [decGS_d, decGS_imm2]
theorem prioReg (d : BitVec 6) : Statement (.prioReg d) := by
  intro _ h
  refine decode_of_major (major_packGS ..) ?_
  show some ((decGS_imm2 0#6 0#6 .prioImm (packGS 0x97#8 d 0#12 1#6)) <|> (decGS_d 0#12 1#6 .prioReg (packGS 0x97#8 d 0#12 1#6))) =
    some (some (.prioReg d))
  simp [decGS_d, decGS_imm2]
theorem ubra (c : Cond) (off : BitVec 20) : Statement (.ubra c off) := by
  intro _ h
  refine decode_of_major (major_packGB ..) ?_
  show some (decGB_coff .ubra (packGB 0xA0#8 c.code off)) =
    some (some (.ubra c off))
  simp [decGB_coff]
theorem bar (n : BitVec 3) (refresh : Bool) : Statement (.bar n refresh) := by
  intro _ h
  refine decode_of_major (major_packGS ..) ?_
  show some (decGS_nrefresh 0#6 .bar (packGS 0xA1#8 0#6 (pad 9 n) (encBool 6 refresh))) =
    some (some (.bar n refresh))
  simp [decGS_nrefresh]
theorem gbar (n : BitVec 3) (refresh : Bool) : Statement (.gbar n refresh) := by
  intro _ h
  refine decode_of_major (major_packGS ..) ?_
  show some (decGS_nrefresh 0#6 .gbar (packGS 0xA2#8 0#6 (pad 9 n) (encBool 6 refresh))) =
    some (some (.gbar n refresh))
  simp [decGS_nrefresh]
theorem arrive (n : BitVec 3) (gang : Bool) : Statement (.arrive n gang) := by
  intro _ h
  refine decode_of_major (major_packGS ..) ?_
  show some (decGS_ngang 0#6 .arrive (packGS 0xA3#8 0#6 (pad 9 n) (encBools gang false))) =
    some (some (.arrive n gang))
  simp [decGS_ngang]
theorem wait (n : BitVec 3) (gang : Bool) (refresh : Bool) : Statement (.wait n gang refresh) := by
  intro _ h
  refine decode_of_major (major_packGS ..) ?_
  show some (decGS_ngangrefresh 0#6 .wait (packGS 0xA4#8 0#6 (pad 9 n) (encBools gang refresh))) =
    some (some (.wait n gang refresh))
  simp [decGS_ngangrefresh]
theorem sleep (d : BitVec 6) (a : BitVec 6) (b : BitVec 6) (n64 : Bool) (c : SleepCond) : Statement (.sleep d a b n64 c) := by
  intro _ h
  refine decode_of_major (major_packL3 ..) ?_
  show some (decL3_dabn64c .sleep (packL3 0xA5#8 d a b (encSleep n64 c))) =
    some (some (.sleep d a b n64 c))
  simp [decL3_dabn64c]
theorem refresh : Statement (.refresh ) := by
  intro _ h
  refine decode_of_major (major_packGS ..) ?_
  show some (decGS_ 0#6 0#12 0#6 .refresh (packGS 0xA6#8 0#6 0#12 0#6)) =
    some (some (.refresh ))
  simp [decGS_]
theorem rootsw (d : BitVec 6) (a : BitVec 6) (b : BitVec 6) : Statement (.rootsw d a b) := by
  intro _ h
  refine decode_of_major (major_packL3 ..) ?_
  show some (decL3_dab 0#6 .rootsw (packL3 0xA7#8 d a b 0#6)) =
    some (some (.rootsw d a b))
  simp [decL3_dab]
theorem tlbfFill (a : BitVec 6) (b : BitVec 6) : Statement (.tlbfFill a b) := by
  intro _ h
  refine decode_of_major (major_packL3 ..) ?_
  show some ((decL3_ab 0#6 0#6 .tlbfFill (packL3 0xA8#8 0#6 a b 0#6)) <|> (decL3_ab 0#6 1#6 .tlbfReq (packL3 0xA8#8 0#6 a b 0#6)) <|> (decL3_ab 0#6 2#6 .tlbfBad (packL3 0xA8#8 0#6 a b 0#6))) =
    some (some (.tlbfFill a b))
  simp [decL3_ab]
theorem tlbfReq (a : BitVec 6) (b : BitVec 6) : Statement (.tlbfReq a b) := by
  intro _ h
  refine decode_of_major (major_packL3 ..) ?_
  show some ((decL3_ab 0#6 0#6 .tlbfFill (packL3 0xA8#8 0#6 a b 1#6)) <|> (decL3_ab 0#6 1#6 .tlbfReq (packL3 0xA8#8 0#6 a b 1#6)) <|> (decL3_ab 0#6 2#6 .tlbfBad (packL3 0xA8#8 0#6 a b 1#6))) =
    some (some (.tlbfReq a b))
  simp [decL3_ab]
theorem tlbfBad (a : BitVec 6) (b : BitVec 6) : Statement (.tlbfBad a b) := by
  intro _ h
  refine decode_of_major (major_packL3 ..) ?_
  show some ((decL3_ab 0#6 0#6 .tlbfFill (packL3 0xA8#8 0#6 a b 2#6)) <|> (decL3_ab 0#6 1#6 .tlbfReq (packL3 0xA8#8 0#6 a b 2#6)) <|> (decL3_ab 0#6 2#6 .tlbfBad (packL3 0xA8#8 0#6 a b 2#6))) =
    some (some (.tlbfBad a b))
  simp [decL3_ab]
theorem trap (imm : BitVec 12) : Statement (.trap imm) := by
  intro _ h
  refine decode_of_major (major_packGS ..) ?_
  show some (decGS_imm3 0#6 0#6 .trap (packGS 0xA9#8 0#6 imm 0#6)) =
    some (some (.trap imm))
  simp [decGS_imm3]
theorem tret : Statement (.tret ) := by
  intro _ h
  refine decode_of_major (major_packGS ..) ?_
  show some (decGS_ 0#6 0#12 0#6 .tret (packGS 0xAA#8 0#6 0#12 0#6)) =
    some (some (.tret ))
  simp [decGS_]
theorem preq : Statement (.preq ) := by
  intro _ h
  refine decode_of_major (major_packGS ..) ?_
  show some (decGS_ 0#6 0#12 0#6 .preq (packGS 0xAB#8 0#6 0#12 0#6)) =
    some (some (.preq ))
  simp [decGS_]
theorem brk (imm : BitVec 12) : Statement (.brk imm) := by
  intro _ h
  refine decode_of_major (major_packGS ..) ?_
  show some (decGS_imm3 0#6 0#6 .brk (packGS 0xAC#8 0#6 imm 0#6)) =
    some (some (.brk imm))
  simp [decGS_imm3]
theorem gateArm (d : BitVec 6) : Statement (.gateArm d) := by
  intro _ h
  refine decode_of_major (major_packGS ..) ?_
  show some ((decGS_d 0#12 0#6 .gateArm (packGS 0xAD#8 d 0#12 0#6)) <|> (decGS_d 0#12 1#6 .gateCancel (packGS 0xAD#8 d 0#12 0#6))) =
    some (some (.gateArm d))
  simp [decGS_d]
theorem gateCancel (d : BitVec 6) : Statement (.gateCancel d) := by
  intro _ h
  refine decode_of_major (major_packGS ..) ?_
  show some ((decGS_d 0#12 0#6 .gateArm (packGS 0xAD#8 d 0#12 1#6)) <|> (decGS_d 0#12 1#6 .gateCancel (packGS 0xAD#8 d 0#12 1#6))) =
    some (some (.gateCancel d))
  simp [decGS_d]
theorem pmark (imm : BitVec 12) : Statement (.pmark imm) := by
  intro _ h
  refine decode_of_major (major_packGS ..) ?_
  show some ((decGS_imm3 0#6 0#6 .pmark (packGS 0xAE#8 0#6 imm 0#6)) <|> (decGS_dimm 1#6 .pmarkV (packGS 0xAE#8 0#6 imm 0#6))) =
    some (some (.pmark imm))
  simp [decGS_dimm, decGS_imm3]
theorem pmarkV (d : BitVec 6) (imm : BitVec 12) : Statement (.pmarkV d imm) := by
  intro _ h
  refine decode_of_major (major_packGS ..) ?_
  show some ((decGS_imm3 0#6 0#6 .pmark (packGS 0xAE#8 d imm 1#6)) <|> (decGS_dimm 1#6 .pmarkV (packGS 0xAE#8 d imm 1#6))) =
    some (some (.pmarkV d imm))
  simp [decGS_dimm, decGS_imm3]
theorem sld (d : BitVec 6) (a : BitVec 6) (off : BitVec 8) (la : BitVec 4) : Statement (.sld d a off la) := by
  intro _ h
  refine decode_of_major (major_packGM ..) ?_
  show some (decGM_daoffla .sld (packGM 0xB0#8 d a off la)) =
    some (some (.sld d a off la))
  simp [decGM_daoffla]
theorem sst (d : BitVec 6) (a : BitVec 6) (off : BitVec 8) : Statement (.sst d a off) := by
  intro _ h
  refine decode_of_major (major_packGM ..) ?_
  show some (decGM_daoff 0#4 .sst (packGM 0xB1#8 d a off 0#4)) =
    some (some (.sst d a off))
  simp [decGM_daoff]
theorem fence (kind : FenceKind) (sc : Scope) : Statement (.fence kind sc) := by
  intro _ h
  refine decode_of_major (major_packGS ..) ?_
  show some (decGS_kindsc 0#6 0#6 .fence (packGS 0xB2#8 0#6 (FenceKind.encScope kind sc) 0#6)) =
    some (some (.fence kind sc))
  simp [decGS_kindsc]
theorem copy (tid : BitVec 8) (ch : BitVec 3) (s : BitVec 6) (la : BitVec 4) (var : CopyVar) : Statement (.copy tid ch s la var) := by
  intro _ h
  refine decode_of_major (major_packGE ..) ?_
  simp only [Instr.WellFormed, Instr.wellFormed, Bool.and_eq_true, bne_iff_ne, ne_eq] at h
  show some (decGE_tidchslavar .copy (packGE 0xC0#8 tid (pad 1 ch) s la var.code)) =
    some (some (.copy tid ch s la var))
  simp [decGE_tidchslavar, h]
theorem chain (ch : BitVec 3) (s : BitVec 6) (la : BitVec 4) : Statement (.chain ch s la) := by
  intro _ h
  refine decode_of_major (major_packGE ..) ?_
  simp only [Instr.WellFormed, Instr.wellFormed, Bool.and_eq_true, bne_iff_ne, ne_eq] at h
  show some (decGE_chsla 0#8 0#2 .chain (packGE 0xC1#8 0#8 (pad 1 ch) s la 0#2)) =
    some (some (.chain ch s la))
  simp [decGE_chsla, h]
theorem chwp (sc : Scope) (ch : BitVec 3) (s : BitVec 6) (la : BitVec 4) (acq : Bool) : Statement (.chwp sc ch s la acq) := by
  intro _ h
  refine decode_of_major (major_packGE ..) ?_
  simp only [Instr.WellFormed, Instr.wellFormed, Bool.and_eq_true, bne_iff_ne, ne_eq] at h
  show some (decGE_scchslaacq .chwp (packGE 0xC2#8 (pad 4 sc.code) (pad 1 ch) s la (encBool 2 acq))) =
    some (some (.chwp sc ch s la acq))
  simp [decGE_scchslaacq, h]
theorem publ (tid : BitVec 8) (s : BitVec 6) (la : BitVec 4) : Statement (.publ tid s la) := by
  intro _ h
  refine decode_of_major (major_packGE ..) ?_
  show some (decGE_tidsla 0#4 0#2 .publ (packGE 0xC3#8 tid 0#4 s la 0#2)) =
    some (some (.publ tid s la))
  simp [decGE_tidsla]
theorem rput (ring : BitVec 4) (s : BitVec 6) (la : BitVec 4) : Statement (.rput ring s la) := by
  intro _ h
  refine decode_of_major (major_packGE ..) ?_
  show some (decGE_ringsla 0#4 0#2 .rput (packGE 0xC4#8 (pad 4 ring) 0#4 s la 0#2)) =
    some (some (.rput ring s la))
  simp [decGE_ringsla]
theorem rtake (ring : BitVec 4) (s : BitVec 6) (la : BitVec 4) : Statement (.rtake ring s la) := by
  intro _ h
  refine decode_of_major (major_packGE ..) ?_
  simp only [Instr.WellFormed, Instr.wellFormed, Bool.and_eq_true, bne_iff_ne, ne_eq] at h
  show some (decGE_ringsla2 0#4 0#2 .rtake (packGE 0xC5#8 (pad 4 ring) 0#4 s la 0#2)) =
    some (some (.rtake ring s la))
  simp [decGE_ringsla2, h]
theorem tld (tid : BitVec 8) (tile : BitVec 3) (s : BitVec 6) (la : BitVec 4) : Statement (.tld tid tile s la) := by
  intro _ h
  refine decode_of_major (major_packGE ..) ?_
  simp only [Instr.WellFormed, Instr.wellFormed, Bool.and_eq_true, bne_iff_ne, ne_eq] at h
  show some (decGE_tidtilesla 0#2 .tld (packGE 0xC6#8 tid (pad 1 tile) s la 0#2)) =
    some (some (.tld tid tile s la))
  simp [decGE_tidtilesla, h]
theorem wld (tid : BitVec 8) (s : BitVec 6) (la : BitVec 4) (x24 : Bool) : Statement (.wld tid s la x24) := by
  intro _ h
  refine decode_of_major (major_packGE ..) ?_
  simp only [Instr.WellFormed, Instr.wellFormed, Bool.and_eq_true, bne_iff_ne, ne_eq] at h
  show some (decGE_tidslax24 0#4 .wld (packGE 0xC7#8 tid 0#4 s la (encBool 2 x24))) =
    some (some (.wld tid s la x24))
  simp [decGE_tidslax24, h]
theorem mma (fmt : MmaFmt) (tile : BitVec 3) (acc : BitVec 3) (s : BitVec 6) (la : BitVec 4) (bs : Bool) : Statement (.mma fmt tile acc s la bs) := by
  intro _ h
  refine decode_of_major (major_packGE ..) ?_
  simp only [Instr.WellFormed, Instr.wellFormed, Bool.and_eq_true, bne_iff_ne, ne_eq] at h
  show some (decGE_fmttileaccslabs .mma (packGE 0xC8#8 (MmaFmt.encTile fmt tile) (pad 1 acc) s la (encBool 2 bs))) =
    some (some (.mma fmt tile acc s la bs))
  simp [decGE_fmttileaccslabs, h]
theorem azero (acc : BitVec 3) (s : BitVec 6) (la : BitVec 4) (f64 : Bool) : Statement (.azero acc s la f64) := by
  intro _ h
  refine decode_of_major (major_packGE ..) ?_
  show some (decGE_accslaf64 0#8 .azero (packGE 0xC9#8 0#8 (pad 1 acc) s la (encBool 2 f64))) =
    some (some (.azero acc s la f64))
  simp [decGE_accslaf64]
theorem ast (tid : BitVec 8) (acc : BitVec 3) (s : BitVec 6) (la : BitVec 4) (bs : Bool) : Statement (.ast tid acc s la bs) := by
  intro _ h
  refine decode_of_major (major_packGE ..) ?_
  simp only [Instr.WellFormed, Instr.wellFormed, Bool.and_eq_true, bne_iff_ne, ne_eq] at h
  show some (decGE_tidaccslabs .ast (packGE 0xCA#8 tid (pad 1 acc) s la (encBool 2 bs))) =
    some (some (.ast tid acc s la bs))
  simp [decGE_tidaccslabs, h]
theorem blsub (n : BitVec 8) (slot : BitVec 4) (s : BitVec 6) (la : BitVec 4) : Statement (.blsub n slot s la) := by
  intro _ h
  refine decode_of_major (major_packGE ..) ?_
  simp only [Instr.WellFormed, Instr.wellFormed, Bool.and_eq_true, bne_iff_ne, ne_eq] at h
  show some (decGE_nslotsla 0#2 .blsub (packGE 0xCB#8 n slot s la 0#2)) =
    some (some (.blsub n slot s la))
  simp [decGE_nslotsla, h]
theorem blcol (slot : BitVec 4) (s : BitVec 6) (la : BitVec 4) : Statement (.blcol slot s la) := by
  intro _ h
  refine decode_of_major (major_packGE ..) ?_
  simp only [Instr.WellFormed, Instr.wellFormed, Bool.and_eq_true, bne_iff_ne, ne_eq] at h
  show some (decGE_slotsla 0#8 0#2 .blcol (packGE 0xCC#8 0#8 slot s la 0#2)) =
    some (some (.blcol slot s la))
  simp [decGE_slotsla, h]
theorem qcast (s : BitVec 6) (la : BitVec 4) : Statement (.qcast s la) := by
  intro _ h
  refine decode_of_major (major_packGE ..) ?_
  simp only [Instr.WellFormed, Instr.wellFormed, Bool.and_eq_true, bne_iff_ne, ne_eq] at h
  show some (decGE_sla 0#8 0#4 0#2 .qcast (packGE 0xCD#8 0#8 0#4 s la 0#2)) =
    some (some (.qcast s la))
  simp [decGE_sla, h]
theorem creduce (s : BitVec 6) (la : BitVec 4) : Statement (.creduce s la) := by
  intro _ h
  refine decode_of_major (major_packGE ..) ?_
  simp only [Instr.WellFormed, Instr.wellFormed, Bool.and_eq_true, bne_iff_ne, ne_eq] at h
  show some (decGE_sla 0#8 0#4 0#2 .creduce (packGE 0xCE#8 0#8 0#4 s la 0#2)) =
    some (some (.creduce s la))
  simp [decGE_sla, h]
theorem tidset (tid : BitVec 8) (s : BitVec 6) (la : BitVec 4) : Statement (.tidset tid s la) := by
  intro _ h
  refine decode_of_major (major_packGE ..) ?_
  simp only [Instr.WellFormed, Instr.wellFormed, Bool.and_eq_true, bne_iff_ne, ne_eq] at h
  show some (decGE_tidsla2 0#4 0#2 .tidset (packGE 0xCF#8 tid 0#4 s la 0#2)) =
    some (some (.tidset tid s la))
  simp [decGE_tidsla2, h]
theorem tidget (tid : BitVec 8) (s : BitVec 6) (la : BitVec 4) : Statement (.tidget tid s la) := by
  intro _ h
  refine decode_of_major (major_packGE ..) ?_
  simp only [Instr.WellFormed, Instr.wellFormed, Bool.and_eq_true, bne_iff_ne, ne_eq] at h
  show some (decGE_tidsla2 0#4 0#2 .tidget (packGE 0xD0#8 tid 0#4 s la 0#2)) =
    some (some (.tidget tid s la))
  simp [decGE_tidsla2, h]
theorem stins (tid : BitVec 8) (s : BitVec 6) (la : BitVec 4) : Statement (.stins tid s la) := by
  intro _ h
  refine decode_of_major (major_packGE ..) ?_
  simp only [Instr.WellFormed, Instr.wellFormed, Bool.and_eq_true, bne_iff_ne, ne_eq] at h
  show some (decGE_tidsla2 0#4 0#2 .stins (packGE 0xD1#8 tid 0#4 s la 0#2)) =
    some (some (.stins tid s la))
  simp [decGE_tidsla2, h]
theorem stlook (tid : BitVec 8) (s : BitVec 6) (la : BitVec 4) : Statement (.stlook tid s la) := by
  intro _ h
  refine decode_of_major (major_packGE ..) ?_
  simp only [Instr.WellFormed, Instr.wellFormed, Bool.and_eq_true, bne_iff_ne, ne_eq] at h
  show some (decGE_tidsla2 0#4 0#2 .stlook (packGE 0xD2#8 tid 0#4 s la 0#2)) =
    some (some (.stlook tid s la))
  simp [decGE_tidsla2, h]
theorem kvres (tid : BitVec 8) (s : BitVec 6) (la : BitVec 4) : Statement (.kvres tid s la) := by
  intro _ h
  refine decode_of_major (major_packGE ..) ?_
  simp only [Instr.WellFormed, Instr.wellFormed, Bool.and_eq_true, bne_iff_ne, ne_eq] at h
  show some (decGE_tidsla2 0#4 0#2 .kvres (packGE 0xD3#8 tid 0#4 s la 0#2)) =
    some (some (.kvres tid s la))
  simp [decGE_tidsla2, h]
theorem sread (d : BitVec 6) (reg : SpecReg) (vec : Bool) : Statement (.sread d reg vec) := by
  intro _ h
  refine decode_of_major (major_packGS ..) ?_
  show some (decGS_dregvec .sread (packGS 0xF0#8 d reg.code (encBool 6 vec))) =
    some (some (.sread d reg vec))
  simp [decGS_dregvec]
theorem swrite (d : BitVec 6) (reg : WSpecReg) : Statement (.swrite d reg) := by
  intro _ h
  refine decode_of_major (major_packGS ..) ?_
  show some (decGS_dreg 0#6 .swrite (packGS 0xF1#8 d reg.code 0#6)) =
    some (some (.swrite d reg))
  simp [decGS_dreg]
theorem stamp (d : BitVec 6) (ord : Bool) : Statement (.stamp d ord) := by
  intro _ h
  refine decode_of_major (major_packGS ..) ?_
  show some (decGS_dord 0#12 .stamp (packGS 0xF2#8 d 0#12 (encBool 6 ord))) =
    some (some (.stamp d ord))
  simp [decGS_dord]
theorem reset : Statement (.reset ) := fun h => by cases h
theorem image (off : Nat) (data : List Byte) : Statement (.image off data) := fun h => by cases h
theorem boot : Statement (.boot ) := fun h => by cases h
theorem config (off : Nat) (data : List Byte) : Statement (.config off data) := fun h => by cases h
theorem attest (nonce : List Byte) : Statement (.attest nonce) := fun h => by cases h
theorem vlog : Statement (.vlog ) := fun h => by cases h
theorem queueCreate (q : Nat) (ring : Nat) (size : Nat) (qgroup : Nat) (flags : BitVec 16) (rcb : Nat) (readAddr : Nat) (wake : Nat) : Statement (.queueCreate q ring size qgroup flags rcb readAddr wake) := fun h => by cases h
theorem queueMap (q : Nat) (hwSlot : Nat) : Statement (.queueMap q hwSlot) := fun h => by cases h
theorem queueDelete (q : Nat) : Statement (.queueDelete q) := fun h => by cases h
theorem regionSuspend (rcb : Nat) : Statement (.regionSuspend rcb) := fun h => by cases h
theorem regionResume (rcb : Nat) : Statement (.regionResume rcb) := fun h => by cases h
theorem regionKill (rcb : Nat) : Statement (.regionKill rcb) := fun h => by cases h
theorem install (rcb : Nat) (word : BitVec 64) (gen : BitVec 16) : Statement (.install rcb word gen) := fun h => by cases h
theorem hold (rcb : Nat) (slot : Nat) (gen : BitVec 16) : Statement (.hold rcb slot gen) := fun h => by cases h
theorem unhold (rcb : Nat) (slot : Nat) (gen : BitVec 16) : Statement (.unhold rcb slot gen) := fun h => by cases h
theorem release (nodes : List Nat) : Statement (.release nodes) := fun h => by cases h
theorem passign (slot : Nat) (rcb : Nat) : Statement (.passign slot rcb) := fun h => by cases h
theorem pfree (slot : Nat) : Statement (.pfree slot) := fun h => by cases h
theorem answer (id : Nat) (code : Nat) (slot : Nat) : Statement (.answer id code slot) := fun h => by cases h
theorem importSet (slot : Nat) (entry : BitVec 128) : Statement (.importSet slot entry) := fun h => by cases h
theorem exportSet (slot : Nat) (entry : BitVec 512) : Statement (.exportSet slot entry) := fun h => by cases h
theorem profile (part : Nat) (snap : Nat) (ctl : Nat) (ring : Nat) (bytes : Nat) : Statement (.profile part snap ctl ring bytes) := fun h => by cases h
theorem debugAttach (rcb : Nat) : Statement (.debugAttach rcb) := fun h => by cases h
theorem debugComparatorWrite (k : Nat) (w : BitVec 128) : Statement (.debugComparatorWrite k w) := fun h => by cases h
theorem debugResume (grp : Nat) (stepOne : Bool) : Statement (.debugResume grp stepOne) := fun h => by cases h
theorem debugReadAccumulator (grp : Nat) (acc : BitVec 3) (buf : Nat) : Statement (.debugReadAccumulator grp acc buf) := fun h => by cases h
theorem debugDetach : Statement (.debugDetach ) := fun h => by cases h
theorem freeze : Statement (.freeze ) := fun h => by cases h
theorem freezeDump (buf : Nat) : Statement (.freezeDump buf) := fun h => by cases h
theorem freezeThaw : Statement (.freezeThaw ) := fun h => by cases h
theorem replayRecord (rcb : Nat) (list : BitVec 64) (count : Nat) (log : BitVec 64) (bytes : Nat) : Statement (.replayRecord rcb list count log bytes) := fun h => by cases h
theorem replayArm (rcb : Nat) (list : BitVec 64) (count : Nat) (log : BitVec 64) (bytes : Nat) : Statement (.replayArm rcb list count log bytes) := fun h => by cases h
theorem replayEnd (rcb : Nat) : Statement (.replayEnd rcb) := fun h => by cases h
theorem notifyWrite (q : Nat) (v : BitVec 64) : Statement (.notifyWrite q v) := fun h => by cases h
theorem eventWrite (v : BitVec 64) : Statement (.eventWrite v) := fun h => by cases h
theorem ntailWrite (v : BitVec 64) : Statement (.ntailWrite v) := fun h => by cases h
theorem registerWrite (off : Nat) (v : BitVec 64) : Statement (.registerWrite off v) := fun h => by cases h
theorem queueSlotMap (q : Nat) (hwSlot : Nat) : Statement (.queueSlotMap q hwSlot) := fun h => by cases h
theorem queueSlotUnmap (q : Nat) : Statement (.queueSlotUnmap q) := fun h => by cases h
theorem launchPacket (q : Nat) : Statement (.launchPacket q) := fun h => by cases h
theorem graphPacket (q : Nat) : Statement (.graphPacket q) := fun h => by cases h
theorem waitPacket (q : Nat) : Statement (.waitPacket q) := fun h => by cases h
theorem waitConditionMet (pkt : Nat) : Statement (.waitConditionMet pkt) := fun h => by cases h
theorem regionRegister (q : Nat) : Statement (.regionRegister q) := fun h => by cases h
theorem regionUpdate (q : Nat) : Statement (.regionUpdate q) := fun h => by cases h
theorem regionUnregister (q : Nat) : Statement (.regionUnregister q) := fun h => by cases h
theorem kvTableSet (q : Nat) : Statement (.kvTableSet q) := fun h => by cases h
theorem launchStart (launch : Nat) : Statement (.launchStart launch) := fun h => by cases h
theorem gangClaim (launch : Nat) (die : Nat) : Statement (.gangClaim launch die) := fun h => by cases h
theorem gangPlace (launch : Nat) (die : Nat) : Statement (.gangPlace launch die) := fun h => by cases h
theorem launchComplete (launch : Nat) : Statement (.launchComplete launch) := fun h => by cases h
theorem loopIteration (pkt : Nat) : Statement (.loopIteration pkt) := fun h => by cases h
theorem groupActivate (grp : Nat) : Statement (.groupActivate grp) := fun h => by cases h
theorem groupEvict (grp : Nat) : Statement (.groupEvict grp) := fun h => by cases h
theorem parkThreshold (grp : Nat) : Statement (.parkThreshold grp) := fun h => by cases h
theorem parkComplete (grp : Nat) : Statement (.parkComplete grp) := fun h => by cases h
theorem fairnessLimit (grp : Nat) : Statement (.fairnessLimit grp) := fun h => by cases h
theorem progressWaitLimit (grp : Nat) : Statement (.progressWaitLimit grp) := fun h => by cases h
theorem watchdog (grp : Nat) : Statement (.watchdog grp) := fun h => by cases h
theorem preemptRequest (gang : Nat) : Statement (.preemptRequest gang) := fun h => by cases h
theorem noticeDeadline (gang : Nat) : Statement (.noticeDeadline gang) := fun h => by cases h
theorem gangParkComplete (gang : Nat) : Statement (.gangParkComplete gang) := fun h => by cases h
theorem gangResume (gang : Nat) (cluster : Nat) : Statement (.gangResume gang cluster) := fun h => by cases h
theorem trapEntry (grp : Nat) : Statement (.trapEntry grp) := fun h => by cases h
theorem valueLands (grp : Nat) (seq : Nat) : Statement (.valueLands grp seq) := fun h => by cases h
theorem lineFill (grp : Nat) (line : Nat) : Statement (.lineFill grp line) := fun h => by cases h
theorem storeQueueDepart (grp : Nat) : Statement (.storeQueueDepart grp) := fun h => by cases h
theorem homeAccessPerform (grp : Nat) (seq : Nat) (idx : Nat) (reply : Reply) : Statement (.homeAccessPerform grp seq idx reply) := fun h => by cases h
theorem walkStart (core : Nat) : Statement (.walkStart core) := fun h => by cases h
theorem walkerInstructionLimit (core : Nat) : Statement (.walkerInstructionLimit core) := fun h => by cases h
theorem logEntryReplay (grp : Nat) (seq : Nat) : Statement (.logEntryReplay grp seq) := fun h => by cases h
theorem slotReclaim (rcb : Nat) (slot : Nat) : Statement (.slotReclaim rcb slot) := fun h => by cases h
theorem rootswStep (grp : Nat) : Statement (.rootswStep grp) := fun h => by cases h
theorem sleepWake (grp : Nat) (pc : BitVec 56) (reply : Reply) : Statement (.sleepWake grp pc reply) := fun h => by cases h
theorem publInstant (grp : Nat) (seq : Nat) : Statement (.publInstant grp seq) := fun h => by cases h
theorem engineCommandStart (grp : Nat) (seq : Nat) : Statement (.engineCommandStart grp seq) := fun h => by cases h
theorem engineCommandComplete (grp : Nat) (seq : Nat) (ext : EngineReply) : Statement (.engineCommandComplete grp seq ext) := fun h => by cases h
theorem chainRecord (grp : Nat) (seq : Nat) (ext : EngineReply) : Statement (.chainRecord grp seq ext) := fun h => by cases h
theorem groupRetire (grp : Nat) : Statement (.groupRetire grp) := fun h => by cases h
theorem gateTimeout (rcb : Nat) : Statement (.gateTimeout rcb) := fun h => by cases h
theorem pcComparatorMatch (grp : Nat) : Statement (.pcComparatorMatch grp) := fun h => by cases h
theorem profilingInterval : Statement (.profilingInterval ) := fun h => by cases h
theorem pcSample (core : Nat) (part : Nat) : Statement (.pcSample core part) := fun h => by cases h
theorem ingressRequest (req : PeerRequest) : Statement (.ingressRequest req) := fun h => by cases h
theorem portBringUp (port : Nat) (peer : BitVec 22) (ok : Bool) : Statement (.portBringUp port peer ok) := fun h => by cases h
theorem portLoss (port : Nat) : Statement (.portLoss port) := fun h => by cases h
theorem linkKeyRenewal (port : Nat) : Statement (.linkKeyRenewal port) := fun h => by cases h
theorem ptpEvent (message : PtpMessage) : Statement (.ptpEvent message) := fun h => by cases h
theorem powerThrottle (reading : PowerReading) : Statement (.powerThrottle reading) := fun h => by cases h
theorem thermalHalt (celsius : Nat) : Statement (.thermalHalt celsius) := fun h => by cases h
theorem i3cResetRequest : Statement (.i3cResetRequest ) := fun h => by cases h
theorem uncorrectableError (cluster : Nat) (core : Option Nat) : Statement (.uncorrectableError cluster core) := fun h => by cases h
theorem shareWindowEnd : Statement (.shareWindowEnd ) := fun h => by cases h
theorem ptpReferenceLoss : Statement (.ptpReferenceLoss ) := fun h => by cases h

end Sys2Proof.Laws.RoundTrip
end

