-- ==== Sys2Proof/Safety.lean ====
section
/-!
DEFINITION. What a safe run is, and the terms that the statements about the machine are written in: a word that its issue finds
fit, a completion, and what a lane, pair, flag or uniform write leaves.
-/

namespace Sys2Proof

/-- The step from s does not stop: it is neither a fault nor a refusal. -/
def StepSafe (s : Machine.State) : Prop := ∃ t, Machine.step s = .next t

/-- No step of the first n from s stops. -/
def SafeRun : Nat → Machine.State → Prop
  | 0, _ => True
  | n + 1, s => ∃ t, Machine.step s = .next t ∧ SafeRun n t

end Sys2Proof

namespace Sys2Proof.Machine

/-! ## A word at its issue -/

/-- The group as the issue of i leaves it before i acts: values of ended windows moved, the other windows counted (07: R146). -/
abbrev Group.atIssue (g : Group) (i : Instr) (is : Issue) : Group := g.settle i.closes is.mask

/-- The word i stands in the issue slot for a set of group g; no check of 07: R137 traps it, and the landing lines suffice for it
(02: R56). -/
abbrev Fits (s : State) (i : Instr) (is : Issue) (g : Group) : Prop :=
  s.issue = some is ∧ Table.get? s.groups is.grp = some g
    ∧ s.wordTrap i is.mask (g.moves i.closes is.mask) = none
    ∧ (g.moves i.closes is.mask).room i = true ∧ (g.atIssue i is).room i = true

/-- Nothing outside group k differs: no other group, no byte of memory, no other part of the state. -/
def OnlyGroup (s t : State) (k : Nat) : Prop :=
  { t with groups := s.groups } = s ∧ (∀ j, j ≠ k → Table.get? t.groups j = Table.get? s.groups j)
    ∧ ∀ a, t.mem.byte a = s.mem.byte a

/-- The word i completes: exec answers a next state in which only its group has changed, and its group satisfies P. -/
def Completes (s : State) (i : Instr) (is : Issue) (P : Group → Prop) : Prop :=
  ∃ t h, exec i s = .next t ∧ Table.get? t.groups is.grp = some h ∧ OnlyGroup s t is.grp ∧ P h

/-- Every lane of the set stands at the next word, every other lane where it stood. -/
def GoesOn (is : Issue) (g h : Group) : Prop :=
  ∀ l, l < 32 → h.pc l = if has is.mask l = true then (is.pc + 4#56).setWidth 64 else g.pc l

/-- The lanes of the set whose guard passes (07: R143). -/
abbrev takes (gd : Guard) (is : Issue) (g : Group) (l : Nat) : Bool := has is.mask l && g.guard gd l

/-- Every lane of the set. -/
abbrev every (is : Issue) (_ : Group) (l : Nat) : Bool := has is.mask l

/-! ## What a write leaves -/

/-- One vector register is written in some lanes; every other register and lane, every flag and every other part of the group is as
it was; the set goes on. -/
def LaneWrites (is : Issue) (g h : Group) (who : Nat → Bool) (d : BitVec 6) (val : Nat → BitVec 32) : Prop :=
  (∀ n l, l < 32 → h.vreg n l = if g.eff d = some n ∧ who l = true then val l else g.vreg n l) ∧ GoesOn is g h
    ∧ { h with regs := { h.regs with v := g.regs.v }, ctl := { h.ctl with pcs := g.ctl.pcs } } = g

/-- A pair is written in some lanes, the low half in the register named and the high half in the next (02: R42). -/
def PairWrites (is : Issue) (g h : Group) (who : Nat → Bool) (d : BitVec 6) (val : Nat → BitVec 64) : Prop :=
  (∀ n l, l < 32 → h.vreg n l =
    if g.eff d = some n ∧ who l = true then BitVec.ofNat 32 (val l).toNat
    else if (g.eff d).map (· + 1) = some n ∧ who l = true then BitVec.ofNat 32 ((val l).toNat / 2 ^ 32)
    else g.vreg n l) ∧ GoesOn is g h
    ∧ { h with regs := { h.regs with v := g.regs.v }, ctl := { h.ctl with pcs := g.ctl.pcs } } = g

/-- One condition register is written in some lanes; the other three and the other lanes keep their flags. -/
def FlagWrites (is : Issue) (g h : Group) (who : Nat → Bool) (k : BitVec 2) (val : Nat → BitVec 4) : Prop :=
  (∀ j l, l < 32 → cregGet (h.cond l) j = if j = k ∧ who l = true then val l else cregGet (g.cond l) j) ∧ GoesOn is g h
    ∧ { h with regs := { h.regs with c := g.regs.c }, ctl := { h.ctl with pcs := g.ctl.pcs } } = g

/-- One uniform register is written, sz discarding the value; the rest of the group is as it was and the set goes on. -/
def UniWrites (is : Issue) (g h : Group) (d : BitVec 6) (x : BitVec 64) : Prop :=
  (∀ n, h.sreg n = if d ≠ 63#6 ∧ n = d.toNat then x else g.sreg n) ∧ GoesOn is g h
    ∧ { h with regs := { h.regs with s := g.regs.s }, ctl := { h.ctl with pcs := g.ctl.pcs } } = g

/-- Nothing of the group but the program counters of its set has changed. -/
def OnlyGoesOn (is : Issue) (g h : Group) : Prop := GoesOn is g h ∧ { h with ctl := { h.ctl with pcs := g.ctl.pcs } } = g

/-- A result waits in landing lines for vector register n and the width - 1 next ones, in every lane of the set, behind a window of
la instructions (02: R56, 07: R145); the registers keep their old values. The other landing lines in use have moved together first when
no run of width free ones stood (log 72). -/
def LongPends (is : Issue) (g h : Group) (n width : Nat) (la : BitVec 4) (val : Nat → Nat → BitVec 32) : Prop :=
  (∃ slot line, slot < 8 ∧ line + width ≤ 8 ∧ Table.get? (g.clearLines width).fl.pend slot = none
    ∧ Table.get? h.fl.pend slot = some ⟨false, n, width, line, is.mask, is.mask, la.toNat, true⟩
    ∧ (∀ k, k ≠ slot → Table.get? h.fl.pend k = Table.get? (g.clearLines width).fl.pend k)
    ∧ (∀ e ∈ (g.clearLines width).fl.pend, ∀ j, j < width → ¬ (e.2.line ≤ line + j ∧ line + j < e.2.line + e.2.width))
    ∧ (∀ l j, l < 32 → j < width → has is.mask l = true → h.landingWord (line + j) l = val l j)
    ∧ ∀ m k, k < 32 → m < line ∨ line + width ≤ m → h.landingWord m k = (g.clearLines width).landingWord m k)
  ∧ GoesOn is g h
  ∧ { h with fl := { h.fl with pend := g.fl.pend, landing := g.fl.landing }, ctl := { h.ctl with pcs := g.ctl.pcs } } = g

/-! ## Memory words -/

/-- A pending destination has been opened for some lanes: its descriptor names the registers, the lanes and the window; the registers
keep their old values until it lands (02: R56). The other landing lines in use have moved together first when no run of width free ones stood
(log 72). -/
def Opens (g h : Group) (slot : Nat) (uniform : Bool) (n width : Nat) (set : BitVec 32) (who : Nat → Bool) (la : BitVec 4) : Prop :=
  ∃ line lanes, slot < 8 ∧ line + width ≤ 8 ∧ Table.get? (g.clearLines width).fl.pend slot = none
    ∧ Table.get? h.fl.pend slot = some ⟨uniform, n, width, line, set, lanes, la.toNat, false⟩
    ∧ (∀ l, l < 32 → has lanes l = who l)
    ∧ ∀ k, k ≠ slot → Table.get? h.fl.pend k = Table.get? (g.clearLines width).fl.pend k

/-- A memory word of the set goes in flight as operation o, at the next place in program order: what it does, its order and scope, and
for each lane that takes part, in ascending order, its accesses, their virtual addresses and their place in the lane's thread, none of
them performed (04: R79, 11: R205, 17: R304). -/
def InFlight (is : Issue) (g : Group) (o : MemOp) (kind : MemKind) (ord : Ord) (scope : Scope) (who : Nat → Bool) (size : Nat)
    (addr : Nat → BitVec 64) : Prop :=
  o.seq = g.fl.nextSeq ∧ o.pc = is.pc ∧ o.set = is.mask ∧ o.kind = kind ∧ o.ord = ord ∧ o.scope = scope
    ∧ o.slot = g.pinSlot ∧ o.gen = g.pinGen ∧ (o.queue = if kind.writes then .queued else .none)
    ∧ o.accs.map (fun a => (a.lane, a.size, a.va, a.done, a.ordinal)) =
      ((List.range 32).filter who).flatMap fun l =>
        if size = 16 then [(l, 8, addr l, false, Table.getD g.fl.ordinals l 0), (l, 8, addr l + 8#64, false, Table.getD g.fl.ordinals l 0)]
        else [(l, size, addr l, false, Table.getD g.fl.ordinals l 0)]

/-- A memory word has been issued: no register, flag or byte of memory has changed, no other group, launch or gang; the set goes on,
the lanes that take part have counted the word, and the operation stands last among those in flight. -/
def MemIssued (s t : State) (is : Issue) (g h : Group) (who : Nat → Bool) (o : Option MemOp) : Prop :=
  (∀ j, j ≠ is.grp → Table.get? t.groups j = Table.get? s.groups j) ∧ (∀ a, t.mem.byte a = s.mem.byte a)
    ∧ t.launches = s.launches ∧ t.gangs = s.gangs ∧ GoesOn is g h
    ∧ { h with fl := g.fl, ctl := { h.ctl with pcs := g.ctl.pcs } } = g
    ∧ h.fl.ops = g.fl.ops ++ o.toList ∧ h.fl.nextSeq = g.fl.nextSeq + 1
    ∧ (∀ l, l < 32 → Table.getD h.fl.ordinals l 0 = Table.getD g.fl.ordinals l 0 + (who l).toNat)
    ∧ h.fl.hash = g.fl.hash ∧ h.fl.cmds = g.fl.cmds ∧ h.fl.roots = g.fl.roots ∧ h.fl.sleepers = g.fl.sleepers

/-- Whenever i fits and each lane that takes part passes the checks of its address (11: R206), i completes: its operation goes in flight
with data that fit P, and the w registers from d, when there are any and d is not vz, become pending. -/
def MemWordOp (i : Instr) (who : Issue → Group → Nat → Bool) (kind : MemKind) (ord : Ord) (scope : Scope) (size : Nat)
    (addr : Group → Nat → BitVec 64) (d : BitVec 6) (w : Nat) (la : BitVec 4) (P : Group → LaneAcc → Prop) : Prop :=
  ∀ s is g₀, Fits s i is g₀ →
    let g := g₀.atIssue i is
    (∀ l, l < 32 → who is g l = true → ∃ st, s.startAccess g kind.writes size (addr g l) = .ok st) →
    ∃ t h o, exec i s = .next t ∧ Table.get? t.groups is.grp = some h ∧ MemIssued s t is g h (who is g) o
      ∧ (∀ x, o = some x → InFlight is g x kind ord scope (who is g) size (addr g) ∧ ∀ a ∈ x.accs, P g a)
      ∧ (match g.eff d with
        | some n =>
          if w = 0 then h.fl.pend = g.fl.pend ∧ (o = none ↔ ∀ l, l < 32 → who is g l = false)
          else ∃ x slot, o = some x ∧ x.pend = some slot ∧ Opens g h slot false n w is.mask (who is g) la
        | none => h.fl.pend = g.fl.pend ∧ (o = none ↔ ∀ l, l < 32 → who is g l = false))

/-! ## Words of one shape -/

/-- Whenever i fits, it completes and writes val to d in the lanes named. -/
def LaneOp (i : Instr) (who : Issue → Group → Nat → Bool) (d : BitVec 6) (val : Group → Nat → BitVec 32) : Prop :=
  ∀ s is g, Fits s i is g →
    Completes s i is fun h => LaneWrites is (g.atIssue i is) h (who is (g.atIssue i is)) d (val (g.atIssue i is))

/-- Whenever i fits, it completes and writes the pair d in the lanes named. -/
def PairOp (i : Instr) (who : Issue → Group → Nat → Bool) (d : BitVec 6) (val : Group → Nat → BitVec 64) : Prop :=
  ∀ s is g, Fits s i is g →
    Completes s i is fun h => PairWrites is (g.atIssue i is) h (who is (g.atIssue i is)) d (val (g.atIssue i is))

/-- Whenever i fits, it completes and writes the flags of condition register k in the lanes named. -/
def FlagOp (i : Instr) (who : Issue → Group → Nat → Bool) (k : BitVec 2) (val : Group → Nat → BitVec 4) : Prop :=
  ∀ s is g, Fits s i is g →
    Completes s i is fun h => FlagWrites is (g.atIssue i is) h (who is (g.atIssue i is)) k (val (g.atIssue i is))

/-- Whenever i fits, it completes and writes the uniform register d. -/
def UniOp (i : Instr) (d : BitVec 6) (val : Issue → Group → BitVec 64) : Prop :=
  ∀ s is g, Fits s i is g → Completes s i is fun h => UniWrites is (g.atIssue i is) h d (val is (g.atIssue i is))

/-- Whenever i fits, it completes and its result waits behind its window; into vz it only goes on. -/
def LongOp (i : Instr) (d : BitVec 6) (width : Nat) (la : BitVec 4) (val : Group → Nat → Nat → BitVec 32) : Prop :=
  ∀ s is g, Fits s i is g → Completes s i is fun h =>
    match (g.atIssue i is).eff d with
    | none => OnlyGoesOn is (g.atIssue i is) h
    | some n => LongPends is (g.atIssue i is) h n width la (val (g.atIssue i is))

/-! ## Requests and homes -/

/-- Firmware has taken a request with this code, which it accepts in the current state, and these operands at its head (23: R378; their
layout: log 31). -/
def Asked (s : State) (q : Request) (code : Nat) (ops : List Byte) : Prop :=
  s.host.taken = some q ∧ q.code = code ∧ q.operands.take ops.length = ops ∧ s.host.accepts code = true

/-- No order gate is armed and no region records: an access at its home leaves no note. -/
def Quiet (s : State) : Prop := ∀ p ∈ s.regions, p.2.gate = none ∧ p.2.recorder = none

/-- The home of the n bytes from p up performs a store of them, and no version counter counts it (23: R383 to R385). -/
abbrev Takes (s : State) (p n : Nat) : Prop := s.inPrivate p = false ∧ s.spoilt p n true = none

/-- The homes of the n bytes from p up answer a read of them (23: R384, R385). -/
abbrev Gives (s : State) (p n : Nat) : Prop := s.spoilt p n false = none

/-- No gate is armed and no region records, no access was performed before its turn, and no peer or home answers with an error of its own:
nothing disturbs the accesses of an engine. -/
abbrev Undisturbed (s : State) (ext : EngineReply) : Prop := Quiet s ∧ s.early = [] ∧ ext.error = none

/-- The n bytes from va up are, for a command that reads, those of this device from p up, outside its CXL windows, and their home answers. -/
def Sees (s : State) (rd : Reader) (va : BitVec 64) (p n : Nat) : Prop :=
  s.locations rd kindEngineRead false va n = .ok ((List.range n).map fun i => .pa (p + i))
    ∧ ∀ i, i < n → s.inCxl (p + i) = false ∧ Gives s (p + i) 1

/-- The n bytes from va up are, for a command that writes (to the hidden frame, when that is asked for), those of this device from p up,
outside its CXL windows, and their home takes them. -/
def Lands (s : State) (rd : Reader) (hidden : Bool) (va : BitVec 64) (p n : Nat) : Prop :=
  s.locations rd kindEngineWrite hidden va n = .ok ((List.range n).map fun i => .pa (p + i))
    ∧ Takes s p n ∧ ∀ i, i < n → s.inCxl (p + i) = false ∧ Takes s (p + i) 1

/-- e and sc are the elements and the scale bytes of a load from column i0 and flat row r0, by row: those inside the tensor as they are read,
the others the fill and the scale-1 byte (13: R260, R261). -/
def Loads (s : State) (rd : Reader) (ext : EngineReply) (tid : List Byte) (x24 : Bool) (i0 r0 : Int) (e : Nat → Nat → Nat)
    (sc : Nat → Nat → Byte) : Prop :=
  let bits := formatBits (tidFormat tid)
  let inside := fun (j : Nat) => 0 ≤ i0 + (j : Nat) ∧ i0 + (j : Nat) < (tidN0 tid : Nat)
  ∀ i, i < 32 →
    (∀ j, j < rowElems bits → e i j < 2 ^ bits ∧
      match flatRow tid (r0 + (i : Nat)) with
      | none => e i j = tidFillOf tid
      | some (c1, c2) =>
        (inside j → (Run.of s ext).loadElem rd tid x24 (i0 + (j : Nat)).toNat c1 c2 = .ok (Run.of s ext, e i j))
        ∧ (¬ inside j → e i j = tidFillOf tid))
    ∧ ∀ m, m < 4 →
      let none' := ∀ j, 32 * m ≤ j → j < 32 * m + min 32 (rowElems bits) → ¬ inside j
      (rowBlocks bits ≤ m → sc i m = 0#8)
      ∧ (m < rowBlocks bits →
        match flatRow tid (r0 + (i : Nat)) with
        | none => sc i m = BitVec.ofNat 8 (scaleOne tid)
        | some (c1, c2) =>
          (tidAux tid = 0#64 ∨ none' → sc i m = BitVec.ofNat 8 (scaleOne tid))
          ∧ (tidAux tid ≠ 0#64 → ¬ none' →
            (Run.of s ext).read rd kindEngineRead (scaleAt tid (i0 + (32 * m : Nat)).toNat c1 c2) 1 = .ok (Run.of s ext, [sc i m])))

/-- No byte of memory differs. -/
abbrev SameBytes (s t : State) : Prop := ∀ a, t.mem.byte a = s.mem.byte a

/-- No byte of memory differs outside the n bytes from p up. -/
abbrev SameBut (s t : State) (p n : Nat) : Prop := ∀ a, a < p ∨ p + n ≤ a → t.mem.byte a = s.mem.byte a

/-- No group but k differs. -/
abbrev OthersStay (s t : State) (k : Nat) : Prop := ∀ j, j ≠ k → Table.get? t.groups j = Table.get? s.groups j

/-- The next packet of queue q, all of whose ring units have been notified, belongs to this row, is well formed, and has room in the
interval table of its queue group (20: R337, R338, R342). -/
def Parses (s : State) (q row : Nat) (x : Queue) (b : List Byte) : Prop :=
  Table.get? s.disp.queues q = some x ∧ s.peek x = some b ∧ pktRow b = row ∧ s.pktBad b = false
    ∧ s.intervalRoom q (pktRanges b).length = true

/-- No packet of queue q comes before its next one, and the machine is not frozen: it can start at once (20: R341; 25: R407). -/
def AtOnce (s : State) (q : Nat) : Prop := s.dbg.frozen = false ∧ ∀ e ∈ s.disp.packets, e.2.queue ≠ q

/-! ## Numbers -/

/-- The rational number that a finite value is (06: R115); none for a NaN or an infinity. -/
def FVal.rat (x : FVal) : Option ℚ :=
  match x with
  | .nan => none
  | .inf _ => none
  | .fin neg m e => some ((if neg then -1 else 1) * m * (2 : ℚ) ^ e)

end Sys2Proof.Machine
end

