-- ==== Sys2Proof/Certificates/Slice0/Obligations.lean ====
section
/-!
DEFINITION. The statements for the provers, each one a proposition about the machine that a rule of spec/ states or gives.
-/

section

open Sys2Proof Sys2Proof.Machine

/-! ## Lane words on integers (09) -/

/-- R168, R170, R172, R173: add, subtract, multiply, minimum, maximum, absolute value, negation and the saturating pair, as
arithmetic on whole numbers. -/
def Obligations.LaneIntegerArithmetic : Prop :=
  ∀ (gd : Guard) (d a b imm : BitVec 6),
    LaneOp (.iadd gd d a b) (takes gd) d (fun g l => BitVec.ofNat 32 ((g.rv a l).toNat + (g.rv b l).toNat))
    ∧ LaneOp (.iaddi gd d a imm) (takes gd) d (fun g l => BitVec.ofInt 32 ((g.rv a l).toInt + imm.toInt))
    ∧ LaneOp (.isub gd d a b) (takes gd) d (fun g l => BitVec.ofInt 32 ((g.rv a l).toInt - (g.rv b l).toInt))
    ∧ LaneOp (.imul gd d a b) (takes gd) d (fun g l => BitVec.ofNat 32 ((g.rv a l).toNat * (g.rv b l).toNat))
    ∧ LaneOp (.imulh gd d a b) (takes gd) d (fun g l => BitVec.ofInt 32 ((g.rv a l).toInt * (g.rv b l).toInt / 2 ^ 32))
    ∧ LaneOp (.imulhu gd d a b) (takes gd) d (fun g l => BitVec.ofNat 32 ((g.rv a l).toNat * (g.rv b l).toNat / 2 ^ 32))
    ∧ LaneOp (.imad gd d a b) (takes gd) d
      (fun g l => BitVec.ofNat 32 ((g.rv a l).toNat * (g.rv b l).toNat + (g.rv d l).toNat))
    ∧ LaneOp (.imin gd d a b) (takes gd) d (fun g l => BitVec.ofInt 32 (min (g.rv a l).toInt (g.rv b l).toInt))
    ∧ LaneOp (.imax gd d a b) (takes gd) d (fun g l => BitVec.ofInt 32 (max (g.rv a l).toInt (g.rv b l).toInt))
    ∧ LaneOp (.iminu gd d a b) (takes gd) d (fun g l => BitVec.ofNat 32 (min (g.rv a l).toNat (g.rv b l).toNat))
    ∧ LaneOp (.imaxu gd d a b) (takes gd) d (fun g l => BitVec.ofNat 32 (max (g.rv a l).toNat (g.rv b l).toNat))
    ∧ LaneOp (.iabs gd d a) (takes gd) d (fun g l => BitVec.ofNat 32 (g.rv a l).toInt.natAbs)
    ∧ LaneOp (.ineg gd d a) (takes gd) d (fun g l => BitVec.ofInt 32 (-(g.rv a l).toInt))
    ∧ LaneOp (.iaddmin gd d a b) (takes gd) d (fun g l =>
      BitVec.ofInt 32 (min (g.rv d l).toInt (max (-(2 ^ 31)) (min (2 ^ 31 - 1) ((g.rv a l).toInt + (g.rv b l).toInt)))))
    ∧ LaneOp (.iaddmax gd d a b) (takes gd) d (fun g l =>
      BitVec.ofInt 32 (max (g.rv d l).toInt (max (-(2 ^ 31)) (min (2 ^ 31 - 1) ((g.rv a l).toInt + (g.rv b l).toInt)))))

/-- R174: logic, shifts by B[7:0] and rotation by B[4:0], bit by bit. -/
def Obligations.LaneLogicShifts : Prop :=
  ∀ (gd : Guard) (d a b : BitVec 6),
    let n := fun (g : Group) (l : Nat) => (g.rv b l).toNat % 256
    let r := fun (g : Group) (l : Nat) => (g.rv b l).toNat % 32
    LaneOp (.andL gd d a b) (takes gd) d (fun g l => BitVec.ofFnLE fun (k : Fin 32) => (g.rv a l).getLsbD k && (g.rv b l).getLsbD k)
    ∧ LaneOp (.orL gd d a b) (takes gd) d (fun g l => BitVec.ofFnLE fun (k : Fin 32) => (g.rv a l).getLsbD k || (g.rv b l).getLsbD k)
    ∧ LaneOp (.xorL gd d a b) (takes gd) d (fun g l => BitVec.ofFnLE fun (k : Fin 32) => (g.rv a l).getLsbD k != (g.rv b l).getLsbD k)
    ∧ LaneOp (.andn gd d a b) (takes gd) d (fun g l => BitVec.ofFnLE fun (k : Fin 32) => (g.rv a l).getLsbD k && !(g.rv b l).getLsbD k)
    ∧ LaneOp (.shl gd d a b) (takes gd) d (fun g l =>
      if n g l < 32 then BitVec.ofNat 32 ((g.rv a l).toNat * 2 ^ n g l) else 0#32)
    ∧ LaneOp (.shr gd d a b) (takes gd) d (fun g l =>
      if n g l < 32 then BitVec.ofNat 32 ((g.rv a l).toNat / 2 ^ n g l) else 0#32)
    ∧ LaneOp (.sar gd d a b) (takes gd) d (fun g l =>
      if n g l < 32 then BitVec.ofInt 32 ((g.rv a l).toInt / 2 ^ n g l)
      else if (g.rv a l).getLsbD 31 then BitVec.allOnes 32 else 0#32)
    ∧ LaneOp (.rol gd d a b) (takes gd) d (fun g l =>
      BitVec.ofNat 32 ((g.rv a l).toNat * 2 ^ r g l + (g.rv a l).toNat / 2 ^ (32 - r g l)))

/-- R175, R176: the field of width w at bit p, extracted with and without sign and inserted; counts of bits; reversal. -/
def Obligations.LaneBitFields : Prop :=
  ∀ (gd : Guard) (d a b : BitVec 6),
    let w := fun (g : Group) (l : Nat) => min ((g.rv b l).toNat / 2 ^ 8 % 64) 32
    let p := fun (g : Group) (l : Nat) => (g.rv b l).toNat % 32
    let f := fun (g : Group) (l : Nat) => (g.rv a l).toNat / 2 ^ p g l % 2 ^ w g l
    LaneOp (.bfxu gd d a b) (takes gd) d (fun g l => BitVec.ofNat 32 (f g l))
    ∧ LaneOp (.bfx gd d a b) (takes gd) d (fun g l =>
      if w g l = 0 then 0#32
      else if f g l < 2 ^ (w g l - 1) then BitVec.ofNat 32 (f g l) else BitVec.ofInt 32 ((f g l : Int) - 2 ^ w g l))
    ∧ LaneOp (.bfi gd d a b) (takes gd) d (fun g l => BitVec.ofFnLE fun (k : Fin 32) =>
      if p g l ≤ k.val ∧ k.val < p g l + w g l then (g.rv a l).getLsbD (k.val - p g l) else (g.rv d l).getLsbD k.val)
    ∧ LaneOp (.popc gd d a) (takes gd) d (fun g l =>
      BitVec.ofNat 32 ((Finset.range 32).filter fun k => (g.rv a l).getLsbD k = true).card)
    ∧ LaneOp (.clz gd d a) (takes gd) d (fun g l =>
      if g.rv a l = 0#32 then 32#32 else BitVec.ofNat 32 (31 - (g.rv a l).toNat.log2))
    ∧ LaneOp (.ctz gd d a) (takes gd) d (fun g l =>
      if g.rv a l = 0#32 then 32#32 else BitVec.ofNat 32 (padicValNat 2 (g.rv a l).toNat))
    ∧ LaneOp (.brev gd d a) (takes gd) d (fun g l => BitVec.ofFnLE fun (k : Fin 32) => (g.rv a l).getLsbD (31 - k.val))

/-- R169: add and subtract with the carry of cK, which receives the four flags of the result, in the lanes whose guard passes on the
old flags. -/
def Obligations.LaneCarryChain : Prop :=
  ∀ (gd : Guard) (d a b : BitVec 6) (s : State) (is : Issue) (g₀ : Group) (i : Instr) (t : Group → Nat → Int)
    (v : Group → Nat → Int) (c : Group → Nat → Bool),
    let cin := fun (g : Group) (l : Nat) => (if flagC (cregGet (g.cond l) gd.creg) then 1 else 0 : Int)
    (i = .iadc gd d a b ∧ (t = fun g l => (g.rv a l).toNat + (g.rv b l).toNat + cin g l)
        ∧ (v = fun g l => (g.rv a l).toInt + (g.rv b l).toInt + cin g l) ∧ (c = fun g l => decide (2 ^ 32 ≤ t g l))
      ∨ i = .isbb gd d a b ∧ (t = fun g l => (g.rv a l).toNat - (g.rv b l).toNat - (1 - cin g l))
        ∧ (v = fun g l => (g.rv a l).toInt - (g.rv b l).toInt - (1 - cin g l)) ∧ (c = fun g l => decide (0 ≤ t g l))) →
    Fits s i is g₀ →
    Completes s i is fun h =>
      let g := g₀.atIssue i is
      let r := fun l => BitVec.ofInt 32 (t g l)
      (∀ n l, l < 32 → h.vreg n l = if g.eff d = some n ∧ takes gd is g l = true then r l else g.vreg n l)
      ∧ (∀ j l, l < 32 → cregGet (h.cond l) j =
          if j = gd.creg ∧ takes gd is g l = true then
            flags ((r l).getLsbD 31) (decide (r l = 0#32)) (c g l) (decide (v g l < -(2 ^ 31) ∨ 2 ^ 31 ≤ v g l))
          else cregGet (g.cond l) j)
      ∧ GoesOn is g h
      ∧ { h with regs := { h.regs with v := g.regs.v, c := g.regs.c }, ctl := { h.ctl with pcs := g.ctl.pcs } } = g

/-- R177, R178: icmp and itst on single registers and on pairs, and the three moves into a condition register, with every flag of
the destination. -/
def Claims.LaneCompareAndFlagMoves : Prop :=
  ∀ (gd : Guard) (cd cj : BitVec 2) (a b : BitVec 6) (imm : BitVec 4),
    (FlagOp (.icmp gd cd false a b) (takes gd) cd fun g l =>
      let x := g.rv a l
      let y := g.rv b l
      let r := BitVec.ofInt 32 (x.toInt - y.toInt)
      flags (r.getLsbD 31) (decide (x = y)) (decide (y.toNat ≤ x.toNat))
        (decide (x.toInt - y.toInt < -(2 ^ 31) ∨ 2 ^ 31 ≤ x.toInt - y.toInt)))
    ∧ (FlagOp (.icmp gd cd true a b) (takes gd) cd fun g l =>
      let x := g.rw a l
      let y := g.rw b l
      let r := BitVec.ofInt 64 (x.toInt - y.toInt)
      flags (r.getLsbD 63) (decide (x = y)) (decide (y.toNat ≤ x.toNat))
        (decide (x.toInt - y.toInt < -(2 ^ 63) ∨ 2 ^ 63 ≤ x.toInt - y.toInt)))
    ∧ (FlagOp (.itst gd cd false a b) (takes gd) cd fun g l =>
      flags ((g.rv a l).getLsbD 31 && (g.rv b l).getLsbD 31) (decide (g.rv a l &&& g.rv b l = 0#32)) false false)
    ∧ (FlagOp (.itst gd cd true a b) (takes gd) cd fun g l =>
      flags ((g.rw a l).getLsbD 63 && (g.rw b l).getLsbD 63) (decide (g.rw a l &&& g.rw b l = 0#64)) false false)
    ∧ (FlagOp (.cmov gd cd cj) (takes gd) cd fun g l => cregGet (g.cond l) cj)
    ∧ (FlagOp (.cmovV gd cd a) (takes gd) cd fun g l => BitVec.ofNat 4 (g.rv a l).toNat)
    ∧ FlagOp (.cmovI gd cd imm) (takes gd) cd fun _ _ => imm

/-- R178 form 3, R179, R180: the packed flags into a register, select in every lane of the set, and the immediate moves. -/
def Claims.LaneSelectAndImmediates : Prop :=
  ∀ (gd : Guard) (d a b : BitVec 6) (imm : BitVec 12),
    (LaneOp (.cmovR gd a) (takes gd) a fun g l =>
      BitVec.ofNat 32 ((cregGet (g.cond l) 0).toNat + 2 ^ 4 * (cregGet (g.cond l) 1).toNat
        + 2 ^ 8 * (cregGet (g.cond l) 2).toNat + 2 ^ 12 * (cregGet (g.cond l) 3).toNat))
    ∧ LaneOp (.sel gd d a b) every d (fun g l => if g.guard gd l = true then g.rv a l else g.rv b l)
    ∧ LaneOp (.movi gd d imm) (takes gd) d (fun _ _ => BitVec.ofInt 32 imm.toInt)
    ∧ LaneOp (.movhi gd d imm) (takes gd) d (fun g l => BitVec.ofNat 32 ((g.rv d l).toNat * 2 ^ 12 + imm.toNat))

/-- R177 to R180: compares and tests into a condition register, moves among flags and registers, select and the immediate moves. -/
def Obligations.LaneFlagsAndMoves : Prop := Claims.LaneCompareAndFlagMoves ∧ Claims.LaneSelectAndImmediates

/-- R181: the 64-bit words on pairs. -/
def Obligations.LanePairArithmetic : Prop :=
  ∀ (gd : Guard) (d a b : BitVec 6),
    let n := fun (g : Group) (l : Nat) => (g.rv b l).toNat % 256
    PairOp (.addw gd d a b) (takes gd) d (fun g l => BitVec.ofNat 64 ((g.rw a l).toNat + (g.rw b l).toNat))
    ∧ PairOp (.subw gd d a b) (takes gd) d (fun g l => BitVec.ofInt 64 ((g.rw a l).toInt - (g.rw b l).toInt))
    ∧ PairOp (.shlw gd d a b) (takes gd) d (fun g l =>
      if n g l < 64 then BitVec.ofNat 64 ((g.rw a l).toNat * 2 ^ n g l) else 0#64)
    ∧ PairOp (.shrw gd d a b) (takes gd) d (fun g l =>
      if n g l < 64 then BitVec.ofNat 64 ((g.rw a l).toNat / 2 ^ n g l) else 0#64)
    ∧ PairOp (.sarw gd d a b) (takes gd) d (fun g l =>
      if n g l < 64 then BitVec.ofInt 64 ((g.rw a l).toInt / 2 ^ n g l)
      else if (g.rw a l).getLsbD 63 then BitVec.allOnes 64 else 0#64)
    ∧ PairOp (.mulw gd d a b) (takes gd) d (fun g l => BitVec.ofNat 64 ((g.rw a l).toNat * (g.rw b l).toNat))

/-- R171, R145: quotient and remainder in every lane of the set, behind the window; division by zero and the wrapping case as the
table gives them. -/
def Obligations.DivideAndRemainder : Prop :=
  ∀ (d a b : BitVec 6) (la : BitVec 4),
    LongOp (.idivI32 d a b la) d 1 la (fun g l _ =>
      if g.rv b l = 0#32 then 0xFFFFFFFF#32
      else if g.rv a l = 0x80000000#32 ∧ g.rv b l = 0xFFFFFFFF#32 then 0x80000000#32
      else BitVec.ofInt 32 ((g.rv a l).toInt.tdiv (g.rv b l).toInt))
    ∧ LongOp (.idivN32 d a b la) d 1 la (fun g l _ =>
      if g.rv b l = 0#32 then 0xFFFFFFFF#32 else BitVec.ofNat 32 ((g.rv a l).toNat / (g.rv b l).toNat))
    ∧ LongOp (.iremI32 d a b la) d 1 la (fun g l _ =>
      if g.rv b l = 0#32 then g.rv a l
      else if g.rv a l = 0x80000000#32 ∧ g.rv b l = 0xFFFFFFFF#32 then 0#32
      else BitVec.ofInt 32 ((g.rv a l).toInt - (g.rv a l).toInt.tdiv (g.rv b l).toInt * (g.rv b l).toInt))
    ∧ LongOp (.iremN32 d a b la) d 1 la (fun g l _ =>
      if g.rv b l = 0#32 then g.rv a l
      else BitVec.ofNat 32 ((g.rv a l).toNat - (g.rv a l).toNat / (g.rv b l).toNat * (g.rv b l).toNat))

/-! ## Numbers (06) -/

/-- R116, R187: sum, product and comparison of finite values are those of the rational numbers, before any rounding. -/
def Obligations.ExactArithmetic : Prop :=
  ∀ (x y : FVal) (p q : ℚ), x.rat = some p → y.rat = some q →
    (x.add y).rat = some (p + q) ∧ (x.mul y).rat = some (p * q) ∧ x.neg.rat = some (-p)
    ∧ x.cmp y = some (if p < q then .lt else if p = q then .eq else .gt)

/-- R121: within the range of a format RoundTo gives the value that the mode asks for among all the values of the format: the
nearest, the even pattern at a midpoint; the next toward zero; the least not below; the greatest not above. -/
def Claims.RoundedInRange : Prop :=
  ∀ f ∈ [f64, f32, f16, bf16, e4m3, e5m2], ∀ (neg : Bool) (m : Nat) (e : Int) (x top : ℚ),
    (FVal.fin neg m e).rat = some x → (f.decode (f.maxBits false)).rat = some top → |x| ≤ top →
    ∀ mode, ∃ y, (f.decode (f.round mode (.fin neg m e))).rat = some y
      ∧ f.round mode (.fin neg m e) / 2 ^ (f.ebits + f.fbits) = neg.toNat
      ∧ ∀ p, p < 2 ^ (1 + f.ebits + f.fbits) → ∀ z, (f.decode p).rat = some z →
        match mode with
        | .rne => |y - x| ≤ |z - x| ∧ (|y - x| = |z - x| → y ≠ z → f.round .rne (.fin neg m e) % 2 = 0)
        | .rz => |y| ≤ |x| ∧ (|z| ≤ |x| → 0 ≤ z * x → |z| ≤ |y|)
        | .ru => x ≤ y ∧ (x ≤ z → y ≤ z)
        | .rd => y ≤ x ∧ (z ≤ x → z ≤ y)

/-- R121, R122: a value beyond the largest of a format. To the nearest, overflow begins half a unit in the last place above it, and gives an
infinity; toward zero it gives the largest value; upward and downward an infinity on the one side and the largest value on the other. e4m3 gives
its largest value in every mode. A NaN gives the canonical one, an infinity itself, which e4m3 has not, a zero its zero. -/
def Claims.RoundedBeyond : Prop :=
  ∀ f ∈ [f64, f32, f16, bf16, e4m3, e5m2], ∀ (neg : Bool) (mode : RMode),
    let sign := neg.toNat * 2 ^ (f.ebits + f.fbits)
    let ones := (2 ^ f.ebits - 1) * 2 ^ f.fbits
    let inf := sign + if f = e4m3 then 0x7E else ones
    let big := sign + if f = e4m3 then 0x7E else ones - 1
    (∀ (m : Nat) (e : Int) (x top : ℚ), (FVal.fin neg m e).rat = some x → (f.decode (f.maxBits false)).rat = some top → top < |x| →
      let beyond := match mode with
        | .rne => top + (2 : ℚ) ^ ((2 ^ f.ebits - 2 : Int) - f.bias - f.fbits) / 2 ≤ |x|
        | .rz => False
        | .ru => neg = false
        | .rd => neg = true
      (beyond → f.round mode (.fin neg m e) = inf) ∧ (¬ beyond → f.round mode (.fin neg m e) = big))
    ∧ f.round mode .nan = (if f = e4m3 then 0x7F else ones + 2 ^ (f.fbits - 1)) ∧ f.round mode (.inf neg) = inf
    ∧ ∀ e, f.round mode (.fin neg 0 e) = sign

/-- R121, R122: RoundTo, within the range of a format and beyond it. -/
def Obligations.RoundingModes : Prop := Claims.RoundedInRange ∧ Claims.RoundedBeyond

/-! ## Lane words on floating-point values (10) -/

/-- R188, R189, R192: the single and packed words: one rounding of the exact value to the nearest; Fmin and Fmax by the order in
which -0 lies below +0, a NaN losing to a number. -/
def Claims.LaneFloatArithmetic : Prop :=
  ∀ (gd : Guard) (d a b : BitVec 6),
    let v := fun (g : Group) (f : BitVec 6) (l : Nat) => f32.decode (g.rv f l).toNat
    let r := fun (x : FVal) => BitVec.ofNat 32 (f32.round .rne x)
    let nan := fun (x : BitVec 32) => decide (0x7F800000 < x.toNat % 2 ^ 31)
    let key := fun (x : BitVec 32) => if x.getLsbD 31 then -((x.toNat % 2 ^ 31 : Nat) : Int) - 1 else ((x.toNat % 2 ^ 31 : Nat) : Int)
    let fmin := fun (x y : BitVec 32) =>
      if nan x && nan y then 0x7FC00000#32 else if nan x then y else if nan y then x else if key x ≤ key y then x else y
    let fmax := fun (x y : BitVec 32) =>
      if nan x && nan y then 0x7FC00000#32 else if nan x then y else if nan y then x else if key x ≤ key y then y else x
    let el := fun (f : FloatFmt) (e : Nat) (x : BitVec 32) => f.decode (x.toNat / 2 ^ (16 * e) % 2 ^ 16)
    let both := fun (f : FloatFmt) (w : Nat → FVal) => BitVec.ofNat 32 (f.round .rne (w 0) + 2 ^ 16 * f.round .rne (w 1))
    LaneOp (.fadd gd d a b) (takes gd) d (fun g l => r ((v g a l).add (v g b l)))
    ∧ LaneOp (.fsub gd d a b) (takes gd) d (fun g l => r ((v g a l).add (v g b l).neg))
    ∧ LaneOp (.fmul gd d a b) (takes gd) d (fun g l => r ((v g a l).mul (v g b l)))
    ∧ LaneOp (.ffma gd d a b) (takes gd) d (fun g l => r (((v g a l).mul (v g b l)).add (v g d l)))
    ∧ LaneOp (.fmin gd d a b) (takes gd) d (fun g l => fmin (g.rv a l) (g.rv b l))
    ∧ LaneOp (.fmax gd d a b) (takes gd) d (fun g l => fmax (g.rv a l) (g.rv b l))
    ∧ LaneOp (.faddmin gd d a b) (takes gd) d (fun g l => fmin (g.rv d l) (r ((v g a l).add (v g b l))))
    ∧ LaneOp (.badd gd d a b) (takes gd) d (fun g l => both bf16 fun e => (el bf16 e (g.rv a l)).add (el bf16 e (g.rv b l)))
    ∧ LaneOp (.bfma gd d a b) (takes gd) d (fun g l =>
      both bf16 fun e => ((el bf16 e (g.rv a l)).mul (el bf16 e (g.rv b l))).add (el bf16 e (g.rv d l)))
    ∧ LaneOp (.hadd gd d a b) (takes gd) d (fun g l => both f16 fun e => (el f16 e (g.rv a l)).add (el f16 e (g.rv b l)))
    ∧ LaneOp (.hfma gd d a b) (takes gd) d (fun g l =>
      both f16 fun e => ((el f16 e (g.rv a l)).mul (el f16 e (g.rv b l))).add (el f16 e (g.rv d l)))

/-- R191: the double words on pairs. -/
def Claims.LaneDoubleArithmetic : Prop :=
  ∀ (gd : Guard) (d a b : BitVec 6),
    let v := fun (g : Group) (f : BitVec 6) (l : Nat) => f64.decode (g.rw f l).toNat
    let r := fun (x : FVal) => BitVec.ofNat 64 (f64.round .rne x)
    PairOp (.dadd gd d a b) (takes gd) d (fun g l => r ((v g a l).add (v g b l)))
    ∧ PairOp (.dmul gd d a b) (takes gd) d (fun g l => r ((v g a l).mul (v g b l)))
    ∧ PairOp (.dfma gd d a b) (takes gd) d (fun g l => r (((v g a l).mul (v g b l)).add (v g d l)))

/-- R190: the flags of a floating compare, by the relation of A to B; -0 equals +0 and a NaN is unordered. -/
def Claims.LaneFloatCompare : Prop :=
  ∀ (gd : Guard) (cd : BitVec 2) (a b : BitVec 6),
    let rel := fun (n : Bool) (x y : Int) =>
      if n then flags false false true true
      else if x < y then flags true false false false
      else if x = y then flags false true true false
      else flags false false true false
    let k32 := fun (x : BitVec 32) => if x.getLsbD 31 then -((x.toNat % 2 ^ 31 : Nat) : Int) else ((x.toNat % 2 ^ 31 : Nat) : Int)
    let k64 := fun (x : BitVec 64) => if x.getLsbD 63 then -((x.toNat % 2 ^ 63 : Nat) : Int) else ((x.toNat % 2 ^ 63 : Nat) : Int)
    FlagOp (.fcmp gd cd a b) (takes gd) cd (fun g l =>
      rel (decide (0x7F800000 < (k32 (g.rv a l)).natAbs ∨ 0x7F800000 < (k32 (g.rv b l)).natAbs))
        (k32 (g.rv a l)) (k32 (g.rv b l)))
    ∧ FlagOp (.dcmp gd cd a b) (takes gd) cd (fun g l =>
      rel (decide (0x7FF0000000000000 < (k64 (g.rw a l)).natAbs ∨ 0x7FF0000000000000 < (k64 (g.rw b l)).natAbs))
        (k64 (g.rw a l)) (k64 (g.rw b l)))

/-- R188 to R192: the short floating-point words on single, packed and double values. -/
def Obligations.LaneFloatWords : Prop := Claims.LaneFloatArithmetic ∧ Claims.LaneDoubleArithmetic ∧ Claims.LaneFloatCompare

/-- R193, R194, R195: the long-latency functions act in every lane of the set and wait behind their window; the result is the value of FVal.div,
sqrt, rsqrt, exp2, log2 or sinTurns rounded once to the nearest. That the first three are the quotient and the roots so rounded is
Obligations.DivisionIsCorrectlyRounded; exp2, log2 and sinTurns are the model's series, to 256 fractional bits (log 10). -/
def Obligations.LongFloatFunctions : Prop :=
  ∀ (d a b : BitVec 6) (la : BitVec 4),
    let v := fun (g : Group) (f : BitVec 6) (l : Nat) => f32.decode (g.rv f l).toNat
    let w := fun (g : Group) (f : BitVec 6) (l : Nat) => f64.decode (g.rw f l).toNat
    let r := fun (x : FVal) => BitVec.ofNat 32 (f32.round .rne x)
    let h := fun (x : FVal) (j : Nat) => BitVec.ofNat 32 (f64.round .rne x / 2 ^ (32 * j))
    LongOp (.fdiv d a b la) d 1 la (fun g l _ => r ((v g a l).div (v g b l)))
    ∧ LongOp (.fsqrt d a la) d 1 la (fun g l _ => r (v g a l).sqrt)
    ∧ LongOp (.frcp d a la) d 1 la (fun g l _ => r ((FVal.fin false 1 0).div (v g a l)))
    ∧ LongOp (.frsq d a la) d 1 la (fun g l _ => r (v g a l).rsqrt)
    ∧ LongOp (.fexp2 d a la) d 1 la (fun g l _ => r (v g a l).exp2)
    ∧ LongOp (.flog2 d a la) d 1 la (fun g l _ => r (v g a l).log2)
    ∧ LongOp (.fsin d a la) d 1 la (fun g l _ => r (sinTurns (g.rv a l)))
    ∧ LongOp (.fcos d a la) d 1 la (fun g l _ => r (sinTurns (g.rv a l + 0x40000000#32)))
    ∧ LongOp (.ddiv d a b la) d 2 la (fun g l j => h ((w g a l).div (w g b l)) j)
    ∧ LongOp (.dsqrt d a la) d 2 la (fun g l j => h (w g a l).sqrt j)

/-- R193: the quotient is the exact one rounded once: no value of the format lies nearer to p / q than the result, and at a midpoint the result
is even. -/
def Claims.Quotients : Prop :=
  ∀ f ∈ [f64, f32], ∀ (x y : Nat) (p q r : ℚ), x < 2 ^ (1 + f.ebits + f.fbits) → y < 2 ^ (1 + f.ebits + f.fbits) →
    (f.decode x).rat = some p → (f.decode y).rat = some q → q ≠ 0 →
    (f.decode (f.round .rne ((f.decode x).div (f.decode y)))).rat = some r →
    ∀ z c, z < 2 ^ (1 + f.ebits + f.fbits) → (f.decode z).rat = some c → |r - p / q| ≤ |c - p / q|
      ∧ (|r - p / q| = |c - p / q| → c ≠ r → f.round .rne ((f.decode x).div (f.decode y)) % 2 = 0)

/-- R193: the square root and its reciprocal are the exact ones rounded once: no value of the format lies nearer than the result. -/
def Claims.Roots : Prop :=
  ∀ f ∈ [f64, f32], ∀ (x : Nat) (p : ℚ), x < 2 ^ (1 + f.ebits + f.fbits) → (f.decode x).rat = some p → 0 < p →
    ∀ z c, z < 2 ^ (1 + f.ebits + f.fbits) → (f.decode z).rat = some c →
      (∃ r : ℚ, (f.decode (f.round .rne (f.decode x).sqrt)).rat = some r ∧ |(r : ℝ) - Real.sqrt p| ≤ |(c : ℝ) - Real.sqrt p|)
      ∧ ∃ r : ℚ, (f.decode (f.round .rne (f.decode x).rsqrt)).rat = some r ∧ |(r : ℝ) - 1 / Real.sqrt p| ≤ |(c : ℝ) - 1 / Real.sqrt p|

/-- R193: quotients, square roots and their reciprocals are correctly rounded. -/
def Obligations.DivisionIsCorrectlyRounded : Prop := Claims.Quotients ∧ Claims.Roots

/-- R121, R123: a value rounded to a whole number by each mode; for an integer type the result saturates, a NaN gives 0, an infinity the end
of the range. -/
def Claims.WholeNumbers : Prop :=
  (∀ (neg : Bool) (m : Nat) (e : Int) (x : ℚ), (FVal.fin neg m e).rat = some x →
    let n := fun (mode : RMode) => roundInt mode neg m e
    |(n .rne : ℚ) - x| ≤ 1 / 2 ∧ (|(n .rne : ℚ) - x| = 1 / 2 → n .rne % 2 = 0)
    ∧ |(n .rz : ℚ)| ≤ |x| ∧ |x| < |(n .rz : ℚ)| + 1 ∧ 0 ≤ (n .rz : ℚ) * x
    ∧ x ≤ n .ru ∧ (n .ru : ℚ) < x + 1 ∧ (n .rd : ℚ) ≤ x ∧ x < n .rd + 1
    ∧ ∀ (mode : RMode) (lo hi : Int), lo ≤ hi →
      roundToInt mode lo hi (.fin neg m e) = if n mode < lo then lo else if hi < n mode then hi else n mode)
  ∧ ∀ (mode : RMode) (lo hi : Int), roundToInt mode lo hi .nan = 0 ∧ roundToInt mode lo hi (.inf true) = lo
    ∧ roundToInt mode lo hi (.inf false) = hi

/-- R196, R197: the conversions, by destination and source format and mode. -/
def Claims.ConversionWords : Prop :=
  ∀ (gd : Guard) (d a : BitVec 6) (dst src : CvtFmt) (mode : RMode) (i : Instr) (f : CvtFmt → Option FloatFmt),
    (mode = .rne ∧ i = .cvtRne gd d a dst src ∨ mode = .rz ∧ i = .cvtRz gd d a dst src
      ∨ mode = .ru ∧ i = .cvtRu gd d a dst src ∨ mode = .rd ∧ i = .cvtRd gd d a dst src) →
    f .f32 = some f32 → f .f64 = some f64 → f .f16 = some f16 → f .bf16 = some bf16 → f .e4m3 = some e4m3 → f .e5m2 = some e5m2 →
    f .i32 = none → f .n32 = none →
    let bits := fun (g : Group) (l : Nat) => if src = .f64 then (g.rw a l).toNat else (g.rv a l).toNat
    let x := fun (g : Group) (l : Nat) =>
      match f src with
      | some s => s.decode (bits g l)
      | none => if src = .i32 then FVal.ofInt (g.rv a l).toInt else FVal.ofInt (g.rv a l).toNat
    let value := fun (g : Group) (l : Nat) => (
      match f dst with
      | some t =>
        if dst ≠ src then (t.round mode (x g l) : Int)
        else (match x g l with
          | .fin neg m e => if roundInt mode neg m e = 0 then (t.round .rne (.fin neg 0 0) : Int)
            else (t.round .rne (FVal.ofInt (roundInt mode neg m e)) : Int)
          | .inf neg => (t.round mode (.inf neg) : Int)
          | .nan => (t.round mode .nan : Int))
      | none => if dst = .i32 then roundToInt mode (-(2 ^ 31)) (2 ^ 31 - 1) (x g l) else roundToInt mode 0 (2 ^ 32 - 1) (x g l))
    (dst = .f64 → PairOp i (takes gd) d fun g l => BitVec.ofInt 64 (value g l))
    ∧ (dst ≠ .f64 → LaneOp i (takes gd) d fun g l => BitVec.ofInt 32 (value g l))

/-- R121, R123, R196, R197: the conversions, and rounding to whole numbers. -/
def Obligations.Conversions : Prop := Claims.ConversionWords ∧ Claims.WholeNumbers

/-- R118: the value of a Q4 code under a scale byte: type in bits 7:6, exponent in bits 5:0, 63 of which is NaN. -/
def Claims.Q4Values : Prop :=
  ∀ (ty e code : Nat), ty < 4 → e < 64 → code < 16 →
    let mags : List ℚ := match ty with
      | 1 => [0, 1 / 2, 1, 3 / 2, 2, 3, 4, 6]
      | 2 => [0, 1 / 8, 1 / 4, 1 / 2, 1, 2, 4, 8]
      | _ => [0, 1, 2, 3, 4, 6, 8, 12]
    let v : ℚ := if ty = 0 then (if code < 8 then (code : ℚ) else code - 16)
      else (if 8 ≤ code then -1 else 1) * mags.getD (code % 8) 0
    (q4Value (64 * ty + e) code).rat = if e = 63 then none else some (v * 2 ^ ((e : Int) - 32))

/-- R119, R120: the code of a value under a type and an exponent below 63. INT: the nearest whole number, the even one at a midpoint, held to
-8 to 7. The others: the sign of the value, and the index by the midpoints between neighbours, an even index holding both its bounds. -/
def Claims.Q4Codes : Prop :=
  ∀ (ty e : Nat) (neg : Bool) (m : Nat) (d : Int) (x : ℚ), ty < 4 → e < 63 → (FVal.fin neg m d).rat = some x →
    let t := x / 2 ^ ((e : Int) - 32)
    let code := q4Code ty e (.fin neg m d)
    let mids : List ℚ := match ty with
      | 1 => [1 / 4, 3 / 4, 5 / 4, 7 / 4, 5 / 2, 7 / 2, 5]
      | 2 => [1 / 16, 3 / 16, 3 / 8, 3 / 4, 3 / 2, 3, 6]
      | _ => [1 / 2, 3 / 2, 5 / 2, 7 / 2, 5, 7, 10]
    (ty = 0 → ∃ n : Int, |(n : ℚ) - t| ≤ 1 / 2 ∧ (|(n : ℚ) - t| = 1 / 2 → n % 2 = 0)
      ∧ (code : Int) = (if n < -8 then -8 else if 7 < n then 7 else n) % 16)
    ∧ (ty ≠ 0 → code / 8 = neg.toNat ∧ ∀ j mid, mids[j]? = some mid →
      (|t| < mid → code % 8 ≤ j) ∧ (mid < |t| → j < code % 8) ∧ (|t| = mid → code % 8 = if j % 2 = 0 then j else j + 1))

/-- R198: a Q4 element decoded under the scale byte in bits 15:8, and encoded into bits 7:0 of D under the scale byte of D. -/
def Claims.Q4Words : Prop :=
  ∀ (gd : Guard) (d a : BitVec 6),
    let scale := fun (x : BitVec 32) => x.toNat / 2 ^ 8 % 2 ^ 8
    LaneOp (.cvtRneF32Q4 gd d a) (takes gd) d (fun g l =>
      if scale (g.rv a l) % 64 = 63 then 0x7FC00000#32
      else BitVec.ofNat 32 (f32.round .rne (q4Value (scale (g.rv a l)) ((g.rv a l).toNat % 16))))
    ∧ LaneOp (.cvtRneQ4F32 gd d a) (takes gd) d (fun g l =>
      BitVec.ofNat 32 ((g.rv d l).toNat / 2 ^ 8 * 2 ^ 8 + if scale (g.rv d l) % 64 = 63 then 0
        else q4Code (scale (g.rv d l) / 64) (scale (g.rv d l) % 64) (f32.decode (g.rv a l).toNat)))

/-- R118 to R120, R198: Q4 elements, their values and their codes. -/
def Obligations.Q4Elements : Prop := Claims.Q4Values ∧ Claims.Q4Codes ∧ Claims.Q4Words

/-- R124: stochastic rounding of an f32 to bf16 or f16 with 16 random bits: with q the unit in the last place of the target at the value, the
multiple of q below, or the next when the bits and the 16 first fractional ones carry; from 2^(emax + 1) on an infinity. NaN, the infinities and
the zeros go by R121. -/
def Claims.StochasticRounding : Prop :=
  ∀ f ∈ [bf16, f16], ∀ (x : BitVec 32) (g : BitVec 16),
    let ones := (2 ^ f.ebits - 1) * 2 ^ f.fbits
    let sign := fun (neg : Bool) => neg.toNat * 2 ^ (f.ebits + f.fbits)
    let y := stochastic f x g
    match f32.decode x.toNat with
    | .nan => y = ones + 2 ^ (f.fbits - 1)
    | .inf neg => y = sign neg + ones
    | .fin neg m e => if m = 0 then y = sign neg else
      ∀ E : Int, (2 : ℚ) ^ E ≤ m * 2 ^ e → (m * 2 ^ e : ℚ) < 2 ^ (E + 1) →
        let q : ℚ := 2 ^ max (E - f.fbits) (1 - (f.bias : Int) - f.fbits)
        let k : Int := (⌊(m * 2 ^ e : ℚ) / q * 2 ^ 16⌋ + g.toNat) / 2 ^ 16
        if (2 : ℚ) ^ (f.bias + 1) ≤ k * q then y = sign neg + ones
        else (f.decode y).rat = some ((if neg then -1 else 1) * (k * q)) ∧ y / 2 ^ (f.ebits + f.fbits) = neg.toNat

/-- R125, R199, R200: the generator's word of the launch seed, the lane's stream and a counter, as arithmetic modulo 2^64; rng in
the lanes whose guard passes, and stochastic rounding in every lane of the set. -/
def Claims.GeneratorWords : Prop :=
  ∀ (gd : Guard) (form : CvtsrForm) (d a b : BitVec 6) (s : State) (is : Issue) (g₀ : Group),
    let word := fun (l : Nat) (c : BitVec 32) =>
      let stream := (s.workgroupId g₀ * 16 + g₀.id.grpid) * 32 + l
      let z := ((s.seedOf g₀).toNat + stream * 0x9E3779B97F4A7C15 + c.toNat * 0xD1B54A32D192ED03) % 2 ^ 64
      let z := (z ^^^ (z / 2 ^ 30)) * 0xBF58476D1CE4E5B9 % 2 ^ 64
      let z := (z ^^^ (z / 2 ^ 27)) * 0x94D049BB133111EB % 2 ^ 64
      (z ^^^ (z / 2 ^ 31)) / 2 ^ 32 % 2 ^ 32
    let sr := fun (f : FloatFmt) (x : Nat) (r : Nat) => stochastic f (BitVec.ofNat 32 x) (BitVec.ofNat 16 r)
    (Fits s (.rng gd d a) is g₀ → Completes s (.rng gd d a) is fun h =>
      let g := g₀.atIssue (.rng gd d a) is
      LaneWrites is g h (takes gd is g) d fun l => BitVec.ofNat 32 (word l (g.rv a l)))
    ∧ (Fits s (.cvtsr form d a b) is g₀ → Completes s (.cvtsr form d a b) is fun h =>
      let g := g₀.atIssue (.cvtsr form d a b) is
      LaneWrites is g h (every is g) d fun l =>
        let w := word l (g.rv b l)
        BitVec.ofNat 32 (match form with
          | .bf16 => sr bf16 (g.rv a l).toNat w
          | .f16 => sr f16 (g.rv a l).toNat w
          | .bf16x2 => sr bf16 ((g.rw a l).toNat % 2 ^ 32) w + 2 ^ 16 * sr bf16 ((g.rw a l).toNat / 2 ^ 32) (w / 2 ^ 16)
          | .f16x2 => sr f16 ((g.rw a l).toNat % 2 ^ 32) w + 2 ^ 16 * sr f16 ((g.rw a l).toNat / 2 ^ 32) (w / 2 ^ 16)))

/-- R124, R125, R199, R200: the generator and stochastic rounding. -/
def Obligations.GeneratorAndStochasticRounding : Prop := Claims.StochasticRounding ∧ Claims.GeneratorWords

/-! ## The lane crossbar (10) -/

/-- R201, R202: each passing lane takes the register of its source lane, zero where that lane is outside the set; without a source
position D keeps its value. -/
def Obligations.CrossbarMoves : Prop :=
  ∀ (gd : Guard) (d a b : BitVec 6) (k : BitVec 5) (i : Instr) (src : Group → Nat → Int),
    (i, src) ∈ ([(.shfl gd d a b, fun g l => ((g.rv b l).toNat % 32 : Nat)), (.shflI gd d a k, fun _ l => (l ^^^ k.toNat : Nat)),
      (.lsh gd d a b, fun g l => (l : Int) - (g.rs b).toInt), (.lshI gd d a k, fun _ l => (l : Int) - k.toNat),
      (.lrot gd d a b, fun g l => ((l : Int) - ((g.rs b).toNat % 32 : Nat)) % 32), (.lrotI gd d a k, fun _ l => ((l : Int) - k.toNat) % 32),
      (.bcast gd d a b, fun g _ => ((g.rs b).toNat % 32 : Nat)), (.bcastI gd d a k, fun _ _ => (k.toNat : Nat))] :
        List (Instr × (Group → Nat → Int))) →
    ∀ s is g₀, Fits s i is g₀ → Completes s i is fun h =>
      let g := g₀.atIssue i is
      LaneWrites is g h (fun l => takes gd is g l && decide (0 ≤ src g l ∧ src g l < 32)) d
        (fun l => if has is.mask (src g l).toNat = true then g.rv a (src g l).toNat else 0#32)

/-- R203: a scan over the passing lanes in ascending order, inclusive or exclusive. -/
def Obligations.Scans : Prop :=
  ∀ (gd : Guard) (d a : BitVec 6) (op : ScanOp) (s : State) (is : Issue) (g₀ : Group),
    Fits s (.scan gd d a op) is g₀ → Completes s (.scan gd d a op) is fun h =>
      let g := g₀.atIssue (.scan gd d a op) is
      let below := fun (n : Nat) => (List.range n).filter (takes gd is g)
      let isum := fun (n : Nat) => BitVec.ofNat 32 ((below n).map fun k => (g.rv a k).toNat).sum
      let fsum := fun (n : Nat) => (below n).foldl (fun p k =>
        BitVec.ofNat 32 (f32.round .rne ((f32.decode p.toNat).add (f32.decode (g.rv a k).toNat)))) 0x80000000#32
      LaneWrites is g h (takes gd is g) d fun l =>
        match op with
        | .iadd => isum (l + 1)
        | .iaddX => isum l
        | .fadd => fsum (l + 1)
        | .faddX => if below l = [] then 0#32 else fsum l
        | .imin => BitVec.ofInt 32 ((below (l + 1)).foldl (fun p k => min p (g.rv a k).toInt) (2 ^ 31 - 1))
        | .imax => BitVec.ofInt 32 ((below (l + 1)).foldl (fun p k => max p (g.rv a k).toInt) (-(2 ^ 31)))

/-- R204: the weighted choice among the passing lanes. -/
def Obligations.WeightedChoice : Prop :=
  ∀ (gd : Guard) (d a b : BitVec 6) (s : State) (is : Issue) (g₀ : Group),
    Fits s (.sample gd d a b) is g₀ → Completes s (.sample gd d a b) is fun h =>
      let g := g₀.atIssue (.sample gd d a b) is
      let below := fun (n : Nat) => (List.range n).filter (takes gd is g)
      let val := fun (x : BitVec 32) => f32.decode x.toNat
      let rnd := fun (x : FVal) => BitVec.ofNat 32 (f32.round .rne x)
      let less := fun (x y : BitVec 32) => (val x).cmp (val y) = some .lt
      let bad := fun (x : BitVec 32) => val x = .nan ∨ less x 0#32
      let w := fun (k : Nat) => if bad (g.rv a k) then 0#32 else g.rv a k
      let pre := fun (n : Nat) => (below n).foldl (fun p k => rnd ((val p).add (val (w k)))) 0x80000000#32
      let u₀ := BitVec.ofNat 32 (g.rs b).toNat
      let u := if bad u₀ then 0#32 else if less u₀ 0x3F800000#32 then u₀ else 0x3F7FFFFF#32
      let p := pre 32
      let first := fun (c : Nat → Prop) (r : BitVec 32) =>
        ∃ n, n < 32 ∧ takes gd is g n = true ∧ c n ∧ (∀ j, j < n → takes gd is g j = true → ¬ c j) ∧ r = BitVec.ofNat 32 n
      (∀ l, l < 32 → takes gd is g l = false) ∧ OnlyGoesOn is g h
      ∨ ∃ r, LaneWrites is g h (takes gd is g) d (fun _ => r) ∧
        (if p = 0x7F800000#32 then first (fun n => pre (n + 1) = 0x7F800000#32) r
        else if val p = .fin false 0 (-149) ∨ val p = .fin true 0 (-149) then r = 0xFFFFFFFF#32
        else
          let t := rnd ((val u).mul (val p))
          first (fun n => less t (pre (n + 1))) r
          ∨ (∀ n, n < 32 → takes gd is g n = true → ¬ less t (pre (n + 1))) ∧
            ∃ n, n < 32 ∧ takes gd is g n = true ∧ less 0#32 (w n) ∧
              (∀ j, n < j → j < 32 → takes gd is g j = true → ¬ less 0#32 (w j)) ∧ r = BitVec.ofNat 32 n)

/-! ## Control transfers (09: R182 to R186, 12: R228) -/

/-- R182, R141: bra sends the passing lanes to PC + 4 x off modulo 2^56 and the others of the set to the next word; bral also links in
v6:v7, never indexed; no lane outside the set moves. -/
def Claims.Branches : Prop :=
  ∀ (gd : Guard) (off : BitVec 18) (s : State) (is : Issue) (g₀ : Group),
    let target := ((is.pc.toNat : Int) + 4 * off.toInt) % 2 ^ 56
    let pcs := fun (g h : Group) => ∀ l, l < 32 → h.pc l =
      if has is.mask l = true then (if g.guard gd l = true then BitVec.ofInt 64 target else (is.pc + 4#56).setWidth 64) else g.pc l
    (Fits s (.bra gd off) is g₀ → Completes s (.bra gd off) is fun h =>
      let g := g₀.atIssue (.bra gd off) is
      pcs g h ∧ { h with ctl := { h.ctl with pcs := g.ctl.pcs } } = g)
    ∧ (Fits s (.bral gd off) is g₀ → Completes s (.bral gd off) is fun h =>
      let g := g₀.atIssue (.bral gd off) is
      pcs g h
      ∧ (∀ n l, l < 32 → h.vreg n l =
        if n = 6 ∧ takes gd is g l = true then BitVec.ofNat 32 (is.pc + 4#56).toNat
        else if n = 7 ∧ takes gd is g l = true then BitVec.ofNat 32 ((is.pc + 4#56).toNat / 2 ^ 32) else g.vreg n l)
      ∧ { h with regs := { h.regs with v := g.regs.v }, ctl := { h.ctl with pcs := g.ctl.pcs } } = g)

/-- R183: jmp and ret send each passing lane to its own pair A, which is read before D takes the link; a target whose bits 1:0 are not
zero traps ALIGN before any lane jumps or links, naming the lowest such lane and its target. -/
def Obligations.IndirectBranches : Prop :=
  ∀ (gd : Guard) (d a : BitVec 6) (s : State) (is : Issue) (g₀ : Group) (i : Instr),
    i = .jmp gd d a ∨ i = .ret gd a → Fits s i is g₀ →
    let g := g₀.atIssue i is
    ((∀ l, l < 32 → takes gd is g l = true → (g.rw a l).toNat % 4 = 0) → Completes s i is fun h =>
      (∀ l, l < 32 → h.pc l =
        if has is.mask l = true then (if g.guard gd l = true then g.rw a l else (is.pc + 4#56).setWidth 64) else g.pc l)
      ∧ (∀ n l, l < 32 → h.vreg n l =
        if i = .jmp gd d a ∧ g.eff d = some n ∧ takes gd is g l = true then BitVec.ofNat 32 (is.pc + 4#56).toNat
        else if i = .jmp gd d a ∧ (g.eff d).map (· + 1) = some n ∧ takes gd is g l = true then
          BitVec.ofNat 32 ((is.pc + 4#56).toNat / 2 ^ 32)
        else g.vreg n l)
      ∧ { h with regs := { h.regs with v := g.regs.v }, ctl := { h.ctl with pcs := g.ctl.pcs } } = g)
    ∧ ∀ l, l < 32 → takes gd is g l = true → (g.rw a l).toNat % 4 ≠ 0 →
      (∀ j, j < l → takes gd is g j = true → (g.rw a j).toNat % 4 = 0) →
      exec i s = .next ((s.setGroup is.grp g).raiseAtIssue is.grp
        { is.trap 0x11#8 with info := BitVec.ofNat 32 l, addr := g.rw a l })

/-- R185, R12: yield ends the set's turn when a lane passes; nop has no effect; the set goes on. -/
def Claims.YieldAndNop : Prop :=
  ∀ (gd : Guard) (s : State) (is : Issue) (g₀ : Group),
    (Fits s (.nop gd) is g₀ → Completes s (.nop gd) is fun h => OnlyGoesOn is (g₀.atIssue (.nop gd) is) h)
    ∧ (Fits s (.yield gd) is g₀ → Completes s (.yield gd) is fun h =>
      let g := g₀.atIssue (.yield gd) is
      GoesOn is g h
      ∧ { h with ctl := { h.ctl with pcs := g.ctl.pcs, yielded := g.ctl.yielded } } = g
      ∧ ((∃ l, l < 32 ∧ takes gd is g l = true) → h.ctl.yielded = g.ctl.yielded ||| is.mask)
      ∧ ((∀ l, l < 32 → takes gd is g l = false) → h.ctl.yielded = g.ctl.yielded))

/-- R185, R10: exit makes the passing lanes absent for good and every lane of the set goes on; no register, memory word in flight or byte
of memory changes. -/
def Claims.Exit : Prop :=
  ∀ (gd : Guard) (s : State) (is : Issue) (g₀ : Group), Fits s (.exit gd) is g₀ →
    let g := g₀.atIssue (.exit gd) is
    ∃ t h, exec (.exit gd) s = .next t ∧ Table.get? t.groups is.grp = some h
      ∧ (∀ l, l < 32 → has h.ctl.exited l = (has g.ctl.exited l || takes gd is g l))
      ∧ h.ctl.present = g.ctl.present ∧ GoesOn is g h ∧ h.regs = g.regs ∧ h.fl = g.fl ∧ t.mem = s.mem

/-- R10, R12, R185: nop, yield and exit. -/
def Obligations.NopYieldExit : Prop := Claims.YieldAndNop ∧ Claims.Exit

/-- R228, R144: ubra sends the whole set to its target when the condition holds on ucc, and to the next word otherwise. -/
def Claims.UniformBranch : Prop :=
  ∀ (c : Cond) (off : BitVec 20) (s : State) (is : Issue) (g₀ : Group), Fits s (.ubra c off) is g₀ →
    Completes s (.ubra c off) is fun h =>
      let g := g₀.atIssue (.ubra c off) is
      let target := ((is.pc.toNat : Int) + 4 * off.toInt) % 2 ^ 56
      (∀ l, l < 32 → h.pc l =
        if has is.mask l = true then (if condHolds c g.regs.ucc = true then BitVec.ofInt 64 target else (is.pc + 4#56).setWidth 64)
        else g.pc l)
      ∧ { h with ctl := { h.ctl with pcs := g.ctl.pcs } } = g

/-- R142: when each condition holds on the flags S, Z, C, V. -/
def Claims.Conditions : Prop :=
  ∀ (f : BitVec 4),
    let S := f.getLsbD 3
    let Z := f.getLsbD 2
    let C := f.getLsbD 1
    let V := f.getLsbD 0
    condHolds .al f = true ∧ (condHolds .eq f = true ↔ Z = true) ∧ (condHolds .ne f = true ↔ Z = false)
    ∧ (condHolds .lt f = true ↔ S ≠ V) ∧ (condHolds .ge f = true ↔ S = V) ∧ (condHolds .le f = true ↔ Z = true ∨ S ≠ V)
    ∧ (condHolds .gt f = true ↔ Z = false ∧ S = V) ∧ (condHolds .lo f = true ↔ C = false) ∧ (condHolds .hs f = true ↔ C = true)
    ∧ (condHolds .ls f = true ↔ C = false ∨ Z = true) ∧ (condHolds .hi f = true ↔ C = true ∧ Z = false)
    ∧ (condHolds .mi f = true ↔ S = true) ∧ (condHolds .pl f = true ↔ S = false)
    ∧ (condHolds .vs f = true ↔ V = true) ∧ (condHolds .vc f = true ↔ V = false)

/-- R141, R142, R144, R182, R228: the conditions, and the branches of lanes and of a whole set to PC + 4 x off. -/
def Obligations.DirectBranches : Prop := Claims.Conditions ∧ Claims.Branches ∧ Claims.UniformBranch

/-! ## Uniform words (12) -/

/-- R222 to R224: uniform arithmetic, as arithmetic on whole numbers; sz discards the result. -/
def Claims.UniformArithmetic : Prop :=
  ∀ (d a b : BitVec 6) (c : Cond) (imm : BitVec 18),
    let n := fun (g : Group) => (g.rs b).toNat % 256
    UniOp (.sadd d a b) d (fun _ g => BitVec.ofNat 64 ((g.rs a).toNat + (g.rs b).toNat))
    ∧ UniOp (.ssub d a b) d (fun _ g => BitVec.ofInt 64 ((g.rs a).toInt - (g.rs b).toInt))
    ∧ UniOp (.smul d a b) d (fun _ g => BitVec.ofNat 64 ((g.rs a).toNat * (g.rs b).toNat))
    ∧ UniOp (.smulh d a b false) d (fun _ g => BitVec.ofInt 64 ((g.rs a).toInt * (g.rs b).toInt / 2 ^ 64))
    ∧ UniOp (.smulh d a b true) d (fun _ g => BitVec.ofNat 64 ((g.rs a).toNat * (g.rs b).toNat / 2 ^ 64))
    ∧ UniOp (.sand d a b) d (fun _ g => BitVec.ofFnLE fun (k : Fin 64) => (g.rs a).getLsbD k && (g.rs b).getLsbD k)
    ∧ UniOp (.sor d a b) d (fun _ g => BitVec.ofFnLE fun (k : Fin 64) => (g.rs a).getLsbD k || (g.rs b).getLsbD k)
    ∧ UniOp (.sxor d a b) d (fun _ g => BitVec.ofFnLE fun (k : Fin 64) => (g.rs a).getLsbD k != (g.rs b).getLsbD k)
    ∧ UniOp (.sshl d a b) d (fun _ g => if n g < 64 then BitVec.ofNat 64 ((g.rs a).toNat * 2 ^ n g) else 0#64)
    ∧ UniOp (.sshr d a b) d (fun _ g => if n g < 64 then BitVec.ofNat 64 ((g.rs a).toNat / 2 ^ n g) else 0#64)
    ∧ UniOp (.ssar d a b) d (fun _ g =>
      if n g < 64 then BitVec.ofInt 64 ((g.rs a).toInt / 2 ^ n g) else if (g.rs a).getLsbD 63 then BitVec.allOnes 64 else 0#64)
    ∧ UniOp (.smin d a b false) d (fun _ g => BitVec.ofInt 64 (min (g.rs a).toInt (g.rs b).toInt))
    ∧ UniOp (.smax d a b false) d (fun _ g => BitVec.ofInt 64 (max (g.rs a).toInt (g.rs b).toInt))
    ∧ UniOp (.smin d a b true) d (fun _ g => BitVec.ofNat 64 (min (g.rs a).toNat (g.rs b).toNat))
    ∧ UniOp (.smax d a b true) d (fun _ g => BitVec.ofNat 64 (max (g.rs a).toNat (g.rs b).toNat))
    ∧ UniOp (.ssel d a b c) d (fun _ g => if condHolds c g.regs.ucc = true then g.rs a else g.rs b)
    ∧ UniOp (.smovi d imm) d (fun _ _ => BitVec.ofInt 64 imm.toInt)
    ∧ UniOp (.smovhi d imm) d (fun _ g => BitVec.ofNat 64 ((g.rs d).toNat * 2 ^ 18 + imm.toNat))
    ∧ UniOp (.saddi d imm) d (fun _ g => BitVec.ofInt 64 ((g.rs d).toInt + imm.toInt))

/-- R225: one lane's register into a uniform register, zero from a lane outside the set; half of a uniform register into every lane of
the set. -/
def Claims.LaneUniformMoves : Prop :=
  ∀ (d a b : BitVec 6) (k : BitVec 5) (hi : Bool),
    UniOp (.lread d a (.imm k)) d
      (fun is g => if has is.mask k.toNat = true then BitVec.ofNat 64 (g.rv a k.toNat).toNat else 0#64)
    ∧ UniOp (.lread d a (.reg b)) d
      (fun is g =>
        let l := (g.rs b).toNat % 32
        if has is.mask l = true then BitVec.ofNat 64 (g.rv a l).toNat else 0#64)
    ∧ LaneOp (.sbcast d a hi) every d (fun g _ => BitVec.ofNat 32 (if hi then (g.rs a).toNat / 2 ^ 32 else (g.rs a).toNat))

/-- R222 to R225: uniform arithmetic, and moves between lanes and uniform registers. -/
def Obligations.UniformWords : Prop := Claims.UniformArithmetic ∧ Claims.LaneUniformMoves

/-- R223, R226, R234, R235: scmp writes ucc; ballot writes the mask of the lanes of the set in which the condition holds, and ucc; idx
writes xi; prio writes the requested class; nothing else of the group changes but the program counters of its set. -/
def Obligations.CompareBallotIndexPriority : Prop :=
  ∀ (d a b : BitVec 6) (k : BitVec 2) (c : Cond) (imm : BitVec 8) (p : BitVec 2) (s : State) (is : Issue) (g₀ : Group),
    (Fits s (.scmp a b) is g₀ → Completes s (.scmp a b) is fun h =>
      let g := g₀.atIssue (.scmp a b) is
      let x := g.rs a
      let y := g.rs b
      h.regs.ucc = flags ((BitVec.ofInt 64 (x.toInt - y.toInt)).getLsbD 63) (decide (x = y)) (decide (y.toNat ≤ x.toNat))
        (decide (x.toInt - y.toInt < -(2 ^ 63) ∨ 2 ^ 63 ≤ x.toInt - y.toInt))
      ∧ GoesOn is g h ∧ { h with regs := { h.regs with ucc := g.regs.ucc }, ctl := { h.ctl with pcs := g.ctl.pcs } } = g)
    ∧ (Fits s (.ballot d k c) is g₀ → Completes s (.ballot d k c) is fun h =>
      let g := g₀.atIssue (.ballot d k c) is
      ∃ m : BitVec 32, (∀ l, l < 32 → has m l = (has is.mask l && condHolds c (cregGet (g.cond l) k)))
      ∧ (∀ n, h.sreg n = if d ≠ 63#6 ∧ n = d.toNat then BitVec.ofNat 64 m.toNat else g.sreg n)
      ∧ h.regs.ucc = flags (m.getLsbD 31) (decide (m = 0#32)) (decide (m = is.mask)) false
      ∧ GoesOn is g h
      ∧ { h with regs := { h.regs with s := g.regs.s, ucc := g.regs.ucc }, ctl := { h.ctl with pcs := g.ctl.pcs } } = g)
    ∧ (Fits s (.idxImm imm) is g₀ → Completes s (.idxImm imm) is fun h =>
      let g := g₀.atIssue (.idxImm imm) is
      h.regs.xi = imm ∧ GoesOn is g h
      ∧ { h with regs := { h.regs with xi := g.regs.xi }, ctl := { h.ctl with pcs := g.ctl.pcs } } = g)
    ∧ (Fits s (.idxReg d) is g₀ → Completes s (.idxReg d) is fun h =>
      let g := g₀.atIssue (.idxReg d) is
      h.regs.xi = BitVec.ofNat 8 (g.rs d).toNat ∧ GoesOn is g h
      ∧ { h with regs := { h.regs with xi := g.regs.xi }, ctl := { h.ctl with pcs := g.ctl.pcs } } = g)
    ∧ (Fits s (.prioImm p) is g₀ → Completes s (.prioImm p) is fun h =>
      let g := g₀.atIssue (.prioImm p) is
      h.ctl.cls = p ∧ GoesOn is g h ∧ { h with ctl := { h.ctl with cls := g.ctl.cls, pcs := g.ctl.pcs } } = g)
    ∧ (Fits s (.prioReg d) is g₀ → Completes s (.prioReg d) is fun h =>
      let g := g₀.atIssue (.prioReg d) is
      h.ctl.cls = BitVec.ofNat 2 (g.rs d).toNat ∧ GoesOn is g h
      ∧ { h with ctl := { h.ctl with cls := g.ctl.cls, pcs := g.ctl.pcs } } = g)

/-! ## Memory words at their issue (11) -/

/-- R205, R208: the plain loads and stores of the passing lanes: base plus the zero-extended lane offset; a load's registers become
pending behind its window, a store's data are those of its register, pair or quad. -/
def Obligations.LoadsAndStoresIssue : Prop :=
  ∀ (gd : Guard) (d a : BitVec 6) (bs : BitVec 2) (la : BitVec 4),
    let base := fun (g : Group) => g.rs (if bs = 0#2 then 60#6 else if bs = 1#2 then 61#6 else if bs = 2#2 then 62#6 else 59#6)
    let addr := fun (g : Group) (l : Nat) => BitVec.ofNat 64 ((base g).toNat + (g.rv a l).toNat)
    let any := fun (_ : Group) (_ : LaneAcc) => True
    let single := fun (g : Group) (x : LaneAcc) => x.data.toNat = (g.rv d x.lane).toNat
    let pair := fun (g : Group) (x : LaneAcc) => x.data = g.rw d x.lane
    let quad := fun (g : Group) (x : LaneAcc) => x.data = if x.off = 0 then g.rw d x.lane else g.rwHi d x.lane
    MemWordOp (.ldI8 gd d a bs la) (takes gd) (.load 1 true) .rlx .device 1 addr d 1 la any
    ∧ MemWordOp (.ldN8 gd d a bs la) (takes gd) (.load 1 false) .rlx .device 1 addr d 1 la any
    ∧ MemWordOp (.ldI16 gd d a bs la) (takes gd) (.load 2 true) .rlx .device 2 addr d 1 la any
    ∧ MemWordOp (.ldN16 gd d a bs la) (takes gd) (.load 2 false) .rlx .device 2 addr d 1 la any
    ∧ MemWordOp (.ldN32 gd d a bs la) (takes gd) (.load 4 false) .rlx .device 4 addr d 1 la any
    ∧ MemWordOp (.ldN64 gd d a bs la) (takes gd) (.load 8 false) .rlx .device 8 addr d 2 la any
    ∧ MemWordOp (.ldN128 gd d a bs la) (takes gd) (.load 16 false) .rlx .device 16 addr d 4 la any
    ∧ MemWordOp (.stN8 gd d a bs) (takes gd) (.store 1) .rlx .device 1 addr d 0 0 single
    ∧ MemWordOp (.stN16 gd d a bs) (takes gd) (.store 2) .rlx .device 2 addr d 0 0 single
    ∧ MemWordOp (.stN32 gd d a bs) (takes gd) (.store 4) .rlx .device 4 addr d 0 0 single
    ∧ MemWordOp (.stN64 gd d a bs) (takes gd) (.store 8) .rlx .device 8 addr d 0 0 pair
    ∧ MemWordOp (.stN128 gd d a bs) (takes gd) (.store 16) .rlx .device 16 addr d 0 0 quad

/-- R210, R211, R212: ordered loads and stores, atomics and compare-and-swap of every lane of the set, with their ordering and scope;
acas compares with the low register or pair of d and offers the next. -/
def Obligations.OrderedAndAtomicIssue : Prop :=
  ∀ (d a : BitVec 6) (bs : BitVec 2) (sc : Scope) (la : BitVec 4) (b : Bool) (o : Ord),
    let base := fun (g : Group) => g.rs (if bs = 0#2 then 60#6 else if bs = 1#2 then 61#6 else if bs = 2#2 then 62#6 else 59#6)
    let addr := fun (g : Group) (l : Nat) => BitVec.ofNat 64 ((base g).toNat + (g.rv a l).toNat)
    let any := fun (_ : Group) (_ : LaneAcc) => True
    let single := fun (g : Group) (x : LaneAcc) => x.data.toNat = (g.rv d x.lane).toNat
    let pair := fun (g : Group) (x : LaneAcc) => x.data = g.rw d x.lane
    let swap := fun (g : Group) (x : LaneAcc) =>
      x.cmp.toNat = (g.rw d x.lane).toNat % 2 ^ 32 ∧ x.data.toNat = (g.rw d x.lane).toNat / 2 ^ 32
    let swapW := fun (g : Group) (x : LaneAcc) => x.cmp = g.rw d x.lane ∧ x.data = g.rwHi d x.lane
    let acq := if b then Ord.acq else .rlx
    let rel := if b then Ord.rel else .rlx
    MemWordOp (.ldaN32 d a bs sc la b) every (.load 4 false) acq sc 4 addr d 1 la any
    ∧ MemWordOp (.ldaN64 d a bs sc la b) every (.load 8 false) acq sc 8 addr d 2 la any
    ∧ MemWordOp (.staN32 d a bs sc b) every (.store 4) rel sc 4 addr d 0 0 single
    ∧ MemWordOp (.staN64 d a bs sc b) every (.store 8) rel sc 8 addr d 0 0 pair
    ∧ MemWordOp (.aaddN32 d a bs sc la o) every (.atom .add 4) o sc 4 addr d 1 la single
    ∧ MemWordOp (.aminI32 d a bs sc la o) every (.atom .minI 4) o sc 4 addr d 1 la single
    ∧ MemWordOp (.amaxI32 d a bs sc la o) every (.atom .maxI 4) o sc 4 addr d 1 la single
    ∧ MemWordOp (.aminN32 d a bs sc la o) every (.atom .minN 4) o sc 4 addr d 1 la single
    ∧ MemWordOp (.amaxN32 d a bs sc la o) every (.atom .maxN 4) o sc 4 addr d 1 la single
    ∧ MemWordOp (.aandN32 d a bs sc la o) every (.atom .band 4) o sc 4 addr d 1 la single
    ∧ MemWordOp (.aorN32 d a bs sc la o) every (.atom .bor 4) o sc 4 addr d 1 la single
    ∧ MemWordOp (.axorN32 d a bs sc la o) every (.atom .bxor 4) o sc 4 addr d 1 la single
    ∧ MemWordOp (.axchgN32 d a bs sc la o) every (.atom .xchg 4) o sc 4 addr d 1 la single
    ∧ MemWordOp (.acasN32 d a bs sc la o) every (.cas 4) o sc 4 addr d 1 la swap
    ∧ MemWordOp (.aaddN64 d a bs sc la o) every (.atom .add 8) o sc 8 addr d 2 la pair
    ∧ MemWordOp (.aminI64 d a bs sc la o) every (.atom .minI 8) o sc 8 addr d 2 la pair
    ∧ MemWordOp (.amaxI64 d a bs sc la o) every (.atom .maxI 8) o sc 8 addr d 2 la pair
    ∧ MemWordOp (.aminN64 d a bs sc la o) every (.atom .minN 8) o sc 8 addr d 2 la pair
    ∧ MemWordOp (.amaxN64 d a bs sc la o) every (.atom .maxN 8) o sc 8 addr d 2 la pair
    ∧ MemWordOp (.aandN64 d a bs sc la o) every (.atom .band 8) o sc 8 addr d 2 la pair
    ∧ MemWordOp (.aorN64 d a bs sc la o) every (.atom .bor 8) o sc 8 addr d 2 la pair
    ∧ MemWordOp (.axorN64 d a bs sc la o) every (.atom .bxor 8) o sc 8 addr d 2 la pair
    ∧ MemWordOp (.axchgN64 d a bs sc la o) every (.atom .xchg 8) o sc 8 addr d 2 la pair
    ∧ MemWordOp (.acasN64 d a bs sc la o) every (.cas 8) o sc 8 addr d 2 la swapW

/-- R61, R206: the checks of a lane's address at issue for a group that is not the walker: bits 63:56 and a malformed or unbound role
trap ACCESS, a misaligned address ALIGN, an import slot that is not valid IMPORT; in the order of R206. -/
def Claims.AddressChecks : Prop :=
  ∀ (s : State) (g : Group) (store : Bool) (size : Nat) (va : BitVec 64), g.id.walker = false → size ∈ [1, 2, 4, 8, 16] →
    let n := va.toNat
    (2 ^ 56 ≤ n → s.startAccess g store size va = .trap 0x10#8)
    ∧ (n < 2 ^ 55 → n % size ≠ 0 → s.startAccess g store size va = .trap 0x11#8)
    ∧ (n < 2 ^ 55 → n % size = 0 → s.startAccess g store size va = .ok .miss)
    ∧ (2 ^ 55 ≤ n → n < 2 ^ 55 + 2 ^ 54 →
      (n / 2 ^ 48 % 2 ^ 6 ≠ 0 ∨ n / 2 ^ 23 % 2 ^ 17 ≠ 0 → s.startAccess g store size va = .trap 0x10#8)
      ∧ (n / 2 ^ 48 % 2 ^ 6 = 0 → n / 2 ^ 23 % 2 ^ 17 = 0 → n % size ≠ 0 → s.startAccess g store size va = .trap 0x11#8)
      ∧ (n / 2 ^ 48 % 2 ^ 6 = 0 → n / 2 ^ 23 % 2 ^ 17 = 0 → n % size = 0 →
        s.startAccess g store size va =
          match s.roleAt g.id.launch g.id.gang (n / 2 ^ 40 % 2 ^ 8) (n % 2 ^ 23) with
          | none => .trap 0x10#8
          | some pa => .ok (.direct pa)))
    ∧ (2 ^ 55 + 2 ^ 54 ≤ n → n < 2 ^ 56 →
      (n % size ≠ 0 → s.startAccess g store size va = .trap 0x11#8)
      ∧ (n % size = 0 →
        let e := Table.getD s.xlat.imports (n / 2 ^ 38 % 2 ^ 16) 0#128
        s.startAccess g store size va =
          if e.getLsbD 63 = true ∧ e.getLsbD 62 = false then .ok (.peer (n / 2 ^ 38 % 2 ^ 16)) else .trap 0x12#8))

/-- R206, R207, R239: the lowest lane whose address fails a check at issue traps the whole word, which has no effect; the trap state
names the lane and its address. -/
def Claims.AddressTrapAtIssue : Prop :=
  ∀ (gd : Guard) (d a : BitVec 6) (bs : BitVec 2) (la : BitVec 4) (i : Instr) (store : Bool) (size : Nat),
    (i, store, size) ∈ [(.ldI8 gd d a bs la, false, 1), (.ldN8 gd d a bs la, false, 1), (.ldI16 gd d a bs la, false, 2),
      (.ldN16 gd d a bs la, false, 2), (.ldN32 gd d a bs la, false, 4), (.ldN64 gd d a bs la, false, 8),
      (.ldN128 gd d a bs la, false, 16), (.stN8 gd d a bs, true, 1), (.stN16 gd d a bs, true, 2), (.stN32 gd d a bs, true, 4),
      (.stN64 gd d a bs, true, 8), (.stN128 gd d a bs, true, 16)] →
    ∀ s is g₀, Fits s i is g₀ →
      let g := g₀.atIssue i is
      let addr := fun (l : Nat) => BitVec.ofNat 64 ((g.rs (baseReg bs)).toNat + (g.rv a l).toNat)
      ∀ l c, l < 32 → takes gd is g l = true → s.startAccess g store size (addr l) = .trap c →
        (∀ j, j < l → takes gd is g j = true → ∃ st, s.startAccess g store size (addr j) = .ok st) →
        exec i s = .next (((s.setGroup is.grp g).windowViolation g.ctl.core c (addr l)).raiseAtIssue is.grp
          { is.trap c with info := BitVec.ofNat 32 l, addr := addr l })

/-- R61, R206, R207, R239: the checks of an address at issue, and the trap of the lowest lane that fails one. -/
def Obligations.AddressChecksAtIssue : Prop := Claims.AddressChecks ∧ Claims.AddressTrapAtIssue

/-- R213: an ordered add goes in flight with its thread's count of earlier fadd.ord words, in every lane whose count is below 2^32, and
every lane counts on. -/
def Claims.OrderedAddIssue : Prop :=
  ∀ (d a : BitVec 6) (bs : BitVec 2) (sc : Scope) (f64 : Bool) (s : State) (is : Issue) (g₀ : Group),
    let i := if f64 then Instr.faddOrdF64 d a bs sc else .faddOrdF32 d a bs sc
    let size := if f64 then 8 else 4
    Fits s i is g₀ →
    let g := g₀.atIssue i is
    let addr := fun (l : Nat) => BitVec.ofNat 64 ((g.rs (baseReg bs)).toNat + (g.rv a l).toNat)
    is.mask ≠ 0#32 → (∀ l, l < 32 → Table.getD g.fl.faddOrdinals l 0 < 2 ^ 32) →
    (∀ l, l < 32 → has is.mask l = true → ∃ st, s.startAccess g true size (addr l) = .ok st) →
    ∃ t h o, exec i s = .next t ∧ Table.get? t.groups is.grp = some h ∧ MemIssued s t is g h (every is g) (some o)
      ∧ InFlight is g o (.fadd f64) .rlx sc (every is g) size addr ∧ h.fl.pend = g.fl.pend
      ∧ (∀ x ∈ o.accs, x.cmp.toNat = Table.getD g.fl.faddOrdinals x.lane 0
        ∧ if f64 then x.data = g.rw d x.lane else x.data.toNat = (g.rv d x.lane).toNat)
      ∧ ∀ l, l < 32 → Table.getD h.fl.faddOrdinals l 0 = Table.getD g.fl.faddOrdinals l 0 + (has is.mask l).toNat

/-- R227: a uniform load or store makes one access of eight bytes at SA + 8 x off8; the load's register becomes pending. -/
def Claims.UniformMemoryIssue : Prop :=
  ∀ (d a : BitVec 6) (off : BitVec 8) (la : BitVec 4) (store : Bool) (s : State) (is : Issue) (g₀ : Group),
    let i := if store then Instr.sst d a off else .sld d a off la
    Fits s i is g₀ →
    let g := g₀.atIssue i is
    let va := BitVec.ofNat 64 ((g.rs a).toNat + 8 * off.toNat)
    (∃ st, s.startAccess g store 8 va = .ok st) →
    ∃ t h o x, exec i s = .next t ∧ Table.get? t.groups is.grp = some h ∧ MemIssued s t is g h (fun _ => false) (some o)
      ∧ o.seq = g.fl.nextSeq ∧ (o.kind = if store then .store 8 else .load 8 false) ∧ o.ord = .rlx ∧ o.scope = .device
      ∧ o.accs = [x] ∧ x.va = va ∧ x.size = 8 ∧ x.lane = 32 ∧ x.done = false ∧ x.data = g.rs d
      ∧ (if store ∨ d = 63#6 then h.fl.pend = g.fl.pend
        else ∃ slot, o.pend = some slot ∧ Opens g h slot true d.toNat 1 is.mask (has is.mask) la)

/-- R216 to R218: ldk goes in flight in the passing lanes with its handle, their token positions and the tensor-identifier entry that the
handle names; it takes an operand-log entry when a read of it is not translated, and its register becomes pending. A lane whose handle or
tensor is not fit has failed with KVMAP. For a fit one the reads of step 2 and 6 are in flight: the meta half, the data half and the
meta half again of the entry of p >> 5, and the frequency of the pair; none is performed. One whose address fails a check of R206 has failed
with the code of that check, which is the model's choice (log 78). -/
def Claims.KvLoadIssue : Prop :=
  ∀ (gd : Guard) (d a : BitVec 6) (bs : BitVec 2) (la : BitVec 4) (s : State) (is : Issue) (g₀ : Group),
    let i := Instr.ldk gd d a bs la
    Fits s i is g₀ →
    let g := g₀.atIssue i is
    let handle := g.rs (baseReg bs)
    let tid := s.tidReplica g.id.launch (g.ctl.core / 4) (handle.toNat % 256)
    let fit := handle.toNat < 2 ^ 24 ∧ tidMalformed tid = false ∧ tidKind tid = 1 ∧ slantFormat (tidFormat tid) = true
      ∧ handle.toNat / 2 ^ 8 % 256 < tidH tid ∧ 2 * (handle.toNat / 2 ^ 16) + 1 < tidDh tid
    let entry := fun (l : Nat) => BitVec.ofNat 64 ((tidBase tid).toNat + 16 * ((g.rv a l).toNat / 32))
    let freq := BitVec.ofNat 64 ((tidAux tid).toNat + 4 * (handle.toNat / 2 ^ 16))
    ∃ t h o, exec i s = .next t ∧ Table.get? t.groups is.grp = some h ∧ MemIssued s t is g h (takes gd is g) o
      ∧ (∀ y, o = some y → y.seq = g.fl.nextSeq ∧ y.kind = .ldk ∧ y.base = handle
        ∧ y.kv.map (fun x => (x.lane, x.pos, x.tid)) =
          ((List.range 32).filter (takes gd is g)).map (fun l => (l, (g.rv a l).toNat, tid))
        ∧ (∀ x ∈ y.accs, x.done = false ∧ takes gd is g x.lane = true)
        ∧ ((∃ x ∈ y.accs, x.st.known = false) → y.log = g.freeLogEntry) ∧ ((∀ x ∈ y.accs, x.st.known = true) → y.log = none)
        ∧ ∀ l, takes gd is g l = true → l < 32 →
          let mine := y.accs.filter fun x => x.lane == l
          (¬ fit → ∃ x, mine = [x] ∧ x.st = .failed 0x13#8)
          ∧ (fit → mine.map (fun x => (x.off, x.size, x.va)) =
            [(0, 8, entry l), (8, 8, entry l + 8#64), (24, 4, freq), (32, 8, entry l)]
            ∧ ∀ x ∈ mine, ∀ c, x.st = .failed c ↔ s.startAccess g false x.size x.va = .trap c))
      ∧ match g.eff d with
        | none => h.fl.pend = g.fl.pend ∧ (o = none ↔ ∀ l, l < 32 → takes gd is g l = false)
        | some n => ∃ x slot, o = some x ∧ x.pend = some slot ∧ Opens g h slot false n 1 is.mask (takes gd is g) la

/-- R78, R209: a probe of tree addresses with leaves in the TLBs of its core answers at issue: Z that a load completes, C that a store does
too, V that the frame lies in the slice range. With a page that the TLBs do not hold it writes no flag yet: it stands among the probes
of the group, and a walk of the page as a probe stands in the walker's queue. That the lanes whose pages the TLBs hold get their flags with the
others and not at issue is the model's choice (log 48). No register and no byte of memory changes. -/
def Claims.Probe : Prop :=
  ∀ (gd : Guard) (cj : BitVec 2) (a : BitVec 6) (bs : BitVec 2) (z : ProbeSize) (s : State) (is : Issue) (g₀ : Group)
    (leaf : Nat → BitVec 64),
    let i := Instr.ldProbe gd cj a bs z
    Fits s i is g₀ →
    let g := g₀.atIssue i is
    let addr := fun (l : Nat) => BitVec.ofNat 64 ((g.rs (baseReg bs)).toNat + (g.rv a l).toNat)
    let holder := g.view.holder
    g.id.walker = false → g.fl.probes = [] →
    (∀ l, l < 32 → takes gd is g l = true → (addr l).toNat < 2 ^ 55 ∧ (addr l).toNat % probeBytes z = 0) →
    ∃ t h, exec i s = .next t ∧ Table.get? t.groups is.grp = some h
      ∧ GoesOn is g h ∧ h.regs.v = g.regs.v ∧ h.regs.s = g.regs.s ∧ h.fl.ops = g.fl.ops ∧ h.fl.pend = g.fl.pend ∧ t.mem = s.mem
      ∧ ((∀ l, l < 32 → takes gd is g l = true → s.tlb g.ctl.core holder g.pinGen ((addr l).toNat / 2 ^ 16) = some (leaf l)) →
        h.fl.probes = [] ∧ ∀ j l, l < 32 → cregGet (h.cond l) j =
          if j = cj ∧ takes gd is g l = true then
            flags false true ((leaf l).getLsbD 1) (inSlice (s.leafPa (leaf l) (addr l) false))
          else cregGet (g.cond l) j)
      ∧ ∀ l, l < 32 → takes gd is g l = true → s.tlb g.ctl.core holder g.pinGen ((addr l).toNat / 2 ^ 16) = none →
        (∃ p, h.fl.probes = [p] ∧ p.set = is.mask ∧ p.creg = cj) ∧ (∀ k, h.cond k = g.cond k)
        ∧ ∃ w ∈ (t.core g.ctl.core).walks, w.region = holder ∧ w.gen = g.pinGen ∧ w.page = (addr l).toNat / 2 ^ 16

/-- R78, R209, R216, R217: the KV load at its issue, and the probe. -/
def Obligations.KvLoadAndProbe : Prop := Claims.KvLoadIssue ∧ Claims.Probe

/-- R215, R92: a fence takes its place in program order and leaves at once when it has nothing to wait for; nothing else of the group
changes but the program counters of its set. -/
def Claims.FenceIssue : Prop :=
  ∀ (kind : FenceKind) (sc : Scope) (s : State) (is : Issue) (g₀ : Group),
    let i := Instr.fence kind sc
    Fits s i is g₀ → Completes s i is fun h =>
      let g := g₀.atIssue i is
      GoesOn is g h ∧ h.fl.nextSeq = g.fl.nextSeq + 1
      ∧ (∀ o ∈ h.fl.ops, o ∈ g.fl.ops ∨ o.kind = .fence kind ∧ o.scope = sc ∧ o.seq = g.fl.nextSeq)
      ∧ (∀ o ∈ g.fl.ops, o.isFence = false → o ∈ h.fl.ops)
      ∧ { h with fl := { h.fl with ops := g.fl.ops, nextSeq := g.fl.nextSeq }, ctl := { h.ctl with pcs := g.ctl.pcs } } = g

/-- R92, R213, R215, R227: ordered adds, uniform loads and stores, and fences at their issue. -/
def Obligations.FurtherMemoryIssue : Prop := Claims.OrderedAddIssue ∧ Claims.UniformMemoryIssue ∧ Claims.FenceIssue

/-! ## Memory at its home (04) -/

/-- R2, R80, R82, R211, R212: an access that may be performed and that no gate holds reads the little-endian value at its physical address
and writes exactly its bytes there, in one step: a store its data, an atomic the result of its operation, a compare-and-swap its offer
when the value equals what it compares; no other byte of memory changes. The store hash of the group takes the bytes written once the pieces
before them are done (R408). For a home that answers no error, where no region records or gates. -/
def Claims.AccessAtHome : Prop :=
  ∀ (s : State) (k seq idx : Nat) (g : Group) (o : MemOp) (a : LaneAcc) (pa : Nat) (v : BitVec 64),
    Table.get? s.groups k = some g → g.opAt seq = some o → o.accs[idx]? = some a → s.accPa a = some pa → a.size ∈ [1, 2, 4, 8] →
    o.kind.writes = true → (∀ f, o.kind ≠ .fadd f) → s.mayPerform k g o idx a = true → a.held = none →
    s.behindHeld (fun _ => true) g.ctl.core k o.seq a = false → s.homeError o a pa (.done v) = none → Quiet s →
    let old := ∑ j ∈ Finset.range a.size, (s.mem.byte (pa + j)).toNat * 256 ^ j
    let sg := fun (x : Nat) => if x % 2 ^ (8 * a.size) < 2 ^ (8 * a.size - 1) then (x % 2 ^ (8 * a.size) : Int)
      else (x % 2 ^ (8 * a.size) : Int) - 2 ^ (8 * a.size)
    let new := (match o.kind with
      | .store _ => some a.data.toNat
      | .atom .add _ => some (old + a.data.toNat)
      | .atom .minI _ => some (if sg old ≤ sg a.data.toNat then old else a.data.toNat)
      | .atom .maxI _ => some (if sg old ≤ sg a.data.toNat then a.data.toNat else old)
      | .atom .minN _ => some (min old (a.data.toNat % 2 ^ (8 * a.size)))
      | .atom .maxN _ => some (max old (a.data.toNat % 2 ^ (8 * a.size)))
      | .atom .band _ => some (old &&& a.data.toNat)
      | .atom .bor _ => some (old ||| a.data.toNat)
      | .atom .bxor _ => some (old ^^^ a.data.toNat)
      | .atom .xchg _ => some a.data.toNat
      | .cas _ => if old = a.cmp.toNat then some a.data.toNat else none
      | _ => none)
    (∀ op n, o.kind = .atom op n → n = a.size) →
    ∃ t, exec (.homeAccessPerform k seq idx (.done v)) s = .next t
      ∧ (∀ x, t.mem.byte x = if pa ≤ x ∧ x < pa + a.size then
          (match new with
          | some n => BitVec.ofNat 8 (n / 256 ^ (x - pa))
          | none => s.mem.byte x)
        else s.mem.byte x)
      ∧ (∀ h, Table.get? t.groups k = some h → h.fl.hash = (foldHash g.fl.hash (g.hashMark o.seq a.lane a.off
          (match new with
            | some n => leBytes a.size n
            | none => []))).1)
      ∧ ∀ h o' a', Table.get? t.groups k = some h → h.opAt seq = some o' → o'.accs[idx]? = some a' →
        a'.done = true ∧ a'.val.toNat = old

/-- R80, R81: a load that may be performed, with no earlier store of its group in the queue, takes the little-endian value at its physical
address; no byte of memory changes. -/
def Claims.LoadAtHome : Prop :=
  ∀ (s : State) (k seq idx : Nat) (g : Group) (o : MemOp) (a : LaneAcc) (pa n : Nat) (signed : Bool) (v : BitVec 64),
    Table.get? s.groups k = some g → g.opAt seq = some o → o.accs[idx]? = some a → s.accPa a = some pa → a.size ∈ [1, 2, 4, 8] →
    o.kind = .load n signed → s.mayPerform k g o idx a = true → a.held = none →
    (∀ x ∈ g.fl.ops, x.queue ≠ .queued) → s.homeError o a pa (.done v) = none → Quiet s →
    ∃ t, exec (.homeAccessPerform k seq idx (.done v)) s = .next t ∧ (∀ x, t.mem.byte x = s.mem.byte x)
      ∧ ∀ h o' a', Table.get? t.groups k = some h → h.opAt seq = some o' → o'.accs[idx]? = some a' →
        a'.done = true ∧ a'.val.toNat = ∑ j ∈ Finset.range a.size, (s.mem.byte (pa + j)).toNat * 256 ^ j

/-- R383 to R387, R98: an access whose home answers an error is not performed, and neither is one that meets poisoned data, data that fails its
check, a port that is down, or a version counter of a private line at its last value (State.spoilt; what meets a write: log 77): no byte of
memory changes, the access has failed with ACCESS, and a violation record names the failure: an access by its virtual address, integrity or
poisoned data by the physical one. For accesses that are no half of 16 bytes, and no pair of an LDK. -/
def Claims.ErrorAtHome : Prop :=
  ∀ (s : State) (k seq idx : Nat) (g : Group) (o : MemOp) (a : LaneAcc) (pa : Nat) (reply : Reply) (e : ErrorKind),
    Table.get? s.groups k = some g → g.opAt seq = some o → o.accs[idx]? = some a → s.accPa a = some pa →
    s.mayPerform k g o idx a = true → a.held = none → s.behindHeld (fun _ => true) g.ctl.core k o.seq a = false → Quiet s →
    (∀ b ∈ o.accs, b.lane = a.lane → b.off = a.off) → a.isPair = false →
    (reply = .error e ∨ (∃ v, reply = .done v) ∧
      s.spoilt pa a.size (a.writes o.kind (BitVec.ofNat 64 (s.mem.nat pa a.size))).isSome = some e) →
    ∃ t, exec (.homeAccessPerform k seq idx reply) s = .next t ∧ SameBytes s t
      ∧ (∀ h o' a', Table.get? t.groups k = some h → h.opAt seq = some o' → o'.accs[idx]? = some a' →
        a'.done = false ∧ a'.st = .failed 0x10#8)
      ∧ t.host.event = s.host.event ||| 4#3
      ∧ (s.fab.violations.length < 4096 → ∃ r, t.fab.violations = s.fab.violations ++ [r] ∧ r.time = BitVec.ofNat 64 s.clk.time
        ∧ match e with
          | .access => r.kind = 1 ∧ r.address = a.va ||| 1#64 <<< 63
          | .integrity => r.kind = 3 ∧ r.address = BitVec.ofNat 64 pa
          | .poison => r.kind = 4 ∧ r.address = BitVec.ofNat 64 pa)

/-- R383 to R385: a home refuses a write to a line of a private window whose version counter has reached 2^56 - 1, and no other; what an access
within one line then meets: an error of integrity at a port that is down or for a refused write, else what the line holds, which for a write
is poison alone (log 77). -/
def Claims.VersionCounters : Prop :=
  ∀ (s : State) (pa n : Nat) (write : Bool), 0 < n → pa / 64 = (pa + n - 1) / 64 →
    (s.inPrivate pa = true → (s.refuses pa n = true ↔ 2 ^ 56 - 1 ≤ Table.getD s.versions (pa / 64) 0))
    ∧ (s.inPrivate pa = false → s.refuses pa n = false)
    ∧ s.spoilt pa n write = if s.portDown pa = true ∨ write = true ∧ s.refuses pa n = true then some .integrity
      else match Table.get? s.bad (pa / 64) with
        | some .integrity => if write then none else some .integrity
        | x => x

/-- R408: a store's bytes enter the hash in aligned pieces of four bytes, lowest address first. -/
def Claims.StoreHash : Prop :=
  ∀ (h : BitVec 32) (va : BitVec 64) (bs : List Byte),
    let step := fun (h : BitVec 32) (a v : Nat) => BitVec.ofNat 32 (h.toNat * 33 + (a % 2 ^ 32 ^^^ v))
    let word := fun (lo n at_ : Nat) => ∑ j ∈ Finset.range n, (bs.getD (lo + j) 0#8).toNat * 256 ^ (at_ + j)
    (bs.length ∈ [1, 2, 4] → va.toNat % bs.length = 0 →
      hashStore h va bs = step h (va.toNat / 4 * 4) (word 0 bs.length (va.toNat % 4)))
    ∧ (bs.length = 8 → va.toNat % 8 = 0 → hashStore h va bs = step (step h va.toNat (word 0 4 0)) (va.toNat + 4) (word 4 4 0))

/-- R408: the pieces of a group's stores enter its hash in the order in which its stores left the queue and in ascending lane order: those that
are done, with all before them; one that wrote nothing adds nothing. -/
def Claims.HashInOrder : Prop :=
  ∀ (h : BitVec 32) (ps : List HashPiece), ∃ n, n ≤ ps.length ∧ (∀ p ∈ ps.take n, p.done = true)
    ∧ (∀ p, ps[n]? = some p → p.done = false) ∧ (foldHash h ps).2 = ps.drop n
    ∧ (foldHash h ps).1 = (ps.take n).foldl (fun h p => if p.bytes = [] then h else hashStore h p.va p.bytes) h

/-- R2, R80 to R82, R98, R211, R212, R383 to R387, R408: stores, atomics and loads at their home, the errors of a home, and the store hash. -/
def Obligations.AccessesAtHome : Prop :=
  Claims.AccessAtHome ∧ Claims.LoadAtHome ∧ Claims.ErrorAtHome ∧ Claims.VersionCounters ∧ Claims.StoreHash ∧ Claims.HashInOrder

/-! ## Barriers and sleep (12: R229 to R233) -/

/-- R230: bar, gbar and arrive record every thread of the set as arrived in the current phase of their barrier; a set of bar or gbar then
waits for it, while another thread of the instance has not arrived; no register and no byte of memory changes. -/
def Claims.BarrierArrival : Prop :=
  ∀ (n : BitVec 3) (refresh gang waits : Bool) (i : Instr) (s : State) (is : Issue) (g₀ : Group) (a : Gang),
    (i = .bar n refresh ∧ gang = false ∧ waits = true ∨ i = .gbar n refresh ∧ gang = true ∧ waits = true
      ∨ i = .arrive n gang ∧ waits = false) →
    Fits s i is g₀ →
    let g := g₀.atIssue i is
    let k := barrierKey gang n.toNat g.id.wg
    let b := s.barrier g.id.gang k
    Table.get? s.gangs g.id.gang = some a →
    (∀ l, l < 32 → has is.mask l = true → b.arrivedAt (g.threadKey l) ≠ b.phase + 1) →
    (∃ p ∈ s.groups, p.1 ≠ is.grp ∧ p.2.inInstance g.id.gang k = true ∧ ∃ l, l < 32 ∧ has p.2.live l = true
      ∧ b.arrivedAt (p.2.threadKey l) ≠ b.phase + 1 ∧ ∀ j, j < 32 → has is.mask j = true → g.threadKey j ≠ p.2.threadKey l) →
    ∃ t h, exec i s = .next t ∧ Table.get? t.groups is.grp = some h
      ∧ (∀ j, j ≠ is.grp → Table.get? t.groups j = Table.get? s.groups j) ∧ (∀ x, t.mem.byte x = s.mem.byte x)
      ∧ (t.barrier g.id.gang k).phase = b.phase
      ∧ (∀ l, l < 32 → has is.mask l = true → (t.barrier g.id.gang k).arrivedAt (g.threadKey l) = b.phase + 1)
      ∧ (∀ x, (∀ l, l < 32 → has is.mask l = true → g.threadKey l ≠ x) →
        (t.barrier g.id.gang k).arrivedAt x = b.arrivedAt x)
      ∧ (∀ l, l < 32 → h.waitOf l = if has is.mask l = true ∧ waits = true then some (.barrier gang n.toNat b.phase refresh)
        else g.waitOf l)
      ∧ GoesOn is g h ∧ h.regs = g.regs ∧ h.fl = g.fl ∧ h.tr = g.tr

/-- R230: when the set that arrives is all that a phase still lacked, in an instance of one group, the phase counter advances and no
thread of the set waits. -/
def Claims.BarrierCompletion : Prop :=
  ∀ (n : BitVec 3) (gang : Bool) (s : State) (is : Issue) (g₀ : Group) (a : Gang),
    let i := if gang then Instr.gbar n false else .bar n false
    Fits s i is g₀ →
    let g := g₀.atIssue i is
    let k := barrierKey gang n.toNat g.id.wg
    let b := s.barrier g.id.gang k
    Table.get? s.gangs g.id.gang = some a → is.mask = g.live → is.mask ≠ 0#32 → g.ctl.waits = [] → g.tr.saved = [] →
    (s.groups.filter fun p => p.2.inInstance g.id.gang k) = [(is.grp, g₀)] →
    (∀ l, l < 32 → has is.mask l = true → b.arrivedAt (g.threadKey l) ≠ b.phase + 1) →
    ∃ t h, exec i s = .next t ∧ Table.get? t.groups is.grp = some h ∧ (t.barrier g.id.gang k).phase = b.phase + 1
      ∧ (∀ l, l < 32 → h.waitOf l = none) ∧ GoesOn is g h ∧ h.regs = g.regs ∧ h.fl = g.fl ∧ ∀ x, t.mem.byte x = s.mem.byte x

/-- R230: wait makes the threads that have arrived in the phase that has not completed wait for it; the other threads of the set continue at
once. -/
def Claims.BarrierWait : Prop :=
  ∀ (n : BitVec 3) (gang refresh : Bool) (s : State) (is : Issue) (g₀ : Group),
    let i := Instr.wait n gang refresh
    Fits s i is g₀ → Completes s i is fun h =>
      let g := g₀.atIssue i is
      let b := s.barrier g.id.gang (barrierKey gang n.toNat g.id.wg)
      (∀ l, l < 32 → h.waitOf l = if has is.mask l = true ∧ b.arrivedAt (g.threadKey l) = b.phase + 1 then
          some (.barrier gang n.toNat b.phase refresh) else g.waitOf l)
      ∧ GoesOn is g h
      ∧ { h with ctl := { h.ctl with pcs := g.ctl.pcs, waits := g.ctl.waits, waitSince := g.ctl.waitSince } } = g

/-- R230: arrival, completion and waiting. -/
def Obligations.Barriers : Prop := Claims.BarrierArrival ∧ Claims.BarrierCompletion ∧ Claims.BarrierWait

/-- R233: a sleep whose address passes the checks of a load puts its set to sleep on the word, its first read due; sz leaves the region's park
threshold in force. -/
def Claims.SleepIssue : Prop :=
  ∀ (d a b : BitVec 6) (n64 : Bool) (c : SleepCond) (s : State) (is : Issue) (g₀ : Group),
    let i := Instr.sleep d a b n64 c
    Fits s i is g₀ →
    let g := g₀.atIssue i is
    (∃ st, s.startAccess g false (if n64 then 8 else 4) (g.rs a) = .ok st) →
    Completes s i is fun h => ∃ z, h.fl.sleepers = g.fl.sleepers ++ [z] ∧ z.va = g.rs a ∧ z.n64 = n64 ∧ z.cond = c ∧ z.mask = is.mask
      ∧ z.pc = is.pc ∧ z.val.toNat = (if n64 then (g.rs b).toNat else (g.rs b).toNat % 2 ^ 32) ∧ z.due = true
      ∧ (z.threshold = if d = 63#6 then none else some (BitVec.ofNat 16 (g.rs d).toNat))
      ∧ h.fl.nextSeq = g.fl.nextSeq + 1
      ∧ (∀ l, l < 32 → h.waitOf l = if has is.mask l = true then some (.sleep z.seq) else g.waitOf l) ∧ GoesOn is g h ∧ z.seq = g.fl.nextSeq
      ∧ { h with fl := { h.fl with sleepers := g.fl.sleepers, nextSeq := g.fl.nextSeq }
                 ctl := { h.ctl with pcs := g.ctl.pcs, waits := g.ctl.waits, waitSince := g.ctl.waitSince } } = g

/-- R233: a due read of a sleep in a role window reads the word at its home; when the condition holds the set continues, otherwise it waits for
the next store to the word. -/
def Claims.SleepRead : Prop :=
  ∀ (s : State) (k : Nat) (g : Group) (z : Sleeper) (pa : Nat) (v : BitVec 64),
    Table.get? s.groups k = some g → g.fl.sleepers = [z] → g.sleepDue z = true →
    s.startAccess g false (if z.n64 then 8 else 4) z.va = .ok (.direct pa) →
    (∀ j h, Table.get? s.groups j = some h → h.fl.ops = []) → g.fl.cmds = [] → (s.core g.ctl.core).out = [] → s.early = [] →
    s.inCxl pa = false → Quiet s →
    let n := if z.n64 then 8 else 4
    let word := ∑ j ∈ Finset.range n, (s.mem.byte (pa + j)).toNat * 256 ^ j
    let meets := (match z.cond with
      | .eq => word = z.val.toNat | .ne => word ≠ z.val.toNat | .lo => word < z.val.toNat | .hs => z.val.toNat ≤ word)
    s.spoilt pa n false = none →
    ∃ t h, exec (.sleepWake k z.pc (.done v)) s = .next t ∧ Table.get? t.groups k = some h ∧ (∀ x, t.mem.byte x = s.mem.byte x)
      ∧ (meets → h.fl.sleepers = [] ∧ ∀ l, l < 32 → has z.mask l = true → g.waitOf l = some (.sleep z.seq) → h.waitOf l = none)
      ∧ (¬ meets → ∃ y, h.fl.sleepers = [y] ∧ y.due = false ∧ y.pa = some pa ∧ h.ctl.waits = g.ctl.waits)

/-- R233: sleep at its issue, and its reads. -/
def Obligations.SleepAndItsReads : Prop := Claims.SleepIssue ∧ Claims.SleepRead

/-! ## Roots (12: R236, R237) -/

/-- R69, R236: refresh moves the group's pin to the region's current slot and takes the region's fields; the set goes on; no register and no
byte of memory changes. After an update that gave the region's slots to another holder, a group with something in flight on the old slots stays on
them until a later refresh, which is the model's choice (log 32). -/
def Claims.Refresh : Prop :=
  ∀ (s : State) (is : Issue) (g₀ : Group), Fits s .refresh is g₀ →
    let g := g₀.atIssue .refresh is
    let rcb := s.regionOf g
    let home := s.slotHolder rcb
    let slot := s.currentSlot home
    ∃ t h, exec .refresh s = .next t ∧ Table.get? t.groups is.grp = some h
      ∧ (∀ j, j ≠ is.grp → Table.get? t.groups j = Table.get? s.groups j) ∧ (∀ x, t.mem.byte x = s.mem.byte x)
      ∧ (g.view.holder = home ∨ g.onSlots = false →
        h.pinSlot = slot ∧ h.pinGen = BitVec.ofNat 16 ((s.slotWord home slot).toNat / 2 ^ 48) ∧ h.view = s.viewOf rcb)
      ∧ (g.view.holder ≠ home → g.onSlots = true → let stays := s.currentSlot g.view.holder
        h.pinSlot = stays ∧ h.pinGen = BitVec.ofNat 16 ((s.slotWord g.view.holder stays).toNat / 2 ^ 48)
        ∧ h.view = { s.viewOf rcb with holder := g.view.holder })
      ∧ GoesOn is g h
      ∧ { h with pinSlot := g.pinSlot, pinGen := g.pinGen, view := g.view, ctl := { h.ctl with pcs := g.ctl.pcs } } = g

/-- R237: rootsw goes on at once and leaves its step outstanding with the words of SA and SB. -/
def Claims.RootSwitchIssue : Prop :=
  ∀ (d a b : BitVec 6) (s : State) (is : Issue) (g₀ : Group),
    let i := Instr.rootsw d a b
    Fits s i is g₀ → Completes s i is fun h =>
      let g := g₀.atIssue i is
      h.fl.roots = g.fl.roots ++ [⟨d, g.rs a, g.rs b, g.fl.nextSeq⟩] ∧ h.fl.nextSeq = g.fl.nextSeq + 1 ∧ GoesOn is g h
      ∧ { h with fl := { h.fl with roots := g.fl.roots, nextSeq := g.fl.nextSeq }, ctl := { h.ctl with pcs := g.ctl.pcs } } = g

/-- R237: the step of a root switch at the region's home: code 4 for a malformed word, 1 for another current generation, 3 for a generation that
a valid slot holds, 2 with no free slot, 0 with the word in the lowest free slot, which becomes current; the result names the code, the current
generation and the slot. -/
def Claims.RootSwitchStep : Prop :=
  ∀ (s : State) (k home : Nat) (g : Group) (r : RootSw) (rest : List RootSw) (R : Region),
    Table.get? s.groups k = some g → g.fl.roots = r :: rest → g.released r.seq = true → g.heldByCommand r.seq = false →
    home = g.view.holder →
    Table.get? s.regions home = some R →
    let word := fun (j : Nat) => Table.getD R.slots j 0#64
    let gen := fun (w : BitVec 64) => w.toNat / 2 ^ 48
    let valid := fun (j : Nat) => (word j).getLsbD 0
    let good := r.word.getLsbD 0 = true ∧ r.word.getLsbD 1 = false ∧ r.word.toNat / 2 ^ 4 % 2 ^ 5 = 0
      ∧ s.inMemory (r.word.toNat / 2 ^ 9 % 2 ^ 39 * 2 ^ 13) = true ∧ r.gen.toNat < 2 ^ 16
    let result := fun (code g slot : Nat) => BitVec.ofNat 64 (code * 2 ^ 56 + g * 2 ^ 16 + slot)
    ∃ t h R', exec (.rootswStep k) s = .next t ∧ Table.get? t.groups k = some h ∧ Table.get? t.regions home = some R'
      ∧ h.fl.roots = rest ∧ (∀ x, t.mem.byte x = s.mem.byte x)
      ∧ (¬ good → R' = R ∧ ∀ n, h.sreg n = if r.d ≠ 63#6 ∧ n = r.d.toNat then result 4 (gen (word R.current)) 0 else g.sreg n)
      ∧ (good → gen (word R.current) ≠ r.gen.toNat → R' = R
        ∧ ∀ n, h.sreg n = if r.d ≠ 63#6 ∧ n = r.d.toNat then result 1 (gen (word R.current)) 0 else g.sreg n)
      ∧ (good → gen (word R.current) = r.gen.toNat → (∃ j, j < 8 ∧ valid j = true ∧ gen (word j) = gen r.word) → R' = R
        ∧ ∀ n, h.sreg n = if r.d ≠ 63#6 ∧ n = r.d.toNat then result 3 (gen (word R.current)) 0 else g.sreg n)
      ∧ (good → gen (word R.current) = r.gen.toNat → (∀ j, j < 8 → valid j = true ∧ gen (word j) ≠ gen r.word) → R' = R
        ∧ ∀ n, h.sreg n = if r.d ≠ 63#6 ∧ n = r.d.toNat then result 2 (gen (word R.current)) 0 else g.sreg n)
      ∧ ∀ j, j < 8 → valid j = false → (∀ i, i < j → valid i = true) →
        (∀ i, i < 8 → valid i = true → gen (word i) ≠ gen r.word) → good → gen (word R.current) = r.gen.toNat →
        R'.current = j ∧ (∀ i, Table.getD R'.slots i 0#64 = if i = j then r.word else word i)
        ∧ ∀ n, h.sreg n = if r.d ≠ 63#6 ∧ n = r.d.toNat then result 0 (gen r.word) j else g.sreg n

/-- R69, R236, R237: refresh, and the root switch from its issue to its step. -/
def Obligations.RefreshAndRootSwitch : Prop := Claims.Refresh ∧ Claims.RootSwitchIssue ∧ Claims.RootSwitchStep

/-! ## The Scribe walker (21: R363 to R365, 12: R238) -/

/-- R363, R364: a walk starts in the walker slot of a core that runs none: the page, the root and the kind of the access in s0, s1 and s2, lane 0 at
the routine's entry. -/
def Claims.WalkStart : Prop :=
  ∀ (s : State) (core : Nat) (w : Walk) (rest : List Walk), (s.core core).walks = w :: rest → (s.core core).walking = false →
    s.host.dev = .running →
    ∃ t h, exec (.walkStart core) s = .next t ∧ Table.get? t.groups (walkerKey core) = some h ∧ (t.core core).walking = true
      ∧ (t.core core).walkIssued = 0 ∧ (t.core core).walks = w :: rest
      ∧ h.pc 0 = BitVec.ofNat 64 s.boot.walkerEntry ∧ h.sreg 0 = BitVec.ofNat 64 (w.page * 2 ^ 16) ∧ h.sreg 1 = w.root
      ∧ h.sreg 2 = BitVec.ofNat 64 (w.kind + 8 * w.probe.toNat)
      ∧ (∀ j, j ≠ walkerKey core → Table.get? t.groups j = Table.get? s.groups j) ∧ ∀ x, t.mem.byte x = s.mem.byte x

/-- R238, R70: in the walker slot each form of tlbf ends the running walk of its core; a fill whose leaf is well formed and whose page is the
walk's fills the TLBs of the core and of its cluster with it, while the slot of the walk is valid and of its generation. -/
def Claims.WalkEnds : Prop :=
  ∀ (a b : BitVec 6) (i : Instr) (s : State) (is : Issue) (g₀ : Group) (w : Walk) (rest : List Walk),
    i = .tlbfFill a b ∨ i = .tlbfReq a b ∨ i = .tlbfBad a b → Fits s i is g₀ →
    let g := g₀.atIssue i is
    (s.core g.ctl.core).walks = w :: rest → (s.core g.ctl.core).walking = true →
    ∃ t h, exec i s = .next t ∧ Table.get? t.groups is.grp = some h ∧ (t.core g.ctl.core).walking = false
      ∧ (t.core g.ctl.core).walkIssued = 0 ∧ (t.core g.ctl.core).walks = rest
      ∧ (∀ x, t.mem.byte x = s.mem.byte x) ∧ h.regs = g.regs ∧ GoesOn is g h
      ∧ (i = .tlbfFill a b → (g.rs b).getLsbD 0 = true → s.leafOk (g.rs b) = true →
        (g.rs a).toNat / 2 ^ 16 % 2 ^ 40 = w.page → (s.slotWord w.region w.slot).getLsbD 0 = true →
        (s.slotWord w.region w.slot).toNat / 2 ^ 48 = w.gen.toNat →
        t.tlb g.ctl.core w.region w.gen w.page = some (g.rs b)
        ∧ ∃ e ∈ (t.cluster (g.ctl.core / 4)).tlb, e = ⟨w.region, w.gen, w.page, g.rs b⟩)
      ∧ (i = .tlbfBad a b → (s.groups.filter fun p => p.1 ≠ is.grp) = [] →
        t.tlb g.ctl.core w.region w.gen w.page = s.tlb g.ctl.core w.region w.gen w.page)

/-- R365, R378: a walk whose routine has issued 4,096 instructions without a tlbf ends, and a walker-fault notice goes to the ring
(its layout is the model's: log 9). Stated where no set sleeps: one that waits for the walk fails besides. -/
def Claims.WalkerLimit : Prop :=
  ∀ (s : State) (core : Nat) (w : Walk) (rest : List Walk), (s.core core).walks = w :: rest → (s.core core).walking = true →
    4096 ≤ (s.core core).walkIssued → (∀ p ∈ s.groups, p.2.fl.sleepers = []) →
    ∃ t, exec (.walkerInstructionLimit core) s = .next t ∧ (t.core core).walking = false ∧ (t.core core).walks = rest
      ∧ t.host = (s.notice (walkerNotice core w)).host ∧ ∀ x, t.mem.byte x = s.mem.byte x

/-- R238, R363 to R365: how a walk starts and ends. -/
def Obligations.ScribeWalks : Prop := Claims.WalkStart ∧ Claims.WalkEnds ∧ Claims.WalkerLimit

/-! ## Traps (12: R239 to R242) -/

/-- R239, R241, R242: trap and brk raise SWTRAP and BREAK at their issue with their immediate; with nothing pending, a handler and no debugger the
set enters the handler: the trap state is written, the return PC is the next word's, the set's lanes stand at TVEC, and nothing else of the group
changes. -/
def Claims.SoftwareTraps : Prop :=
  ∀ (imm : BitVec 12) (i : Instr) (code : BitVec 8) (s : State) (is : Issue) (g₀ : Group),
    i = .trap imm ∧ code = 0x40#8 ∨ i = .brk imm ∧ code = 0x20#8 → Fits s i is g₀ →
    let g := g₀.atIssue i is
    g.fl.pend = [] → g.id.walker = false → s.dbg.attached = none → g.tr.st.active = false → g.tr.tvec ≠ 0#56 →
    (∀ l, l < 32 → has is.mask l = true → g.waitOf l = none) →
    ∃ t h, exec i s = .next t ∧ Table.get? t.groups is.grp = some h ∧ OnlyGroup (s.countTrap g) t is.grp
      ∧ h.tr.st.code = code ∧ h.tr.st.active = true ∧ h.tr.st.resume = false ∧ h.tr.st.imm = imm ∧ h.tr.st.pc = is.pc
      ∧ h.tr.st.ret = is.pc + 4#56 ∧ h.tr.st.word = is.word ∧ h.tr.st.mask = is.mask ∧ h.tr.st.failed = 0#32 ∧ h.tr.st.cur = 0#56
      ∧ h.tr.entering = none ∧ h.tr.tvec = g.tr.tvec ∧ h.tr.boundary = g.tr.boundary
      ∧ (∀ l, l < 32 → h.pc l = if has is.mask l = true then BitVec.ofNat 64 g.tr.tvec.toNat else g.pc l)
      ∧ h.regs = g.regs ∧ h.fl = g.fl

/-- R239: a word that a check of R137 traps has no effect but the trap: with nothing pending, a handler and no debugger the set enters the handler
with the code of the check, and the return PC is the word's own; no register, flag or byte of memory changes. -/
def Claims.TrapOfACheck : Prop :=
  ∀ (i : Instr) (code : BitVec 8) (s : State) (is : Issue) (g₀ : Group), i.isWord = true →
    s.issue = some is → Table.get? s.groups is.grp = some g₀ →
    s.wordTrap i is.mask (g₀.moves i.closes is.mask) = some code →
    let g := g₀.moves i.closes is.mask
    g.fl.pend = [] → g.id.walker = false → s.dbg.attached = none → g.tr.st.active = false → g.tr.tvec ≠ 0#56 →
    ∃ t h, exec i s = .next t ∧ Table.get? t.groups is.grp = some h ∧ OnlyGroup (s.countTrap g) t is.grp
      ∧ h.tr.st.code = code ∧ h.tr.st.active = true ∧ h.tr.st.pc = is.pc ∧ h.tr.st.ret = is.pc ∧ h.tr.st.word = is.word
      ∧ h.tr.st.mask = is.mask ∧ h.tr.st.failed = 0#32 ∧ h.tr.st.info = 0#32 ∧ h.tr.st.addr = 0#64 ∧ h.tr.st.imm = 0#12
      ∧ (∀ l, l < 32 → h.pc l = if has is.mask l = true then BitVec.ofNat 64 g.tr.tvec.toNat else g.pc l)
      ∧ h.regs = g.regs ∧ h.fl = g.fl

/-- R242: tret outside a handler only goes on; inside one it clears handler active, sends every lane of the set mask that has not exited to TRETPC and
returns it to the wait it came from while the resume-wait bit is 1. -/
def Claims.TrapReturn : Prop :=
  ∀ (s : State) (is : Issue) (g₀ : Group), Fits s .tret is g₀ →
    let g := g₀.atIssue .tret is
    Completes s .tret is fun h =>
      (g.tr.st.active = false → GoesOn is g h ∧ h.tr = g.tr ∧ h.regs = g.regs ∧ h.fl = g.fl)
      ∧ (g.tr.st.active = true →
        h.tr.st.active = false ∧ h.tr.st.resume = false ∧ h.tr.saved = []
        ∧ (∀ l, l < 32 → has g.tr.st.mask l = true → has g.live l = true →
          h.pc l = BitVec.ofNat 64 g.tr.st.ret.toNat ∧ h.waitOf l = if g.tr.st.resume = true then Table.get? g.tr.saved l else none)
        ∧ (∀ l, l < 32 → has g.tr.st.mask l = false → has is.mask l = false → h.pc l = g.pc l ∧ h.waitOf l = g.waitOf l)
        ∧ h.tr.tvec = g.tr.tvec ∧ h.tr.boundary = g.tr.boundary ∧ h.regs = g.regs ∧ h.fl = g.fl)

/-- R35: preq with a notice in its handler ends the group's issuing until it resumes; without one it does nothing. That it does so while the
notice is pending too, and takes PNOTICE from the boundary, is the model's reading (log 28). -/
def Claims.PreemptionReady : Prop :=
  ∀ (s : State) (is : Issue) (g₀ : Group), Fits s .preq is g₀ → Completes s .preq is fun h =>
    let g := g₀.atIssue .preq is
    GoesOn is g h ∧ h.regs = g.regs ∧ h.fl = g.fl
    ∧ (g.ctl.notice = .pending ∨ g.ctl.notice = .handler → h.ctl.notice = .done
      ∧ h.tr.boundary = g.tr.boundary.filter fun t => t.code ≠ 0x31#8)
    ∧ (g.ctl.notice = .none ∨ g.ctl.notice = .done → OnlyGoesOn is g h)

/-- R35, R242: tret and preq. -/
def Obligations.TrapReturnAndPreq : Prop := Claims.TrapReturn ∧ Claims.PreemptionReady

/-- R149, R239: a trap that waited is entered once every pending value has landed and its context lines stand in the register cache, after
the values have moved into their registers. -/
def Claims.TrapEntry : Prop :=
  ∀ (s : State) (k : Nat) (g : Group) (q : TrapReq),
    Table.get? s.groups k = some g → g.tr.entering = some q → g.id.walker = false → g.ctl.dead = false →
    s.mayMoveAll g = true → s.dbg.attached = none → g.tr.st.active = false →
    g.tr.tvec ≠ 0#56 → q.code ≠ 0x30#8 → q.code ≠ 0x31#8 →
    ∃ t h, exec (.trapEntry k) s = .next t ∧ Table.get? t.groups k = some h
      ∧ (∀ j, j ≠ k → Table.get? t.groups j = Table.get? s.groups j) ∧ (∀ x, t.mem.byte x = s.mem.byte x)
      ∧ h.tr.st.code = q.code ∧ h.tr.st.active = true ∧ h.tr.st.pc = q.pc ∧ h.tr.st.ret = q.ret ∧ h.tr.st.mask = q.mask
      ∧ h.tr.st.failed = q.failed ∧ h.tr.st.addr = q.addr ∧ h.tr.entering = none
      ∧ (∀ l, l < 32 → h.pc l = if has q.mask l = true then BitVec.ofNat 64 g.tr.tvec.toNat else g.pc l)
      ∧ (∀ l, l < 32 → has q.mask l = true → h.waitOf l = none) ∧ h.regs = g.moveAll.regs

/-- R149, R239, R241, R242: the traps of trap and brk, of a check at issue, and the entry of a trap that waited. -/
def Obligations.TrapsTaken : Prop := Claims.SoftwareTraps ∧ Claims.TrapOfACheck ∧ Claims.TrapEntry

/-- R61, R137 check 2: a swrite of TVEC whose bits 1:0 or 63:56 are not zero traps ILLFLD; otherwise it writes TVEC. TRETPC is written inside a
handler only, without its reserved bits (00: R5 has writes to them ignored; which they are, bits 1:0 and 63:56, is log 28); LCR.n becomes the value
written, on the group's core, and stays 0 where the core holds no bin set of the partition (24: R396). -/
def Obligations.SpecialRegisterWrites : Prop :=
  ∀ (d : BitVec 6) (n : BitVec 3) (s : State) (is : Issue) (g₀ : Group),
    (Fits s (.swrite d .tvec) is g₀ →
      let g := g₀.atIssue (.swrite d .tvec) is
      ((g.rs d).toNat % 4 = 0 → (g.rs d).toNat < 2 ^ 56 → Completes s (.swrite d .tvec) is fun h =>
        h.tr.tvec.toNat = (g.rs d).toNat ∧ GoesOn is g h
        ∧ { h with tr := { h.tr with tvec := g.tr.tvec }, ctl := { h.ctl with pcs := g.ctl.pcs } } = g)
      ∧ ((g.rs d).toNat % 4 ≠ 0 ∨ 2 ^ 56 ≤ (g.rs d).toNat →
        exec (.swrite d .tvec) s = .next ((s.setGroup is.grp g).raiseAtIssue is.grp (is.trap 0x02#8))))
    ∧ (Fits s (.swrite d .tretpc) is g₀ → Completes s (.swrite d .tretpc) is fun h =>
      let g := g₀.atIssue (.swrite d .tretpc) is
      GoesOn is g h
      ∧ { h with tr := { h.tr with st := { h.tr.st with ret := g.tr.st.ret } }, ctl := { h.ctl with pcs := g.ctl.pcs } } = g
      ∧ h.tr.st.ret.toNat = if g.tr.st.active = true then (g.rs d).toNat % 2 ^ 56 / 4 * 4 else g.tr.st.ret.toNat)
    ∧ (Fits s (.swrite d (.lcr n)) is g₀ →
      let g := g₀.atIssue (.swrite d (.lcr n)) is
      ∀ b, (s.core g.ctl.core).bins.find? (fun b => b.partition == g.view.partition) = some b →
      ∃ t h, exec (.swrite d (.lcr n)) s = .next t ∧ Table.get? t.groups is.grp = some h ∧ OnlyGoesOn is g h
        ∧ ∀ m, t.lcr g m = if m = n.toNat then g.rs d else s.lcr g m)
    ∧ (Fits s (.swrite d (.lcr n)) is g₀ →
      let g := g₀.atIssue (.swrite d (.lcr n)) is
      (∀ b ∈ (s.core g.ctl.core).bins, b.partition ≠ g.view.partition) →
      ∃ t h, exec (.swrite d (.lcr n)) s = .next t ∧ Table.get? t.groups is.grp = some h ∧ OnlyGoesOn is g h ∧ ∀ m, t.lcr g m = 0#64)

/-- R243: sread writes the special register's value to a uniform register, or its low 32 bits to a vector register in every lane of the set, each lane
its own LANEID; stamp reads TIME, and stamp.ord does not issue while a store of the group is not performed or a load of it is not complete. -/
def Obligations.SpecialRegisterReads : Prop :=
  ∀ (d : BitVec 6) (reg : SpecReg) (s : State) (is : Issue) (g₀ : Group) (ord : Bool),
    let value := fun (g : Group) => (match reg with
      | .laneid => ((List.range 32).filter (has is.mask)).headD 0
      | .grpid => g.id.grpid
      | .wgidX => (s.wgids g).1
      | .wgidY => (s.wgids g).2.1
      | .wgidZ => (s.wgids g).2.2
      | .gangid => s.gangidOf g
      | .cluid => g.ctl.core / 4
      | .dieid => g.ctl.core / 80
      | .devid => s.device.toNat
      | .time => s.clk.time
      | .cycle => s.clk.cycle
      | .seed => (s.seedOf g).toNat
      | .prio => g.ctl.cls.toNat + 4 * max g.ctl.cls.toNat (s.ceiling (s.regionOf g))
          + 16 * (s.setGroup is.grp g).effClass is.grp + 64 * s.ceiling (s.regionOf g)
      | .rootslot => g.pinSlot % 8 + 16 * (s.currentSlot g.view.holder % 8) + 2 ^ 16 * g.pinGen.toNat
      | .tvec => g.tr.tvec.toNat
      | .xi => g.regs.xi.toNat
      | .chwp n => (s.chwp g.id.gang n.toNat).toNat
      | .lcr n => (s.lcr g n.toNat).toNat
      | .trapcode => g.tr.st.code.toNat + 2 ^ 8 * g.tr.st.active.toNat + 2 ^ 9 * g.tr.st.resume.toNat + 2 ^ 10 * g.tr.st.held.toNat
          + 2 ^ 16 * g.tr.st.imm.toNat
      | .trappc => g.tr.st.pc.toNat
      | .tretpc => g.tr.st.ret.toNat
      | .trapaddr => g.tr.st.addr.toNat
      | .trapmask => g.tr.st.mask.toNat + 2 ^ 32 * g.tr.st.failed.toNat
      | .trapinfo => g.tr.st.info.toNat
      | .trapcur => g.tr.st.cur.toNat
      | .role n => (s.roleWord g n.toNat).toNat)
    (Fits s (.sread d reg false) is g₀ → Completes s (.sread d reg false) is fun h =>
      let g := g₀.atIssue (.sread d reg false) is
      UniWrites is g h d (BitVec.ofNat 64 (value g)))
    ∧ (Fits s (.sread d reg true) is g₀ → Completes s (.sread d reg true) is fun h =>
      let g := g₀.atIssue (.sread d reg true) is
      LaneWrites is g h (every is g) d fun l => BitVec.ofNat 32 (if reg = .laneid then l else value g))
    ∧ (Fits s (.stamp d ord) is g₀ → Completes s (.stamp d ord) is fun h =>
      UniWrites is (g₀.atIssue (.stamp d ord) is) h d (BitVec.ofNat 64 s.clk.time))
    ∧ ((∃ o ∈ g₀.fl.ops, o.kind.reads = true ∨ o.kind.writes = true) → g₀.wordReady (.stamp d true) is.mask = false)

/-- R244, R402: a mark goes on; while the marks of the group's partition are off nothing else changes, and while they are on and the ring has room the
48 bytes of the record stand at the ring's write index, which advances; no other byte changes (unless its store gets an error response). -/
def Obligations.Marks : Prop :=
  ∀ (d : BitVec 6) (imm : BitVec 12) (i : Instr) (s : State) (is : Issue) (g₀ : Group) (p : Partition),
    i = .pmark imm ∨ i = .pmarkV d imm → Fits s i is g₀ →
    let g := g₀.atIssue i is
    ∃ t h, exec i s = .next t ∧ Table.get? t.groups is.grp = some h ∧ h.regs = g.regs ∧ GoesOn is g h
      ∧ (Table.get? s.prof.parts g.view.partition = none → OnlyGroup s t is.grp ∧ OnlyGoesOn is g h)
      ∧ (Table.get? s.prof.parts g.view.partition = some p → p.on 3 = false → OnlyGroup s t is.grp ∧ OnlyGoesOn is g h)
      ∧ (Table.get? s.prof.parts g.view.partition = some p → p.on 3 = true → p.writeIndex - p.readIndex < p.capacity →
        let at_ := p.ring + 48 * (p.writeIndex % p.capacity)
        s.spoilt at_ 48 true = none →
        (∀ x, x < at_ ∨ at_ + 48 ≤ x → t.mem.byte x = s.mem.byte x)
        ∧ t.mem.nat at_ 8 = s.clk.time % 2 ^ 64 ∧ t.mem.nat (at_ + 26) 2 = imm.toNat
        ∧ t.mem.nat (at_ + 32) 8 = (if i = .pmark imm then 0 else (g.rs d).toNat)
        ∧ t.mem.nat (at_ + 40) 8 = is.mask.toNat + 2 ^ 32 * (g.id.grpid % 16)
        ∧ (Table.get? t.prof.parts g.view.partition).map Partition.writeIndex = some (p.writeIndex + 1))

/-- R112, R305, R420: what the home does with an access to a word of an armed gate, when no other gate is armed and nothing is recorded. A
lane access whose group, of the gate's region or below it, lane and ordinal the word's script names, but not next, is held: it is not
performed and no byte changes. One that is named next is performed and the script of its word goes on by one, the others stay; with the
last entry of all, the gate is disarmed and code 1 stored. Any other is performed at once and counted as unscripted. -/
def Claims.GatedAccess : Prop :=
  ∀ (s : State) (k seq idx rcb : Nat) (g : Group) (o : MemOp) (a : LaneAcc) (pa : Nat) (v : BitVec 64) (R : Region) (x : Gate),
    Table.get? s.groups k = some g → g.opAt seq = some o → o.accs[idx]? = some a → s.accPa a = some pa → (∀ f, o.kind ≠ .fadd f) →
    s.mayPerform k g o idx a = true → s.behindHeld (fun _ => true) g.ctl.core k o.seq a = false → s.homeError o a pa (.done v) = none →
    a.held = none → a.judged = false → Table.get? s.regions rcb = some R → R.gate = some x → pa / 8 * 8 ∈ x.words →
    s.gatesOn pa = [(rcb, x)] → (∀ p ∈ s.regions, p.2.recorder = none) →
    let w := pa / 8 * 8
    let named := a.lane ≠ uniformLane ∧ s.groupNumber g < 2 ^ 32 ∧ s.under rcb (s.regionOf g) = true
    let mine := fun (e : ScriptEntry) => e.group = s.groupNumber g ∧ e.lane = a.lane ∧ e.ordinal = a.ordinal
    let own := x.script.filter fun e => e.word == w
    let performed := fun (t : State) => ∀ h o' a', Table.get? t.groups k = some h → h.opAt seq = some o' → o'.accs[idx]? = some a' →
      a'.done = true ∧ a'.held = none ∧ a'.val = BitVec.ofNat 64 (if o.kind.writes then s.mem.nat pa a.size else (s.loadValue g o.seq pa a.size).toNat)
    let bytes := fun (t : State) => ∀ b, (b < x.status ∨ x.status + 8 ≤ b) → t.mem.byte b =
      match a.writes o.kind (BitVec.ofNat 64 (s.mem.nat pa a.size)) with
      | some n => if pa ≤ b ∧ b < pa + a.size then BitVec.ofNat 8 (n.toNat / 256 ^ (b - pa)) else s.mem.byte b
      | none => s.mem.byte b
    ∃ t R', exec (.homeAccessPerform k seq idx (.done v)) s = .next t ∧ Table.get? t.regions rcb = some R'
      ∧ (named → (∃ e ∈ own, mine e) → (∀ e, own.head? = some e → ¬ mine e) → SameBytes s t ∧ R'.gate = some x
          ∧ ∀ h o' a', Table.get? t.groups k = some h → h.opAt seq = some o' → o'.accs[idx]? = some a' →
            a'.done = false ∧ a'.st = a.st ∧ ∃ n, a'.held = some (n, s.clk.cycle))
      ∧ (∀ e es, named → own = e :: es → mine e → performed t ∧ bytes t
          ∧ (x.script.length ≠ 1 → ∃ y, R'.gate = some y ∧ y.words = x.words ∧ y.status = x.status ∧ y.timeout = x.timeout
            ∧ y.unscripted = x.unscripted ∧ (∀ u, y.script.filter (fun f => f.word == u) = if u = w then es else x.script.filter fun f => f.word == u)
            ∧ t.mem.nat x.status 8 = (s.mem.setBytes pa (((a.writes o.kind (BitVec.ofNat 64 (s.mem.nat pa a.size))).map fun n =>
                leBytes a.size n.toNat).getD [])).nat x.status 8)
          ∧ (x.script.length = 1 → Takes s x.status 8 →
            R'.gate = none ∧ t.mem.nat x.status 8 = 2 ^ 56 + x.unscripted % 2 ^ 32))
      ∧ (¬ (named ∧ ∃ e ∈ own, mine e) → performed t ∧ bytes t ∧ R'.gate = some { x with unscripted := x.unscripted + 1 })

/-- R409, R415: what a region's recorder writes down, when no gate is armed and no other region records: a load or a store by a lane of a
group of the region or below it, in record mode, at a word that is watched. With no open run of the word that it joins, a new entry is
appended behind the header and the entries before it, with its group, lane, place in the list, ordinal and run 1, and the count in the header
grows; an access that joins adds one to the run of the open entry. A full buffer sets status 2. -/
def Claims.RecordedAccess : Prop :=
  ∀ (s : State) (k seq idx rcb i : Nat) (g : Group) (o : MemOp) (a : LaneAcc) (pa : Nat) (v : BitVec 64) (R : Region) (r : Recorder),
    Table.get? s.groups k = some g → g.opAt seq = some o → o.accs[idx]? = some a → s.accPa a = some pa →
    ((∃ n, o.kind = .store n) ∨ ∃ n f, o.kind = .load n f) →
    s.mayPerform k g o idx a = true → s.behindHeld (fun _ => true) g.ctl.core k o.seq a = false → s.homeError o a pa (.done v) = none →
    a.held = none → a.judged = false → Table.get? s.regions rcb = some R → R.recorder = some r → r.status = 0 → r.watch[i]? = some (pa / 8 * 8) →
    r.watch.Nodup → (∀ p ∈ s.regions, p.2.gate = none) →
    (s.regions.filter fun p => p.2.recorder.isSome && s.under p.1 (s.regionOf g)) = [(rcb, R)] → a.lane ≠ uniformLane → s.groupNumber g < 2 ^ 32 → g.view.determinism = 2 → a.ordinal < 2 ^ 27 →
    let m := if o.kind.writes then s.mem.setBytes pa (leBytes a.size a.data.toNat) else s.mem
    let at_ := fun (m : Memory) (off : Nat) => ({ s with mem := m } : State).logPa rcb r off
    let hash := if o.kind.writes then hashAt g.fl.hash (g.hashMark o.seq a.lane a.off (leBytes a.size a.data.toNat)) o.seq a.lane a.off else 0#32
    let joins := fun (e run : Nat) => Table.get? r.open_ i = some (e, s.groupNumber g, a.lane, a.ordinal, run) ∧ run < 65535
    ∃ t R' r', exec (.homeAccessPerform k seq idx (.done v)) s = .next t ∧ Table.get? t.regions rcb = some R' ∧ R'.recorder = some r'
      ∧ r'.watch = r.watch ∧ r'.log = r.log ∧ r'.bytes = r.bytes
      ∧ (∀ p q, (∀ e run, ¬ joins e run) → 64 + 32 * (r.entries + 1) ≤ r.bytes → at_ m (64 + 32 * r.entries) = some p → Takes s p 32 →
          let e := leBytes 4 (s.groupNumber g) ++ leBytes 1 a.lane ++ leBytes 1 o.kind.writes.toNat ++ leBytes 2 i ++ leBytes 4 a.ordinal
            ++ leBytes 2 1 ++ leBytes 2 0 ++ leBytes 4 hash.toNat ++ leBytes 12 0
          at_ (m.setBytes p e) 0 = some q → Takes s q 8 →
          t.mem = (m.setBytes p e).setBytes q (leBytes 8 (r.entries + 1)) ∧ r'.entries = r.entries + 1 ∧ r'.status = 0
            ∧ Table.get? r'.open_ i = some (r.entries, s.groupNumber g, a.lane, a.ordinal + 1, 1))
      ∧ (∀ e run p, joins e run → o.kind.writes = false → at_ m (64 + 32 * e + 12) = some p → Takes s p 2 →
          t.mem = m.setBytes p (leBytes 2 (run + 1)) ∧ r'.entries = r.entries
            ∧ Table.get? r'.open_ i = some (e, s.groupNumber g, a.lane, a.ordinal + 1, run + 1))
      ∧ (∀ q, (∀ e run, ¬ joins e run) → r.bytes < 64 + 32 * (r.entries + 1) → at_ m 8 = some q → Takes s q 8 →
          t.mem = m.setBytes q (leBytes 8 2) ∧ r'.status = 2 ∧ r'.entries = r.entries)

/-- R113, R245, R305: an armed gate is cancelled, whatever it holds, before a new one is armed: gate.cancel disarms it, the accesses that it
holds are performed, or fail, in the order of their arrival, and then code 3 is stored; gate.arm on a readable, valid descriptor with a
gate armed does what gate.cancel does and then arms. -/
def Claims.GateOverGate : Prop :=
  ∀ (d : BitVec 6) (s : State) (is : Issue) (g₀ : Group) (R : Region) (x : Gate), Fits s (.gateCancel d) is g₀ →
    let g := g₀.atIssue (.gateCancel d) is
    Table.get? s.regions (s.regionOf g) = some R → R.gate = some x →
    ∃ u, exec (.gateCancel d) s = .next u
      ∧ (∃ held : List (Nat × Nat × Nat × Nat), let base := (s.setGroup is.grp (g.advance is)).modRegion (s.regionOf g) fun r => { r with gate := none }
        held.Perm ((s.setGroup is.grp (g.advance is)).heldAccs x.words) ∧ held.Pairwise (fun a b => a.1 ≤ b.1)
          ∧ u = (held.foldl (fun z e => z.performAt e.2.1 e.2.2.1 e.2.2.2 (.done 0)) base).storeNat x.status 8
              (3 * 2 ^ 56 + x.unscripted % 2 ^ 32))
      ∧ (∀ n k seq idx h o a pa m, (s.setGroup is.grp (g.advance is)).heldAccs x.words = [(n, k, seq, idx)] →
          Table.get? (s.setGroup is.grp (g.advance is)).groups k = some h → h.opAt seq = some o → o.accs[idx]? = some a →
          s.accPa a = some pa → o.kind = .store m → s.homeError o a pa (.done 0) = none → Takes s x.status 8 →
          (∀ p ∈ s.regions, p.2.recorder = none ∧ (p = (s.regionOf g, R) ∨ p.2.gate = none)) →
          u.mem = (s.mem.setBytes pa (leBytes a.size a.data.toNat)).setBytes x.status (leBytes 8 (3 * 2 ^ 56 + x.unscripted % 2 ^ 32)))
      ∧ (Fits s (.gateArm d) is g₀ →
        ∀ bs es pa, u.readVa g (g.rs d) 32 = some bs → leNat (bs.drop 16) / 2 ^ 48 = 0 → leNat (bs.drop 16) % 2 ^ 16 ≠ 0 →
          u.readScript g (BitVec.ofNat 64 (leNat (bs.take 8))) (leNat (bs.drop 16) % 2 ^ 16) = some es →
          u.statusPa g (BitVec.ofNat 64 (leNat ((bs.drop 8).take 8))) = some pa → u.spoilt pa 8 true = none →
          (es.map ScriptEntry.word).eraseDups.length ≤ 1024 →
          ∃ t R' y, exec (.gateArm d) s = .next t ∧ Table.get? t.regions (s.regionOf g) = some R' ∧ R'.gate = some y ∧ y.script = es
            ∧ y.status = pa ∧ (∀ a, a < pa ∨ pa + 8 ≤ a → t.mem.byte a = u.mem.byte a) ∧ t.mem.nat pa 8 = 0)

/-- R245: gate.cancel with no gate armed only goes on; with one armed that holds no access it disarms it and stores code 3 in its status word.
gate.arm on a descriptor that is readable and valid arms the gate over the words that its script names and stores code 0. For a status word
whose home answers no error. -/
def Claims.GateWords : Prop :=
  ∀ (d : BitVec 6) (s : State) (is : Issue) (g₀ : Group) (R : Region),
    (Fits s (.gateCancel d) is g₀ →
      let g := g₀.atIssue (.gateCancel d) is
      Table.get? s.regions (s.regionOf g) = some R →
      (R.gate = none → Completes s (.gateCancel d) is fun h => OnlyGoesOn is g h)
      ∧ (∀ x, R.gate = some x → (s.setGroup is.grp (g.advance is)).heldAccs x.words = [] → s.spoilt x.status 8 true = none →
        ∃ t h R', exec (.gateCancel d) s = .next t ∧ Table.get? t.groups is.grp = some h ∧ GoesOn is g h ∧ h.regs = g.regs
          ∧ Table.get? t.regions (s.regionOf g) = some R' ∧ R'.gate = none
          ∧ (∀ a, a < x.status ∨ x.status + 8 ≤ a → t.mem.byte a = s.mem.byte a)
          ∧ t.mem.nat x.status 8 = 3 * 2 ^ 56 + x.unscripted % 2 ^ 32))
    ∧ (Fits s (.gateArm d) is g₀ →
      let g := g₀.atIssue (.gateArm d) is
      ∀ bs es pa, Table.get? s.regions (s.regionOf g) = some R → R.gate = none → s.readVa g (g.rs d) 32 = some bs →
        leNat (bs.drop 16) / 2 ^ 48 = 0 → leNat (bs.drop 16) % 2 ^ 16 ≠ 0 →
        s.readScript g (BitVec.ofNat 64 (leNat (bs.take 8))) (leNat (bs.drop 16) % 2 ^ 16) = some es →
        s.statusPa g (BitVec.ofNat 64 (leNat ((bs.drop 8).take 8))) = some pa → s.spoilt pa 8 true = none →
        (es.map ScriptEntry.word).eraseDups.length ≤ 1024 →
        ∃ t h R' x, exec (.gateArm d) s = .next t ∧ Table.get? t.groups is.grp = some h ∧ GoesOn is g h ∧ h.regs = g.regs
          ∧ Table.get? t.regions (s.regionOf g) = some R' ∧ R'.gate = some x ∧ x.script = es ∧ x.status = pa ∧ x.unscripted = 0
          ∧ (∀ w, w ∈ x.words ↔ ∃ e ∈ es, e.word = w)
          ∧ x.timeout = (if leNat (bs.drop 16) / 2 ^ 16 % 2 ^ 32 = 0 then 2 ^ 20 else leNat (bs.drop 16) / 2 ^ 16 % 2 ^ 32)
          ∧ (∀ a, a < pa ∨ pa + 8 ≤ a → t.mem.byte a = s.mem.byte a) ∧ t.mem.nat pa 8 = 0)

/-- R112, R113, R245, R305, R409, R415, R420: the words of the order gate, and what it and a recorder do with an access at its home. -/
def Obligations.OrderGate : Prop :=
  Claims.GateWords ∧ Claims.GateOverGate ∧ Claims.GatedAccess ∧ Claims.RecordedAccess

/-! ## Checks of an issue (07: R137, 02: R43, 08: R162) -/

/-- R137: what traps a word that decodes, in the order of the checks: a command of another duty ILLOP; a privileged word without privilege PRIV; the first
register operand that is misaligned REGALIGN or beyond its allocation REGBOUND; a write of a register of an open window WINDOW; otherwise nothing. -/
def Obligations.ChecksOfAnIssue : Prop :=
  ∀ (s : State) (i : Instr) (set : BitVec 32) (g : Group),
    let duty := ∀ d, i.duty = some d → d = g.id.duty
    let priv := match i.privilege with
      | .none => True
      | .p => g.id.walker = true ∨ s.privileged g = true
      | .w => g.id.walker = true
      | .g => g.id.walker = true ∨ s.privileged g = true ∨ g.view.determinism = 3
    let ok := fun (u : RegUse) => u.check g.id.alloc g.regs.xi = none
    let open_ := ∃ p ∈ g.fl.pend, p.2.set &&& set ≠ 0#32 ∧ p.2.remaining ≠ 0 ∧ ∃ u ∈ i.uses, u.hits g.regs.xi p.2 = true
    (¬ duty → s.wordTrap i set g = some 0x01#8)
    ∧ (duty → ¬ priv → s.wordTrap i set g = some 0x03#8)
    ∧ (duty → priv → ∀ us u vs, i.uses = us ++ u :: vs → (∀ x ∈ us, ok x) →
      ∀ n, u.first g.regs.xi = some n →
        (n % u.width ≠ 0 → s.wordTrap i set g = some 0x05#8)
        ∧ (n % u.width = 0 → g.id.alloc.limit u.cls < n + u.width → s.wordTrap i set g = some 0x04#8))
    ∧ (duty → priv → (∀ u ∈ i.uses, ok u) → open_ → s.wordTrap i set g = some 0x06#8)
    ∧ (duty → priv → (∀ u ∈ i.uses, ok u) → ¬ open_ → s.wordTrap i set g = none)

/-! ## Engine commands at their issue (13: R246, R247) -/

/-- R246, R247: an engine command that fits enters its queue last, with the operand block read at its issue and its place in program order; unless its
field is sz its first register awaits the status behind the window; no register, no other group and no byte of memory changes. -/
def Obligations.EngineCommandIssue : Prop :=
  ∀ (tid n : BitVec 8) (ch tile acc : BitVec 3) (slot ring : BitVec 4) (f : BitVec 6) (la : BitVec 4) (var : CopyVar) (sc : Scope)
    (fmt : MmaFmt) (x : Bool) (i : Instr) (w : Nat),
    (i, w) ∈ [(.copy tid ch f la var, 4), (.chain ch f la, 1), (.chwp sc ch f la x, 1), (.publ tid f la, 1), (.rput ring f la, 1),
      (.rtake ring f la, 1), (.tld tid tile f la, 1), (.wld tid f la x, 2), (.mma fmt tile acc f la x, 1), (.azero acc f la x, 1),
      (.ast tid acc f la x, 1), (.blsub n slot f la, 1), (.blcol slot f la, 1), (.qcast f la, 2), (.creduce f la, 1),
      (.tidset tid f la, 1), (.tidget tid f la, 1), (.stins tid f la, 1), (.stlook tid f la, 1), (.kvres tid f la, 2)] →
    ∀ s is g₀, Fits s i is g₀ →
      let g := g₀.atIssue i is
      ∃ t h c, exec i s = .next t ∧ Table.get? t.groups is.grp = some h
        ∧ (∀ j, j ≠ is.grp → Table.get? t.groups j = Table.get? s.groups j)
        ∧ { t with groups := s.groups, fresh := s.fresh } = s ∧ t.fresh = s.fresh + 1
        ∧ h.fl.cmds = g.fl.cmds ++ [c] ∧ h.fl.nextSeq = g.fl.nextSeq + 1
        ∧ c.ins = i ∧ c.word = is.word ∧ c.seq = g.fl.nextSeq ∧ c.started = false ∧ c.ended = none ∧ c.stamp = s.fresh
        ∧ c.ops = (List.range w).map (fun j => if f = 63#6 then 0#64 else g.sreg (f.toNat + j))
        ∧ (if f = 63#6 then h.fl.pend = g.fl.pend ∧ c.pend = none
          else ∃ p, c.pend = some p ∧ Opens g h p true f.toNat 1 is.mask (has is.mask) la)
        ∧ GoesOn is g h ∧ { h with fl := g.fl, ctl := { h.ctl with pcs := g.ctl.pcs } } = g
        ∧ h.fl.ops = g.fl.ops ∧ h.fl.roots = g.fl.roots ∧ h.fl.hash = g.fl.hash

/-! ## Decoding and issuing (07, 08, 01) -/

/-- R136 to R140, R157 to R163: words of every family, written out from the encoding tables, decode to the instruction they stand for;
unassigned major codes are no instruction, and the reserved fields of the sample words of R163 are rejected. -/
def Obligations.WordsDecode : Prop :=
  let always : Guard := ⟨0#2, .al⟩
  decode 0x01003105#32 = .ok (.iadd always 3#6 4#6 5#6)
  ∧ decode 0x020070BB#32 = .ok (.iaddi always 7#6 2#6 (BitVec.ofInt 6 (-5)))
  ∧ decode 0x20021106#32 = .ok (.icmp always 2#2 true 4#6 6#6)
  ∧ decode 0x3028B308#32 = .ok (.idivI32 10#6 11#6 12#6 2#4)
  ∧ decode 0x44008042#32 = .ok (.ldN32 always 8#6 1#6 0#2 2#4)
  ∧ decode 0x501839C2#32 = .ok (.aaddN32 6#6 3#6 2#2 .device 0#4 .rel)
  ∧ decode 0x6003FFFD#32 = .ok (.bra always (BitVec.ofInt 18 (-3)))
  ∧ decode 0x69003105#32 = .ok (.fadd always 3#6 4#6 5#6)
  ∧ decode 0x7A003118#32 = .ok (.cvtRne always 3#6 4#6 .bf16 .f32)
  ∧ decode 0x70009042#32 = .ok (.shfl always 9#6 1#6 2#6)
  ∧ decode 0x81105180#32 = .ok (.sadd 4#6 5#6 6#6)
  ∧ decode 0x900FFFFE#32 = .ok (.smovi 3#6 (BitVec.ofInt 18 (-2)))
  ∧ decode 0xA0100005#32 = .ok (.ubra .eq 5#20)
  ∧ decode 0xB0209021#32 = .ok (.sld 8#6 9#6 2#8 1#4)
  ∧ decode 0xF0140100#32 = .ok (.sread 5#6 .gangid false)
  ∧ decode 0x013C3105#32 = .illfld ∧ decode 0x0E003102#32 = .illfld ∧ decode 0x71009068#32 = .illfld
  ∧ decode 0x4A005081#32 = .illfld ∧ decode 0x5C2011C2#32 = .illfld
  ∧ ∀ w : Word, (major w).toNat ∈ [0x00, 0x80, 0x8F, 0xAF] ++ List.range' 0x98 8 ++ List.range' 0xB3 13 ++ List.range' 0xD4 28
      ++ List.range' 0xF3 13 → decode w = .illop

/-- R137, R163: decoding what the encoder writes for a well-formed instruction gives it back with every operand; a word that decodes
is the encoder's word of its instruction, which is well formed: no bit of a word is ignored and no instruction has two words. -/
def Obligations.DecodeAndEncodeAgree : Prop :=
  (∀ i : Instr, Laws.RoundTrip.Statement i)
  ∧ ∀ (w : Word) (i : Instr), decode w = .ok i → i.isWord = true ∧ i.WellFormed ∧ encode i = w

/-- R12, R137, R146, R163: when a core issues from a pipe, and the word at the set's PC decodes, the step is exec of the decoded
instruction with that word in the issue slot, after the group has noted the issue and the lines that its moves write; the group then notes the
lines that the word used, unless it trapped (Group.noteWord), the slot is empty, and what follows every turn follows (State.settle). A word of
no instruction raises ILLOP, and one with a reserved field raises ILLFLD or, for an engine command of another duty, ILLOP. A step of the
table without an encoding is exec of that step, or nothing while accesses performed early or a CXL port hold it (State.stepHeld: R90, R31).
With an empty agenda and no step of the machine's own due, the pipe is the one that issueTurn names. The turns are the model's form (log 1),
the slot too (log 4). -/
def Obligations.StepRunsTheDecodedWord : Prop :=
  ∀ (s : State) (rest : List Turn) (core : Nat) (uniform : Bool) (k : Nat) (v : SetView) (g : Group) (w : Word),
    let s₁ : State := { s with agenda := rest }
    let pc := v.pc.setWidth 56
    let is : Issue := ⟨k, v.mask, pc, w⟩
    let noted := fun (i : Option Instr) =>
      let n : State := { (s₁.setGroup k (g.noteIssue v (s₁.views g) (s₁.fresh + 1) s₁.clk.cycle)) with fresh := s₁.fresh + 1 }
      (if g.id.walker then n.modCore g.ctl.core fun c => { c with walkIssued := c.walkIssued + 1 } else n).countWord g v i
    let lines := fun (i : Instr) => (noted (some i)).modGroup k (Group.noteMoves i v.mask (s₁.fresh + 1))
    let done := fun (i : Instr) (t : State) =>
      State.settle s₁ .control ((t.modGroup k (Group.noteWord i (s₁.fresh + 1) g.fl.nextSeq)).afterWord is g.ctl.stepping)
    let trapped := fun (code : BitVec 8) =>
      State.settle s₁ .control (((noted none).trapWord k v.mask (is.trap code)).afterWord is g.ctl.stepping)
    let ready := s₁.pickOn core uniform = some (k, v) ∧ Table.get? s₁.groups k = some g ∧ g.boundaryFor v.mask = none
      ∧ s₁.fetch g v.mask = .word w ∧ s₁.comparatorHit g v = none
    let turn := s.agenda = .issue core uniform :: rest
      ∨ s.agenda = [] ∧ rest = [] ∧ s.walkDue = none ∧ s.due = none ∧ s.issueTurn = some (core, uniform)
    (turn → ready → ∀ i, decode w = .ok i →
      (∀ t, exec i { lines i with issue := some is } = .next t → step s = .next (done i t))
      ∧ (∀ f, exec i { lines i with issue := some is } = .fault f → step s = .fault f))
    ∧ (turn → ready → decode w = .illop → step s = .next (trapped 0x01#8))
    ∧ (turn → ready → decode w = .illfld → step s = .next
      (trapped (if ∃ d, Word.duty w = some d ∧ d ≠ g.id.duty then 0x01#8 else 0x02#8)))
    ∧ ∀ i, i.isWord = false → s.agenda = .event i :: rest →
      (s₁.stepHeld i = true → step s = .next (State.settle s₁ (s₁.stepAgent i) s₁))
      ∧ (s₁.stepHeld i = false → ∀ t, exec i s₁ = .next t → step s = .next (State.settle s₁ (s₁.stepAgent i) t))
      ∧ (s₁.stepHeld i = false → ∀ f, exec i s₁ = .fault f → step s = .fault f)

/-- R377, R379: after a reset the device is in recovery, no request has completed, no event is set, and the notice indices are zero;
no queue, region, launch, gang or group exists; memory has its canonical form and reads zero (the zero: log 2). -/
def Obligations.ResetState : Prop :=
  State.reset.host.status = 0#64 ∧ State.reset.host.dev = .recovery ∧ State.reset.host.event = 0#3 ∧ State.reset.host.nhead = 0#7
  ∧ State.reset.host.ntail = 0#7 ∧ State.reset.host.taken = none ∧ State.reset.disp.queues = [] ∧ State.reset.regions = []
  ∧ State.reset.launches = [] ∧ State.reset.gangs = [] ∧ State.reset.groups = [] ∧ State.reset.clk.cycle = 0
  ∧ State.reset.mem.wf = true ∧ ∀ a, State.reset.mem.byte a = 0#8

/-- An invariant of the model (log 2): every step keeps the canonical form of memory, so that equal memories are equal data. -/
def Obligations.StepKeepsMemoryForm : Prop := ∀ s t : State, s.mem.wf = true → step s = .next t → t.mem.wf = true

/-- R145, R146, R147, 02: R56: what an issue of a set does to the windows: one that the set does not count in stays; an open one loses one
instruction; one that has ended, or any when the word closes, is gone and its value stands in its register, in the lanes it lands in. No
other register changes. For descriptors of different lines and destinations. -/
def Obligations.WindowsAtAnIssue : Prop :=
  ∀ (closer : Bool) (set : BitVec 32) (g : Group), (g.fl.pend.map Prod.fst).Nodup →
    (∀ a p b q, Table.get? g.fl.pend a = some p → Table.get? g.fl.pend b = some q → a ≠ b →
      (p.line + p.width ≤ q.line ∨ q.line + q.width ≤ p.line)
      ∧ (p.uniform = q.uniform → p.reg + p.width ≤ q.reg ∨ q.reg + q.width ≤ p.reg)) →
    (∀ a p, Table.get? g.fl.pend a = some p → p.line + p.width ≤ 8 ∧ (p.uniform = true → p.width = 1)) →
    let h := g.settle closer set
    let moves := fun (p : Pend) => p.set &&& set ≠ 0#32 ∧ (closer = true ∨ p.remaining = 0)
    (∀ a p, Table.get? g.fl.pend a = some p →
      (p.set &&& set = 0#32 → Table.get? h.fl.pend a = some p)
      ∧ (p.set &&& set ≠ 0#32 → closer = false → p.remaining ≠ 0 →
        Table.get? h.fl.pend a = some { p with remaining := p.remaining - 1 })
      ∧ (moves p → Table.get? h.fl.pend a = none
        ∧ (p.uniform = false → ∀ j l, j < p.width → l < 32 →
          h.vreg (p.reg + j) l = if has p.lanes l = true then g.landingWord (p.line + j) l else g.vreg (p.reg + j) l)
        ∧ (p.uniform = true → h.sreg p.reg = g.landingWord p.line 1 ++ g.landingWord p.line 0)))
    ∧ (∀ n l, l < 32 → (∀ a p, Table.get? g.fl.pend a = some p → moves p → p.uniform = false → n < p.reg ∨ p.reg + p.width ≤ n) →
      h.vreg n l = g.vreg n l)
    ∧ (∀ n, (∀ a p, Table.get? g.fl.pend a = some p → moves p → p.uniform = true → n ≠ p.reg) → h.sreg n = g.sreg n)
    ∧ { h with fl := { h.fl with pend := g.fl.pend, landing := g.fl.landing }, regs := { h.regs with v := g.regs.v, s := g.regs.s } } = g

/-! ## Steps of memory words after their issue (04: R79 to R86, 02: R48 to R57, R76) -/

/-- R85, R86, R408: the head of a store queue that may leave it goes to the end of its core's outbound path; the pieces of its stores stand last
among those that the store hash will take when they are performed; no byte of memory and no register changes. -/
def Claims.StoreDeparts : Prop :=
  ∀ (s : State) (k : Nat) (g : Group) (o : MemOp), Table.get? s.groups k = some g → g.ctl.dead = false →
    g.queueHead = some o → g.mayDepart o = true → (∃ a ∈ o.accs, a.over = false) →
    ∃ t h o', exec (.storeQueueDepart k) s = .next t ∧ Table.get? t.groups k = some h ∧ h.opAt o.seq = some o'
      ∧ o'.queue = .outbound ∧ (t.core g.ctl.core).out = (s.core g.ctl.core).out ++ [(k, o.seq)]
      ∧ h.fl.hash = g.fl.hash ∧ h.fl.hashing = g.fl.hashing ++ o.hashPieces ∧ SameBytes s t
      ∧ ∀ j x, Table.get? s.groups j = some x → ∃ y, Table.get? t.groups j = some y ∧ y.regs = x.regs ∧ y.ctl = x.ctl
          ∧ y.fl.pend = x.fl.pend

/-- R56, R84, R208, R211, R218: a load whose accesses have all been performed lands once every earlier load is complete: its landing
lines hold each lane's value, sign- or zero-extended by its size, for LDK the pair of the lane, the descriptor says landed, and the
operation is gone; no other landing line changes, and the registers keep their old values until the window ends. -/
def Claims.ValueLanded : Prop :=
  ∀ (s : State) (k seq slot : Nat) (g : Group) (o : MemOp) (p : Pend), Table.get? s.groups k = some g →
    g.opAt seq = some o → g.mayLand o = true → o.pend = some slot → Table.get? g.fl.pend slot = some p → p.uniform = false →
    (∀ a ∈ o.accs, a.st.isFailed = false ∧ a.diverged = false ∧ a.lane < 32) → 1 ≤ p.width →
    (∀ n, o.kind = .cas n ∨ (∃ sg, o.kind = .load n sg) ∨ (∃ op, o.kind = .atom op n) → (n + 3) / 4 ≤ p.width) →
    ∃ t h, exec (.valueLands k seq) s = .next t ∧ Table.get? t.groups k = some h ∧ OthersStay s t k ∧ SameBytes s t
      ∧ h.regs = g.regs ∧ h.ctl = g.ctl ∧ h.tr = g.tr ∧ h.opAt seq = none
      ∧ Table.get? h.fl.pend slot = some { p with landed := true }
      ∧ (∀ n, n ≠ slot → Table.get? h.fl.pend n = Table.get? g.fl.pend n)
      ∧ ((o.accs.map LaneAcc.lane).Nodup → ∀ a ∈ o.accs,
        (∀ sg, o.kind = .load 1 sg →
          h.landingWord p.line a.lane = if sg then (a.val.setWidth 8).signExtend 32 else (a.val.setWidth 8).setWidth 32)
        ∧ (∀ sg, o.kind = .load 2 sg →
          h.landingWord p.line a.lane = if sg then (a.val.setWidth 16).signExtend 32 else (a.val.setWidth 16).setWidth 32)
        ∧ (∀ sg op, o.kind = .load 4 sg ∨ o.kind = .atom op 4 ∨ o.kind = .cas 4 → h.landingWord p.line a.lane = a.val.setWidth 32)
        ∧ (∀ op, o.kind = .atom op 8 ∨ o.kind = .cas 8 ∨ (∃ sg, o.kind = .load 8 sg ∧ a.off = 0) →
          h.landingWord p.line a.lane = a.val.setWidth 32 ∧ h.landingWord (p.line + 1) a.lane = a.val.extractLsb' 32 32))
      ∧ (∀ sg, o.kind = .load 16 sg → (o.accs.map fun a => (a.lane, a.off)).Nodup → (∀ a ∈ o.accs, a.off = 0 ∨ a.off = 8) →
        ∀ a ∈ o.accs, h.landingWord (p.line + a.off / 4) a.lane = a.val.setWidth 32
          ∧ h.landingWord (p.line + a.off / 4 + 1) a.lane = a.val.extractLsb' 32 32)
      ∧ (o.kind = .ldk → ((o.accs.filter LaneAcc.isPair).map LaneAcc.lane).Nodup →
        ∀ a ∈ o.accs, a.isPair = true → h.landingWord p.line a.lane = a.data.setWidth 32)
      ∧ (∀ m l, l < 32 → (∀ a ∈ o.accs, a.lane ≠ l) → h.landingWord m l = g.landingWord m l)
      ∧ ∀ m l, l < 32 → m < p.line ∨ p.line + p.width ≤ m → h.landingWord m l = g.landingWord m l

/-- R51, R52: a line fill in flight, whose set of the register cache has a free way, takes the 128 bytes of the line from the context: word
l is lane l's, and the line is clean and no longer missing; no other register changes (stated where the home answers without an error). -/
def Claims.LineFilled : Prop :=
  ∀ (s : State) (k line pa : Nat) (g : Group), Table.get? s.groups k = some g → s.mayFill g line = true →
    s.ctxReach g (g.ctl.ctx + BitVec.ofNat 64 (0x2000 + 128 * line)) = .pa pa → s.spoilt pa 128 false = none →
    ∃ t h, exec (.lineFill k line) s = .next t ∧ Table.get? t.groups k = some h ∧ OthersStay s t k ∧ SameBytes s t
      ∧ (∀ n l, l < 32 → h.vreg n l = if n = line then s.mem.w32 (pa + 4 * l) else g.vreg n l)
      ∧ h.ctl.missing = g.ctl.missing.filter (· != line) ∧ h.ctl.filling = g.ctl.filling.filter (· != line)
      ∧ Table.get? h.ctl.used line = some s.fresh
      ∧ { h with
          regs := { h.regs with v := g.regs.v }
          ctl := { h.ctl with missing := g.ctl.missing, filling := g.ctl.filling, used := g.ctl.used } } = g

/-- R57, R70, R76, R367: an entry of the operand log whose page request was answered goes on under the slot that the answer named: a lane
whose slot is invalid, or whose page has a leaf that does not allow the access, fails with ACCESS; one whose leaf allows it is translated;
one whose page the TLBs do not hold has a walk to wait for; the lanes not answered stay. The lanes of an LDK begin anew (R220): see
Claims.KvReplayed. -/
def Claims.LogEntryReplayed : Prop :=
  ∀ (s : State) (k : Nat) (g : Group) (o : MemOp), Table.get? s.groups k = some g → g.ctl.act ≠ .parked →
    g.opAt o.seq = some o → o.kv = [] →
    ∃ (t : State) (h : Group) (o' : MemOp), exec (.logEntryReplay k o.seq) s = .next t ∧ Table.get? t.groups k = some h ∧ OthersStay s t k ∧ SameBytes s t
      ∧ h = g.setOps h.fl.ops ∧ h.opAt o.seq = some o' ∧ o'.accs.length = o.accs.length
      ∧ ∀ (i : Nat) (a : LaneAcc), o.accs[i]? = some a →
        ((∀ n, a.st ≠ .answered n) → o'.accs[i]? = some a)
        ∧ ∀ n, a.st = .answered n →
          let holder := g.view.holder
          let w := s.slotWord holder n
          let gen := BitVec.ofNat 16 (w.toNat / 2 ^ 48)
          let page := a.va.toNat / 2 ^ 16 % 2 ^ 40
          (slotValid w = false → o'.accs[i]? = some { a with st := .failed 0x10#8 })
          ∧ (∀ e x, slotValid w = true → s.tlb g.ctl.core holder gen page = some e → leafReach o.kind.access e = .leaf x →
            o'.accs[i]? = some { a with st := .leaf x })
          ∧ (∀ e, slotValid w = true → s.tlb g.ctl.core holder gen page = some e → (∀ x, leafReach o.kind.access e ≠ .leaf x) →
            o'.accs[i]? = some { a with st := .failed 0x10#8 })
          ∧ (slotValid w = true → s.tlb g.ctl.core holder gen page = none →
            o'.accs[i]? = some a ∧ t.walkPending g.ctl.core holder gen page = true)

/-- R57, R76, R220, R300: a lane of an LDK whose answered reads are now translated repeats every step: it reads its tensor-identifier entry again,
from the replica of its cluster, and makes its reads anew, as the same accesses of its lane. -/
def Claims.KvReplayed : Prop :=
  ∀ (s : State) (k : Nat) (g : Group) (o : MemOp) (x : KvLane), Table.get? s.groups k = some g → g.ctl.act ≠ .parked →
    g.opAt o.seq = some o → o.kv = [x] → (∀ a ∈ o.accs, a.lane = x.lane) → (∃ a ∈ o.accs, ∃ n, a.st = .answered n) →
    (∀ a ∈ o.accs, (∀ n, a.st ≠ .answered n) → a.st.known = true ∧ a.st.isFailed = false) →
    (∀ a ∈ o.accs, ∀ n, a.st = .answered n → slotValid (s.slotWord g.view.holder n) = true
      ∧ ∃ e leaf, s.tlb g.ctl.core g.view.holder (slotGen (s.slotWord g.view.holder n)) (pageOf a.va) = some e
        ∧ leafReach o.kind.access e = .leaf leaf) →
    let tid := s.tidReplica g.id.launch (g.ctl.core / 4) (handleTid o.base)
    ∃ (t : State) (h : Group) (o' : MemOp), exec (.logEntryReplay k o.seq) s = .next t ∧ Table.get? t.groups k = some h
      ∧ OthersStay s t k ∧ SameBytes s t ∧ h = g.setOps h.fl.ops ∧ h.opAt o.seq = some o'
      ∧ o'.kv = [{ x with tid := tid, tries := 0 }] ∧ o'.pend = o.pend
      ∧ o'.accs.map LaneAcc.off = (if ldkFit o.base tid then [kvMeta, kvData, kvFreq, kvAgain] else [kvPair])
      ∧ ∀ a ∈ o'.accs, a.lane = x.lane ∧ a.done = false ∧ some a.ordinal = o.accs.head?.map LaneAcc.ordinal

/-- R51, R52, R56, R57, R76, R84 to R86: store queue departure, landing, line fill and replay of a log entry. -/
def Obligations.MemoryWordSteps : Prop :=
  Claims.StoreDeparts ∧ Claims.ValueLanded ∧ Claims.LineFilled ∧ Claims.LogEntryReplayed ∧ Claims.KvReplayed

/-! ## The life of an engine command (13: R247 to R264, 05: R103 to R107) -/

/-- R247, R257, R259, R262, R127, R128: a command that may start is taken by its engine, which reads the entry of its tensor from its
cluster's replica (R300); chwp has its
pointer, a ring command its place in its ring, and an mma adds tile x panel to its accumulator in one step, K-group by K-group, or in f64 product by product; a panel of another format
gives code 6. That an mma is done whole at its start is the model's reading (log 62). -/
def Claims.CommandStarts : Prop :=
  ∀ (s : State) (k : Nat) (g : Group) (c : EngCmd), Table.get? s.groups k = some g → g.cmdAt c.seq = some c →
    s.mayStart g c = true →
    ∃ t h c', exec (.engineCommandStart k c.seq) s = .next t ∧ Table.get? t.groups k = some h ∧ OthersStay s t k ∧ SameBytes s t
      ∧ h.cmdAt c.seq = some c' ∧ c'.started = true ∧ c'.ins = c.ins ∧ c'.ops = c.ops ∧ c'.pend = c.pend
      ∧ (∀ n, c.ins.tensor = some n → c'.tid = s.tidReplica g.id.launch (g.ctl.core / 4) n)
      ∧ (∀ sc ch f la x a, c.ins = .chwp sc ch f la x → Table.get? s.gangs g.id.gang = some a →
        c'.ended = some (0, (Table.getD a.chwp ch.toNat 0#64).toNat))
      ∧ (∀ ring f la, c.ins = .rput ring f la ∨ c.ins = .rtake ring f la → c'.stamp = s.fresh ∧ t.fresh = s.fresh + 1)
      ∧ ((∀ fmt tile acc f la bs, c.ins ≠ .mma fmt tile acc f la bs) → h.regs = g.regs)
      ∧ (∀ fmt tile acc f la bs a p, c.ins = .mma fmt tile acc f la bs → fmt ≠ .f64 →
        (c.op 0).toNat < s.panelCount g.id.launch → (c.op 0).toNat < 512 → Table.get? s.gangs g.id.gang = some a →
        Table.get? a.panels (c.op 0).toNat = some p → p.fmt = some (mmaCode fmt) →
        let tb := windowOf g.regs.tiles (2048 * tile.toNat) 2048
        let ts := windowOf g.regs.scales (128 * tile.toNat) 128
        c'.ended = some (0, 0) ∧ h.regs.v = g.regs.v ∧ h.regs.s = g.regs.s ∧ h.regs.tiles = g.regs.tiles
        ∧ ∀ n i j, n < 8 → i < 32 → j < 32 →
          h.acc32 n i j = if n = acc.toNat then
              edgeSum (fun x => edgeElem tb ts fmt bs i x) (fun x => edgeElem p.bytes p.scales fmt bs j x) (kGroup fmt)
                (rowElems (formatBits (mmaCode fmt)) / kGroup fmt) 0 (g.acc32 n i j)
            else g.acc32 n i j)
      ∧ (∀ tile acc f la bs a p, c.ins = .mma .f64 tile acc f la bs →
        (c.op 0).toNat < s.panelCount g.id.launch → (c.op 0).toNat < 512 → Table.get? s.gangs g.id.gang = some a →
        Table.get? a.panels (c.op 0).toNat = some p → p.fmt = some (mmaCode .f64) →
        let tb := windowOf g.regs.tiles (2048 * tile.toNat) 2048
        let ts := windowOf g.regs.scales (128 * tile.toNat) 128
        c'.ended = some (0, 0) ∧ { h with regs := { h.regs with acc := g.regs.acc } } = { g with fl := h.fl }
        ∧ ∀ n i j, i < 32 → j < 32 →
          h.acc64 n i j = if n = acc.toNat then
              edgeChain (fun x => edgeElem tb ts .f64 bs i x) (fun x => edgeElem p.bytes p.scales .f64 bs j x) 8 0 (g.acc64 n i j)
            else if n = acc.toNat + 1 ∨ n + 1 = acc.toNat then h.acc64 n i j else g.acc64 n i j)
      ∧ (∀ fmt tile acc f la bs a p, c.ins = .mma fmt tile acc f la bs →
        (c.op 0).toNat < s.panelCount g.id.launch → (c.op 0).toNat < 512 → Table.get? s.gangs g.id.gang = some a →
        Table.get? a.panels (c.op 0).toNat = some p → p.fmt ≠ none → p.fmt ≠ some (mmaCode fmt) → c'.ended = some (6, 0) ∧ h.regs = g.regs)
      ∧ (∀ fmt tile acc f la bs, c.ins = .mma fmt tile acc f la bs → s.panelCount g.id.launch ≤ (c.op 0).toNat →
        c'.ended = some (5, 0) ∧ h.regs = g.regs)

/-- R246 to R248: a command that completes leaves its group, and its status word waits in the landing line of its first register. -/
def Claims.StatusLands : Prop :=
  ∀ (s : State) (k : Nat) (g : Group) (c : EngCmd) (x : BitVec 64), Table.get? s.groups k = some g →
    ∃ h, Table.get? (s.finishCmd k c x).groups k = some h ∧ h.fl.cmds = g.fl.cmds.filter (fun d => d.seq != c.seq)
      ∧ h.regs = g.regs ∧ h.ctl = g.ctl ∧ h.fl.ops = g.fl.ops
      ∧ (∀ slot p, c.pend = some slot → Table.get? g.fl.pend slot = some p →
        Table.get? h.fl.pend slot = some { p with landed := true }
        ∧ h.landingWord p.line 1 ++ h.landingWord p.line 0 = x)
      ∧ (s.prof.parts = [] → SameBytes s (s.finishCmd k c x))

/-- R248, R252, R257, R259, R263, R104: how a copy, a read of a write pointer, a put, a take and a clear complete. A copy whose
descriptor is refused, or whose box is empty, delivers nothing; one that nothing stops delivers its whole stream and advances the
channel's pointer by what it delivered. -/
def Claims.CommandCompletes : Prop :=
  ∀ (s : State) (k : Nat) (g : Group) (c : EngCmd) (ext : EngineReply), Table.get? s.groups k = some g →
    g.cmdAt c.seq = some c → s.mayWork g c = true →
    (∀ tid ch f la var, c.ins = .copy tid ch f la var →
      let geo := copyGeo var c.tid c.ops
      (∀ code, geo.early = some code →
        exec (.engineCommandComplete k c.seq ext) s = .next (s.finishCmd k c (statusWord code 0 0)))
      ∧ (∀ (r : Run) c', geo.early = none → (Run.of s ext).copyTo k g c ch.toNat geo geo.bytes = (r, c', none) →
        exec (.engineCommandComplete k c.seq ext) s = .next (r.s.finishCmd k c (statusWord 0 c'.clipped c'.progress))
        ∧ (c.progress ≤ geo.bytes → c'.progress = geo.bytes)
        ∧ ∀ a, Table.get? s.gangs g.id.gang = some a → ∃ b, Table.get? r.s.gangs g.id.gang = some b
          ∧ Table.getD b.chwp ch.toNat 0#64 = Table.getD a.chwp ch.toNat 0#64 + BitVec.ofNat 64 (c'.progress - c.progress)))
    ∧ (∀ sc ch f la x v, c.ins = .chwp sc ch f la x → c.ended = some (0, v) →
      exec (.engineCommandComplete k c.seq ext) s = .next (s.finishCmd k c (BitVec.ofNat 64 v)))
    ∧ (∀ fmt tile acc f la bs code, c.ins = .mma fmt tile acc f la bs → c.ended = some (code, 0) →
      exec (.engineCommandComplete k c.seq ext) s = .next (s.finishCmd k c (statusWord code 0 0)))
    ∧ (∀ acc f la x, c.ins = .azero acc f la x → ∃ t : State, exec (.engineCommandComplete k c.seq ext) s =
        .next (t.finishCmd k c (statusWord 0 0 (if x then 8192 else 4096)))
      ∧ ∃ h : Group, Table.get? t.groups k = some h ∧ { h with regs := { h.regs with acc := g.regs.acc } } = g
        ∧ ∀ n, Table.getD h.regs.acc n 0#32 =
          if 1024 * acc.toNat ≤ n ∧ n < 1024 * acc.toNat + (if x then 2048 else 1024) then 0#32 else Table.getD g.regs.acc n 0#32)
    ∧ (∀ ring f la a, c.ins = .rput ring f la → ring.toNat < s.ringCount g.id.launch → Table.get? s.gangs g.id.gang = some a →
      (a.ring ring.toNat).entries.length < 8 → s.ringBehind g.id.gang c = false →
      let p := (c.op 0).setWidth 48
      let r := a.ring ring.toNat
      exec (.engineCommandComplete k c.seq ext) s = .next ((s.modGang g.id.gang fun a =>
        { a with rings := Table.set a.rings ring.toNat ⟨r.entries ++ [p], r.puts + 1, r.takes⟩ }).finishCmd k c
          (BitVec.ofNat 64 (r.puts % 16 * 2 ^ 48 + p.toNat))))
    ∧ (∀ ring f la a p ps, c.ins = .rtake ring f la → ring.toNat < s.ringCount g.id.launch →
      Table.get? s.gangs g.id.gang = some a → (a.ring ring.toNat).entries = p :: ps → s.ringBehind g.id.gang c = false →
      let r := a.ring ring.toNat
      exec (.engineCommandComplete k c.seq ext) s = .next ((s.modGang g.id.gang fun a =>
        { a with rings := Table.set a.rings ring.toNat ⟨ps, r.puts, r.takes + 1⟩ }).finishCmd k c
          (BitVec.ofNat 64 (r.takes % 16 * 2 ^ 48 + p.toNat))))
    ∧ (∀ tid f la code v, c.ins = .publ tid f la → c.ended = some (code, v) →
      exec (.engineCommandComplete k c.seq ext) s = .next (s.finishCmd k c (statusWord code 0 v)))
    ∧ (∀ ch f la code v, c.ins = .chain ch f la → c.ended = some (code, v) →
      exec (.engineCommandComplete k c.seq ext) s = .next (s.finishCmd k c (statusWord code c.records v)))

/-- R256: a record that own gives to the device is delivered as a copy; its status is written, then own is cleared, and the chain
goes on to the record it names, or ends at 0. A chain that finds own clear ends with code 0. That a misaligned record ends the chain with
code 5 is the model's reading (log 63). -/
def Claims.RecordOfAChain : Prop :=
  ∀ (s : State) (k : Nat) (g : Group) (c : EngCmd) (ext : EngineReply) (ch : BitVec 3) (f : BitVec 6) (la : BitVec 4),
    Table.get? s.groups k = some g → g.cmdAt c.seq = some c → s.mayWork g c = true → c.ins = .chain ch f la → c.ended = none →
    (∀ var c₁ (r₀ r₁ r₂ : Run), c.image ≠ [] → recControl c.image % 2 = 1 → recVar c.image = some var →
      recReserved c.image = false →
      let geo := copyGeo var c.tid (recOps c.image)
      geo.early = none → (Run.of s ext).copyTo k g c ch.toNat geo geo.bytes = (r₀, c₁, none) →
      r₀.write (c₁.reader g) false (c.record + 0x30#64)
        (leBytes 8 (statusWord 0 c₁.clipped c₁.progress).toNat) = .ok r₁ →
      r₁.write (c₁.reader g) false (c.record + 8#64) (leBytes 8 (recControl c.image - 1)) = .ok r₂ →
      let next := recNext c.image
      exec (.chainRecord k c.seq ext) s = .next (r₂.s.modCmd k c.seq fun x => { x with
        records := c.records + 1, total := c.total + c₁.progress, progress := 0, clipped := 0, image := [], record := next
        ended := if next = 0#64 then some (0, c.total + c₁.progress) else none }))
    ∧ (∀ (r : Run) bs, c.image = [] → c.record.toNat % 64 = 0 →
      (Run.of s ext).read (c.reader g) 4 c.record 64 = .ok (r, bs) → recControl bs % 2 = 0 →
      bs ≠ [] →
      ∃ t h c', exec (.chainRecord k c.seq ext) s = .next t ∧ Table.get? t.groups k = some h ∧ h.cmdAt c.seq = some c'
        ∧ c'.ended = some (0, c.total) ∧ h.regs = g.regs)
    ∧ (c.image = [] → c.record.toNat % 64 ≠ 0 → exec (.chainRecord k c.seq ext) s =
        .next (s.modCmd k c.seq fun x => { x with ended := some (5, c.total) }))

/-- R106, R107, R362: at its instant a PUBL adds one to the counter of a slot that is assigned to the group's region or to one above
it, and only to that; otherwise the counters stay and it ends with code 0x0B. -/
def Claims.InstantOfAPubl : Prop :=
  ∀ (s : State) (k : Nat) (g : Group) (c : EngCmd) (slot : BitVec 8) (f : BitVec 6) (la : BitVec 4),
    Table.get? s.groups k = some g → g.cmdAt c.seq = some c → c.ins = .publ slot f la → s.mayPublish g c = true →
    let mine := ∃ top, Table.get? s.xlat.owners slot.toNat = some top ∧ s.under top (s.regionOf g) = true
    let old := Table.getD s.xlat.publish slot.toNat 0#64
    ∃ t h c', exec (.publInstant k c.seq) s = .next t ∧ Table.get? t.groups k = some h ∧ h.cmdAt c.seq = some c' ∧ SameBytes s t
      ∧ h.regs = g.regs ∧ h.ctl = g.ctl
      ∧ (mine → c'.ended = some (0, (old + 1#64).toNat)
        ∧ ∀ n, Table.getD t.xlat.publish n 0#64 = if n = slot.toNat then old + 1#64 else Table.getD s.xlat.publish n 0#64)
      ∧ (¬ mine → c'.ended = some (0x0B, 0) ∧ t.xlat = s.xlat)

/-- R98, R248, R255: what an engine reads at this device are the bytes of memory, and what it writes is stored there and nowhere else. -/
def Claims.EngineAccess : Prop :=
  ∀ (s : State) (rd : Reader) (ext : EngineReply) (va : BitVec 64) (p : Nat), Undisturbed s ext →
    (∀ n, Sees s rd va p n → (Run.of s ext).read rd kindEngineRead va n = .ok (Run.of s ext, s.mem.bytes p n))
    ∧ (∀ hidden bs, bs ≠ [] → Lands s rd hidden va p bs.length →
      (Run.of s ext).write rd hidden va bs = .ok { Run.of s ext with s := s.storeBytes p bs })
    ∧ ∀ bs : List Byte, Takes s p bs.length → (s.storeBytes p bs).mem.bytes p bs.length = bs ∧ SameBut s (s.storeBytes p bs) p bs.length
      ∧ { s.storeBytes p bs with mem := s.mem, groups := s.groups } = s

/-- R249, R253: the pattern of one element of a load: that of its bytes, or of its half of a byte; of a 2:4 tensor the stored value whose
position the metadata name, the second one where both name it, or zero. -/
def Claims.LoadedElements : Prop :=
  ∀ (s : State) (rd : Reader) (ext : EngineReply) (tid : List Byte) (c0 c1 c2 : Nat), Undisturbed s ext →
    let bits := formatBits (tidFormat tid)
    let pattern := fun (p v : Nat) => if bits = 4 then s.mem.nat p 1 / 16 ^ (v % 2) % 16 else s.mem.nat p (bits / 8)
    (∀ p, Sees s rd (plainAt tid c0 c1 c2) p (max 1 (bits / 8)) →
      (Run.of s ext).loadElem rd tid false c0 c1 c2 = .ok (Run.of s ext, pattern p c0))
    ∧ ∀ m, Sees s rd (BitVec.ofNat 64 (tidMeta tid + ((c2 * tidN1 tid + c1) * (tidN0 tid / 4) + c0 / 4) / 2)) m 1 →
      let nib := s.mem.nat m 1 / 16 ^ (c0 / 4 % 2) % 16
      (nib / 4 ≠ c0 % 4 → nib % 4 ≠ c0 % 4 → (Run.of s ext).loadElem rd tid true c0 c1 c2 = .ok (Run.of s ext, 0))
      ∧ ∀ v p, v = 2 * (c0 / 4) + (if nib / 4 = c0 % 4 then 1 else 0) → nib / 4 = c0 % 4 ∨ nib % 4 = c0 % 4 →
        Sees s rd (plainAt tid v c1 c2) p (max 1 (bits / 8)) →
        (Run.of s ext).loadElem rd tid true c0 c1 c2 = .ok (Run.of s ext, pattern p v)

/-- R260, R261, R250: tld fills a tile, and wld a panel, with the elements and the scale bytes of its load, as one step, the clipped elements
counted; a malformed entry or a kind that is not accepted, a q4 column that is not a multiple of 128, and a bad panel slot change nothing. -/
def Claims.TileAndPanelLoads : Prop :=
  ∀ (s : State) (k : Nat) (g : Group) (c : EngCmd) (ext : EngineReply), Table.get? s.groups k = some g → g.cmdAt c.seq = some c →
    s.mayWork g c = true →
    let i0 := ((c.op 0).setWidth 32).toInt
    let r0 := ((c.op 0).extractLsb' 32 32).toInt
    let bits := formatBits (tidFormat c.tid)
    (∀ tid tile f la, c.ins = .tld tid tile f la →
      (∀ code, loadEarly c.tid false i0 = some code →
        exec (.engineCommandComplete k c.seq ext) s = .next (s.finishCmd k c (statusWord code 0 0)))
      ∧ ∀ e sc, loadEarly c.tid false i0 = none → Loads s (c.reader g) ext c.tid false i0 r0 e sc →
        ∃ (t : State) (h : Group), exec (.engineCommandComplete k c.seq ext) s = .next (t.finishCmd k c (statusWord 0 (loadClipped c.tid i0 r0) 2048))
          ∧ Table.get? t.groups k = some h ∧ OthersStay s t k ∧ SameBytes s t
          ∧ { h with regs := { h.regs with tiles := g.regs.tiles, scales := g.regs.scales } } = g
          ∧ (∀ i j, i < 32 → j < rowElems bits →
            bitsOf (leNat ((List.range 64).map fun b => Table.getD h.regs.tiles (2048 * tile.toNat + 64 * i + b) 0#8)) (bits * j) bits = e i j)
          ∧ (∀ i m, i < 32 → m < 4 → Table.getD h.regs.scales (128 * tile.toNat + 4 * i + m) 0#8 = sc i m)
          ∧ (∀ n, n / 2048 ≠ tile.toNat → Table.getD h.regs.tiles n 0#8 = Table.getD g.regs.tiles n 0#8)
          ∧ ∀ n, n / 128 ≠ tile.toNat → Table.getD h.regs.scales n 0#8 = Table.getD g.regs.scales n 0#8)
    ∧ ∀ tid f la x24, c.ins = .wld tid f la x24 →
      let slot := (c.op 1).toNat
      (s.panelCount g.id.launch ≤ slot ∨ 512 ≤ slot →
        exec (.engineCommandComplete k c.seq ext) s = .next (s.finishCmd k c (statusWord 5 0 0)))
      ∧ (slot < s.panelCount g.id.launch → slot < 512 →
        (∀ code, loadEarly c.tid x24 i0 = some code →
          exec (.engineCommandComplete k c.seq ext) s = .next (s.finishCmd k c (statusWord code 0 0)))
        ∧ ∀ a e sc, Table.get? s.gangs g.id.gang = some a → loadEarly c.tid x24 i0 = none →
          Loads s (c.reader g) ext c.tid x24 i0 r0 e sc →
          ∃ (t : State) (b : Gang) (p : Panel),
            exec (.engineCommandComplete k c.seq ext) s = .next (t.finishCmd k c (statusWord 0 (loadClipped c.tid i0 r0) 2048))
            ∧ Table.get? t.gangs g.id.gang = some b ∧ { t with gangs := s.gangs } = s ∧ { b with panels := a.panels } = a
            ∧ (∀ n, Table.get? b.panels n = if n = slot then some p else Table.get? a.panels n)
            ∧ p.fmt = some (tidFormat c.tid) ∧ p.tid = c.tid ∧ p.origin = c.op 0 ∧ p.x24 = x24
            ∧ (∀ i j, i < 32 → j < rowElems bits →
              bitsOf (leNat ((List.range 64).map fun b => Table.getD p.bytes (64 * i + b) 0#8)) (bits * j) bits = e i j)
            ∧ ∀ i m, i < 32 → m < 4 → Table.getD p.scales (4 * i + m) 0#8 = sc i m)

/-- R250: the code that a load ends with before it reads. -/
def Claims.LoadCodes : Prop :=
  ∀ (tid : List Byte) (x24 : Bool) (i0 : Int),
    (tidMalformed tid = true ∨ tidKind tid ≠ (if x24 then 2 else 0) → loadEarly tid x24 i0 = some 4)
    ∧ (tidMalformed tid = false → tidKind tid = (if x24 then 2 else 0) →
      loadEarly tid x24 i0 = if tidFormat tid = 8 ∧ i0 % 128 ≠ 0 then some 5 else none)

/-- R264: what one row of ast writes at this device: the patterns of its unclipped elements, packed from the first one's address on, and the
scale byte of its block for q4 and .bs; a half of a q4 byte that no element of the row takes is kept. -/
def Claims.StoredRow : Prop :=
  ∀ (s : State) (rd : Reader) (g : Group) (ext : EngineReply) (tid : List Byte) (acc i j₀ n c1 c2 p q : Nat) (bs : Bool) (c0 r0 x : Int),
    Undisturbed s ext → flatRow tid (r0 + (i : Nat)) = some (c1, c2) → 0 < n →
    (∀ j : Nat, j < 32 → ((0 ≤ c0 + j ∧ c0 + j < (tidN0 tid : Nat)) ↔ j₀ ≤ j ∧ j < j₀ + n)) → j₀ + n ≤ 32 →
    let bits := formatBits (tidFormat tid)
    let row := astRow tid bs ((List.range n).map fun j => g.astValue (tidFormat tid) acc x i (j₀ + j))
    let c := (c0 + (j₀ : Nat)).toNat
    let len := (n * bits + 7) / 8
    row.1.length = n → (∀ v ∈ row.1, v < 2 ^ bits) → Lands s rd true (plainAt tid c c1 c2) p len →
    (row.2 ≠ none → Lands s rd true (scaleAt tid c c1 c2) q 1 ∧ (q < p ∨ p + len ≤ q)) →
    ∃ r, (Run.of s ext).astRowAt rd g tid acc bs c0 r0 x i = .ok (r, len + if row.2.isSome then 1 else 0)
      ∧ (∀ j, j < n → bitsOf (r.s.mem.nat p len) (bits * j) bits = row.1.getD j 0)
      ∧ (n * bits % 8 ≠ 0 → r.s.mem.nat (p + len - 1) 1 / 16 = s.mem.nat (p + len - 1) 1 / 16)
      ∧ (∀ e, row.2 = some e → r.s.mem.byte q = BitVec.ofNat 8 e)
      ∧ ∀ a, (a < p ∨ p + len ≤ a) → (row.2 = none ∨ a ≠ q) → r.s.mem.byte a = s.mem.byte a

/-- R264: the exponent of a .bs block: 255 with a NaN or an infinity in it, 0 when it is all zero, else the least of 0 to 254 under which its
largest magnitude does not exceed the format's largest value, or 254; and the patterns under it. -/
def Claims.ScaledBlock : Prop :=
  ∀ (f : FloatFmt) (xs : List FVal), f ∈ [bf16, f16, e4m3, e5m2] →
    let e := bsExp f xs
    ((∃ v ∈ xs, v.special = true) → e = 255 ∧ (bsBlock f xs).1 = xs.map fun _ => f.nan)
    ∧ ((∀ v ∈ xs, v.special = false) →
      (∀ vs : List ℚ, xs.map FVal.rat = vs.map some → ∀ top : ℚ, f.maxVal.rat = some top →
        ((∀ v ∈ vs, v = 0) → e = 0)
        ∧ ((∃ v ∈ vs, v ≠ 0) → e ≤ 254 ∧ ((∀ v ∈ vs, |v| ≤ top * 2 ^ ((e : Int) - 127)) ∨ e = 254)
          ∧ ∀ d : Nat, d < e → ∃ v ∈ vs, top * 2 ^ ((d : Int) - 127) < |v|))
      ∧ (bsBlock f xs).1 = xs.map fun x => f.round .rne (x.mul (.fin false 1 (127 - (e : Int)))))

/-- R264, R250: ast ends at once on an entry or operand that it refuses; else it writes its rows in order and reports the bytes written and
the elements clipped. -/
def Claims.AccumulatorStores : Prop :=
  ∀ (s : State) (k : Nat) (g : Group) (c : EngCmd) (ext : EngineReply) (tid : BitVec 8) (acc : BitVec 3) (f : BitVec 6) (la : BitVec 4) (bs : Bool),
    Table.get? s.groups k = some g → g.cmdAt c.seq = some c → s.mayWork g c = true → c.ins = .ast tid acc f la bs →
    let w := c.op 0
    let c0 := (w.setWidth 24).toInt
    let r0 := (w.extractLsb' 24 24).toInt
    let code := tidFormat c.tid
    (tidMalformed c.tid = true ∨ tidKind c.tid ≠ 0 ∨ (bs = true ∧ code ∉ [2, 3, 4, 5]) → astEarly c.tid w acc.toNat bs = some 4)
    ∧ (astEarly c.tid w acc.toNat bs ≠ some 4 → w.extractLsb' 56 8 ≠ 0#8 → astEarly c.tid w acc.toNat bs = some 5)
    ∧ (astEarly c.tid w acc.toNat bs ≠ some 4 → w.extractLsb' 56 8 = 0#8 →
      astEarly c.tid w acc.toNat bs = if code = 1 ∧ acc.toNat % 2 = 1 then some 6
        else if (code = 8 ∨ bs = true) ∧ (c0 % 32 ≠ 0 ∨ tidAux c.tid = 0#64) then some 5 else none)
    ∧ (∀ x, astEarly c.tid w acc.toNat bs = some x →
      exec (.engineCommandComplete k c.seq ext) s = .next (s.finishCmd k c (statusWord x 0 0)))
    ∧ ∀ (rs : Nat → Run) (n : Nat → Nat), astEarly c.tid w acc.toNat bs = none → rs 0 = Run.of s ext →
      (∀ i, i < 32 → (rs i).astRowAt (c.reader g) g c.tid acc.toNat bs c0 r0 (w.extractLsb' 48 8).toInt i = .ok (rs (i + 1), n i)) →
      exec (.engineCommandComplete k c.seq ext) s =
        .next ((rs 32).s.finishCmd k c (statusWord 0 (astClipped c.tid c0 r0) ((List.range 32).map n).sum))

/-- R265: blsub enters its record under its rank, the lower 56 bits of its operand as the address; a rank at or above n, one entered already, or
another n than the round's gives code 9 and marks the round failed. -/
def Claims.BlotterEntry : Prop :=
  ∀ (s : State) (k : Nat) (g : Group) (c : EngCmd) (ext : EngineReply) (n : BitVec 8) (slot : BitVec 4) (f : BitVec 6) (la : BitVec 4) (a : Gang),
    Table.get? s.groups k = some g → g.cmdAt c.seq = some c → s.mayWork g c = true → c.ins = .blsub n slot f la →
    Table.get? s.gangs g.id.gang = some a →
    let b := a.blot slot.toNat
    let rank := (c.op 0).toNat / 2 ^ 56
    let bad := (b.count ≠ 0 ∧ b.count ≠ n.toNat) ∨ n.toNat ≤ rank ∨ Table.get? b.ranks rank ≠ none
    ∃ (t : State) (a' : Gang), Table.get? t.gangs g.id.gang = some a' ∧ { t with gangs := s.gangs } = s ∧ { a' with blots := a.blots } = a
      ∧ (∀ m, m ≠ slot.toNat → a'.blot m = a.blot m)
      ∧ (bad → exec (.engineCommandComplete k c.seq ext) s = .next (t.finishCmd k c (statusWord 9 0 0))
        ∧ a'.blot slot.toNat = { b with failed := true })
      ∧ (¬ bad → exec (.engineCommandComplete k c.seq ext) s = .next (t.finishCmd k c (statusWord 0 0 0))
        ∧ a'.blot slot.toNat = { b with count := n.toNat, ranks := Table.set b.ranks rank (BitVec.ofNat 64 ((c.op 0).toNat % 2 ^ 56)) })

/-- R265, R266: a partial record that blcol reads at this device; one that is misaligned, of no length or of more than 256 elements, or with a
nonzero word at 0x0C gives code 5. -/
def Claims.PartialRecord : Prop :=
  ∀ (s : State) (rd : Reader) (ext : EngineReply) (va : BitVec 64) (p : Nat), Undisturbed s ext →
    let dh := (s.mem.w32 (p + 8)).toNat
    (va.toNat % 16 ≠ 0 → (Run.of s ext).partialAt rd va = .error (.fail 5 none))
    ∧ (va.toNat % 16 = 0 → Sees s rd va p 16 → dh = 0 ∨ 256 < dh ∨ s.mem.w32 (p + 12) ≠ 0#32 →
      (Run.of s ext).partialAt rd va = .error (.fail 5 none))
    ∧ (va.toNat % 16 = 0 → Sees s rd va p 16 → 0 < dh → dh ≤ 256 → s.mem.w32 (p + 12) = 0#32 →
      Sees s rd (va + 16#64) (p + 16) (4 * dh) →
      (Run.of s ext).partialAt rd va = .ok (Run.of s ext,
        ⟨s.mem.w32 p, s.mem.w32 (p + 4), (List.range dh).map fun j => s.mem.w32 (p + 16 + 4 * j)⟩))

/-- R266: the merge of two partials: a NaN or +infinity in either m makes everything NaN; two empty spans are empty; else both sides are scaled
to the larger m and added, each sum rounded once. -/
def Claims.MergedPartials : Prop :=
  ∀ (a b : Partial), a.o.length = b.o.length →
    let nan := 0x7FC00000#32
    let low := 0xFF800000#32
    let bad := fun (x : BitVec 32) => (val32 x).isNan = true ∨ x = 0x7F800000#32
    let r := mergePartials a b
    (bad a.m ∨ bad b.m → r = ⟨nan, nan, a.o.map fun _ => nan⟩)
    ∧ (a.m = low → b.m = low → r = ⟨low, 0#32, a.o.map fun _ => 0#32⟩)
    ∧ (¬ bad a.m → ¬ bad b.m → ¬ (a.m = low ∧ b.m = low) →
      let factor := fun (x : BitVec 32) => if x = low then 0#32 else rnd32 (val32 (rnd32 ((val32 x).add (val32 r.m).neg))).exp2
      let mix := fun (x y : BitVec 32) => rnd32 (((val32 x).mul (val32 (factor a.m))).add ((val32 y).mul (val32 (factor b.m))))
      r.m = fminmax true a.m b.m ∧ r.l = mix a.l b.l ∧ r.o = (a.o.zip b.o).map fun p => mix p.1 p.2)

/-- R266: blcol waits for its round; a failed round and records of unlike lengths give code 9, a misaligned result 5, and write nothing; else the
records are merged in ascending rank and the result is written. With any code the slot opens its next round. -/
def Claims.BlotterCollect : Prop :=
  ∀ (s : State) (k : Nat) (g : Group) (c : EngCmd) (ext : EngineReply) (slot : BitVec 4) (f : BitVec 6) (la : BitVec 4) (a : Gang),
    Table.get? s.groups k = some g → g.cmdAt c.seq = some c → s.mayWork g c = true → c.ins = .blcol slot f la →
    Table.get? s.gangs g.id.gang = some a → s.blotBehind g.id.gang c = false → Undisturbed s ext →
    let b := a.blot slot.toNat
    let opens := fun (s : State) => s.modGang g.id.gang fun a => { a with blots := Table.set a.blots slot.toNat ⟨b.round + 1, 0, false, []⟩ }
    (b.count = 0 ∨ b.ranks.length < b.count → exec (.engineCommandComplete k c.seq ext) s = .next s)
    ∧ (b.count ≠ 0 → b.count ≤ b.ranks.length →
      (b.failed = true → exec (.engineCommandComplete k c.seq ext) s = .next ((opens s).finishCmd k c (statusWord 9 0 0)))
      ∧ (b.failed = false →
        (∀ code, (Run.of s ext).partials (c.reader g) b.ranks.vals = .error (.fail code none) →
          exec (.engineCommandComplete k c.seq ext) s = .next ((opens s).finishCmd k c (statusWord code 0 0)))
        ∧ ∀ p ps, (Run.of s ext).partials (c.reader g) b.ranks.vals = .ok (Run.of s ext, p :: ps) →
          ((∃ q ∈ ps, q.o.length ≠ p.o.length) →
            exec (.engineCommandComplete k c.seq ext) s = .next ((opens s).finishCmd k c (statusWord 9 0 0)))
          ∧ ((∀ q ∈ ps, q.o.length = p.o.length) →
            ((c.op 0).toNat % 16 ≠ 0 →
              exec (.engineCommandComplete k c.seq ext) s = .next ((opens s).finishCmd k c (statusWord 5 0 0)))
            ∧ ∀ pa, (c.op 0).toNat % 16 = 0 → Lands s (c.reader g) false (c.op 0) pa (16 + 4 * p.o.length) →
              let res := ps.foldl mergePartials p
              ∃ t, exec (.engineCommandComplete k c.seq ext) s =
                  .next ((opens t).finishCmd k c (statusWord 0 b.count (16 + 4 * p.o.length)))
                ∧ SameBut s t pa (16 + 4 * p.o.length) ∧ t.gangs = s.gangs
                ∧ t.mem.w32 pa = res.m ∧ t.mem.w32 (pa + 4) = res.l ∧ t.mem.nat (pa + 8) 4 = p.o.length ∧ t.mem.nat (pa + 12) 4 = 0
                ∧ ∀ j, j < p.o.length → t.mem.w32 (pa + 16 + 4 * j) = res.o.getD j 0#32)))

/-- R267: qcast delivers its buffer to the window of every role that is bound to a cluster and holds it; the others are skipped, and the code is
that of the lowest one skipped. A reserved bit gives code 5 and delivers nothing. -/
def Claims.CastToRoles : Prop :=
  ∀ (s : State) (k : Nat) (g : Group) (c : EngCmd) (ext : EngineReply) (f : BitVec 6) (la : BitVec 4) (src : Nat) (place : Nat → Except Nat Nat),
    Table.get? s.groups k = some g → g.cmdAt c.seq = some c → s.mayWork g c = true → c.ins = .qcast f la → Undisturbed s ext →
    let w := c.op 1
    let len := w.toNat % 2 ^ 16
    let first := w.toNat / 2 ^ 16 % 2 ^ 8
    let n := w.toNat / 2 ^ 24 % 2 ^ 8
    let off := w.toNat / 2 ^ 32 % 2 ^ 23
    (w.toNat / 2 ^ 55 ≠ 0 → exec (.engineCommandComplete k c.seq ext) s = .next (s.finishCmd k c (statusWord 5 0 0)))
    ∧ (w.toNat / 2 ^ 55 = 0 → Sees s (c.reader g) (c.op 0) src len →
      (∀ i, i < n → place i =
        let b := s.bindingOf g.id.launch (first + i)
        if 256 ≤ first + i then .error 5 else if bindKind b ≠ 1 then .error 1 else if bindWindow b < off + len then .error 5
        else .ok ((if bindTarget b = ownCluster then gangWindowAt g.id.gang else launchWindowAt g.id.launch (bindTarget b)) + off)) →
      (∀ i pa, i < n → place i = .ok pa → Takes s pa len) →
      (∀ i j pa pb, i < j → j < n → place i = .ok pa → place j = .ok pb → pa + len ≤ pb ∨ pb + len ≤ pa) →
      let sent := ((List.range n).filter fun i => (place i).toBool).length
      let codes := (List.range n).filterMap fun i => match place i with | .ok _ => none | .error code => some code
      ∃ t : State, exec (.engineCommandComplete k c.seq ext) s = .next (t.finishCmd k c (statusWord (codes.headD 0) sent (sent * len)))
        ∧ (∀ i pa, i < n → place i = .ok pa → t.mem.bytes pa len = s.mem.bytes src len)
        ∧ ∀ x, (∀ i pa, i < n → place i = .ok pa → x < pa ∨ pa + len ≤ x) → t.mem.byte x = s.mem.byte x)

/-- R250, R251: tidset replaces its entry of the launch, in every replica, by the 64 bytes at its address, unless they are malformed; tidget
stores the entry there. A misaligned address gives code 5. -/
def Claims.TensorEntries : Prop :=
  ∀ (s : State) (k : Nat) (g : Group) (c : EngCmd) (ext : EngineReply) (tid : BitVec 8) (f : BitVec 6) (la : BitVec 4),
    Table.get? s.groups k = some g → g.cmdAt c.seq = some c → s.mayWork g c = true → Undisturbed s ext →
    (c.ins = .tidset tid f la → c.image = [] →
      ((c.op 0).toNat % 64 ≠ 0 → exec (.engineCommandComplete k c.seq ext) s = .next (s.finishCmd k c (statusWord 5 0 0)))
      ∧ ∀ p, (c.op 0).toNat % 64 = 0 → Sees s (c.reader g) (c.op 0) p 64 →
        (tidMalformed (s.mem.bytes p 64) = true →
          exec (.engineCommandComplete k c.seq ext) s = .next (s.finishCmd k c (statusWord 4 0 0)))
        ∧ (tidMalformed (s.mem.bytes p 64) = false → ∀ l, Table.get? s.launches g.id.launch = some l →
          ∃ (t : State) (l' : Launch), exec (.engineCommandComplete k c.seq ext) s = .next (t.finishCmd k c (statusWord 0 0 64))
            ∧ Table.get? t.launches g.id.launch = some l' ∧ { t with launches := s.launches } = s
            ∧ { l' with tids := l.tids, tidAhead := l.tidAhead } = l
            ∧ (∀ cluster, t.tidReplica g.id.launch cluster tid.toNat = s.mem.bytes p 64)
            ∧ ∀ cluster n, n ≠ tid.toNat → t.tidReplica g.id.launch cluster n = s.tidReplica g.id.launch cluster n))
    ∧ (c.ins = .tidget tid f la →
      (tidMalformed c.tid = true → exec (.engineCommandComplete k c.seq ext) s = .next (s.finishCmd k c (statusWord 4 0 0)))
      ∧ (tidMalformed c.tid = false → (c.op 0).toNat % 64 ≠ 0 →
        exec (.engineCommandComplete k c.seq ext) s = .next (s.finishCmd k c (statusWord 5 0 0)))
      ∧ ∀ p, tidMalformed c.tid = false → (c.op 0).toNat % 64 = 0 → c.tid.length = 64 → Lands s (c.reader g) false (c.op 0) p 64 →
        exec (.engineCommandComplete k c.seq ext) s = .next ((s.storeBytes p c.tid).finishCmd k c (statusWord 0 0 64)))

/-- R270: a walk along a bucket: each node is read, the first that agrees in hash, parent and token is found, and each with the same hash alone
is a collision (a chain of more nodes than the table holds ends there: log 64). -/
def Claims.BucketWalk : Prop :=
  ∀ (s : State) (rd : Reader) (ext : EngineReply) (tid : List Byte) (h parent token : BitVec 32) (fuel node p : Nat), Undisturbed s ext →
    (Run.of s ext).bucket rd tid h parent token fuel 0 = .ok (Run.of s ext, none, 0)
    ∧ (node ≠ 0 → Sees s rd (nodeAt tid node) p 16 → ∀ found n,
      (Run.of s ext).bucket rd tid h parent token fuel (s.mem.w32 (p + 12)).toNat = .ok (Run.of s ext, found, n) →
      let same := s.mem.w32 (p + 8) = h
      let agrees := same ∧ s.mem.w32 p = parent ∧ s.mem.w32 (p + 4) = token
      (agrees → (Run.of s ext).bucket rd tid h parent token (fuel + 1) node = .ok (Run.of s ext, some node, n))
      ∧ (¬ agrees → same → (Run.of s ext).bucket rd tid h parent token (fuel + 1) node = .ok (Run.of s ext, found, n + 1))
      ∧ (¬ same → (Run.of s ext).bucket rd tid h parent token (fuel + 1) node = .ok (Run.of s ext, found, n)))

/-- R271: one token of a path. The hash goes on, its bucket is walked, and the node found is written back and becomes the parent; with none,
stlook writes zeros to the end and stops, and stins adds a node at the head of the bucket, or stops with code 8 when the table is full. -/
def Claims.PathToken : Prop :=
  ∀ (s : State) (rd : Reader) (ext : EngineReply) (tid : List Byte) (path : BitVec 64) (insert : Bool) (len k pt pb po coll : Nat)
    (found : Option Nat) (w : PathWalk), Undisturbed s ext → w.r = Run.of s ext → k < len →
    let out := fun (j : Nat) => path + BitVec.ofNat 64 (0x108 + 4 * j)
    let token := s.mem.w32 pt
    let h := (w.h ^^^ token) * 0x01000193#32
    let b := h.toNat % tidN1 tid
    let at' := { w with h := h, collisions := w.collisions + coll }
    Sees s rd (path + BitVec.ofNat 64 (8 + 4 * k)) pt 4 → Sees s rd (bucketAt tid b) pb 4 →
    (Run.of s ext).bucket rd tid h w.parent token (tidN0 tid) (s.mem.w32 pb).toNat = .ok (Run.of s ext, found, coll) →
    (∀ node, found = some node → Lands s rd false (out k) po 4 →
      w.token rd tid path insert len k = { at' with
        r := { Run.of s ext with s := s.storeBytes po (leBytes 4 (node % 2 ^ 32)) }
        parent := BitVec.ofNat 32 node, matched := w.matched + 1 })
    ∧ (found = none → insert = false → ∀ po' : Nat → Nat,
      (∀ j, j < len - k → Lands s rd false (out (k + j)) (po' j) 4) →
      (∀ i j, i < j → j < len - k → po' i + 4 ≤ po' j ∨ po' j + 4 ≤ po' i) →
      ∃ r, w.token rd tid path false len k = { at' with r := r, code := some 0 }
        ∧ (∀ j, j < len - k → r.s.mem.nat (po' j) 4 = 0)
        ∧ ∀ a, (∀ j, j < len - k → a < po' j ∨ po' j + 4 ≤ a) → r.s.mem.byte a = s.mem.byte a)
    ∧ ∀ pc : Nat, found = none → insert = true → Sees s rd (tidBase tid) pc 4 →
      let count := (s.mem.w32 pc).toNat
      (count + 1 = tidN0 tid → w.token rd tid path true len k = { at' with code := some 8 })
      ∧ ∀ pn, count + 1 ≠ tidN0 tid → tidN0 tid ≠ 0 → count + 1 < 2 ^ 32 →
        Lands s rd false (tidBase tid) pc 4 → Lands s rd false (nodeAt tid (count + 1)) pn 16 →
        Lands s rd false (bucketAt tid b) pb 4 → Lands s rd false (out k) po 4 →
        w.token rd tid path true len k = { at' with
          r := { Run.of s ext with s :=
            (((s.storeBytes pc (leBytes 4 (count + 1))).storeBytes pn
              (leBytes 4 w.parent.toNat ++ leBytes 4 token.toNat ++ leBytes 4 h.toNat ++ leBytes 4 (s.mem.w32 pb).toNat)).storeBytes pb
              (leBytes 4 (count + 1))).storeBytes po (leBytes 4 (count + 1)) }
          parent := BitVec.ofNat 32 (count + 1), fresh := w.fresh + 1 }

/-- R250, R271: stins and stlook. A malformed entry or another kind gives code 4; a misaligned record, a length of 0 or beyond 64 and a starting
node at or above the count give 5; else the tokens are walked in order, the collisions are added to the header, and the status counts them
with the new nodes or the matched ones. -/
def Claims.PathCommands : Prop :=
  ∀ (s : State) (k : Nat) (g : Group) (c : EngCmd) (ext : EngineReply) (tid : BitVec 8) (f : BitVec 6) (la : BitVec 4) (insert : Bool) (p pc : Nat),
    Table.get? s.groups k = some g → g.cmdAt c.seq = some c → s.mayWork g c = true → Undisturbed s ext →
    c.ins = (if insert then .stins tid f la else .stlook tid f la) →
    let rd := c.reader g
    let path := c.op 0
    let len := s.mem.nat p 4
    let start := s.mem.nat (p + 4) 4
    (tidMalformed c.tid = true ∨ tidKind c.tid ≠ 3 → exec (.engineCommandComplete k c.seq ext) s = .next (s.finishCmd k c (statusWord 4 0 0)))
    ∧ (tidMalformed c.tid = false → tidKind c.tid = 3 →
      (path.toNat % 16 ≠ 0 → exec (.engineCommandComplete k c.seq ext) s = .next (s.finishCmd k c (statusWord 5 0 0)))
      ∧ (path.toNat % 16 = 0 → Sees s rd path p 8 → Sees s rd (tidBase c.tid) pc 4 →
        let bad := len = 0 ∨ 64 < len ∨ (start ≠ 0 ∧ s.mem.nat pc 4 ≤ start)
        (bad → exec (.engineCommandComplete k c.seq ext) s = .next (s.finishCmd k c (statusWord 5 0 0)))
        ∧ ∀ (h : BitVec 32) (ws : Nat → PathWalk) (n : Nat), ¬ bad →
          (start = 0 → h = 0x811C9DC5#32) →
          (start ≠ 0 → ∃ ph, Sees s rd (nodeAt c.tid start + 8#64) ph 4 ∧ h = s.mem.w32 ph) →
          ws 0 = { r := Run.of s ext, h := h, parent := BitVec.ofNat 32 start, collisions := 0, fresh := 0, matched := 0, code := none, stop := none } →
          n ≤ len → (∀ j, j < n → (ws j).code = none ∧ (ws j).stop = none ∧ ws (j + 1) = (ws j).token rd c.tid path insert len j) →
          (ws n).stop = none → ((ws n).code ≠ none ∨ n = len) →
          let w := ws n
          let word := statusWord (w.code.getD 0) w.collisions (if insert then w.fresh else w.matched)
          (w.collisions = 0 → exec (.engineCommandComplete k c.seq ext) s = .next (w.r.s.finishCmd k c word))
          ∧ ∀ (r : Run) (total : BitVec 32), w.collisions ≠ 0 → w.r.read32 rd (tidBase c.tid + 4#64) = .ok (w.r, total) →
            w.r.write32 rd (tidBase c.tid + 4#64) (total + BitVec.ofNat 32 w.collisions) = .ok r →
            exec (.engineCommandComplete k c.seq ext) s = .next (r.s.finishCmd k c word)))

/-- R218, R219, R272, R273: kvres writes a record of each page, which it resolves through both stages: its slant base and block, and for a page
of this device its physical address, its tier and code 0; for one that fails, the tier and the code (its address is a free value, log 8).
The count is the pages failed, the quantity the pages resolved. -/
def Claims.ResolvedPages : Prop :=
  ∀ (s : State) (k : Nat) (g : Group) (c : EngCmd) (ext : EngineReply) (tid : BitVec 8) (f : BitVec 6) (la : BitVec 4),
    Table.get? s.groups k = some g → g.cmdAt c.seq = some c → s.mayWork g c = true → c.ins = .kvres tid f la → Undisturbed s ext →
    let n := (c.op 0).toNat / 2 ^ 32 % 2 ^ 16
    let first := (c.op 0).toNat % 2 ^ 32 / 32
    (tidMalformed c.tid = true ∨ tidKind c.tid ≠ 1 → exec (.engineCommandComplete k c.seq ext) s = .next (s.finishCmd k c (statusWord 4 0 0)))
    ∧ (tidMalformed c.tid = false → tidKind c.tid = 1 →
      (n = 0 ∨ 4096 < n → exec (.engineCommandComplete k c.seq ext) s = .next (s.finishCmd k c (statusWord 5 0 0)))
      ∧ ∀ (from' at' : Nat → Nat), 0 < n → n ≤ 4096 → (c.op 0).toNat / 2 ^ 48 = 0 →
        (∀ q, q < n → Sees s (c.reader g) (kvEntryAt c.tid (32 * (first + q))) (from' q) 16
          ∧ Lands s (c.reader g) false (c.op 1 + BitVec.ofNat 64 (16 * q)) (at' q) 16) →
        (∀ q r, q < r → r < n → at' q + 16 ≤ at' r ∨ at' r + 16 ≤ at' q) →
        (∀ q r, q < n → r < n → at' q + 16 ≤ from' r ∨ from' r + 16 ≤ at' q) →
        (∀ q b, q < n → b < s.disp.kvCount → at' q + 16 ≤ s.disp.kvBase + 8 * b ∨ s.disp.kvBase + 8 * b + 8 ≤ at' q) →
        (∀ b, b < s.disp.kvCount → Gives s (s.disp.kvBase + 8 * b) 8) →
        let entry := fun (q : Nat) => ({ meta_ := s.mem.nat (from' q) 8, data := s.mem.nat (from' q + 8) 8 } : KvEntry)
        let page := fun (q : Nat) => s.kvResolve g.id.launch (entry q)
        (∀ q slot, q < n → page q ≠ .ok (.peer slot)) →
        let good := ((List.range n).filter fun q => (page q).toBool).length
        ∃ t : State, exec (.engineCommandComplete k c.seq ext) s = .next (t.finishCmd k c (statusWord 0 (n - good) good))
          ∧ (∀ q, q < n → t.mem.nat (at' q) 4 = (entry q).slant ∧ t.mem.nat (at' q + 4) 4 = (entry q).block
            ∧ bitsOf (t.mem.nat (at' q + 8) 8) 52 4 = (entry q).tier
            ∧ (∀ pa, page q = .ok (.here pa) → t.mem.nat (at' q + 8) 8 % 2 ^ 52 = pa % 2 ^ 52 ∧ t.mem.byte (at' q + 15) = 0#8)
            ∧ ∀ code e, page q = .error (.fail code e) → t.mem.byte (at' q + 15) = BitVec.ofNat 8 code)
          ∧ ∀ x, (∀ q, q < n → x < at' q ∨ at' q + 16 ≤ x) → t.mem.byte x = s.mem.byte x)

/-- R131: the canonical tree over the ranks: neighbours are paired, lower side first, an odd last one is carried, level by level. -/
def Claims.CanonicalTree : Prop :=
  ∀ (f : FVal → FVal → FVal) (xs : List FVal) (n : Nat),
    (∀ x, treeFold f n [x] = x)
    ∧ (2 ≤ xs.length → treeFold f (n + 1) xs = treeFold f n ((List.range ((xs.length + 1) / 2)).map fun i =>
        if 2 * i + 1 < xs.length then f (xs.getD (2 * i) .nan) (xs.getD (2 * i + 1) .nan) else xs.getD (2 * i) .nan))
    ∧ ∀ a b : FVal, combine 0 true a b = val64 (rnd64 (a.add b)) ∧ combine 0 false a b = val32 (rnd32 (a.add b))

/-- R132: what a rank sends and the residuals it keeps: t is its value plus the residual, sent in the wire format, and the new residual is what
the format lost of t, or +0 for a NaN or an infinity. Without a residual area it sends its values. -/
def Claims.Contributed : Prop :=
  ∀ (d : List Byte) (ys res : List FVal),
    (redResidual d = 0#64 → contributionOf d ys res = (packBuffer (redWire d) ys, []))
    ∧ (redResidual d ≠ 0#64 → ys.length = res.length →
      let ts := (ys.zip res).map fun p => val32 (rnd32 (p.1.add p.2))
      (contributionOf d ys res).1 = packBuffer (redWire d) ts
      ∧ ∀ j, j < ys.length → ((contributionOf d ys res).2.drop (4 * j)).take 4 = leBytes 4
          (let t := ts.getD j .nan
           if t.special then 0 else (rnd32 (t.add (bufferVal (redWire d) ys.length (packBuffer (redWire d) ts) j).neg)).toNat))

/-- R131, R268: the contributions of a collective by rank, once every rank of this device has joined; none before. -/
def Claims.Gathered : Prop :=
  ∀ (s : State) (x : Coll) (d bytes : List Byte) (n : Nat),
    (∀ r, r < n → bindKind (s.bindingOf x.launch (redFirst d + r)) = 2 ∧ bindTarget (s.bindingOf x.launch (redFirst d + r)) = s.device.toNat) →
    let joined := fun (r : Nat) => x.ranks.find? fun q => q.rank == r
    ((∀ r, r < n → joined r ≠ none) → s.gather x d bytes n 0 = some (.ok ((List.range n).map fun r =>
      ((joined r).map fun q => q.data.take (bufferBytes (redWire d) (redCount d))).getD [])))
    ∧ ((∃ r, r < n ∧ joined r = none) → s.gather x d bytes n 0 = none)

/-- R268, R269: creduce. A misaligned descriptor, one that is not fit, and a residual area without an f32 source and a narrower wire end the rank;
else it joins the collective of its key with its contribution, whose parameters, and the binding of whose role, decide on code 9; the rank
waits for the others; then it writes the result in the destination format where it receives it, and its residuals. -/
def Claims.Collectives : Prop :=
  ∀ (s : State) (k : Nat) (g : Group) (c : EngCmd) (ext : EngineReply) (f : BitVec 6) (la : BitVec 4),
    Table.get? s.groups k = some g → g.cmdAt c.seq = some c → s.mayWork g c = true → c.ins = .creduce f la →
    (c.round = 0 →
      ((c.op 0).toNat % 64 ≠ 0 → exec (.engineCommandComplete k c.seq ext) s = .next (s.finishCmd k c (statusWord 5 0 0)))
      ∧ ∀ p, (c.op 0).toNat % 64 = 0 → Undisturbed s ext → Sees s (c.reader g) (c.op 0) p 64 →
        let d := s.mem.bytes p 64
        (∀ code, redEarly d = some code → exec (.engineCommandComplete k c.seq ext) s = .next (s.finishCmd k c (statusWord code 0 0)))
        ∧ ∀ src old, redEarly d = none →
          (Run.of s ext).read (c.reader g) kindEngineRead (BitVec.ofNat 64 (s.mem.nat p 8)) (bufferBytes (redSource d) (redCount d)) =
            .ok (Run.of s ext, src) →
          (Run.of s ext).residuals (c.reader g) d = .ok (Run.of s ext, old) →
          let sent := contributionOf d (bufferVals (redSource d) (redCount d) src) old
          let mine := fun (x : Coll) => x.key.toNat = redKey d ∧ x.launch = g.id.launch ∧ ∀ r ∈ x.ranks, r.rank ≠ redRank d
          ∃ (t : State) (x : Coll) (r : CollRank) (h : Group) (c' : EngCmd), exec (.engineCommandComplete k c.seq ext) s = .next t
            ∧ Table.get? t.groups k = some h ∧ h.cmdAt c.seq = some c' ∧ c'.round = x.round ∧ c'.image = d ∧ h.regs = g.regs
            ∧ SameBytes s t ∧ x ∈ t.colls ∧ x.key.toNat = redKey d ∧ x.launch = g.id.launch ∧ r ∈ x.ranks
            ∧ r.rank = redRank d ∧ r.grp = k ∧ r.seq = c.seq ∧ r.data = sent.1 ++ sent.2 ∧ r.params = (d.drop 0x18).take 16
            ∧ ((∀ y ∈ s.colls, ¬ mine y) → x.ranks = [r]
              ∧ x.failed = if s.rankHere g.id.launch (redFirst d) (redRank d) then none else some 9)
            ∧ ∀ y, s.colls.find? (fun x => decide (mine x)) = some y → x.ranks = y.ranks ++ [r] ∧ x.round = y.round
              ∧ (s.rankHere g.id.launch (redFirst d) (redRank d) = true → (∀ q ∈ y.ranks, sameParams q.params r.params = true) →
                x.failed = y.failed)
              ∧ (s.rankHere g.id.launch (redFirst d) (redRank d) = false ∨ (∃ q ∈ y.ranks, sameParams q.params r.params = false) →
                x.failed = some 9))
    ∧ ∀ x, c.round ≠ 0 → s.colls.find? (fun x => x.round == c.round) = some x →
      let d := c.image
      (∀ code, x.failed = some code →
        exec (.engineCommandComplete k c.seq ext) s = .next ((s.leaveColl x k c.seq).finishCmd k c (statusWord code 0 0)))
      ∧ (x.failed = none → lostRank ext = true →
        exec (.engineCommandComplete k c.seq ext) s = .next ((s.leaveColl x k c.seq).finishCmd k c (statusWord 0x0A 0 0)))
      ∧ (x.failed = none → lostRank ext = false →
        (s.gather x d ext.bytes (redRanks d) 0 = none → exec (.engineCommandComplete k c.seq ext) s = .next s)
        ∧ (∀ code, s.gather x d ext.bytes (redRanks d) 0 = some (.error code) →
          exec (.engineCommandComplete k c.seq ext) s = .next ((s.leaveColl x k c.seq).finishCmd k c (statusWord code 0 0)))
        ∧ ∀ (cs : List (List Byte)) (res : List Byte), s.gather x d ext.bytes (redRanks d) 0 = some (.ok cs) → Undisturbed s ext →
          res = ((x.ranks.find? fun q => q.rank == redRank d).map fun q => q.data.drop (bufferBytes (redWire d) (redCount d))).getD [] →
          let out := packBuffer (redDest d) ((List.range (redCount d)).map fun e =>
            treeFold (combine (redOp d) (redWire d == 1)) 8 (cs.map fun v =>
              takeIn (redOp d) (redWire d) ((bufferVals (redWire d) (redCount d) v).getD e .nan)))
          let receives := redMode d = 0 ∨ redRank d = 0
          ∀ pd pr : Nat, (receives → out ≠ [] ∧ Lands s (c.reader g) false (BitVec.ofNat 64 (redField d 8 8)) pd out.length) →
            (redResidual d ≠ 0#64 → res ≠ [] ∧ Lands s (c.reader g) false (redResidual d) pr 4
              ∧ Lands s (c.reader g) false (redResidual d + 16#64) (pr + 16) res.length) →
            let s₁ := if receives then s.storeBytes pd out else s
            let s₂ := if redResidual d = 0#64 then s₁ else (s₁.storeBytes pr (leBytes 4 (redKey d))).storeBytes (pr + 16) res
            exec (.engineCommandComplete k c.seq ext) s =
              .next ((s₂.leaveColl x k c.seq).finishCmd k c (statusWord 0 0 (if receives then out.length else 0))))

/-- R103, R104, R106, R107, R127, R128, R131, R132, R246 to R273: engine commands from their start to their status. -/
def Obligations.EngineCommandLife : Prop :=
  Claims.CommandStarts ∧ Claims.StatusLands ∧ Claims.CommandCompletes ∧ Claims.RecordOfAChain ∧ Claims.InstantOfAPubl
    ∧ Claims.EngineAccess ∧ Claims.LoadedElements ∧ Claims.TileAndPanelLoads ∧ Claims.LoadCodes
    ∧ Claims.StoredRow ∧ Claims.ScaledBlock ∧ Claims.AccumulatorStores
    ∧ Claims.BlotterEntry ∧ Claims.PartialRecord ∧ Claims.MergedPartials ∧ Claims.BlotterCollect ∧ Claims.CastToRoles
    ∧ Claims.TensorEntries ∧ Claims.BucketWalk ∧ Claims.PathToken ∧ Claims.PathCommands ∧ Claims.ResolvedPages
    ∧ Claims.CanonicalTree ∧ Claims.Gathered ∧ Claims.Contributed ∧ Claims.Collectives

/-! ## The mailbox, boot and reset (23: R377 to R381, R387, R391) -/

/-- R378: the response block that firmware writes holds the request's code, length and sequence, the result at byte 8 and the data
after it; STATUS then names the sequence, EVENT bit 0 is set, and firmware is free for the next request. Nothing else changes. -/
def Claims.ResponseBlock : Prop :=
  ∀ (s : State) (q : Request) (result : BitVec 64) (data : List Byte),
    let t := s.respond q result data
    tableBytes t.host.response 0 2 = leBytes 2 q.code ∧ tableBytes t.host.response 2 2 = leBytes 2 q.len.toNat
    ∧ tableBytes t.host.response 4 4 = leBytes 4 q.seq.toNat ∧ tableBytes t.host.response 8 8 = leBytes 8 result.toNat
    ∧ tableBytes t.host.response 16 data.length = data
    ∧ t.host.status.toNat / 2 ^ 32 = q.seq.toNat ∧ t.host.event = s.host.event ||| 1#3 ∧ t.host.taken = none
    ∧ { t with host := { t.host with response := s.host.response, lastSeq := s.host.lastSeq, event := s.host.event,
                                     taken := s.host.taken } } = s

/-- R378: a code that firmware does not accept in the current state returns all ones, with no other effect; recovery and booting
accept IMAGE, BOOT, CONFIG and ATTEST only. -/
def Claims.NotAccepted : Prop :=
  ∀ (s : State) (q : Request) (n a b c d e : Nat) (w : BitVec 64) (gen flags : BitVec 16) (data : List Byte) (nodes : List Nat)
    (imp : BitVec 128) (exp : BitVec 512) (i : Instr) (code : Nat) (ops : List Byte),
    (i, code, ops) ∈ [(.image n data, 0x0001, dataOps n data), (.boot, 0x0002, []), (.config n data, 0x0003, dataOps n data),
      (.queueCreate n a b c flags d e n, 0x0010, opWords [0, n, a, b, c] ++ leBytes 2 flags.toNat ++ opWords [d, e, n]),
      (.queueMap n a, 0x0010, opWords [1, n, a]), (.queueDelete n, 0x0010, opWords [2, n]),
      (.regionSuspend n, 0x0011, opWords [0, n]), (.regionResume n, 0x0011, opWords [1, n]), (.regionKill n, 0x0011, opWords [2, n]),
      (.install n w gen, 0x0020, opWords [n] ++ leBytes 8 w.toNat ++ leBytes 2 gen.toNat),
      (.hold n a gen, 0x0021, opWords [n, a] ++ leBytes 2 gen.toNat), (.unhold n a gen, 0x0022, opWords [n, a] ++ leBytes 2 gen.toNat),
      (.release nodes, 0x0023, opWords (nodes.length :: nodes)), (.passign n a, 0x0024, opWords [n, a]), (.pfree n, 0x0025, opWords [n]),
      (.answer n a b, 0x0026, opWords [n, a, b]), (.importSet n imp, 0x0027, opWords [n] ++ leBytes 16 imp.toNat),
      (.exportSet n exp, 0x0028, opWords [n] ++ leBytes 64 exp.toNat), (.attest data, 0x0030, padTo 32 data), (.vlog, 0x0031, []),
      (.profile n a b c d, 0x0032, opWords [n, a, b, c, d]), (.debugAttach n, 0x0033, opWords [1, n])] →
    s.host.taken = some q → q.code = code → q.operands.take ops.length = ops →
    (s.host.accepts code = false → exec i s = .next (s.respond q (BitVec.allOnes 64) []))
    ∧ (s.host.dev = .recovery ∨ s.host.dev = .booting →
      (s.host.accepts code = true ↔ code = 0x0001 ∨ code = 0x0002 ∨ code = 0x0003 ∨ code = 0x0030))
    ∧ (s.host.dev = .running → (s.host.accepts code = true ↔ code ≠ 0x0002))

/-- R379, R391: RESET, and a reset request over I3C, leave the machine as it is right after reset. What memory then holds is the
model's choice (log 2): zeros outside the shared CXL windows; turns still listed stay (log 1), and values left open go on (log 8). -/
def Claims.Resets : Prop :=
  ∀ (s : State) (i : Instr), i = .reset ∨ i = .i3cResetRequest → ∃ t : State, exec i s = .next t
    ∧ t = { State.reset with agenda := s.agenda, open_ := s.open_, mem := t.mem }
    ∧ ∀ a, t.mem.byte a = if s.inShared a = true then s.mem.byte a else 0#8

/-- R379, R380: IMAGE and CONFIG put their bytes into their staging areas, the image's within 64 MiB, and BOOT checks the image's
header, its length, and its signature over the digest of all but its last 64 bytes, in this order. The first step that fails is the
result, with the staging area cleared; otherwise the machine runs, unconfigured without a valid record. The result 1 of an image beyond
64 MiB is the model's choice (log 31), and so is the result 2 of a staged image that is shorter than its header says (log 82). -/
def Claims.Boot : Prop :=
  ∀ (s : State) (q : Request) (off : Nat) (data : List Byte),
    (Asked s q 0x0001 (dataOps off data) → off + data.length ≤ 0x4000000 → ∃ t : State, exec (.image off data) s = .next (t.respond q 0#64 [])
      ∧ { t with boot := { t.boot with staging := s.boot.staging } } = s
      ∧ ∀ n, Table.getD t.boot.staging n 0#8 =
        if off ≤ n ∧ n < off + data.length then data.getD (n - off) 0#8 else Table.getD s.boot.staging n 0#8)
    ∧ (Asked s q 0x0001 (dataOps off data) → 0x4000000 < off + data.length → exec (.image off data) s = .next (s.respond q 1#64 []))
    ∧ (Asked s q 0x0003 (dataOps off data) → ∃ t : State, exec (.config off data) s = .next (t.respond q 0#64 [])
      ∧ { t with boot := { t.boot with config := s.boot.config } } = s
      ∧ ∀ n, Table.getD t.boot.config n 0#8 =
        if off ≤ n ∧ n < off + data.length then data.getD (n - off) 0#8 else Table.getD s.boot.config n 0#8)
    ∧ (Asked s q 0x0002 [] →
      let img := stagedBytes s.boot.staging
      let h := Config.imageHeader img
      let body := img.take h.length
      let headerOk := h.magic = true ∧ h.length ≤ 0x4000000 ∧ h.keyIndex ≤ 1
      let digest := Config.sha512 (body.take (h.length - 64))
      let signed := Config.imageSignatureOk h.keyIndex digest (body.drop (h.length - 64)) = true
      let fails := fun (n : BitVec 64) =>
        exec .boot s = .next (({ s with boot := { s.boot with staging := [] } } : State).respond q n [])
      (¬ headerOk → fails 1#64) ∧ (headerOk → h.length < 64 ∨ img.length < h.length → fails 2#64)
      ∧ (headerOk → 64 ≤ h.length → h.length ≤ img.length → ¬ signed → fails 3#64)
      ∧ (headerOk → 64 ≤ h.length → h.length ≤ img.length → signed → ∃ t : State, exec .boot s = .next (t.respond q 0#64 [])
        ∧ t.host.dev = .running ∧ t.boot.settings = configRecord (stagedBytes s.boot.config)
        ∧ t.host.unconfigured = t.boot.settings.isNone ∧ t.host.timeUnlocked = !s.clk.reference ∧ t.boot.digest = digest
        ∧ t.boot.version = h.securityVersion ∧ t.boot.walkerEntry = h.walkerEntry
        ∧ { t with boot := s.boot, host := { t.host with dev := s.host.dev, unconfigured := s.host.unconfigured,
                                                         timeUnlocked := s.host.timeUnlocked } } = s))

/-- R381, R387: ATTEST answers the nonce, the image digest, the security version, the device, the configuration digest, TIME and
the identity key, signed; VLOG answers the oldest violation records, as many as a response holds, and frees them (the count as the
result, and both layouts in the response, are the model's: log 31). -/
def Claims.Reports : Prop :=
  ∀ (s : State) (q : Request) (nonce : List Byte),
    (Asked s q 0x0030 (padTo 32 nonce) → ∃ body, exec (.attest nonce) s = .next (s.respond q 0#64
        (body ++ padTo 64 (Config.identitySign (Config.sha512 body))))
      ∧ body.length = 0xB0 ∧ body.take 0x20 = padTo 32 nonce ∧ (body.drop 0x20).take 64 = padTo 64 s.boot.digest
      ∧ (body.drop 0x60).take 4 = leBytes 4 s.boot.version.toNat ∧ (body.drop 0x64).take 4 = leBytes 4 s.device.toNat
      ∧ (body.drop 0x68).take 32 = padTo 32 s.boot.configDigest ∧ (body.drop 0x88).take 8 = leBytes 8 s.clk.time
      ∧ body.drop 0x90 = padTo 32 Config.identityKey)
    ∧ (Asked s q 0x0031 [] → exec .vlog s = .next (({ s with fab := { s.fab with violations := s.fab.violations.drop 127 } } : State).respond q
        (BitVec.ofNat 64 (min 127 s.fab.violations.length)) ((s.fab.violations.take 127).flatMap Violation.toBytes)))

/-- R380, R382: a staged configuration record becomes the settings only when both its signatures verify, its identity key is the
device's, its reserved fields are zero, its power cap is 2.0 to 5.2 kW, its spares are 0 to 16, and its interleave sets keep their rules:
whole GiB within the CXL range, a power of two of ports as ways, a granule of 256 B to 16 KiB, one CXL version, no shared set on a CXL 2.0
port, no overlap, 64 TiB in all. An unconfigured device has a cap of 2.0 kW. -/
def Claims.Configuration : Prop :=
  (∀ (bs : List Byte) (c : Config.Settings), configRecord bs = some c →
    let r := Config.recordImage bs
    bs ≠ [] ∧ Config.fraotteSignatureOk r.operatorKey r.certificate = true
    ∧ Config.operatorSignatureOk r.operatorKey (Config.sha512 r.signed) r.signature = true
    ∧ r.identity = Config.identityKey ∧ r.reservedZero = true
    ∧ c.device = r.device ∧ c.powerCap = r.powerCap ∧ 20 ≤ c.powerCap ∧ c.powerCap ≤ 52 ∧ c.spares ≤ 16
    ∧ c.sets.length ≤ 256 ∧ (c.sets.map fun w => w.size).sum ≤ 2 ^ 46
    ∧ c.sets.Pairwise (fun v w => v.base + v.size ≤ w.base ∨ w.base + w.size ≤ v.base)
    ∧ ∀ w ∈ c.sets,
      let ports := (List.range 32).filter fun n => w.ports.getLsbD n
      w.base % 2 ^ 30 = 0 ∧ Config.cxlBase ≤ w.base ∧ w.base + w.size ≤ Config.cxlEnd ∧ 8 ≤ w.granule ∧ w.granule ≤ 14
      ∧ (∃ e, ports.length = 2 ^ e) ∧ 0 < w.size ∧ w.size % (2 ^ 30 * ports.length) = 0
      ∧ ((∀ n ∈ ports, Config.cxlPort2 n = true) ∨ ∀ n ∈ ports, Config.cxlPort2 n = false)
      ∧ (w.sharedMode = true → ∀ n ∈ ports, Config.cxlPort2 n = false))
  ∧ ∀ s : State, s.boot.settings = none → s.powerCap = 20

/-- R377 to R382, R387, R391: requests and their responses, boot, configuration, reports and reset. -/
def Obligations.MailboxBootAndReset : Prop :=
  Claims.ResponseBlock ∧ Claims.NotAccepted ∧ Claims.Resets ∧ Claims.Boot ∧ Claims.Configuration ∧ Claims.Reports

/-! ## Registers of the host and queues (23: R377, R378; 20: R334 to R336) -/

/-- R377, R378: a write of ones to EVENT clears those bits; a write of NTAIL takes its low seven bits and lets a waiting notice into
the ring; a write to REQUEST replaces those bytes of the block; the doorbell takes the block, with its 4,088 operand bytes, when its
value is the block's sequence and no request is in progress, answers an unknown code at once (and an unknown sub-operation of a code:
log 31), and is ignored otherwise. A write to a notify register is a notify write of its queue. -/
def Claims.HostRegisters : Prop :=
  ∀ (s : State) (v : BitVec 64) (off : Nat),
    (∀ i, i = .eventWrite v ∨ i = .registerWrite 0x0010 v →
      ∃ t : State, exec i s = .next t ∧ { t with host := { t.host with event := s.host.event } } = s
        ∧ ∀ b, b < 3 → t.host.event.getLsbD b = (s.host.event.getLsbD b && !v.getLsbD b))
    ∧ (∀ i, i = .ntailWrite v ∨ i = .registerWrite 0x0020 v →
      ∃ t : State, exec i s = .next t ∧ t.host.ntail = v.setWidth 7 ∧ { t with host := s.host } = s
        ∧ (s.host.backlog = [] → t.host = { s.host with ntail := v.setWidth 7 })
        ∧ ∀ b, s.host.backlog = [b] → b.length = 32 → s.host.nhead + 1#7 ≠ v.setWidth 7 →
          t.host.backlog = [] ∧ t.host.nhead = s.host.nhead + 1#7 ∧ tableBytes t.host.notices (32 * s.host.nhead.toNat) 32 = b
          ∧ t.host.event = s.host.event ||| 2#3)
    ∧ (let code := leNat (tableBytes s.host.request 0 2)
       let seq := BitVec.ofNat 32 (leNat (tableBytes s.host.request 4 4))
       let ops := tableBytes s.host.request 8 4088
       let q : Request := ⟨code, BitVec.ofNat 16 (leNat (tableBytes s.host.request 2 2)), seq, ops⟩
       let codes := [0x01, 0x02, 0x03, 0x10, 0x11, 0x20, 0x21, 0x22, 0x23, 0x24, 0x25, 0x26, 0x27, 0x28, 0x30, 0x31, 0x32, 0x33, 0x34, 0x35]
       (s.host.taken ≠ none ∨ v.setWidth 32 ≠ seq → exec (.registerWrite 0 v) s = .next s)
       ∧ (s.host.taken = none → v.setWidth 32 = seq →
         (code ∈ codes → blockKnown code ops = true →
           exec (.registerWrite 0 v) s = .next { s with host := { s.host with taken := some q } })
         ∧ (code ∉ codes ∨ blockKnown code ops = false →
           exec (.registerWrite 0 v) s = .next (s.respond q (BitVec.allOnes 64) []))))
    ∧ (0x1000 ≤ off → off + 8 ≤ 0x2000 → ∃ t : State, exec (.registerWrite off v) s = .next t
      ∧ { t with host := { t.host with request := s.host.request } } = s
      ∧ ∀ n, Table.getD t.host.request n 0#8 =
        if off ≤ n + 0x1000 ∧ n + 0x1000 < off + 8 then v.extractLsb' (8 * (n + 0x1000 - off)) 8 else Table.getD s.host.request n 0#8)
    ∧ (∀ k, k < 65536 → exec (.registerWrite (0x10000 + 8 * k) v) s = exec (.notifyWrite k v) s)

/-- R4, R5, R377: what the host reads from BAR0: STATUS, with the state, the flags and the last sequence; EVENT, NHEAD and NTAIL with
their reserved bits zero; the bytes of the request, the response and the notice ring; and zero from the write-only DOORBELL and notify
registers. -/
def Claims.HostReads : Prop :=
  ∀ (h : HostIf) (off : Nat),
    let state := match h.dev with
      | .recovery => 0
      | .booting => 1
      | .running => 2
      | .halted => 3
    h.bar0 0x0000 = 0#64
    ∧ (h.bar0 0x0008).toNat = state + 2 ^ 2 * h.unconfigured.toNat + 2 ^ 3 * h.timeUnlocked.toNat + 2 ^ 32 * h.lastSeq.toNat
    ∧ (h.bar0 0x0010).toNat = h.event.toNat ∧ (h.bar0 0x0018).toNat = h.nhead.toNat ∧ (h.bar0 0x0020).toNat = h.ntail.toNat
    ∧ (0x10000 ≤ off → h.bar0 off = 0#64)
    ∧ ∀ j, j < 8 →
      let read := (h.bar0 off).extractLsb' (8 * j) 8
      (0x1000 ≤ off → off + 8 ≤ 0x2000 → read = Table.getD h.request (off - 0x1000 + j) 0#8)
      ∧ (0x2000 ≤ off → off + 8 ≤ 0x3000 → read = Table.getD h.response (off - 0x2000 + j) 0#8)
      ∧ (0x3000 ≤ off → off + 8 ≤ 0x4000 → read = Table.getD h.notices (off - 0x3000 + j) 0#8)

/-- R334: once firmware has named the queue table's base, the descriptor of queue q stands at base + 64 x q with its fields where the
rule puts them, and firmware writes no other byte (which turn names the base: log 23), unless its store gets an error response. -/
def Claims.QueueTable : Prop :=
  ∀ (s : State) (k base : Nat) (x : Queue), Table.get? s.disp.queues k = some x → s.boot.queueTable = some base → Quiet s →
    s.spoilt (base + 64 * k) 64 true = none →
    let t := s.putQueue k
    let field := fun (off n : Nat) => t.mem.nat (base + 64 * k + off) n
    SameBut s t (base + 64 * k) 64 ∧ t.disp = s.disp
    ∧ field 0x00 8 = x.ring.toNat ∧ field 0x08 4 = x.size % 2 ^ 32 ∧ field 0x0C 2 = x.qgroup % 2 ^ 16
    ∧ field 0x0E 2 = x.privileged.toNat + 2 * x.error.toNat ∧ field 0x10 8 = x.rcb % 2 ^ 64 ∧ field 0x18 8 = x.readAddr.toNat
    ∧ field 0x20 8 = x.wake.toNat ∧ field 0x28 4 = x.savedWrite.toNat ∧ field 0x2C 4 = x.savedRead.toNat
    ∧ field 0x30 8 = 0 ∧ field 0x38 8 = 0
    ∧ ({ s with boot := { s.boot with queueTable := none } } : State).putQueue k = { s with boot := { s.boot with queueTable := none } }

/-- R335, R336: a notify write of n goes to the queue's slot: an n that is not ahead of the write index changes nothing, one that
fits becomes the write index, one beyond the ring's size puts the queue into error, in its descriptor too. While the queue is unmapped
an n ahead of the wake word replaces that word, and no other byte. Once firmware has cleared the error flag the queue goes on. -/
def Claims.NotifyWrites : Prop :=
  ∀ (s : State) (k : Nat) (v : BitVec 64) (x : Queue), Table.get? s.disp.queues k = some x →
    let n := v.setWidth 32
    let δ := (n - x.write).toNat
    (x.slot ≠ none → ∃ (t : State) (y : Queue), exec (.notifyWrite k v) s = .next t ∧ Table.get? t.disp.queues k = some y
      ∧ (∀ j, j ≠ k → Table.get? t.disp.queues j = Table.get? s.disp.queues j)
      ∧ (y.error = x.error ∨ s.boot.queueTable = none → { t with disp := { t.disp with queues := s.disp.queues } } = s)
      ∧ (y.error ≠ x.error → t = ({ s with disp := t.disp } : State).putQueue k)
      ∧ (δ = 0 ∨ 2 ^ 31 ≤ δ → y = x)
      ∧ (0 < δ → δ < 2 ^ 31 → δ + (x.write - x.read).toNat ≤ x.size → y = { x with write := n })
      ∧ (0 < δ → δ < 2 ^ 31 → x.size < δ + (x.write - x.read).toNat → y = { x with error := true }))
    ∧ (x.slot = none → Quiet s → ∀ pa, s.vaPa x.rcb 0 x.wake = some pa → s.vaPa x.rcb 1 x.wake = some pa →
      (∀ write, s.spoilt pa 4 write = none) →
      ∃ t : State, exec (.notifyWrite k v) s = .next t ∧ SameBut s t pa 4 ∧ t.disp = s.disp
        ∧ t.mem.w32 pa = if n ≠ s.mem.w32 pa ∧ (n - s.mem.w32 pa).toNat < 2 ^ 31 then n else s.mem.w32 pa)
    ∧ s.clearError k =
      ({ s with disp := { s.disp with queues := Table.set s.disp.queues k { x with error := false } } } : State).putQueue k

/-- R334, R336: a create with legal fields makes an unmapped queue with indices 0; a map gives a queue with a legal descriptor, read from
the queue table, a free hardware slot, its saved indices, and what notify writes left on its wake word; a delete removes an unmapped
queue without packets. Firmware maps in the same way of its own accord, and an unmapping saves the indices in the descriptor. The
results for a refusal are the model's (log 31). A descriptor of the table with a reserved field set is not legal (00: R5), and neither is one
that cannot be read; a wake word that cannot be read counts as the saved write index, which is the model's choice (log 81). -/
def Claims.QueueRequests : Prop :=
  ∀ (s : State) (q : Request) (k ring size grp rcb rd wake hw : Nat) (flags : BitVec 16),
    let legal := k < 65536 ∧ ring < 2 ^ 56 ∧ ring % 4096 = 0 ∧ 64 ≤ size ∧ size ≤ 65536 ∧ (∃ e, size = 2 ^ e) ∧ grp < 256
      ∧ flags.toNat < 4 ∧ rd % 4 = 0 ∧ wake % 4 = 0
    let mapped := ∃ x, Table.get? s.disp.queues k = some x ∧ x.slot ≠ none
    let fresh : Queue := {
      ring := BitVec.ofNat 64 ring, size := size, qgroup := grp, privileged := flags.getLsbD 0, error := flags.getLsbD 1
      rcb := rcb, readAddr := BitVec.ofNat 64 rd, wake := BitVec.ofNat 64 wake, savedWrite := 0, savedRead := 0, slot := none
      write := 0, read := 0 }
    let create := opWords [0, k, ring, size, grp] ++ leBytes 2 flags.toNat ++ opWords [rcb, rd, wake]
    (Asked s q 0x0010 create → legal → ¬ mapped → exec (.queueCreate k ring size grp flags rcb rd wake) s =
      .next ((({ s with disp := { s.disp with queues := Table.set s.disp.queues k fresh } } : State).putQueue k).respond q 0#64 []))
    ∧ (Asked s q 0x0010 create → ¬ legal ∨ mapped → exec (.queueCreate k ring size grp flags rcb rd wake) s = .next (s.respond q 1#64 []))
    ∧ (∀ base x, s.boot.queueTable = some base → Quiet s →
      let b := s.mem.bytes (base + 64 * k) 64
      (s.spoilt (base + 64 * k) 64 false ≠ none ∨ 4 ≤ leNat ((b.drop 0x0E).take 2) ∨ leNat (b.drop 0x30) ≠ 0 ↔ s.tableQueue k x = none)
      ∧ ∀ z, s.tableQueue k x = some z → z.ring.toNat = leNat (b.take 8) ∧ z.size = leNat ((b.drop 8).take 4)
        ∧ z.savedWrite.toNat = leNat ((b.drop 0x28).take 4) ∧ z.savedRead.toNat = leNat ((b.drop 0x2C).take 4))
    ∧ (∀ x, Table.get? s.disp.queues k = some x → s.tableQueue k x = none → Asked s q 0x0010 (opWords [1, k, hw]) →
      exec (.queueMap k hw) s = .next (s.respond q 1#64 []))
    ∧ (∀ x z, Table.get? s.disp.queues k = some x → s.tableQueue k x = some z → Quiet s →
      let sound := k < 65536 ∧ z.ring.toNat < 2 ^ 56 ∧ z.ring.toNat % 4096 = 0 ∧ 64 ≤ z.size ∧ z.size ≤ 65536 ∧ (∃ e, z.size = 2 ^ e)
        ∧ z.qgroup < 256 ∧ z.readAddr.toNat % 4 = 0 ∧ z.wake.toNat % 4 = 0
      let free := x.slot = none ∧ hw < 4096 ∧ (∀ p ∈ s.disp.queues, p.2.slot ≠ some hw) ∧ sound
      let at_ := (s.vaPa z.rcb 0 z.wake).filter fun pa => s.spoilt pa 4 false = none
      let wakeWord := match at_ with
        | none => z.savedWrite
        | some pa => s.mem.w32 pa
      let read := if at_.isSome then s else s.vaNote z.rcb z.wake 4
      let y := ({ z with slot := some hw, write := z.savedWrite, read := z.savedRead } : Queue).takeNotify wakeWord
      let set : State := { read with disp := { read.disp with queues := Table.set s.disp.queues k y } }
      let now := if y.error = z.error then set else set.putQueue k
      (free → Asked s q 0x0010 (opWords [1, k, hw]) → exec (.queueMap k hw) s = .next (now.respond q 0#64 []))
      ∧ (¬ free → Asked s q 0x0010 (opWords [1, k, hw]) → exec (.queueMap k hw) s = .next (s.respond q 1#64 []))
      ∧ (free → s.host.dev = .running → exec (.queueSlotMap k hw) s = .next now)
      ∧ (x.slot ≠ none → let y : Queue := { x with slot := none, savedWrite := x.write, savedRead := x.read }
        exec (.queueSlotUnmap k) s =
          .next (({ s with disp := { s.disp with queues := Table.set s.disp.queues k y } } : State).putQueue k))
      ∧ (Asked s q 0x0010 (opWords [2, k]) → x.slot = none → (∀ p ∈ s.disp.packets, p.2.queue ≠ k) → exec (.queueDelete k) s =
          .next (({ s with disp := { s.disp with queues := Table.erase s.disp.queues k } } : State).respond q 0#64 [])))

/-- R4, R5, R334 to R336, R377, R378: the host's registers and the queues. -/
def Obligations.HostRegistersAndQueues : Prop :=
  Claims.HostRegisters ∧ Claims.HostReads ∧ Claims.QueueTable ∧ Claims.NotifyWrites ∧ Claims.QueueRequests

/-! ## The driver's region control (01: R32, 23: R378) -/

/-- R32: suspending a region marks every gang of it and of its subtree for a forced park, with no notice phase, from which it does not
resume until the driver says so; nothing else changes. That a gang in its notice phase is forced at once is the model's choice (log 72). -/
def Claims.RegionSuspended : Prop :=
  ∀ (s : State) (q : Request) (top : Nat), Asked s q 0x0011 (opWords [0, top]) → (s.gangs.map Prod.fst).Nodup →
    (s.registered top = false → exec (.regionSuspend top) s = .next (s.respond q 1#64 []))
    ∧ (s.registered top = true → ∃ t : State, exec (.regionSuspend top) s = .next (t.respond q 0#64 [])
      ∧ { t with regions := s.regions, gangs := s.gangs } = s
      ∧ (∀ k R, Table.get? s.regions k = some R →
        Table.get? t.regions k = some (if s.under top k = true then { R with suspended := true } else R))
      ∧ ∀ k a, Table.get? s.gangs k = some a → Table.get? t.gangs k = some
        (if (∃ l, Table.get? s.launches a.launch = some l ∧ s.under top l.region = true) then
          { a with preempt := if a.preempt = .parked then .parked else .forced, suspended := true } else a))

/-- R32: resuming a region ends the suspension of it and of its subtree: its gangs may be placed again, and groups that waited for the
driver may go on; their contexts are translated anew (02: R53). -/
def Claims.RegionResumed : Prop :=
  ∀ (s : State) (q : Request) (top : Nat), Asked s q 0x0011 (opWords [1, top]) →
    (s.registered top = false → exec (.regionResume top) s = .next (s.respond q 1#64 []))
    ∧ (s.registered top = true → ∃ t : State, exec (.regionResume top) s = .next (t.respond q 0#64 [])
      ∧ { t with regions := s.regions, gangs := s.gangs, groups := s.groups } = s
      ∧ (∀ k R, Table.get? s.regions k = some R →
        Table.get? t.regions k = some (if s.under top k = true then { R with suspended := false } else R))
      ∧ (∀ k a, Table.get? s.gangs k = some a → Table.get? t.gangs k = some
        (if (∃ l, Table.get? s.launches a.launch = some l ∧ s.under top l.region = true) then
          { a with suspended := false, again := a.again || a.suspended } else a))
      ∧ ∀ k g, Table.get? s.groups k = some g → Table.get? t.groups k = some
        (if (∃ l, Table.get? s.launches g.id.launch = some l ∧ s.under top l.region = true) ∧ g.id.walker = false
            ∧ g.ctl.cause = .suspend
          then { g with ctl := { g.ctl with cause := .resumed, ctxAns := [], ctxWalked := [] } } else g))

/-- R32: killing a region ends every launch of it and of its subtree without a write-back: their groups and gangs are gone, but for
groups of which stores have left the store queue; those stores stay, with the fences, and nothing else. Page requests of the region are discarded. No
byte of memory changes, and no other launch, gang or group. That such groups stay listed is the model's form (log 24). -/
def Claims.RegionKilled : Prop :=
  ∀ (s : State) (q : Request) (top : Nat), Asked s q 0x0011 (opWords [2, top]) → (s.gangs.map Prod.fst).Nodup → (s.groups.map Prod.fst).Nodup →
    (s.launches.map Prod.fst).Nodup →
    let ends := fun (launch : Nat) => ∃ l, Table.get? s.launches launch = some l ∧ s.under top l.region = true
    (s.registered top = false → exec (.regionKill top) s = .next (s.respond q 1#64 []))
    ∧ (s.registered top = true → ∃ t : State, exec (.regionKill top) s = .next (t.respond q 0#64 []) ∧ SameBytes s t
      ∧ (∀ k R, Table.get? s.regions k = some R → ∃ R', Table.get? t.regions k = some R'
        ∧ R'.killed = (R.killed || s.under top k) ∧ R'.gate = (if s.under top k = true then none else R.gate) ∧ R'.slots = R.slots)
      ∧ (∀ k l, Table.get? s.launches k = some l → Table.get? t.launches k = some
        (if s.under top l.region = true then { l with killed := true, pin := none, dispatchers := [], contributions := [] } else l))
      ∧ (∀ k a, Table.get? s.gangs k = some a → (ends a.launch → Table.get? t.gangs k = none)
        ∧ (¬ ends a.launch → Table.get? t.gangs k = some a))
      ∧ (∀ k g, Table.get? s.groups k = some g →
        let gone := ends g.id.launch ∧ g.id.walker = false ∧ g.ctl.dead = false
        (¬ gone → Table.get? t.groups k = some g)
        ∧ (gone → (∀ o ∈ g.fl.ops, o.queue ≠ .outbound) → Table.get? t.groups k = none)
        ∧ (gone → (∃ o ∈ g.fl.ops, o.queue = .outbound) → ∃ h, Table.get? t.groups k = some h ∧ h.ctl.dead = true
          ∧ h.live = 0#32 ∧ h.fl.cmds = [] ∧ h.fl.pend = [] ∧ h.fl.sleepers = [] ∧ h.fl.probes = [] ∧ h.regs = g.regs
          ∧ h.fl.ops.map (fun o => (o.seq, o.kind, o.accs)) =
            (g.fl.ops.filter fun o => o.queue == .outbound || o.isFence).map fun o => (o.seq, o.kind, o.accs)))
      ∧ ∀ p, p ∈ t.xlat.requests ↔ p ∈ s.xlat.requests ∧ s.under top p.2.region = false)

/-- R32: the driver's requests to suspend, resume and kill a region. The results are the model's (log 31). -/
def Obligations.RegionControl : Prop := Claims.RegionSuspended ∧ Claims.RegionResumed ∧ Claims.RegionKilled

/-! ## Root slots, holds and publish slots (21: R356 to R362, 12: R237, 03: R67 to R70) -/

/-- R356, R357: INSTALL makes the step of R237 at the home of the region's slots: its checks in order, then the slot word stands in the
lowest free slot, which is current. -/
def Claims.Install : Prop :=
  ∀ (s : State) (q : Request) (rcb home : Nat) (w : BitVec 64) (expected : BitVec 16) (R : Region),
    Asked s q 0x0020 (opWords [rcb] ++ leBytes 8 w.toNat ++ leBytes 2 expected.toNat) →
    (s.registered rcb = false → exec (.install rcb w expected) s = .next (s.respond q (BitVec.ofNat 64 (5 * 2 ^ 56)) []))
    ∧ (s.registered rcb = true → home = s.slotHolder rcb → Table.get? s.regions home = some R →
      let word := fun (j : Nat) => Table.getD R.slots j 0#64
      let gen := fun (w : BitVec 64) => w.toNat / 2 ^ 48
      let valid := fun (j : Nat) => (word j).getLsbD 0
      let good := w.getLsbD 0 = true ∧ w.getLsbD 1 = false ∧ w.toNat / 2 ^ 4 % 2 ^ 5 = 0
        ∧ s.inMemory (w.toNat / 2 ^ 9 % 2 ^ 39 * 2 ^ 13) = true
      let stale := gen (word R.current) ≠ expected.toNat
      let inUse := ∃ j, j < 8 ∧ valid j = true ∧ gen (word j) = gen w
      let fails := fun (code : Nat) =>
        exec (.install rcb w expected) s = .next (s.respond q (BitVec.ofNat 64 (code * 2 ^ 56 + gen (word R.current) * 2 ^ 16)) [])
      (¬ good → fails 4) ∧ (good → stale → fails 1) ∧ (good → ¬ stale → inUse → fails 3)
      ∧ (good → ¬ stale → ¬ inUse → (∀ j, j < 8 → valid j = true) → fails 2)
      ∧ ∀ j, j < 8 → valid j = false → (∀ i, i < j → valid i = true) → good → ¬ stale → ¬ inUse →
        ∃ (t : State) (R' : Region), exec (.install rcb w expected) s =
            .next (t.respond q (BitVec.ofNat 64 (gen w * 2 ^ 16 + j)) [])
          ∧ { t with regions := s.regions } = s ∧ (∀ k, k ≠ home → Table.get? t.regions k = Table.get? s.regions k)
          ∧ Table.get? t.regions home = some R' ∧ R'.current = j
          ∧ (∀ i, Table.getD R'.slots i 0#64 = if i = j then w else word i)
          ∧ (valid R.current = true → R.current < 8 → R.current ≠ j → R.pinCount R.current = 0 → R.current ∈ R'.unused))

/-- R356, R358, R70: HOLD adds a firmware pin to a valid slot of that generation, UNHOLD removes one; the last pin of a slot that is not
current leaves it unused. Any other slot or generation gives 1 and changes nothing. That a slot held again is off the unused list, so that no
reclaim follows, is the model's choice (log 72). -/
def Claims.Holds : Prop :=
  ∀ (s : State) (q : Request) (rcb slot : Nat) (gen : BitVec 16) (R : Region),
    Table.get? s.regions (s.slotHolder rcb) = some R →
    let w := Table.getD R.slots slot 0#64
    let n := Table.getD R.holds slot 0
    let holds := s.registered rcb = true ∧ slot < 8 ∧ w.getLsbD 0 = true ∧ w.toNat / 2 ^ 48 = gen.toNat
    let leaves := fun (i : Instr) (m : Nat) => ∃ (t : State) (R' : Region), exec i s = .next (t.respond q 0#64 [])
      ∧ { t with regions := s.regions } = s ∧ (∀ k, k ≠ s.slotHolder rcb → Table.get? t.regions k = Table.get? s.regions k)
      ∧ Table.get? t.regions (s.slotHolder rcb) = some R' ∧ { R' with holds := R.holds, unused := R.unused } = R
      ∧ (∀ j, Table.getD R'.holds j 0 = if j = slot then m else Table.getD R.holds j 0)
      ∧ (slot ∈ R'.unused ↔ slot ≠ R.current ∧ Table.getD R.pins slot 0 + m = 0)
    let ops := opWords [rcb, slot] ++ leBytes 2 gen.toNat
    (Asked s q 0x0021 ops → holds → leaves (.hold rcb slot gen) (n + 1))
    ∧ (Asked s q 0x0021 ops → ¬ holds → exec (.hold rcb slot gen) s = .next (s.respond q 1#64 []))
    ∧ (Asked s q 0x0022 ops → holds → n ≠ 0 → leaves (.unhold rcb slot gen) (n - 1))
    ∧ (Asked s q 0x0022 ops → ¬ holds ∨ n = 0 → exec (.unhold rcb slot gen) s = .next (s.respond q 1#64 []))

/-- R356, R361, R362: RELEASE returns 0; PASSIGN gives a free publish slot to a registered region and PFREE takes it back; no counter
changes. -/
def Claims.PublishSlots : Prop :=
  ∀ (s : State) (q : Request) (slot rcb : Nat) (nodes : List Nat),
    (Asked s q 0x0023 (opWords (nodes.length :: nodes)) → 1 ≤ nodes.length → nodes.length ≤ 256 → exec (.release nodes) s = .next (s.respond q 0#64 []))
    ∧ (Asked s q 0x0024 (opWords [slot, rcb]) → slot < 256 → Table.get? s.xlat.owners slot = none → s.registered rcb = true →
      exec (.passign slot rcb) s =
        .next (({ s with xlat := { s.xlat with owners := Table.set s.xlat.owners slot rcb } } : State).respond q 0#64 []))
    ∧ (Asked s q 0x0024 (opWords [slot, rcb]) → Table.get? s.xlat.owners slot ≠ none → exec (.passign slot rcb) s = .next (s.respond q 1#64 []))
    ∧ (Asked s q 0x0024 (opWords [slot, rcb]) → slot < 256 → Table.get? s.xlat.owners slot = none → s.registered rcb = false →
      exec (.passign slot rcb) s = .next (s.respond q 2#64 []))
    ∧ (Asked s q 0x0025 (opWords [slot]) → Table.get? s.xlat.owners slot ≠ none → exec (.pfree slot) s =
        .next (({ s with xlat := { s.xlat with owners := Table.erase s.xlat.owners slot } } : State).respond q 0#64 []))
    ∧ (Asked s q 0x0025 (opWords [slot]) → Table.get? s.xlat.owners slot = none → exec (.pfree slot) s = .next (s.respond q 1#64 []))

/-- R70, R359: an unused slot is reclaimed: no TLB of any die holds an entry of its tag, its valid bit is clear, and a notice names the
region, the slot and the freed word (layout: log 9). -/
def Claims.SlotReclaimed : Prop :=
  ∀ (s : State) (rcb slot : Nat) (R : Region), Table.get? s.regions rcb = some R → slot ∈ R.unused →
    let w := Table.getD R.slots slot 0#64
    ∃ (t : State) (R' : Region), exec (.slotReclaim rcb slot) s = .next t ∧ Table.get? t.regions rcb = some R'
      ∧ (∀ k, k ≠ rcb → Table.get? t.regions k = Table.get? s.regions k) ∧ t.mem = s.mem ∧ t.groups = s.groups
      ∧ (∀ core page, t.tlb core rcb (BitVec.ofNat 16 (w.toNat / 2 ^ 48)) page = none)
      ∧ (∀ core region gen page, region ≠ rcb ∨ gen ≠ BitVec.ofNat 16 (w.toNat / 2 ^ 48) →
        t.tlb core region gen page = s.tlb core region gen page)
      ∧ (∀ j, Table.getD R'.slots j 0#64 = if j = slot then w &&& ~~~ 1#64 else Table.getD R.slots j 0#64)
      ∧ slot ∉ R'.unused ∧ R'.current = R.current ∧ R'.pins = R.pins
      ∧ (s.host.backlog = [] → s.host.nhead + 1#7 ≠ s.host.ntail → t.host.nhead = s.host.nhead + 1#7
        ∧ tableBytes t.host.notices (32 * s.host.nhead.toNat) 24 = leBytes 8 rcb ++ leBytes 8 slot ++ leBytes 8 w.toNat)

/-- R70, R237, R356 to R359, R361, R362: the driver's requests about roots, and reclaiming. -/
def Obligations.RootSlotRequests : Prop :=
  Claims.Install ∧ Claims.Holds ∧ Claims.PublishSlots ∧ Claims.SlotReclaimed

/-! ## Answers, imports, exports and peers (21: R367 to R373) -/

/-- R367, R76, R369: an answer with code 0 whose slot is valid (and, for a write request, gives W = 1) resolves every waiter of its request under the slot it names: accesses, sets in SLEEP,
commands, fetches and context faults of every group; no register and no byte of memory changes, and the request is gone. -/
def Claims.AnswerTaken : Prop :=
  ∀ (s : State) (q : Request) (id slot : Nat) (p : PageReq), Asked s q 0x0026 (opWords [id, 0, slot]) →
    Table.get? s.xlat.requests id = some p → s.alive p.region = true → slot < 8 →
    (s.slotWord p.region slot).getLsbD 0 = true →
    (isWrite p.kind = true → ∃ leaf, walkReach p.kind (s.walk (s.slotWord p.region slot) (BitVec.ofNat 64 (p.page * 2 ^ 16))) = .leaf leaf) →
    (∀ i ∈ s.xlat.ingress, i.id ≠ id) →
    ∃ t : State, exec (.answer id 0 slot) s = .next (t.respond q 0#64 []) ∧ SameBytes s t
      ∧ Table.get? t.xlat.requests id = none ∧ (∀ j, j ≠ id → Table.get? t.xlat.requests j = Table.get? s.xlat.requests j)
      ∧ ∀ k g, Table.get? s.groups k = some g → ∃ h : Group, Table.get? t.groups k = some h ∧ h.regs = g.regs ∧ h.tr = g.tr
        ∧ h.fl.ops.map MemOp.accs = g.fl.ops.map (fun o => o.accs.map fun a =>
          if a.st = .wait id then { a with st := .answered slot } else a)
        ∧ h.fl.sleepers = g.fl.sleepers.map (fun z =>
          if z.req = some id then { z with req := none, due := true, answered := some slot } else z)
        ∧ h.fl.cmds = g.fl.cmds.map (fun c =>
          if c.req = some id then { c with req := none, answered := c.answered ++ [(p.page, slot)] } else c)
        ∧ (∀ l, l < 32 → h.waitOf l = if g.waitOf l = some (.fetch id) then none else g.waitOf l)
        ∧ (∀ l, l < 32 → g.waitOf l = some (.fetch id) → Table.get? h.ctl.fetched l = some (some slot))
        ∧ h.ctl.ctxReqs = g.ctl.ctxReqs.filter (fun c => c.2 != id)
        ∧ h.ctl.ctxAns = (if ∃ c ∈ g.ctl.ctxReqs, c.2 = id then g.ctl.ctxAns ++ [(p.page, slot)] else g.ctl.ctxAns)

/-- R367, R76: after an answer with any other code, or one whose slot is invalid, or whose tree gives a write request no W = 1, the waiting accesses have failed with ACCESS, and the waiting commands end (stated where
no set fetches, sleeps or reads its context behind the request). -/
def Claims.AnswerFailed : Prop :=
  ∀ (s : State) (q : Request) (id code slot : Nat) (p : PageReq), Asked s q 0x0026 (opWords [id, code, slot]) →
    Table.get? s.xlat.requests id = some p → s.alive p.region = true →
    (code ≠ 0 ∨ 8 ≤ slot ∨ (s.slotWord p.region slot).getLsbD 0 = false
      ∨ (isWrite p.kind = true
        ∧ ∀ leaf, walkReach p.kind (s.walk (s.slotWord p.region slot) (BitVec.ofNat 64 (p.page * 2 ^ 16))) ≠ .leaf leaf)) → (∀ i ∈ s.xlat.ingress, i.id ≠ id) →
    (∀ e ∈ s.groups, (∀ c ∈ e.2.ctl.ctxReqs, c.2 ≠ id) ∧ (∀ z ∈ e.2.fl.sleepers, z.req ≠ some id)
      ∧ ∀ l, l < 32 → e.2.waitOf l ≠ some (.fetch id)) →
    ∃ t : State, exec (.answer id code slot) s = .next (t.respond q 0#64 []) ∧ SameBytes s t
      ∧ Table.get? t.xlat.requests id = none
      ∧ ∀ k g, Table.get? s.groups k = some g → ∃ h : Group, Table.get? t.groups k = some h ∧ h.regs = g.regs ∧ h.ctl = g.ctl
        ∧ h.tr = g.tr
        ∧ h.fl.ops.map MemOp.accs = g.fl.ops.map (fun o => o.accs.map fun a =>
          if a.st = .wait id then { a with st := .failed 0x10#8 } else a)
        ∧ h.fl.cmds = g.fl.cmds.map (fun c => if c.req = some id then { c with req := none, failed := true } else c)

/-- R368: an answer whose id names no outstanding request, or one of a killed region, is discarded, with a note in the firmware event
log. -/
def Claims.AnswerDiscarded : Prop :=
  ∀ (s : State) (q : Request) (id code slot : Nat), Asked s q 0x0026 (opWords [id, code, slot]) →
    (∀ p, Table.get? s.xlat.requests id = some p → s.alive p.region = false ∧ s.answerHeld id (s.answerSlot p code slot) = false) →
    exec (.answer id code slot) s =
      .next (({ s with fab := { s.fab with eventLog := s.fab.eventLog ++ [(id, code)] } } : State).respond q 0#64 [])

/-- R356, R370, R371, R373: IMPORT and EXPORT write their entry when its reserved bits are zero, and give 1 otherwise; while an access
or a request that was admitted under the old entry is in flight they wait. Once firmware has named the base of a table, its entry n stands
there in memory too, 16 or 64 bytes each (which turn names the bases: log 23). -/
def Claims.ImportsAndExports : Prop :=
  ∀ (s : State) (q : Request) (slot : Nat) (imp : BitVec 128) (exp : BitVec 512), slot < 65536 →
    let importOk := imp.toNat / 2 ^ 40 % 2 ^ 22 = 0 ∧ imp.toNat / 2 ^ 22 % 4 = 0
    let base := exp.toNat / 2 ^ 64 % 2 ^ 64
    let length := exp.toNat / 2 ^ 128 % 2 ^ 64
    let control := exp.toNat / 2 ^ 256 % 2 ^ 64
    let exportOk := base < 2 ^ 56 ∧ length < 2 ^ 38 ∧ control / 2 ^ 5 % 8 = 0 ∧ control / 2 ^ 31 = 0 ∧ exp.toNat < 2 ^ 320
      ∧ (control / 2 % 2 = 1 → base = 0 ∧ length = 0)
    let busy := ∃ e ∈ s.groups, ∃ o ∈ e.2.fl.ops, ∃ a ∈ o.accs, a.st = .peer slot ∧ a.done = false
    let impOps := opWords [slot] ++ leBytes 16 imp.toNat
    let expOps := opWords [slot] ++ leBytes 64 exp.toNat
    (Asked s q 0x0027 impOps → busy → exec (.importSet slot imp) s = .next s)
    ∧ (Asked s q 0x0027 impOps → ¬ busy → ¬ importOk → exec (.importSet slot imp) s = .next (s.respond q 1#64 []))
    ∧ (Asked s q 0x0027 impOps → ¬ busy → importOk → ∃ t : State, exec (.importSet slot imp) s = .next (t.respond q 0#64 [])
      ∧ (s.boot.importTable = none → { t with xlat := { t.xlat with imports := s.xlat.imports } } = s)
      ∧ (∀ base, s.boot.importTable = some base → Quiet s → s.spoilt (base + 16 * slot) 16 true = none →
        SameBut s t (base + 16 * slot) 16 ∧ t.mem.nat (base + 16 * slot) 16 = imp.toNat)
      ∧ ∀ j, t.importAt j = if j = slot then imp else s.importAt j)
    ∧ (Asked s q 0x0028 expOps → (∃ i ∈ s.xlat.ingress, i.req.slot = slot) → exec (.exportSet slot exp) s = .next s)
    ∧ (Asked s q 0x0028 expOps → (∀ i ∈ s.xlat.ingress, i.req.slot ≠ slot) → ¬ exportOk →
      exec (.exportSet slot exp) s = .next (s.respond q 1#64 []))
    ∧ (Asked s q 0x0028 expOps → (∀ i ∈ s.xlat.ingress, i.req.slot ≠ slot) → exportOk →
      ∃ t : State, exec (.exportSet slot exp) s = .next (t.respond q 0#64 [])
        ∧ (s.boot.exportTable = none → { t with xlat := { t.xlat with exports := s.xlat.exports } } = s)
        ∧ (∀ base, s.boot.exportTable = some base → Quiet s → s.spoilt (base + 64 * slot) 64 true = none →
          SameBut s t (base + 64 * slot) 64 ∧ t.mem.nat (base + 64 * slot) 64 = exp.toNat)
        ∧ ∀ j, Table.getD t.xlat.exports j 0#512 = if j = slot then exp else Table.getD s.xlat.exports j 0#512)

/-- R372: the checks of a peer's request, in order; the first that fails is the reason of the violation record at this device, and
nothing else happens. The port it comes over is up (23: R388). -/
def Claims.IngressChecks : Prop :=
  ∀ (s : State) (r : PeerRequest), s.host.dev = .running → s.fab.violations.length < 4096 → Table.get? s.fab.ports r.port ≠ none →
    let e := Table.getD s.xlat.exports r.slot 0#512
    let control := e.toNat / 2 ^ 256 % 2 ^ 64
    let region := e.toNat / 2 ^ 192 % 2 ^ 64
    let home := s.slotHolder region
    let right := match r.access with
      | .load => 2
      | .store _ => 3
      | _ => 4
    let checks : List (Prop × Nat) := [(control % 2 = 1, 1),
      (r.importer.toNat = control / 2 ^ 8 % 2 ^ 22 ∨ control / 2 ^ 30 % 2 = 1, 2), (r.key.toNat = e.toNat % 2 ^ 64, 3),
      (r.kv = true ↔ control / 2 % 2 = 1, 4),
      (r.off + r.size ≤ if r.kv = true then 65536 else e.toNat / 2 ^ 128 % 2 ^ 64, 5), (control / 2 ^ right % 2 = 1, 6),
      (s.alive region = true ∧ (s.slotWord home (s.currentSlot home)).getLsbD 0 = true, 7)]
    (∀ before c reason after, checks = before ++ (c, reason) :: after → (∀ x ∈ before, x.1) → ¬ c →
      ∃ t : State, exec (.ingressRequest r) s = .next t
        ∧ { t with fab := s.fab, host := { t.host with event := s.host.event } } = s ∧ t.host.event = s.host.event ||| 4#3
        ∧ ∃ v, t.fab = { s.fab with violations := s.fab.violations ++ [v] } ∧ v.reason = reason ∧ v.kind = 2
          ∧ v.source = r.importer.setWidth 32 ||| BitVec.ofNat 32 r.port <<< 24 ∧ v.time = BitVec.ofNat 64 s.clk.time)
    ∧ ((∀ x ∈ checks, x.1) ↔ s.ingressFails r = none)

/-- R372, R80, R211: a memory request of a peer that passes the checks and whose page is mapped is performed: a load changes no byte, a
store or atomic those of its size; a page that is not mapped posts a request and pins the slot until the answer. -/
def Claims.IngressPerformed : Prop :=
  ∀ (s : State) (r : PeerRequest), s.host.dev = .running → Quiet s → s.early = [] → s.ingressFails r = none → r.kv = false →
    Table.get? s.fab.ports r.port ≠ none → r.size ∈ [1, 2, 4, 8] →
    let e := Table.getD s.xlat.exports r.slot 0#512
    let home := s.slotHolder (e.toNat / 2 ^ 192 % 2 ^ 64)
    let slot := s.currentSlot home
    let va := BitVec.ofNat 64 (e.toNat / 2 ^ 64 % 2 ^ 64 + r.off)
    let kind := if r.access = .load then 0 else 1
    (∀ leaf, walkReach kind (s.walk (s.slotWord home slot) va) = .leaf leaf →
      let pa := s.leafPa leaf va false
      (∀ write, s.spoilt pa r.size write = none) →
      let n := 8 * r.size
      let old := BitVec.ofNat n (s.mem.nat pa r.size)
      ∃ t : State, exec (.ingressRequest r) s = .next t ∧ t.host = s.host ∧ t.fab = s.fab ∧ SameBut s t pa r.size
        ∧ (r.access = .load → SameBytes s t)
        ∧ (∀ d, r.access = .store d → t.mem.nat pa r.size = (d.setWidth n).toNat)
        ∧ (∀ d, r.access = .add d → t.mem.nat pa r.size = (old + d.setWidth n).toNat)
        ∧ (∀ d, r.access = .min true d → t.mem.nat pa r.size = if (d.setWidth n).slt old = true then (d.setWidth n).toNat else old.toNat)
        ∧ (∀ d, r.access = .min false d → t.mem.nat pa r.size = min old.toNat (d.setWidth n).toNat)
        ∧ (∀ d, r.access = .max true d → t.mem.nat pa r.size = if old.slt (d.setWidth n) = true then (d.setWidth n).toNat else old.toNat)
        ∧ (∀ d, r.access = .max false d → t.mem.nat pa r.size = max old.toNat (d.setWidth n).toNat)
        ∧ (∀ d, r.access = .band d → t.mem.nat pa r.size = (old &&& d.setWidth n).toNat)
        ∧ (∀ d, r.access = .bor d → t.mem.nat pa r.size = (old ||| d.setWidth n).toNat)
        ∧ (∀ d, r.access = .bxor d → t.mem.nat pa r.size = (old ^^^ d.setWidth n).toNat)
        ∧ (∀ d, r.access = .swap d → t.mem.nat pa r.size = (d.setWidth n).toNat)
        ∧ (∀ c d, r.access = .cas c d → t.mem.nat pa r.size = if old.toNat = c.toNat then (d.setWidth n).toNat else old.toNat)
        ∧ (∀ launch wgid thread ordinal d, r.access = .fadd launch wgid thread ordinal d → SameBytes s t
          ∧ t.xlat.peerAdds = s.xlat.peerAdds ++ [⟨r.importer, launch, ⟨pa, s.homeOf pa, none, r.size == 8, wgid, thread, ordinal, d⟩⟩]))
    ∧ (walkReach kind (s.walk (s.slotWord home slot) va) = .request →
      ∃ (t : State) (id : Nat) (p : PageReq), exec (.ingressRequest r) s = .next t ∧ SameBytes s t
        ∧ t.xlat.ingress = s.xlat.ingress ++ [⟨r, id, home, slot⟩] ∧ (id, p) ∈ t.xlat.requests ∧ p.page = pageOf va
        ∧ p.region = home ∧ p.slot = slot)

/-- R367 to R373: answers, import and export entries, and requests of peers. -/
def Obligations.AnswersImportsAndPeers : Prop :=
  Claims.AnswerTaken ∧ Claims.AnswerFailed ∧ Claims.AnswerDiscarded ∧ Claims.ImportsAndExports ∧ Claims.IngressChecks
    ∧ Claims.IngressPerformed

/-! ## Packets (20: R337 to R343, R352; 14: R291 to R293) -/

/-- R337, R338: the next packet of a mapped queue whose indices differ is read at its read index, one ring unit for version 1; an
unmapped queue, one in error, and an empty one have none. Reading it leaves nothing behind where no gate is armed and nothing records. -/
def Claims.PacketRead : Prop :=
  ∀ (s : State) (x : Queue),
    (s.host.dev = .running → x.slot ≠ none → x.error = false → x.write ≠ x.read → ∀ b,
      s.vaBytes x.rcb (x.ring + BitVec.ofNat 64 (64 * (x.read.toNat % x.size))) 64 = some b → pktVersion b ≠ 2 → s.peek x = some b)
    ∧ (x.slot = none ∨ x.error = true ∨ x.write = x.read → s.peek x = none)
    ∧ (Quiet s → x.ring.toNat % 64 = 0 → ∀ b, s.peek x = some b → s.noteUnits x (pktLength b) = s)

/-- R338, R339: a packet that is malformed completes with code 0x04 and has no other effect than the queue's read index going on, beside
what the reads of its units leave (05: R112). -/
def Claims.PacketMalformed : Prop :=
  ∀ (s : State) (q row : Nat) (i : Instr) (x : Queue) (b : List Byte),
    (i, row) ∈ [(.launchPacket q, 1), (.waitPacket q, 3), (.regionRegister q, 4), (.regionUpdate q, 5), (.regionUnregister q, 6),
      (.kvTableSet q, 7), (.graphPacket q, 2)] → (row = 2 → s.graphReady q = none) →
    Table.get? s.disp.queues q = some x → s.peek x = some b → pktRow b = row → s.pktBad b = true →
    exec i s = .next (((s.noteUnits x (pktLength b)).advanceRead q (pktLength b)).writeCompletion x.rcb (pktCompletion b) (pktValue b)
      (BitVec.ofNat 64 (4 * 2 ^ 56)))

/-- R339: a completion record gets the status in its upper and the value in its lower 8 bytes (where the translation of the record
holds after its first store, and neither store gets an error response); without one nothing is stored. -/
def Claims.CompletionRecord : Prop :=
  ∀ (s : State) (rcb p : Nat) (at_ value status : BitVec 64),
    s.writeCompletion rcb 0#64 value status = s
    ∧ (Quiet s → at_ ≠ 0#64 → at_.toNat % 16 = 0 → s.vaPa rcb 1 (at_ + 8#64) = some (p + 8) →
      let u := s.storeBytes (p + 8) (leBytes 8 status.toNat)
      u.vaPa rcb 1 at_ = some p → s.spoilt (p + 8) 8 true = none → u.spoilt p 8 true = none →
      let t := s.writeCompletion rcb at_ value status
      t.mem.w64 p = value ∧ t.mem.w64 (p + 8) = status ∧ SameBut s t p 16)

/-- R337, R338, R341, R342, R344: a launch packet that is parsed advances the read index and leaves a launch that has not started; the
packet waits for those of its queue that come first and for those of its queue group with which it has a hazard. -/
def Claims.LaunchParsed : Prop :=
  ∀ (s : State) (q : Nat) (x : Queue) (b : List Byte), Parses s q 1 x b →
    let n := s.fresh + 1
    let k := s.disp.launchSeq + 1
    ∃ (t : State) (y : Queue) (p : Packet) (l : Launch), exec (.launchPacket q) s = .next t
      ∧ Table.get? t.disp.queues q = some y ∧ y.read = x.read + BitVec.ofNat 32 (pktLength b) ∧ y.write = x.write
      ∧ Table.get? t.disp.packets n = some p ∧ p.queue = q ∧ p.kind = .launch ∧ p.completion = pktCompletion b
      ∧ p.value = pktValue b ∧ p.ranges = pktRanges b
      ∧ (∀ m, m ∈ p.after ↔ ∃ e, (m, e) ∈ s.disp.packets ∧ ((e.queue = q ∧ (pktVersion b = 1 ∨ e.version = 1))
        ∨ (s.groupOfQueue e.queue = s.groupOfQueue q ∧ ∃ c ∈ pktRanges b, ∃ d ∈ e.ranges, (c.write = true ∨ d.write = true)
          ∧ c.base < d.base + d.len ∧ d.base < c.base + c.len)))
      ∧ t.disp.launchSeq = k ∧ Table.get? t.launches k = some l ∧ l.queue = q ∧ l.packet = n ∧ l.descAddr = pktBody b
      ∧ l.started = false ∧ l.status = none ∧ l.after = []
      ∧ (∀ j, j ≠ k → Table.get? t.launches j = Table.get? s.launches j) ∧ t.gangs = s.gangs

/-- R352: a graph packet that is parsed stands before its first node; once its turn has come it begins; a launch node then adds a launch,
which with after = 1 follows the earlier ones; a loop node is entered before its first check. -/
def Claims.GraphNodes : Prop :=
  ∀ (s : State) (q : Nat),
    (∀ x b, Parses s q 2 x b → s.graphReady q = none →
      ∃ (t : State) (p : Packet), exec (.graphPacket q) s = .next t ∧ Table.get? t.disp.packets (s.fresh + 1) = some p
        ∧ p.kind = .graph ∧ p.queue = q ∧ p.graph.begun = false ∧ p.graph.node = pktBody b ∧ p.graph.started = []
        ∧ p.completion = pktCompletion b)
    ∧ ∀ k p, s.graphReady q = some (k, p) → Table.get? s.disp.packets k = some p →
      (p.graph.begun = false → p.graph.node ≠ 0#64 → ∃ (t : State) (p' : Packet), exec (.graphPacket q) s = .next t
        ∧ Table.get? t.disp.packets k = some p' ∧ p'.graph = { p.graph with begun := true }
        ∧ { t with disp := { t.disp with packets := s.disp.packets } } = s)
      ∧ ∀ b, p.graph.begun = true → s.vaBytes (s.queueRegion p.queue) p.graph.node 64 = some b → p.graph.node.toNat % 64 = 0 →
        let n := s.disp.launchSeq + 1
        (fieldAt b 0 8 = 1 → fieldAt b 0x10 8 ≤ 1 → fieldAt b 0x18 8 = 0 → fieldAt b 0x20 8 = 0 → fieldAt b 0x28 8 = 0 →
          fieldAt b 0x38 8 = 0 →
          ∃ (t : State) (p' : Packet) (l : Launch), exec (.graphPacket q) s = .next t ∧ Table.get? t.disp.packets k = some p'
            ∧ p'.graph.node = BitVec.ofNat 64 (fieldAt b 0x30 8) ∧ p'.graph.started = p.graph.started ++ [n]
            ∧ p'.graph.loops.map LoopRun.node = p.graph.loops.map LoopRun.node ∧ SameBytes s t
            ∧ Table.get? t.launches n = some l ∧ l.descAddr = BitVec.ofNat 64 (fieldAt b 8 8) ∧ l.started = false
            ∧ l.after = if fieldAt b 0x10 8 = 1 then (match p.graph.loops with
              | [] => p.graph.started
              | y :: _ => y.body) else [])
        ∧ (loopNodeBad p.graph.node b = false →
          ∃ (t : State) (p' : Packet), exec (.graphPacket q) s = .next t ∧ Table.get? t.disp.packets k = some p'
            ∧ p'.graph.node = 0#64 ∧ p'.graph.loops = ⟨p.graph.node, 0, []⟩ :: p.graph.loops
            ∧ (Quiet s → { t with disp := { t.disp with packets := s.disp.packets } } = s))

/-- R291 to R293: the check at the head of a loop, once every launch of the body has completed: a failed launch ends it with code 3, a
halt word with 1, a condition word of zero with 0, the limit with 2; otherwise the count goes to the iteration word and the body runs
once more. At the exit the count and the status are written and the chain goes on at the next node. A word that cannot be read counts as 0,
which is the model's choice (log 79), as is the reading of these addresses under the queue's region (log 30). -/
def Claims.LoopChecks : Prop :=
  ∀ (s : State) (k : Nat) (p : Packet) (l : LoopRun) (outer : List LoopRun) (b : List Byte),
    Table.get? s.disp.packets k = some p → s.loopWaits p = true → s.dbg.frozen = false → p.graph.loops = l :: outer →
    let rcb := s.queueRegion p.queue
    s.vaBytes rcb l.node 64 = some b →
    let word := fun (at_ : Nat) => match (s.vaPa rcb 0 (BitVec.ofNat 64 at_)).filter fun pa => s.spoilt pa 4 false = none with
      | none => 0#32
      | some pa => s.mem.w32 pa
    let failed := ∃ j ∈ l.body, Table.get? p.graph.statuses j ≠ none
    let halted := fieldAt b 0x18 8 ≠ 0 ∧ word (fieldAt b 0x18 8) ≠ 0#32
    let over_ := word (fieldAt b 0x10 8) = 0#32
    let limited := fieldAt b 0x28 4 ≠ 0 ∧ fieldAt b 0x28 4 = l.count
    let exits := fun (code : Nat) => ∃ t : State, exec (.loopIteration k) s = .next t
      ∧ (fieldAt b 0x30 8 ≠ 0 → ∃ p', Table.get? t.disp.packets k = some p'
        ∧ p'.graph = { p.graph with node := BitVec.ofNat 64 (fieldAt b 0x30 8), loops := outer })
      ∧ (Quiet s → fieldAt b 0x30 8 ≠ 0 → let u := s.vaStore rcb (l.node + 0x2C#64) 4 l.count
        ∀ pa, u.vaPa rcb 1 (l.node + 0x38#64) = some pa → u.spoilt pa 8 true = none →
        t.mem.nat pa 8 = code * 2 ^ 56 + l.count % 2 ^ 32)
    (failed → exits 3) ∧ (¬ failed → halted → exits 1) ∧ (¬ failed → ¬ halted → over_ → exits 0)
    ∧ (¬ failed → ¬ halted → ¬ over_ → limited → exits 2)
    ∧ (¬ failed → ¬ halted → ¬ over_ → ¬ limited → ∃ (t : State) (p' : Packet), exec (.loopIteration k) s = .next t
      ∧ Table.get? t.disp.packets k = some p'
      ∧ p'.graph = { p.graph with node := BitVec.ofNat 64 (fieldAt b 8 8), loops := ⟨l.node, l.count + 1, []⟩ :: outer }
      ∧ (Quiet s → ∀ pa, s.vaPa rcb 1 (BitVec.ofNat 64 (fieldAt b 0x20 8)) = some pa → s.spoilt pa 8 true = none →
        t.mem.nat pa 8 = l.count % 2 ^ 64 ∧ SameBut s t pa 8))

/-- R340: a wait packet that is parsed waits on its word; it completes with code 0 when the word satisfies its condition: eq, ne, hs or
lo, as unsigned numbers; otherwise nothing happens. -/
def Claims.WaitPackets : Prop :=
  ∀ (s : State),
    (∀ q x b, Parses s q 3 x b → AtOnce s q → s.vaPa x.rcb 0 (pktBody b) ≠ none →
      ∃ (t : State) (p : Packet), exec (.waitPacket q) s = .next t ∧ Table.get? t.disp.packets (s.fresh + 1) = some p
        ∧ p.queue = q ∧ p.kind = .wait (pktBody b) (pktCond b) (BitVec.ofNat 32 (pktArg b)) ∧ p.completion = pktCompletion b
        ∧ p.value = pktValue b ∧ t.launches = s.launches)
    ∧ ∀ k p at_ cond v pa, Table.get? s.disp.packets k = some p → p.kind = .wait at_ cond v →
      s.vaPa (s.queueRegion p.queue) 0 at_ = some pa → s.spoilt pa 4 false = none → Quiet s →
      let w := s.mem.w32 pa
      let holds := cond = 0 ∧ w = v ∨ cond = 1 ∧ w ≠ v ∨ cond = 2 ∧ v.toNat ≤ w.toNat ∨ cond = 3 ∧ w.toNat < v.toNat
      cond < 4 → (¬ holds → exec (.waitConditionMet k) s = .next s)
        ∧ (holds → let u := s.writeCompletion (s.queueRegion p.queue) p.completion p.value 0#64
          exec (.waitConditionMet k) s = .next { u with disp := { u.disp with packets := Table.erase u.disp.packets k } })

/-- R291 to R293, R337 to R342, R352: launch, graph and wait packets. -/
def Obligations.Packets : Prop :=
  Claims.PacketRead ∧ Claims.PacketMalformed ∧ Claims.CompletionRecord ∧ Claims.LaunchParsed ∧ Claims.GraphNodes
    ∧ Claims.LoopChecks ∧ Claims.WaitPackets

/-! ## Region and device packets (20: R339, R340, R350, R351; 13: R272) -/

/-- R339: region and device packets of a queue that is not privileged are rejected with reason 6. -/
def Claims.PrivilegedPackets : Prop :=
  ∀ (s : State) (q row : Nat) (i : Instr) (x : Queue) (b : List Byte),
    (i, row) ∈ [(.regionRegister q, 4), (.regionUpdate q, 5), (.regionUnregister q, 6), (.kvTableSet q, 7)] →
    Parses s q row x b → AtOnce s q → x.privileged = false →
    exec i s = .next (((s.noteUnits x 1).advanceRead q 1).writeCompletion x.rcb (pktCompletion b) (pktValue b)
      (BitVec.ofNat 64 (3 * 2 ^ 56 + 6 * 2 ^ 40)))

/-- R350, R351: registering takes a copy of the block's fields into the control die, with the level below its parent's; it fails when the
parent is not registered (1), beyond level 8 (2) or for a field value (4; a second registration counts as one: log 32; so does a block
whose read gets an error response: log 77). The block stands at the packet's body as a physical address (log 30). -/
def Claims.RegionRegistered : Prop :=
  ∀ (s : State) (q : Nat) (x : Queue) (b : List Byte), Parses s q 4 x b → AtOnce s q → x.privileged = true →
    let k := (pktBody b).toNat
    let w := (s.noteUnits x 1).advanceRead q 1
    let u := w.paNote k 256
    let readable := w.spoilt k 256 false = none
    let bs := u.mem.bytes k 256
    let r := regionOfBlock bs
    let level := if r.parent = 0 then 1 else ((Table.get? u.regions r.parent).map fun p => p.level + 1).getD 9
    let ends := fun (t : State) (status : BitVec 64) =>
      exec (.regionRegister q) s = .next (t.writeCompletion x.rcb (pktCompletion b) (pktValue b) status)
    let fails := fun (reason : Nat) => ends u (BitVec.ofNat 64 (5 * 2 ^ 56 + reason * 2 ^ 40))
    let parented := r.parent = 0 ∨ Table.get? u.regions r.parent ≠ none
    let good := u.blockOk bs = true ∧ u.maskOk { r with level := level } = true ∧ slotsDistinct r.slots = true
      ∧ ∀ p ∈ r.slots, u.slotWordOk p.2 = true
    (Quiet w → readable → u = w)
    ∧ (¬ readable ∨ Table.get? u.regions k ≠ none → fails 4)
    ∧ (readable → Table.get? u.regions k = none → ¬ parented → fails 1)
    ∧ (readable → Table.get? u.regions k = none → parented → 8 < level → fails 2)
    ∧ (readable → Table.get? u.regions k = none → parented → level ≤ 8 → ¬ good → fails 4)
    ∧ (readable → Table.get? u.regions k = none → parented → level ≤ 8 → good → Quiet u → (∀ e ∈ u.regions, e.2.parent ≠ k) →
      u.spoilt (k + 8) 8 true = none →
      ∃ (t : State) (R : Region), ends t 0#64 ∧ Table.get? t.regions k = some R
        ∧ { R with level := 1, clipped := 0#12, unused := [] } = r ∧ R.level = level
        ∧ (∀ j, j ≠ k → Table.get? t.regions j = Table.get? u.regions j)
        ∧ t.mem.nat (k + 8) 8 = 2 ^ 63 + 2 ^ 32 * R.clipped.toNat + R.level ∧ SameBut u t (k + 8) 8)

/-- R351, R30, R350: an update copies every field of the block but the root slots and the slot byte; it fails when the region is not
registered (1), for a field value (4), when a region of the subtree would leave its parent's cluster mask (4), and for a changed parent as
a registration does (1 and 2: log 32); a block whose read gets an error response counts as a field value (log 77). The block stands at the
packet's body as a physical address (log 30). -/
def Claims.RegionUpdated : Prop :=
  ∀ (s : State) (q : Nat) (x : Queue) (b : List Byte), Parses s q 5 x b → AtOnce s q → x.privileged = true →
    let k := (pktBody b).toNat
    let w := (s.noteUnits x 1).advanceRead q 1
    let u := w.paNote k 256
    let readable := w.spoilt k 256 false = none
    let bs := u.mem.bytes k 256
    let r := regionOfBlock bs
    let ends := fun (t : State) (status : BitVec 64) =>
      exec (.regionUpdate q) s = .next (t.writeCompletion x.rcb (pktCompletion b) (pktValue b) status)
    (Table.get? w.regions k = none → ends w (BitVec.ofNat 64 (5 * 2 ^ 56 + 1 * 2 ^ 40)))
    ∧ ∀ R, Table.get? u.regions k = some R →
      let now := u.modRegion k fun R => R.updated r
      let below := fun (j : Nat) => ∃ A, Table.get? now.regions j = some A ∧ now.under k j = true
      let orphan := r.parent ≠ 0 ∧ Table.get? u.regions r.parent = none
      let deep := ∃ j, below j ∧ 8 < now.levelOf j
      let outside := ∃ j A, Table.get? now.regions j = some A ∧ now.under k j = true ∧ now.maskOk A = false
      let fails := fun (reason : Nat) => ends u (BitVec.ofNat 64 (5 * 2 ^ 56 + reason * 2 ^ 40))
      (u.regions.map Prod.fst).Nodup →
      (Quiet w → readable → u = w)
      ∧ (¬ readable ∨ u.blockOk bs = false → fails 4)
      ∧ (readable → u.blockOk bs = true → orphan → fails 1)
      ∧ (readable → u.blockOk bs = true → ¬ orphan → deep → fails 2)
      ∧ (readable → u.blockOk bs = true → ¬ orphan → ¬ deep → outside → fails 4)
      ∧ (readable → u.blockOk bs = true → ¬ orphan → ¬ deep → ¬ outside → Quiet u →
        ∃ (t : State) (R' : Region), ends t 0#64 ∧ Table.get? t.regions k = some R'
          ∧ R'.parent = r.parent ∧ R'.level = now.levelOf k ∧ R'.activeGroups = r.activeGroups ∧ R'.windowBytes = r.windowBytes ∧ R'.matrixShare = r.matrixShare
          ∧ R'.cxlShare = r.cxlShare ∧ R'.ceiling = r.ceiling ∧ R'.faultDomain = r.faultDomain ∧ R'.promise = r.promise
          ∧ R'.determinism = r.determinism ∧ R'.publishScope = r.publishScope ∧ R'.partition = r.partition
          ∧ R'.watchdog = r.watchdog ∧ R'.parkThreshold = r.parkThreshold ∧ R'.noticeDeadline = r.noticeDeadline
          ∧ R'.inheritMask = r.inheritMask ∧ R'.mask = r.mask ∧ R'.arena = r.arena ∧ R'.frameBytes = r.frameBytes
          ∧ R'.frames = r.frames ∧ R'.slots = R.slots ∧ R'.current = R.current ∧ R'.inheritSlots = R.inheritSlots
          ∧ R'.pins = R.pins ∧ R'.holds = R.holds ∧ R'.suspended = R.suspended
          ∧ (∀ j A, j ≠ k → Table.get? u.regions j = some A →
            ∃ B, Table.get? t.regions j = some B ∧ { B with clipped := A.clipped, level := A.level } = A)
          ∧ t.groups.map (fun e => (e.1, e.2.view)) = u.groups.map fun e => (e.1, e.2.view))

/-- R351, R362: unregistering fails with reason 3 while the region has a child, a running launch or a held pin; otherwise the region is
gone, its publish slots are free with their counters standing, and the block's status word reads 0. -/
def Claims.RegionUnregistered : Prop :=
  ∀ (s : State) (q : Nat) (x : Queue) (b : List Byte), Parses s q 6 x b → AtOnce s q → x.privileged = true →
    let u := (s.noteUnits x 1).advanceRead q 1
    let k := (pktBody b).toNat
    let ends := fun (t : State) (status : BitVec 64) =>
      exec (.regionUnregister q) s = .next (t.writeCompletion x.rcb (pktCompletion b) (pktValue b) status)
    (Table.get? u.regions k = none → ends u (BitVec.ofNat 64 (5 * 2 ^ 56 + 1 * 2 ^ 40)))
    ∧ ∀ R, Table.get? u.regions k = some R →
      let busy := (∃ e ∈ u.regions, e.2.parent = k) ∨ (∃ e ∈ u.launches, e.2.region = k ∧ e.2.started = true) ∨ R.pins ≠ []
        ∨ R.holds ≠ []
      (busy → ends u (BitVec.ofNat 64 (5 * 2 ^ 56 + 3 * 2 ^ 40)))
      ∧ (¬ busy → Quiet u → u.spoilt (k + 8) 8 true = none → ∃ t : State, ends t 0#64 ∧ Table.get? t.regions k = none
        ∧ (∀ j, j ≠ k → Table.get? t.regions j = Table.get? u.regions j) ∧ t.xlat.publish = u.xlat.publish
        ∧ (∀ e, e ∈ t.xlat.owners ↔ e ∈ u.xlat.owners ∧ e.2 ≠ k)
        ∧ (∀ core page j, j < 8 → t.tlb core k (BitVec.ofNat 16 ((Table.getD R.slots j 0#64).toNat / 2 ^ 48)) page = none)
        ∧ t.mem.nat (k + 8) 8 = 0 ∧ SameBut u t (k + 8) 8)

/-- R340: a device packet sets the base and the block count of the KV second-stage table. -/
def Claims.KvTable : Prop :=
  ∀ (s : State) (q : Nat) (x : Queue) (b : List Byte), Parses s q 7 x b → AtOnce s q → x.privileged = true →
    let u := (s.noteUnits x 1).advanceRead q 1
    exec (.kvTableSet q) s = .next (({ u with disp := { u.disp with kvBase := (pktBody b).toNat, kvCount := pktArg b } } : State).writeCompletion
      x.rcb (pktCompletion b) (pktValue b) 0#64)

/-- R339, R340, R350, R351, R362: region and device packets. -/
def Obligations.RegionAndDevicePackets : Prop :=
  Claims.PrivilegedPackets ∧ Claims.RegionRegistered ∧ Claims.RegionUpdated ∧ Claims.RegionUnregistered ∧ Claims.KvTable

/-! ## Launches, gangs and groups (20: R343 to R349; 01: R9, R10; 19: R326; 05: R109) -/

/-- R344, R38, R318, R345, R347, R349: why a launch is rejected. That the lowest of several reasons is reported is the model's reading (log 33). -/
def Claims.RejectionReasons : Prop :=
  ∀ (s : State) (l : Launch) (rcb : Nat) (m : LaunchImage),
    let r := m.record
    let mode := s.determinism rcb
    let home := s.slotHolder rcb
    let checks : List (Prop × Nat) := [
      (∀ p ∈ r.positions, 8 ≤ p.alloc.v ∧ p.alloc.v ≤ 256 ∧ 8 ≤ p.alloc.s ∧ p.alloc.s ≤ 64 ∧ p.alloc.t ≤ 8 ∧ p.alloc.a ≤ 8
        ∧ p.alloc.a % 2 = 0 ∧ (p.duty ≠ .matrix → p.alloc.t = 0 ∧ p.alloc.a = 0), 2),
      ((mode = 1 → r.classT = false ∧ r.classA = false) ∧ (mode = 3 → r.classT = false)
        ∧ (2 ≤ mode → m.desc.x * r.w * m.desc.y * m.desc.z ≤ 2 ^ 28), 3),
      ((∀ e ∈ m.binding, bindingBad e = false)
        ∧ ∀ e ∈ m.tail.roles, (m.binding.getD (e % 256) 0#64).toNat % 4 = e / 2 ^ 8 % 4, 4),
      (s.alive rcb = true, 5), (m.desc.privileged = true → l.queuePriv = true, 6),
      ((∃ c ∈ s.eligible rcb m.binding, r.w ≤ (s.coresOf c).length
        ∧ gangWindowOf m.binding + Table.getD (launchWindowsOf m.binding) c 0 ≤ 0x600000) ∧ r.w * r.groups ≤ (s.arena rcb).2.2, 7),
      (frameNeed r ≤ (s.arena rcb).2.1, 8), ((s.slotWord home (s.currentSlot home)).getLsbD 0 = true, 9)]
    (∀ before c reason after, checks = before ++ (c, reason) :: after → (∀ y ∈ before, y.1) → ¬ c → s.rejection l rcb m = some reason)
    ∧ ((∀ y ∈ checks, y.1) → s.rejection l rcb m = none)

/-- R344, R346, R347: a launch whose turn has come is rejected with its reason, waits while its windows do not fit, or starts: its
descriptor, record and binding table are copied, its counter is zero, and its region's current root slot gets a pin. -/
def Claims.LaunchStarts : Prop :=
  ∀ (s : State) (k : Nat) (l : Launch), Table.get? s.launches k = some l → s.mayStartLaunch l = true →
    let rejected := fun (reason : Nat) => exec (.launchStart k) s =
      .next { s with launches := Table.set s.launches k { l with status := some (BitVec.ofNat 64 (3 * 2 ^ 56 + reason * 2 ^ 40)) } }
    (∀ reason, reason < 2 ^ 16 → s.readLaunch (s.queueRegion l.queue) l.descAddr = .error reason → rejected reason)
    ∧ ∀ m, s.readLaunch (s.queueRegion l.queue) l.descAddr = .ok m →
      let rcb := if m.desc.region = 0 then s.queueRegion l.queue else m.desc.region
      (∀ reason, reason < 2 ^ 16 → s.rejection l rcb m = some reason → rejected reason)
      ∧ (s.rejection l rcb m = none → s.windowsFit rcb (launchWindowsOf m.binding) = false → exec (.launchStart k) s = .next s)
      ∧ (s.rejection l rcb m = none → s.windowsFit rcb (launchWindowsOf m.binding) = true →
        ∃ (t : State) (l' : Launch), exec (.launchStart k) s = .next t ∧ Table.get? t.launches k = some l'
          ∧ { t with launches := s.launches, regions := s.regions } = s
          ∧ (∀ j, j ≠ k → Table.get? t.launches j = Table.get? s.launches j)
          ∧ l'.started = true ∧ l'.desc = m.desc ∧ l'.record = m.record ∧ l'.region = rcb ∧ l'.counter = 0 ∧ l'.dispatchers = []
          ∧ l'.pin = some (s.slotHolder rcb, s.currentSlot (s.slotHolder rcb)) ∧ l'.queue = l.queue ∧ l'.packet = l.packet
          ∧ (∀ j, j < 256 → Table.getD l'.binding j 0#64 = m.binding.getD j 0#64)
          ∧ ∀ R, Table.get? s.regions (s.slotHolder rcb) = some R → ∃ R', Table.get? t.regions (s.slotHolder rcb) = some R'
            ∧ ∀ j, Table.getD R'.pins j 0 = if j = R.current then Table.getD R.pins j 0 + 1 else Table.getD R.pins j 0)

/-- R347: a claim adds 16 to the launch's counter; a counter b below the number of gangs claims b to min(b + 16, gangs) - 1 in order, and
one at or above it stops the dispatcher. -/
def Claims.GangsClaimed : Prop :=
  ∀ (s : State) (k die : Nat) (l : Launch), Table.get? s.launches k = some l → s.mayClaim l die = true →
    let b := l.counter
    let n := l.desc.x * l.desc.y * l.desc.z
    ∃ (t : State) (l' : Launch), exec (.gangClaim k die) s = .next t ∧ { t with launches := s.launches } = s
      ∧ (∀ j, j ≠ k → Table.get? t.launches j = Table.get? s.launches j)
      ∧ Table.get? t.launches k = some l' ∧ { l' with counter := b, dispatchers := l.dispatchers } = l ∧ l'.counter = b + 16
      ∧ (∀ j, j ≠ die → l'.dispatcher j = l.dispatcher j)
      ∧ (n ≤ b → l'.dispatcher die = ⟨(l.dispatcher die).claimed, true⟩)
      ∧ (b < n → l'.dispatcher die = ⟨(l.dispatcher die).claimed ++ List.range' b (min (b + 16) n - b), false⟩)

/-- R348, R14: the first claimed gang is placed on a cluster that qualifies with the fewest active groups, ties to the lower number; its
workgroups stand on cores of their own and its groups are created at once, each active or as a group that has not activated yet. -/
def Claims.GangPlaced : Prop :=
  ∀ (s : State) (k die gangid c : Nat) (rest : List Nat) (l : Launch), Table.get? s.launches k = some l → s.dbg.frozen = false →
    l.killed = false → l.started = true → s.host.dev = .running → (l.dispatcher die).claimed = gangid :: rest →
    c ∈ s.placesOn l die →
    (∀ d ∈ s.placesOn l die, s.activeOnCluster c < s.activeOnCluster d ∨ s.activeOnCluster c = s.activeOnCluster d ∧ c ≤ d) →
    let a := s.fresh + 1
    ∃ (t : State) (A : Gang) (l' : Launch), exec (.gangPlace k die) s = .next t ∧ Table.get? t.gangs a = some A
      ∧ A.launch = k ∧ A.gangid = gangid ∧ A.cluster = c ∧ A.preempt = .none ∧ A.suspended = false ∧ A.cores.length = l.record.w
      ∧ A.cores.Nodup ∧ (∀ core ∈ A.cores, core / 4 = c)
      ∧ (∀ j, j ≠ a → Table.get? t.gangs j = Table.get? s.gangs j)
      ∧ Table.get? t.launches k = some l' ∧ (l'.dispatcher die).claimed = rest
      ∧ ∀ w p core pos, A.cores[w]? = some core → p < l.record.groups → l.record.positions[p]? = some pos →
        ∃ n g, Table.get? t.groups n = some g ∧ g.id.gang = a ∧ g.id.launch = k ∧ g.id.wg = w ∧ g.id.grpid = p ∧ g.ctl.core = core
          ∧ g.id.duty = pos.duty ∧ g.id.alloc = pos.alloc ∧ (g.ctl.act = .active ∨ g.ctl.cause = .created)

/-- R8, R9, R49, R326, R349: a group at its creation: the lanes of its threads stand at the entry point, its vector and condition registers
and xi are zero, and its uniform registers are zero but for the launch registers; one that activates holds its vector area, 32 lines a
folio, as dirty lines of zeros. -/
def Claims.GroupCreated : Prop :=
  ∀ (s : State) (l : Launch) (pl : Place) (pos : Position) (frameNo : Nat),
    let g := s.newGroup l pl pos frameNo
    let r := l.record
    let stack := if 32 * r.laneStack + r.uniStack = 0 then 0
      else (s.arena l.region).1 + frameNo * (s.arena l.region).2.1 + 0x10000
    (∀ k, k < 32 → has g.ctl.present k = decide (32 * pl.grpid + k < r.t))
    ∧ (∀ k, k < 32 → g.pc k = if 32 * pl.grpid + k < r.t then r.entry.setWidth 64 else 0#64)
    ∧ (∀ n k, g.vreg n k = 0#32) ∧ (∀ k, g.cond k = 0#16) ∧ g.regs.xi = 0#8 ∧ g.regs.ucc = 0#4 ∧ g.live = g.ctl.present
    ∧ (∀ n, n < 8 → g.sreg n = l.desc.args.getD n 0#64)
    ∧ g.sreg 57 = (if stack = 0 then 0#64 else BitVec.ofNat 64 (stack + 32 * r.laneStack + r.uniStack))
    ∧ g.sreg 58 = BitVec.ofNat 64 r.laneStack ∧ g.sreg 59 = BitVec.ofNat 64 stack
    ∧ (∀ n, 8 ≤ n → n ≠ 57 → n ≠ 58 → n ≠ 59 → g.sreg n = 0#64)
    ∧ g.tr.tvec = r.tvec ∧ g.pinSlot = pl.rootSlot ∧ g.fl.ops = [] ∧ g.fl.cmds = [] ∧ g.fl.hash = 0#32
    ∧ g.ctl.act = .parked ∧ g.ctl.cause = .created ∧ g.ctl.cls = pos.cls
    ∧ { g.bornActive with ctl := g.ctl } = g ∧ g.bornActive.ctl.act = .active ∧ g.bornActive.ctl.missing = []
    ∧ ∀ n, n ∈ g.bornActive.ctl.dirty ↔ n < 32 * ((pos.alloc.v + 31) / 32)

/-- R10, R186: a group without a thread left and with nothing outstanding retires: it is gone, and with the last group of its gang the
gang is gone and counted, and its window is released (stated where no region records or gates; where a window's bytes stand: log 7). -/
def Claims.GroupRetires : Prop :=
  ∀ (s : State) (k : Nat) (g : Group), Table.get? s.groups k = some g → g.mayRetire = true → g.ctl.compared = false →
    s.retireDiverges g = false → Quiet s →
    let last := ∀ e ∈ s.groups, e.1 ≠ k → e.2.id.gang = g.id.gang → e.2.id.walker = true
    ∃ t : State, exec (.groupRetire k) s = .next t ∧ Table.get? t.groups k = none ∧ OthersStay s t k
      ∧ (¬ last → t.gangs = s.gangs ∧ t.launches = s.launches ∧ SameBytes s t)
      ∧ (last → Table.get? t.gangs g.id.gang = none
        ∧ (∀ j, j ≠ g.id.gang → Table.get? t.gangs j = Table.get? s.gangs j)
        ∧ (∀ l, Table.get? s.launches g.id.launch = some l →
          Table.get? t.launches g.id.launch = some { l with retired := l.retired + 1 })
        ∧ ∀ x, t.mem.byte x = if gangWindowAt g.id.gang ≤ x ∧ x < gangWindowAt (g.id.gang + 1) then 0#8 else s.mem.byte x)

/-- R109, R130: at the close of its epochs the contributions of a launch to a word are added to it one at a time, rounded to nearest even,
in ascending order of workgroup, thread and ordinal, whatever their order of arrival, and the result is one store (stated where the home
answers without an error). -/
def Claims.EpochsClose : Prop :=
  ∀ (s : State) (l : Launch) (pa : Nat), (∀ c ∈ l.contributions, c.f64 = false ∧ c.pa = pa ∧ c.remote = none) →
    s.windowGone pa = false → (∀ write, s.spoilt pa 4 write = none) →
    ∃ cs : List Contribution, cs.Perm l.contributions
      ∧ cs.Pairwise (fun a b => a.wgid < b.wgid ∨ a.wgid = b.wgid ∧ (a.thread < b.thread ∨ a.thread = b.thread ∧ a.ordinal ≤ b.ordinal))
      ∧ (s.closeEpochs l).mem.w32 pa =
        cs.foldl (fun x c => rnd32 ((val32 x).add (val32 (c.data.setWidth 32)))) (s.mem.w32 pa)
      ∧ SameBut s (s.closeEpochs l) pa 4

/-- R343, R339, R346: a launch whose last gang has retired, or that was rejected or killed, completes: its windows are released, its packet
completes with its status, and it is gone (where a window's bytes stand: log 7). -/
def Claims.LaunchCompletes : Prop :=
  ∀ (s : State) (k : Nat) (l : Launch) (p : Packet), Table.get? s.launches k = some l → s.launchOver k l = true →
    Table.get? s.disp.packets l.packet = some p → p.kind = .launch → p.completion = 0#64 →
    let u := if l.killed = true then s else s.closeEpochs l
    (∃ t : State, exec (.launchComplete k) s = .next t ∧ Table.get? t.launches k = none
      ∧ (∀ j, j ≠ k → Table.get? t.launches j = Table.get? s.launches j)
      ∧ Table.get? t.disp.packets l.packet = none
      ∧ (∀ j, j ≠ l.packet → Table.get? t.disp.packets j = Table.get? s.disp.packets j)
      ∧ (∀ x, t.mem.byte x = if launchWindowAt k 0 ≤ x ∧ x < launchWindowAt (k + 1) 0 then 0#8 else u.mem.byte x)
      ∧ ∀ e ∈ t.colls, e.launch ≠ k)
    ∧ (l.status = none → l.killed = false → l.overflow = false → l.retired < 2 ^ 40 → l.finalStatus = BitVec.ofNat 64 l.retired)
    ∧ (l.status = none → l.killed = true → l.retired < 2 ^ 40 → l.finalStatus = BitVec.ofNat 64 (2 * 2 ^ 56 + l.retired))
    ∧ (l.status = none → l.killed = false → l.overflow = true → l.retired < 2 ^ 40 →
      l.finalStatus = BitVec.ofNat 64 (1 * 2 ^ 56 + l.retired))
    ∧ ∀ x, l.status = some x → l.finalStatus = x

/-- R8 to R10, R14, R109, R130, R326, R343 to R349: from a launch's start to its completion. -/
def Obligations.LaunchLife : Prop :=
  Claims.RejectionReasons ∧ Claims.LaunchStarts ∧ Claims.GangsClaimed ∧ Claims.GangPlaced ∧ Claims.GroupCreated
    ∧ Claims.GroupRetires ∧ Claims.EpochsClose ∧ Claims.LaunchCompletes

/-! ## Contexts, parking, activation and pre-emption (01: R19 to R22, R33 to R37; 02: R45 to R47, R53) -/

/-- R45, R46, R50: where the fields of the header folio and the words of the dirty vector lines stand among the bytes that a park writes;
a line that is not dirty is not written. -/
def Claims.ContextLayout : Prop :=
  ∀ (g : Group), g.pinSlot < 8 →
    let field := fun (ps : List Piece) (off n v : Nat) => ∃ lo b, (lo, b) ∈ ps ∧ lo ≤ off ∧ off + n ≤ lo + b.length
      ∧ fieldAt b (off - lo) n = v
    let hd := field g.headerPieces
    (∀ l, l < 32 → hd (8 * l) 8 (if has g.live l = true then (g.pc l).toNat else 0) ∧ hd (0x100 + 2 * l) 2 (g.cond l).toNat
      ∧ hd (0x4C0 + 4 * l) 4 (Table.getD g.ctl.counts l 0#24).toNat)
    ∧ hd 0x140 8 g.regs.ucc.toNat ∧ hd 0x148 8 g.regs.xi.toNat ∧ hd 0x150 4 g.ctl.present.toNat ∧ hd 0x154 4 g.ctl.exited.toNat
    ∧ hd 0x160 8 g.ctl.cls.toNat ∧ hd 0x168 2 g.pinSlot ∧ hd 0x16A 2 g.pinGen.toNat ∧ hd 0x170 8 g.fl.hash.toNat
    ∧ hd 0x180 1 g.tr.st.code.toNat ∧ hd 0x188 8 g.tr.st.pc.toNat ∧ hd 0x190 8 g.tr.st.ret.toNat ∧ hd 0x198 4 g.tr.st.word.toNat
    ∧ hd 0x19C 4 g.tr.st.mask.toNat ∧ hd 0x1A0 4 g.tr.st.failed.toNat ∧ hd 0x1A4 4 g.tr.st.info.toNat ∧ hd 0x1A8 8 g.tr.st.addr.toNat
    ∧ (∀ n, n < 63 → hd (0x200 + 8 * n) 8 (g.sreg n).toNat)
    ∧ (∀ n l, n < 32 * ((g.id.alloc.v + 31) / 32) → n ∈ g.ctl.dirty → n ∉ g.ctl.missing → l < 32 →
      field g.vectorPieces (0x2000 + 128 * n + 4 * l) 4 (g.vreg n l).toNat)
    ∧ ∀ p ∈ g.vectorPieces, ∃ n, n < 32 * ((g.id.alloc.v + 31) / 32) ∧ n ∈ g.ctl.dirty ∧ n ∉ g.ctl.missing ∧ p.1 = 0x2000 + 128 * n ∧ p.2.length = 128

/-- R44, R53: pieces of a context are stored where their folios translate: each stands there afterwards, and no other byte changes. -/
def Claims.ContextWritten : Prop :=
  ∀ (s u : State) (g : Group) (ps : List Piece) (place : Nat → Nat), s.ctxWrite g ps = .ok u →
    (∀ p ∈ ps, p.2 ≠ [] ∧ p.1 / 4096 = (p.1 + p.2.length - 1) / 4096
      ∧ s.ctxReach g (g.ctl.ctx + BitVec.ofNat 64 (4096 * (p.1 / 4096))) = .pa (place (p.1 / 4096))) →
    let start := fun (p : Piece) => place (p.1 / 4096) + p.1 % 4096
    (ps.Pairwise fun p q => start p + p.2.length ≤ start q ∨ start q + q.2.length ≤ start p) →
    (∀ p ∈ ps, u.mem.bytes (start p) p.2.length = p.2)
    ∧ ∀ a, (∀ p ∈ ps, a < start p ∨ start p + p.2.length ≤ a) → u.mem.byte a = s.mem.byte a

/-- R20, R233: a group of which every set has waited for more than its park threshold begins to park, at once for a threshold of 0; a
SLEEP may override the region's threshold. Its descriptor says that it parks. -/
def Claims.ParkThreshold : Prop :=
  ∀ (s : State) (k t0 th : Nat) (g : Group), Table.get? s.groups k = some g → g.ctl.act = .active → g.id.walker = false →
    g.ctl.dead = false → g.ctl.ctxReqs = [] → g.tr.entering = none → g.tr.boundary = [] → g.live ≠ 0#32 →
    (∀ l, l < 32 → has g.live l = true → ∃ w, g.waitOf l = some w ∧ ∀ r, w ≠ .fetch r) →
    (g.fl.sleepers = [] ∧ th = g.view.parkThreshold
      ∨ ∃ z x, g.fl.sleepers = [z] ∧ z.threshold = some x ∧ (∀ e ∈ g.ctl.waits, ∃ n, e.2 = .sleep n) ∧ th = x.toNat) →
    g.ctl.waitSince = some t0 → (∀ p, s.descPa g = some p → Takes s (p + 8) 56) →
    (th ≠ 0 → s.clk.cycle ≤ t0 + th → exec (.parkThreshold k) s = .next s)
    ∧ (th = 0 ∨ t0 + th < s.clk.cycle → ∃ (t : State) (h : Group), exec (.parkThreshold k) s = .next t ∧ Table.get? t.groups k = some h
      ∧ { h with fl := { h.fl with sleepers := g.fl.sleepers } } = { g with ctl := { g.ctl with act := .parking, cause := .wait } }
      ∧ { t with groups := s.groups, mem := s.mem } = s
      ∧ (∀ p, s.descPa g = some p → t.mem.nat (p + 0x10) 8 = 1 ∧ SameBut s t (p + 8) 56)
      ∧ (s.descPa g = none → SameBytes s t))

/-- R22: while a ready group of at most its class waits for one of the 64 slots of its core, or the register misses of the core over the
last 1,024 aclk exceed the firmware threshold, the least recently issued group of the least urgent class of the core, among those without
engine commands in flight, outside a notice handler and without a context fault (02: R53), is evicted: it begins to park. Otherwise nothing
happens. The tie at the same issue is the model's (log 72). -/
def Claims.Evicted : Prop :=
  ∀ (s : State) (k : Nat) (g : Group), Table.get? s.groups k = some g → (∀ p, s.descPa g = some p → Takes s (p + 8) 56) →
    let fit := fun (x : Group) => x.ctl.act = .active ∧ x.id.walker = false ∧ x.ctl.dead = false ∧ x.fl.cmds = []
      ∧ x.ctl.notice ≠ .handler ∧ ¬ (x.tr.st.active = true ∧ x.tr.st.code = 0x31#8) ∧ x.ctl.ctxReqs = []
    let wanted := (64 ≤ s.activeOn g.ctl.core ∧ ∃ p ∈ s.groups, p.1 ≠ k ∧ p.2.ctl.core = g.ctl.core ∧ s.wakes p.2 = true
        ∧ p.2.ctl.saved = false ∧ s.gangRestored p.2.id.gang = true ∧ s.ctxReady p.2 = true ∧ s.effClass p.1 ≤ s.effClass k)
      ∨ s.boot.missThreshold < ((s.core g.ctl.core).misses.filter fun x => decide (s.clk.cycle < x + 1024)).length
    let last := fun (x : Group) => max x.ctl.lastLane x.ctl.lastUni
    (¬ fit g ∨ ¬ wanted → exec (.groupEvict k) s = .next s)
    ∧ (fit g → wanted → s.effClass k ≤ 3 →
      (∀ p ∈ s.groups, p.1 ≠ k → p.2.ctl.core = g.ctl.core → fit p.2 → s.effClass p.1 < s.effClass k
        ∨ s.effClass p.1 = s.effClass k ∧ (last g < last p.2 ∨ last g = last p.2 ∧ g.ctl.slot ≤ p.2.ctl.slot)) →
      ∃ (t : State) (h : Group), exec (.groupEvict k) s = .next t ∧ Table.get? t.groups k = some h
        ∧ { h with fl := { h.fl with sleepers := g.fl.sleepers } } = { g with ctl := { g.ctl with act := .parking, cause := .evicted } }
        ∧ { t with groups := s.groups, mem := s.mem } = s
        ∧ (∀ p, s.descPa g = some p → SameBut s t (p + 8) 56) ∧ (s.descPa g = none → SameBytes s t))

/-- R20, R36, R49, R53: parking completes when every memory word of the group is done and its header, log and dirty vector lines are written, or
for a group that was created parked its header, an empty engine record and zeros over the vector area; a forced park of a gang writes tiles and the engine record too (stated with no engine command left, no context fault outstanding and no
suspension). Until every folio translates the group stays: the folios that translate are written, and the walk of a page goes on, or a
page request of kind context goes out. -/
def Claims.ParkCompletes : Prop :=
  ∀ (s : State) (k : Nat) (g : Group) (a : Gang), Table.get? s.groups k = some g → Table.get? s.gangs g.id.gang = some a →
    g.id.walker = false → g.ctl.dead = false → g.ctl.ctxReqs = [] → g.ctl.ctxWalkOn = [] → g.ctl.cause ≠ .suspend → a.suspended = false →
    g.fl.roots = [] → g.tr.entering = none → g.fl.publ = none → g.fl.ops = [] → g.fl.probes = [] →
    (a.preempt = .none ∧ g.ctl.act = .parking ∨ a.preempt = .forced ∧ g.ctl.act ≠ .parked ∧ g.fl.cmds = []) →
    let forced := decide (a.preempt = .forced)
    let pieces := (if g.ctl.act = .parking ∧ g.ctl.cause = .created then
        g.headerPieces ++ [g.enginePiece] ++ (List.range (32 * ((g.id.alloc.v + 31) / 32))).map g.linePiece
      else g.headerPieces ++ g.logPieces ++ g.vectorPieces) ++ if forced = true then g.tilePieces ++ [g.enginePiece] else []
    (∀ u, s.ctxWrite g pieces = .ok u → ∃ (t : State) (h : Group), exec (.parkComplete k) s = .next t ∧ Table.get? t.groups k = some h
      ∧ h.ctl.act = .parked ∧ h.ctl.cause = (if forced = true ∧ g.ctl.cause ≠ .debug then .preempt else g.ctl.cause) ∧ h.ctl.saved = (g.ctl.saved || forced)
      ∧ h.ctl.pcs = g.ctl.pcs ∧ h.ctl.waits = g.ctl.waits ∧ h.regs = g.regs ∧ h.tr = g.tr ∧ h.fl.pend = g.fl.pend
      ∧ t.launches = s.launches ∧ t.gangs = s.gangs
      ∧ h.ctl.missing = List.range g.id.alloc.v ∧ h.ctl.dirty = [] ∧ h.ctl.filling = []
      ∧ (∀ p, u.descPa h = some p → Takes u (p + 8) 56 → t.mem.nat (p + 0x10) 8 = 2 ∧ SameBut u t (p + 8) 56) ∧ (u.descPa h = none → SameBytes u t))
    ∧ (∀ va, s.ctxWrite g pieces = .error (.page va) → ∃ (t : State) (h : Group) (r : Nat) (q : PageReq),
      exec (.parkComplete k) s = .next t ∧ Table.get? t.groups k = some h ∧ h.ctl.act = g.ctl.act ∧ h.ctl.ctxReqs = [(pageOf va, r)]
      ∧ (r, q) ∈ t.xlat.requests ∧ q.page = pageOf va ∧ q.region = g.view.holder ∧ q.slot = g.pinSlot
      ∧ SameBytes (s.ctxWriteSome g pieces) t)
    ∧ (∀ slot va, s.ctxWrite g pieces = .error (.walk slot va) → ∃ (t : State) (h : Group),
      exec (.parkComplete k) s = .next t ∧ Table.get? t.groups k = some h ∧ h.ctl.act = g.ctl.act ∧ h.ctl.ctxReqs = []
      ∧ h.ctl.ctxWalkOn = [(slot, pageOf va)] ∧ SameBytes (s.ctxWriteSome g pieces) t)

/-- R20, R21, R34, R37: which groups are ready to activate, and which of them is next on its core: notices first, then the more urgent class,
the longer time ready, the lower slot. No group of a resumed gang is ready before every group of the gang has its tiles and saved commands
back, but for one whose own context has failed for the fault domain. -/
def Claims.ActivationOrder : Prop :=
  ∀ (s : State) (k : Nat) (g : Group),
    let due := fun (x : Group) => x.ctl.notice = .pending ∧ x.ctl.cause ≠ .debug ∧ x.ctl.cause ≠ .suspend
    let allowed := fun (x : Group) => ∀ b ∈ x.view.activeBudgets, s.activeUnder b.1 < b.2
    let back := fun (x : Group) => x.ctl.saved = false ∧ ∀ p ∈ s.groups, p.2.id.gang = x.id.gang → p.2.id.walker = false → p.2.ctl.saved = true →
      p.2.ctl.dead = true ∨ s.ctxFailed p.2 = true
    (∀ x : Group, s.wakes x = true ↔ x.ctl.act = .parked ∧ x.ctl.dead = false
      ∧ (∃ a, Table.get? s.gangs x.id.gang = some a ∧ (a.preempt = .none ∨ ∃ d, a.preempt = .notice d))
      ∧ (due x ∨ x.ctl.cause ∈ [.none, .evicted, .created, .resumed] ∨ x.ctl.cause = .wait ∧ x.allWait = false))
    ∧ (s.mayActivate k g = true ↔ s.host.dev = .running ∧ s.dbg.frozen = false ∧ s.wakes g = true ∧ back g ∧ s.activeOn g.ctl.core < 64
      ∧ allowed g ∧ s.ctxReady g = true
      ∧ ∀ p ∈ s.groups, p.1 ≠ k → p.2.ctl.core = g.ctl.core → s.wakes p.2 = true → back p.2 → allowed p.2 → s.ctxReady p.2 = true →
        let rank := fun (x : Group) => if due x then 0 else 1
        let since := fun (x : Group) => x.ctl.wakeSince.getD s.clk.cycle
        ¬ (rank p.2 < rank g ∨ rank p.2 = rank g ∧ (s.effClass p.1 < s.effClass k ∨ s.effClass p.1 = s.effClass k
          ∧ (since p.2 < since g ∨ since p.2 = since g ∧ p.2.ctl.slot < g.ctl.slot))))

/-- R46, R51, R53, R54: a group that may activate reads its context address from its descriptor and its state from the header folio; its
vector lines stay in memory until they are needed. A memory word in flight takes its entry of the operand log as it stands, R55: word, PC and base;
one whose valid bit was cleared is gone, and its destination keeps its old value. Stated where no entry was made by software (log 75) and no value
has landed since the park; a group that was saved by force takes its tiles and commands back first (Claims.GroupRestored). -/
def Claims.GroupActivates : Prop :=
  ∀ (s : State) (k d p0 p1 : Nat) (g : Group), Table.get? s.groups k = some g → s.mayActivate k g = true →
    g.fl.late = [] → (g.fl.ops.map MemOp.seq).Nodup → s.ctxDirect g (BitVec.ofNat 64 g.id.desc) = .pa d →
    let g1 : Group := { g with ctl := { g.ctl with ctx := s.mem.w64 d } }
    s.ctxReach g1 (s.mem.w64 d) = .pa p0 → s.ctxReach g1 (s.mem.w64 d + 0x1000#64) = .pa p1 →
    Gives s d 8 → Gives s p0 4096 → Gives s p1 4096 →
    headerBad (s.mem.bytes p0 4096) = none → pendsBad (s.mem.bytes p0 4096) g1 = none →
    (∀ e, e < 4 → (s.mem.byte (p0 + 0x400 + 32 * e)).getLsbD 0 = true → (g.logged? e).isSome = true) →
    let entry := fun (e : Nat) => p0 + 0x400 + 32 * e
    ∃ (t : State) (h : Group), exec (.groupActivate k) s = .next t ∧ Table.get? t.groups k = some h
      ∧ h.ctl.act = .active ∧ h.ctl.cause = .none ∧ h.ctl.ctx = s.mem.w64 d ∧ h.ctl.missing = List.range g.id.alloc.v ∧ h.ctl.dirty = []
      ∧ (∀ l, l < 32 → h.pc l = if has g.live l = true then s.mem.w64 (p0 + 8 * l) else 0#64)
      ∧ (∀ l, l < 32 → h.cond l = BitVec.ofNat 16 (s.mem.nat (p0 + 0x100 + 2 * l) 2))
      ∧ (∀ n, n < 63 → h.sreg n = s.mem.w64 (p0 + 0x200 + 8 * n))
      ∧ h.regs.ucc = (s.mem.byte (p0 + 0x140)).setWidth 4 ∧ h.regs.xi = s.mem.byte (p0 + 0x148)
      ∧ h.ctl.cls = (s.mem.byte (p0 + 0x160)).setWidth 2 ∧ h.tr.st.code = s.mem.byte (p0 + 0x180)
      ∧ h.tr.st.ret = BitVec.ofNat 56 (s.mem.nat (p0 + 0x190) 8)
      ∧ (∀ m l, m < 8 → l < 32 → h.landingWord m l = s.mem.w32 (p1 + 0xA00 + 128 * m + 4 * l))
      ∧ h.ctl.present = g.ctl.present ∧ h.ctl.exited = g.ctl.exited ∧ h.id = g.id ∧ h.tr.tvec = g.tr.tvec ∧ h.pinSlot = g.pinSlot
      ∧ (∀ o e, o ∈ g.fl.ops → o.log = some e → e < 4 →
        ((s.mem.byte (entry e)).getLsbD 0 = false → h.opAt o.seq = none
          ∧ ∀ p x, o.pend = some p → Table.get? h.fl.pend p = some x → x.landed = true)
        ∧ ((s.mem.byte (entry e)).getLsbD 0 = true → (wordShape (s.mem.w32 (entry e + 8))).isSome = true →
          ∃ o', h.opAt o.seq = some o' ∧ o'.word = s.mem.w32 (entry e + 8) ∧ o'.pc = BitVec.ofNat 56 (s.mem.nat (entry e + 12) 8)
            ∧ o'.base = s.mem.w64 (entry e + 20)))
      ∧ (∀ o ∈ g.fl.ops, o.log = none → ∃ o', h.opAt o.seq = some o' ∧ o'.kind = o.kind ∧ o'.word = o.word ∧ o'.queue = o.queue)
      ∧ (∀ p, s.descPa h = some p → Takes s (p + 8) 56 → t.mem.nat (p + 0x10) 8 = 0 ∧ SameBut s t (p + 8) 56) ∧ (s.descPa h = none → SameBytes s t)

/-- R37: a group of a resumed gang takes its tiles, accumulators and tile scales back from the tile area of its context, for a matrix group, and
is then no longer saved; a command of which software has cleared the valid bit in the engine record is dropped, and its status lands
(13: R274). No byte of memory changes but those of trace records. -/
def Claims.GroupRestored : Prop :=
  ∀ (s : State) (k d p0 : Nat) (place : Nat → Nat) (g : Group), Table.get? s.groups k = some g → s.mayRestore g = true → g.fl.late = [] →
    (g.fl.cmds.map EngCmd.seq).Nodup → s.ctxDirect g (BitVec.ofNat 64 g.id.desc) = .pa d →
    let g1 : Group := { g with ctl := { g.ctl with ctx := s.mem.w64 d } }
    s.ctxReach g1 (s.mem.w64 d) = .pa p0 → Gives s d 8 → Gives s p0 4096 → enginesBad (s.mem.bytes p0 4096) g1 = none →
    (g.id.duty = .matrix → ∀ i, i < 13 →
      s.ctxReach g1 (s.mem.w64 d + BitVec.ofNat 64 (g.id.alloc.tileArea + 4096 * i)) = .pa (place i) ∧ Gives s (place i) 4096) →
    ∃ h : Group, Table.get? (s.restore k).groups k = some h ∧ h.ctl.saved = false ∧ h.ctl.act = .parked ∧ h.ctl.pcs = g.ctl.pcs
      ∧ h.regs.s = g.regs.s
      ∧ ((∀ i c, i < 16 → g.issued[i]? = some c → (s.mem.byte (p0 + 0x800 + 64 * i + 7)).getLsbD 7 = true) → SameBytes s (s.restore k))
      ∧ (g.id.duty = .matrix →
        (∀ i b, i < 4 → b < 4096 → Table.getD h.regs.tiles (4096 * i + b) 0#8 = s.mem.byte (place i + b))
        ∧ (∀ n w, n < 8 → w < 1024 → Table.getD h.regs.acc (1024 * n + w) 0#32 = s.mem.w32 (place (4 + n) + 4 * w))
        ∧ ∀ b, b < 1024 → Table.getD h.regs.scales b 0#8 = s.mem.byte (place 12 + b))
      ∧ ∀ i c, i < 16 → g.issued[i]? = some c →
        if (s.mem.byte (p0 + 0x800 + 64 * i + 7)).getLsbD 7 = true then (∃ c' ∈ h.fl.cmds, c'.seq = c.seq ∧ c'.word = c.word ∧ c'.ops = c.ops)
        else (∀ c' ∈ h.fl.cmds, c'.seq ≠ c.seq) ∧ ∀ p x, c.pend = some p → Table.get? h.fl.pend p = some x → x.landed = true

/-- R32, R46, R53: a descriptor or a header or log folio that is not mapped leaves the group parked with a page request; a PC of the header
with bits 63:56 set, or another reserved bit, delivers ACCESS to the fault domain, and the record names the header offset: the domain kills the
region, suspends it, or keeps the group until the driver goes on with it. -/
def Claims.ActivationFaults : Prop :=
  ∀ (s : State) (k : Nat) (g : Group), Table.get? s.groups k = some g → s.mayActivate k g = true →
    (∀ va, s.ctxDirect g (BitVec.ofNat 64 g.id.desc) = .page va → ∃ (t : State) (h : Group) (r : Nat) (q : PageReq),
      exec (.groupActivate k) s = .next t ∧ Table.get? t.groups k = some h ∧ (pageOf va, r) ∈ h.ctl.ctxReqs
      ∧ { h with ctl := { h.ctl with ctxReqs := g.ctl.ctxReqs, ctxWalked := g.ctl.ctxWalked } } = g
      ∧ (r, q) ∈ t.xlat.requests ∧ q.page = pageOf va ∧ SameBytes s t)
    ∧ ∀ d p0 p1, s.ctxDirect g (BitVec.ofNat 64 g.id.desc) = .pa d →
      let g1 : Group := { g with ctl := { g.ctl with ctx := s.mem.w64 d } }
      s.ctxReach g1 (s.mem.w64 d) = .pa p0 → s.ctxReach g1 (s.mem.w64 d + 0x1000#64) = .pa p1 → g.fl.late = [] →
      Gives s d 8 → Gives s p0 4096 → Gives s p1 4096 →
      let rcb := s.regionOf g
      let bad := fun (off : Nat) => ∃ t : State, exec (.groupActivate k) s = .next t ∧
        let kept := fun (c : ParkCause) => ∃ h : Group, Table.get? t.groups k = some h ∧ h.ctl.act = .parked ∧ h.ctl.cause = c
          ∧ h.tr.st.code = 0x10#8 ∧ h.tr.st.addr = BitVec.ofNat 64 off ∧ h.regs = g.regs
        match g.view.faultDomain with
        | 0 => g.id.walker = false → (∀ o ∈ g.fl.ops, o.queue ≠ .outbound) → (s.groups.map Prod.fst).Nodup → (s.launches.map Prod.fst).Nodup →
          (∃ l, Table.get? s.launches g.id.launch = some l) →
          Table.get? t.groups k = none ∧ ∀ R, Table.get? s.regions rcb = some R → ∃ R', Table.get? t.regions rcb = some R' ∧ R'.killed = true
        | 1 => kept g.ctl.cause
          ∧ (∀ R, Table.get? s.regions rcb = some R → ∃ R', Table.get? t.regions rcb = some R' ∧ R'.suspended = true)
          ∧ (∀ a l, Table.get? s.gangs g.id.gang = some a → Table.get? s.launches a.launch = some l → l.region = rcb →
            ∃ A, Table.get? t.gangs g.id.gang = some A ∧ A.suspended = true ∧ A.preempt = .forced)
        | _ => kept .suspend
      let byte := fun (off : Nat) => s.mem.byte (p0 + off)
      (∀ l, l < 32 → (∀ j, j < l → byte (8 * j + 7) = 0#8) → byte (8 * l + 7) ≠ 0#8 → bad (8 * l))
      ∧ ((∀ j, j < 32 → byte (8 * j + 7) = 0#8) → (byte 0x140).toNat / 16 ≠ 0 → bad 0x140)

/-- R33, R34, R36: a request to pre-empt a gang begins the notice phase: each group with a notice handler gets PNOTICE at its next
instruction boundary, each other one stops issuing; with a deadline of 0, or without a notice handler in the gang (16: R302), the gang is
parked by force at once; a further request for the gang has no effect. Of groups that hold different deadlines the longest counts (log 49). -/
def Claims.NoticeBegins : Prop :=
  ∀ (s : State) (gang : Nat) (a : Gang) (l : Launch), Table.get? s.gangs gang = some a → Table.get? s.launches a.launch = some l →
    (s.groups.map Prod.fst).Nodup →
    let mine := fun (p : Nat × Group) => p ∈ s.groups ∧ p.2.id.gang = gang ∧ p.2.id.walker = false ∧ p.2.ctl.dead = false
    let handled := ∃ p, mine p ∧ p.2.id.notice = true
    ∀ d : Nat, ((∀ p, ¬ mine p) ∧ d = s.noticeDeadline l.region
      ∨ (∃ p, mine p ∧ p.2.view.noticeDeadline = d) ∧ ∀ p, mine p → p.2.view.noticeDeadline ≤ d) →
    (a.preempt ≠ .none → exec (.preemptRequest gang) s = .next s)
    ∧ (a.preempt = .none → d = 0 ∨ ¬ handled → ∃ t : State, exec (.preemptRequest gang) s = .next t ∧ { t with gangs := s.gangs } = s
      ∧ Table.get? t.gangs gang = some { a with preempt := .forced })
    ∧ (a.preempt = .none → d ≠ 0 → handled → ∃ t : State, exec (.preemptRequest gang) s = .next t
      ∧ { t with gangs := s.gangs, groups := s.groups } = s ∧ Table.get? t.gangs gang = some { a with preempt := .notice (s.clk.cycle + d) }
      ∧ ∀ k g, Table.get? s.groups k = some g →
        (g.id.gang ≠ gang ∨ g.id.walker = true ∨ g.ctl.dead = true ∨ g.live = 0#32 → Table.get? t.groups k = some g)
        ∧ (g.id.gang = gang → g.id.walker = false → g.ctl.dead = false → g.live ≠ 0#32 →
          (g.id.notice = false → Table.get? t.groups k = some { g with ctl := { g.ctl with notice := .done } })
          ∧ (g.id.notice = true → ∃ h q, Table.get? t.groups k = some h ∧ h.ctl = { g.ctl with notice := .pending } ∧ h.regs = g.regs
            ∧ h.fl = g.fl ∧ q ∈ h.tr.boundary ∧ q.code = 0x31#8 ∧ (∀ x ∈ g.tr.boundary, x ∈ h.tr.boundary))))

/-- R36: past the deadline the device parks the gang by force; a gang of which every group is saved is parked. -/
def Claims.GangParked : Prop :=
  ∀ (s : State) (gang : Nat) (a : Gang), Table.get? s.gangs gang = some a →
    (∀ d, a.preempt = .notice d →
      (s.clk.cycle < d → exec (.noticeDeadline gang) s = .next s)
      ∧ (d ≤ s.clk.cycle → exec (.noticeDeadline gang) s =
        .next { s with gangs := Table.set s.gangs gang { a with preempt := .forced } }))
    ∧ (a.preempt = .forced → (s.groups.map Prod.fst).Nodup →
      (∀ p ∈ s.groups, p.2.id.gang = gang → p.2.id.walker = false → p.2.ctl.dead = false → p.2.ctl.act = .parked ∧ p.2.ctl.saved = true) →
      ∃ t : State, exec (.gangParkComplete gang) s = .next t ∧ Table.get? t.gangs gang = some { a with preempt := .parked }
        ∧ (∀ j, j ≠ gang → Table.get? t.gangs j = Table.get? s.gangs j) ∧ t.groups = s.groups ∧ t.launches = s.launches ∧ SameBytes s t)

/-- R37: a parked gang is placed as a whole on a cluster that takes it, each workgroup on a core of its own; its groups wake, but for those
that a debugger or the fault domain holds, with their registers, program counters and commands as they were saved; the recorded load of
every panel of the weight buffer is issued anew, by the gang's first group (log 36). -/
def Claims.GangResumes : Prop :=
  ∀ (s : State) (gang cluster : Nat) (a : Gang) (l : Launch), Table.get? s.gangs gang = some a →
    Table.get? s.launches a.launch = some l → s.mayResume gang a l cluster = true → (s.groups.map Prod.fst).Nodup →
    let old := fun (g : Group) => (g.fl.cmds.filter fun c => !c.isReload).map fun c => { c with walkOn := none, walked := [] }
    let loads := a.panels.filter fun p => p.2.fmt.isSome
    ∃ (t : State) (A : Gang), exec (.gangResume gang cluster) s = .next t ∧ Table.get? t.gangs gang = some A
      ∧ { A with cluster := a.cluster, cores := a.cores, preempt := a.preempt, again := a.again, displaced := a.displaced } = a
      ∧ A.displaced = false
      ∧ A.cluster = cluster ∧ A.preempt = .none ∧ A.cores.length = l.record.w ∧ A.cores.Nodup ∧ (∀ c ∈ A.cores, c / 4 = cluster)
      ∧ (∀ j, j ≠ gang → Table.get? t.gangs j = Table.get? s.gangs j) ∧ t.launches = s.launches
      ∧ ∀ k g, Table.get? s.groups k = some g → g.id.gang = gang → g.id.walker = false → g.ctl.dead = false →
        ∃ h, Table.get? t.groups k = some h ∧ h.ctl.core = A.cores.getD g.id.wg g.ctl.core
          ∧ h.ctl.cause = (if g.ctl.cause = .debug ∨ g.ctl.cause = .suspend then g.ctl.cause else .resumed) ∧ h.ctl.act = g.ctl.act
          ∧ h.ctl.pcs = g.ctl.pcs ∧ h.regs = g.regs ∧ h.id = g.id
          ∧ (if (s.groupsOf gang).head? = some k then ∃ new : List EngCmd, h.fl.cmds = old g ++ new ∧ new.length = loads.length
              ∧ ∀ (i : Nat) (p : Nat × Panel), loads[i]? = some p → ∃ c : EngCmd, new[i]? = some c ∧ c.ins = .wld 0#8 63#6 0#4 p.2.x24 ∧ c.ops = [p.2.origin, BitVec.ofNat 64 p.1]
                ∧ c.pend = none ∧ c.started = true ∧ c.tid = p.2.tid
            else h.fl.cmds = old g)

/-- R20 to R22, R33 to R37, R45, R46, R49, R53, R55: contexts, parking, activation, eviction and pre-emption. -/
def Obligations.ParkingAndPreemption : Prop :=
  Claims.ContextLayout ∧ Claims.ContextWritten ∧ Claims.ParkThreshold ∧ Claims.Evicted ∧ Claims.ParkCompletes ∧ Claims.ActivationOrder
    ∧ Claims.GroupActivates ∧ Claims.GroupRestored ∧ Claims.ActivationFaults ∧ Claims.NoticeBegins ∧ Claims.GangParked ∧ Claims.GangResumes

/-! ## Timers, the debugger, freezing, record and replay (01: R13, R26, R28; 25: R403 to R410; 26: R416; 17: R305) -/

/-- R13, R26: under the progress promise a set that has let 256 issues pass ends the current turn after an issue, and a group that has had a ready
instruction for 4,096 aclk takes the next slot of its pipe. -/
def Claims.ProgressPromise : Prop :=
  ∀ (s : State) (k : Nat) (g : Group), Table.get? s.groups k = some g → s.promise (s.regionOf g) = true →
    (g.ctl.cur ≠ 0#32 → g.countOf g.ctl.cur = 0 → (∃ v ∈ s.readySets g, v.mask ≠ g.ctl.cur ∧ 256 ≤ v.count) →
      exec (.fairnessLimit k) s = .next { s with groups := Table.set s.groups k { g with ctl := { g.ctl with cur := 0#32 } } })
    ∧ (g.ctl.urgent = false → g.ctl.readySince + 4096 ≤ s.clk.cycle → s.readySets g ≠ [] →
      exec (.progressWaitLimit k) s = .next { s with groups := Table.set s.groups k { g with ctl := { g.ctl with urgent := true } } })

/-- R28: with the promise off, a ready set whose wait count reaches the limit raises WATCHDOG, which goes to the region's fault domain;
the record names the set's PC and lanes and the PC of the current set, and no word of the group issues meanwhile. While the promise is on,
or with limit 0, nothing happens. -/
def Claims.WatchdogTrap : Prop :=
  ∀ (s : State) (k : Nat) (g : Group), Table.get? s.groups k = some g →
    let lim := s.watchdog (s.regionOf g)
    (lim = 0 ∨ s.promise (s.regionOf g) = true ∨ (∀ v ∈ s.readySets g, v.count < lim) → exec (.watchdog k) s = .next s)
    ∧ (lim ≠ 0 → s.promise (s.regionOf g) = false → g.id.walker = false → g.fl.pend = [] → (∃ v ∈ s.readySets g, lim ≤ v.count) →
      ∃ v ∈ s.readySets g, lim ≤ v.count ∧
        let st : TrapState := {
          code := 0x30#8, active := g.tr.st.active, resume := false, held := false, imm := 0#12, pc := v.pc.setWidth 56
          ret := v.pc.setWidth 56, word := 0#32, mask := v.mask, failed := 0#32, info := 0#32, addr := 0#64
          cur := if g.ctl.cur = 0#32 then 0#56 else (g.pc ((lanesOf g.ctl.cur).headD 0)).setWidth 56 }
        let g' : Group := { g with tr := { g.tr with st := st, entering := none }, ctl := { g.ctl with watchdogged := true } }
        let u : State := ({ s with groups := Table.set s.groups k g' } : State).countTrap g'
        (g.view.faultDomain = 0 → exec (.watchdog k) s = .next (u.killRegion (s.regionOf g)))
        ∧ (g.view.faultDomain = 1 → exec (.watchdog k) s = .next (u.suspendRegion (s.regionOf g)))
        ∧ (1 < g.view.faultDomain → g.ctl.act ≠ .parked → ∃ t : State, exec (.watchdog k) s = .next t
          ∧ Table.get? t.groups k = some { g' with ctl := { g'.ctl with act := .parking, cause := .suspend } }
          ∧ { t with groups := s.groups, host := s.host, prof := s.prof } = s ∧ OthersStay s t k))
    ∧ (∀ v, s.watchdogSet g = some v → s.candidate g = none)

/-- R404, R405: before a set of a held group issues the word at an armed comparator's PC, the group takes BREAK into the resident debug
handler: the trap state names that PC twice, the word and the number of the comparator, and the group parks. -/
def Claims.ComparatorMatch : Prop :=
  ∀ (s : State) (k c top : Nat) (g : Group) (v : SetView) (w : Word), Table.get? s.groups k = some g → s.candidate g = some v →
    s.fetch g v.mask = .word w → s.dbg.attached = some top → s.under top (s.regionOf g) = true →
    g.ctl.uncompared &&& v.mask = 0#32 → g.id.walker = false → g.fl.pend = [] →
    let hits := fun (j : Nat) =>
      let x := Table.getD s.dbg.comparators j 0#128
      x.getLsbD 63 = true ∧ (x.extractLsb' 0 56).setWidth 64 = v.pc
        ∧ (x.getLsbD 64 = true ∨ (x.extractLsb' 96 16).toNat = (s.launchOf g).1) ∧ x.getLsbD (112 + g.id.grpid % 16) = true
    c < 8 → hits c → (∀ j, j < c → ¬ hits j) →
    ∃ (t : State) (h : Group), exec (.pcComparatorMatch k) s = .next t ∧ Table.get? t.groups k = some h ∧ OthersStay s t k ∧ SameBytes s t
      ∧ h.ctl.act = .parking ∧ h.ctl.cause = .debug ∧ h.ctl.stopped = true ∧ h.tr.st.code = 0x20#8 ∧ h.tr.st.pc = v.pc.setWidth 56
      ∧ h.tr.st.ret = v.pc.setWidth 56 ∧ h.tr.st.word = w ∧ h.tr.st.mask = v.mask ∧ h.tr.st.imm = BitVec.ofNat 12 c ∧ h.regs = g.regs
      ∧ ∀ l, l < 32 → h.pc l = if has (v.mask &&& g.live) l = true then (v.pc.setWidth 56).setWidth 64 else g.pc l

/-- R305: a gate that has held an access for its timeout with no scripted access performed since it arrived ends with code 2: its status
word names the code and the unscripted accesses, and the gate is gone. For a status word whose home performs the store. -/
def Claims.GateTimeout : Prop :=
  ∀ (s : State) (rcb : Nat) (R : Region) (g : Gate), Table.get? s.regions rcb = some R → R.gate = some g → Takes s g.status 8 →
    ((∀ h ∈ s.heldClocks g, s.clk.cycle < h.2 + g.timeout ∨ h.1 ≤ g.progressed) → exec (.gateTimeout rcb) s = .next s)
    ∧ ((∃ h ∈ s.heldClocks g, h.2 + g.timeout ≤ s.clk.cycle ∧ g.progressed < h.1) → ∃ (t : State) (R' : Region),
      exec (.gateTimeout rcb) s = .next t ∧ Table.get? t.regions rcb = some R' ∧ R'.gate = none
      ∧ t.mem.w64 g.status = BitVec.ofNat 64 (2 * 2 ^ 56 + g.unscripted % 2 ^ 32))

/-- R5, R403 to R406: the debugger's requests; the reserved bits of a comparator word are ignored. The refusals of resume and read, and the number
of the request that reads a tile, are the model's (log 38). -/
def Claims.Debugger : Prop :=
  ∀ (s : State) (q : Request),
    let no := s.respond q 1#64 []
    (∀ rcb, Asked s q 0x0033 (opWords [1, rcb]) → (s.dbg.attached ≠ none → exec (.debugAttach rcb) s = .next no)
      ∧ (s.dbg.attached = none → s.registered rcb = true → exec (.debugAttach rcb) s =
        .next (({ s with dbg := { s.dbg with attached := some rcb } } : State).respond q 0#64 [])))
    ∧ (∀ k w, Asked s q 0x0033 (opWords [2, k] ++ leBytes 16 w.toNat) → (8 ≤ k → exec (.debugComparatorWrite k w) s = .next no)
      ∧ (k < 8 → ∃ t : State, exec (.debugComparatorWrite k w) s = .next (t.respond q 0#64 [])
          ∧ { t with dbg := { t.dbg with comparators := s.dbg.comparators } } = s
          ∧ (∀ j, j ≠ k → Table.getD t.dbg.comparators j 0#128 = Table.getD s.dbg.comparators j 0#128)
          ∧ ∀ b, b < 128 → (Table.getD t.dbg.comparators k 0#128).getLsbD b =
            (w.getLsbD b && !decide (b < 2 ∨ 56 ≤ b ∧ b < 63 ∨ 65 ≤ b ∧ b < 96))))
    ∧ (∀ k one g, Asked s q 0x0033 (opWords [3, k] ++ leBytes 1 (Bool.toNat one)) → Table.get? s.groups k = some g →
      (g.ctl.stopped = false ∨ g.ctl.cause ≠ .debug → exec (.debugResume k one) s = .next no)
      ∧ (g.ctl.stopped = true → g.ctl.cause = .debug → g.id.walker = false → g.ctl.dead = false →
        let h : Group := { g with ctl := { g.ctl with
          stopped := false, stepping := one, cause := .resumed, uncompared := g.ctl.uncompared ||| g.tr.st.mask } }
        exec (.debugResume k one) s = .next (({ s with groups := Table.set s.groups k h } : State).respond q 0#64 [])))
    ∧ (∀ k acc buf g top, Asked s q 0x0033 (opWords [4, k] ++ leBytes 1 (BitVec.toNat acc) ++ opWords [buf]) → Table.get? s.groups k = some g → s.dbg.attached = some top → s.under top (s.regionOf g) = true →
      g.ctl.act = .parked → g.id.walker = false → g.ctl.dead = false → s.spanOk buf 4096 = true → buf % 8 = 0 →
      ((∃ c ∈ g.fl.cmds, s.namesAcc g c acc.toNat = true) → exec (.debugReadAccumulator k acc buf) s = .next (s.respond q 2#64 []))
      ∧ ((∀ c ∈ g.fl.cmds, s.namesAcc g c acc.toNat = false) → Quiet s → s.spoilt buf 4096 true = none →
        ∃ t : State, exec (.debugReadAccumulator k acc buf) s = .next (t.respond q 0#64 []) ∧ SameBut s t buf 4096
          ∧ ∀ j, j < 1024 → t.mem.w32 (buf + 4 * j) = Table.getD g.regs.acc (1024 * acc.toNat + j) 0#32))
    ∧ (∀ k tile buf g top, Asked s q 0x0033 (opWords [6, k] ++ leBytes 1 (BitVec.toNat tile) ++ opWords [buf]) → Table.get? s.groups k = some g →
      s.dbg.attached = some top → s.under top (s.regionOf g) = true →
      g.ctl.act = .parked → g.id.walker = false → g.ctl.dead = false → s.spanOk buf 2176 = true → buf % 8 = 0 →
      ((∃ c ∈ g.fl.cmds, c.namesTile tile.toNat = true) → s.tileRead k tile buf = .next (s.respond q 2#64 []))
      ∧ ((∀ c ∈ g.fl.cmds, c.namesTile tile.toNat = false) → Quiet s → s.spoilt buf 2176 true = none →
        ∃ t : State, s.tileRead k tile buf = .next (t.respond q 0#64 []) ∧ SameBut s t buf 2176
          ∧ (∀ j, j < 2048 → t.mem.byte (buf + j) = Table.getD g.regs.tiles (2048 * tile.toNat + j) 0#8)
          ∧ ∀ j, j < 128 → t.mem.byte (buf + 2048 + j) = Table.getD g.regs.scales (128 * tile.toNat + j) 0#8))
    ∧ (Asked s q 0x0033 (opWords [5]) → s.dbg.attached = none → exec .debugDetach s = .next no)
    ∧ (Asked s q 0x0033 (opWords [5]) → s.dbg.attached ≠ none → ∃ t : State, exec .debugDetach s = .next (t.respond q 0#64 [])
      ∧ { t with dbg := s.dbg, groups := s.groups } = s ∧ t.dbg = { s.dbg with attached := none, comparators := [] }
      ∧ ∀ k g, Table.get? s.groups k = some g → Table.get? t.groups k = some
        (if g.ctl.stopped = true ∧ g.ctl.cause = .debug ∧ g.id.walker = false ∧ g.ctl.dead = false then
          { g with ctl := { g.ctl with
            stopped := false, stepping := false, cause := .resumed, uncompared := g.ctl.uncompared ||| g.tr.st.mask } }
        else if g.ctl.stopped = true then
          { g with ctl := { g.ctl with stopped := false, uncompared := g.ctl.uncompared ||| g.tr.st.mask } } else g))

/-- R407: a freeze stops the issue of every group and answers when every started command stands, and a command that has come to a wait for
another party stays there until the thaw; a dump answers when every group is
parked, with the state in the buffer; a thaw lets all go on. Outside a freeze, dump and thaw return 1. The layout of the dump is the
model's (log 39). -/
def Claims.Freezing : Prop :=
  ∀ (s : State) (q : Request),
    let no := s.respond q 1#64 []
    (∀ u : State, u.dbg.frozen = true → ∀ g, u.mayIssue g = false
      ∧ ∀ c, (c.started = false ∨ c.stamp ∈ u.dbg.halted) → u.engineRuns g c = false)
    ∧ (∀ k g c, s.dbg.frozen = true → (k, g) ∈ s.groups → c ∈ g.fl.cmds → c.started = true → s.waitsForParty k g c = true →
      c.stamp ∈ s.noteHalts.dbg.halted)
    ∧ (Asked s q 0x0034 (opWords [0]) → (∀ p ∈ s.groups, ∀ c ∈ p.2.fl.cmds, c.started = false) → exec .freeze s =
      .next (({ s with dbg := { s.dbg with frozen := true, freezing := false } } : State).respond q 0#64 []))
    ∧ (∀ buf, Asked s q 0x0034 (opWords [1, buf]) → s.dbg.frozen = false → exec (.freezeDump buf) s = .next no)
    ∧ (∀ buf, Asked s q 0x0034 (opWords [1, buf]) → s.dbg.frozen = true → s.dbg.freezing = false →
      ((∃ p ∈ s.groups, p.2.id.walker = false ∧ p.2.ctl.dead = false ∧ p.2.ctl.act ≠ .parked) →
        ∃ t : State, exec (.freezeDump buf) s = .next t ∧ { t with groups := s.groups, dbg := s.dbg } = s
          ∧ ∀ k g, Table.get? s.groups k = some g → Table.get? t.groups k = some
            (if g.id.walker = false ∧ g.ctl.dead = false ∧ g.ctl.act = .active then
              { g with ctl := { g.ctl with act := .parking, cause := .debug } } else g))
      ∧ ((∀ p ∈ s.groups, p.2.id.walker = true ∨ p.2.ctl.dead = true ∨ p.2.ctl.act = .parked) → Quiet s → buf % 8 = 0 →
        s.spanOk buf s.dumpBytes.length = true → s.spoilt buf s.dumpBytes.length true = none →
        ∃ t : State, exec (.freezeDump buf) s = .next (t.respond q 0#64 []) ∧ SameBut s t buf s.dumpBytes.length
          ∧ t.mem.w64 buf = BitVec.ofNat 64 (s.groups.filter fun p => !p.2.id.walker && !p.2.ctl.dead).length
          ∧ t.mem.w64 (buf + 8) = BitVec.ofNat 64 s.disp.queues.length ∧ t.mem.w64 (buf + 16) = BitVec.ofNat 64 s.regions.length))
    ∧ (Asked s q 0x0034 (opWords [2]) → s.dbg.frozen = false → exec .freezeThaw s = .next no)
    ∧ (Asked s q 0x0034 (opWords [2]) → s.dbg.frozen = true → ∃ t : State, exec .freezeThaw s = .next (t.respond q 0#64 [])
      ∧ { t with groups := s.groups, dbg := s.dbg } = s
      ∧ t.dbg = { s.dbg with frozen := false, freezing := false, dumping := none, halted := [] }
      ∧ ∀ k g, Table.get? s.groups k = some g → Table.get? t.groups k = some
        (if g.ctl.cause = .debug ∧ g.ctl.stopped = false then { g with ctl := { g.ctl with cause := .none } } else g))

/-- R409, R410, R416: a region goes into record mode with its watched words and an empty log, or into replay mode with its gate armed by
one script entry for each access of the log's runs, over every watched word; the end writes status 1 for a recording that was not over. Refusals are the model's
(log 40). -/
def Claims.RecordAndReplay : Prop :=
  ∀ (s : State) (q : Request) (rcb : Nat) (R : Region), Table.get? s.regions rcb = some R →
    let no := s.respond q 1#64 []
    let asks := fun (which : Nat) (list : BitVec 64) (count : Nat) (log : BitVec 64) (bytes : Nat) =>
      Asked s q 0x0035 (opWords [which, rcb, list.toNat, count, log.toNat, bytes])
    (∀ list count log bytes, s.replayOk rcb count log bytes = false →
      (asks 1 list count log bytes → exec (.replayRecord rcb list count log bytes) s = .next no)
      ∧ (asks 2 list count log bytes → exec (.replayArm rcb list count log bytes) s = .next no))
    ∧ (∀ list count log bytes ws, s.replayOk rcb count log bytes = true → s.watchWords rcb list count = some ws →
      (asks 1 list count log bytes → ∃ t : State, exec (.replayRecord rcb list count log bytes) s = .next (t.respond q 0#64 [])
        ∧ (let c : Recorder := { watch := ws, log := log, bytes := bytes, slot := s.currentSlot (s.slotHolder rcb)
                                 holder := s.slotHolder rcb, entries := 0, status := 0, open_ := [] }
           Table.get? t.regions rcb = some { R with recorder := some c })
        ∧ (∀ j, j ≠ rcb → Table.get? t.regions j = Table.get? s.regions j)
        ∧ ∀ x, t.mem.byte x ≠ s.mem.byte x → t.mem.byte x = 0#8)
      ∧ ∀ hd es status, asks 2 list count log bytes → s.vaBytes rcb log 64 = some hd → fieldAt hd 8 8 = 1 → fieldAt hd 16 48 = 0 →
        64 + 32 * fieldAt hd 0 8 ≤ bytes →
        s.readLog rcb log (fieldAt hd 0 8) 0 = some es → logFits es count = true → s.vaPa rcb 1 (log + 8#64) = some status →
        s.spoilt status 8 true = none → R.gate = none → (∃ e ∈ es, e.retires = false) →
        ∃ (t : State) (R' : Region) (g : Gate), exec (.replayArm rcb list count log bytes) s = .next (t.respond q 0#64 [])
          ∧ Table.get? t.regions rcb = some R' ∧ R' = { R with gate := some g, replay := R'.replay }
          ∧ R'.replay = some ((es.filter fun e => e.retires).map fun e => (e.group, e.hash))
          ∧ g.status = status ∧ g.replay = true ∧ g.unscripted = 0 ∧ (∀ x, x ∈ g.words ↔ x ∈ ws) ∧ t.mem.w64 status = 0#64 ∧ SameBut s t status 8
          ∧ g.script.map (fun e => (e.word, e.group, e.lane, e.ordinal)) =
            (es.filter fun e => !e.retires).flatMap fun e =>
              (List.range e.run).map fun j => (ws.getD e.word 0, e.group, e.lane, e.ordinal + j))
    ∧ (Asked s q 0x0035 (opWords [3, rcb]) → R.recorder = none → R.replay = none → exec (.replayEnd rcb) s = .next no)
    ∧ (∀ c, Asked s q 0x0035 (opWords [3, rcb]) → R.recorder = some c → ∃ t : State, exec (.replayEnd rcb) s = .next (t.respond q 0#64 [])
      ∧ Table.get? t.regions rcb = some { R with recorder := none }
      ∧ (c.status ≠ 0 → SameBytes s t)
      ∧ (c.status = 0 → ∀ p, s.logPa rcb c 8 = some p → s.spoilt p 8 true = none → t.mem.w64 p = 1#64 ∧ SameBut s t p 8))
    ∧ (∀ e, Asked s q 0x0035 (opWords [3, rcb]) → R.recorder = none → R.replay = some e → R.gate = none → ∃ t : State, exec (.replayEnd rcb) s = .next (t.respond q 0#64 [])
      ∧ { t with regions := s.regions } = s ∧ Table.get? t.regions rcb = some { R with replay := none })

/-- R13, R26, R28, R305, R403 to R410, R416: timers of issue, the gate's timeout, debugging, freezing, recording and replay. -/
def Obligations.TimersDebugAndReplay : Prop :=
  Claims.ProgressPromise ∧ Claims.WatchdogTrap ∧ Claims.ComparatorMatch ∧ Claims.GateTimeout ∧ Claims.Debugger ∧ Claims.Freezing
    ∧ Claims.RecordAndReplay

/-! ## Profiling, the fabric, time, power and errors (24: R393 to R402; 23: R388 to R390; 01: R31; 25: R414) -/

/-- R393, R394: PROFILE gives a partition its memory, takes it away, or returns 1 and changes nothing. That the first interval begins when the
first partition gets its memory is the model's (log 41). -/
def Claims.ProfileMemory : Prop :=
  ∀ (s : State) (q : Request) (part snap ctl ring bytes : Nat), Asked s q 0x0032 (opWords [part, snap, ctl, ring, bytes]) →
    let fits := fun (a n : Nat) => a % 65536 = 0 ∧ s.spanOk a n = true
    let good := part < 64 ∧ fits snap 65536 ∧ fits ctl 65536 ∧ fits ring bytes ∧ bytes % 65536 = 0 ∧ 65536 ≤ bytes ∧ bytes ≤ 0x4000000
    let zero := snap = 0 ∧ ctl = 0 ∧ ring = 0 ∧ bytes = 0
    (¬ good → (part < 64 → ¬ zero) → exec (.profile part snap ctl ring bytes) s = .next (s.respond q 1#64 []))
    ∧ (part < 64 → zero → ∃ t : State, exec (.profile part snap ctl ring bytes) s = .next (t.respond q 0#64 [])
      ∧ { t with prof := s.prof } = s ∧ Table.get? t.prof.parts part = none
      ∧ ∀ j, j ≠ part → Table.get? t.prof.parts j = Table.get? s.prof.parts j)
    ∧ (good → ¬ zero → ∃ (t : State) (p : Partition), exec (.profile part snap ctl ring bytes) s = .next (t.respond q 0#64 [])
      ∧ { t with prof := s.prof } = s ∧ Table.get? t.prof.parts part = some p ∧ p.snap = snap ∧ p.ctl = ctl ∧ p.ring = ring
      ∧ p.bytes = bytes ∧ p.writeIndex = 0 ∧ p.lost = 0 ∧ p.strokes = [] ∧ p.counts = [] ∧ (∀ b, p.on b = false)
      ∧ (s.prof.parts = [] → t.prof.started = s.clk.cycle ∧ t.prof.index = s.clk.time / 10000)
      ∧ (s.prof.parts ≠ [] → t.prof.started = s.prof.started ∧ t.prof.index = s.prof.index)
      ∧ ∀ j, j ≠ part → Table.get? t.prof.parts j = Table.get? s.prof.parts j)

/-- R394, R400: at the end of an interval the snapshot frame gets its versions, the time, the ring's counts, the selectors' counts and the
stroke sums, and the partition takes the control frame's values for the next interval (stated for one partition that counted nothing in
the interval, and whose frames the homes take and give). The sums are kept for each selector (log 73). -/
def Claims.IntervalEnds : Prop :=
  ∀ (s : State) (k : Nat) (p : Partition), (∀ a n, p.snap ≤ a → a + n ≤ p.snap + 65536 → Takes s a n) → Gives s p.ctl 4096 →
    let fin := 10000 * (s.prof.index + 1)
    (s.clk.time < fin ∨ s.prof.parts = [] → exec .profilingInterval s = .next s)
    ∧ (fin ≤ s.clk.time → s.prof.parts = [(k, p)] → p.on 0 = false → ∃ (t : State) (p' : Partition),
      exec .profilingInterval s = .next t ∧ t.prof.parts = [(k, p')] ∧ t.prof.started = s.clk.cycle ∧ t.prof.index = s.prof.index + 1
      ∧ SameBut s t p.snap 65536
      ∧ t.mem.w64 p.snap = BitVec.ofNat 64 (p.version + 2) ∧ t.mem.w64 (p.snap + 0xFFF8) = BitVec.ofNat 64 (p.version + 2)
      ∧ t.mem.w64 (p.snap + 0x08) = BitVec.ofNat 64 fin ∧ t.mem.w64 (p.snap + 0x10) = BitVec.ofNat 64 p.writeIndex
      ∧ t.mem.w64 (p.snap + 0x18) = BitVec.ofNat 64 p.lost ∧ t.mem.w64 (p.snap + 0x20) = BitVec.ofNat 64 p.lostSlots
      ∧ t.mem.w64 (p.snap + 0x28) = BitVec.ofNat 64 p.rejected.toNat
      ∧ (∀ j, j < 32 → let key := selectorKey (j, p.events.getD j 0)
        let shown := fun (t : Table Nat) => if p.events.getD j 0 = 0 then 0#64 else BitVec.ofNat 64 (Table.getD t key 0)
        t.mem.w64 (p.snap + 0x40 + 24 * j) = shown p.counts ∧ t.mem.w64 (p.snap + 0x48 + 24 * j) = shown p.enabledTime
        ∧ t.mem.w64 (p.snap + 0x50 + 24 * j) = shown p.countedTime)
      ∧ (∀ j, j < 680 → t.mem.w64 (p.snap + 0x400 + 8 * j) = BitVec.ofNat 64 (Table.getD p.strokes j 0))
      ∧ p'.version = p.version + 2
      ∧ (let b := t.mem.bytes p.ctl 4096
         (frameBad b = true → p'.rejected = true ∧ ∀ n, p'.on n = false)
         ∧ (frameBad b = false → p'.rejected = false ∧ p'.enable.toNat = fieldAt b 0 8 ∧ p'.period = fieldAt b 8 4
           ∧ p'.rate = fieldAt b 12 1 ∧ p'.readIndex = fieldAt b 0x10 8 ∧ p'.events = (List.range 32).map fun j => fieldAt b (0x90 + 2 * j) 2)))

/-- R397, R401, R402: a core that owes a sample takes one of the next group of the partition: a record of 48 bytes stands at the write
index of the ring, with the set's PC and lanes and the first reason that applies; without room it counts as lost. -/
def Claims.SampleTaken : Prop :=
  ∀ (s : State) (core part due k : Nat) (g : Group) (p : Partition), s.owesSample core part = some due →
    s.nextSample core part = some (k, g) → Table.get? s.prof.parts part = some p →
    s.spoilt (p.ring + 48 * (p.writeIndex % (p.bytes / 48))) 48 true = none →
    (p.writeIndex - p.readIndex < p.bytes / 48 → g.ctl.cur &&& g.live ≠ 0#32 →
      let r := p.ring + 48 * (p.writeIndex % (p.bytes / 48))
      let set := g.ctl.cur &&& g.live
      ∃ (t : State) (p' : Partition), exec (.pcSample core part) s = .next t ∧ SameBut s t r 48
        ∧ Table.get? t.prof.parts part = some p' ∧ p' = { p with writeIndex := p.writeIndex + 1 }
        ∧ t.mem.w64 r = BitVec.ofNat 64 s.clk.time ∧ t.mem.w64 (r + 0x10) = BitVec.ofNat 64 (s.regionOf g)
        ∧ t.mem.byte (r + 0x18) = 1#8 ∧ t.mem.w64 (r + 0x20) = g.pc ((lanesOf set).headD 0)
        ∧ t.mem.w64 (r + 0x28) = BitVec.ofNat 64 (set.toNat + 2 ^ 32 * (g.id.grpid % 16))
        ∧ (g.ctl.issuedAt = some s.clk.cycle → t.mem.nat (r + 0x1A) 2 = 0)
        ∧ (g.ctl.issuedAt ≠ some s.clk.cycle → g.ctl.act ≠ .active → t.mem.nat (r + 0x1A) 2 = 9))
    ∧ (p.bytes / 48 ≤ p.writeIndex - p.readIndex → ∃ (t : State), exec (.pcSample core part) s = .next t ∧ SameBytes s t
      ∧ Table.get? t.prof.parts part = some { p with lost := p.lost + 1 })

/-- R388, R268: a port comes up only for the device that the record names, with its identity and its exchange; else it is logged. After 2^32
frames its key is renewed. The loss of a port to a device fails the accesses in flight to it, those of SLEEP too; the loss of the last one
ends the collectives that have a rank there with code 0x0A (stated without engine commands). -/
def Claims.Ports : Prop :=
  ∀ (s : State) (port : Nat),
    (∀ peer, port < 36 → s.host.dev = .running → Table.get? s.fab.ports port = none →
      (s.expectedPeer port = some peer → exec (.portBringUp port peer true) s =
        .next { s with fab := { s.fab with ports := Table.set s.fab.ports port ⟨0, 0⟩ } })
      ∧ ∀ ok, ok = false ∨ s.expectedPeer port ≠ some peer → s.fab.violations.length < 4096 →
        ∃ (t : State) (v : Violation), exec (.portBringUp port peer ok) s = .next t ∧ t.fab.ports = s.fab.ports
          ∧ t.fab.violations = s.fab.violations ++ [v] ∧ v.time = BitVec.ofNat 64 s.clk.time)
    ∧ (∀ n, Table.get? s.fab.ports port = some n →
      (n.frames < 2 ^ 32 → exec (.linkKeyRenewal port) s = .next s)
      ∧ (2 ^ 32 ≤ n.frames → exec (.linkKeyRenewal port) s =
        .next { s with fab := { s.fab with ports := Table.set s.fab.ports port ⟨0, n.renewals + 1⟩ } }))
    ∧ (Table.get? s.fab.ports port = none → exec (.portLoss port) s = .next s)
    ∧ ∀ n dev, Table.get? s.fab.ports port = some n → s.expectedPeer port = some dev → (∀ p ∈ s.groups, p.2.fl.cmds = []) →
      let u : State := { s with fab := { s.fab with ports := Table.erase s.fab.ports port } }
      (∀ p ∈ u.fab.ports, s.expectedPeer p.1 ≠ some dev) →
      (s.inFlightTo dev = [] → s.sleepsTo dev = [] → exec (.portLoss port) s =
        .next { u with colls := s.colls.map fun c => if s.rankOn c dev = true ∧ c.failed = none then { c with failed := some 0x0A } else c })
      ∧ (∀ k seq i, s.inFlightTo dev = [(k, seq, i)] → s.sleepsTo dev = [] → ∃ t : State, exec (.portLoss port) s = .next t
        ∧ t.groups = (u.performAt k seq i (.error .access)).groups ∧ t.mem = (u.performAt k seq i (.error .access)).mem)
      ∧ ∀ k seq, s.inFlightTo dev = [] → s.sleepsTo dev = [(k, seq)] → ∃ t : State, exec (.portLoss port) s = .next t
        ∧ t.groups = (u.loseSleep k seq).groups ∧ t.mem = (u.loseSleep k seq).mem

/-- R389, R390, R380, R31: a reference counts from an up port that the record gives PTP, in the record's domain; TIME never goes back and steps
forward past 1 ms; without a reference STATUS bit 3 is set; aclk steps by 25 MHz down to 400 while the power has reached the record's cap
(2.0 kW without a record) or the junction 105 degrees; at 115 degrees every region is killed and the device halts; a window of the shares
ends after 4,096 aclk, not before, and the next begins with no use. The step back up is the model's (log 42). -/
def Claims.TimeAndPower : Prop :=
  ∀ (s : State),
    let carries := fun (m : PtpMessage) => ∃ c, s.boot.settings = some c ∧ m.port < 36 ∧ c.ptpPorts.getLsbD m.port = true
      ∧ c.ptpDomain = m.domain ∧ (Table.get? s.fab.ports m.port).isSome = true
    let hot := fun (r : PowerReading) =>
      100 * (match s.boot.settings with | none => 20 | some c => c.powerCap) ≤ r.watts ∨ 105 ≤ r.celsius
    (∀ m, ¬ carries m → exec (.ptpEvent m) s = .next s)
    ∧ (∀ m, carries m → s.clk.time < 2 ^ 64 → ∃ t : State, exec (.ptpEvent m) s = .next t ∧ t.clk.reference = true ∧ t.host.timeUnlocked = false
      ∧ s.clk.time ≤ t.clk.time ∧ (s.clk.time + 1000000 < m.reference → m.reference < 2 ^ 64 → t.clk.time = m.reference)
      ∧ (m.reference ≤ s.clk.time + 1000000 → t.clk.time = s.clk.time))
    ∧ (∃ t : State, exec .ptpReferenceLoss s = .next t ∧ t.clk = { s.clk with reference := false }
      ∧ { t.host with timeUnlocked := s.host.timeUnlocked } = s.host ∧ t.host.status.getLsbD 3 = true ∧ { t with clk := s.clk, host := s.host } = s)
    ∧ (∀ r, hot r → exec (.powerThrottle r) s = .next { s with clk := { s.clk with mhz := max 400 (s.clk.mhz - 25) } })
    ∧ (∀ r, ¬ hot r → exec (.powerThrottle r) s = .next { s with clk := { s.clk with mhz := min 800 (s.clk.mhz + 25) } })
    ∧ (∀ c, c < 115 → exec (.thermalHalt c) s = .next s)
    ∧ (∀ c, 115 ≤ c → ∃ t : State, exec (.thermalHalt c) s = .next t ∧ t.host.dev = .halted ∧ SameBytes s t
      ∧ (∀ k R, Table.get? s.regions k = some R → R.parent = 0 → ∃ R', Table.get? t.regions k = some R' ∧ R'.killed = true)
      ∧ ∀ k l top, Table.get? s.launches k = some l → top ∈ s.regions.map Prod.fst → (s.regions.all fun p => p.2.parent == 0) = true →
        s.under top l.region = true → ∃ l', Table.get? t.launches k = some l' ∧ l'.killed = true)
    ∧ (s.clk.cycle < s.clk.window + 4096 → exec .shareWindowEnd s = .next s)
    ∧ (s.clk.window + 4096 ≤ s.clk.cycle → ∃ t : State, exec .shareWindowEnd s = .next t ∧ { t with regions := s.regions, clk := s.clk } = s
      ∧ { t.clk with window := s.clk.window } = s.clk ∧ t.clk.window % 4096 = s.clk.window % 4096 ∧ t.clk.window ≤ s.clk.cycle
      ∧ s.clk.cycle < t.clk.window + 4096
      ∧ ∀ k R, Table.get? s.regions k = some R → Table.get? t.regions k = some { R with matrixUse := 0, cxlUse := [] })

/-- R414: an uncorrectable error retires the core or the cluster, and every gang on it is parked by force and due to be resumed; when no
cluster can take such a gang, the fault domain of its region decides, as R32 has it. The launch windows of a retired cluster move to a
replacement with their contents, and the bindings that named the cluster name the replacement (which cluster that is: log 34; where the
windows lie: log 7). -/
def Claims.UnitRetired : Prop :=
  ∀ (s : State) (cluster : Nat), cluster < 320 → (s.gangs.map Prod.fst).Nodup →
    let forced := fun (a : Gang) => { a with preempt := if a.preempt = .parked then .parked else .forced, again := true, displaced := true }
    let placeable := fun (u : State) (hit : Gang → Prop) => ∀ e ∈ s.gangs, (hit e.2 ∨ e.2.displaced = true) →
      u.stranded { e.2 with displaced := true } = false
    (∀ j, j < 4 → placeable (s.modCore (4 * cluster + j) fun c => { c with retired := true }) (fun a => 4 * cluster + j ∈ a.cores) → ∃ t : State, exec (.uncorrectableError cluster (some j)) s = .next t ∧ (t.core (4 * cluster + j)).retired = true
      ∧ { t with cores := s.cores, gangs := s.gangs } = s
      ∧ ∀ k a, Table.get? s.gangs k = some a →
        Table.get? t.gangs k = some (if 4 * cluster + j ∈ a.cores then forced a else a))
    ∧ (s.windowHolders cluster = [] → placeable (s.modCluster cluster fun c => { c with retired := true }) (fun a => a.cluster = cluster) →
      ∃ t : State, exec (.uncorrectableError cluster none) s = .next t
      ∧ (t.cluster cluster).retired = true ∧ { t with clusters := s.clusters, gangs := s.gangs } = s
      ∧ ∀ k a, Table.get? s.gangs k = some a → Table.get? t.gangs k = some (if a.cluster = cluster then forced a else a))
    ∧ (∀ k a, s.gangs = [(k, a)] → a.cluster = cluster → s.windowHolders cluster = [] →
      let u := s.modCluster cluster fun c => { c with retired := true }
      u.stranded { a with displaced := true } = true →
      let v : State := { u with gangs := [(k, forced a)] }
      exec (.uncorrectableError cluster none) s = .next (match s.faultDomain (s.gangRegion a) with
        | 0 => v.killRegion (s.gangRegion a)
        | 1 => v.suspendRegion (s.gangRegion a)
        | _ => v.notice (noticeBytes 3 (s.gangRegion a) 0 0)))
    ∧ ∀ k l to_ n, s.windowHolders cluster = [k] → Table.get? s.launches k = some l → Table.get? l.windows cluster = some n →
      to_ ≠ cluster → s.mem.wf = true → (∀ e ∈ s.gangs, e.2.cluster ≠ cluster ∧ e.2.displaced = false) →
      (s.modCluster cluster fun c => { c with retired := true }).replacement cluster = some to_ →
      (∀ x, x < 2 ^ 24 → s.mem.byte (launchWindowAt k to_ + x) = 0#8) →
      ∃ (t : State) (l' : Launch), exec (.uncorrectableError cluster none) s = .next t ∧ (t.cluster cluster).retired = true
        ∧ Table.get? t.launches k = some l' ∧ Table.get? l'.windows to_ = some n ∧ Table.get? l'.windows cluster = none
        ∧ (∀ x, x < 2 ^ 24 → t.mem.byte (launchWindowAt k to_ + x) = s.mem.byte (launchWindowAt k cluster + x))
        ∧ ∀ j b, Table.get? l.binding j = some b → ∃ b', Table.get? l'.binding j = some b'
          ∧ (bindKind b = 1 → bindTarget b = cluster → bindKind b' = 1 ∧ bindTarget b' = to_ % 2 ^ 24 ∧ b' &&& ~~~ 0xFFFFFF00#64 = b &&& ~~~ 0xFFFFFF00#64)
          ∧ (bindKind b ≠ 1 ∨ bindTarget b ≠ cluster → b' = b)

/-- R31, R268, R388 to R390, R393, R394, R397, R400 to R402, R414: profiling, the fabric, time, power, shares and errors. -/
def Obligations.ProfilingFabricAndErrors : Prop :=
  Claims.ProfileMemory ∧ Claims.IntervalEnds ∧ Claims.SampleTaken ∧ Claims.Ports ∧ Claims.TimeAndPower ∧ Claims.UnitRetired

end
end

