-- ==== Sys2Proof/Laws/Exec.lean ====
section
/-!
SUPPORT. The meaning that exec gives each instruction, one equation per constructor, so that no proof unfolds the dispatch.
-/

-- One declaration after another, as in PerInstr.lean.
set_option Elab.async false

namespace Sys2Proof.Machine

theorem exec_iadd : ∀ g d a b s, exec (.iadd g d a b) s = execIadd g d a b s := by intros; rfl
theorem exec_iaddi : ∀ g d a imm s, exec (.iaddi g d a imm) s = execIaddi g d a imm s := by intros; rfl
theorem exec_isub : ∀ g d a b s, exec (.isub g d a b) s = execIsub g d a b s := by intros; rfl
theorem exec_iadc : ∀ g d a b s, exec (.iadc g d a b) s = execIadc g d a b s := by intros; rfl
theorem exec_isbb : ∀ g d a b s, exec (.isbb g d a b) s = execIsbb g d a b s := by intros; rfl
theorem exec_imul : ∀ g d a b s, exec (.imul g d a b) s = execImul g d a b s := by intros; rfl
theorem exec_imulh : ∀ g d a b s, exec (.imulh g d a b) s = execImulh g d a b s := by intros; rfl
theorem exec_imulhu : ∀ g d a b s, exec (.imulhu g d a b) s = execImulhu g d a b s := by intros; rfl
theorem exec_imad : ∀ g d a b s, exec (.imad g d a b) s = execImad g d a b s := by intros; rfl
theorem exec_imin : ∀ g d a b s, exec (.imin g d a b) s = execImin g d a b s := by intros; rfl
theorem exec_imax : ∀ g d a b s, exec (.imax g d a b) s = execImax g d a b s := by intros; rfl
theorem exec_iminu : ∀ g d a b s, exec (.iminu g d a b) s = execIminu g d a b s := by intros; rfl
theorem exec_imaxu : ∀ g d a b s, exec (.imaxu g d a b) s = execImaxu g d a b s := by intros; rfl
theorem exec_iabs : ∀ g d a s, exec (.iabs g d a) s = execIabs g d a s := by intros; rfl
theorem exec_ineg : ∀ g d a s, exec (.ineg g d a) s = execIneg g d a s := by intros; rfl
theorem exec_rng : ∀ g d a s, exec (.rng g d a) s = execRng g d a s := by intros; rfl
theorem exec_movi : ∀ g d imm s, exec (.movi g d imm) s = execMovi g d imm s := by intros; rfl
theorem exec_movhi : ∀ g d imm s, exec (.movhi g d imm) s = execMovhi g d imm s := by intros; rfl
theorem exec_andL : ∀ g d a b s, exec (.andL g d a b) s = execAndL g d a b s := by intros; rfl
theorem exec_orL : ∀ g d a b s, exec (.orL g d a b) s = execOrL g d a b s := by intros; rfl
theorem exec_xorL : ∀ g d a b s, exec (.xorL g d a b) s = execXorL g d a b s := by intros; rfl
theorem exec_andn : ∀ g d a b s, exec (.andn g d a b) s = execAndn g d a b s := by intros; rfl
theorem exec_shl : ∀ g d a b s, exec (.shl g d a b) s = execShl g d a b s := by intros; rfl
theorem exec_shr : ∀ g d a b s, exec (.shr g d a b) s = execShr g d a b s := by intros; rfl
theorem exec_sar : ∀ g d a b s, exec (.sar g d a b) s = execSar g d a b s := by intros; rfl
theorem exec_rol : ∀ g d a b s, exec (.rol g d a b) s = execRol g d a b s := by intros; rfl
theorem exec_bfx : ∀ g d a b s, exec (.bfx g d a b) s = execBfx g d a b s := by intros; rfl
theorem exec_bfxu : ∀ g d a b s, exec (.bfxu g d a b) s = execBfxu g d a b s := by intros; rfl
theorem exec_bfi : ∀ g d a b s, exec (.bfi g d a b) s = execBfi g d a b s := by intros; rfl
theorem exec_popc : ∀ g d a s, exec (.popc g d a) s = execPopc g d a s := by intros; rfl
theorem exec_clz : ∀ g d a s, exec (.clz g d a) s = execClz g d a s := by intros; rfl
theorem exec_ctz : ∀ g d a s, exec (.ctz g d a) s = execCtz g d a s := by intros; rfl
theorem exec_brev : ∀ g d a s, exec (.brev g d a) s = execBrev g d a s := by intros; rfl
theorem exec_sel : ∀ c d a b s, exec (.sel c d a b) s = execSel c d a b s := by intros; rfl
theorem exec_cvtsr : ∀ form d a b s, exec (.cvtsr form d a b) s = execCvtsr form d a b s := by intros; rfl
theorem exec_icmp : ∀ g cd wide a b s, exec (.icmp g cd wide a b) s = execIcmp g cd wide a b s := by intros; rfl
theorem exec_itst : ∀ g cd wide a b s, exec (.itst g cd wide a b) s = execItst g cd wide a b s := by intros; rfl
theorem exec_fcmp : ∀ g cd a b s, exec (.fcmp g cd a b) s = execFcmp g cd a b s := by intros; rfl
theorem exec_dcmp : ∀ g cd a b s, exec (.dcmp g cd a b) s = execDcmp g cd a b s := by intros; rfl
theorem exec_cmov : ∀ g cd cj s, exec (.cmov g cd cj) s = execCmov g cd cj s := by intros; rfl
theorem exec_cmovV : ∀ g cd a s, exec (.cmovV g cd a) s = execCmovV g cd a s := by intros; rfl
theorem exec_cmovI : ∀ g cd imm s, exec (.cmovI g cd imm) s = execCmovI g cd imm s := by intros; rfl
theorem exec_cmovR : ∀ g a s, exec (.cmovR g a) s = execCmovR g a s := by intros; rfl
theorem exec_iaddmin : ∀ g d a b s, exec (.iaddmin g d a b) s = execIaddmin g d a b s := by intros; rfl
theorem exec_iaddmax : ∀ g d a b s, exec (.iaddmax g d a b) s = execIaddmax g d a b s := by intros; rfl
theorem exec_faddmin : ∀ g d a b s, exec (.faddmin g d a b) s = execFaddmin g d a b s := by intros; rfl
theorem exec_addw : ∀ g d a b s, exec (.addw g d a b) s = execAddw g d a b s := by intros; rfl
theorem exec_subw : ∀ g d a b s, exec (.subw g d a b) s = execSubw g d a b s := by intros; rfl
theorem exec_shlw : ∀ g d a b s, exec (.shlw g d a b) s = execShlw g d a b s := by intros; rfl
theorem exec_shrw : ∀ g d a b s, exec (.shrw g d a b) s = execShrw g d a b s := by intros; rfl
theorem exec_sarw : ∀ g d a b s, exec (.sarw g d a b) s = execSarw g d a b s := by intros; rfl
theorem exec_mulw : ∀ g d a b s, exec (.mulw g d a b) s = execMulw g d a b s := by intros; rfl
theorem exec_badd : ∀ g d a b s, exec (.badd g d a b) s = execBadd g d a b s := by intros; rfl
theorem exec_bfma : ∀ g d a b s, exec (.bfma g d a b) s = execBfma g d a b s := by intros; rfl
theorem exec_idivI32 : ∀ d a b la s, exec (.idivI32 d a b la) s = execIdivI32 d a b la s := by intros; rfl
theorem exec_idivN32 : ∀ d a b la s, exec (.idivN32 d a b la) s = execIdivN32 d a b la s := by intros; rfl
theorem exec_iremI32 : ∀ d a b la s, exec (.iremI32 d a b la) s = execIremI32 d a b la s := by intros; rfl
theorem exec_iremN32 : ∀ d a b la s, exec (.iremN32 d a b la) s = execIremN32 d a b la s := by intros; rfl
theorem exec_fdiv : ∀ d a b la s, exec (.fdiv d a b la) s = execFdiv d a b la s := by intros; rfl
theorem exec_fsqrt : ∀ d a la s, exec (.fsqrt d a la) s = execFsqrt d a la s := by intros; rfl
theorem exec_frcp : ∀ d a la s, exec (.frcp d a la) s = execFrcp d a la s := by intros; rfl
theorem exec_frsq : ∀ d a la s, exec (.frsq d a la) s = execFrsq d a la s := by intros; rfl
theorem exec_fexp2 : ∀ d a la s, exec (.fexp2 d a la) s = execFexp2 d a la s := by intros; rfl
theorem exec_flog2 : ∀ d a la s, exec (.flog2 d a la) s = execFlog2 d a la s := by intros; rfl
theorem exec_fsin : ∀ d a la s, exec (.fsin d a la) s = execFsin d a la s := by intros; rfl
theorem exec_fcos : ∀ d a la s, exec (.fcos d a la) s = execFcos d a la s := by intros; rfl
theorem exec_ddiv : ∀ d a b la s, exec (.ddiv d a b la) s = execDdiv d a b la s := by intros; rfl
theorem exec_dsqrt : ∀ d a la s, exec (.dsqrt d a la) s = execDsqrt d a la s := by intros; rfl
theorem exec_aaddN64 : ∀ d a bs sc la ord s, exec (.aaddN64 d a bs sc la ord) s = execAaddN64 d a bs sc la ord s := by intros; rfl
theorem exec_aminI64 : ∀ d a bs sc la ord s, exec (.aminI64 d a bs sc la ord) s = execAminI64 d a bs sc la ord s := by intros; rfl
theorem exec_amaxI64 : ∀ d a bs sc la ord s, exec (.amaxI64 d a bs sc la ord) s = execAmaxI64 d a bs sc la ord s := by intros; rfl
theorem exec_aminN64 : ∀ d a bs sc la ord s, exec (.aminN64 d a bs sc la ord) s = execAminN64 d a bs sc la ord s := by intros; rfl
theorem exec_amaxN64 : ∀ d a bs sc la ord s, exec (.amaxN64 d a bs sc la ord) s = execAmaxN64 d a bs sc la ord s := by intros; rfl
theorem exec_aandN64 : ∀ d a bs sc la ord s, exec (.aandN64 d a bs sc la ord) s = execAandN64 d a bs sc la ord s := by intros; rfl
theorem exec_aorN64 : ∀ d a bs sc la ord s, exec (.aorN64 d a bs sc la ord) s = execAorN64 d a bs sc la ord s := by intros; rfl
theorem exec_axorN64 : ∀ d a bs sc la ord s, exec (.axorN64 d a bs sc la ord) s = execAxorN64 d a bs sc la ord s := by intros; rfl
theorem exec_ldI8 : ∀ g d a bs la s, exec (.ldI8 g d a bs la) s = execLdI8 g d a bs la s := by intros; rfl
theorem exec_ldN8 : ∀ g d a bs la s, exec (.ldN8 g d a bs la) s = execLdN8 g d a bs la s := by intros; rfl
theorem exec_ldI16 : ∀ g d a bs la s, exec (.ldI16 g d a bs la) s = execLdI16 g d a bs la s := by intros; rfl
theorem exec_ldN16 : ∀ g d a bs la s, exec (.ldN16 g d a bs la) s = execLdN16 g d a bs la s := by intros; rfl
theorem exec_ldN32 : ∀ g d a bs la s, exec (.ldN32 g d a bs la) s = execLdN32 g d a bs la s := by intros; rfl
theorem exec_ldN64 : ∀ g d a bs la s, exec (.ldN64 g d a bs la) s = execLdN64 g d a bs la s := by intros; rfl
theorem exec_ldN128 : ∀ g d a bs la s, exec (.ldN128 g d a bs la) s = execLdN128 g d a bs la s := by intros; rfl
theorem exec_axchgN64 : ∀ d a bs sc la ord s, exec (.axchgN64 d a bs sc la ord) s = execAxchgN64 d a bs sc la ord s := by intros; rfl
theorem exec_stN8 : ∀ g d a bs s, exec (.stN8 g d a bs) s = execStN8 g d a bs s := by intros; rfl
theorem exec_stN16 : ∀ g d a bs s, exec (.stN16 g d a bs) s = execStN16 g d a bs s := by intros; rfl
theorem exec_stN32 : ∀ g d a bs s, exec (.stN32 g d a bs) s = execStN32 g d a bs s := by intros; rfl
theorem exec_stN64 : ∀ g d a bs s, exec (.stN64 g d a bs) s = execStN64 g d a bs s := by intros; rfl
theorem exec_stN128 : ∀ g d a bs s, exec (.stN128 g d a bs) s = execStN128 g d a bs s := by intros; rfl
theorem exec_ldk : ∀ g d a bs la s, exec (.ldk g d a bs la) s = execLdk g d a bs la s := by intros; rfl
theorem exec_ldProbe : ∀ g cj a bs size s, exec (.ldProbe g cj a bs size) s = execLdProbe g cj a bs size s := by intros; rfl
theorem exec_acasN64 : ∀ d a bs sc la ord s, exec (.acasN64 d a bs sc la ord) s = execAcasN64 d a bs sc la ord s := by intros; rfl
theorem exec_aaddN32 : ∀ d a bs sc la ord s, exec (.aaddN32 d a bs sc la ord) s = execAaddN32 d a bs sc la ord s := by intros; rfl
theorem exec_aminI32 : ∀ d a bs sc la ord s, exec (.aminI32 d a bs sc la ord) s = execAminI32 d a bs sc la ord s := by intros; rfl
theorem exec_amaxI32 : ∀ d a bs sc la ord s, exec (.amaxI32 d a bs sc la ord) s = execAmaxI32 d a bs sc la ord s := by intros; rfl
theorem exec_aminN32 : ∀ d a bs sc la ord s, exec (.aminN32 d a bs sc la ord) s = execAminN32 d a bs sc la ord s := by intros; rfl
theorem exec_amaxN32 : ∀ d a bs sc la ord s, exec (.amaxN32 d a bs sc la ord) s = execAmaxN32 d a bs sc la ord s := by intros; rfl
theorem exec_aandN32 : ∀ d a bs sc la ord s, exec (.aandN32 d a bs sc la ord) s = execAandN32 d a bs sc la ord s := by intros; rfl
theorem exec_aorN32 : ∀ d a bs sc la ord s, exec (.aorN32 d a bs sc la ord) s = execAorN32 d a bs sc la ord s := by intros; rfl
theorem exec_axorN32 : ∀ d a bs sc la ord s, exec (.axorN32 d a bs sc la ord) s = execAxorN32 d a bs sc la ord s := by intros; rfl
theorem exec_axchgN32 : ∀ d a bs sc la ord s, exec (.axchgN32 d a bs sc la ord) s = execAxchgN32 d a bs sc la ord s := by intros; rfl
theorem exec_acasN32 : ∀ d a bs sc la ord s, exec (.acasN32 d a bs sc la ord) s = execAcasN32 d a bs sc la ord s := by intros; rfl
theorem exec_faddOrdF32 : ∀ d a bs sc s, exec (.faddOrdF32 d a bs sc) s = execFaddOrdF32 d a bs sc s := by intros; rfl
theorem exec_faddOrdF64 : ∀ d a bs sc s, exec (.faddOrdF64 d a bs sc) s = execFaddOrdF64 d a bs sc s := by intros; rfl
theorem exec_ldaN32 : ∀ d a bs sc la acq s, exec (.ldaN32 d a bs sc la acq) s = execLdaN32 d a bs sc la acq s := by intros; rfl
theorem exec_ldaN64 : ∀ d a bs sc la acq s, exec (.ldaN64 d a bs sc la acq) s = execLdaN64 d a bs sc la acq s := by intros; rfl
theorem exec_staN32 : ∀ d a bs sc rel s, exec (.staN32 d a bs sc rel) s = execStaN32 d a bs sc rel s := by intros; rfl
theorem exec_staN64 : ∀ d a bs sc rel s, exec (.staN64 d a bs sc rel) s = execStaN64 d a bs sc rel s := by intros; rfl
theorem exec_bra : ∀ g off s, exec (.bra g off) s = execBra g off s := by intros; rfl
theorem exec_bral : ∀ g off s, exec (.bral g off) s = execBral g off s := by intros; rfl
theorem exec_jmp : ∀ g d a s, exec (.jmp g d a) s = execJmp g d a s := by intros; rfl
theorem exec_ret : ∀ g a s, exec (.ret g a) s = execRet g a s := by intros; rfl
theorem exec_yield : ∀ g s, exec (.yield g) s = execYield g s := by intros; rfl
theorem exec_nop : ∀ g s, exec (.nop g) s = execNop g s := by intros; rfl
theorem exec_exit : ∀ g s, exec (.exit g) s = execExit g s := by intros; rfl
theorem exec_hadd : ∀ g d a b s, exec (.hadd g d a b) s = execHadd g d a b s := by intros; rfl
theorem exec_hfma : ∀ g d a b s, exec (.hfma g d a b) s = execHfma g d a b s := by intros; rfl
theorem exec_fadd : ∀ g d a b s, exec (.fadd g d a b) s = execFadd g d a b s := by intros; rfl
theorem exec_fsub : ∀ g d a b s, exec (.fsub g d a b) s = execFsub g d a b s := by intros; rfl
theorem exec_fmul : ∀ g d a b s, exec (.fmul g d a b) s = execFmul g d a b s := by intros; rfl
theorem exec_ffma : ∀ g d a b s, exec (.ffma g d a b) s = execFfma g d a b s := by intros; rfl
theorem exec_fmin : ∀ g d a b s, exec (.fmin g d a b) s = execFmin g d a b s := by intros; rfl
theorem exec_fmax : ∀ g d a b s, exec (.fmax g d a b) s = execFmax g d a b s := by intros; rfl
theorem exec_dadd : ∀ g d a b s, exec (.dadd g d a b) s = execDadd g d a b s := by intros; rfl
theorem exec_shfl : ∀ g d a b s, exec (.shfl g d a b) s = execShfl g d a b s := by intros; rfl
theorem exec_shflI : ∀ g d a k s, exec (.shflI g d a k) s = execShflI g d a k s := by intros; rfl
theorem exec_lsh : ∀ g d a b s, exec (.lsh g d a b) s = execLsh g d a b s := by intros; rfl
theorem exec_lshI : ∀ g d a k s, exec (.lshI g d a k) s = execLshI g d a k s := by intros; rfl
theorem exec_lrot : ∀ g d a b s, exec (.lrot g d a b) s = execLrot g d a b s := by intros; rfl
theorem exec_lrotI : ∀ g d a k s, exec (.lrotI g d a k) s = execLrotI g d a k s := by intros; rfl
theorem exec_bcast : ∀ g d a b s, exec (.bcast g d a b) s = execBcast g d a b s := by intros; rfl
theorem exec_bcastI : ∀ g d a k s, exec (.bcastI g d a k) s = execBcastI g d a k s := by intros; rfl
theorem exec_scan : ∀ g d a op s, exec (.scan g d a op) s = execScan g d a op s := by intros; rfl
theorem exec_sample : ∀ g d a b s, exec (.sample g d a b) s = execSample g d a b s := by intros; rfl
theorem exec_cvtRne : ∀ g d a dst src s, exec (.cvtRne g d a dst src) s = execCvtRne g d a dst src s := by intros; rfl
theorem exec_cvtRneF32Q4 : ∀ g d a s, exec (.cvtRneF32Q4 g d a) s = execCvtRneF32Q4 g d a s := by intros; rfl
theorem exec_cvtRneQ4F32 : ∀ g d a s, exec (.cvtRneQ4F32 g d a) s = execCvtRneQ4F32 g d a s := by intros; rfl
theorem exec_cvtRz : ∀ g d a dst src s, exec (.cvtRz g d a dst src) s = execCvtRz g d a dst src s := by intros; rfl
theorem exec_cvtRu : ∀ g d a dst src s, exec (.cvtRu g d a dst src) s = execCvtRu g d a dst src s := by intros; rfl
theorem exec_cvtRd : ∀ g d a dst src s, exec (.cvtRd g d a dst src) s = execCvtRd g d a dst src s := by intros; rfl
theorem exec_dmul : ∀ g d a b s, exec (.dmul g d a b) s = execDmul g d a b s := by intros; rfl
theorem exec_dfma : ∀ g d a b s, exec (.dfma g d a b) s = execDfma g d a b s := by intros; rfl
theorem exec_sadd : ∀ d a b s, exec (.sadd d a b) s = execSadd d a b s := by intros; rfl
theorem exec_ssub : ∀ d a b s, exec (.ssub d a b) s = execSsub d a b s := by intros; rfl
theorem exec_smul : ∀ d a b s, exec (.smul d a b) s = execSmul d a b s := by intros; rfl
theorem exec_smulh : ∀ d a b uns s, exec (.smulh d a b uns) s = execSmulh d a b uns s := by intros; rfl
theorem exec_sand : ∀ d a b s, exec (.sand d a b) s = execSand d a b s := by intros; rfl
theorem exec_sor : ∀ d a b s, exec (.sor d a b) s = execSor d a b s := by intros; rfl
theorem exec_sxor : ∀ d a b s, exec (.sxor d a b) s = execSxor d a b s := by intros; rfl
theorem exec_sshl : ∀ d a b s, exec (.sshl d a b) s = execSshl d a b s := by intros; rfl
theorem exec_sshr : ∀ d a b s, exec (.sshr d a b) s = execSshr d a b s := by intros; rfl
theorem exec_ssar : ∀ d a b s, exec (.ssar d a b) s = execSsar d a b s := by intros; rfl
theorem exec_smin : ∀ d a b uns s, exec (.smin d a b uns) s = execSmin d a b uns s := by intros; rfl
theorem exec_smax : ∀ d a b uns s, exec (.smax d a b uns) s = execSmax d a b uns s := by intros; rfl
theorem exec_scmp : ∀ a b s, exec (.scmp a b) s = execScmp a b s := by intros; rfl
theorem exec_ssel : ∀ d a b c s, exec (.ssel d a b c) s = execSsel d a b c s := by intros; rfl
theorem exec_smovi : ∀ d imm s, exec (.smovi d imm) s = execSmovi d imm s := by intros; rfl
theorem exec_smovhi : ∀ d imm s, exec (.smovhi d imm) s = execSmovhi d imm s := by intros; rfl
theorem exec_saddi : ∀ d imm s, exec (.saddi d imm) s = execSaddi d imm s := by intros; rfl
theorem exec_lread : ∀ d a lane s, exec (.lread d a lane) s = execLread d a lane s := by intros; rfl
theorem exec_sbcast : ∀ d a hi s, exec (.sbcast d a hi) s = execSbcast d a hi s := by intros; rfl
theorem exec_ballot : ∀ d k c s, exec (.ballot d k c) s = execBallot d k c s := by intros; rfl
theorem exec_idxImm : ∀ imm s, exec (.idxImm imm) s = execIdxImm imm s := by intros; rfl
theorem exec_idxReg : ∀ d s, exec (.idxReg d) s = execIdxReg d s := by intros; rfl
theorem exec_prioImm : ∀ imm s, exec (.prioImm imm) s = execPrioImm imm s := by intros; rfl
theorem exec_prioReg : ∀ d s, exec (.prioReg d) s = execPrioReg d s := by intros; rfl
theorem exec_ubra : ∀ c off s, exec (.ubra c off) s = execUbra c off s := by intros; rfl
theorem exec_bar : ∀ n refresh s, exec (.bar n refresh) s = execBar n refresh s := by intros; rfl
theorem exec_gbar : ∀ n refresh s, exec (.gbar n refresh) s = execGbar n refresh s := by intros; rfl
theorem exec_arrive : ∀ n gang s, exec (.arrive n gang) s = execArrive n gang s := by intros; rfl
theorem exec_wait : ∀ n gang refresh s, exec (.wait n gang refresh) s = execWait n gang refresh s := by intros; rfl
theorem exec_sleep : ∀ d a b n64 c s, exec (.sleep d a b n64 c) s = execSleep d a b n64 c s := by intros; rfl
theorem exec_refresh : ∀ s, exec (.refresh) s = execRefresh s := by intros; rfl
theorem exec_rootsw : ∀ d a b s, exec (.rootsw d a b) s = execRootsw d a b s := by intros; rfl
theorem exec_tlbfFill : ∀ a b s, exec (.tlbfFill a b) s = execTlbfFill a b s := by intros; rfl
theorem exec_tlbfReq : ∀ a b s, exec (.tlbfReq a b) s = execTlbfReq a b s := by intros; rfl
theorem exec_tlbfBad : ∀ a b s, exec (.tlbfBad a b) s = execTlbfBad a b s := by intros; rfl
theorem exec_trap : ∀ imm s, exec (.trap imm) s = execTrap imm s := by intros; rfl
theorem exec_tret : ∀ s, exec (.tret) s = execTret s := by intros; rfl
theorem exec_preq : ∀ s, exec (.preq) s = execPreq s := by intros; rfl
theorem exec_brk : ∀ imm s, exec (.brk imm) s = execBrk imm s := by intros; rfl
theorem exec_gateArm : ∀ d s, exec (.gateArm d) s = execGateArm d s := by intros; rfl
theorem exec_gateCancel : ∀ d s, exec (.gateCancel d) s = execGateCancel d s := by intros; rfl
theorem exec_pmark : ∀ imm s, exec (.pmark imm) s = execPmark imm s := by intros; rfl
theorem exec_pmarkV : ∀ d imm s, exec (.pmarkV d imm) s = execPmarkV d imm s := by intros; rfl
theorem exec_sld : ∀ d a off la s, exec (.sld d a off la) s = execSld d a off la s := by intros; rfl
theorem exec_sst : ∀ d a off s, exec (.sst d a off) s = execSst d a off s := by intros; rfl
theorem exec_fence : ∀ kind sc s, exec (.fence kind sc) s = execFence kind sc s := by intros; rfl
theorem exec_copy : ∀ tid ch x2 la var s, exec (.copy tid ch x2 la var) s = execCopy tid ch x2 la var s := by intros; rfl
theorem exec_chain : ∀ ch x1 la s, exec (.chain ch x1 la) s = execChain ch x1 la s := by intros; rfl
theorem exec_chwp : ∀ sc ch x2 la acq s, exec (.chwp sc ch x2 la acq) s = execChwp sc ch x2 la acq s := by intros; rfl
theorem exec_publ : ∀ tid x1 la s, exec (.publ tid x1 la) s = execPubl tid x1 la s := by intros; rfl
theorem exec_rput : ∀ ring x1 la s, exec (.rput ring x1 la) s = execRput ring x1 la s := by intros; rfl
theorem exec_rtake : ∀ ring x1 la s, exec (.rtake ring x1 la) s = execRtake ring x1 la s := by intros; rfl
theorem exec_tld : ∀ tid tile x2 la s, exec (.tld tid tile x2 la) s = execTld tid tile x2 la s := by intros; rfl
theorem exec_wld : ∀ tid x1 la x24 s, exec (.wld tid x1 la x24) s = execWld tid x1 la x24 s := by intros; rfl
theorem exec_mma : ∀ fmt tile acc x3 la bs s, exec (.mma fmt tile acc x3 la bs) s = execMma fmt tile acc x3 la bs s := by intros; rfl
theorem exec_azero : ∀ acc x1 la f64 s, exec (.azero acc x1 la f64) s = execAzero acc x1 la f64 s := by intros; rfl
theorem exec_ast : ∀ tid acc x2 la bs s, exec (.ast tid acc x2 la bs) s = execAst tid acc x2 la bs s := by intros; rfl
theorem exec_blsub : ∀ n slot x2 la s, exec (.blsub n slot x2 la) s = execBlsub n slot x2 la s := by intros; rfl
theorem exec_blcol : ∀ slot x1 la s, exec (.blcol slot x1 la) s = execBlcol slot x1 la s := by intros; rfl
theorem exec_qcast : ∀ x0 la s, exec (.qcast x0 la) s = execQcast x0 la s := by intros; rfl
theorem exec_creduce : ∀ x0 la s, exec (.creduce x0 la) s = execCreduce x0 la s := by intros; rfl
theorem exec_tidset : ∀ tid x1 la s, exec (.tidset tid x1 la) s = execTidset tid x1 la s := by intros; rfl
theorem exec_tidget : ∀ tid x1 la s, exec (.tidget tid x1 la) s = execTidget tid x1 la s := by intros; rfl
theorem exec_stins : ∀ tid x1 la s, exec (.stins tid x1 la) s = execStins tid x1 la s := by intros; rfl
theorem exec_stlook : ∀ tid x1 la s, exec (.stlook tid x1 la) s = execStlook tid x1 la s := by intros; rfl
theorem exec_kvres : ∀ tid x1 la s, exec (.kvres tid x1 la) s = execKvres tid x1 la s := by intros; rfl
theorem exec_sread : ∀ d reg vec s, exec (.sread d reg vec) s = execSread d reg vec s := by intros; rfl
theorem exec_swrite : ∀ d reg s, exec (.swrite d reg) s = execSwrite d reg s := by intros; rfl
theorem exec_stamp : ∀ d ord s, exec (.stamp d ord) s = execStamp d ord s := by intros; rfl
theorem exec_reset : ∀ s, exec (.reset) s = execReset s := by intros; rfl
theorem exec_image : ∀ off data s, exec (.image off data) s = execImage off data s := by intros; rfl
theorem exec_boot : ∀ s, exec (.boot) s = execBoot s := by intros; rfl
theorem exec_config : ∀ off data s, exec (.config off data) s = execConfig off data s := by intros; rfl
theorem exec_attest : ∀ nonce s, exec (.attest nonce) s = execAttest nonce s := by intros; rfl
theorem exec_vlog : ∀ s, exec (.vlog) s = execVlog s := by intros; rfl
theorem exec_queueCreate : ∀ q ring size qgroup flags rcb readAddr wake s, exec (.queueCreate q ring size qgroup flags rcb readAddr wake) s = execQueueCreate q ring size qgroup flags rcb readAddr wake s := by intros; rfl
theorem exec_queueMap : ∀ q hwSlot s, exec (.queueMap q hwSlot) s = execQueueMap q hwSlot s := by intros; rfl
theorem exec_queueDelete : ∀ q s, exec (.queueDelete q) s = execQueueDelete q s := by intros; rfl
theorem exec_regionSuspend : ∀ rcb s, exec (.regionSuspend rcb) s = execRegionSuspend rcb s := by intros; rfl
theorem exec_regionResume : ∀ rcb s, exec (.regionResume rcb) s = execRegionResume rcb s := by intros; rfl
theorem exec_regionKill : ∀ rcb s, exec (.regionKill rcb) s = execRegionKill rcb s := by intros; rfl
theorem exec_install : ∀ rcb word gen s, exec (.install rcb word gen) s = execInstall rcb word gen s := by intros; rfl
theorem exec_hold : ∀ rcb slot gen s, exec (.hold rcb slot gen) s = execHold rcb slot gen s := by intros; rfl
theorem exec_unhold : ∀ rcb slot gen s, exec (.unhold rcb slot gen) s = execUnhold rcb slot gen s := by intros; rfl
theorem exec_release : ∀ nodes s, exec (.release nodes) s = execRelease nodes s := by intros; rfl
theorem exec_passign : ∀ slot rcb s, exec (.passign slot rcb) s = execPassign slot rcb s := by intros; rfl
theorem exec_pfree : ∀ slot s, exec (.pfree slot) s = execPfree slot s := by intros; rfl
theorem exec_answer : ∀ id code slot s, exec (.answer id code slot) s = execAnswer id code slot s := by intros; rfl
theorem exec_importSet : ∀ slot entry s, exec (.importSet slot entry) s = execImportSet slot entry s := by intros; rfl
theorem exec_exportSet : ∀ slot entry s, exec (.exportSet slot entry) s = execExportSet slot entry s := by intros; rfl
theorem exec_profile : ∀ part snap ctl ring bytes s, exec (.profile part snap ctl ring bytes) s = execProfile part snap ctl ring bytes s := by intros; rfl
theorem exec_debugAttach : ∀ rcb s, exec (.debugAttach rcb) s = execDebugAttach rcb s := by intros; rfl
theorem exec_debugComparatorWrite : ∀ k w s, exec (.debugComparatorWrite k w) s = execDebugComparatorWrite k w s := by intros; rfl
theorem exec_debugResume : ∀ grp stepOne s, exec (.debugResume grp stepOne) s = execDebugResume grp stepOne s := by intros; rfl
theorem exec_debugReadAccumulator : ∀ grp acc buf s, exec (.debugReadAccumulator grp acc buf) s = execDebugReadAccumulator grp acc buf s := by intros; rfl
theorem exec_debugDetach : ∀ s, exec (.debugDetach) s = execDebugDetach s := by intros; rfl
theorem exec_freeze : ∀ s, exec (.freeze) s = execFreeze s := by intros; rfl
theorem exec_freezeDump : ∀ buf s, exec (.freezeDump buf) s = execFreezeDump buf s := by intros; rfl
theorem exec_freezeThaw : ∀ s, exec (.freezeThaw) s = execFreezeThaw s := by intros; rfl
theorem exec_replayRecord : ∀ rcb list count log bytes s, exec (.replayRecord rcb list count log bytes) s = execReplayRecord rcb list count log bytes s := by intros; rfl
theorem exec_replayArm : ∀ rcb list count log bytes s, exec (.replayArm rcb list count log bytes) s = execReplayArm rcb list count log bytes s := by intros; rfl
theorem exec_replayEnd : ∀ rcb s, exec (.replayEnd rcb) s = execReplayEnd rcb s := by intros; rfl
theorem exec_notifyWrite : ∀ q v s, exec (.notifyWrite q v) s = execNotifyWrite q v s := by intros; rfl
theorem exec_eventWrite : ∀ v s, exec (.eventWrite v) s = execEventWrite v s := by intros; rfl
theorem exec_ntailWrite : ∀ v s, exec (.ntailWrite v) s = execNtailWrite v s := by intros; rfl
theorem exec_registerWrite : ∀ off v s, exec (.registerWrite off v) s = execRegisterWrite off v s := by intros; rfl
theorem exec_queueSlotMap : ∀ q hwSlot s, exec (.queueSlotMap q hwSlot) s = execQueueSlotMap q hwSlot s := by intros; rfl
theorem exec_queueSlotUnmap : ∀ q s, exec (.queueSlotUnmap q) s = execQueueSlotUnmap q s := by intros; rfl
theorem exec_launchPacket : ∀ q s, exec (.launchPacket q) s = execLaunchPacket q s := by intros; rfl
theorem exec_graphPacket : ∀ q s, exec (.graphPacket q) s = execGraphPacket q s := by intros; rfl
theorem exec_waitPacket : ∀ q s, exec (.waitPacket q) s = execWaitPacket q s := by intros; rfl
theorem exec_waitConditionMet : ∀ pkt s, exec (.waitConditionMet pkt) s = execWaitConditionMet pkt s := by intros; rfl
theorem exec_regionRegister : ∀ q s, exec (.regionRegister q) s = execRegionRegister q s := by intros; rfl
theorem exec_regionUpdate : ∀ q s, exec (.regionUpdate q) s = execRegionUpdate q s := by intros; rfl
theorem exec_regionUnregister : ∀ q s, exec (.regionUnregister q) s = execRegionUnregister q s := by intros; rfl
theorem exec_kvTableSet : ∀ q s, exec (.kvTableSet q) s = execKvTableSet q s := by intros; rfl
theorem exec_launchStart : ∀ launch s, exec (.launchStart launch) s = execLaunchStart launch s := by intros; rfl
theorem exec_gangClaim : ∀ launch die s, exec (.gangClaim launch die) s = execGangClaim launch die s := by intros; rfl
theorem exec_gangPlace : ∀ launch die s, exec (.gangPlace launch die) s = execGangPlace launch die s := by intros; rfl
theorem exec_launchComplete : ∀ launch s, exec (.launchComplete launch) s = execLaunchComplete launch s := by intros; rfl
theorem exec_loopIteration : ∀ pkt s, exec (.loopIteration pkt) s = execLoopIteration pkt s := by intros; rfl
theorem exec_groupActivate : ∀ grp s, exec (.groupActivate grp) s = execGroupActivate grp s := by intros; rfl
theorem exec_groupEvict : ∀ grp s, exec (.groupEvict grp) s = execGroupEvict grp s := by intros; rfl
theorem exec_parkThreshold : ∀ grp s, exec (.parkThreshold grp) s = execParkThreshold grp s := by intros; rfl
theorem exec_parkComplete : ∀ grp s, exec (.parkComplete grp) s = execParkComplete grp s := by intros; rfl
theorem exec_fairnessLimit : ∀ grp s, exec (.fairnessLimit grp) s = execFairnessLimit grp s := by intros; rfl
theorem exec_progressWaitLimit : ∀ grp s, exec (.progressWaitLimit grp) s = execProgressWaitLimit grp s := by intros; rfl
theorem exec_watchdog : ∀ grp s, exec (.watchdog grp) s = execWatchdog grp s := by intros; rfl
theorem exec_preemptRequest : ∀ gang s, exec (.preemptRequest gang) s = execPreemptRequest gang s := by intros; rfl
theorem exec_noticeDeadline : ∀ gang s, exec (.noticeDeadline gang) s = execNoticeDeadline gang s := by intros; rfl
theorem exec_gangParkComplete : ∀ gang s, exec (.gangParkComplete gang) s = execGangParkComplete gang s := by intros; rfl
theorem exec_gangResume : ∀ gang cluster s, exec (.gangResume gang cluster) s = execGangResume gang cluster s := by intros; rfl
theorem exec_trapEntry : ∀ grp s, exec (.trapEntry grp) s = execTrapEntry grp s := by intros; rfl
theorem exec_valueLands : ∀ grp seq s, exec (.valueLands grp seq) s = execValueLands grp seq s := by intros; rfl
theorem exec_lineFill : ∀ grp line s, exec (.lineFill grp line) s = execLineFill grp line s := by intros; rfl
theorem exec_storeQueueDepart : ∀ grp s, exec (.storeQueueDepart grp) s = execStoreQueueDepart grp s := by intros; rfl
theorem exec_homeAccessPerform : ∀ grp seq idx reply s, exec (.homeAccessPerform grp seq idx reply) s = execHomeAccessPerform grp seq idx reply s := by intros; rfl
theorem exec_walkStart : ∀ core s, exec (.walkStart core) s = execWalkStart core s := by intros; rfl
theorem exec_walkerInstructionLimit : ∀ core s, exec (.walkerInstructionLimit core) s = execWalkerInstructionLimit core s := by intros; rfl
theorem exec_logEntryReplay : ∀ grp seq s, exec (.logEntryReplay grp seq) s = execLogEntryReplay grp seq s := by intros; rfl
theorem exec_slotReclaim : ∀ rcb slot s, exec (.slotReclaim rcb slot) s = execSlotReclaim rcb slot s := by intros; rfl
theorem exec_rootswStep : ∀ grp s, exec (.rootswStep grp) s = execRootswStep grp s := by intros; rfl
theorem exec_sleepWake : ∀ grp pc reply s, exec (.sleepWake grp pc reply) s = execSleepWake grp pc reply s := by intros; rfl
theorem exec_publInstant : ∀ grp seq s, exec (.publInstant grp seq) s = execPublInstant grp seq s := by intros; rfl
theorem exec_engineCommandStart : ∀ grp seq s, exec (.engineCommandStart grp seq) s = execEngineCommandStart grp seq s := by intros; rfl
theorem exec_engineCommandComplete : ∀ grp seq ext s, exec (.engineCommandComplete grp seq ext) s = execEngineCommandComplete grp seq ext s := by intros; rfl
theorem exec_chainRecord : ∀ grp seq ext s, exec (.chainRecord grp seq ext) s = execChainRecord grp seq ext s := by intros; rfl
theorem exec_groupRetire : ∀ grp s, exec (.groupRetire grp) s = execGroupRetire grp s := by intros; rfl
theorem exec_gateTimeout : ∀ rcb s, exec (.gateTimeout rcb) s = execGateTimeout rcb s := by intros; rfl
theorem exec_pcComparatorMatch : ∀ grp s, exec (.pcComparatorMatch grp) s = execPcComparatorMatch grp s := by intros; rfl
theorem exec_profilingInterval : ∀ s, exec (.profilingInterval) s = execProfilingInterval s := by intros; rfl
theorem exec_pcSample : ∀ core part s, exec (.pcSample core part) s = execPcSample core part s := by intros; rfl
theorem exec_ingressRequest : ∀ req s, exec (.ingressRequest req) s = execIngressRequest req s := by intros; rfl
theorem exec_portBringUp : ∀ port peer ok s, exec (.portBringUp port peer ok) s = execPortBringUp port peer ok s := by intros; rfl
theorem exec_portLoss : ∀ port s, exec (.portLoss port) s = execPortLoss port s := by intros; rfl
theorem exec_linkKeyRenewal : ∀ port s, exec (.linkKeyRenewal port) s = execLinkKeyRenewal port s := by intros; rfl
theorem exec_ptpEvent : ∀ message s, exec (.ptpEvent message) s = execPtpEvent message s := by intros; rfl
theorem exec_powerThrottle : ∀ reading s, exec (.powerThrottle reading) s = execPowerThrottle reading s := by intros; rfl
theorem exec_thermalHalt : ∀ celsius s, exec (.thermalHalt celsius) s = execThermalHalt celsius s := by intros; rfl
theorem exec_i3cResetRequest : ∀ s, exec (.i3cResetRequest) s = execI3cResetRequest s := by intros; rfl
theorem exec_uncorrectableError : ∀ cluster core s, exec (.uncorrectableError cluster core) s = execUncorrectableError cluster core s := by intros; rfl
theorem exec_shareWindowEnd : ∀ s, exec (.shareWindowEnd) s = execShareWindowEnd s := by intros; rfl
theorem exec_ptpReferenceLoss : ∀ s, exec (.ptpReferenceLoss) s = execPtpReferenceLoss s := by intros; rfl

end Sys2Proof.Machine
end

