-- ==== Sys2Proof/Laws/Table.lean ====
section
/-!
SUPPORT. What reading a table gives after each operation on it, and that every operation keeps the canonical form.
-/

-- One declaration after another, as in PerInstr.lean.
set_option Elab.async false

namespace Sys2Proof.Machine

variable {α : Type}

/-! ## Reads after writes -/

@[simp] theorem Table.get?_nil (k : Nat) : Table.get? ([] : Table α) k = none := rfl

@[simp] theorem Table.getD_nil (k : Nat) (z : α) : Table.getD ([] : Table α) k z = z := rfl

theorem Table.getD_eq (t : Table α) (k : Nat) (z : α) : Table.getD t k z = (Table.get? t k).getD z := by
  induction t with
  | nil => rfl
  | cons p r ih =>
    obtain ⟨j, v⟩ := p
    simp only [Table.getD, Table.get?]
    split <;> simp [ih]

@[simp] theorem Table.get?_set_self (t : Table α) (k : Nat) (v : α) : Table.get? (Table.set t k v) k = some v := by
  induction t with
  | nil => simp [Table.set, Table.get?]
  | cons p r ih =>
    obtain ⟨j, w⟩ := p
    simp only [Table.set]
    split
    · simp [Table.get?]
    · split
      · simp [Table.get?]
      · rename_i h
        simp [Table.get?, Ne.symm h, ih]

theorem Table.get?_set_ne (t : Table α) {k j : Nat} (v : α) (h : j ≠ k) :
    Table.get? (Table.set t k v) j = Table.get? t j := by
  induction t with
  | nil => simp [Table.set, Table.get?, Ne.symm h]
  | cons p r ih =>
    obtain ⟨i, w⟩ := p
    simp only [Table.set]
    split
    · simp [Table.get?, Ne.symm h]
    · split
      · rename_i h'
        subst h'
        simp [Table.get?, Ne.symm h]
      · simp only [Table.get?, ih]

theorem Table.get?_set (t : Table α) (k j : Nat) (v : α) :
    Table.get? (Table.set t k v) j = if j = k then some v else Table.get? t j := by
  split
  · rename_i h; subst h; simp
  · rename_i h; exact Table.get?_set_ne t v h

@[simp] theorem Table.get?_erase_self (t : Table α) (k : Nat) : Table.get? (Table.erase t k) k = none := by
  induction t with
  | nil => rfl
  | cons p r ih =>
    obtain ⟨j, w⟩ := p
    simp only [Table.erase]
    split
    · exact ih
    · rename_i h; simp [Table.get?, Ne.symm h, ih]

theorem Table.get?_erase_ne (t : Table α) {k j : Nat} (h : j ≠ k) : Table.get? (Table.erase t k) j = Table.get? t j := by
  induction t with
  | nil => rfl
  | cons p r ih =>
    obtain ⟨i, w⟩ := p
    simp only [Table.erase]
    split
    · rename_i h'; subst h'; simp [Table.get?, Ne.symm h, ih]
    · simp [Table.get?, ih]

theorem Table.get?_modify (t : Table α) (k j : Nat) (f : α → α) :
    Table.get? (Table.modify t k f) j = if j = k then (Table.get? t k).map f else Table.get? t j := by
  by_cases e : j = k
  · subst e
    cases h : Table.get? t j <;> simp [Table.modify, h]
  · cases h : Table.get? t k <;> simp [Table.modify, h, e, Table.get?_set_ne]

@[simp] theorem Table.get?_modify_self (t : Table α) (k : Nat) (f : α → α) :
    Table.get? (Table.modify t k f) k = (Table.get? t k).map f := by simp [Table.get?_modify]

/-- A write reads back, and leaves every other key alone; the table need not be in canonical form. -/
theorem Table.getD_put [DecidableEq α] (z : α) (t : Table α) (k j : Nat) (v : α) :
    Table.getD (Table.put z t k v) j z = if j = k then v else Table.getD t j z := by
  simp only [Table.getD_eq, Table.put]
  split
  · rename_i hv
    subst hv
    split
    · rename_i h; subst h; simp
    · rename_i h; rw [Table.get?_erase_ne t h]
  · rw [Table.get?_set]
    split <;> simp

@[simp] theorem Table.getD_put_self [DecidableEq α] (z : α) (t : Table α) (k : Nat) (v : α) :
    Table.getD (Table.put z t k v) k z = v := by simp [Table.getD_put]

theorem Table.getD_put_ne [DecidableEq α] (z : α) (t : Table α) {k j : Nat} (v : α) (h : j ≠ k) :
    Table.getD (Table.put z t k v) j z = Table.getD t j z := by simp [Table.getD_put, h]

/-! ## Canonical form -/

theorem Table.sortedFrom_weaken {t : Table α} {a b : Nat} (h : a ≤ b) (hs : Table.sortedFrom (some b) t = true) :
    Table.sortedFrom (some a) t = true := by
  cases t with
  | nil => rfl
  | cons p r =>
    obtain ⟨j, w⟩ := p
    simp [Table.sortedFrom] at hs ⊢
    exact ⟨by omega, hs.2⟩

theorem Table.sortedFrom_none {t : Table α} {lo : Option Nat} (hs : Table.sortedFrom lo t = true) :
    Table.sortedFrom none t = true := by
  cases t with
  | nil => rfl
  | cons p r => obtain ⟨j, w⟩ := p; simp [Table.sortedFrom] at hs ⊢; exact hs.2

theorem Table.sortedFrom_set {t : Table α} {lo : Option Nat} (k : Nat) (v : α) (hk : ∀ l, lo = some l → l < k)
    (hs : Table.sortedFrom lo t = true) : Table.sortedFrom lo (Table.set t k v) = true := by
  induction t generalizing lo with
  | nil => cases lo <;> simp_all [Table.set, Table.sortedFrom]
  | cons p r ih =>
    obtain ⟨j, w⟩ := p
    simp only [Table.set]
    split
    · rename_i h
      cases lo <;> simp_all [Table.sortedFrom]
    · split
      · rename_i h; subst h
        cases lo <;> simp_all [Table.sortedFrom]
      · rename_i h1 h2
        have h3 : j < k := by omega
        cases lo with
        | none =>
          simp only [Table.sortedFrom, Bool.true_and] at hs ⊢
          exact ih (by intro l e; cases e; exact h3) hs
        | some l =>
          simp only [Table.sortedFrom, Bool.and_eq_true] at hs ⊢
          exact ⟨hs.1, ih (by intro l e; cases e; exact h3) hs.2⟩

/-- Keeping some of the entries keeps the order. -/
theorem Table.sortedFrom_filter {t : Table α} {lo : Option Nat} (p : Nat × α → Bool) (hs : Table.sortedFrom lo t = true) :
    Table.sortedFrom lo (t.filter p) = true := by
  induction t generalizing lo with
  | nil => simpa using hs
  | cons e r ih =>
    obtain ⟨j, w⟩ := e
    have hr : Table.sortedFrom (some j) r = true := by
      cases lo <;> simp_all [Table.sortedFrom]
    simp only [List.filter_cons]
    split
    · cases lo <;> simp_all [Table.sortedFrom]
    · cases lo with
      | none => exact Table.sortedFrom_none (ih hr)
      | some l =>
        have hl : l < j := by simp [Table.sortedFrom] at hs; exact hs.1
        exact Table.sortedFrom_weaken (Nat.le_of_lt hl) (ih hr)

theorem Table.erase_eq_filter (t : Table α) (k : Nat) : Table.erase t k = t.filter fun p => decide (k ≠ p.1) := by
  induction t with
  | nil => rfl
  | cons e r ih =>
    obtain ⟨j, w⟩ := e
    simp only [Table.erase, List.filter_cons]
    split <;> simp_all

theorem Table.mem_set {t : Table α} {k : Nat} {v : α} {p : Nat × α} (h : p ∈ Table.set t k v) : p ∈ t ∨ p = (k, v) := by
  induction t with
  | nil => simp [Table.set] at h; exact Or.inr h
  | cons e r ih =>
    obtain ⟨j, w⟩ := e
    simp only [Table.set] at h
    split at h
    · simp at h
      rcases h with h | h | h
      · exact Or.inr h
      · exact Or.inl (by simp [h])
      · exact Or.inl (by simp [h])
    · split at h
      · simp at h
        rcases h with h | h
        · exact Or.inr h
        · exact Or.inl (by simp [h])
      · simp at h
        rcases h with h | h
        · exact Or.inl (by simp [h])
        · rcases ih h with h | h
          · exact Or.inl (by simp [h])
          · exact Or.inr h

theorem Table.wf_nil [DecidableEq α] (z : α) : Table.wf z ([] : Table α) = true := rfl

theorem Table.wf_filter [DecidableEq α] {z : α} {t : Table α} (p : Nat × α → Bool) (h : Table.wf z t = true) :
    Table.wf z (t.filter p) = true := by
  simp only [Table.wf, Bool.and_eq_true, List.all_eq_true] at h ⊢
  exact ⟨Table.sortedFrom_filter p h.1, fun x hx => h.2 x (List.mem_filter.mp hx).1⟩

theorem Table.wf_put [DecidableEq α] {z : α} {t : Table α} (k : Nat) (v : α) (h : Table.wf z t = true) :
    Table.wf z (Table.put z t k v) = true := by
  unfold Table.put
  split
  · rw [Table.erase_eq_filter]; exact Table.wf_filter _ h
  · rename_i hv
    simp only [Table.wf, Bool.and_eq_true, List.all_eq_true] at h ⊢
    refine ⟨Table.sortedFrom_set k v (by simp) h.1, fun x hx => ?_⟩
    rcases Table.mem_set hx with hx | hx
    · exact h.2 x hx
    · subst hx; simpa using hv

end Sys2Proof.Machine
end

