-- ==== Sys2Proof/Laws/State.lean ====
section
/-!
SUPPORT. What each field of the state is after each update of one part of it; a word in the issue slot, a group's registers and
control after each of their updates.
-/

-- One declaration after another, as in PerInstr.lean.
set_option Elab.async false

namespace Sys2Proof.Machine

/-! ## setGroup -/

@[simp] theorem State.setGroup_agenda (s : State) (k : Nat) (g : Group) : (s.setGroup k g).agenda = s.agenda := rfl
@[simp] theorem State.setGroup_issue (s : State) (k : Nat) (g : Group) : (s.setGroup k g).issue = s.issue := rfl
@[simp] theorem State.setGroup_fresh (s : State) (k : Nat) (g : Group) : (s.setGroup k g).fresh = s.fresh := rfl
@[simp] theorem State.setGroup_open_ (s : State) (k : Nat) (g : Group) : (s.setGroup k g).open_ = s.open_ := rfl
@[simp] theorem State.setGroup_clk (s : State) (k : Nat) (g : Group) : (s.setGroup k g).clk = s.clk := rfl
@[simp] theorem State.setGroup_mem (s : State) (k : Nat) (g : Group) : (s.setGroup k g).mem = s.mem := rfl
@[simp] theorem State.setGroup_host (s : State) (k : Nat) (g : Group) : (s.setGroup k g).host = s.host := rfl
@[simp] theorem State.setGroup_boot (s : State) (k : Nat) (g : Group) : (s.setGroup k g).boot = s.boot := rfl
@[simp] theorem State.setGroup_fab (s : State) (k : Nat) (g : Group) : (s.setGroup k g).fab = s.fab := rfl
@[simp] theorem State.setGroup_disp (s : State) (k : Nat) (g : Group) : (s.setGroup k g).disp = s.disp := rfl
@[simp] theorem State.setGroup_launches (s : State) (k : Nat) (g : Group) : (s.setGroup k g).launches = s.launches := rfl
@[simp] theorem State.setGroup_gangs (s : State) (k : Nat) (g : Group) : (s.setGroup k g).gangs = s.gangs := rfl
@[simp] theorem State.setGroup_groups (s : State) (k : Nat) (g : Group) : (s.setGroup k g).groups = Table.set s.groups k g := rfl
@[simp] theorem State.setGroup_cores (s : State) (k : Nat) (g : Group) : (s.setGroup k g).cores = s.cores := rfl
@[simp] theorem State.setGroup_clusters (s : State) (k : Nat) (g : Group) : (s.setGroup k g).clusters = s.clusters := rfl
@[simp] theorem State.setGroup_regions (s : State) (k : Nat) (g : Group) : (s.setGroup k g).regions = s.regions := rfl
@[simp] theorem State.setGroup_xlat (s : State) (k : Nat) (g : Group) : (s.setGroup k g).xlat = s.xlat := rfl
@[simp] theorem State.setGroup_colls (s : State) (k : Nat) (g : Group) : (s.setGroup k g).colls = s.colls := rfl
@[simp] theorem State.setGroup_prof (s : State) (k : Nat) (g : Group) : (s.setGroup k g).prof = s.prof := rfl
@[simp] theorem State.setGroup_dbg (s : State) (k : Nat) (g : Group) : (s.setGroup k g).dbg = s.dbg := rfl

/-! ## modGroup -/

@[simp] theorem State.modGroup_agenda (s : State) (k : Nat) (f : Group → Group) : (s.modGroup k f).agenda = s.agenda := rfl
@[simp] theorem State.modGroup_issue (s : State) (k : Nat) (f : Group → Group) : (s.modGroup k f).issue = s.issue := rfl
@[simp] theorem State.modGroup_fresh (s : State) (k : Nat) (f : Group → Group) : (s.modGroup k f).fresh = s.fresh := rfl
@[simp] theorem State.modGroup_open_ (s : State) (k : Nat) (f : Group → Group) : (s.modGroup k f).open_ = s.open_ := rfl
@[simp] theorem State.modGroup_clk (s : State) (k : Nat) (f : Group → Group) : (s.modGroup k f).clk = s.clk := rfl
@[simp] theorem State.modGroup_mem (s : State) (k : Nat) (f : Group → Group) : (s.modGroup k f).mem = s.mem := rfl
@[simp] theorem State.modGroup_host (s : State) (k : Nat) (f : Group → Group) : (s.modGroup k f).host = s.host := rfl
@[simp] theorem State.modGroup_boot (s : State) (k : Nat) (f : Group → Group) : (s.modGroup k f).boot = s.boot := rfl
@[simp] theorem State.modGroup_fab (s : State) (k : Nat) (f : Group → Group) : (s.modGroup k f).fab = s.fab := rfl
@[simp] theorem State.modGroup_disp (s : State) (k : Nat) (f : Group → Group) : (s.modGroup k f).disp = s.disp := rfl
@[simp] theorem State.modGroup_launches (s : State) (k : Nat) (f : Group → Group) : (s.modGroup k f).launches = s.launches := rfl
@[simp] theorem State.modGroup_gangs (s : State) (k : Nat) (f : Group → Group) : (s.modGroup k f).gangs = s.gangs := rfl
@[simp] theorem State.modGroup_groups (s : State) (k : Nat) (f : Group → Group) : (s.modGroup k f).groups = Table.modify s.groups k f := rfl
@[simp] theorem State.modGroup_cores (s : State) (k : Nat) (f : Group → Group) : (s.modGroup k f).cores = s.cores := rfl
@[simp] theorem State.modGroup_clusters (s : State) (k : Nat) (f : Group → Group) : (s.modGroup k f).clusters = s.clusters := rfl
@[simp] theorem State.modGroup_regions (s : State) (k : Nat) (f : Group → Group) : (s.modGroup k f).regions = s.regions := rfl
@[simp] theorem State.modGroup_xlat (s : State) (k : Nat) (f : Group → Group) : (s.modGroup k f).xlat = s.xlat := rfl
@[simp] theorem State.modGroup_colls (s : State) (k : Nat) (f : Group → Group) : (s.modGroup k f).colls = s.colls := rfl
@[simp] theorem State.modGroup_prof (s : State) (k : Nat) (f : Group → Group) : (s.modGroup k f).prof = s.prof := rfl
@[simp] theorem State.modGroup_dbg (s : State) (k : Nat) (f : Group → Group) : (s.modGroup k f).dbg = s.dbg := rfl

/-! ## modGang -/

@[simp] theorem State.modGang_agenda (s : State) (k : Nat) (f : Gang → Gang) : (s.modGang k f).agenda = s.agenda := rfl
@[simp] theorem State.modGang_issue (s : State) (k : Nat) (f : Gang → Gang) : (s.modGang k f).issue = s.issue := rfl
@[simp] theorem State.modGang_fresh (s : State) (k : Nat) (f : Gang → Gang) : (s.modGang k f).fresh = s.fresh := rfl
@[simp] theorem State.modGang_open_ (s : State) (k : Nat) (f : Gang → Gang) : (s.modGang k f).open_ = s.open_ := rfl
@[simp] theorem State.modGang_clk (s : State) (k : Nat) (f : Gang → Gang) : (s.modGang k f).clk = s.clk := rfl
@[simp] theorem State.modGang_mem (s : State) (k : Nat) (f : Gang → Gang) : (s.modGang k f).mem = s.mem := rfl
@[simp] theorem State.modGang_host (s : State) (k : Nat) (f : Gang → Gang) : (s.modGang k f).host = s.host := rfl
@[simp] theorem State.modGang_boot (s : State) (k : Nat) (f : Gang → Gang) : (s.modGang k f).boot = s.boot := rfl
@[simp] theorem State.modGang_fab (s : State) (k : Nat) (f : Gang → Gang) : (s.modGang k f).fab = s.fab := rfl
@[simp] theorem State.modGang_disp (s : State) (k : Nat) (f : Gang → Gang) : (s.modGang k f).disp = s.disp := rfl
@[simp] theorem State.modGang_launches (s : State) (k : Nat) (f : Gang → Gang) : (s.modGang k f).launches = s.launches := rfl
@[simp] theorem State.modGang_gangs (s : State) (k : Nat) (f : Gang → Gang) : (s.modGang k f).gangs = Table.modify s.gangs k f := rfl
@[simp] theorem State.modGang_groups (s : State) (k : Nat) (f : Gang → Gang) : (s.modGang k f).groups = s.groups := rfl
@[simp] theorem State.modGang_cores (s : State) (k : Nat) (f : Gang → Gang) : (s.modGang k f).cores = s.cores := rfl
@[simp] theorem State.modGang_clusters (s : State) (k : Nat) (f : Gang → Gang) : (s.modGang k f).clusters = s.clusters := rfl
@[simp] theorem State.modGang_regions (s : State) (k : Nat) (f : Gang → Gang) : (s.modGang k f).regions = s.regions := rfl
@[simp] theorem State.modGang_xlat (s : State) (k : Nat) (f : Gang → Gang) : (s.modGang k f).xlat = s.xlat := rfl
@[simp] theorem State.modGang_colls (s : State) (k : Nat) (f : Gang → Gang) : (s.modGang k f).colls = s.colls := rfl
@[simp] theorem State.modGang_prof (s : State) (k : Nat) (f : Gang → Gang) : (s.modGang k f).prof = s.prof := rfl
@[simp] theorem State.modGang_dbg (s : State) (k : Nat) (f : Gang → Gang) : (s.modGang k f).dbg = s.dbg := rfl

/-! ## modLaunch -/

@[simp] theorem State.modLaunch_agenda (s : State) (k : Nat) (f : Launch → Launch) : (s.modLaunch k f).agenda = s.agenda := rfl
@[simp] theorem State.modLaunch_issue (s : State) (k : Nat) (f : Launch → Launch) : (s.modLaunch k f).issue = s.issue := rfl
@[simp] theorem State.modLaunch_fresh (s : State) (k : Nat) (f : Launch → Launch) : (s.modLaunch k f).fresh = s.fresh := rfl
@[simp] theorem State.modLaunch_open_ (s : State) (k : Nat) (f : Launch → Launch) : (s.modLaunch k f).open_ = s.open_ := rfl
@[simp] theorem State.modLaunch_clk (s : State) (k : Nat) (f : Launch → Launch) : (s.modLaunch k f).clk = s.clk := rfl
@[simp] theorem State.modLaunch_mem (s : State) (k : Nat) (f : Launch → Launch) : (s.modLaunch k f).mem = s.mem := rfl
@[simp] theorem State.modLaunch_host (s : State) (k : Nat) (f : Launch → Launch) : (s.modLaunch k f).host = s.host := rfl
@[simp] theorem State.modLaunch_boot (s : State) (k : Nat) (f : Launch → Launch) : (s.modLaunch k f).boot = s.boot := rfl
@[simp] theorem State.modLaunch_fab (s : State) (k : Nat) (f : Launch → Launch) : (s.modLaunch k f).fab = s.fab := rfl
@[simp] theorem State.modLaunch_disp (s : State) (k : Nat) (f : Launch → Launch) : (s.modLaunch k f).disp = s.disp := rfl
@[simp] theorem State.modLaunch_launches (s : State) (k : Nat) (f : Launch → Launch) : (s.modLaunch k f).launches = Table.modify s.launches k f := rfl
@[simp] theorem State.modLaunch_gangs (s : State) (k : Nat) (f : Launch → Launch) : (s.modLaunch k f).gangs = s.gangs := rfl
@[simp] theorem State.modLaunch_groups (s : State) (k : Nat) (f : Launch → Launch) : (s.modLaunch k f).groups = s.groups := rfl
@[simp] theorem State.modLaunch_cores (s : State) (k : Nat) (f : Launch → Launch) : (s.modLaunch k f).cores = s.cores := rfl
@[simp] theorem State.modLaunch_clusters (s : State) (k : Nat) (f : Launch → Launch) : (s.modLaunch k f).clusters = s.clusters := rfl
@[simp] theorem State.modLaunch_regions (s : State) (k : Nat) (f : Launch → Launch) : (s.modLaunch k f).regions = s.regions := rfl
@[simp] theorem State.modLaunch_xlat (s : State) (k : Nat) (f : Launch → Launch) : (s.modLaunch k f).xlat = s.xlat := rfl
@[simp] theorem State.modLaunch_colls (s : State) (k : Nat) (f : Launch → Launch) : (s.modLaunch k f).colls = s.colls := rfl
@[simp] theorem State.modLaunch_prof (s : State) (k : Nat) (f : Launch → Launch) : (s.modLaunch k f).prof = s.prof := rfl
@[simp] theorem State.modLaunch_dbg (s : State) (k : Nat) (f : Launch → Launch) : (s.modLaunch k f).dbg = s.dbg := rfl

/-! ## modRegion -/

@[simp] theorem State.modRegion_agenda (s : State) (k : Nat) (f : Region → Region) : (s.modRegion k f).agenda = s.agenda := rfl
@[simp] theorem State.modRegion_issue (s : State) (k : Nat) (f : Region → Region) : (s.modRegion k f).issue = s.issue := rfl
@[simp] theorem State.modRegion_fresh (s : State) (k : Nat) (f : Region → Region) : (s.modRegion k f).fresh = s.fresh := rfl
@[simp] theorem State.modRegion_open_ (s : State) (k : Nat) (f : Region → Region) : (s.modRegion k f).open_ = s.open_ := rfl
@[simp] theorem State.modRegion_clk (s : State) (k : Nat) (f : Region → Region) : (s.modRegion k f).clk = s.clk := rfl
@[simp] theorem State.modRegion_mem (s : State) (k : Nat) (f : Region → Region) : (s.modRegion k f).mem = s.mem := rfl
@[simp] theorem State.modRegion_host (s : State) (k : Nat) (f : Region → Region) : (s.modRegion k f).host = s.host := rfl
@[simp] theorem State.modRegion_boot (s : State) (k : Nat) (f : Region → Region) : (s.modRegion k f).boot = s.boot := rfl
@[simp] theorem State.modRegion_fab (s : State) (k : Nat) (f : Region → Region) : (s.modRegion k f).fab = s.fab := rfl
@[simp] theorem State.modRegion_disp (s : State) (k : Nat) (f : Region → Region) : (s.modRegion k f).disp = s.disp := rfl
@[simp] theorem State.modRegion_launches (s : State) (k : Nat) (f : Region → Region) : (s.modRegion k f).launches = s.launches := rfl
@[simp] theorem State.modRegion_gangs (s : State) (k : Nat) (f : Region → Region) : (s.modRegion k f).gangs = s.gangs := rfl
@[simp] theorem State.modRegion_groups (s : State) (k : Nat) (f : Region → Region) : (s.modRegion k f).groups = s.groups := rfl
@[simp] theorem State.modRegion_cores (s : State) (k : Nat) (f : Region → Region) : (s.modRegion k f).cores = s.cores := rfl
@[simp] theorem State.modRegion_clusters (s : State) (k : Nat) (f : Region → Region) : (s.modRegion k f).clusters = s.clusters := rfl
@[simp] theorem State.modRegion_regions (s : State) (k : Nat) (f : Region → Region) : (s.modRegion k f).regions = Table.modify s.regions k f := rfl
@[simp] theorem State.modRegion_xlat (s : State) (k : Nat) (f : Region → Region) : (s.modRegion k f).xlat = s.xlat := rfl
@[simp] theorem State.modRegion_colls (s : State) (k : Nat) (f : Region → Region) : (s.modRegion k f).colls = s.colls := rfl
@[simp] theorem State.modRegion_prof (s : State) (k : Nat) (f : Region → Region) : (s.modRegion k f).prof = s.prof := rfl
@[simp] theorem State.modRegion_dbg (s : State) (k : Nat) (f : Region → Region) : (s.modRegion k f).dbg = s.dbg := rfl

/-! ## modCore -/

@[simp] theorem State.modCore_agenda (s : State) (k : Nat) (f : Core → Core) : (s.modCore k f).agenda = s.agenda := rfl
@[simp] theorem State.modCore_issue (s : State) (k : Nat) (f : Core → Core) : (s.modCore k f).issue = s.issue := rfl
@[simp] theorem State.modCore_fresh (s : State) (k : Nat) (f : Core → Core) : (s.modCore k f).fresh = s.fresh := rfl
@[simp] theorem State.modCore_open_ (s : State) (k : Nat) (f : Core → Core) : (s.modCore k f).open_ = s.open_ := rfl
@[simp] theorem State.modCore_clk (s : State) (k : Nat) (f : Core → Core) : (s.modCore k f).clk = s.clk := rfl
@[simp] theorem State.modCore_mem (s : State) (k : Nat) (f : Core → Core) : (s.modCore k f).mem = s.mem := rfl
@[simp] theorem State.modCore_host (s : State) (k : Nat) (f : Core → Core) : (s.modCore k f).host = s.host := rfl
@[simp] theorem State.modCore_boot (s : State) (k : Nat) (f : Core → Core) : (s.modCore k f).boot = s.boot := rfl
@[simp] theorem State.modCore_fab (s : State) (k : Nat) (f : Core → Core) : (s.modCore k f).fab = s.fab := rfl
@[simp] theorem State.modCore_disp (s : State) (k : Nat) (f : Core → Core) : (s.modCore k f).disp = s.disp := rfl
@[simp] theorem State.modCore_launches (s : State) (k : Nat) (f : Core → Core) : (s.modCore k f).launches = s.launches := rfl
@[simp] theorem State.modCore_gangs (s : State) (k : Nat) (f : Core → Core) : (s.modCore k f).gangs = s.gangs := rfl
@[simp] theorem State.modCore_groups (s : State) (k : Nat) (f : Core → Core) : (s.modCore k f).groups = s.groups := rfl
@[simp] theorem State.modCore_cores (s : State) (k : Nat) (f : Core → Core) : (s.modCore k f).cores = Table.set s.cores k (f (s.core k)) := rfl
@[simp] theorem State.modCore_clusters (s : State) (k : Nat) (f : Core → Core) : (s.modCore k f).clusters = s.clusters := rfl
@[simp] theorem State.modCore_regions (s : State) (k : Nat) (f : Core → Core) : (s.modCore k f).regions = s.regions := rfl
@[simp] theorem State.modCore_xlat (s : State) (k : Nat) (f : Core → Core) : (s.modCore k f).xlat = s.xlat := rfl
@[simp] theorem State.modCore_colls (s : State) (k : Nat) (f : Core → Core) : (s.modCore k f).colls = s.colls := rfl
@[simp] theorem State.modCore_prof (s : State) (k : Nat) (f : Core → Core) : (s.modCore k f).prof = s.prof := rfl
@[simp] theorem State.modCore_dbg (s : State) (k : Nat) (f : Core → Core) : (s.modCore k f).dbg = s.dbg := rfl

/-! ## modCluster -/

@[simp] theorem State.modCluster_agenda (s : State) (k : Nat) (f : Cluster → Cluster) : (s.modCluster k f).agenda = s.agenda := rfl
@[simp] theorem State.modCluster_issue (s : State) (k : Nat) (f : Cluster → Cluster) : (s.modCluster k f).issue = s.issue := rfl
@[simp] theorem State.modCluster_fresh (s : State) (k : Nat) (f : Cluster → Cluster) : (s.modCluster k f).fresh = s.fresh := rfl
@[simp] theorem State.modCluster_open_ (s : State) (k : Nat) (f : Cluster → Cluster) : (s.modCluster k f).open_ = s.open_ := rfl
@[simp] theorem State.modCluster_clk (s : State) (k : Nat) (f : Cluster → Cluster) : (s.modCluster k f).clk = s.clk := rfl
@[simp] theorem State.modCluster_mem (s : State) (k : Nat) (f : Cluster → Cluster) : (s.modCluster k f).mem = s.mem := rfl
@[simp] theorem State.modCluster_host (s : State) (k : Nat) (f : Cluster → Cluster) : (s.modCluster k f).host = s.host := rfl
@[simp] theorem State.modCluster_boot (s : State) (k : Nat) (f : Cluster → Cluster) : (s.modCluster k f).boot = s.boot := rfl
@[simp] theorem State.modCluster_fab (s : State) (k : Nat) (f : Cluster → Cluster) : (s.modCluster k f).fab = s.fab := rfl
@[simp] theorem State.modCluster_disp (s : State) (k : Nat) (f : Cluster → Cluster) : (s.modCluster k f).disp = s.disp := rfl
@[simp] theorem State.modCluster_launches (s : State) (k : Nat) (f : Cluster → Cluster) : (s.modCluster k f).launches = s.launches := rfl
@[simp] theorem State.modCluster_gangs (s : State) (k : Nat) (f : Cluster → Cluster) : (s.modCluster k f).gangs = s.gangs := rfl
@[simp] theorem State.modCluster_groups (s : State) (k : Nat) (f : Cluster → Cluster) : (s.modCluster k f).groups = s.groups := rfl
@[simp] theorem State.modCluster_cores (s : State) (k : Nat) (f : Cluster → Cluster) : (s.modCluster k f).cores = s.cores := rfl
@[simp] theorem State.modCluster_clusters (s : State) (k : Nat) (f : Cluster → Cluster) : (s.modCluster k f).clusters = Table.set s.clusters k (f (s.cluster k)) := rfl
@[simp] theorem State.modCluster_regions (s : State) (k : Nat) (f : Cluster → Cluster) : (s.modCluster k f).regions = s.regions := rfl
@[simp] theorem State.modCluster_xlat (s : State) (k : Nat) (f : Cluster → Cluster) : (s.modCluster k f).xlat = s.xlat := rfl
@[simp] theorem State.modCluster_colls (s : State) (k : Nat) (f : Cluster → Cluster) : (s.modCluster k f).colls = s.colls := rfl
@[simp] theorem State.modCluster_prof (s : State) (k : Nat) (f : Cluster → Cluster) : (s.modCluster k f).prof = s.prof := rfl
@[simp] theorem State.modCluster_dbg (s : State) (k : Nat) (f : Cluster → Cluster) : (s.modCluster k f).dbg = s.dbg := rfl

/-! ## setMem -/

@[simp] theorem State.setMem_agenda (s : State) (m : Memory) : (s.setMem m).agenda = s.agenda := rfl
@[simp] theorem State.setMem_issue (s : State) (m : Memory) : (s.setMem m).issue = s.issue := rfl
@[simp] theorem State.setMem_fresh (s : State) (m : Memory) : (s.setMem m).fresh = s.fresh := rfl
@[simp] theorem State.setMem_open_ (s : State) (m : Memory) : (s.setMem m).open_ = s.open_ := rfl
@[simp] theorem State.setMem_clk (s : State) (m : Memory) : (s.setMem m).clk = s.clk := rfl
@[simp] theorem State.setMem_mem (s : State) (m : Memory) : (s.setMem m).mem = m := rfl
@[simp] theorem State.setMem_host (s : State) (m : Memory) : (s.setMem m).host = s.host := rfl
@[simp] theorem State.setMem_boot (s : State) (m : Memory) : (s.setMem m).boot = s.boot := rfl
@[simp] theorem State.setMem_fab (s : State) (m : Memory) : (s.setMem m).fab = s.fab := rfl
@[simp] theorem State.setMem_disp (s : State) (m : Memory) : (s.setMem m).disp = s.disp := rfl
@[simp] theorem State.setMem_launches (s : State) (m : Memory) : (s.setMem m).launches = s.launches := rfl
@[simp] theorem State.setMem_gangs (s : State) (m : Memory) : (s.setMem m).gangs = s.gangs := rfl
@[simp] theorem State.setMem_groups (s : State) (m : Memory) : (s.setMem m).groups = s.groups := rfl
@[simp] theorem State.setMem_cores (s : State) (m : Memory) : (s.setMem m).cores = s.cores := rfl
@[simp] theorem State.setMem_clusters (s : State) (m : Memory) : (s.setMem m).clusters = s.clusters := rfl
@[simp] theorem State.setMem_regions (s : State) (m : Memory) : (s.setMem m).regions = s.regions := rfl
@[simp] theorem State.setMem_xlat (s : State) (m : Memory) : (s.setMem m).xlat = s.xlat := rfl
@[simp] theorem State.setMem_colls (s : State) (m : Memory) : (s.setMem m).colls = s.colls := rfl
@[simp] theorem State.setMem_prof (s : State) (m : Memory) : (s.setMem m).prof = s.prof := rfl
@[simp] theorem State.setMem_dbg (s : State) (m : Memory) : (s.setMem m).dbg = s.dbg := rfl

/-! ## setIssue -/

@[simp] theorem State.setIssue_agenda (s : State) (is : Option Issue) : (s.setIssue is).agenda = s.agenda := rfl
@[simp] theorem State.setIssue_issue (s : State) (is : Option Issue) : (s.setIssue is).issue = is := rfl
@[simp] theorem State.setIssue_fresh (s : State) (is : Option Issue) : (s.setIssue is).fresh = s.fresh := rfl
@[simp] theorem State.setIssue_open_ (s : State) (is : Option Issue) : (s.setIssue is).open_ = s.open_ := rfl
@[simp] theorem State.setIssue_clk (s : State) (is : Option Issue) : (s.setIssue is).clk = s.clk := rfl
@[simp] theorem State.setIssue_mem (s : State) (is : Option Issue) : (s.setIssue is).mem = s.mem := rfl
@[simp] theorem State.setIssue_host (s : State) (is : Option Issue) : (s.setIssue is).host = s.host := rfl
@[simp] theorem State.setIssue_boot (s : State) (is : Option Issue) : (s.setIssue is).boot = s.boot := rfl
@[simp] theorem State.setIssue_fab (s : State) (is : Option Issue) : (s.setIssue is).fab = s.fab := rfl
@[simp] theorem State.setIssue_disp (s : State) (is : Option Issue) : (s.setIssue is).disp = s.disp := rfl
@[simp] theorem State.setIssue_launches (s : State) (is : Option Issue) : (s.setIssue is).launches = s.launches := rfl
@[simp] theorem State.setIssue_gangs (s : State) (is : Option Issue) : (s.setIssue is).gangs = s.gangs := rfl
@[simp] theorem State.setIssue_groups (s : State) (is : Option Issue) : (s.setIssue is).groups = s.groups := rfl
@[simp] theorem State.setIssue_cores (s : State) (is : Option Issue) : (s.setIssue is).cores = s.cores := rfl
@[simp] theorem State.setIssue_clusters (s : State) (is : Option Issue) : (s.setIssue is).clusters = s.clusters := rfl
@[simp] theorem State.setIssue_regions (s : State) (is : Option Issue) : (s.setIssue is).regions = s.regions := rfl
@[simp] theorem State.setIssue_xlat (s : State) (is : Option Issue) : (s.setIssue is).xlat = s.xlat := rfl
@[simp] theorem State.setIssue_colls (s : State) (is : Option Issue) : (s.setIssue is).colls = s.colls := rfl
@[simp] theorem State.setIssue_prof (s : State) (is : Option Issue) : (s.setIssue is).prof = s.prof := rfl
@[simp] theorem State.setIssue_dbg (s : State) (is : Option Issue) : (s.setIssue is).dbg = s.dbg := rfl

/-! ## modHost -/

@[simp] theorem State.modHost_agenda (s : State) (f : HostIf → HostIf) : (s.modHost f).agenda = s.agenda := rfl
@[simp] theorem State.modHost_issue (s : State) (f : HostIf → HostIf) : (s.modHost f).issue = s.issue := rfl
@[simp] theorem State.modHost_fresh (s : State) (f : HostIf → HostIf) : (s.modHost f).fresh = s.fresh := rfl
@[simp] theorem State.modHost_open_ (s : State) (f : HostIf → HostIf) : (s.modHost f).open_ = s.open_ := rfl
@[simp] theorem State.modHost_clk (s : State) (f : HostIf → HostIf) : (s.modHost f).clk = s.clk := rfl
@[simp] theorem State.modHost_mem (s : State) (f : HostIf → HostIf) : (s.modHost f).mem = s.mem := rfl
@[simp] theorem State.modHost_host (s : State) (f : HostIf → HostIf) : (s.modHost f).host = f s.host := rfl
@[simp] theorem State.modHost_boot (s : State) (f : HostIf → HostIf) : (s.modHost f).boot = s.boot := rfl
@[simp] theorem State.modHost_fab (s : State) (f : HostIf → HostIf) : (s.modHost f).fab = s.fab := rfl
@[simp] theorem State.modHost_disp (s : State) (f : HostIf → HostIf) : (s.modHost f).disp = s.disp := rfl
@[simp] theorem State.modHost_launches (s : State) (f : HostIf → HostIf) : (s.modHost f).launches = s.launches := rfl
@[simp] theorem State.modHost_gangs (s : State) (f : HostIf → HostIf) : (s.modHost f).gangs = s.gangs := rfl
@[simp] theorem State.modHost_groups (s : State) (f : HostIf → HostIf) : (s.modHost f).groups = s.groups := rfl
@[simp] theorem State.modHost_cores (s : State) (f : HostIf → HostIf) : (s.modHost f).cores = s.cores := rfl
@[simp] theorem State.modHost_clusters (s : State) (f : HostIf → HostIf) : (s.modHost f).clusters = s.clusters := rfl
@[simp] theorem State.modHost_regions (s : State) (f : HostIf → HostIf) : (s.modHost f).regions = s.regions := rfl
@[simp] theorem State.modHost_xlat (s : State) (f : HostIf → HostIf) : (s.modHost f).xlat = s.xlat := rfl
@[simp] theorem State.modHost_colls (s : State) (f : HostIf → HostIf) : (s.modHost f).colls = s.colls := rfl
@[simp] theorem State.modHost_prof (s : State) (f : HostIf → HostIf) : (s.modHost f).prof = s.prof := rfl
@[simp] theorem State.modHost_dbg (s : State) (f : HostIf → HostIf) : (s.modHost f).dbg = s.dbg := rfl

/-! ## modFab -/

@[simp] theorem State.modFab_agenda (s : State) (f : Fabric → Fabric) : (s.modFab f).agenda = s.agenda := rfl
@[simp] theorem State.modFab_issue (s : State) (f : Fabric → Fabric) : (s.modFab f).issue = s.issue := rfl
@[simp] theorem State.modFab_fresh (s : State) (f : Fabric → Fabric) : (s.modFab f).fresh = s.fresh := rfl
@[simp] theorem State.modFab_open_ (s : State) (f : Fabric → Fabric) : (s.modFab f).open_ = s.open_ := rfl
@[simp] theorem State.modFab_clk (s : State) (f : Fabric → Fabric) : (s.modFab f).clk = s.clk := rfl
@[simp] theorem State.modFab_mem (s : State) (f : Fabric → Fabric) : (s.modFab f).mem = s.mem := rfl
@[simp] theorem State.modFab_host (s : State) (f : Fabric → Fabric) : (s.modFab f).host = s.host := rfl
@[simp] theorem State.modFab_boot (s : State) (f : Fabric → Fabric) : (s.modFab f).boot = s.boot := rfl
@[simp] theorem State.modFab_fab (s : State) (f : Fabric → Fabric) : (s.modFab f).fab = f s.fab := rfl
@[simp] theorem State.modFab_disp (s : State) (f : Fabric → Fabric) : (s.modFab f).disp = s.disp := rfl
@[simp] theorem State.modFab_launches (s : State) (f : Fabric → Fabric) : (s.modFab f).launches = s.launches := rfl
@[simp] theorem State.modFab_gangs (s : State) (f : Fabric → Fabric) : (s.modFab f).gangs = s.gangs := rfl
@[simp] theorem State.modFab_groups (s : State) (f : Fabric → Fabric) : (s.modFab f).groups = s.groups := rfl
@[simp] theorem State.modFab_cores (s : State) (f : Fabric → Fabric) : (s.modFab f).cores = s.cores := rfl
@[simp] theorem State.modFab_clusters (s : State) (f : Fabric → Fabric) : (s.modFab f).clusters = s.clusters := rfl
@[simp] theorem State.modFab_regions (s : State) (f : Fabric → Fabric) : (s.modFab f).regions = s.regions := rfl
@[simp] theorem State.modFab_xlat (s : State) (f : Fabric → Fabric) : (s.modFab f).xlat = s.xlat := rfl
@[simp] theorem State.modFab_colls (s : State) (f : Fabric → Fabric) : (s.modFab f).colls = s.colls := rfl
@[simp] theorem State.modFab_prof (s : State) (f : Fabric → Fabric) : (s.modFab f).prof = s.prof := rfl
@[simp] theorem State.modFab_dbg (s : State) (f : Fabric → Fabric) : (s.modFab f).dbg = s.dbg := rfl

/-! ## modQueue -/

@[simp] theorem State.modQueue_agenda (s : State) (q : Nat) (f : Queue → Queue) : (s.modQueue q f).agenda = s.agenda := rfl
@[simp] theorem State.modQueue_issue (s : State) (q : Nat) (f : Queue → Queue) : (s.modQueue q f).issue = s.issue := rfl
@[simp] theorem State.modQueue_fresh (s : State) (q : Nat) (f : Queue → Queue) : (s.modQueue q f).fresh = s.fresh := rfl
@[simp] theorem State.modQueue_open_ (s : State) (q : Nat) (f : Queue → Queue) : (s.modQueue q f).open_ = s.open_ := rfl
@[simp] theorem State.modQueue_clk (s : State) (q : Nat) (f : Queue → Queue) : (s.modQueue q f).clk = s.clk := rfl
@[simp] theorem State.modQueue_mem (s : State) (q : Nat) (f : Queue → Queue) : (s.modQueue q f).mem = s.mem := rfl
@[simp] theorem State.modQueue_host (s : State) (q : Nat) (f : Queue → Queue) : (s.modQueue q f).host = s.host := rfl
@[simp] theorem State.modQueue_boot (s : State) (q : Nat) (f : Queue → Queue) : (s.modQueue q f).boot = s.boot := rfl
@[simp] theorem State.modQueue_fab (s : State) (q : Nat) (f : Queue → Queue) : (s.modQueue q f).fab = s.fab := rfl
@[simp] theorem State.modQueue_disp (s : State) (q : Nat) (f : Queue → Queue) : (s.modQueue q f).disp = { s.disp with queues := Table.modify s.disp.queues q f } := rfl
@[simp] theorem State.modQueue_launches (s : State) (q : Nat) (f : Queue → Queue) : (s.modQueue q f).launches = s.launches := rfl
@[simp] theorem State.modQueue_gangs (s : State) (q : Nat) (f : Queue → Queue) : (s.modQueue q f).gangs = s.gangs := rfl
@[simp] theorem State.modQueue_groups (s : State) (q : Nat) (f : Queue → Queue) : (s.modQueue q f).groups = s.groups := rfl
@[simp] theorem State.modQueue_cores (s : State) (q : Nat) (f : Queue → Queue) : (s.modQueue q f).cores = s.cores := rfl
@[simp] theorem State.modQueue_clusters (s : State) (q : Nat) (f : Queue → Queue) : (s.modQueue q f).clusters = s.clusters := rfl
@[simp] theorem State.modQueue_regions (s : State) (q : Nat) (f : Queue → Queue) : (s.modQueue q f).regions = s.regions := rfl
@[simp] theorem State.modQueue_xlat (s : State) (q : Nat) (f : Queue → Queue) : (s.modQueue q f).xlat = s.xlat := rfl
@[simp] theorem State.modQueue_colls (s : State) (q : Nat) (f : Queue → Queue) : (s.modQueue q f).colls = s.colls := rfl
@[simp] theorem State.modQueue_prof (s : State) (q : Nat) (f : Queue → Queue) : (s.modQueue q f).prof = s.prof := rfl
@[simp] theorem State.modQueue_dbg (s : State) (q : Nat) (f : Queue → Queue) : (s.modQueue q f).dbg = s.dbg := rfl

/-! ## modPart -/

@[simp] theorem State.modPart_agenda (s : State) (k : Nat) (f : Partition → Partition) : (s.modPart k f).agenda = s.agenda := rfl
@[simp] theorem State.modPart_issue (s : State) (k : Nat) (f : Partition → Partition) : (s.modPart k f).issue = s.issue := rfl
@[simp] theorem State.modPart_fresh (s : State) (k : Nat) (f : Partition → Partition) : (s.modPart k f).fresh = s.fresh := rfl
@[simp] theorem State.modPart_open_ (s : State) (k : Nat) (f : Partition → Partition) : (s.modPart k f).open_ = s.open_ := rfl
@[simp] theorem State.modPart_clk (s : State) (k : Nat) (f : Partition → Partition) : (s.modPart k f).clk = s.clk := rfl
@[simp] theorem State.modPart_mem (s : State) (k : Nat) (f : Partition → Partition) : (s.modPart k f).mem = s.mem := rfl
@[simp] theorem State.modPart_host (s : State) (k : Nat) (f : Partition → Partition) : (s.modPart k f).host = s.host := rfl
@[simp] theorem State.modPart_boot (s : State) (k : Nat) (f : Partition → Partition) : (s.modPart k f).boot = s.boot := rfl
@[simp] theorem State.modPart_fab (s : State) (k : Nat) (f : Partition → Partition) : (s.modPart k f).fab = s.fab := rfl
@[simp] theorem State.modPart_disp (s : State) (k : Nat) (f : Partition → Partition) : (s.modPart k f).disp = s.disp := rfl
@[simp] theorem State.modPart_launches (s : State) (k : Nat) (f : Partition → Partition) : (s.modPart k f).launches = s.launches := rfl
@[simp] theorem State.modPart_gangs (s : State) (k : Nat) (f : Partition → Partition) : (s.modPart k f).gangs = s.gangs := rfl
@[simp] theorem State.modPart_groups (s : State) (k : Nat) (f : Partition → Partition) : (s.modPart k f).groups = s.groups := rfl
@[simp] theorem State.modPart_cores (s : State) (k : Nat) (f : Partition → Partition) : (s.modPart k f).cores = s.cores := rfl
@[simp] theorem State.modPart_clusters (s : State) (k : Nat) (f : Partition → Partition) : (s.modPart k f).clusters = s.clusters := rfl
@[simp] theorem State.modPart_regions (s : State) (k : Nat) (f : Partition → Partition) : (s.modPart k f).regions = s.regions := rfl
@[simp] theorem State.modPart_xlat (s : State) (k : Nat) (f : Partition → Partition) : (s.modPart k f).xlat = s.xlat := rfl
@[simp] theorem State.modPart_colls (s : State) (k : Nat) (f : Partition → Partition) : (s.modPart k f).colls = s.colls := rfl
@[simp] theorem State.modPart_prof (s : State) (k : Nat) (f : Partition → Partition) : (s.modPart k f).prof = { s.prof with parts := Table.modify s.prof.parts k f } := rfl
@[simp] theorem State.modPart_dbg (s : State) (k : Nat) (f : Partition → Partition) : (s.modPart k f).dbg = s.dbg := rfl

/-! ## tally changes nothing but prof -/

@[simp] theorem State.tally_agenda (s : State) (p e n : Nat) : (s.tally p e n).agenda = s.agenda := rfl
@[simp] theorem State.tally_issue (s : State) (p e n : Nat) : (s.tally p e n).issue = s.issue := rfl
@[simp] theorem State.tally_fresh (s : State) (p e n : Nat) : (s.tally p e n).fresh = s.fresh := rfl
@[simp] theorem State.tally_open_ (s : State) (p e n : Nat) : (s.tally p e n).open_ = s.open_ := rfl
@[simp] theorem State.tally_clk (s : State) (p e n : Nat) : (s.tally p e n).clk = s.clk := rfl
@[simp] theorem State.tally_mem (s : State) (p e n : Nat) : (s.tally p e n).mem = s.mem := rfl
@[simp] theorem State.tally_host (s : State) (p e n : Nat) : (s.tally p e n).host = s.host := rfl
@[simp] theorem State.tally_boot (s : State) (p e n : Nat) : (s.tally p e n).boot = s.boot := rfl
@[simp] theorem State.tally_fab (s : State) (p e n : Nat) : (s.tally p e n).fab = s.fab := rfl
@[simp] theorem State.tally_disp (s : State) (p e n : Nat) : (s.tally p e n).disp = s.disp := rfl
@[simp] theorem State.tally_launches (s : State) (p e n : Nat) : (s.tally p e n).launches = s.launches := rfl
@[simp] theorem State.tally_gangs (s : State) (p e n : Nat) : (s.tally p e n).gangs = s.gangs := rfl
@[simp] theorem State.tally_groups (s : State) (p e n : Nat) : (s.tally p e n).groups = s.groups := rfl
@[simp] theorem State.tally_cores (s : State) (p e n : Nat) : (s.tally p e n).cores = s.cores := rfl
@[simp] theorem State.tally_clusters (s : State) (p e n : Nat) : (s.tally p e n).clusters = s.clusters := rfl
@[simp] theorem State.tally_regions (s : State) (p e n : Nat) : (s.tally p e n).regions = s.regions := rfl
@[simp] theorem State.tally_xlat (s : State) (p e n : Nat) : (s.tally p e n).xlat = s.xlat := rfl
@[simp] theorem State.tally_colls (s : State) (p e n : Nat) : (s.tally p e n).colls = s.colls := rfl
@[simp] theorem State.tally_dbg (s : State) (p e n : Nat) : (s.tally p e n).dbg = s.dbg := rfl

/-! ## notice changes nothing but host -/

@[simp] theorem State.notice_agenda (s : State) (b : List Byte) : (s.notice b).agenda = s.agenda := rfl
@[simp] theorem State.notice_issue (s : State) (b : List Byte) : (s.notice b).issue = s.issue := rfl
@[simp] theorem State.notice_fresh (s : State) (b : List Byte) : (s.notice b).fresh = s.fresh := rfl
@[simp] theorem State.notice_open_ (s : State) (b : List Byte) : (s.notice b).open_ = s.open_ := rfl
@[simp] theorem State.notice_clk (s : State) (b : List Byte) : (s.notice b).clk = s.clk := rfl
@[simp] theorem State.notice_mem (s : State) (b : List Byte) : (s.notice b).mem = s.mem := rfl
@[simp] theorem State.notice_boot (s : State) (b : List Byte) : (s.notice b).boot = s.boot := rfl
@[simp] theorem State.notice_fab (s : State) (b : List Byte) : (s.notice b).fab = s.fab := rfl
@[simp] theorem State.notice_disp (s : State) (b : List Byte) : (s.notice b).disp = s.disp := rfl
@[simp] theorem State.notice_launches (s : State) (b : List Byte) : (s.notice b).launches = s.launches := rfl
@[simp] theorem State.notice_gangs (s : State) (b : List Byte) : (s.notice b).gangs = s.gangs := rfl
@[simp] theorem State.notice_groups (s : State) (b : List Byte) : (s.notice b).groups = s.groups := rfl
@[simp] theorem State.notice_cores (s : State) (b : List Byte) : (s.notice b).cores = s.cores := rfl
@[simp] theorem State.notice_clusters (s : State) (b : List Byte) : (s.notice b).clusters = s.clusters := rfl
@[simp] theorem State.notice_regions (s : State) (b : List Byte) : (s.notice b).regions = s.regions := rfl
@[simp] theorem State.notice_xlat (s : State) (b : List Byte) : (s.notice b).xlat = s.xlat := rfl
@[simp] theorem State.notice_colls (s : State) (b : List Byte) : (s.notice b).colls = s.colls := rfl
@[simp] theorem State.notice_prof (s : State) (b : List Byte) : (s.notice b).prof = s.prof := rfl
@[simp] theorem State.notice_dbg (s : State) (b : List Byte) : (s.notice b).dbg = s.dbg := rfl

/-! ## pin changes nothing but regions -/

@[simp] theorem State.pin_agenda (s : State) (h n : Nat) : (s.pin h n).agenda = s.agenda := rfl
@[simp] theorem State.pin_issue (s : State) (h n : Nat) : (s.pin h n).issue = s.issue := rfl
@[simp] theorem State.pin_fresh (s : State) (h n : Nat) : (s.pin h n).fresh = s.fresh := rfl
@[simp] theorem State.pin_open_ (s : State) (h n : Nat) : (s.pin h n).open_ = s.open_ := rfl
@[simp] theorem State.pin_clk (s : State) (h n : Nat) : (s.pin h n).clk = s.clk := rfl
@[simp] theorem State.pin_mem (s : State) (h n : Nat) : (s.pin h n).mem = s.mem := rfl
@[simp] theorem State.pin_host (s : State) (h n : Nat) : (s.pin h n).host = s.host := rfl
@[simp] theorem State.pin_boot (s : State) (h n : Nat) : (s.pin h n).boot = s.boot := rfl
@[simp] theorem State.pin_fab (s : State) (h n : Nat) : (s.pin h n).fab = s.fab := rfl
@[simp] theorem State.pin_disp (s : State) (h n : Nat) : (s.pin h n).disp = s.disp := rfl
@[simp] theorem State.pin_launches (s : State) (h n : Nat) : (s.pin h n).launches = s.launches := rfl
@[simp] theorem State.pin_gangs (s : State) (h n : Nat) : (s.pin h n).gangs = s.gangs := rfl
@[simp] theorem State.pin_groups (s : State) (h n : Nat) : (s.pin h n).groups = s.groups := rfl
@[simp] theorem State.pin_cores (s : State) (h n : Nat) : (s.pin h n).cores = s.cores := rfl
@[simp] theorem State.pin_clusters (s : State) (h n : Nat) : (s.pin h n).clusters = s.clusters := rfl
@[simp] theorem State.pin_xlat (s : State) (h n : Nat) : (s.pin h n).xlat = s.xlat := rfl
@[simp] theorem State.pin_colls (s : State) (h n : Nat) : (s.pin h n).colls = s.colls := rfl
@[simp] theorem State.pin_prof (s : State) (h n : Nat) : (s.pin h n).prof = s.prof := rfl
@[simp] theorem State.pin_dbg (s : State) (h n : Nat) : (s.pin h n).dbg = s.dbg := rfl

/-! ## unpin changes nothing but regions -/

@[simp] theorem State.unpin_agenda (s : State) (h n : Nat) : (s.unpin h n).agenda = s.agenda := rfl
@[simp] theorem State.unpin_issue (s : State) (h n : Nat) : (s.unpin h n).issue = s.issue := rfl
@[simp] theorem State.unpin_fresh (s : State) (h n : Nat) : (s.unpin h n).fresh = s.fresh := rfl
@[simp] theorem State.unpin_open_ (s : State) (h n : Nat) : (s.unpin h n).open_ = s.open_ := rfl
@[simp] theorem State.unpin_clk (s : State) (h n : Nat) : (s.unpin h n).clk = s.clk := rfl
@[simp] theorem State.unpin_mem (s : State) (h n : Nat) : (s.unpin h n).mem = s.mem := rfl
@[simp] theorem State.unpin_host (s : State) (h n : Nat) : (s.unpin h n).host = s.host := rfl
@[simp] theorem State.unpin_boot (s : State) (h n : Nat) : (s.unpin h n).boot = s.boot := rfl
@[simp] theorem State.unpin_fab (s : State) (h n : Nat) : (s.unpin h n).fab = s.fab := rfl
@[simp] theorem State.unpin_disp (s : State) (h n : Nat) : (s.unpin h n).disp = s.disp := rfl
@[simp] theorem State.unpin_launches (s : State) (h n : Nat) : (s.unpin h n).launches = s.launches := rfl
@[simp] theorem State.unpin_gangs (s : State) (h n : Nat) : (s.unpin h n).gangs = s.gangs := rfl
@[simp] theorem State.unpin_groups (s : State) (h n : Nat) : (s.unpin h n).groups = s.groups := rfl
@[simp] theorem State.unpin_cores (s : State) (h n : Nat) : (s.unpin h n).cores = s.cores := rfl
@[simp] theorem State.unpin_clusters (s : State) (h n : Nat) : (s.unpin h n).clusters = s.clusters := rfl
@[simp] theorem State.unpin_xlat (s : State) (h n : Nat) : (s.unpin h n).xlat = s.xlat := rfl
@[simp] theorem State.unpin_colls (s : State) (h n : Nat) : (s.unpin h n).colls = s.colls := rfl
@[simp] theorem State.unpin_prof (s : State) (h n : Nat) : (s.unpin h n).prof = s.prof := rfl
@[simp] theorem State.unpin_dbg (s : State) (h n : Nat) : (s.unpin h n).dbg = s.dbg := rfl

/-! ## respond changes nothing but host -/

@[simp] theorem State.respond_agenda (s : State) (q : Request) (r : BitVec 64) (d : List Byte) : (s.respond q r d).agenda = s.agenda := rfl
@[simp] theorem State.respond_issue (s : State) (q : Request) (r : BitVec 64) (d : List Byte) : (s.respond q r d).issue = s.issue := rfl
@[simp] theorem State.respond_fresh (s : State) (q : Request) (r : BitVec 64) (d : List Byte) : (s.respond q r d).fresh = s.fresh := rfl
@[simp] theorem State.respond_open_ (s : State) (q : Request) (r : BitVec 64) (d : List Byte) : (s.respond q r d).open_ = s.open_ := rfl
@[simp] theorem State.respond_clk (s : State) (q : Request) (r : BitVec 64) (d : List Byte) : (s.respond q r d).clk = s.clk := rfl
@[simp] theorem State.respond_mem (s : State) (q : Request) (r : BitVec 64) (d : List Byte) : (s.respond q r d).mem = s.mem := rfl
@[simp] theorem State.respond_boot (s : State) (q : Request) (r : BitVec 64) (d : List Byte) : (s.respond q r d).boot = s.boot := rfl
@[simp] theorem State.respond_fab (s : State) (q : Request) (r : BitVec 64) (d : List Byte) : (s.respond q r d).fab = s.fab := rfl
@[simp] theorem State.respond_disp (s : State) (q : Request) (r : BitVec 64) (d : List Byte) : (s.respond q r d).disp = s.disp := rfl
@[simp] theorem State.respond_launches (s : State) (q : Request) (r : BitVec 64) (d : List Byte) : (s.respond q r d).launches = s.launches := rfl
@[simp] theorem State.respond_gangs (s : State) (q : Request) (r : BitVec 64) (d : List Byte) : (s.respond q r d).gangs = s.gangs := rfl
@[simp] theorem State.respond_groups (s : State) (q : Request) (r : BitVec 64) (d : List Byte) : (s.respond q r d).groups = s.groups := rfl
@[simp] theorem State.respond_cores (s : State) (q : Request) (r : BitVec 64) (d : List Byte) : (s.respond q r d).cores = s.cores := rfl
@[simp] theorem State.respond_clusters (s : State) (q : Request) (r : BitVec 64) (d : List Byte) : (s.respond q r d).clusters = s.clusters := rfl
@[simp] theorem State.respond_regions (s : State) (q : Request) (r : BitVec 64) (d : List Byte) : (s.respond q r d).regions = s.regions := rfl
@[simp] theorem State.respond_xlat (s : State) (q : Request) (r : BitVec 64) (d : List Byte) : (s.respond q r d).xlat = s.xlat := rfl
@[simp] theorem State.respond_colls (s : State) (q : Request) (r : BitVec 64) (d : List Byte) : (s.respond q r d).colls = s.colls := rfl
@[simp] theorem State.respond_prof (s : State) (q : Request) (r : BitVec 64) (d : List Byte) : (s.respond q r d).prof = s.prof := rfl
@[simp] theorem State.respond_dbg (s : State) (q : Request) (r : BitVec 64) (d : List Byte) : (s.respond q r d).dbg = s.dbg := rfl

/-! ## watchStore changes nothing but groups -/

@[simp] theorem State.watchStore_agenda (s : State) (pa n : Nat) : (s.watchStore pa n).agenda = s.agenda := rfl
@[simp] theorem State.watchStore_issue (s : State) (pa n : Nat) : (s.watchStore pa n).issue = s.issue := rfl
@[simp] theorem State.watchStore_fresh (s : State) (pa n : Nat) : (s.watchStore pa n).fresh = s.fresh := rfl
@[simp] theorem State.watchStore_open_ (s : State) (pa n : Nat) : (s.watchStore pa n).open_ = s.open_ := rfl
@[simp] theorem State.watchStore_clk (s : State) (pa n : Nat) : (s.watchStore pa n).clk = s.clk := rfl
@[simp] theorem State.watchStore_mem (s : State) (pa n : Nat) : (s.watchStore pa n).mem = s.mem := rfl
@[simp] theorem State.watchStore_host (s : State) (pa n : Nat) : (s.watchStore pa n).host = s.host := rfl
@[simp] theorem State.watchStore_boot (s : State) (pa n : Nat) : (s.watchStore pa n).boot = s.boot := rfl
@[simp] theorem State.watchStore_fab (s : State) (pa n : Nat) : (s.watchStore pa n).fab = s.fab := rfl
@[simp] theorem State.watchStore_disp (s : State) (pa n : Nat) : (s.watchStore pa n).disp = s.disp := rfl
@[simp] theorem State.watchStore_launches (s : State) (pa n : Nat) : (s.watchStore pa n).launches = s.launches := rfl
@[simp] theorem State.watchStore_gangs (s : State) (pa n : Nat) : (s.watchStore pa n).gangs = s.gangs := rfl
@[simp] theorem State.watchStore_cores (s : State) (pa n : Nat) : (s.watchStore pa n).cores = s.cores := rfl
@[simp] theorem State.watchStore_clusters (s : State) (pa n : Nat) : (s.watchStore pa n).clusters = s.clusters := rfl
@[simp] theorem State.watchStore_regions (s : State) (pa n : Nat) : (s.watchStore pa n).regions = s.regions := rfl
@[simp] theorem State.watchStore_xlat (s : State) (pa n : Nat) : (s.watchStore pa n).xlat = s.xlat := rfl
@[simp] theorem State.watchStore_colls (s : State) (pa n : Nat) : (s.watchStore pa n).colls = s.colls := rfl
@[simp] theorem State.watchStore_prof (s : State) (pa n : Nat) : (s.watchStore pa n).prof = s.prof := rfl
@[simp] theorem State.watchStore_dbg (s : State) (pa n : Nat) : (s.watchStore pa n).dbg = s.dbg := rfl

/-! ## storeBytes changes memory, and the sets in SLEEP -/

@[simp] theorem State.storeBytes_mem (s : State) (pa : Nat) (bs : List Byte) : (s.storeBytes pa bs).mem = s.mem.setBytes pa bs := rfl
@[simp] theorem State.storeBytes_agenda (s : State) (pa : Nat) (bs : List Byte) : (s.storeBytes pa bs).agenda = s.agenda := rfl
@[simp] theorem State.storeBytes_issue (s : State) (pa : Nat) (bs : List Byte) : (s.storeBytes pa bs).issue = s.issue := rfl
@[simp] theorem State.storeBytes_fresh (s : State) (pa : Nat) (bs : List Byte) : (s.storeBytes pa bs).fresh = s.fresh := rfl
@[simp] theorem State.storeBytes_open_ (s : State) (pa : Nat) (bs : List Byte) : (s.storeBytes pa bs).open_ = s.open_ := rfl
@[simp] theorem State.storeBytes_clk (s : State) (pa : Nat) (bs : List Byte) : (s.storeBytes pa bs).clk = s.clk := rfl
@[simp] theorem State.storeBytes_host (s : State) (pa : Nat) (bs : List Byte) : (s.storeBytes pa bs).host = s.host := rfl
@[simp] theorem State.storeBytes_boot (s : State) (pa : Nat) (bs : List Byte) : (s.storeBytes pa bs).boot = s.boot := rfl
@[simp] theorem State.storeBytes_fab (s : State) (pa : Nat) (bs : List Byte) : (s.storeBytes pa bs).fab = s.fab := rfl
@[simp] theorem State.storeBytes_disp (s : State) (pa : Nat) (bs : List Byte) : (s.storeBytes pa bs).disp = s.disp := rfl
@[simp] theorem State.storeBytes_launches (s : State) (pa : Nat) (bs : List Byte) : (s.storeBytes pa bs).launches = s.launches := rfl
@[simp] theorem State.storeBytes_gangs (s : State) (pa : Nat) (bs : List Byte) : (s.storeBytes pa bs).gangs = s.gangs := rfl
@[simp] theorem State.storeBytes_cores (s : State) (pa : Nat) (bs : List Byte) : (s.storeBytes pa bs).cores = s.cores := rfl
@[simp] theorem State.storeBytes_clusters (s : State) (pa : Nat) (bs : List Byte) : (s.storeBytes pa bs).clusters = s.clusters := rfl
@[simp] theorem State.storeBytes_regions (s : State) (pa : Nat) (bs : List Byte) : (s.storeBytes pa bs).regions = s.regions := rfl
@[simp] theorem State.storeBytes_xlat (s : State) (pa : Nat) (bs : List Byte) : (s.storeBytes pa bs).xlat = s.xlat := rfl
@[simp] theorem State.storeBytes_colls (s : State) (pa : Nat) (bs : List Byte) : (s.storeBytes pa bs).colls = s.colls := rfl
@[simp] theorem State.storeBytes_prof (s : State) (pa : Nat) (bs : List Byte) : (s.storeBytes pa bs).prof = s.prof := rfl
@[simp] theorem State.storeBytes_dbg (s : State) (pa : Nat) (bs : List Byte) : (s.storeBytes pa bs).dbg = s.dbg := rfl

/-! ## Groups -/

@[simp] theorem Group.setUcc_id (g : Group) (f : BitVec 4) : (g.setUcc f).id = g.id := rfl
@[simp] theorem Group.setUcc_ctl (g : Group) (f : BitVec 4) : (g.setUcc f).ctl = g.ctl := rfl
@[simp] theorem Group.setUcc_regs (g : Group) (f : BitVec 4) : (g.setUcc f).regs = { g.regs with ucc := f } := rfl
@[simp] theorem Group.setUcc_fl (g : Group) (f : BitVec 4) : (g.setUcc f).fl = g.fl := rfl
@[simp] theorem Group.setUcc_tr (g : Group) (f : BitVec 4) : (g.setUcc f).tr = g.tr := rfl
@[simp] theorem Group.setUcc_pinSlot (g : Group) (f : BitVec 4) : (g.setUcc f).pinSlot = g.pinSlot := rfl
@[simp] theorem Group.setUcc_pinGen (g : Group) (f : BitVec 4) : (g.setUcc f).pinGen = g.pinGen := rfl
@[simp] theorem Group.setUcc_view (g : Group) (f : BitVec 4) : (g.setUcc f).view = g.view := rfl

@[simp] theorem Group.setXi_id (g : Group) (x : BitVec 8) : (g.setXi x).id = g.id := rfl
@[simp] theorem Group.setXi_ctl (g : Group) (x : BitVec 8) : (g.setXi x).ctl = g.ctl := rfl
@[simp] theorem Group.setXi_regs (g : Group) (x : BitVec 8) : (g.setXi x).regs = { g.regs with xi := x } := rfl
@[simp] theorem Group.setXi_fl (g : Group) (x : BitVec 8) : (g.setXi x).fl = g.fl := rfl
@[simp] theorem Group.setXi_tr (g : Group) (x : BitVec 8) : (g.setXi x).tr = g.tr := rfl
@[simp] theorem Group.setXi_pinSlot (g : Group) (x : BitVec 8) : (g.setXi x).pinSlot = g.pinSlot := rfl
@[simp] theorem Group.setXi_pinGen (g : Group) (x : BitVec 8) : (g.setXi x).pinGen = g.pinGen := rfl
@[simp] theorem Group.setXi_view (g : Group) (x : BitVec 8) : (g.setXi x).view = g.view := rfl

@[simp] theorem Group.setClass_id (g : Group) (c : BitVec 2) : (g.setClass c).id = g.id := rfl
@[simp] theorem Group.setClass_ctl (g : Group) (c : BitVec 2) : (g.setClass c).ctl = { g.ctl with cls := c } := rfl
@[simp] theorem Group.setClass_regs (g : Group) (c : BitVec 2) : (g.setClass c).regs = g.regs := rfl
@[simp] theorem Group.setClass_fl (g : Group) (c : BitVec 2) : (g.setClass c).fl = g.fl := rfl
@[simp] theorem Group.setClass_tr (g : Group) (c : BitVec 2) : (g.setClass c).tr = g.tr := rfl
@[simp] theorem Group.setClass_pinSlot (g : Group) (c : BitVec 2) : (g.setClass c).pinSlot = g.pinSlot := rfl
@[simp] theorem Group.setClass_pinGen (g : Group) (c : BitVec 2) : (g.setClass c).pinGen = g.pinGen := rfl
@[simp] theorem Group.setClass_view (g : Group) (c : BitVec 2) : (g.setClass c).view = g.view := rfl

@[simp] theorem Group.setOps_id (g : Group) (os : List MemOp) : (g.setOps os).id = g.id := rfl
@[simp] theorem Group.setOps_ctl (g : Group) (os : List MemOp) : (g.setOps os).ctl = g.ctl := rfl
@[simp] theorem Group.setOps_regs (g : Group) (os : List MemOp) : (g.setOps os).regs = g.regs := rfl
@[simp] theorem Group.setOps_fl (g : Group) (os : List MemOp) : (g.setOps os).fl = { g.fl with ops := os } := rfl
@[simp] theorem Group.setOps_tr (g : Group) (os : List MemOp) : (g.setOps os).tr = g.tr := rfl
@[simp] theorem Group.setOps_pinSlot (g : Group) (os : List MemOp) : (g.setOps os).pinSlot = g.pinSlot := rfl
@[simp] theorem Group.setOps_pinGen (g : Group) (os : List MemOp) : (g.setOps os).pinGen = g.pinGen := rfl
@[simp] theorem Group.setOps_view (g : Group) (os : List MemOp) : (g.setOps os).view = g.view := rfl

@[simp] theorem Group.setCmds_id (g : Group) (cs : List EngCmd) : (g.setCmds cs).id = g.id := rfl
@[simp] theorem Group.setCmds_ctl (g : Group) (cs : List EngCmd) : (g.setCmds cs).ctl = g.ctl := rfl
@[simp] theorem Group.setCmds_regs (g : Group) (cs : List EngCmd) : (g.setCmds cs).regs = g.regs := rfl
@[simp] theorem Group.setCmds_fl (g : Group) (cs : List EngCmd) : (g.setCmds cs).fl = { g.fl with cmds := cs } := rfl
@[simp] theorem Group.setCmds_tr (g : Group) (cs : List EngCmd) : (g.setCmds cs).tr = g.tr := rfl
@[simp] theorem Group.setCmds_pinSlot (g : Group) (cs : List EngCmd) : (g.setCmds cs).pinSlot = g.pinSlot := rfl
@[simp] theorem Group.setCmds_pinGen (g : Group) (cs : List EngCmd) : (g.setCmds cs).pinGen = g.pinGen := rfl
@[simp] theorem Group.setCmds_view (g : Group) (cs : List EngCmd) : (g.setCmds cs).view = g.view := rfl

@[simp] theorem Group.setSleepers_id (g : Group) (zs : List Sleeper) : (g.setSleepers zs).id = g.id := rfl
@[simp] theorem Group.setSleepers_ctl (g : Group) (zs : List Sleeper) : (g.setSleepers zs).ctl = g.ctl := rfl
@[simp] theorem Group.setSleepers_regs (g : Group) (zs : List Sleeper) : (g.setSleepers zs).regs = g.regs := rfl
@[simp] theorem Group.setSleepers_fl (g : Group) (zs : List Sleeper) : (g.setSleepers zs).fl = { g.fl with sleepers := zs } := rfl
@[simp] theorem Group.setSleepers_tr (g : Group) (zs : List Sleeper) : (g.setSleepers zs).tr = g.tr := rfl
@[simp] theorem Group.setSleepers_pinSlot (g : Group) (zs : List Sleeper) : (g.setSleepers zs).pinSlot = g.pinSlot := rfl
@[simp] theorem Group.setSleepers_pinGen (g : Group) (zs : List Sleeper) : (g.setSleepers zs).pinGen = g.pinGen := rfl
@[simp] theorem Group.setSleepers_view (g : Group) (zs : List Sleeper) : (g.setSleepers zs).view = g.view := rfl

@[simp] theorem Group.setVreg_id (g : Group) (n l : Nat) (x : BitVec 32) : (g.setVreg n l x).id = g.id := rfl
@[simp] theorem Group.setVreg_ctl (g : Group) (n l : Nat) (x : BitVec 32) : (g.setVreg n l x).ctl = g.ctl := rfl
@[simp] theorem Group.setVreg_regs (g : Group) (n l : Nat) (x : BitVec 32) : (g.setVreg n l x).regs = { g.regs with v := Table.put 0#32 g.regs.v (32 * n + l) x } := rfl
@[simp] theorem Group.setVreg_fl (g : Group) (n l : Nat) (x : BitVec 32) : (g.setVreg n l x).fl = g.fl := rfl
@[simp] theorem Group.setVreg_tr (g : Group) (n l : Nat) (x : BitVec 32) : (g.setVreg n l x).tr = g.tr := rfl
@[simp] theorem Group.setVreg_pinSlot (g : Group) (n l : Nat) (x : BitVec 32) : (g.setVreg n l x).pinSlot = g.pinSlot := rfl
@[simp] theorem Group.setVreg_pinGen (g : Group) (n l : Nat) (x : BitVec 32) : (g.setVreg n l x).pinGen = g.pinGen := rfl
@[simp] theorem Group.setVreg_view (g : Group) (n l : Nat) (x : BitVec 32) : (g.setVreg n l x).view = g.view := rfl

end Sys2Proof.Machine
end

