-- ==== Sys2Proof/Laws/Words.lean ====
section
/-!
SUPPORT. Everything that running a word can do: the frame around its effect, and what the writes of registers, flags and
program counters leave.
-/

-- One declaration after another, as in PerInstr.lean.
set_option Elab.async false

namespace Sys2Proof.Machine

/-! ## Running a word (07: R137, R146) -/

/-- Without a word in the issue slot, or without its group, nothing is run. -/
theorem State.runWord_noIssuer (s : State) (i : Instr) (eff : Issue → Group → State → Out)
    (h : s.issue = none ∨ ∃ is, s.issue = some is ∧ Table.get? s.groups is.grp = none) :
    s.runWord i eff = .fault .noIssuer := by
  rcases h with h | ⟨is, h, hg⟩ <;> simp [State.runWord, State.withIssuer, *]

/-- A word that a check traps has no effect but the trap. -/
theorem State.runWord_trap {s : State} {i : Instr} {eff : Issue → Group → State → Out} {is : Issue} {g : Group}
    {c : BitVec 8} (hi : s.issue = some is) (hg : Table.get? s.groups is.grp = some g)
    (ht : s.wordTrap i is.mask (g.moves i.closes is.mask) = some c) :
    s.runWord i eff =
      .next ((s.setGroup is.grp (g.moves i.closes is.mask)).raiseAtIssue is.grp (is.trap c)) := by
  simp [State.runWord, State.withIssuer, hi, hg, ht]

/-- A word that passes the checks and finds landing lines has its effect on the group as the issue leaves it. -/
theorem State.runWord_ok {s : State} {i : Instr} {eff : Issue → Group → State → Out} {is : Issue} {g : Group}
    (hi : s.issue = some is) (hg : Table.get? s.groups is.grp = some g)
    (ht : s.wordTrap i is.mask (g.moves i.closes is.mask) = none)
    (hr : (g.moves i.closes is.mask).room i = true) :
    s.runWord i eff = eff is (g.settle i.closes is.mask) (s.setGroup is.grp (g.settle i.closes is.mask)) := by
  simp [State.runWord, State.withIssuer, hi, hg, ht, hr]

theorem Table.set_set {α : Type} (t : Table α) (k : Nat) (v w : α) : Table.set (Table.set t k v) k w = Table.set t k w := by
  induction t with
  | nil => simp [Table.set]
  | cons p r ih =>
    obtain ⟨j, x⟩ := p
    simp only [Table.set]
    split
    · simp [Table.set]
    · split <;> simp_all [Table.set]

@[simp] theorem State.setGroup_setGroup (s : State) (k : Nat) (g h : Group) :
    (s.setGroup k g).setGroup k h = s.setGroup k h := by simp [State.setGroup, Table.set_set]

theorem State.runGroup_ok {s : State} {i : Instr} {f : Issue → Group → Group} {is : Issue} {g : Group}
    (hi : s.issue = some is) (hg : Table.get? s.groups is.grp = some g)
    (ht : s.wordTrap i is.mask (g.moves i.closes is.mask) = none)
    (hr : (g.moves i.closes is.mask).room i = true) :
    s.runGroup i f = .next (s.setGroup is.grp ((f is (g.settle i.closes is.mask)).advance is)) := by
  simp [State.runGroup, State.runWord_ok hi hg ht hr]

theorem State.runGroup'_ok {s : State} {i : Instr} {f : Issue → Group → Group} {is : Issue} {g : Group}
    (hi : s.issue = some is) (hg : Table.get? s.groups is.grp = some g)
    (ht : s.wordTrap i is.mask (g.moves i.closes is.mask) = none)
    (hr : (g.moves i.closes is.mask).room i = true) :
    s.runGroup' i f = .next (s.setGroup is.grp (f is (g.settle i.closes is.mask))) := by
  simp [State.runGroup', State.runWord_ok hi hg ht hr]

/-! ## Vector registers -/

theorem Group.setVreg_vreg (g : Group) (n l m k : Nat) (x : BitVec 32) :
    (g.setVreg n l x).vreg m k = if 32 * m + k = 32 * n + l then x else g.vreg m k := by
  simp [Group.setVreg, Group.vreg, Table.getD_put]

/-- What a write of one register in the listed lanes leaves. -/
theorem Group.setLanesIn_vreg (ls : List Nat) (m : BitVec 32) (n : Nat) (val : Nat → BitVec 32) (g : Group) (k l : Nat)
    (hls : ∀ x ∈ ls, x < 32) (hl : l < 32) :
    (Group.setLanesIn ls m n val g).vreg k l = if k = n ∧ l ∈ ls ∧ has m l = true then val l else g.vreg k l := by
  induction ls generalizing g with
  | nil => simp [Group.setLanesIn]
  | cons x r ih =>
    rw [Group.setLanesIn, ih _ (fun y hy => hls y (List.mem_cons_of_mem _ hy))]
    have hx := hls x List.mem_cons_self
    have e : (32 * k + l = 32 * n + x) ↔ (k = n ∧ l = x) := by omega
    by_cases hr : l ∈ r <;> by_cases hk : k = n <;> by_cases hm : has m x = true <;> by_cases hlx : l = x <;>
      simp [hr, hk, hm, hlx, Group.setVreg_vreg, e] <;> simp_all

/-- A write of one register changes the vector registers only. -/
theorem Group.setLanesIn_eq (ls : List Nat) (m : BitVec 32) (n : Nat) (val : Nat → BitVec 32) (g : Group) :
    ∃ v, Group.setLanesIn ls m n val g = { g with regs := { g.regs with v := v } } := by
  induction ls generalizing g with
  | nil => exact ⟨g.regs.v, rfl⟩
  | cons x r ih =>
    obtain ⟨v, h⟩ := ih (if has m x then g.setVreg n x (val x) else g)
    refine ⟨v, ?_⟩
    rw [Group.setLanesIn, h]
    split <;> rfl

theorem Group.writeLanes_eq (m : BitVec 32) (d : BitVec 6) (val : Nat → BitVec 32) (g : Group) :
    ∃ v, Group.writeLanes m d val g = { g with regs := { g.regs with v := v } } := by
  unfold Group.writeLanes
  split
  · exact ⟨g.regs.v, rfl⟩
  · exact Group.setLanesIn_eq _ _ _ _ _

/-- What a lane write leaves in each register (02: R40, 09: R165). -/
theorem Group.writeLanes_vreg (m : BitVec 32) (d : BitVec 6) (val : Nat → BitVec 32) (g : Group) (n l : Nat) (hl : l < 32) :
    (Group.writeLanes m d val g).vreg n l = if g.eff d = some n ∧ has m l = true then val l else g.vreg n l := by
  unfold Group.writeLanes
  split
  · rename_i h; simp [h]
  · rename_i k h
    rw [Group.setLanesIn_vreg _ _ _ _ _ _ _ (by simp) hl]
    have e : (n = k) = (k = n) := propext eq_comm
    simp [h, hl, e]

theorem Group.writePairs_eq (m : BitVec 32) (d : BitVec 6) (val : Nat → BitVec 64) (g : Group) :
    ∃ v, Group.writePairs m d val g = { g with regs := { g.regs with v := v } } := by
  unfold Group.writePairs
  split
  · exact ⟨g.regs.v, rfl⟩
  · rename_i n _
    obtain ⟨v, h⟩ := Group.setLanesIn_eq (List.range 32) m n (fun l => (val l).setWidth 32) g
    obtain ⟨w, h'⟩ := Group.setLanesIn_eq (List.range 32) m (n + 1) (fun l => (val l).extractLsb' 32 32)
      (Group.setLanesIn (List.range 32) m n (fun l => (val l).setWidth 32) g)
    exact ⟨w, by rw [h', h]⟩

/-- What a pair write leaves in each register: the low half in the named register, the high half in the next (02: R42). -/
theorem Group.writePairs_vreg (m : BitVec 32) (d : BitVec 6) (val : Nat → BitVec 64) (g : Group) (n l : Nat) (hl : l < 32) :
    (Group.writePairs m d val g).vreg n l =
      if g.eff d = some n ∧ has m l = true then (val l).setWidth 32
      else if (g.eff d).map (· + 1) = some n ∧ has m l = true then (val l).extractLsb' 32 32
      else g.vreg n l := by
  unfold Group.writePairs
  split
  · rename_i h; simp [h]
  · rename_i k h
    rw [Group.setLanesIn_vreg _ _ _ _ _ _ _ (by simp) hl, Group.setLanesIn_vreg _ _ _ _ _ _ _ (by simp) hl]
    by_cases hm : has m l = true <;> by_cases e : k = n
    · subst e; simp [h, hl, hm]
    · by_cases e' : n = k + 1
      · subst e'; simp [h, hl, hm]
      · simp [h, hl, hm, e, e', Ne.symm e', Ne.symm e]
    · simp [hm]
    · simp [hm]

/-! ## Uniform registers -/

/-- What a uniform write leaves in each register; sz discards (02: R40). -/
theorem Group.ws_sreg (g : Group) (f : BitVec 6) (x : BitVec 64) (n : Nat) :
    (g.ws f x).sreg n = if f ≠ 63#6 ∧ n = f.toNat then x else g.sreg n := by
  unfold Group.ws
  split
  · rename_i h; simp [h]
  · rename_i h; simp [h, Group.sreg, Table.getD_put]

theorem Group.ws_eq (g : Group) (f : BitVec 6) (x : BitVec 64) :
    ∃ t, g.ws f x = { g with regs := { g.regs with s := t } } := by
  unfold Group.ws
  split
  · exact ⟨g.regs.s, rfl⟩
  · exact ⟨_, rfl⟩

/-! ## Condition registers -/

theorem Group.setCondsIn_eq (ls : List Nat) (m : BitVec 32) (k : BitVec 2) (val : Nat → BitVec 4) (g : Group) :
    ∃ c, Group.setCondsIn ls m k val g = { g with regs := { g.regs with c := c } } := by
  induction ls generalizing g with
  | nil => exact ⟨g.regs.c, rfl⟩
  | cons x r ih =>
    obtain ⟨c, h⟩ := ih (if has m x then
        { g with regs := { g.regs with c := Table.put 0#16 g.regs.c x (cregSet (g.cond x) k (val x)) } } else g)
    refine ⟨c, ?_⟩
    rw [Group.setCondsIn, h]
    split <;> rfl

theorem Group.setCondsIn_cond (ls : List Nat) (m : BitVec 32) (k : BitVec 2) (val : Nat → BitVec 4) (g : Group) (l : Nat)
    (hn : ls.Nodup) :
    (Group.setCondsIn ls m k val g).cond l =
      if l ∈ ls ∧ has m l = true then cregSet (g.cond l) k (val l) else g.cond l := by
  induction ls generalizing g with
  | nil => simp [Group.setCondsIn]
  | cons x r ih =>
    obtain ⟨hx, hr⟩ := List.nodup_cons.mp hn
    rw [Group.setCondsIn, ih _ hr]
    by_cases e : l = x
    · subst e
      by_cases hm : has m l = true <;> simp [hx, hm, Group.cond, Table.getD_put]
    · by_cases hm : has m x = true <;> simp [e, hm, Group.cond, Table.getD_put]

theorem Group.writeConds_eq (m : BitVec 32) (k : BitVec 2) (val : Nat → BitVec 4) (g : Group) :
    ∃ c, Group.writeConds m k val g = { g with regs := { g.regs with c := c } } := Group.setCondsIn_eq _ _ _ _ _

/-- What a write of flags leaves in each lane (09: R166). -/
theorem Group.writeConds_cond (m : BitVec 32) (k : BitVec 2) (val : Nat → BitVec 4) (g : Group) (l : Nat) (hl : l < 32) :
    (Group.writeConds m k val g).cond l = if has m l = true then cregSet (g.cond l) k (val l) else g.cond l := by
  unfold Group.writeConds
  rw [Group.setCondsIn_cond _ _ _ _ _ _ List.nodup_range]
  simp [hl]

/-- A write of one condition register leaves the other three (02: R39). -/
theorem cregGet_cregSet (c : BitVec 16) (k j : BitVec 2) (f : BitVec 4) :
    cregGet (cregSet c k f) j = if j = k then f else cregGet c j := by
  have h : ∀ k j : BitVec 2, ∀ b : Fin 4, ∀ (c : BitVec 16) (f : BitVec 4),
      (cregGet (cregSet c k f) j).getLsbD b = (if j = k then f else cregGet c j).getLsbD b := by
    intro k j b c f
    have hk : k = 0#2 ∨ k = 1#2 ∨ k = 2#2 ∨ k = 3#2 := by revert k; decide
    have hj : j = 0#2 ∨ j = 1#2 ∨ j = 2#2 ∨ j = 3#2 := by revert j; decide
    rcases hk with rfl | rfl | rfl | rfl <;> rcases hj with rfl | rfl | rfl | rfl <;> fin_cases b <;>
      simp [cregGet, cregSet, BitVec.getLsbD_extractLsb', BitVec.getLsbD_shiftLeft]
  apply BitVec.eq_of_getLsbD_eq
  intro i hi
  exact h k j ⟨i, hi⟩ c f

/-! ## Program counters -/

theorem Group.setPcsIn_eq (ls : List Nat) (m : BitVec 32) (val : Nat → BitVec 64) (g : Group) :
    ∃ p, Group.setPcsIn ls m val g = { g with ctl := { g.ctl with pcs := p } } := by
  induction ls generalizing g with
  | nil => exact ⟨g.ctl.pcs, rfl⟩
  | cons x r ih =>
    obtain ⟨p, h⟩ := ih (if has m x then { g with ctl := { g.ctl with pcs := Table.put 0#64 g.ctl.pcs x (val x) } } else g)
    refine ⟨p, ?_⟩
    rw [Group.setPcsIn, h]
    split <;> rfl

theorem Group.setPcsIn_pc (ls : List Nat) (m : BitVec 32) (val : Nat → BitVec 64) (g : Group) (l : Nat) :
    (Group.setPcsIn ls m val g).pc l = if l ∈ ls ∧ has m l = true then val l else g.pc l := by
  induction ls generalizing g with
  | nil => simp [Group.setPcsIn]
  | cons x r ih =>
    rw [Group.setPcsIn, ih]
    by_cases e : l = x
    · subst e
      by_cases hm : has m l = true <;> simp [hm, Group.pc, Table.getD_put]
    · by_cases hm : has m x = true <;> simp [e, hm, Group.pc, Table.getD_put]

theorem Group.setPcs_eq (m : BitVec 32) (val : Nat → BitVec 64) (g : Group) :
    ∃ p, g.setPcs m val = { g with ctl := { g.ctl with pcs := p } } := by
  unfold Group.setPcs
  exact Group.setPcsIn_eq _ _ _ _

theorem Group.setPcs_pc (m : BitVec 32) (val : Nat → BitVec 64) (g : Group) (l : Nat) (hl : l < 32) :
    (g.setPcs m val).pc l = if has m l = true then val l else g.pc l := by
  unfold Group.setPcs
  rw [Group.setPcsIn_pc]
  simp [hl]

theorem Group.advance_eq (is : Issue) (g : Group) :
    ∃ p, g.advance is = { g with ctl := { g.ctl with pcs := p } } := by
  unfold Group.advance Group.goto
  exact Group.setPcs_eq _ _ _

/-- Every lane of the set stands at the next word, every other lane where it stood. -/
theorem Group.advance_pc (is : Issue) (g : Group) (l : Nat) (hl : l < 32) :
    (g.advance is).pc l = if has is.mask l = true then (is.pc + 4#56).setWidth 64 else g.pc l := by
  unfold Group.advance Group.goto
  exact Group.setPcs_pc _ _ _ _ hl

/-! ## Lane masks -/

theorem has_maskOf (p : Nat → Bool) (l : Nat) (hl : l < 32) : has (maskOf p) l = p l := by
  have aux : ∀ (ls : List Nat) (m : BitVec 32), (∀ x ∈ ls, x < 32) → ∀ l < 32,
      has (ls.foldl (fun m l => if p l then m ||| (1#32 <<< l) else m) m) l = (has m l || (decide (l ∈ ls) && p l)) := by
    intro ls
    induction ls with
    | nil => intro m _ l _; simp
    | cons x r ih =>
      intro m hx l hl
      rw [List.foldl_cons, ih _ (fun y hy => hx y (List.mem_cons_of_mem _ hy)) l hl]
      by_cases e : l = x
      · subst e
        by_cases h : p l = true <;> simp [h, has, hl]
      · by_cases h : p x = true
        · have : (1#32 <<< x).getLsbD l = false := by
            simp only [BitVec.getLsbD_shiftLeft, BitVec.getLsbD_one]
            have : l - x = 0 → ¬ (l < x) → False := by omega
            by_cases hlt : l < x <;> simp [hlt, hl]
            omega
          simp [h, e, has, this]
        · simp [h, e]
  unfold maskOf
  rw [aux _ _ (by simp) l hl]
  simp [has, hl]

/-- The lanes of a set whose guard passes (07: R143). -/
theorem Group.has_passing (g : Group) (gd : Guard) (set : BitVec 32) (l : Nat) (hl : l < 32) :
    has (g.passing gd set) l = (has set l && g.guard gd l) := has_maskOf _ _ hl

theorem mem_lanesOf (m : BitVec 32) (l : Nat) : l ∈ lanesOf m ↔ l < 32 ∧ has m l = true := by
  simp [lanesOf]

end Sys2Proof.Machine
end

