-- ==== Sys2Proof/Laws/Memory.lean ====
section
/-!
SUPPORT. Memory: a read after a write, the frame of a write, and that every operation on memory keeps its canonical form.
-/

-- One declaration after another, as in PerInstr.lean.
set_option Elab.async false

namespace Sys2Proof.Machine

/-! ## Reads after writes -/

theorem Memory.byte_nil (a : Nat) : Memory.byte [] a = 0#8 := rfl

theorem Memory.byte_setByte (m : Memory) (a x : Nat) (b : Byte) :
    (m.setByte a b).byte x = if x = a then b else m.byte x := by
  unfold Memory.byte Memory.setByte
  exact Table.getD_put _ _ _ _ _

theorem Memory.byte_setBytes (m : Memory) (a : Nat) (bs : List Byte) (x : Nat) :
    (m.setBytes a bs).byte x = if a ≤ x ∧ x < a + bs.length then bs.getD (x - a) 0#8 else m.byte x := by
  induction bs generalizing m a with
  | nil =>
    have : ¬ (a ≤ x ∧ x < a + ([] : List Byte).length) := by simp
    rw [if_neg this]; rfl
  | cons b r ih =>
    rw [Memory.setBytes, ih, Memory.byte_setByte]
    by_cases h1 : x = a
    · subst h1
      have e1 : ¬ (x + 1 ≤ x ∧ x < x + 1 + r.length) := by omega
      have e2 : x ≤ x ∧ x < x + (b :: r).length := by simp
      rw [if_neg e1, if_pos e2]
      simp
    · by_cases h2 : a + 1 ≤ x ∧ x < a + 1 + r.length
      · have e2 : a ≤ x ∧ x < a + (b :: r).length := by simp only [List.length_cons]; omega
        obtain ⟨k, hk⟩ : ∃ k, x = a + 1 + k := ⟨x - (a + 1), by omega⟩
        rw [if_pos h2, if_pos e2]
        subst hk
        have e3 : a + 1 + k - (a + 1) = k := by omega
        have e4 : a + 1 + k - a = k + 1 := by omega
        rw [e3, e4]
        simp
      · have e2 : ¬ (a ≤ x ∧ x < a + (b :: r).length) := by simp only [List.length_cons]; omega
        rw [if_neg h2, if_neg e2, if_neg h1]

/-- A write leaves every byte outside its range. -/
theorem Memory.byte_setBytes_out (m : Memory) {a : Nat} {bs : List Byte} {x : Nat} (h : x < a ∨ a + bs.length ≤ x) :
    (m.setBytes a bs).byte x = m.byte x := by
  rw [Memory.byte_setBytes, if_neg (by omega)]

theorem Memory.bytes_length (m : Memory) (a n : Nat) : (m.bytes a n).length = n := by simp [Memory.bytes]

theorem leBytes_length (n v : Nat) : (leBytes n v).length = n := by
  induction n generalizing v with
  | zero => rfl
  | succ n ih => simp [leBytes, ih]

theorem leNat_leBytes (n v : Nat) : leNat (leBytes n v) = v % 256 ^ n := by
  induction n generalizing v with
  | zero => simp [leNat, leBytes, Nat.mod_one]
  | succ n ih =>
    simp only [leNat, leBytes, ih, BitVec.toNat_ofNat]
    have := Nat.mod_mul (x := v) (a := 256) (b := 256 ^ n)
    rw [show (256 : Nat) ^ (n + 1) = 256 * 256 ^ n by ring, this]

/-- The bytes just written are read back. -/
theorem Memory.bytes_setBytes (m : Memory) (a : Nat) (bs : List Byte) : (m.setBytes a bs).bytes a bs.length = bs := by
  apply List.ext_getElem
  · simp [Memory.bytes]
  · intro i h1 h2
    simp only [Memory.bytes, List.getElem_map, List.getElem_range, Memory.byte_setBytes]
    rw [if_pos (by omega)]
    simp [List.getD_eq_getElem?_getD, List.getElem?_eq_getElem h2]

/-- A number just stored is read back. -/
theorem Memory.nat_store (m : Memory) (a n v : Nat) : (m.store a n v).nat a n = v % 256 ^ n := by
  have h := Memory.bytes_setBytes m a (leBytes n v)
  rw [leBytes_length] at h
  rw [Memory.nat, Memory.store, h, leNat_leBytes]

/-! ## The canonical form -/

theorem Memory.wf_setByte {m : Memory} (a : Nat) (b : Byte) (h : m.wf = true) : (m.setByte a b).wf = true :=
  Table.wf_put a b h

theorem Memory.wf_setBytes {m : Memory} (a : Nat) (bs : List Byte) (h : m.wf = true) : (m.setBytes a bs).wf = true := by
  induction bs generalizing m a with
  | nil => exact h
  | cons b r ih => exact ih (a + 1) (Memory.wf_setByte a b h)

theorem Memory.wf_store {m : Memory} (a n v : Nat) (h : m.wf = true) : (m.store a n v).wf = true :=
  Memory.wf_setBytes a _ h

theorem Memory.wf_drop {m : Memory} (lo hi : Nat) (h : m.wf = true) : (m.drop lo hi).wf = true := Table.wf_filter _ h

theorem Memory.wf_moveRange {m : Memory} (lo hi to_ : Nat) (h : m.wf = true) : (m.moveRange lo hi to_).wf = true := by
  unfold Memory.moveRange
  generalize (m.filter fun p => lo ≤ p.1 && p.1 < hi) = es
  have hd := Memory.wf_drop lo hi h
  revert hd
  generalize m.drop lo hi = m'
  intro hd
  induction es generalizing m' with
  | nil => exact hd
  | cons e r ih => exact ih _ (Memory.wf_setByte _ _ hd)

theorem Memory.wf_reset : State.reset.mem.wf = true := rfl

/-! ## Stores of the machine -/

theorem State.storeBytes_wf {s : State} (pa : Nat) (bs : List Byte) (h : s.mem.wf = true) : (s.storeBytes pa bs).mem.wf = true :=
  Memory.wf_setBytes pa bs h

/-- A store changes memory, the version counters of its lines and the watches of SLEEP, and nothing else. -/
theorem State.storeBytes_frame (s : State) (pa : Nat) (bs : List Byte) :
    { s.storeBytes pa bs with mem := s.mem, versions := s.versions, groups := s.groups } = s := rfl

/-- A map over groups that changes only what they watch. -/
theorem Table.get?_map_sleepers (f : Nat × Group → Nat × Group)
    (hf : ∀ p, ∃ zs, f p = (p.1, { p.2 with fl := { p.2.fl with sleepers := zs } })) (t : Table Group) (k : Nat) (g : Group)
    (h : Table.get? t k = some g) : ∃ zs, Table.get? (t.map f) k = some { g with fl := { g.fl with sleepers := zs } } := by
  induction t with
  | nil => cases h
  | cons p r ih =>
    obtain ⟨zs, hp⟩ := hf p
    obtain ⟨j, v⟩ := p
    rw [List.map_cons, hp]
    simp only [Table.get?] at h ⊢
    split
    · next e => rw [if_pos e] at h; cases h; exact ⟨zs, rfl⟩
    · next e => rw [if_neg e] at h; exact ih h

/-- What a store does to a group: the sets that watch its bytes read again. -/
theorem State.storeBytes_group (s : State) (pa : Nat) (bs : List Byte) (k : Nat) (g : Group) (h : Table.get? s.groups k = some g) :
    ∃ zs, Table.get? (s.storeBytes pa bs).groups k = some { g with fl := { g.fl with sleepers := zs } } := by
  refine Table.get?_map_sleepers _ (fun p => ?_) s.groups k g h
  dsimp only
  split
  · exact ⟨p.2.fl.sleepers, rfl⟩
  · exact ⟨_, rfl⟩

end Sys2Proof.Machine
end

