-- ==== Sys2Proof/Laws/Terms.lean ====
section
/-!
SUPPORT. How a word's meaning gives what the terms of Safety say of it: a meaning that runs on its own group completes, and each
kind of write leaves what its term says.
-/

-- One declaration after another, as in PerInstr.lean.
set_option Elab.async false

namespace Sys2Proof.Machine

theorem onlyGroup_setGroup (s : State) (k : Nat) (g : Group) : OnlyGroup s (s.setGroup k g) k := by
  refine ⟨rfl, fun j hj => ?_, fun a => rfl⟩
  simp [Table.get?_set_ne _ _ hj]

theorem completes_runGroup {s : State} {i : Instr} {is : Issue} {g : Group} {f : Issue → Group → Group} {P : Group → Prop}
    (he : exec i s = s.runGroup i f) (hf : Fits s i is g) (hp : P ((f is (g.atIssue i is)).advance is)) :
    Completes s i is P := by
  obtain ⟨h1, h2, h3, h4, h5⟩ := hf
  refine ⟨_, _, he.trans (State.runGroup_ok h1 h2 h3 h4), ?_, onlyGroup_setGroup _ _ _, hp⟩
  simp

theorem laneWrites_advance (is : Issue) (g : Group) (m : BitVec 32) (who : Nat → Bool) (d : BitVec 6) (val val' : Nat → BitVec 32)
    (hm : ∀ l < 32, has m l = who l) (hv : ∀ l < 32, who l = true → val l = val' l) :
    LaneWrites is g ((g.writeLanes m d val).advance is) who d val' := by
  obtain ⟨v, e⟩ := Group.writeLanes_eq m d val g
  obtain ⟨p, e'⟩ := Group.advance_eq is (g.writeLanes m d val)
  refine ⟨fun n l hl => ?_, fun l hl => ?_, ?_⟩
  · have : ((g.writeLanes m d val).advance is).vreg n l = (g.writeLanes m d val).vreg n l := by rw [e']; rfl
    rw [this, Group.writeLanes_vreg _ _ _ _ _ _ hl, hm l hl]
    by_cases c : g.eff d = some n ∧ who l = true
    · simp [c, hv l hl c.2]
    · simp [c]
  · rw [Group.advance_pc _ _ _ hl, e]; rfl
  · rw [e', e]

theorem pairWrites_advance (is : Issue) (g : Group) (m : BitVec 32) (who : Nat → Bool) (d : BitVec 6) (val val' : Nat → BitVec 64)
    (hm : ∀ l < 32, has m l = who l) (hv : ∀ l < 32, who l = true → val l = val' l) :
    PairWrites is g ((g.writePairs m d val).advance is) who d val' := by
  obtain ⟨v, e⟩ := Group.writePairs_eq m d val g
  obtain ⟨p, e'⟩ := Group.advance_eq is (g.writePairs m d val)
  refine ⟨fun n l hl => ?_, fun l hl => ?_, ?_⟩
  · have : ((g.writePairs m d val).advance is).vreg n l = (g.writePairs m d val).vreg n l := by rw [e']; rfl
    rw [this, Group.writePairs_vreg _ _ _ _ _ _ hl, hm l hl]
    have e1 : ∀ x : BitVec 64, x.setWidth 32 = BitVec.ofNat 32 x.toNat := fun x => by
      apply BitVec.eq_of_toNat_eq; simp
    have e2 : ∀ x : BitVec 64, x.extractLsb' 32 32 = BitVec.ofNat 32 (x.toNat / 2 ^ 32) := fun x => by
      apply BitVec.eq_of_toNat_eq; rw [BitVec.extractLsb'_toNat, BitVec.toNat_ofNat, Nat.shiftRight_eq_div_pow]
    by_cases c : who l = true
    · rw [hv l hl c, ← e1, ← e2]
    · have c' : who l = false := by simpa using c
      rw [if_neg (by simp [c']), if_neg (by simp [c']), if_neg (by simp [c']), if_neg (by simp [c'])]
  · rw [Group.advance_pc _ _ _ hl, e]; rfl
  · rw [e', e]

theorem flagWrites_advance (is : Issue) (g : Group) (m : BitVec 32) (who : Nat → Bool) (k : BitVec 2) (val val' : Nat → BitVec 4)
    (hm : ∀ l < 32, has m l = who l) (hv : ∀ l < 32, who l = true → val l = val' l) :
    FlagWrites is g ((g.writeConds m k val).advance is) who k val' := by
  obtain ⟨v, e⟩ := Group.writeConds_eq m k val g
  obtain ⟨p, e'⟩ := Group.advance_eq is (g.writeConds m k val)
  refine ⟨fun j l hl => ?_, fun l hl => ?_, ?_⟩
  · have : ((g.writeConds m k val).advance is).cond l = (g.writeConds m k val).cond l := by rw [e']; rfl
    rw [this, Group.writeConds_cond _ _ _ _ _ hl, hm l hl]
    by_cases c : who l = true
    · simp [c, hv l hl c, cregGet_cregSet]
    · simp [c]
  · rw [Group.advance_pc _ _ _ hl, e]; rfl
  · rw [e', e]

theorem uniWrites_advance (is : Issue) (g : Group) (d : BitVec 6) (x y : BitVec 64) (h : x = y) :
    UniWrites is g ((g.ws d x).advance is) d y := by
  subst h
  obtain ⟨v, e⟩ := Group.ws_eq g d x
  obtain ⟨p, e'⟩ := Group.advance_eq is (g.ws d x)
  refine ⟨fun n => ?_, fun l hl => ?_, ?_⟩
  · have : ((g.ws d x).advance is).sreg n = (g.ws d x).sreg n := by rw [e']; rfl
    rw [this, Group.ws_sreg]
  · rw [Group.advance_pc _ _ _ hl, e]; rfl
  · rw [e', e]

theorem laneOp_of {i : Instr} {who : Issue → Group → Nat → Bool} {d : BitVec 6} {m : Issue → Group → BitVec 32}
    {val val' : Group → Nat → BitVec 32}
    (he : ∀ s, exec i s = s.runGroup i fun is g => g.writeLanes (m is g) d (val g))
    (hm : ∀ is g l, l < 32 → has (m is g) l = who is g l) (hv : ∀ g l, l < 32 → val g l = val' g l) :
    LaneOp i who d val' := fun s _ _ hf =>
  completes_runGroup (he s) hf (laneWrites_advance _ _ _ _ _ _ _ (hm _ _) (fun l hl _ => hv _ l hl))

theorem pairOp_of {i : Instr} {who : Issue → Group → Nat → Bool} {d : BitVec 6} {m : Issue → Group → BitVec 32}
    {val val' : Group → Nat → BitVec 64}
    (he : ∀ s, exec i s = s.runGroup i fun is g => g.writePairs (m is g) d (val g))
    (hm : ∀ is g l, l < 32 → has (m is g) l = who is g l) (hv : ∀ g l, l < 32 → val g l = val' g l) :
    PairOp i who d val' := fun s _ _ hf =>
  completes_runGroup (he s) hf (pairWrites_advance _ _ _ _ _ _ _ (hm _ _) (fun l hl _ => hv _ l hl))

theorem flagOp_of {i : Instr} {who : Issue → Group → Nat → Bool} {k : BitVec 2} {m : Issue → Group → BitVec 32}
    {val val' : Group → Nat → BitVec 4}
    (he : ∀ s, exec i s = s.runGroup i fun is g => g.writeConds (m is g) k (val g))
    (hm : ∀ is g l, l < 32 → has (m is g) l = who is g l) (hv : ∀ g l, l < 32 → val g l = val' g l) :
    FlagOp i who k val' := fun s _ _ hf =>
  completes_runGroup (he s) hf (flagWrites_advance _ _ _ _ _ _ _ (hm _ _) (fun l hl _ => hv _ l hl))

theorem uniOp_of {i : Instr} {d : BitVec 6} {val val' : Issue → Group → BitVec 64}
    (he : ∀ s, exec i s = s.runGroup i fun is g => g.ws d (val is g))
    (hv : ∀ is g, val is g = val' is g) : UniOp i d val' := fun s _ _ hf =>
  completes_runGroup (he s) hf (uniWrites_advance _ _ _ _ _ (hv _ _))

theorem takes_ok (gd : Guard) (is : Issue) (g : Group) (l : Nat) (hl : l < 32) :
    has (g.passing gd is.mask) l = takes gd is g l := Group.has_passing _ _ _ _ hl

/-- A word of the guarded lane form writes what its meaning computes, in the lanes whose guard passes. -/
theorem laneOp_ok {i : Instr} {gd : Guard} {d : BitVec 6} {val val' : Group → Nat → BitVec 32}
    (he : ∀ s, exec i s = s.laneOp i gd d val) (hv : ∀ g l, l < 32 → val g l = val' g l) : LaneOp i (takes gd) d val' :=
  laneOp_of he (fun is g l hl => takes_ok gd is g l hl) hv

theorem pairOp_ok {i : Instr} {gd : Guard} {d : BitVec 6} {val val' : Group → Nat → BitVec 64}
    (he : ∀ s, exec i s = s.laneOpW i gd d val) (hv : ∀ g l, l < 32 → val g l = val' g l) : PairOp i (takes gd) d val' :=
  pairOp_of he (fun is g l hl => takes_ok gd is g l hl) hv

theorem flagOp_ok {i : Instr} {gd : Guard} {k : BitVec 2} {val val' : Group → Nat → BitVec 4}
    (he : ∀ s, exec i s = s.laneFlags i gd k val) (hv : ∀ g l, l < 32 → val g l = val' g l) : FlagOp i (takes gd) k val' :=
  flagOp_of he (fun is g l hl => takes_ok gd is g l hl) hv

theorem uniOp_ok {i : Instr} {d : BitVec 6} {val : Group → BitVec 64} {val' : Issue → Group → BitVec 64}
    (he : ∀ s, exec i s = s.uniOp i d val) (hv : ∀ is g, val g = val' is g) : UniOp i d val' :=
  uniOp_of he hv

/-- A word of a landing line that is written in its pending descriptor's lines. -/
theorem Group.setLanding_word (g : Group) (slot j l : Nat) (x : BitVec 32) (p : Pend) (hp : Table.get? g.fl.pend slot = some p)
    (hj : j < p.width) (m k : Nat) : (g.setLanding slot j l x).landingWord m k
      = if 32 * m + k = 32 * (p.line + j) + l then x else g.landingWord m k := by
  simp [Group.setLanding, hp, Group.landingWord, Table.getD_put, Nat.not_le.mpr hj]

theorem Group.setLanding_eq (g : Group) (slot j l : Nat) (x : BitVec 32) :
    ∃ t, g.setLanding slot j l x = { g with fl := { g.fl with landing := t } } := by
  unfold Group.setLanding
  split
  · exact ⟨g.fl.landing, rfl⟩
  · split
    · exact ⟨g.fl.landing, rfl⟩
    · exact ⟨_, rfl⟩

/-- The words of a lane's result, in the landing lines of a pending descriptor. -/
theorem Group.landLane (slot l w : Nat) (f : Nat → BitVec 32) (p : Pend) (g : Group) (hp : Table.get? g.fl.pend slot = some p)
    (hl : l < 32) (hwp : w ≤ p.width) :
    (∃ t, (List.range w).foldl (fun h j => h.setLanding slot j l (f j)) g = { g with fl := { g.fl with landing := t } })
      ∧ ∀ m k, k < 32 → ((List.range w).foldl (fun h j => h.setLanding slot j l (f j)) g).landingWord m k
          = if p.line ≤ m ∧ m < p.line + w ∧ k = l then f (m - p.line) else g.landingWord m k := by
  induction w with
  | zero => exact ⟨⟨g.fl.landing, rfl⟩, fun m k _ => by simp; omega⟩
  | succ w ih =>
    obtain ⟨⟨t, e⟩, hw⟩ := ih (by omega)
    rw [List.range_succ, List.foldl_append, List.foldl_cons, List.foldl_nil]
    have hp' : Table.get? ((List.range w).foldl (fun h j => h.setLanding slot j l (f j)) g).fl.pend slot = some p := by
      rw [e]; exact hp
    obtain ⟨t', e'⟩ := Group.setLanding_eq ((List.range w).foldl (fun h j => h.setLanding slot j l (f j)) g) slot w l (f w)
    refine ⟨⟨t', by rw [e', e]⟩, fun m k hk => ?_⟩
    rw [Group.setLanding_word _ _ _ _ _ p hp' (by omega), hw m k hk]
    by_cases c : 32 * m + k = 32 * (p.line + w) + l
    · have : m = p.line + w ∧ k = l := by omega
      obtain ⟨rfl, rfl⟩ := this
      simp
    · by_cases c2 : p.line ≤ m ∧ m < p.line + w ∧ k = l
      · have : p.line ≤ m ∧ m < p.line + (w + 1) ∧ k = l := by omega
        simp only [if_neg c, if_pos c2, if_pos this]
      · have : ¬ (p.line ≤ m ∧ m < p.line + (w + 1) ∧ k = l) := by omega
        simp only [if_neg c, if_neg c2, if_neg this]

/-- The results of all lanes, in the landing lines of a pending descriptor. -/
theorem Group.landLanes (slot w : Nat) (f : Nat → Nat → BitVec 32) (p : Pend) (ls : List Nat) (g : Group)
    (hp : Table.get? g.fl.pend slot = some p) (hwp : w ≤ p.width) (hls : ∀ l ∈ ls, l < 32) :
    (∃ t, ls.foldl (fun h l => (List.range w).foldl (fun h j => h.setLanding slot j l (f l j)) h) g
        = { g with fl := { g.fl with landing := t } })
      ∧ ∀ m k, k < 32 →
        (ls.foldl (fun h l => (List.range w).foldl (fun h j => h.setLanding slot j l (f l j)) h) g).landingWord m k
          = if p.line ≤ m ∧ m < p.line + w ∧ k ∈ ls then f k (m - p.line) else g.landingWord m k := by
  induction ls generalizing g with
  | nil => exact ⟨⟨g.fl.landing, rfl⟩, by simp⟩
  | cons x r ih =>
    obtain ⟨⟨t, e⟩, hw⟩ := Group.landLane slot x w (f x) p g hp (hls x List.mem_cons_self) hwp
    have hp' : Table.get? ((List.range w).foldl (fun h j => h.setLanding slot j x (f x j)) g).fl.pend slot = some p := by
      rw [e]; exact hp
    obtain ⟨⟨t', e'⟩, hw'⟩ := ih _ hp' (fun l hl => hls l (List.mem_cons_of_mem _ hl))
    rw [List.foldl_cons]
    refine ⟨⟨t', by rw [e', e]⟩, fun m k hk => ?_⟩
    rw [hw' m k hk, hw m k hk]
    by_cases c1 : k ∈ r <;> by_cases c2 : k = x <;> by_cases c3 : p.line ≤ m ∧ m < p.line + w <;> simp_all

theorem freePend_spec {ps : Table Pend} {slot : Nat} (h : freePend ps = some slot) :
    slot < 8 ∧ Table.get? ps slot = none := by
  unfold freePend at h
  have h1 := List.find?_some h
  have h2 := List.mem_of_find?_eq_some h
  simp at h1 h2
  exact ⟨h2, h1⟩

theorem freeLines_spec {ps : Table Pend} {n m : Nat} (h : freeLines ps n = some m) :
    m + n ≤ 8 ∧ ∀ e ∈ ps, ∀ j, j < n → ¬ (e.2.line ≤ m + j ∧ m + j < e.2.line + e.2.width) := by
  unfold freeLines at h
  have h1 := List.find?_some h
  simp only [Bool.and_eq_true, decide_eq_true_eq, List.all_eq_true, List.mem_range, Bool.not_eq_true',
    List.contains_eq_mem, decide_eq_false_iff_not] at h1
  refine ⟨h1.1, fun e he j hj hc => h1.2 j hj ?_⟩
  simp only [usedLines, List.mem_flatMap, List.mem_map, List.mem_range]
  exact ⟨e, he, m + j - e.2.line, by omega, by omega⟩

theorem Table.getD_foldl_put {α : Type} [DecidableEq α] (z : α) (es : List (Nat × α)) (t : Table α) (k : Nat)
    (h : ∀ e ∈ es, e.1 ≠ k) : Table.getD (es.foldl (fun t e => Table.put z t e.1 e.2) t) k z = Table.getD t k z := by
  induction es generalizing t with
  | nil => rfl
  | cons e r ih =>
    rw [List.foldl_cons, ih _ (fun x hx => h x (List.mem_cons_of_mem _ hx)), Table.getD_put,
      if_neg (Ne.symm (h e List.mem_cons_self))]

/-- Making room among the landing lines moves the lines of the pending destinations, and nothing else. -/
theorem Group.clearLines_eq (g : Group) (w : Nat) :
    ∃ ps t, g.clearLines w = { g with fl := { g.fl with pend := ps, landing := t } } := by
  unfold Group.clearLines
  split
  · exact ⟨g.fl.pend, g.fl.landing, rfl⟩
  · exact ⟨_, _, rfl⟩

/-- What opening a window on a vector destination leaves (02: R56). -/
theorem Group.openPend_spec {g : Group} {n w : Nat} {set lanes : BitVec 32} {la : BitVec 4} {slot line : Nat}
    (hs : freePend (g.clearLines w).fl.pend = some slot) (hl : freeLines (g.clearLines w).fl.pend w = some line) :
    ∃ t, g.openPend false n w set lanes la = some (slot, { g with fl := { g.fl with
        pend := Table.set (g.clearLines w).fl.pend slot ⟨false, n, w, line, set, lanes, la.toNat, false⟩, landing := t } })
      ∧ ∀ m k, k < 32 → m < line ∨ line + w ≤ m → Table.getD t (32 * m + k) 0#32 = (g.clearLines w).landingWord m k := by
  obtain ⟨ps, u, e⟩ := g.clearLines_eq w
  simp only [Group.openPend, hs, hl]
  rw [e] at hs hl ⊢
  refine ⟨_, rfl, fun m k hk hm => ?_⟩
  refine Table.getD_foldl_put _ _ _ _ (fun e he => ?_)
  simp only [Bool.false_eq_true, if_false, List.mem_flatMap, List.mem_range, List.mem_map, mem_lanesOf] at he
  obtain ⟨j, hj, l, ⟨hl, _⟩, rfl⟩ := he
  simp only
  omega

/-- A word that leaves one group written completes. -/
theorem completes_setGroup {s : State} {i : Instr} {is : Issue} {h : Group} {P : Group → Prop}
    (hx : exec i s = .next (s.setGroup is.grp h)) (hp : P h) : Completes s i is P :=
  ⟨_, h, hx, by simp, onlyGroup_setGroup _ _ _, hp⟩

/-- A long-latency word's result waits behind its window (07: R145). -/
theorem longOp_ok {i : Instr} {d : BitVec 6} {w : Nat} {la : BitVec 4} {val val' : Group → Nat → Nat → BitVec 32}
    (he : ∀ s, exec i s = s.longOp i d w la val)
    (hp : ∀ xi, pendDest i xi = if d = 63#6 then none else some (false, d.toNat + xi.toNat, w))
    (hv : ∀ g l j, l < 32 → j < w → val g l j = val' g l j) : LongOp i d w la val' := by
  intro s is g ⟨h1, h2, h3, h4, h5⟩
  have hx := (he s).trans (State.runWord_ok h1 h2 h3 h4)
  have hn : (g.atIssue i is).eff d = none ∨ ∃ n, (g.atIssue i is).eff d = some n := by
    cases (g.atIssue i is).eff d <;> simp
  rcases hn with hn | ⟨n, hn⟩
  · simp only [hn] at hx ⊢
    obtain ⟨p, e⟩ := Group.advance_eq is (g.atIssue i is)
    refine ⟨_, _, hx, ?_, ?_, fun l hl => Group.advance_pc _ _ _ hl, ?_⟩
    · simp
    · simpa using onlyGroup_setGroup s is.grp _
    · rw [e]
  · have hd : d ≠ 63#6 := by intro c; simp [Group.eff, c] at hn
    have hr := h5
    simp only [Group.room, hp, if_neg hd, Bool.and_eq_true, Option.isSome_iff_exists] at hr
    obtain ⟨⟨slot, hs⟩, line, hline⟩ := hr
    have hs' := freePend_spec hs
    have hl' := freeLines_spec hline
    obtain ⟨t, ho, ht⟩ := Group.openPend_spec (n := n) (set := is.mask) (lanes := is.mask) (la := la) hs hline
    have ho' : (g.settle i.closes is.mask).openPend false n w is.mask is.mask la = some _ := ho
    simp only [hn, ho'] at hx ⊢
    have hp' : Table.get? ({ g.atIssue i is with fl := { (g.atIssue i is).fl with
        pend := Table.set ((g.atIssue i is).clearLines w).fl.pend slot ⟨false, n, w, line, is.mask, is.mask, la.toNat, false⟩
        landing := t } } : Group).fl.pend slot = some ⟨false, n, w, line, is.mask, is.mask, la.toNat, false⟩ := by simp
    obtain ⟨⟨u, e⟩, hw⟩ := Group.landLanes slot w (val (g.atIssue i is)) _ (lanesOf is.mask) _ hp' (Nat.le_refl _)
      (fun l hl => ((mem_lanesOf _ _).mp hl).1)
    rw [e] at hx
    obtain ⟨p, e2⟩ := Group.advance_eq is (({ g.atIssue i is with fl := { (g.atIssue i is).fl with
        pend := Table.set ((g.atIssue i is).clearLines w).fl.pend slot ⟨false, n, w, line, is.mask, is.mask, la.toNat, false⟩
        landing := u } } : Group).markLanded slot)
    have hword : ∀ m k, k < 32 → Table.getD u (32 * m + k) 0#32
        = if line ≤ m ∧ m < line + w ∧ k ∈ lanesOf is.mask then val (g.atIssue i is) k (m - line)
          else Table.getD t (32 * m + k) 0#32 := by
      intro m k hk
      have := hw m k hk
      rw [e] at this
      exact this
    rw [State.setGroup_setGroup] at hx
    refine completes_setGroup hx ?_
    refine ⟨⟨slot, line, hs'.1, hl'.1, hs'.2, ?_, ?_, hl'.2, ?_, ?_⟩, fun l hl => ?_, ?_⟩
    · rw [e2]; simp [Group.markLanded]
    · intro k hk; rw [e2]; simp [Group.markLanded, Table.get?_modify, hk, Table.get?_set_ne _ _ hk]
    · intro l j hl hj hm
      rw [e2]
      have := hword (line + j) l hl
      rw [if_pos ⟨by omega, by omega, (mem_lanesOf _ _).mpr ⟨hl, hm⟩⟩] at this
      simp only [Group.landingWord, Group.markLanded]
      rw [this, Nat.add_sub_cancel_left]
      exact hv _ _ _ hl hj
    · intro m k hk hm
      rw [e2]
      have := hword m k hk
      rw [if_neg (by omega)] at this
      simp only [Group.landingWord, Group.markLanded]
      rw [this]
      exact ht m k hk hm
    · rw [Group.advance_pc _ _ _ hl]; rfl
    · rw [e2]; rfl

end Sys2Proof.Machine
end

