-- ==== Sys2Proof/Tests/Slice0.lean ====
section
/-!
SUPPORT. Tests: words written out from the encoding tables, the checks of well-formedness, single steps on small states, and for
each statement with hypotheses a concrete state that meets them.
-/

open Sys2Proof Sys2Proof.Machine

namespace Sys2Proof.Tests

set_option Elab.async false

/-! ## Helpers -/

/-- The placed machine with this word in the issue slot of its one group, whose state f may have changed. -/
def atWord (w : Word) (f : Group → Group := id) : State :=
  let s := State.reset.placeWord w
  match s.groups with
  | [] => s
  | (k, g) :: _ => { s with groups := [(k, f g)], issue := some ⟨k, g.live, BitVec.ofNat 56 placedPc, w⟩ }

/-- Fits, and a further condition on the set and its group, as one truth value. -/
def fitsAnd (s : State) (i : Instr) (P : Issue → Group → Bool) : Bool :=
  match s.issue with
  | none => false
  | some is => match Table.get? s.groups is.grp with
    | none => false
    | some g => decide (s.wordTrap i is.mask (g.moves i.closes is.mask) = none) && (g.moves i.closes is.mask).room i
        && (g.settle i.closes is.mask).room i && P is g

theorem fitsAnd_sound {s : State} {i : Instr} {P : Issue → Group → Bool} (h : fitsAnd s i P = true) :
    ∃ is g, Fits s i is g ∧ P is g = true := by
  unfold fitsAnd at h
  split at h
  · cases h
  · next is his =>
    split at h
    · cases h
    · next g hg =>
      simp only [Bool.and_eq_true, decide_eq_true_eq] at h
      exact ⟨is, g, ⟨his, hg, h.1.1.1, h.1.1.2, h.1.2⟩, h.2⟩

/-- A concrete state shows that i fits and P holds. -/
theorem wit {s : State} {i : Instr} {P : Issue → Group → Prop} [∀ is g, Decidable (P is g)]
    (h : fitsAnd s i (fun is g => decide (P is g)) = true) : ∃ is g, Fits s i is g ∧ P is g :=
  (fitsAnd_sound h).imp fun _ ⟨g, hf, hp⟩ => ⟨g, hf, of_decide_eq_true hp⟩

/-- The word decodes and fits where it is placed. -/
def fits (w : Word) : Bool :=
  match decode w with
  | .ok i => fitsAnd (atWord w) i fun _ _ => true
  | .illop => false
  | .illfld => false

theorem fits_sound {w : Word} (h : fits w = true) : ∃ i, decode w = .ok i ∧ ∃ is g, Fits (atWord w) i is g := by
  unfold fits at h
  split at h
  · next i hi =>
    obtain ⟨is, g, hf, -⟩ := fitsAnd_sound h
    exact ⟨i, hi, is, g, hf⟩
  · cases h
  · cases h

/-! ## Every word fits somewhere: the premise of each statement about a word -/

theorem wit_fits_0 : ([0x01008310, 0x02008300, 0x03008310, 0x04008310, 0x05008310, 0x06008310, 0x07008310, 0x08008310, 0x09008310, 0x0A008310,
    0x0B008310, 0x0C008310, 0x0D008310, 0x0E008300, 0x0E008301, 0x0F008300, 0x10008000, 0x11008000, 0x12008310, 0x13008310,
    0x14008310, 0x15008310, 0x16008310, 0x17008310, 0x18008310, 0x19008310, 0x1A008310, 0x1B008310, 0x1C008310, 0x1D008300] : List Nat).all (fun w => fits (BitVec.ofNat 32 w)) = true := by
  decide +kernel

theorem wit_fits_1 : ([0x1D008301, 0x1D008302, 0x1D008303, 0x1E008310, 0x1F008310, 0x20000310, 0x21000310, 0x22000310, 0x23000310, 0x24000000,
    0x24001300, 0x24002000, 0x24003300, 0x25008310, 0x26008310, 0x27008310, 0x28008310, 0x29008310, 0x2A008310, 0x2B008310,
    0x2C008310, 0x2D008310, 0x2E008310, 0x2F008310, 0x3020C400, 0x3020C401, 0x3020C402, 0x3020C403, 0x3120C400, 0x3220C000] : List Nat).all (fun w => fits (BitVec.ofNat 32 w)) = true := by
  decide +kernel

theorem wit_fits_2 : ([0x3320C000, 0x3320C001, 0x3420C000, 0x3420C001, 0x3520C000, 0x3520C001, 0x3620C400, 0x3720C000, 0x3820C000, 0x3920C000,
    0x3A20C000, 0x3B20C000, 0x3C20C000, 0x3D20C000, 0x3E20C000, 0x3F20C000, 0x40008300, 0x41008300, 0x42008300, 0x43008300,
    0x44008300, 0x45008300, 0x46008300, 0x4720C000, 0x48008300, 0x49008300, 0x4A008300, 0x4B008300, 0x4C008300, 0x4D008300] : List Nat).all (fun w => fits (BitVec.ofNat 32 w)) = true := by
  decide +kernel

theorem wit_fits_3 : ([0x4E000300, 0x4F20C000, 0x5020C000, 0x5120C000, 0x5220C000, 0x5320C000, 0x5420C000, 0x5520C000, 0x5620C000, 0x5720C000,
    0x5820C000, 0x5920C000, 0x5A20C000, 0x5B20C000, 0x5C20C000, 0x5D20C000, 0x5E20C000, 0x5F20C000, 0x60000000, 0x61000000,
    0x62008300, 0x63000300, 0x64000000, 0x65000000, 0x66000000, 0x67008310, 0x68008310, 0x69008310, 0x6A008310, 0x6B008310] : List Nat).all (fun w => fits (BitVec.ofNat 32 w)) = true := by
  decide +kernel

theorem wit_fits_4 : ([0x6C008310, 0x6D008310, 0x6E008310, 0x6F008310, 0x70008310, 0x71008300, 0x72008310, 0x73008300, 0x74008310, 0x75008300,
    0x76008310, 0x77008300, 0x78008300, 0x79008310, 0x7A008300, 0x7A008336, 0x7A00833F, 0x7B008300, 0x7C008300, 0x7D008300,
    0x7E008310, 0x7F008310, 0x8120C400, 0x8220C400, 0x8320C400, 0x8420C400, 0x8520C400, 0x8620C400, 0x8720C400, 0x8820C400] : List Nat).all (fun w => fits (BitVec.ofNat 32 w)) = true := by
  decide +kernel

theorem wit_fits_5 : ([0x8920C400, 0x8A20C400, 0x8B20C400, 0x8C20C400, 0x8D00C400, 0x8E20C400, 0x90200000, 0x91200000, 0x92200000, 0x93085007,
    0x9420C000, 0x95200000, 0x96000000, 0x96200001, 0x97000000, 0x97200001, 0xA0000000, 0xA1000000, 0xA2000000, 0xA3000000,
    0xA4000000, 0xA520C400, 0xA6000000, 0xA720C400, 0xA800C400, 0xA800C401, 0xA800C402, 0xA9000000, 0xAA000000, 0xAB000000] : List Nat).all (fun w => fits (BitVec.ofNat 32 w)) = true := by
  decide +kernel

theorem wit_fits_6 : ([0xAC000000, 0xAD200000, 0xAD200001, 0xAE000000, 0xAE200001, 0xB020C000, 0xB120C000, 0xB2000D00, 0xC0000000, 0xC1000000,
    0xC2000000, 0xC3000000, 0xC4000000, 0xC5000000, 0xC6000000, 0xC7000000, 0xC8000000, 0xC9000000, 0xCA000000, 0xCB020000,
    0xCC000000, 0xCD000000, 0xCE000000, 0xCF000000, 0xD0000000, 0xD1000000, 0xD2000000, 0xD3000000, 0xF0200000, 0xF11C0540] : List Nat).all (fun w => fits (BitVec.ofNat 32 w)) = true := by
  decide +kernel

theorem wit_fits_7 : ([0xF2200000] : List Nat).all (fun w => fits (BitVec.ofNat 32 w)) = true := by
  decide +kernel

/-! ## Words of each family, written out bit by bit from 08 -/

-- major 0x01, guard c0.al, D = 3, A = 4, B = 5; then the same under c1.lt
theorem test_decode_iadd : decode 0b00000001000000000011000100000101#32 = .ok (.iadd ⟨0#2, .al⟩ 3#6 4#6 5#6)
    ∧ decode 0b00000001010011000011000100000101#32 = .ok (.iadd ⟨1#2, .lt⟩ 3#6 4#6 5#6) := by decide +kernel
theorem test_decode_compare : decode 0x20020105#32 = .ok (.icmp ⟨0#2, .al⟩ 2#2 false 4#6 5#6)
    ∧ decode 0x04403105#32 = .ok (.iadc ⟨1#2, .al⟩ 3#6 4#6 5#6) ∧ decode 0x1E4C3105#32 = .ok (.sel ⟨1#2, .lt⟩ 3#6 4#6 5#6) := by
  decide +kernel
theorem test_decode_long : decode 0x301461C7#32 = .ok (.iremN32 5#6 6#6 7#6 1#4) := by decide +kernel
theorem test_decode_control : decode 0x62006200#32 = .ok (.jmp ⟨0#2, .al⟩ 6#6 8#6)
    ∧ decode 0x63000180#32 = .ok (.ret ⟨0#2, .al⟩ 6#6) ∧ decode 0x66080000#32 = .ok (.exit ⟨0#2, .ne⟩) := by decide +kernel
theorem test_decode_crossbar : decode 0x78009042#32 = .ok (.scan ⟨0#2, .al⟩ 9#6 1#6 .fadd)
    ∧ decode 0x1F083109#32 = .ok (.cvtsr .bf16x2 3#6 4#6 9#6) := by decide +kernel
theorem test_decode_uniform : decode 0x93085007#32 = .ok (.lread 2#6 5#6 (.imm 7#5))
    ∧ decode 0xB2000D00#32 = .ok (.fence .full .gang) ∧ decode 0xF11C0540#32 = .ok (.swrite 7#6 .tvec) := by decide +kernel
theorem test_decode_engine : decode 0xC0112304#32 = .ok (.copy 17#8 2#3 12#6 1#4 .plain) := by decide +kernel

/-! ## Ill-formed instructions are refused -/

theorem test_illformed_cvt : ¬ (Instr.cvtRne ⟨0#2, .al⟩ 1#6 2#6 .i32 .i32).WellFormed
    ∧ ¬ (Instr.cvtRz ⟨0#2, .al⟩ 1#6 2#6 .n32 .n32).WellFormed ∧ ¬ (Instr.cvtRu ⟨0#2, .al⟩ 1#6 2#6 .i32 .i32).WellFormed
    ∧ ¬ (Instr.cvtRd ⟨0#2, .al⟩ 1#6 2#6 .n32 .n32).WellFormed ∧ (Instr.cvtRne ⟨0#2, .al⟩ 1#6 2#6 .i32 .f32).WellFormed := by
  decide
theorem test_illformed_mma : ¬ (Instr.mma .f64 0#3 0#3 12#6 0#4 true).WellFormed
    ∧ ¬ (Instr.mma .f32 0#3 0#3 12#6 0#4 true).WellFormed ∧ ¬ (Instr.mma .q4 0#3 0#3 12#6 0#4 true).WellFormed
    ∧ (Instr.mma .bf16 0#3 0#3 12#6 0#4 true).WellFormed ∧ (Instr.mma .q4 0#3 0#3 12#6 0#4 false).WellFormed := by decide

/-! ## Premises of the statements about words at their issue -/

/-- The group with these vector and uniform registers. -/
def withRegs (v : Table (BitVec 32)) (s : Table (BitVec 64)) (g : Group) : Group := { g with regs := { g.regs with v := v, s := s } }

/-- Targets of jmp: aligned in every lane; misaligned in the first, and in the last alone. -/
theorem wit_IndirectBranches :
    (∃ is g, Fits (atWord 0x62006200#32) (.jmp ⟨0#2, .al⟩ 6#6 8#6) is g ∧ (let g := g.atIssue (.jmp ⟨0#2, .al⟩ 6#6 8#6) is
      ∀ l, l < 32 → takes ⟨0#2, .al⟩ is g l = true → (g.rw 8#6 l).toNat % 4 = 0))
    ∧ (∃ is g, Fits (atWord 0x62006200#32 (withRegs [(256, 2#32)] [])) (.jmp ⟨0#2, .al⟩ 6#6 8#6) is g ∧
      (let g := g.atIssue (.jmp ⟨0#2, .al⟩ 6#6 8#6) is
      takes ⟨0#2, .al⟩ is g 0 = true ∧ (g.rw 8#6 0).toNat % 4 ≠ 0))
    ∧ ∃ is g, Fits (atWord 0x62006200#32 (withRegs [(287, 3#32)] [])) (.ret ⟨0#2, .al⟩ 8#6) is g ∧
      (let g := g.atIssue (.ret ⟨0#2, .al⟩ 8#6) is
      takes ⟨0#2, .al⟩ is g 31 = true ∧ (g.rw 8#6 31).toNat % 4 ≠ 0
        ∧ ∀ j, j < 31 → takes ⟨0#2, .al⟩ is g j = true → (g.rw 8#6 j).toNat % 4 = 0) :=
  ⟨wit (by decide +kernel), wit (by decide +kernel), wit (by decide +kernel)⟩

/-- What an access at issue starts as, when it does not trap. -/
def starts (s : State) (g : Group) (store : Bool) (size : Nat) (va : BitVec 64) : Bool :=
  match s.startAccess g store size va with
  | .ok _ => true
  | .trap _ => false

theorem starts_sound {s : State} {g : Group} {store : Bool} {size : Nat} {va : BitVec 64} (h : starts s g store size va = true) :
    ∃ st, s.startAccess g store size va = .ok st := by
  unfold starts at h
  split at h
  · exact ⟨_, ‹_›⟩
  · cases h

/-- Loads, stores, ordered and atomic words that fit and whose lanes pass their checks: 0, 1, 2, 4, 8 and 16 bytes. -/
theorem wit_MemWordOp :
    ([(0x40008300, false, 1), (0x42008300, false, 2), (0x44008300, false, 4), (0x45008300, false, 8), (0x46008300, false, 16),
      (0x48008300, true, 1), (0x49008300, true, 2), (0x4A008300, true, 4), (0x4B008300, true, 8), (0x4C008300, true, 16),
      (0x5020C000, true, 4), (0x5920C000, true, 8)] : List (Nat × Bool × Nat)).all (fun x =>
        let w := BitVec.ofNat 32 x.1
        match decode w with
        | .ok i => fitsAnd (atWord w) i fun is g => (List.range 32).all fun l =>
            !has is.mask l || starts (atWord w) (g.atIssue i is) x.2.1 x.2.2 0#64
        | _ => false) = true := by decide +kernel

/-- A group that is not the walker, and addresses at the ends of the ranges of R61. -/
theorem wit_AddressChecks :
    (∃ is g, Fits (atWord 0#32) (.nop ⟨0#2, .al⟩) is g ∧ g.id.walker = false)
    ∧ (2 ^ 56 ≤ 2 ^ 56 ∧ 2 ^ 56 < 2 ^ 64) ∧ (2 ^ 55 - 1 < 2 ^ 55 ∧ (2 ^ 55 - 1) % 2 ≠ 0) ∧ (2 ^ 55 - 16 < 2 ^ 55 ∧ (2 ^ 55 - 16) % 16 = 0)
    ∧ (2 ^ 55 + 2 ^ 54 - 1) / 2 ^ 48 % 2 ^ 6 ≠ 0 ∧ 2 ^ 55 / 2 ^ 48 % 2 ^ 6 = 0 ∧ 2 ^ 55 / 2 ^ 23 % 2 ^ 17 = 0 ∧ (2 ^ 55 + 1) % 2 ≠ 0
    ∧ (2 ^ 56 - 1) % 8 ≠ 0 ∧ (2 ^ 55 + 2 ^ 54) % 16 = 0 :=
  ⟨wit (by decide +kernel), by decide⟩

/-- Every lane misaligned: the first lane traps; the last lane alone: it traps. -/
theorem wit_AddressTrapAtIssue :
    (∃ is g, Fits (atWord 0#32 (withRegs [] [(60, 1#64)])) (.ldN32 ⟨0#2, .al⟩ 8#6 1#6 0#2 2#4) is g ∧
      (let g := g.atIssue (.ldN32 ⟨0#2, .al⟩ 8#6 1#6 0#2 2#4) is
      takes ⟨0#2, .al⟩ is g 0 = true ∧ (atWord 0#32 (withRegs [] [(60, 1#64)])).startAccess g false 4
        (BitVec.ofNat 64 ((g.rs (baseReg 0#2)).toNat + (g.rv 1#6 0).toNat)) = .trap 0x11#8))
    ∧ ∃ is g, Fits (atWord 0#32 (withRegs [(63, 2#32)] [])) (.stN128 ⟨0#2, .al⟩ 8#6 1#6 0#2) is g ∧
      (let g := g.atIssue (.stN128 ⟨0#2, .al⟩ 8#6 1#6 0#2) is
      let s := atWord 0#32 (withRegs [(63, 2#32)] [])
      let addr := fun (l : Nat) => BitVec.ofNat 64 ((g.rs (baseReg 0#2)).toNat + (g.rv 1#6 l).toNat)
      takes ⟨0#2, .al⟩ is g 31 = true ∧ s.startAccess g true 16 (addr 31) = .trap 0x11#8
        ∧ ∀ j, j < 31 → takes ⟨0#2, .al⟩ is g j = true → starts s g true 16 (addr j) = true) :=
  ⟨wit (by decide +kernel), wit (by decide +kernel)⟩

/-- Ordered adds, uniform loads and stores, sleeps: addresses that pass. -/
theorem wit_FurtherMemoryIssue :
    (∃ is g, Fits (atWord 0#32) (.faddOrdF32 8#6 1#6 0#2 .device) is g ∧
      (let g := g.atIssue (.faddOrdF32 8#6 1#6 0#2 .device) is
      is.mask ≠ 0#32 ∧ (∀ l, l < 32 → Table.getD g.fl.faddOrdinals l 0 < 2 ^ 32)
        ∧ ∀ l, l < 32 → has is.mask l = true → starts (atWord 0#32) g true 4 0#64 = true ∧ g.rv 1#6 l = 0#32 ∧ g.rs 60#6 = 0#64))
    ∧ (∃ is g, Fits (atWord 0#32) (.sld 8#6 9#6 2#8 1#4) is g ∧
      starts (atWord 0#32) (g.atIssue (.sld 8#6 9#6 2#8 1#4) is) false 8 16#64 = true)
    ∧ (∃ is g, Fits (atWord 0#32) (.sst 8#6 9#6 2#8) is g ∧
      starts (atWord 0#32) (g.atIssue (.sst 8#6 9#6 2#8) is) true 8 16#64 = true)
    ∧ ∃ is g, Fits (atWord 0#32) (.sleep 63#6 9#6 10#6 true .eq) is g ∧
      starts (atWord 0#32) (g.atIssue (.sleep 63#6 9#6 10#6 true .eq) is) false 8 (g.rs 9#6) = true :=
  ⟨wit (by decide +kernel), wit (by decide +kernel), wit (by decide +kernel), wit (by decide +kernel)⟩

/-- A probe of a page that the TLB of the core holds, under the region's generation. -/
theorem wit_Probe :
    let s := { atWord 0#32 with cores := [(0, { Core.fresh with tlb := [⟨placedRcb, 1#16, 0, 7#64⟩] })] }
    ∃ is g, Fits s (.ldProbe ⟨0#2, .al⟩ 1#2 1#6 0#2 .n128) is g ∧ (let g := g.atIssue (.ldProbe ⟨0#2, .al⟩ 1#2 1#6 0#2 .n128) is
      g.id.walker = false ∧ ∀ l, l < 32 → takes ⟨0#2, .al⟩ is g l = true →
        s.tlb g.ctl.core (s.slotHolder (s.regionOf g)) g.pinGen 0 = some 7#64 ∧ g.rs 60#6 = 0#64 ∧ g.rv 1#6 l = 0#32) :=
  wit (by decide +kernel)

/-- A second group of the gang, on core 1, whose lanes have not arrived. -/
def twoGroups (s : State) : State :=
  match s.groups with
  | [(k, g)] => { s with groups := [(k, g), (k + 1, { g with id := { g.id with grpid := 1 } })] }
  | _ => s

theorem wit_BarrierArrival :
    ∃ is g, Fits (twoGroups (atWord 0#32)) (.bar 7#3 false) is g ∧ (let s := twoGroups (atWord 0#32)
      let g := g.atIssue (.bar 7#3 false) is
      let k := barrierKey false 7 g.id.wg
      let b := s.barrier g.id.gang k
      (Table.get? s.gangs g.id.gang).isSome = true ∧ (∀ l, l < 32 → has is.mask l = true → b.arrivedAt (g.threadKey l) ≠ b.phase + 1)
      ∧ ∃ p ∈ s.groups, p.1 ≠ is.grp ∧ p.2.inInstance g.id.gang k = true ∧ has p.2.live 0 = true
        ∧ b.arrivedAt (p.2.threadKey 0) ≠ b.phase + 1 ∧ ∀ j, j < 32 → has is.mask j = true → g.threadKey j ≠ p.2.threadKey 0) :=
  wit (by decide +kernel)

theorem wit_BarrierCompletion :
    ∃ is g, Fits (atWord 0#32) (.gbar 0#3 false) is g ∧ (let s := atWord 0#32
      let g₀ := g
      let g := g.atIssue (.gbar 0#3 false) is
      let k := barrierKey true 0 g.id.wg
      let b := s.barrier g.id.gang k
      (Table.get? s.gangs g.id.gang).isSome = true ∧ is.mask = g.live ∧ is.mask ≠ 0#32 ∧ g.ctl.waits = [] ∧ g.tr.saved = []
      ∧ (s.groups.filter fun p => p.2.inInstance g.id.gang k) = [(is.grp, g₀)]
      ∧ ∀ l, l < 32 → has is.mask l = true → b.arrivedAt (g.threadKey l) ≠ b.phase + 1) :=
  wit (by decide +kernel)

/-- TVEC set, no handler active: the premises of trap, brk, and of a word that a check traps (a register beyond its allocation). -/
theorem wit_TrapsTaken :
    let f := fun (g : Group) => { g with tr := { g.tr with tvec := 0x100#56 } }
    let f' := fun (g : Group) => { f g with id := { g.id with alloc := ⟨8, 64, 0, 0⟩ } }
    (∃ is g, Fits (atWord 0#32 f) (.trap 5#12) is g ∧ (let g := g.atIssue (.trap 5#12) is
      g.fl.pend = [] ∧ g.id.walker = false ∧ (atWord 0#32 f).dbg.attached = none ∧ g.tr.st.active = false ∧ g.tr.tvec ≠ 0#56
        ∧ ∀ l, l < 32 → has is.mask l = true → g.waitOf l = none))
    ∧ (∃ is g, Fits (atWord 0#32 f) (.brk 5#12) is g ∧ (let g := g.atIssue (.brk 5#12) is
      g.fl.pend = [] ∧ g.id.walker = false ∧ (atWord 0#32 f).dbg.attached = none ∧ g.tr.st.active = false ∧ g.tr.tvec ≠ 0#56
        ∧ ∀ l, l < 32 → has is.mask l = true → g.waitOf l = none))
    ∧ ∃ is, (atWord 0#32 f').issue = some is ∧ ∃ g, Table.get? (atWord 0#32 f').groups is.grp = some g
      ∧ (atWord 0#32 f').wordTrap (.iadd ⟨0#2, .al⟩ 8#6 1#6 1#6) is.mask (g.moves false is.mask) = some 0x04#8
      ∧ (g.moves false is.mask).fl.pend = [] ∧ g.id.walker = false ∧ g.tr.tvec ≠ 0#56 ∧ g.tr.st.active = false :=
  ⟨wit (by decide +kernel), wit (by decide +kernel), _, rfl, _, rfl, by decide +kernel⟩

/-- The return from a handler, and PREQ with a notice pending. -/
theorem wit_TrapReturnAndPreq :
    (∃ is g, Fits (atWord 0#32 fun g => { g with tr := { g.tr with st := { g.tr.st with active := true, ret := 0x40#56 } } }) .tret is g
      ∧ (g.atIssue .tret is).tr.st.active = true)
    ∧ (∃ is g, Fits (atWord 0#32) .tret is g ∧ (g.atIssue .tret is).tr.st.active = false)
    ∧ (∃ is g, Fits (atWord 0#32 fun g => { g with ctl := { g.ctl with notice := .pending } }) .preq is g
      ∧ (g.atIssue .preq is).ctl.notice = .pending)
    ∧ ∃ is g, Fits (atWord 0#32) .preq is g ∧ (g.atIssue .preq is).ctl.notice = .none :=
  ⟨wit (by decide +kernel), wit (by decide +kernel), wit (by decide +kernel), wit (by decide +kernel)⟩

/-- A swrite of TVEC with an aligned value, with bit 0 set, and with bit 56 set; one of an LCR that the core has bins for. -/
theorem wit_SpecialRegisterWrites :
    (∃ is g, Fits (atWord 0#32 (withRegs [] [(7, 0xFFFFFFFFFFFFFC#64)])) (.swrite 7#6 .tvec) is g ∧
      (let g := g.atIssue (.swrite 7#6 .tvec) is
      (g.rs 7#6).toNat % 4 = 0 ∧ (g.rs 7#6).toNat < 2 ^ 56))
    ∧ (∃ is g, Fits (atWord 0#32 (withRegs [] [(7, 1#64)])) (.swrite 7#6 .tvec) is g ∧
      ((g.atIssue (.swrite 7#6 .tvec) is).rs 7#6).toNat % 4 ≠ 0)
    ∧ (∃ is g, Fits (atWord 0#32 (withRegs [] [(7, 0x100000000000000#64)])) (.swrite 7#6 .tvec) is g ∧
      2 ^ 56 ≤ ((g.atIssue (.swrite 7#6 .tvec) is).rs 7#6).toNat)
    ∧ (∃ is g, Fits (atWord 0#32) (.swrite 7#6 .tretpc) is g)
    ∧ let s := { atWord 0#32 with cores := [(0, { Core.fresh with bins := [⟨0, []⟩] })] }
      ∃ is g, Fits s (.swrite 7#6 (.lcr 7#3)) is g ∧ (let g := g.atIssue (.swrite 7#6 (.lcr 7#3)) is
        (s.core g.ctl.core).bins.find? (fun b => b.partition == g.view.partition) = some ⟨0, []⟩) :=
  ⟨wit (by decide +kernel), wit (by decide +kernel), wit (by decide +kernel),
    (fitsAnd_sound (P := fun _ _ => true) (by decide +kernel)).imp fun _ ⟨g, h, _⟩ => ⟨g, h⟩, wit (by decide +kernel)⟩

/-- A partition whose marks are on or off, with room in its ring or without. -/
def partition (enable : BitVec 5) (w : Nat) : Partition where
  snap := 0x100000
  ctl := 0x110000
  ring := 0x120000
  bytes := 0x10000
  enable := enable
  period := 0
  rate := 0
  rejected := false
  bins := []
  events := []
  interval := 0
  counts := []
  enabledTime := []
  countedTime := []
  strokes := []
  readIndex := 0
  writeIndex := w
  lost := 0
  lostSlots := 0
  version := 0
  traced := []

def withPart (p : Partition) (s : State) : State := { s with prof := { s.prof with parts := [(0, p)] } }

theorem wit_Marks :
    (∃ is g, Fits (withPart (partition 0x1F#5 0) (atWord 0#32)) (.pmark 5#12) is g ∧ (g.atIssue (.pmark 5#12) is).view.partition = 0)
    ∧ (∃ is g, Fits (atWord 0#32) (.pmarkV 3#6 5#12) is g)
    ∧ (partition 0x1F#5 0).on 3 = true ∧ (partition 0x1F#5 1364).writeIndex - 0 < (partition 0x1F#5 1364).capacity
    ∧ (partition 0#5 0).on 3 = false :=
  ⟨wit (by decide +kernel), (fitsAnd_sound (P := fun _ _ => true) (by decide +kernel)).imp fun _ ⟨g, h, _⟩ => ⟨g, h⟩, by decide⟩

/-! ## Premises of the statements about steps of a group -/

/-- The placed device, its group, and the device with one such group. -/
def dev0 : State := State.reset.placedDevice .vector 0#32
def grp0 : Group := (dev0.newGroup (placedLaunch .vector) ⟨1, 1, 0, 0, 0, 0⟩ (placedPosition .vector) 0).bornActive
def one (g : Group) (s : State := dev0) : State := { s with groups := [(2, g)] }

/-- An access and a memory word in flight. -/
def acc (lane size : Nat) (va : BitVec 64) (st : AccState) (done : Bool := false) : LaneAcc :=
  { lane, off := 0, size, va, st, done, data := 5#64, cmp := 0, val := 0, ordinal := 0, judged := false, held := none, diverged := false }
def word (kind : MemKind) (accs : List LaneAcc) (queue : QueueState) (pend : Option Nat := none) : MemOp :=
  { seq := 0, pc := 0, word := 0, set := BitVec.allOnes 32, kind, ord := .rlx, scope := .device, base := 0, accs, pend, queue
    log := none, slot := 0, gen := 1, answered := [], kv := [] }
/-- The device whose TLBs of core 0 hold the placed page, and page 2 as a native page at 0x30000. -/
def warm (s : State := dev0) : State :=
  { s with cores := [(0, { Core.fresh with tlb := [placedTlb, ⟨placedRcb, 1#16, 2, 0x30023#64⟩] })] }
def withOps (os : List MemOp) (ps : Table Pend := []) (g : Group := grp0) : Group :=
  { g with fl := { g.fl with ops := os, pend := ps, nextSeq := 9 } }

/-- A store, an atomic and a compare-and-swap in the outbound path of core 0, at a translated address. -/
def atHome (kind : MemKind) : State :=
  one (withOps [word kind [acc 0 4 0x10100#64 (.direct 0x10100)] .outbound]) { dev0 with cores := [(0, { Core.fresh with out := [(2, 0)] })] }

theorem wit_AccessAtHome : ∀ kind ∈ ([.store 4, .atom .minI 4, .cas 4] : List MemKind),
    let s := atHome kind
    let a := acc 0 4 0x10100#64 (.direct 0x10100)
    let o := word kind [a] .outbound
    Table.get? s.groups 2 = some (withOps [o]) ∧ (withOps [o]).opAt 0 = some o ∧ o.accs[0]? = some a ∧ s.accPa a = some 0x10100
      ∧ o.kind.writes = true ∧ (∀ f, o.kind ≠ .fadd f) ∧ s.mayPerform 2 (withOps [o]) o 0 a = true
      ∧ s.behindHeld (fun _ => true) 0 2 o.seq a = false ∧ s.homeError o a 0x10100 (.done 0#64) = none ∧ a.held = none
      ∧ (∀ p ∈ s.regions, p.2.gate = none ∧ p.2.recorder = none)
      ∧ ∀ n ∈ ([4] : List Nat), n = a.size := by decide +kernel

theorem wit_LoadAtHome :
    let a := acc 0 8 0x10100#64 (.leaf 0x10007#64)
    let o := word (.load 8 false) [a] .none
    (withOps [o]).opAt 0 = some o ∧ (one (withOps [o])).accPa a ≠ none
      ∧ (one (withOps [o])).mayPerform 2 (withOps [o]) o 0 a = true ∧ a.held = none ∧ (∀ x ∈ (withOps [o]).fl.ops, x.queue ≠ .queued)
      ∧ (one (withOps [o])).homeError o a 0x10100 (.done 0#64) = none
      ∧ ∀ p ∈ (one (withOps [o])).regions, p.2.gate = none ∧ p.2.recorder = none := by decide +kernel

/-- A configured device with a private window of 1 GiB at the foot of the CXL range; the line 128 above its base has its last version. -/
def settings : Config.Settings :=
  { device := 1, sets := [⟨Config.cxlBase, 2 ^ 30, 1#32, 8, false⟩], ports := BitVec.allOnes 36, peers := [(35, 7#22)], ptpDomain := 4
    ptpPorts := BitVec.allOnes 36, powerCap := 52, spares := 0 }
def versioned (s : State) : State :=
  { s with boot := { s.boot with settings := some settings }, versions := [(Config.cxlBase / 64 + 2, 2 ^ 56 - 1)] }

/-- A store to a line of the last version is refused, and none beside it; a store and a load meet what a line holds; an error of each kind may
answer any access. -/
theorem wit_ErrorAtHome :
    (let pa := Config.cxlBase + 136
    let a := acc 0 4 0x10100#64 (.direct pa)
    let o := word (.store 4) [a] .outbound
    let s := versioned (one (withOps [o]) { dev0 with cores := [(0, { Core.fresh with out := [(2, 0)] })] })
    s.accPa a = some pa ∧ s.mayPerform 2 (withOps [o]) o 0 a = true ∧ a.held = none ∧ s.behindHeld (fun _ => true) 0 2 o.seq a = false
      ∧ s.spoilt pa 4 (a.writes o.kind 0#64).isSome = some .integrity ∧ s.spoilt (pa - 12) 4 true = none ∧ s.fab.violations.length < 4096
      ∧ s.inPrivate pa = true ∧ pa / 64 = (pa + 4 - 1) / 64 ∧ a.isPair = false ∧ (∀ b ∈ o.accs, b.lane = a.lane → b.off = a.off)
      ∧ s.inPrivate 0x10100 = false)
    ∧ (∀ e ∈ ([.poison, .integrity] : List ErrorKind), let s : State := { atHome (.store 4) with bad := [(0x10100 / 64, e)] }
      s.spoilt 0x10100 4 false = some e ∧ s.spoilt 0x10100 4 true = (if e = .poison then some e else none)
      ∧ s.spoilt 0x10140 4 false = none)
    ∧ ({ versioned dev0 with fab := { dev0.fab with cxlDown := [0] } } : State).portDown Config.cxlBase = true
    ∧ Quiet (atHome (.store 4)) ∧ (∃ e : Reply, e = .error .poison) := by
  refine ⟨by decide +kernel, by decide +kernel, by decide +kernel, ?_, ⟨_, rfl⟩⟩
  unfold Quiet
  decide +kernel

/-- A set that sleeps on its gang window, its read due; the word is zero, so that ne does not hold and eq does. -/
def sleeper (c : SleepCond) (n64 : Bool) : Sleeper :=
  { seq := 0, pc := 0x10000#56, word := 0, mask := BitVec.allOnes 32, va := 0x80010000000000#64, n64, cond := c, val := 0
    threshold := none, due := true, pa := none, req := none, answered := none }
def asleep (z : Sleeper) : Group := { grp0 with fl := { grp0.fl with sleepers := [z] } }
def bound : State :=
  { dev0 with gangs := [(1, { placedGang with window := 65536 })]
              launches := [(1, { placedLaunch .vector with binding := [(1, 0x00010000FFFFFF01#64)] })] }

/-- An access that goes straight to this address. -/
def direct (s : State) (g : Group) (size : Nat) (va : BitVec 64) (pa : Nat) : Bool :=
  match s.startAccess g false size va with
  | .ok (.direct x) => x == pa
  | .ok _ => false
  | .trap _ => false

theorem wit_SleepRead : ∀ c ∈ ([.eq, .ne] : List SleepCond),
    (asleep (sleeper c true)).sleepDue (sleeper c true) = true
    ∧ direct bound (asleep (sleeper c true)) 8 0x80010000000000#64 (gangWindowAt 1) = true
    ∧ (∀ e ∈ (one (asleep (sleeper c true)) bound).groups, e.2.fl.ops = []) ∧ (asleep (sleeper c true)).fl.cmds = []
    ∧ (bound.core 0).out = [] ∧ bound.early = [] ∧ bound.inCxl (gangWindowAt 1) = false ∧ bound.spoilt (gangWindowAt 1) 8 false = none ∧ ∀ p ∈ bound.regions, p.2.gate = none ∧ p.2.recorder = none := by decide +kernel

/-- A root switch outstanding: a malformed word, a stale generation, one in use, all slots taken, and one that fits. -/
def switching (w gen : BitVec 64) : Group := { grp0 with fl := { grp0.fl with roots := [⟨4#6, w, gen, 0⟩] } }
def rooted (slots : Table (BitVec 64)) : Region := { placedRegion with slots := slots }
def full : Table (BitVec 64) := (List.range 8).map fun j => (j, BitVec.ofNat 64 ((j + 1) * 2 ^ 48 + 0x201))

theorem wit_RootSwitchStep :
    let g := switching 0x0002000000000201#64 1#64
    let s := one g
    g.released 0 = true ∧ s.slotHolder (s.regionOf g) = placedRcb ∧ Table.get? s.regions placedRcb = some placedRegion
    ∧ (0x0002000000000201#64).toNat / 2 ^ 4 % 2 ^ 5 = 0 ∧ s.inMemory (0x0002000000000201 / 2 ^ 9 % 2 ^ 39 * 2 ^ 13) = true
    ∧ (0xFFFF#64).toNat < 2 ^ 16 ∧ ¬ (0x10000#64).toNat < 2 ^ 16 ∧ placedRoot.toNat / 2 ^ 48 = 1
    ∧ (Table.getD placedRegion.slots 1 0#64).getLsbD 0 = false ∧ (Table.getD placedRegion.slots 0 0#64).getLsbD 0 = true
    ∧ ∀ j, j < 8 → (Table.getD full j 0#64).getLsbD 0 = true ∧ (Table.getD full j 0#64).toNat / 2 ^ 48 ≠ 9 := by decide +kernel

/-! ## The walker -/

def walk0 : Walk := placedWalk
def walkerCore (walking : Bool) (issued : Nat) : State :=
  { dev0 with cores := [(0, { Core.fresh with walks := [walk0], walking := walking, walkIssued := issued })] }

theorem wit_ScribeWalks :
    ((walkerCore false 0).core 0).walks = [walk0] ∧ ((walkerCore false 0).core 0).walking = false ∧ dev0.host.dev = .running
    ∧ ((walkerCore true 4096).core 0).walking = true ∧ 4096 ≤ ((walkerCore true 4096).core 0).walkIssued
    ∧ (∀ p ∈ (walkerCore true 4096).groups, p.2.fl.sleepers = []) := by decide +kernel

/-- A fill, in the walker slot, of the walk's page with a leaf in memory. -/
theorem wit_WalkEnds :
    let f := withRegs [] [(2, 0x10000#64), (3, 0x10007#64)]
    ∃ is g, Fits (atWord 0xA80020C0#32 f) (.tlbfFill 2#6 3#6) is g ∧ (let s := atWord 0xA80020C0#32 f
      let g := g.atIssue (.tlbfFill 2#6 3#6) is
      (s.core g.ctl.core).walks = [walk0] ∧ (s.core g.ctl.core).walking = true ∧ (g.rs 3#6).getLsbD 0 = true
      ∧ s.leafOk (g.rs 3#6) = true ∧ (g.rs 2#6).toNat / 2 ^ 16 % 2 ^ 40 = walk0.page ∧ (s.slotWord walk0.region walk0.slot).getLsbD 0 = true
      ∧ (s.slotWord walk0.region walk0.slot).toNat / 2 ^ 48 = walk0.gen.toNat ∧ (s.groups.filter fun p => p.1 ≠ is.grp) = []) :=
  wit (by decide +kernel)

/-! ## Traps that waited -/

def request : TrapReq :=
  { code := 0x10#8, pc := 0x40#56, ret := 0x44#56, word := 0, mask := 1#32, failed := 1#32, info := 0, addr := 0, imm := 0, cur := 0
    rank := 0 }
def entering : Group := { grp0 with tr := { grp0.tr with tvec := 0x100#56, entering := some request } }

theorem wit_TrapEntry : entering.tr.entering = some request ∧ entering.id.walker = false ∧ entering.ctl.dead = false
    ∧ (one entering).mayMoveAll entering = true ∧ (one entering).dbg.attached = none
    ∧ entering.tr.st.active = false ∧ entering.tr.tvec ≠ 0#56 ∧ request.code ≠ 0x30#8 ∧ request.code ≠ 0x31#8 := by decide +kernel

/-! ## The order gate -/

def gate0 (script : List ScriptEntry) : Gate :=
  { script := script, words := script.map ScriptEntry.word, status := 0x10300, timeout := 16, unscripted := 2, progressed := 1
    replay := false, runHash := [] }
def gated (x : Option Gate) (s : State) : State := { s with regions := [(placedRcb, { placedRegion with gate := x })] }
/-- The descriptor at 0x10100 in the placed page: a script of one entry at 0x10200, the status word at 0x10300. -/
def gateMem (s : State) : State :=
  { s with mem := ((((s.mem.store 0x10100 8 0x10200).store 0x10108 8 0x10300).store 0x10110 8 1).store 0x10200 8 0x10400) }

theorem wit_OrderGate :
    (∃ is g, Fits (atWord 0#32) (.gateCancel 7#6) is g)
    ∧ (∃ is g, Fits (gated (some (gate0 [⟨0x10400, 0, 0, 0, none⟩])) (atWord 0#32)) (.gateCancel 7#6) is g ∧
      (let s := gated (some (gate0 [⟨0x10400, 0, 0, 0, none⟩])) (atWord 0#32)
      let g := g.atIssue (.gateCancel 7#6) is
      (s.setGroup is.grp (g.advance is)).heldAccs [0x10400] = []))
    ∧ ∃ is g, Fits (gateMem (atWord 0#32 (withRegs [] [(7, 0x10100#64)]))) (.gateArm 7#6) is g ∧
      (let s := gateMem (atWord 0#32 (withRegs [] [(7, 0x10100#64)]))
      let g := g.atIssue (.gateArm 7#6) is
      (s.readVa g (g.rs 7#6) 32).isSome = true ∧ (∃ bs ∈ s.readVa g (g.rs 7#6) 32, leNat (bs.drop 16) / 2 ^ 48 = 0
        ∧ leNat (bs.drop 16) % 2 ^ 16 = 1 ∧ (s.readScript g (BitVec.ofNat 64 (leNat (bs.take 8))) 1).isSome = true
        ∧ (s.statusPa g (BitVec.ofNat 64 (leNat ((bs.drop 8).take 8)))).isSome = true)) :=
  ⟨(fitsAnd_sound (P := fun _ _ => true) (by decide +kernel)).imp fun _ ⟨g, h, _⟩ => ⟨g, h⟩, wit (by decide +kernel),
    wit (by decide +kernel)⟩

/-! ## Checks of an issue -/

theorem wit_ChecksOfAnIssue :
    (Instr.copy 0#8 0#3 12#6 0#4 .plain).duty ≠ some grp0.id.duty ∧ (Instr.copy 0#8 0#3 12#6 0#4 .plain).duty ≠ none
    ∧ (Instr.tlbfBad 0#6 0#6).privilege = .w ∧ grp0.id.walker = false
    ∧ (∃ u ∈ (Instr.addw ⟨0#2, .al⟩ 3#6 4#6 6#6).uses, ∃ n ∈ u.first 0#8, n % u.width ≠ 0)
    ∧ (∃ u ∈ (Instr.iadd ⟨0#2, .al⟩ 8#6 0#6 0#6).uses, ∃ n ∈ u.first 0#8, n % u.width = 0 ∧ (⟨8, 64, 0, 0⟩ : Alloc).limit u.cls < n + u.width)
    ∧ (∀ u ∈ (Instr.iadd ⟨0#2, .al⟩ 7#6 0#6 0#6).uses, u.check ⟨8, 64, 0, 0⟩ 0#8 = none)
    ∧ (∃ u ∈ (Instr.iadd ⟨0#2, .al⟩ 5#6 1#6 2#6).uses,
        u.hits 0#8 ⟨false, 5, 1, 0, BitVec.allOnes 32, BitVec.allOnes 32, 3, false⟩ = true) := by decide +kernel

/-! ## A step -/

/-- The placed machine issues its word: nothing is due, and the lane pipe of core 0 is next. -/
def readyAt (w : Word) : Bool :=
  let s := State.reset.placeWord w
  s.agenda.isEmpty && s.walkDue.isNone && s.due.isNone && s.issueTurn == some (0, false) &&
    match s.pickOn 0 false with
    | none => false
    | some (k, v) => match Table.get? s.groups k with
      | none => false
      | some g => (g.boundaryFor v.mask).isNone && (s.comparatorHit g v).isNone &&
        match s.fetch g v.mask with
        | .word x => x == w
        | _ => false

/-- A word that decodes, one of no instruction, one with a reserved field. -/
theorem wit_StepRunsTheDecodedWord : readyAt 0x01003105#32 = true ∧ readyAt 0#32 = true ∧ decode 0#32 = .illop
    ∧ readyAt 0x013C3105#32 = true ∧ decode 0x013C3105#32 = .illfld := by decide +kernel

/-- A step that a store performed early holds, and one that it does not. -/
theorem wit_StepHeld :
    let s : State := { one grp0 with early := [⟨2, 0, .device, .home 0x10100, 8, true⟩] }
    s.stepHeld (.notifyWrite 0 0#64) = true ∧ (one grp0).stepHeld (.notifyWrite 0 0#64) = false
    ∧ (Instr.notifyWrite 0 0#64).isWord = false ∧ (Instr.thermalHalt 115).isWord = false ∧ (one grp0).stepHeld (.thermalHalt 115) = false := by
  decide +kernel

/-! ## Windows, landing, and steps of memory words -/

/-- Two pending destinations on lines and registers of their own: one of the set with its window open, and one of other lanes. -/
def pend0 (remaining : Nat) (landed : Bool) : Pend := ⟨false, 8, 1, 0, 0xFFFF#32, 0xFFFF#32, remaining, landed⟩
def pend1 : Pend := ⟨true, 4, 1, 2, 0xFFFF0000#32, 0#32, 0, true⟩

theorem wit_WindowsAtAnIssue : ∀ n ∈ ([0, 1, 15] : List Nat),
    let g := withOps [] [(0, pend0 n true), (7, pend1)]
    (g.fl.pend.map Prod.fst).Nodup
    ∧ (∀ x ∈ g.fl.pend, ∀ y ∈ g.fl.pend, x.1 ≠ y.1 → (x.2.line + x.2.width ≤ y.2.line ∨ y.2.line + y.2.width ≤ x.2.line)
      ∧ (x.2.uniform = y.2.uniform → x.2.reg + x.2.width ≤ y.2.reg ∨ y.2.reg + y.2.width ≤ x.2.reg))
    ∧ (∀ x ∈ g.fl.pend, x.2.line + x.2.width ≤ 8 ∧ (x.2.uniform = true → x.2.width = 1))
    ∧ (pend0 n true).set &&& 1#32 ≠ 0#32 ∧ pend1.set &&& 1#32 = 0#32 := by decide +kernel

theorem wit_StoreDeparts :
    let o := word (.store 4) [acc 0 4 0x10100#64 (.direct 0x10100)] .queued
    (withOps [o]).ctl.dead = false ∧ (withOps [o]).queueHead = some o ∧ (withOps [o]).mayDepart o = true
      ∧ ∃ a ∈ o.accs, a.over = false := by decide +kernel

/-- Loads of 1, 2, 4, 8 and 16 bytes, atomics and LDK, each with the registers that it needs, whose accesses are done. -/
theorem wit_ValueLanded : ∀ x ∈ ([(.load 1 true, 1), (.load 2 false, 1), (.load 4 false, 1), (.load 8 false, 2), (.load 16 false, 4),
      (.atom .add 8, 2), (.cas 4, 1), (.ldk, 1)] : List (MemKind × Nat)),
    let o := word x.1 [acc 31 4 0x10100#64 (.direct 0x10100) true] .none (some 0)
    let p : Pend := { pend0 0 false with width := x.2 }
    let g := withOps [o] [(0, p)]
    g.opAt 0 = some o ∧ g.mayLand o = true ∧ o.pend = some 0 ∧ Table.get? g.fl.pend 0 = some p ∧ 1 ≤ p.width
      ∧ p.uniform = false ∧ (∀ a ∈ o.accs, a.st.isFailed = false ∧ a.lane < 32) ∧ (o.accs.map LaneAcc.lane).Nodup
      ∧ (match x.1 with
        | .load n _ => decide ((n + 3) / 4 ≤ p.width)
        | .atom _ n => decide ((n + 3) / 4 ≤ p.width)
        | .cas n => decide ((n + 3) / 4 ≤ p.width)
        | _ => true) = true
      ∧ (o.accs.map fun a => (a.lane, a.off)).Nodup ∧ ∀ a ∈ o.accs, a.off = 0 ∨ a.off = 8 := by decide +kernel

/-- The page at 0x20000 is mapped with a native leaf: contexts lie there. -/
def native (s : State := dev0) : State := warm { s with mem := s.mem.store 0x2010 8 0x30023 }
def waitsFor (line : Nat) : Group := { grp0 with ctl := { grp0.ctl with missing := [line], filling := [line], ctx := 0x20000#64 } }

theorem wit_LineFilled : ∀ n ∈ ([0, 255] : List Nat), native.mayFill (waitsFor n) n = true
    ∧ native.ctxReach (waitsFor n) ((waitsFor n).ctl.ctx + BitVec.ofNat 64 (0x2000 + 128 * n)) = .pa (0x32000 + 128 * n) := by
  decide +kernel

/-- Answers that name a valid slot, whose page has a leaf, and one that is not valid. -/
theorem wit_LogEntryReplayed :
    let o := word (.load 4 false) [acc 0 4 0x10100#64 (.answered 0), acc 1 4 0x10100#64 (.answered 7), acc 2 4 0x10100#64 .miss] .none
    let s := one (withOps [o])
    (withOps [o]).ctl.act ≠ .parked ∧ (withOps [o]).opAt o.seq = some o
      ∧ slotValid (s.slotWord (s.slotHolder (s.regionOf (withOps [o]))) 0) = true
      ∧ slotValid (s.slotWord (s.slotHolder (s.regionOf (withOps [o]))) 7) = false
      ∧ s.tlb 0 placedRcb 1#16 1 = none ∧ s.slotHolder (s.regionOf (withOps [o])) = placedRcb ∧ (withOps [o]).ctl.core = 0
      ∧ (warm s).tlb 0 placedRcb 1#16 1 = some 0x10007#64 ∧ leafReach o.kind.access 0x10007#64 = .leaf 0x10007#64
      ∧ leafReach kindWrite 0x10001#64 ≠ .leaf 0x10001#64 := by
  decide +kernel

/-! ## Engine commands -/

/-- A group of the matrix duty's width of operands, with one command; its gang holds a panel and a ring entry. -/
def cmd (i : Instr) (ops : List (BitVec 64)) (started : Bool) : EngCmd :=
  { newCmd i ⟨2, BitVec.allOnes 32, 0, 1⟩ grp0 ops none 1 with started := started }
def withCmd (c : EngCmd) : Group := { grp0 with fl := { grp0.fl with cmds := [c], nextSeq := 9 } }
def gang0 : Gang :=
  { placedGang with panels := [(0, ⟨[], [], some 0, [], 0, false⟩)], rings := [(0, ⟨[7#48], 1, 0⟩), (15, ⟨[], 16, 16⟩)] }
def engines (c : EngCmd) (s : State := dev0) : State := one (withCmd c) { s with gangs := [(1, gang0)] }
def ready (c : EngCmd) : Bool := (engines c).mayWork (withCmd c) c && (withCmd c).cmdAt c.seq == some c

theorem wit_CommandStarts :
    (∀ c ∈ [cmd (.copy 0#8 0#3 12#6 0#4 .plain) [] false, cmd (.chwp .device 0#3 12#6 0#4 false) [] false,
        cmd (.rput 0#4 12#6 0#4) [] false, cmd (.mma .f32 0#3 7#3 12#6 0#4 false) [0#64] false,
        cmd (.mma .f32 0#3 7#3 12#6 0#4 false) [512#64] false],
      (engines c).mayStart (withCmd c) c = true ∧ (withCmd c).cmdAt c.seq = some c)
    ∧ (dev0.panelCount grp0.id.launch = 512) ∧ (512#64).toNat = 512 ∧ (0#64).toNat < 512
    ∧ (Table.get? gang0.panels 0).map Panel.fmt = some (some (mmaCode .f32))
    ∧ (∀ x ∈ ([(.mma .f64 7#3 6#3 12#6 0#4 false, mmaCode .f64), (.mma .bf16 7#3 7#3 12#6 0#4 true, mmaCode .f32)] : List (Instr × Nat)),
      let c := cmd x.1 [0#64] false
      let s : State := { engines c with gangs := [(1, { gang0 with panels := [(0, ⟨[], [], some x.2, [], 0, false⟩)] })] }
      s.mayStart (withCmd c) c = true ∧ (withCmd c).cmdAt c.seq = some c) ∧ mmaCode .f64 ≠ mmaCode .bf16
    ∧ Instr.tensor (.copy 255#8 0#3 12#6 0#4 .plain) = some 255 := by decide +kernel

theorem wit_StatusLands : Table.get? (one (withOps [] [(0, pend0 0 false)])).groups 2 = some (withOps [] [(0, pend0 0 false)])
    ∧ Table.get? (withOps [] [(0, pend0 0 false)]).fl.pend 0 = some (pend0 0 false) ∧ dev0.prof.parts = [] := by decide +kernel

/-- A tensor of one element of 4 bytes at 0x10100, copied to 0x10200. -/
def tensor : List Byte :=
  leBytes 8 0x10100 ++ leBytes 16 0 ++ leBytes 4 1 ++ leBytes 4 1 ++ leBytes 4 1 ++ leBytes 4 0 ++ leBytes 24 0
def copies : EngCmd := { cmd (.copy 0#8 0#3 12#6 0#4 .plain) [0#64, 0x10200#64, 0x0001000100000001#64, 0#64] true with tid := tensor }
def ends (i : Instr) (x : Nat × Nat) : EngCmd := { cmd i [] true with ended := some x }

theorem wit_CommandCompletes :
    ready { copies with tid := leBytes 64 (16 ^ 74 * 15) } = true
    ∧ (copyGeo .plain (leBytes 64 (16 ^ 74 * 15)) copies.ops).early = some 4
    ∧ ready copies = true ∧ (copyGeo .plain copies.tid copies.ops).early = none
    ∧ ((Run.of (warm (engines copies)) noReply).copyTo 2 (withCmd copies) copies 0 (copyGeo .plain copies.tid copies.ops)
        (copyGeo .plain copies.tid copies.ops).bytes).2.2.isNone = true
    ∧ ready (ends (.chwp .device 0#3 12#6 0#4 false) (0, 4)) = true ∧ ready (ends (.mma .f32 0#3 7#3 12#6 0#4 false) (5, 0)) = true
    ∧ ready (cmd (.azero 7#3 12#6 0#4 false) [] true) = true ∧ ready (ends (.publ 0#8 12#6 0#4) (0, 1)) = true
    ∧ ready (ends (.chain 0#3 12#6 0#4) (0, 64)) = true
    ∧ (∀ c ∈ [cmd (.rput 15#4 12#6 0#4) [7#64] true, cmd (.rtake 0#4 12#6 0#4) [] true], ready c = true ∧ (engines c).ringBehind 1 c = false)
    ∧ (15#4).toNat < dev0.ringCount 1 ∧ (gang0.ring 15).entries.length < 8 ∧ (gang0.ring 0).entries = 7#48 :: [] := by decide +kernel

/-- A record at 0x10400 that own gives to the device and whose copy is the tensor's, the last of its chain; and one whose own is clear. -/
def image : List Byte := leBytes 8 0 ++ leBytes 8 1 ++ leBytes 8 0 ++ leBytes 8 0x10200 ++ leBytes 8 0x0001000100000001 ++ leBytes 24 0
def chained (record : BitVec 64) (im : List Byte) : EngCmd :=
  { cmd (.chain 0#3 12#6 0#4) [record] true with tid := tensor, image := im }
def copied : Run × EngCmd × Option Stop :=
  (Run.of (warm (engines (chained 0x10400#64 image))) noReply).copyTo 2 (withCmd (chained 0x10400#64 image)) (chained 0x10400#64 image) 0
    (copyGeo .plain tensor (recOps image)) (copyGeo .plain tensor (recOps image)).bytes
def wrote (x : Except Stop Run) : Option Run :=
  match x with
  | .ok r => some r
  | .error _ => none

theorem wit_RecordOfAChain :
    ready (chained 0x10400#64 image) = true ∧ image ≠ [] ∧ recControl image % 2 = 1 ∧ recVar image = some .plain
    ∧ recReserved image = false ∧ (copyGeo .plain tensor (recOps image)).early = none ∧ copied.2.2.isNone = true
    ∧ ((wrote (copied.1.write ((chained 0x10400#64 image).reader (withCmd (chained 0x10400#64 image))) false
        0x10430#64 (leBytes 8 (statusWord 0 0 4).toNat))).bind fun r =>
          wrote (r.write ((chained 0x10400#64 image).reader (withCmd (chained 0x10400#64 image))) false 0x10408#64 (leBytes 8 0))).isSome = true
    ∧ ready (chained 0x10400#64 []) = true ∧ (chained 0x10400#64 []).record.toNat % 64 = 0
    ∧ (match (Run.of (warm (engines (chained 0x10400#64 []))) noReply).read
          ((chained 0x10400#64 []).reader (withCmd (chained 0x10400#64 []))) 4 0x10400#64 64 with
        | .ok (_, bs) => bs.length == 64 && recControl bs % 2 == 0
        | .error _ => false) = true
    ∧ ready (chained 0x10408#64 []) = true ∧ (chained 0x10408#64 []).record.toNat % 64 ≠ 0 := by decide +kernel

theorem wit_InstantOfAPubl :
    let c := cmd (.publ 255#8 12#6 0#4) [] true
    (engines c).mayPublish (withCmd c) c = true ∧ (withCmd c).cmdAt c.seq = some c
    ∧ ({ engines c with xlat := { dev0.xlat with owners := [(255, placedRcb)] } } : State).under placedRcb ((engines c).regionOf (withCmd c)) = true
    ∧ Table.get? (engines c).xlat.owners 255 = none := by decide +kernel

/-! ## Rounding, and memory words with gates, recorders and logs -/

/-- Values beyond the largest f32, below and at the bound from which the nearest is an infinity; ties; a value of each format. -/
theorem wit_Rounding :
    (f32.decode (f32.maxBits false)).rat = some (((2 : ℚ) ^ 24 - 1) * 2 ^ 104)
    ∧ (FVal.fin true (2 ^ 25 - 1) 103).rat = some (-((2 : ℚ) ^ 25 - 1) * 2 ^ 103)
    ∧ ((2 : ℚ) ^ 24 - 1) * 2 ^ 104 < |-((2 : ℚ) ^ 25 - 1) * 2 ^ 103|
    ∧ ((2 : ℚ) ^ 24 - 1) * 2 ^ 104 + 2 ^ 104 / 2 = |-((2 : ℚ) ^ 25 - 1) * 2 ^ 103|
    ∧ (FVal.fin false (2 ^ 26 - 3) 102).rat = some (((2 : ℚ) ^ 26 - 3) * 2 ^ 102) ∧ ((2 : ℚ) ^ 24 - 1) * 2 ^ 104 < ((2 : ℚ) ^ 26 - 3) * 2 ^ 102
    ∧ (2 : ℚ) ^ (0 : Int) ≤ 1 * 2 ^ (0 : Int) ∧ (1 * 2 ^ (0 : Int) : ℚ) < 2 ^ ((0 : Int) + 1)
    ∧ (f32.decode 0x40800000).rat = some 4 ∧ (f32.decode 1).rat = some ((2 : ℚ) ^ (-149 : Int))
    ∧ (FVal.fin false 1 (-2)).rat = some (1 / 4) := by
  have h1 : f32.decode (f32.maxBits false) = .fin false (2 ^ 24 - 1) 104 := by decide +kernel
  have h2 : f32.decode 0x40800000 = .fin false (2 ^ 23) (-21) := by decide +kernel
  have h3 : f32.decode 1 = .fin false 1 (-149) := by decide +kernel
  rw [h1, h2, h3]
  refine ⟨?_, ?_, ?_, ?_, ?_, ?_, ?_, ?_, ?_, ?_, ?_⟩ <;> (try simp [FVal.rat]) <;> norm_num

/-- The formats of the conversions. -/
theorem wit_Conversions : ∃ f : CvtFmt → Option FloatFmt, f .f32 = some f32 ∧ f .f64 = some f64 ∧ f .f16 = some f16 ∧ f .bf16 = some bf16
    ∧ f .e4m3 = some e4m3 ∧ f .e5m2 = some e5m2 ∧ f .i32 = none ∧ f .n32 = none :=
  ⟨fun x => match x with
    | .f32 => some f32 | .f64 => some f64 | .f16 => some f16 | .bf16 => some bf16 | .e4m3 => some e4m3 | .e5m2 => some e5m2
    | .i32 => none | .n32 => none, by decide⟩

/-- A paged tensor of one head of two dimensions in bf16, its first stage at 0x10200 and its frequencies at 0x10300. -/
def paged : List Byte :=
  leBytes 8 0x10200 ++ leBytes 8 0x10300 ++ leBytes 8 0x20001 ++ leBytes 4 64 ++ leBytes 4 1 ++ leBytes 4 1 ++ leBytes 4 0x43 ++ leBytes 24 0
def withTensor (tid : List Byte) (s : State) : State :=
  { s with launches := s.launches.map fun e => (e.1, { e.2 with tidAhead := [(0, 0, tid)] }) }

/-- A handle that names the paged tensor, and one beyond it. -/
theorem wit_KvLoadIssue :
    (∃ is g, Fits (withTensor paged (atWord 0#32)) (.ldk ⟨0#2, .al⟩ 8#6 1#6 0#2 2#4) is g ∧
      (let g := g.atIssue (.ldk ⟨0#2, .al⟩ 8#6 1#6 0#2 2#4) is
      g.eff 8#6 = some 8 ∧ g.rs (baseReg 0#2) = 0#64
        ∧ (withTensor paged (atWord 0#32)).tidReplica g.id.launch (g.ctl.core / 4) 0 = paged))
    ∧ (tidMalformed paged = false ∧ tidKind paged = 1 ∧ slantFormat (tidFormat paged) = true ∧ 0 < tidH paged ∧ 1 < tidDh paged)
    ∧ (∃ is g, Fits (atWord 0#32) (.ldk ⟨0#2, .al⟩ 0#6 1#6 0#2 2#4) is g) ∧ tidKind (List.replicate 64 0#8) ≠ 1 :=
  ⟨wit (by decide +kernel), by decide +kernel,
    (fitsAnd_sound (P := fun _ _ => true) (by decide +kernel)).imp fun _ ⟨g, h, _⟩ => ⟨g, h⟩, by decide +kernel⟩

/-- The lanes of an LDK at its log entry: one read answered, the others translated. -/
theorem wit_KvReplayed :
    let a := fun (off n : Nat) (st : AccState) => { acc 3 n 0x10200#64 st with off := off }
    let o := { word .ldk [a 0 8 (.answered 0), a 8 8 (.direct 0x10208), a 24 4 (.direct 0x10300), a 32 8 (.answered 0)] .none (some 0) with
      kv := [⟨3, 31, paged, 2⟩] }
    let g := withOps [o]
    let s := withTensor paged (one g (warm dev0))
    g.ctl.act ≠ .parked ∧ g.opAt o.seq = some o ∧ (∀ a ∈ o.accs, a.lane = 3)
    ∧ (∃ a ∈ o.accs, a.st = .answered 0) ∧ (∀ a ∈ o.accs, a.st = .answered 0 ∨ a.st.known = true ∧ a.st.isFailed = false)
    ∧ slotValid (s.slotWord g.view.holder 0) = true
    ∧ s.tlb g.ctl.core g.view.holder (slotGen (s.slotWord g.view.holder 0)) (pageOf 0x10200#64) = some 0x10007#64
    ∧ leafReach o.kind.access 0x10007#64 = .leaf 0x10007#64
    ∧ s.tidReplica g.id.launch (g.ctl.core / 4) (handleTid o.base) = paged ∧ ldkFit o.base paged = true := by decide +kernel

/-- A refresh after an update that gave the slots to another holder, with a load in flight on the old ones. -/
theorem wit_Refresh :
    (∃ is g, Fits (atWord 0#32) .refresh is g ∧ (let g := g.atIssue .refresh is
      g.view.holder = (atWord 0#32).slotHolder ((atWord 0#32).regionOf g)))
    ∧ ∃ is g, Fits (atWord 0#32 fun g => { withOps [word (.load 4 false) [] .none] [] g with view := { g.view with holder := 0x30000 } })
        .refresh is g ∧ (let g := g.atIssue .refresh is
      g.view.holder ≠ placedRcb ∧ g.onSlots = true) :=
  ⟨wit (by decide +kernel), wit (by decide +kernel)⟩

/-- A probe of a page that no TLB holds. -/
theorem wit_ProbeMisses :
    let s := { atWord 0#32 (withRegs [] [(60, 0x50000#64)]) with cores := [] }
    ∃ is g, Fits s (.ldProbe ⟨0#2, .al⟩ 1#2 1#6 0#2 .n128) is g ∧ (let g := g.atIssue (.ldProbe ⟨0#2, .al⟩ 1#2 1#6 0#2 .n128) is
      g.id.walker = false ∧ g.fl.probes = [] ∧ takes ⟨0#2, .al⟩ is g 31 = true
      ∧ s.tlb g.ctl.core g.view.holder g.pinGen ((g.rs (baseReg 0#2)).toNat / 2 ^ 16) = none) :=
  wit (by decide +kernel)

/-- A core that holds no bin set; a stamp behind a load in flight. -/
theorem wit_SpecialRegisters :
    (∃ is g, Fits (atWord 0#32) (.swrite 7#6 (.lcr 7#3)) is g ∧ (let g := g.atIssue (.swrite 7#6 (.lcr 7#3)) is
      ((atWord 0#32).core g.ctl.core).bins = []))
    ∧ ∃ o ∈ (withOps [word (.load 4 false) [] .none]).fl.ops, o.kind.reads = true ∨ o.kind.writes = true :=
  ⟨wit (by decide +kernel), by decide +kernel⟩

/-- A lane store at a gated word: named later, next (with others behind, and last), and not named; lane 31 of the script is another. -/
theorem wit_GatedAccess : ∀ lanes ∈ ([[31, 0], [0, 31], [0], [31]] : List (List Nat)),
    let g := withOps [word (.store 4) [acc 0 4 0x10100#64 (.direct 0x10100)] .outbound]
    let n := (atHome (.store 4)).groupNumber g
    let x := gate0 (lanes.map fun l => ⟨0x10100, n, l, 0, none⟩)
    let s := gated (some x) (atHome (.store 4))
    let a := acc 0 4 0x10100#64 (.direct 0x10100)
    let o := word (.store 4) [a] .outbound
    Table.get? s.groups 2 = some g ∧ g.opAt 0 = some o ∧ s.accPa a = some 0x10100 ∧ s.mayPerform 2 g o 0 a = true
    ∧ s.behindHeld (fun _ => true) 0 2 0 a = false ∧ s.homeError o a 0x10100 (.done 0#64) = none ∧ 0x10100 ∈ x.words
    ∧ s.gatesOn 0x10100 = [(placedRcb, x)] ∧ a.lane ≠ uniformLane ∧ s.groupNumber g < 2 ^ 32 ∧ s.under placedRcb (s.regionOf g) = true
    ∧ Takes s x.status 8 ∧ ∀ p ∈ s.regions, p.2.recorder = none := by decide +kernel

/-- A load and a store at a watched word: a new entry, one that joins an open run, and one with no room in the log. -/
theorem wit_RecordedAccess : ∀ x ∈ ([(.store 4, 96, 0), (.load 4 true, 95, 0), (.load 4 true, 96, 65534)] : List (MemKind × Nat × Nat)),
    let a := acc 0 4 0x10100#64 (.direct 0x10100)
    let o := word x.1 [a] (if x.1.writes then .outbound else .none)
    let g := { withOps [o] with view := { grp0.view with determinism := 2 } }
    let n := dev0.groupNumber g
    let r : Recorder := ⟨[0x10100], 0x10400#64, x.2.1, 0, placedRcb, if x.2.2 = 0 then 0 else 1, 0,
      if x.2.2 = 0 then [] else [(0, (0, n, 0, 0, x.2.2))]⟩
    let R := { placedRegion with recorder := some r }
    let s : State := { one g with cores := [(0, { Core.fresh with out := [(2, 0)] })], regions := [(placedRcb, R)] }
    g.opAt 0 = some o ∧ s.accPa a = some 0x10100 ∧ s.mayPerform 2 g o 0 a = true ∧ s.behindHeld (fun _ => true) 0 2 0 a = false
    ∧ s.homeError o a 0x10100 (.done 0#64) = none ∧ (∀ p ∈ s.regions, p.2.gate = none) ∧ s.groupNumber g = n ∧ n < 2 ^ 32
    ∧ (s.regions.filter fun p => p.2.recorder.isSome && s.under p.1 (s.regionOf g)) = [(placedRcb, R)] ∧ g.view.determinism = 2
    ∧ s.logPa placedRcb r (64 + 32 * r.entries) = some (0x10440 + 32 * r.entries) ∧ s.logPa placedRcb r 8 = some 0x10408
    ∧ s.logPa placedRcb r 76 = some 0x1044C ∧ Takes s 0x10440 64 ∧ Takes s 0x10400 16 := by decide +kernel

/-- An armed gate that holds one store of another group; the descriptor of a second gate is readable. -/
theorem wit_GateOverGate :
    let g := withOps [word (.store 4) [{ acc 0 4 0x10400#64 (.direct 0x10400) with judged := true, held := some (5, 100) }] .outbound]
    let x := gate0 [⟨0x10400, 0, 1, 0, none⟩, ⟨0x10400, 0, 0, 0, none⟩]
    let s₀ := gateMem (atWord 0#32 (withRegs [] [(7, 0x10100#64)]))
    let s := gated (some x) { s₀ with groups := s₀.groups ++ [(3, g)] }
    (∃ is h, Fits s (.gateCancel 7#6) is h ∧ (let h := h.atIssue (.gateCancel 7#6) is
      (s.setGroup is.grp (h.advance is)).heldAccs x.words = [(5, 3, 0, 0)] ∧ Takes s x.status 8
      ∧ ∀ p ∈ s.regions, p.2.recorder = none))
    ∧ ∃ is h, Fits s (.gateArm 7#6) is h ∧ (let h := h.atIssue (.gateCancel 7#6) is
      (match exec (.gateCancel 7#6) s with
        | .next u => (match u.readVa h (h.rs 7#6) 32 with
          | some bs => leNat (bs.drop 16) / 2 ^ 48 == 0 && leNat (bs.drop 16) % 2 ^ 16 == 1
            && (u.readScript h (BitVec.ofNat 64 (leNat (bs.take 8))) 1).isSome
            && u.statusPa h (BitVec.ofNat 64 (leNat ((bs.drop 8).take 8))) == some 0x10300 && (u.spoilt 0x10300 8 true).isNone
          | none => false)
        | _ => false) = true) :=
  ⟨wit (by decide +kernel), wit (by decide +kernel)⟩

/-! ## What engine commands do -/

/-- The placed device, warm, with this command at work; what its accesses meet. -/
def at_ (c : EngCmd) (m : Memory := dev0.mem) : State := warm { engines c with mem := m }
def sees (s : State) (c : EngCmd) (va : BitVec 64) (p n : Nat) : Bool :=
  (match s.locations (c.reader (withCmd c)) kindEngineRead false va n with
    | .ok ls => decide (ls = (List.range n).map fun i => .pa (p + i))
    | .error _ => false) && (List.range n).all fun i => !s.inCxl (p + i) && decide (Gives s (p + i) 1)
def lands (s : State) (c : EngCmd) (hidden : Bool) (va : BitVec 64) (p n : Nat) : Bool :=
  (match s.locations (c.reader (withCmd c)) kindEngineWrite hidden va n with
    | .ok ls => decide (ls = (List.range n).map fun i => .pa (p + i))
    | .error _ => false) && decide (Takes s p n) && (List.range n).all fun i => !s.inCxl (p + i) && decide (Takes s (p + i) 1)
/-- What a read gives when it changes nothing. -/
def gets {α : Type} [DecidableEq α] (x : Except Stop (Run × α)) (r : Run) (P : α → Bool) : Bool :=
  match x with
  | .ok (y, v) => decide (y.s = r.s ∧ y.ext = r.ext ∧ y.refuse = r.refuse ∧ y.silent = r.silent ∧ y.lost = r.lost) && P v
  | .error _ => false

theorem sees_sound {s : State} {c : EngCmd} {va : BitVec 64} {p n : Nat} (h : sees s c va p n = true) :
    Sees s (c.reader (withCmd c)) va p n := by
  unfold sees at h
  split at h
  · next ls hl =>
    simp only [Bool.and_eq_true, decide_eq_true_eq, List.all_eq_true, Bool.not_eq_true', List.mem_range] at h
    exact ⟨by rw [hl, h.1], fun i hi => h.2 i hi⟩
  · simp at h

theorem lands_sound {s : State} {c : EngCmd} {hidden : Bool} {va : BitVec 64} {p n : Nat} (h : lands s c hidden va p n = true) :
    Lands s (c.reader (withCmd c)) hidden va p n := by
  unfold lands at h
  split at h
  · next ls hl =>
    simp only [Bool.and_eq_true, decide_eq_true_eq, List.all_eq_true, Bool.not_eq_true', List.mem_range] at h
    exact ⟨by rw [hl, h.1.1], h.1.2, fun i hi => h.2 i hi⟩
  · simp at h

theorem gets_sound {α : Type} [DecidableEq α] {x : Except Stop (Run × α)} {r : Run} {P : α → Bool} (h : gets x r P = true) :
    ∃ v, x = .ok (r, v) ∧ P v = true := by
  unfold gets at h
  split at h
  · next y v =>
    simp only [Bool.and_eq_true, decide_eq_true_eq] at h
    obtain ⟨⟨h1, h2, h3, h4, h5⟩, h6⟩ := h
    refine ⟨v, ?_, h6⟩
    cases y; cases r; simp_all
  · cases h

/-- The first and the last byte of the placed page, read and written; nothing disturbs an access. -/
theorem wit_EngineAccess :
    let c := cmd (.creduce 12#6 0#4) [] true
    Undisturbed (at_ c) noReply ∧ Sees (at_ c) (c.reader (withCmd c)) 0x1FFFF#64 0x1FFFF 1
    ∧ Lands (at_ c) (c.reader (withCmd c)) false 0x1FFF0#64 0x1FFF0 16 ∧ Takes (at_ c) 0x10000 1 :=
  ⟨by unfold Undisturbed Quiet; decide +kernel, sees_sound (by decide +kernel), lands_sound (by decide +kernel), by decide +kernel⟩

/-- A tensor of one element of 4 bytes, and a 2:4 one whose metadata are zero; f32 to a row, its code; tensors that a load refuses. -/
def pruned : List Byte :=
  leBytes 8 0x10100 ++ leBytes 8 0 ++ leBytes 8 0x10300 ++ leBytes 4 4 ++ leBytes 4 1 ++ leBytes 4 1 ++ leBytes 4 0x80 ++ leBytes 24 0

theorem wit_LoadedElements :
    let c := cmd (.tld 0#8 3#3 12#6 0#4) [0#64] true
    Sees (at_ c) (c.reader (withCmd c)) (plainAt tensor 0 0 0) 0x10100 4
    ∧ Sees (at_ c) (c.reader (withCmd c)) (BitVec.ofNat 64 (tidMeta pruned)) 0x10300 1
    ∧ Sees (at_ c) (c.reader (withCmd c)) (plainAt pruned 1 0 0) 0x10104 4 ∧ (at_ c).mem.nat 0x10300 1 = 0 :=
  ⟨sees_sound (by decide +kernel), sees_sound (by decide +kernel), sees_sound (by decide +kernel), by decide +kernel⟩

/-- Loads whose rows all lie below the tensor: every element is the fill, and every scale byte of a block the one. -/
theorem loads_nothing (s : State) (rd : Reader) (ext : EngineReply) (i0 : Int) :
    Loads s rd ext tensor false i0 (-32) (fun _ _ => 0) fun _ m => if m < 1 then BitVec.ofNat 8 (scaleOne tensor) else 0#8 := by
  have hb : formatBits (tidFormat tensor) = 32 := by decide +kernel
  have hf : tidFillOf tensor = 0 := by decide +kernel
  have hn : ∀ i : Nat, i < 32 → flatRow tensor (-32 + (i : Int)) = none := by
    intro i hi
    have : ∀ i : Fin 32, flatRow tensor (-32 + (i.val : Int)) = none := by decide +kernel
    exact this ⟨i, hi⟩
  intro i hi
  rw [hb, hf, hn i hi]
  have h1 : rowBlocks 32 = 1 := by decide
  refine ⟨fun j _ => ⟨by norm_num, rfl⟩, fun m _ => ?_⟩
  rw [h1]
  exact ⟨fun h => if_neg (by omega), fun h => if_pos h⟩

theorem wit_TileAndPanelLoads :
    (∀ n ∈ [0, 511], let c := { cmd (.wld 0#8 12#6 0#4 false) [0xFFFFFFE000000000#64, BitVec.ofNat 64 n] true with tid := tensor }
      ready c = true ∧ (c.op 1).toNat < dev0.panelCount grp0.id.launch ∧ (c.op 1).toNat < 512 ∧ ((c.op 0).extractLsb' 32 32).toInt = -32)
    ∧ ready { cmd (.wld 0#8 12#6 0#4 false) [0#64, 512#64] true with tid := tensor } = true
    ∧ ready { cmd (.tld 0#8 7#3 12#6 0#4) [0xFFFFFFE000000000#64] true with tid := tensor } = true
    ∧ loadEarly tensor false 0 = none ∧ loadEarly tensor true 0 = some 4 ∧ loadEarly pruned true 0 = none
    ∧ tidMalformed (tensor.take 60 ++ leBytes 4 1) = true := by decide +kernel

/-- The one row of the tensor, stored from accumulator 0; a bf16 tensor whose scale byte stands behind its element. -/
def halves : List Byte :=
  leBytes 8 0x10100 ++ leBytes 8 0x10140 ++ leBytes 8 0 ++ leBytes 4 1 ++ leBytes 4 1 ++ leBytes 4 1 ++ leBytes 4 3 ++ leBytes 24 0
theorem wit_StoredRow :
    let c := cmd (.ast 0#8 0#3 12#6 0#4 false) [0#64] true
    (∀ x ∈ [(tensor, false, 4), (halves, true, 2)],
      flatRow x.1 0 = some (0, 0) ∧ (∀ j : Nat, j < 32 → ((0 : Int) ≤ 0 + (j : Int) ∧ 0 + (j : Int) < (tidN0 x.1 : Int) ↔ 0 ≤ j ∧ j < 0 + 1))
      ∧ (astRow x.1 x.2.1 [grp0.astValue (tidFormat x.1) 0 0 0 0]).1.length = 1
      ∧ (∀ v ∈ (astRow x.1 x.2.1 [grp0.astValue (tidFormat x.1) 0 0 0 0]).1, v < 2 ^ formatBits (tidFormat x.1))
      ∧ ((astRow x.1 x.2.1 [grp0.astValue (tidFormat x.1) 0 0 0 0]).2.isSome = x.2.1) ∧ (1 * formatBits (tidFormat x.1) + 7) / 8 = x.2.2)
    ∧ Lands (at_ c) (c.reader (withCmd c)) true (plainAt tensor 0 0 0) 0x10100 4
    ∧ Lands (at_ c) (c.reader (withCmd c)) true (plainAt halves 0 0 0) 0x10100 2
    ∧ Lands (at_ c) (c.reader (withCmd c)) true (scaleAt halves 0 0 0) 0x10140 1 ∧ 0x10100 + 2 ≤ 0x10140 :=
  ⟨by decide +kernel, lands_sound (by decide +kernel), lands_sound (by decide +kernel), lands_sound (by decide +kernel), by decide⟩

theorem wit_ScaledBlock : (∃ top, bf16.maxVal.rat = some top) ∧ (FVal.fin true 3 0).rat = some (-3) ∧ (FVal.fin true 3 0).special = false
    ∧ FVal.nan.special = true := by
  refine ⟨?_, by simp [FVal.rat], rfl, rfl⟩
  have h : bf16.maxVal = .fin false 255 120 := by decide +kernel
  exact ⟨_, by rw [h]; rfl⟩

theorem wit_AccumulatorStores :
    (∀ x ∈ [(tensor, false, 0#64), (tensor, false, 0x100000000000000#64), (halves, true, 0#64), (halves, true, 1#64), (tensor, true, 0#64)],
      ready { cmd (.ast 0#8 7#3 12#6 0#4 x.2.1) [x.2.2] true with tid := x.1 } = true)
    ∧ astEarly tensor 0#64 7 false = none ∧ astEarly tensor 0x100000000000000#64 7 false = some 5 ∧ astEarly halves 0#64 7 true = none
    ∧ astEarly halves 1#64 7 true = some 5 ∧ astEarly tensor 0#64 7 true = some 4
    ∧ astEarly (tensor.take 36 ++ leBytes 4 1 ++ leBytes 24 0) 0#64 7 false = some 6 := by decide +kernel

/-- The rows of a store below the tensor write nothing. -/
theorem wit_RowsOfAStore (s : State) (rd : Reader) (g : Group) (ext : EngineReply) : ∃ (rs : Nat → Run) (n : Nat → Nat), rs 0 = Run.of s ext
    ∧ ∀ i, i < 32 → (rs i).astRowAt rd g tensor 7 false 0 (-32) 0 i = .ok (rs (i + 1), n i) := by
  refine ⟨fun _ => Run.of s ext, fun _ => 0, rfl, fun i hi => ?_⟩
  have h : ∀ i : Fin 32, flatRow tensor (-32 + (i.val : Int)) = none := by decide +kernel
  have h' := h ⟨i, hi⟩
  simp only at h'
  unfold Run.astRowAt
  rw [h']
/-- Entries to a blotter slot of two ranks: the first and the last, one beyond, one entered already, and another n. -/
theorem wit_BlotterEntry :
    (∀ x ∈ [(2, 0x0000000000010300#64), (2, 0x0100000000010300#64), (2, 0x0200000000010300#64), (3, 0x0000000000010300#64)],
      ready (cmd (.blsub (BitVec.ofNat 8 x.1) 15#4 12#6 0#4) [x.2] true) = true)
    ∧ (gang0.blot 15).count = 0 ∧ (0x0100000000010300#64).toNat / 2 ^ 56 = 1 ∧ (0x0200000000010300#64).toNat / 2 ^ 56 = 2
    ∧ (let a := { gang0 with blots := [(15, ⟨0, 2, false, [(0, 0x10300#64)]⟩)] }
      (a.blot 15).count = 2 ∧ Table.get? (a.blot 15).ranks 0 ≠ none ∧ Table.get? (a.blot 15).ranks 1 = none) := by decide +kernel

/-- A record of one element at 0x10300, one of 256 elements at 0x11000, and one of none. -/
def records : Memory := (dev0.mem.store 0x10308 4 1).store 0x11008 4 256
theorem wit_PartialRecord :
    let c := cmd (.blcol 0#4 12#6 0#4) [0x10200#64] true
    Sees (at_ c records) (c.reader (withCmd c)) 0x10300#64 0x10300 16 ∧ Sees (at_ c records) (c.reader (withCmd c)) 0x10310#64 0x10310 4
    ∧ Sees (at_ c records) (c.reader (withCmd c)) 0x11010#64 0x11010 1024 ∧ (0x10308#64).toNat % 16 ≠ 0
    ∧ records.w32 0x10308 = 1#32 ∧ records.w32 0x11008 = 256#32 ∧ records.w32 0x1030C = 0#32 ∧ records.w32 0x10408 = 0#32 :=
  ⟨sees_sound (by decide +kernel), sees_sound (by decide +kernel), sees_sound (by decide +kernel), by decide +kernel⟩

/-- A round of the ranks 0 and 1, both at 0x10300, of a rank that has not entered, of a failed one, and of records of unlike lengths. -/
def blotting (b : BlotSlot) (c : EngCmd) : State := { at_ c records with gangs := [(1, { gang0 with blots := [(0, b)] })] }
theorem wit_BlotterCollect :
    let c := cmd (.blcol 0#4 12#6 0#4) [0x10200#64] true
    let full : BlotSlot := ⟨0, 2, false, [(0, 0x10300#64), (1, 0x10300#64)]⟩
    (∀ b ∈ [full, ⟨0, 2, false, [(1, 0x10300#64)]⟩, ⟨0, 2, true, full.ranks⟩, ⟨0, 2, false, [(0, 0x10300#64), (1, 0x10308#64)]⟩],
      (blotting b c).mayWork (withCmd c) c = true ∧ (blotting b c).blotBehind grp0.id.gang c = false)
    ∧ Undisturbed (blotting full c) noReply ∧ (c.op 0).toNat % 16 = 0
    ∧ (∃ ps, (Run.of (blotting full c) noReply).partials (c.reader (withCmd c)) full.ranks.vals = .ok (Run.of (blotting full c) noReply, ps)
      ∧ (match ps with
        | [p, q] => p.o.length == 1 && q.o.length == 1
        | _ => false) = true)
    ∧ (match (Run.of (blotting full c) noReply).partials (c.reader (withCmd c)) [0x10308#64] with
      | .error (.fail 5 none) => true
      | _ => false) = true
    ∧ Lands (blotting full c) (c.reader (withCmd c)) false 0x10200#64 0x10200 20 := by
  refine ⟨by decide +kernel, by unfold Undisturbed Quiet; decide +kernel, by decide, gets_sound (by decide +kernel), by decide +kernel,
    lands_sound (by decide +kernel)⟩

/-- Role 0 is bound to the group's own cluster, with a window of 64 KiB; role 1 is not bound; the buffer has 8 bytes. -/
def casting (c : EngCmd) : State := { at_ c with gangs := bound.gangs, launches := bound.launches }
def slotOf (s : State) (first off len i : Nat) : Except Nat Nat :=
  let b := s.bindingOf grp0.id.launch (first + i)
  if 256 ≤ first + i then .error 5 else if bindKind b ≠ 1 then .error 1 else if bindWindow b < off + len then .error 5
  else .ok ((if bindTarget b = ownCluster then gangWindowAt grp0.id.gang else launchWindowAt grp0.id.launch (bindTarget b)) + off)
theorem wit_CastToRoles :
    let c := cmd (.qcast 12#6 0#4) [0x10100#64, 0x0000FFF802010008#64] true
    ready c = true ∧ (c.op 1).toNat / 2 ^ 55 = 0 ∧ (c.op 1).toNat % 2 ^ 16 = 8 ∧ (c.op 1).toNat / 2 ^ 16 % 2 ^ 8 = 1
    ∧ (c.op 1).toNat / 2 ^ 24 % 2 ^ 8 = 2 ∧ (c.op 1).toNat / 2 ^ 32 % 2 ^ 23 = 0xFFF8
    ∧ (casting c).mayWork (withCmd c) c = true ∧ Undisturbed (casting c) noReply ∧ Sees (casting c) (c.reader (withCmd c)) 0x10100#64 0x10100 8
    ∧ (∃ pa, slotOf (casting c) 1 0xFFF8 8 0 = .ok pa ∧ Takes (casting c) pa 8)
    ∧ (match slotOf (casting c) 1 0xFFF8 8 1 with
      | .error 1 => true
      | _ => false) = true
    ∧ (match slotOf (casting c) 255 0 8 1 with
      | .error 5 => true
      | _ => false) = true
    ∧ ready (cmd (.qcast 12#6 0#4) [0x10100#64, 0x0080000000000000#64] true) = true := by
  refine ⟨by decide +kernel, by decide, by decide, by decide, by decide, by decide, by decide +kernel, ?_, sees_sound (by decide +kernel),
    ⟨gangWindowAt 1 + 0xFFF8, rfl, by decide +kernel⟩, by decide +kernel, by decide +kernel, by decide +kernel⟩
  unfold Undisturbed Quiet
  decide +kernel

/-- The tensor's entry at 0x10400 and a malformed one at 0x10440; an address that is not a multiple of 64. -/
def entries : Memory := (dev0.mem.store 0x10400 64 (leNat tensor)).store 0x1047C 4 1
theorem wit_TensorEntries :
    let c := cmd (.tidset 255#8 12#6 0#4) [0x10400#64] true
    let c' := { cmd (.tidget 255#8 12#6 0#4) [0x10440#64] true with tid := tensor }
    ready c = true ∧ ready c' = true ∧ c.image = [] ∧ c'.tid.length = 64 ∧ tidMalformed tensor = false ∧ tidMalformed [] = false
    ∧ tidMalformed (entries.bytes 0x10400 64) = false ∧ tidMalformed (entries.bytes 0x10440 64) = true ∧ (0x10420#64).toNat % 64 ≠ 0
    ∧ (∃ l, Table.get? (at_ c).launches grp0.id.launch = some l)
    ∧ Sees (at_ c entries) (c.reader (withCmd c)) 0x10400#64 0x10400 64 ∧ Sees (at_ c entries) (c.reader (withCmd c)) 0x10440#64 0x10440 64
    ∧ Lands (at_ c') (c'.reader (withCmd c')) false 0x10440#64 0x10440 64 :=
  ⟨by decide +kernel, by decide +kernel, rfl, by decide +kernel, by decide +kernel, by decide +kernel, by decide +kernel, by decide +kernel,
    by decide, ⟨_, rfl⟩, sees_sound (by decide +kernel), sees_sound (by decide +kernel), lands_sound (by decide +kernel)⟩

/-- A table of n nodes and one bucket, its header at 0x10200, the bucket at 0x10300; a path of one token at 0x10400; node 1 at 0x10210. -/
def treeOf (n : Nat) : List Byte :=
  leBytes 8 0x10200 ++ leBytes 8 0x10300 ++ leBytes 8 0 ++ leBytes 4 n ++ leBytes 4 1 ++ leBytes 4 1 ++ leBytes 4 0xC6 ++ leBytes 24 0
def pathMem : Memory := dev0.mem.store 0x10400 4 1
def stlook (path : BitVec 64) : EngCmd := { cmd (.stlook 0#8 12#6 0#4) [path] true with tid := treeOf 2 }
def start0 (s : State) : PathWalk :=
  { r := Run.of s noReply, h := 0x811C9DC5#32, parent := BitVec.ofNat 32 0, collisions := 0, fresh := 0, matched := 0, code := none, stop := none }

/-- The path's one token, walked. -/
def walked (insert : Bool) : PathWalk :=
  (start0 (at_ (stlook 0x10400#64) pathMem)).token ((stlook 0x10400#64).reader (withCmd (stlook 0x10400#64))) (treeOf 2) 0x10400#64 insert 1 0

theorem wit_BucketWalk :
    Sees (at_ (stlook 0#64) pathMem) ((stlook 0#64).reader (withCmd (stlook 0#64))) (nodeAt (treeOf 2) 1) 0x10210 16
    ∧ (∀ r : Run, r.bucket ((stlook 0#64).reader (withCmd (stlook 0#64))) (treeOf 2) 0#32 0#32 0#32 5 0 = .ok (r, none, 0))
    ∧ pathMem.w32 0x10218 = 0#32 :=
  ⟨sees_sound (by decide +kernel), fun _ => rfl, by decide +kernel⟩

theorem wit_PathToken :
    let c := stlook 0x10400#64
    let s := at_ c pathMem
    let rd := c.reader (withCmd c)
    Undisturbed s noReply ∧ Sees s rd (0x10400#64 + BitVec.ofNat 64 (8 + 4 * 0)) 0x10408 4 ∧ Sees s rd (bucketAt (treeOf 2) 0) 0x10300 4
    ∧ Sees s rd (tidBase (treeOf 2)) 0x10200 4 ∧ s.mem.w32 0x10300 = 0#32 ∧ (s.mem.w32 0x10200).toNat + 1 = tidN0 (treeOf 1)
    ∧ (s.mem.w32 0x10200).toNat + 1 ≠ tidN0 (treeOf 2) ∧ Lands s rd false (0x10400#64 + BitVec.ofNat 64 (0x108 + 4 * 0)) 0x10508 4
    ∧ Lands s rd false (tidBase (treeOf 2)) 0x10200 4 ∧ Lands s rd false (nodeAt (treeOf 2) 1) 0x10210 16
    ∧ Lands s rd false (bucketAt (treeOf 2) 0) 0x10300 4
    ∧ ((Run.of s noReply).bucket rd (treeOf 2) ((0x811C9DC5#32 ^^^ 0#32) * 0x01000193#32) 0#32 0#32 2 0 = .ok (Run.of s noReply, none, 0)) := by
  refine ⟨?_, sees_sound (by decide +kernel), sees_sound (by decide +kernel), sees_sound (by decide +kernel), by decide +kernel,
    by decide +kernel, by decide +kernel, lands_sound (by decide +kernel), lands_sound (by decide +kernel), lands_sound (by decide +kernel),
    lands_sound (by decide +kernel), rfl⟩
  unfold Undisturbed Quiet
  decide +kernel

theorem wit_PathCommands :
    (∀ c ∈ [stlook 0x10400#64, stlook 0x10404#64, { stlook 0x10400#64 with ins := .stins 0#8 12#6 0#4 }, { stlook 0x10400#64 with tid := tensor }],
      ready c = true)
    ∧ tidMalformed (treeOf 2) = false ∧ tidKind (treeOf 2) = 3 ∧ tidKind tensor ≠ 3 ∧ (0x10404#64).toNat % 16 ≠ 0
    ∧ pathMem.nat 0x10400 4 = 1 ∧ pathMem.nat 0x10404 4 = 0 ∧ dev0.mem.nat 0x10400 4 = 0
    ∧ Sees (at_ (stlook 0x10400#64) pathMem) ((stlook 0x10400#64).reader (withCmd (stlook 0x10400#64))) 0x10400#64 0x10400 8
    ∧ Sees (at_ (stlook 0x10400#64) pathMem) ((stlook 0x10400#64).reader (withCmd (stlook 0x10400#64))) (nodeAt (treeOf 2) 1 + 8#64) 0x10218 4
    ∧ ∀ insert ∈ [false, true], (walked insert).stop.isNone = true ∧ (walked insert).collisions = 0
      ∧ (walked insert).code = (if insert then none else some 0) ∧ (walked insert).fresh = insert.toNat :=
  ⟨by decide +kernel, by decide +kernel, by decide +kernel, by decide +kernel, by decide, by decide +kernel, by decide +kernel,
    by decide +kernel, sees_sound (by decide +kernel), sees_sound (by decide +kernel), by decide +kernel⟩

/-- Two pages of the paged tensor: a valid entry of block 0 in tier 0 at 0x10200, none at 0x10210; the second stage at 0x10600. -/
def kvMem : Memory := ((dev0.mem.store 0x10200 8 0x101).store 0x10600 8 0x30001)
def resolves (v : BitVec 64) : EngCmd := { cmd (.kvres 0#8 12#6 0#4) [v, 0x10500#64] true with tid := paged }
def kvState (c : EngCmd) : State := { at_ c kvMem with launches := bound.launches, disp := { dev0.disp with kvBase := 0x10600, kvCount := 1 } }
theorem wit_ResolvedPages :
    let c := resolves 0x200000000#64
    (∀ x ∈ [resolves 0x200000000#64, resolves 0#64, resolves 0x100100000000#64, { resolves 0#64 with tid := tensor }], ready x = true)
    ∧ (kvState c).mayWork (withCmd c) c = true ∧ Undisturbed (kvState c) noReply
    ∧ (c.op 0).toNat / 2 ^ 32 % 2 ^ 16 = 2 ∧ (0x100100000000 : Nat) / 2 ^ 32 % 2 ^ 16 = 4097 ∧ tidKind tensor ≠ 1
    ∧ (∀ q, q < 2 → Sees (kvState c) (c.reader (withCmd c)) (kvEntryAt paged (32 * (0 + q))) (0x10200 + 16 * q) 16
      ∧ Lands (kvState c) (c.reader (withCmd c)) false (c.op 1 + BitVec.ofNat 64 (16 * q)) (0x10500 + 16 * q) 16)
    ∧ Gives (kvState c) 0x10600 8
    ∧ (match (kvState c).kvResolve grp0.id.launch ⟨kvMem.nat 0x10200 8, kvMem.nat 0x10208 8⟩,
          (kvState c).kvResolve grp0.id.launch ⟨kvMem.nat 0x10210 8, kvMem.nat 0x10218 8⟩ with
      | .ok (.here pa), .error (.fail code none) => pa == 0x30000 && code == 7
      | _, _ => false) = true := by
  refine ⟨by decide +kernel, by decide +kernel, ?_, by decide, by decide, by decide +kernel, ?_, by decide +kernel, by decide +kernel⟩
  · unfold Undisturbed Quiet
    decide +kernel
  · intro q hq
    have : q = 0 ∨ q = 1 := by omega
    rcases this with rfl | rfl <;> exact ⟨sees_sound (by decide +kernel), lands_sound (by decide +kernel)⟩

/-- A collective of the one rank of role 0, which is bound to this device: its descriptor at 0x10400; source, destination and wire f32. -/
def redImage : List Byte :=
  leBytes 8 0x10100 ++ leBytes 8 0x10200 ++ leBytes 8 0 ++ leBytes 4 1 ++ leBytes 8 0x0000010000000000 ++ leBytes 28 0
def reduces (round : Nat) : EngCmd := { cmd (.creduce 12#6 0#4) [0x10400#64] true with round := round, image := if round = 0 then [] else redImage }
def ranked : Coll := ⟨0#32, 7, 1, [⟨0, 2, 0, (redImage.drop 0x18).take 16, [5#8, 0#8, 0#8, 0#8], false⟩], none⟩
def reducing (c : EngCmd) (xs : List Coll) : State :=
  { at_ c (dev0.mem.store 0x10400 64 (leNat redImage)) with
    colls := xs, launches := [(1, { placedLaunch .vector with binding := [(0, BitVec.ofNat 64 (2 + 256 * dev0.device.toNat))] })] }
theorem wit_Collectives :
    let c := reduces 0
    let s := reducing c []
    s.mayWork (withCmd c) c = true ∧ (c.op 0).toNat % 64 = 0 ∧ Undisturbed s noReply ∧ Sees s (c.reader (withCmd c)) (c.op 0) 0x10400 64
    ∧ s.mem.bytes 0x10400 64 = redImage ∧ redEarly redImage = none ∧ redEarly (List.replicate 64 0#8) = some 5
    ∧ (∃ src, (Run.of s noReply).read (c.reader (withCmd c)) kindEngineRead 0x10100#64 (bufferBytes 0 1) = .ok (Run.of s noReply, src) ∧ true = true)
    ∧ (∃ old, (Run.of s noReply).residuals (c.reader (withCmd c)) redImage = .ok (Run.of s noReply, old) ∧ true = true)
    ∧ s.rankHere 1 0 0 = true ∧ s.rankHere 1 1 0 = false
    ∧ (let c := reduces 7
      let s := reducing c [ranked]
      s.mayWork (withCmd c) c = true ∧ s.colls.find? (fun x => x.round == 7) = some ranked ∧ ranked.failed = none ∧ lostRank noReply = false
      ∧ bindKind (s.bindingOf ranked.launch 0) = 2 ∧ bindTarget (s.bindingOf ranked.launch 0) = s.device.toNat
      ∧ ranked.ranks.find? (fun q => q.rank == 0) ≠ none ∧ ranked.ranks.find? (fun q => q.rank == 1) = none
      ∧ (match s.gather ranked redImage [] 1 0 with
        | some (.ok cs) => cs == [[5#8, 0#8, 0#8, 0#8]]
        | _ => false) = true
      ∧ Undisturbed s noReply ∧ Lands s (c.reader (withCmd c)) false (BitVec.ofNat 64 (redField redImage 8 8)) 0x10200 4) := by
  refine ⟨by decide +kernel, by decide, ?_, sees_sound (by decide +kernel), by decide +kernel, by decide +kernel, by decide +kernel,
    gets_sound (P := fun _ => true) (by decide +kernel), gets_sound (P := fun _ => true) (by decide +kernel), by decide +kernel, by decide +kernel,
    by decide +kernel, by decide +kernel, rfl, rfl, by decide +kernel, by decide +kernel, by decide +kernel, by decide +kernel, by decide +kernel, ?_,
    lands_sound (by decide +kernel)⟩ <;> (unfold Undisturbed Quiet; decide +kernel)

/-! ## Requests of the driver -/

/-- Firmware has taken a request of this code on the running device. -/
def req (code : Nat) (ops : List Byte := []) : Request := ⟨code, 16#16, 1#32, ops⟩
def asking (code : Nat) (ops : List Byte := []) (s : State := dev0) : State :=
  { s with host := { s.host with taken := some (req code ops) } }

/-- A request of each code and sub-operation, with its operands. -/
theorem wit_Asked : ∀ x ∈ ([(0x0001, dataOps 0 [1#8]), (0x0003, dataOps 8 []), (0x0010, opWords [1, 0, 4095]), (0x0010, opWords [2, 0]),
      (0x0010, opWords [0, 65535, 0x1000, 64, 255] ++ leBytes 2 3 ++ opWords [placedRcb, 4, 8]), (0x0011, opWords [0, placedRcb]),
      (0x0011, opWords [1, placedRcb]), (0x0011, opWords [2, placedRcb]),
      (0x0020, opWords [placedRcb] ++ leBytes 8 0x0009000000000201 ++ leBytes 2 1), (0x0021, opWords [placedRcb, 7] ++ leBytes 2 8),
      (0x0022, opWords [placedRcb, 7] ++ leBytes 2 8), (0x0023, opWords [1, 0]), (0x0024, opWords [255, placedRcb]), (0x0025, opWords [255]),
      (0x0026, opWords [5, 0, 7]), (0x0027, opWords [3] ++ leBytes 16 (2 ^ 63)), (0x0028, opWords [3] ++ leBytes 64 1),
      (0x0030, padTo 32 [7#8]), (0x0031, []), (0x0032, opWords [63, 0, 0, 0, 0])] : List (Nat × List Byte)),
    Asked (asking x.1 x.2) (req x.1 x.2) x.1 x.2 ∧ blockKnown x.1 x.2 = true := by
  unfold Asked
  decide +kernel

theorem wit_AskedDebug : ∀ x ∈ ([(0x0033, opWords [1, placedRcb]), (0x0033, opWords [2, 7] ++ leBytes 16 (2 ^ 63)),
      (0x0033, opWords [3, 2] ++ leBytes 1 1), (0x0033, opWords [4, 2] ++ leBytes 1 7 ++ opWords [0x60000]), (0x0033, opWords [5]),
      (0x0033, opWords [6, 2] ++ leBytes 1 7 ++ opWords [0x60000]),
      (0x0034, opWords [0]), (0x0034, opWords [1, 0x60000]), (0x0034, opWords [2]), (0x0035, opWords [1, placedRcb, 0x10100, 1, 0x10200, 96]),
      (0x0035, opWords [2, placedRcb, 0x10100, 1, 0x10200, 96]), (0x0035, opWords [3, placedRcb])] : List (Nat × List Byte)),
    Asked (asking x.1 x.2) (req x.1 x.2) x.1 x.2 ∧ blockKnown x.1 x.2 = true := by
  unfold Asked
  decide +kernel

theorem wit_MailboxBootAndReset :
    (asking 0x0010 [] State.reset).host.taken = some (req 0x0010) ∧ (asking 0x0010 [] State.reset).host.accepts 0x0010 = false
    ∧ (asking 0x0002).host.accepts 0x0002 = false ∧ State.reset.host.dev = .recovery ∧ dev0.host.dev = .running
    ∧ (asking 0x0002 [] State.reset).host.taken = some (req 0x0002) ∧ (asking 0x0002 [] State.reset).host.accepts 0x0002 = true
    ∧ 0x3FFFFFF + [0#8].length ≤ 0x4000000 ∧ 0x4000000 < 0x4000000 + [0#8].length := by decide +kernel

/-- A request block of sequence 1, of a known and of an unknown code, and a notice that waits for room. -/
def posted (code : Nat) : State :=
  { dev0 with host := { dev0.host with request := [(0, BitVec.ofNat 8 code), (4, 1#8)], backlog := [List.replicate 32 0#8] } }

theorem wit_HostRegisters : ∀ code ∈ [0x01, 0x35, 0x36],
    (posted code).host.taken = none ∧ blockKnown 0x01 (tableBytes (posted code).host.request 8 4088) = true
    ∧ blockKnown 0x35 (tableBytes (posted code).host.request 8 4088) = false ∧ leNat (tableBytes (posted code).host.request 0 2) = code
    ∧ leNat (tableBytes (posted code).host.request 4 4) = 1 ∧ (asking 1).host.taken ≠ none
    ∧ (∃ b, (posted code).host.backlog = [b] ∧ b.length = 32) ∧ (posted code).host.nhead + 1#7 ≠ (5#64).setWidth 7
    ∧ dev0.host.backlog = [] ∧ 0x1000 + 8 ≤ 0x2000 ∧ 0x1FF8 + 8 ≤ 0x2000 := by
  intro code h
  refine ⟨rfl, ?_, ?_, ?_, ?_, by decide, ⟨_, rfl, by decide⟩, ?_, rfl, by decide, by decide⟩ <;> revert h <;> revert code <;> decide +kernel

/-- A record whose signatures verify and whose fields are in range is one of settings. -/
theorem wit_Configuration (bs : List Byte) (h : bs ≠ []) (hv : recordValid (Config.recordImage bs) = true) :
    ∃ c, configRecord bs = some c :=
  ⟨_, if_neg (by simp [h, hv])⟩

/-- An entry of one port at the foot of the range and one of two ports beside it; a granule of 2^7 is refused. -/
theorem test_interleave_sets :
    let set := fun (base size ports granule : Nat) => leBytes 8 base ++ leBytes 8 size ++ leBytes 4 ports ++ leBytes 1 granule ++ leBytes 11 0
    cxlSetOf (set Config.cxlBase (2 ^ 30) 1 8) = ⟨Config.cxlBase, 2 ^ 30, 1#32, 8, false⟩
    ∧ cxlSetOk (set Config.cxlBase (2 ^ 30) 1 7) = false
    ∧ windowsApart [cxlSetOf (set Config.cxlBase (2 ^ 30) 1 8), cxlSetOf (set (Config.cxlBase + 2 ^ 30) (2 ^ 31) 3 14)] = true := by
  decide +kernel

/-- A queue of 64 ring units at 0x10400 of the placed region's space: mapped or not, with indices. -/
def queue (slot : Option Nat) (write read : BitVec 32) : Queue :=
  { ring := 0x10400, size := 64, qgroup := 0, privileged := true, error := false, rcb := placedRcb, readAddr := 0, wake := 0x10104
    savedWrite := 0, savedRead := 0, slot := slot, write := write, read := read }
def queued (x : Queue) (s : State := dev0) : State := { s with disp := { s.disp with queues := [(0, x)] } }

theorem wit_NotifyWrites :
    (queue (some 0) 3#32 1#32).slot ≠ none ∧ (3#32 - 3#32).toNat = 0 ∧ 2 ^ 31 ≤ (2#32 - 3#32).toNat
    ∧ 0 < (65#32 - 3#32).toNat ∧ (65#32 - 3#32).toNat < 2 ^ 31 ∧ (65#32 - 3#32).toNat + (3#32 - 1#32).toNat ≤ 64
    ∧ 64 < (66#32 - 3#32).toNat + (3#32 - 1#32).toNat ∧ (queue none 0#32 0#32).slot = none
    ∧ (queued (queue none 0#32 0#32)).vaPa placedRcb 1 0x10104#64 = some 0x10104
    ∧ (queued (queue none 0#32 0#32)).vaPa placedRcb 0 0x10104#64 = some 0x10104 ∧ ∀ write, dev0.spoilt 0x10104 4 write = none := by
  decide +kernel

theorem wit_QueueTable : ({ queued (queue none 7#32 5#32) with boot := { dev0.boot with queueTable := some 0x60000 } } : State).boot.queueTable
    = some 0x60000 ∧ (∃ x, Table.get? (queued (queue none 7#32 5#32)).disp.queues 0 = some x) ∧ Quiet (queued (queue none 7#32 5#32))
    ∧ dev0.spoilt 0x60000 64 true = none := by
  refine ⟨rfl, ⟨_, rfl⟩, ?_, by decide +kernel⟩
  unfold Quiet
  decide +kernel

/-- Descriptors of the table at 0x60000: one that can be mapped, and ones with a reserved flag or a reserved byte. -/
def described (flags reserved : Nat) : State :=
  { queued (queue none 7#32 5#32) with
    boot := { dev0.boot with queueTable := some 0x60000 }
    mem := ((((dev0.mem.store 0x60000 8 0x11000).store 0x60008 4 64).store 0x6000E 2 flags).store 0x60020 8 0x10104).store 0x6003F 1 reserved }
theorem wit_TableQueue :
    (∃ z ∈ (described 3 0).tableQueue 0 (queue none 7#32 5#32), z.ring.toNat % 4096 = 0 ∧ z.size = 64 ∧ z.qgroup < 256
      ∧ z.readAddr.toNat % 4 = 0 ∧ z.wake.toNat % 4 = 0)
    ∧ (described 4 0).tableQueue 0 (queue none 7#32 5#32) = none ∧ (described 0 128).tableQueue 0 (queue none 7#32 5#32) = none
    ∧ (described 3 0).spoilt 0x60000 64 false = none := by decide +kernel

theorem wit_Quiet : Quiet dev0 := by
  unfold Quiet
  decide +kernel

theorem wit_QueueRequests :
    (65535 < 65536 ∧ 0x1000 < 2 ^ 56 ∧ 0x1000 % 4096 = 0 ∧ 64 = 2 ^ 6 ∧ 65536 = 2 ^ 16 ∧ 255 < 256 ∧ (3#16).toNat < 4)
    ∧ ¬ (∃ x, Table.get? dev0.disp.queues 65535 = some x ∧ x.slot ≠ none) ∧ ¬ 256 < 256
    ∧ (∃ x, Table.get? (queued (queue (some 0) 0#32 0#32)).disp.queues 0 = some x ∧ x.slot ≠ none)
    ∧ ((queue none 0#32 0#32).slot = none ∧ 4095 < 4096 ∧ ∀ p ∈ (queued (queue none 0#32 0#32)).disp.queues, p.2.slot ≠ some 4095)
    ∧ ∀ p ∈ dev0.disp.packets, p.2.queue ≠ 0 :=
  ⟨by decide, (fun ⟨x, h, _⟩ => by cases h), by decide, ⟨_, rfl, by decide⟩, by decide, by decide⟩

/-- Suspending, resuming and killing the placed region, and one that is not registered; the group of a suspended region, and one with a
store that has left its queue. -/
theorem wit_RegionControl :
    let s := asking 0x0011 (opWords [0, placedRcb]) (one (withOps [word (.store 4) [] .outbound]))
    s.registered placedRcb = true ∧ s.registered 0x30000 = false ∧ s.under placedRcb placedRcb = true
    ∧ (s.gangs.map Prod.fst).Nodup ∧ (s.groups.map Prod.fst).Nodup ∧ (s.launches.map Prod.fst).Nodup
    ∧ (∃ e ∈ s.launches, e.1 = grp0.id.launch ∧ s.under placedRcb e.2.region = true)
    ∧ (grp0.id.walker = false ∧ grp0.ctl.dead = false) ∧ (∃ o ∈ (withOps [word (.store 4) [] .outbound]).fl.ops, o.queue = .outbound)
    ∧ (∀ o ∈ grp0.fl.ops, o.queue ≠ .outbound) := by decide +kernel

/-- Slot words for INSTALL: one that fits, one with a reserved bit, one of a generation in use; a region with room in slots 1 and 7. -/
def almostFull : Table (BitVec 64) := full.filter fun e => e.1 ≠ 7
def slotted (slots : Table (BitVec 64)) (holds : Table Nat) (unused : List Nat) (s : State := dev0) : State :=
  { s with regions := [(placedRcb, { rooted slots with holds := holds, unused := unused })] }

theorem wit_Install :
    (asking 0x0020).registered placedRcb = true ∧ (asking 0x0020).registered 0 = false ∧ (asking 0x0020).slotHolder placedRcb = placedRcb
    ∧ (let w := 0x0009000000000201#64
      w.getLsbD 0 = true ∧ w.getLsbD 1 = false ∧ w.toNat / 2 ^ 4 % 2 ^ 5 = 0 ∧ dev0.inMemory (w.toNat / 2 ^ 9 % 2 ^ 39 * 2 ^ 13) = true
      ∧ ∀ j, j < 8 → (Table.getD full j 0#64).toNat / 2 ^ 48 ≠ w.toNat / 2 ^ 48)
    ∧ (0x0009000000000211#64).toNat / 2 ^ 4 % 2 ^ 5 ≠ 0 ∧ (0x0001000000000201#64).toNat / 2 ^ 48 = placedRoot.toNat / 2 ^ 48
    ∧ (∀ j, j < 8 → (Table.getD full j 0#64).getLsbD 0 = true)
    ∧ (Table.getD almostFull 7 0#64).getLsbD 0 = false ∧ (∀ i, i < 7 → (Table.getD almostFull i 0#64).getLsbD 0 = true)
    ∧ (rooted almostFull).pinCount 0 ≠ 0 ∧ ({ rooted almostFull with pins := [] } : Region).pinCount 0 = 0 := by decide +kernel

theorem wit_Holds :
    let s := slotted full [(7, 1)] [] (asking 0x0021 (opWords [placedRcb, 7] ++ leBytes 2 8))
    s.registered placedRcb = true ∧ s.slotHolder placedRcb = placedRcb ∧ (Table.getD full 7 0#64).getLsbD 0 = true
    ∧ (Table.getD full 7 0#64).toNat / 2 ^ 48 = (8#16).toNat ∧ Table.getD ([(7, 1)] : Table Nat) 7 0 ≠ 0
    ∧ Table.getD ([(7, 1)] : Table Nat) 0 0 = 0 := by decide +kernel

theorem wit_PublishSlots :
    1 ≤ [0].length ∧ (List.replicate 256 0).length ≤ 256 ∧ Table.get? (asking 0x0024).xlat.owners 255 = none
    ∧ (asking 0x0024).registered placedRcb = true ∧ (asking 0x0024).registered 1 = false
    ∧ Table.get? ({ dev0 with xlat := { dev0.xlat with owners := [(255, placedRcb)] } } : State).xlat.owners 255 ≠ none := by decide +kernel

theorem wit_SlotReclaimed :
    let s := slotted full [] [7]
    (Table.get? s.regions placedRcb).isSome = true ∧ (∃ e ∈ s.regions, e.1 = placedRcb ∧ 7 ∈ e.2.unused) ∧ s.host.backlog = []
    ∧ s.host.nhead + 1#7 ≠ s.host.ntail := by decide +kernel

/-! ## Answers, imports, exports, peers -/

def page0 : PageReq := ⟨1, placedRcb, 0, 1, 0⟩
def waiting (s : State) : State := { s with xlat := { s.xlat with requests := [(5, page0)] } }

theorem wit_Answers :
    let o := word (.load 4 false) [acc 0 4 0x10100#64 (.wait 5)] .none
    let s := asking 0x0026 (opWords [5, 0, 0]) (waiting (one (withOps [o])))
    Table.get? s.xlat.requests 5 = some page0 ∧ s.alive page0.region = true ∧ (∀ i ∈ s.xlat.ingress, i.id ≠ 5)
    ∧ (s.slotWord page0.region 0).getLsbD 0 = true ∧ (s.slotWord page0.region 7).getLsbD 0 = false
    ∧ walkReach 1 (s.walk (s.slotWord page0.region 0) (BitVec.ofNat 64 (page0.page * 2 ^ 16))) = .leaf 0x10007#64
    ∧ walkReach 1 (s.walk (s.slotWord page0.region 0) 0x30000#64) = .request
    ∧ (∀ e ∈ s.groups, e.2.ctl.ctxReqs = [] ∧ (∀ z ∈ e.2.fl.sleepers, z.req ≠ some 5) ∧ ∀ l, l < 32 → e.2.waitOf l ≠ some (.fetch 5))
    ∧ Table.get? s.xlat.requests 6 = none ∧ s.alive 1 = false
    ∧ s.answerHeld 6 (s.answerSlot ⟨1, 1, 0, 1, 0⟩ 0 0) = false := by decide +kernel

/-- A group whose access uses import slot 3, and one whose access has been performed. -/
theorem wit_ImportsAndExports :
    let busy := fun (d : Bool) => one (withOps [word (.load 4 false) [acc 0 4 0#64 (.peer 3) d] .none])
    (∃ e ∈ (busy false).groups, ∃ o ∈ e.2.fl.ops, ∃ a ∈ o.accs, a.st = .peer 3 ∧ a.done = false)
    ∧ (¬ ∃ e ∈ (busy true).groups, ∃ o ∈ e.2.fl.ops, ∃ a ∈ o.accs, a.st = .peer 3 ∧ a.done = false)
    ∧ ((0x8000000000000000 : Nat) / 2 ^ 40 % 2 ^ 22 = 0 ∧ (0x8000000000000000 : Nat) / 2 ^ 22 % 4 = 0)
    ∧ (0x400000 : Nat) / 2 ^ 22 % 4 ≠ 0 ∧ (0x10000000000 : Nat) / 2 ^ 40 % 2 ^ 22 ≠ 0
    ∧ (2 ^ 256 / 2 ^ 256 % 2 ^ 64 / 2 ^ 5 % 8 = 0) ∧ 2 ^ 288 / 2 ^ 256 % 2 ^ 64 / 2 ^ 31 ≠ 0 ∧ 2 ^ 320 ≥ 2 ^ 320
    ∧ dev0.boot.importTable = none ∧ dev0.boot.exportTable = none ∧ dev0.xlat.ingress = []
    ∧ dev0.spoilt (0x60000 + 16 * 65535) 16 true = none ∧ dev0.spoilt (0x60000 + 64 * 65535) 64 true = none := by decide +kernel

/-- An export of 256 bytes at 0x10000 with every right, for importer 5; and requests that fail each check, in order. -/
def entry (control : Nat) : BitVec 512 := BitVec.ofNat 512 (2 ^ 64 * 0x10000 + 2 ^ 128 * 256 + 2 ^ 192 * placedRcb + 2 ^ 256 * control)
def exporting (control : Nat) (s : State := dev0) : State := { s with xlat := { s.xlat with exports := [(0, entry control)] }, fab := { s.fab with ports := [(0, ⟨0, 0⟩)] } }
def ask (imp : BitVec 22) (key : BitVec 64) (kv : Bool) (off : Nat) (a : PeerAccess) : PeerRequest :=
  ⟨imp, 0, key, kv, 0, off, 8, a, 0⟩

theorem wit_IngressChecks :
    (∀ x ∈ [exporting 0, exporting 0x51D], x.host.dev = .running ∧ x.fab.violations.length < 4096 ∧ Table.get? x.fab.ports 0 ≠ none) ∧
    (exporting 0).ingressFails (ask 5#22 0#64 false 0 .load) = some 1
    ∧ (exporting 0x51D).ingressFails (ask 6#22 0#64 false 0 .load) = some 2
    ∧ (exporting 0x51D).ingressFails (ask 5#22 1#64 false 0 .load) = some 3
    ∧ (exporting 0x51D).ingressFails (ask 5#22 0#64 true 0 .load) = some 4
    ∧ (exporting 0x51D).ingressFails (ask 5#22 0#64 false 249 .load) = some 5
    ∧ (exporting 0x501).ingressFails (ask 5#22 0#64 false 0 .load) = some 6
    ∧ (exporting 0x51D (slotted [] [] [])).ingressFails (ask 5#22 0#64 false 0 .load) = some 7
    ∧ (exporting 0x51D).ingressFails (ask 5#22 0#64 false 248 .load) = none := by decide +kernel

/-- A peer's load and store of the placed page, and of a page that is not mapped. -/
theorem wit_IngressPerformed :
    (exporting 0x51D).host.dev = .running ∧ (exporting 0x51D).early = []
    ∧ (∀ write, (exporting 0x51D).spoilt ((exporting 0x51D).leafPa 0x10007#64 0x10000#64 false) 8 write = none)
    ∧ Table.get? (exporting 0x51D).fab.ports 0 ≠ none
    ∧ (exporting 0x51D).ingressFails (ask 5#22 0#64 false 0 (.store 7#64)) = none
    ∧ walkReach 1 ((exporting 0x51D).walk placedRoot 0x10000#64) = .leaf 0x10007#64
    ∧ (exporting 0x51D).slotWord placedRcb ((exporting 0x51D).currentSlot placedRcb) = placedRoot
    ∧ walkReach 0 ((exporting 0x51D { dev0 with mem := [] }).walk placedRoot 0x10000#64) = .request := by decide +kernel

/-! ## Packets -/

/-- A packet of version 1, and queue 0 with it at its read index. -/
def packet (kind arg cond : Nat) (body : Nat := 0x10800) : List Byte :=
  leBytes 1 kind ++ leBytes 1 1 ++ leBytes 6 1 ++ leBytes 8 body ++ leBytes 16 0 ++ leBytes 8 arg ++ leBytes 8 cond ++ leBytes 16 0
def ringed (b : List Byte) (x : Queue := queue (some 0) 1#32 0#32) : State :=
  queued x { dev0 with mem := dev0.mem.store 0x10400 64 (leNat b) }

theorem wit_PacketRead :
    dev0.host.dev = .running ∧ (queue (some 0) 1#32 0#32).slot ≠ none ∧ (queue (some 0) 1#32 0#32).write ≠ (queue (some 0) 1#32 0#32).read
    ∧ (queue (some 0) 1#32 0#32).error = false ∧ (queue (some 0) 1#32 0#32).ring.toNat % 64 = 0
    ∧ (ringed (packet 1 0 0)).vaBytes placedRcb 0x10400#64 64 = some (packet 1 0 0) ∧ pktVersion (packet 1 0 0) ≠ 2
    ∧ (queue none 1#32 0#32).slot = none ∧ (queue (some 0) 3#32 3#32).write = (queue (some 0) 3#32 3#32).read := by decide +kernel

/-- Packets of each row that are well formed; a region packet of argument 4 and a packet with a reserved field are malformed. -/
theorem wit_Parses : ∀ x ∈ ([(1, packet 1 0 0), (2, packet 2 0 0), (3, packet 3 0 3 0x10104), (4, packet 4 1 0 0x40000), (5, packet 4 2 0 0x20000),
      (6, packet 4 3 0 0x20000), (7, packet 5 4 0 0x50000)] : List (Nat × List Byte)),
    Parses (ringed x.2) 0 x.1 (queue (some 0) 1#32 0#32) x.2 ∧ AtOnce (ringed x.2) 0 ∧ (queue (some 0) 1#32 0#32).privileged = true := by
  unfold Parses AtOnce
  decide +kernel

/-- A region packet and a device packet of a queue that is not privileged. -/
theorem wit_PrivilegedPackets : ∀ x ∈ ([(4, packet 4 1 0 0x40000), (7, packet 5 4 0 0x50000)] : List (Nat × List Byte)),
    let plain := { queue (some 0) 1#32 0#32 with privileged := false }
    Parses (ringed x.2 plain) 0 x.1 plain x.2 ∧ AtOnce (ringed x.2 plain) 0 := by
  unfold Parses AtOnce
  decide +kernel

theorem wit_PacketMalformed : ∀ x ∈ ([(1, packet 1 1 0), (3, packet 3 0 4), (4, packet 4 4 0 0x40000), (5, packet 4 2 1 0x20000),
      (6, packet 4 3 0 0x20001), (7, packet 5 0 0 0x50001)] : List (Nat × List Byte)),
    (ringed x.2).peek (queue (some 0) 1#32 0#32) = some x.2 ∧ pktRow x.2 = x.1 ∧ (ringed x.2).pktBad x.2 = true := by decide +kernel

theorem wit_CompletionRecord : (0x10110#64).toNat % 16 = 0 ∧ dev0.vaPa placedRcb 1 (0x10110#64 + 8#64) = some (0x10110 + 8)
    ∧ (dev0.storeBytes (0x10110 + 8) (leBytes 8 5)).vaPa placedRcb 1 0x10110#64 = some 0x10110 ∧ dev0.spoilt 0x10118 8 true = none
    ∧ (dev0.storeBytes (0x10110 + 8) (leBytes 8 5)).spoilt 0x10110 8 true = none := by decide +kernel

/-- A graph of queue 0 at a node, begun or not; the nodes at 0x10200: a launch, and a loop. -/
def run (begun : Bool) (node : BitVec 64) (loops : List LoopRun) : Packet :=
  { queue := 0, version := 1, kind := .graph, completion := 0, value := 0, ranges := [], after := []
    graph := { begun := begun, node := node, loops := loops, started := [], statuses := [], bad := false } }
def graphing (p : Packet) (m : Memory) : State :=
  let s := queued (queue (some 0) 0#32 0#32)
  { s with mem := m, disp := { s.disp with packets := [(9, p)] } }
def launchNode (after : Nat) : Memory := ((dev0.mem.store 0x10200 8 1).store 0x10208 8 0x10800).store 0x10210 8 after
def loopNode (more halt limit : Nat) : Memory :=
  ((((((dev0.mem.store 0x10200 8 2).store 0x10210 8 0x10300).store 0x10218 8 0x10304).store 0x10220 8 0x10308).store 0x10228 4 limit).store
    0x10300 4 more).store 0x10304 4 halt

theorem wit_GraphNodes :
    (ringed (packet 2 0 0)).graphReady 0 = none
    ∧ (graphing (run false 0x10200#64 []) []).graphReady 0 = some (9, run false 0x10200#64 [])
    ∧ (∀ n ∈ [0, 1], (graphing (run true 0x10200#64 []) (launchNode n)).graphReady 0 = some (9, run true 0x10200#64 [])
      ∧ ∃ b ∈ (graphing (run true 0x10200#64 []) (launchNode n)).vaBytes placedRcb 0x10200#64 64, fieldAt b 0 8 = 1 ∧ fieldAt b 0x10 8 = n
        ∧ fieldAt b 0x18 8 = 0 ∧ fieldAt b 0x20 8 = 0 ∧ fieldAt b 0x28 8 = 0 ∧ fieldAt b 0x38 8 = 0)
    ∧ ∃ b ∈ (graphing (run true 0x10200#64 []) (loopNode 1 0 0)).vaBytes placedRcb 0x10200#64 64, loopNodeBad 0x10200#64 b = false := by
  decide +kernel

/-- A loop at its check: halted, over, limited, and going on; and one of whose launches failed. -/
def looping (count : Nat) (body : List Nat) (statuses : Table (BitVec 64)) (m : Memory) : State :=
  let p := run true 0#64 [⟨0x10200#64, count, body⟩]
  graphing { p with graph := { p.graph with statuses := statuses } } m

theorem wit_LoopChecks :
    (∀ x ∈ [(1, 0, 0), (1, 1, 0), (0, 0, 0), (1, 0, 3)], let s := looping 3 [] [] (loopNode x.1 x.2.1 x.2.2)
      (∃ e ∈ s.disp.packets, e.1 = 9 ∧ s.loopWaits e.2 = true) ∧ s.dbg.frozen = false
      ∧ (∃ b ∈ s.vaBytes (s.queueRegion 0) 0x10200#64 64, fieldAt b 0x18 8 = 0x10304 ∧ fieldAt b 0x10 8 = 0x10300 ∧ fieldAt b 0x28 4 = x.2.2)
      ∧ s.vaPa placedRcb 0 0x10300#64 = some 0x10300 ∧ s.mem.w32 0x10300 = BitVec.ofNat 32 x.1
      ∧ s.vaPa placedRcb 0 0x10304#64 = some 0x10304 ∧ s.mem.w32 0x10304 = BitVec.ofNat 32 x.2.1
      ∧ s.spoilt 0x10300 4 false = none ∧ s.spoilt 0x10304 4 false = none
      ∧ s.vaPa placedRcb 1 0x10308#64 = some 0x10308 ∧ s.spoilt 0x10308 8 true = none)
    ∧ (∃ e ∈ (looping 3 [5] [(5, 1#64)] (loopNode 1 0 0)).disp.packets, (looping 3 [5] [(5, 1#64)] (loopNode 1 0 0)).loopWaits e.2 = true
      ∧ Table.get? e.2.graph.statuses 5 ≠ none) := by decide +kernel

/-- A wait on the word at 0x10104, which holds 5, under each condition at and beside its bound. -/
theorem wit_WaitPackets : ∀ c ∈ ([(0, 5), (0, 4), (1, 4), (1, 5), (2, 5), (2, 6), (3, 6), (3, 5)] : List (Nat × Nat)),
    let s := graphing { run false 0#64 [] with kind := .wait 0x10104#64 c.1 (BitVec.ofNat 32 c.2) } (dev0.mem.store 0x10104 4 5)
    s.vaPa (s.queueRegion 0) 0 0x10104#64 = some 0x10104 ∧ s.mem.w32 0x10104 = 5#32 ∧ c.1 < 4 ∧ s.spoilt 0x10104 4 false = none
    ∧ (ringed (packet 3 0 3 0x10104)).vaPa placedRcb 0 (pktBody (packet 3 0 3 0x10104)) ≠ none := by decide +kernel

/-! ## Region packets -/

/-- A block at 0x40000 under a parent, its publish scope inherited, its one slot word valid. -/
def block (parent scope : Nat) (m : Memory := dev0.mem) : Memory :=
  ((m.store 0x40000 8 parent).store 0x40028 1 scope).store 0x40040 8 0x0001000000000201
def blocked (m : Memory) (level : Nat) : State :=
  { dev0 with mem := m, regions := [(placedRcb, { placedRegion with level := level })] }

theorem wit_RegionPackets :
    (∀ x ∈ ([(0, 1), (placedRcb, 7)] : List (Nat × Nat)), let u := blocked (block x.1 0xFF) x.2
      Table.get? u.regions 0x40000 = none ∧ u.blockOk (u.mem.bytes 0x40000 256) = true
      ∧ u.maskOk (regionOfBlock (u.mem.bytes 0x40000 256)) = true ∧ slotsDistinct (regionOfBlock (u.mem.bytes 0x40000 256)).slots = true
      ∧ (∀ p ∈ (regionOfBlock (u.mem.bytes 0x40000 256)).slots, u.slotWordOk p.2 = true) ∧ (∀ e ∈ u.regions, e.2.parent ≠ 0x40000)
      ∧ ∀ p ∈ u.regions, p.2.gate = none ∧ p.2.recorder = none)
    ∧ Table.get? (blocked (block 0 0) 1).regions placedRcb ≠ none
    ∧ Table.get? (blocked (block 0 0) 1).regions (regionOfBlock ((block 5 0).bytes 0x40000 256)).parent = none
    ∧ (regionOfBlock ((block placedRcb 0xFF).bytes 0x40000 256)).parent = placedRcb ∧ 8 < 8 + 1
    ∧ (blocked (block 0 6) 1).blockOk ((block 0 6).bytes 0x40000 256) = false := by decide +kernel

/-- A region that is registered, idle, and whose block stands at its address; one with a pin held. -/
theorem wit_RegionUpdates :
    let m := (dev0.mem.store (placedRcb + 0x28) 1 0xFF)
    let u : State := { dev0 with mem := m, regions := [(placedRcb, { placedRegion with pins := [] })], launches := [] }
    u.blockOk (m.bytes placedRcb 256) = true ∧ (regionOfBlock (m.bytes placedRcb 256)).parent = placedRegion.parent
    ∧ u.maskOk (regionOfBlock (m.bytes placedRcb 256)) = true ∧ Table.get? u.regions 0x40000 = none
    ∧ u.blockOk (dev0.mem.bytes placedRcb 256) = false ∧ (u.regions.map Prod.fst).Nodup
    ∧ (¬ ∃ e ∈ u.regions, e.2.parent = placedRcb) ∧ (¬ ∃ e ∈ u.launches, e.2.region = placedRcb ∧ e.2.started = true)
    ∧ placedRegion.pins ≠ [] := by decide +kernel

/-- The homes of the block and of its status word answer. -/
theorem wit_RegionBlocks : ∀ k ∈ [0x40000, placedRcb], dev0.spoilt k 256 false = none ∧ dev0.spoilt (k + 8) 8 true = none
    ∧ Table.get? dev0.regions placedRcb = some placedRegion := by decide +kernel

/-- Another parent: one that is not registered, one of level 8, one whose root slots a running launch then holds, and one whose mask leaves the
region's out. -/
theorem wit_RegionMoves :
    let chain := (List.range 8).map fun j => (0x80000 + 0x10000 * j, { placedRegion with parent := if j = 0 then 0 else 0x70000 + 0x10000 * j })
    let u : State := { dev0 with regions := (placedRcb, { placedRegion with inheritSlots := true }) :: chain }
    let now := fun (parent : Nat) => u.modRegion placedRcb fun R => { R with parent := parent }
    Table.get? u.regions 0x50000 = none ∧ (u.regions.map Prod.fst).Nodup
    ∧ (now 0xF0000).under placedRcb placedRcb = true ∧ 8 < (now 0xF0000).levelOf placedRcb
    ∧ (now 0x80000).levelOf placedRcb = 2 ∧ u.slotHolder placedRcb ≠ (now 0x80000).slotHolder placedRcb
    ∧ (∃ e ∈ u.launches, e.2.region = placedRcb ∧ e.2.started = true)
    ∧ (let v : State := { dev0 with regions := [(placedRcb, { placedRegion with parent := 0x80000, inheritMask := false, mask := 3 }),
        (0x80000, { placedRegion with inheritMask := false, mask := 1 })] }
      v.maskOk { placedRegion with parent := 0x80000, inheritMask := false, mask := 3 } = false) := by decide +kernel

/-- A packet that registers a region, or updates or unregisters the idle placed one, with its block: all that a statement asks, together. -/
def regional (arg body : Nat) : State :=
  let s := ringed (packet 4 arg 0 body)
  { s with
    mem := (block 0 0xFF s.mem).store (placedRcb + 0x28) 1 0xFF
    regions := [(placedRcb, { placedRegion with pins := [] })]
    launches := [] }
theorem wit_RegionPacketsTogether : ∀ e ∈ ([(1, 0x40000, 4), (2, placedRcb, 5), (3, placedRcb, 6)] : List (Nat × Nat × Nat)),
    let s := regional e.1 e.2.1
    let x := queue (some 0) 1#32 0#32
    let b := packet 4 e.1 0 e.2.1
    let w := (s.noteUnits x 1).advanceRead 0 1
    let u := w.paNote e.2.1 256
    Parses s 0 e.2.2 x b ∧ AtOnce s 0 ∧ x.privileged = true ∧ (pktBody b).toNat = e.2.1
    ∧ w.spoilt e.2.1 256 false = none ∧ u.spoilt (e.2.1 + 8) 8 true = none ∧ u.blockOk (u.mem.bytes e.2.1 256) = true
    ∧ (Table.get? u.regions e.2.1 = none ↔ e.1 = 1) ∧ (u.regions.map Prod.fst).Nodup ∧ Quiet u := by
  unfold Parses AtOnce Quiet
  decide +kernel

/-! ## Launches -/

/-- A descriptor at 0x10800, a record at 0x10900 with one vector position, a binding table of zeros at 0x11000. -/
def launchMem : Memory :=
  (((((dev0.mem.store 0x10800 8 0x10900).store 0x10810 8 (1 + 2 ^ 32 + 2 ^ 48)).store 0x10828 8 0x11000).store 0x10900 8 0x10000).store
    0x10910 4 (1 + 32 * 2 ^ 16)).store 0x10928 8 (4 + 4 * 2 ^ 8 + 2 * 2 ^ 32)
def launch0 (addr : BitVec 64) : Launch := { placedLaunch .vector with started := false, pin := none, descAddr := addr, packet := 9 }
def launching (addr : BitVec 64) : State :=
  let s := graphing { run false 0#64 [] with kind := .launch } launchMem
  { s with launches := [(1, launch0 addr)], gangs := [] }
def imageAt (addr : BitVec 64) : Option LaunchImage :=
  match (launching addr).readLaunch placedRcb addr with
  | .ok m => some m
  | .error _ => none
/-- Such an image, with one field changed, and why it is rejected. -/
def image0 : LaunchImage where
  desc := { record := 0x10900, region := 0, x := 1, y := 1, z := 1, privileged := false, spillBytes := 0, seed := 0, binding := 0x11000
            spill := 0, args := [] }
  record := { (placedLaunch .vector).record with positions := [⟨false, 0, .vector, ⟨32, 32, 0, 0⟩⟩] }
  tail := ⟨[], [], false⟩
  binding := [0#64]
def rejects (m : LaunchImage) (l : Launch := launch0 0x10800#64) (rcb : Nat := placedRcb) (s : State := launching 0x10800#64) : Option Nat :=
  s.rejection l rcb m

theorem wit_RejectionReasons :
    rejects image0 = none
    ∧ rejects { image0 with record := { image0.record with positions := [⟨false, 0, .vector, ⟨7, 8, 0, 0⟩⟩] } } = some 2
    ∧ rejects { image0 with record := { image0.record with classA := true } } (s := { launching 0x10800#64 with
        regions := [(placedRcb, { placedRegion with determinism := 1 })] }) = some 3
    ∧ rejects { image0 with binding := [8#64] } = some 4
    ∧ rejects { image0 with tail := { image0.tail with roles := [0x100] } } = some 4
    ∧ rejects image0 (rcb := 0x40000) = some 5
    ∧ rejects { image0 with desc := { image0.desc with privileged := true } } { launch0 0x10800#64 with queuePriv := false } = some 6
    ∧ rejects { image0 with record := { image0.record with w := 5 } } = some 7
    ∧ rejects { image0 with binding := [0x00400000FFFFFF05#64, 0x0040000000000005#64] } = some 7
    ∧ rejects { image0 with binding := [0x00200000FFFFFF05#64, 0x0040000000000005#64] } = none
    ∧ rejects { image0 with record := { image0.record with laneStack := 65536 } } = some 8
    ∧ rejects image0 (s := { launching 0x10800#64 with regions := [(placedRcb, rooted [])] }) = some 9 := by decide +kernel

/-- The image at 0x10800. -/
def image1 : LaunchImage :=
  { image0 with
    desc := { image0.desc with args := List.replicate 8 0#64 }
    record := { image0.record with rings := 0, panels := 0 }
    binding := List.replicate 256 0#64 }

/-- Bytes that the memory does not list read 0. -/
theorem bytes_unlisted {m : Memory} {a n : Nat} (h : (m.all fun e => decide (e.1 < a) || decide (a + n ≤ e.1)) = true) :
    m.bytes a n = List.replicate n 0#8 := by
  have hg : ∀ (t : Memory) (k : Nat), (∀ e ∈ t, e.1 ≠ k) → Table.getD t k 0#8 = 0#8 := by
    intro t k
    induction t with
    | nil => intro _; rfl
    | cons e t ih =>
      intro he
      rw [Table.getD, if_neg (he e (List.mem_cons_self ..))]
      exact ih fun x hx => he x (List.mem_cons_of_mem _ hx)
  rw [List.eq_replicate_iff]
  refine ⟨by rw [Memory.bytes, List.length_map, List.length_range], fun b hb => ?_⟩
  obtain ⟨k, hk, rfl⟩ := List.mem_map.mp hb
  refine hg m _ fun e he hx => ?_
  have := List.all_eq_true.mp h e he
  simp only [Bool.or_eq_true, decide_eq_true_eq] at this
  have := List.mem_range.mp hk
  omega

/-- A launch that reads its parts as good ones has this image. -/
theorem readLaunch_ok {s : State} {rcb : Nat} {addr : BitVec 64} {db hd tl bt : List Byte} (ha : addr.toNat % 64 = 0)
    (h1 : s.vaBytes rcb addr 128 = some db) (h2 : descBad db = false) (h3 : s.vaBytes rcb (descOf db).record 0xA8 = some hd)
    (h4 : recordBad hd = false)
    (h5 : s.vaBytes rcb ((descOf db).record + 0xA8#64) (8 * roleCount hd + 72 * templateCount hd) = some tl)
    (h6 : s.vaBytes rcb (descOf db).binding 2048 = some bt)
    (h7 : ((tailOf hd tl).bad || decide (2 ^ 64 < (descOf db).x * (recordOf hd).w * (descOf db).y * (descOf db).z)) = false) :
    s.readLaunch rcb addr = .ok {
      desc := descOf db, record := recordOf hd, tail := tailOf hd tl
      binding := (List.range 256).map fun k => BitVec.ofNat 64 (fieldAt bt (8 * k) 8) } := by
  simp only [State.readLaunch, ha, h1, h2, h3, h4, h5, h6, h7, ne_eq, not_true_eq_false, if_false, Bool.false_eq_true]

/-- A table of zeros reads as bindings of zero. -/
theorem zeros_bind (m n : Nat) :
    ((List.range n).map fun k => BitVec.ofNat 64 (fieldAt (List.replicate m 0#8) (8 * k) 8)) = List.replicate n 0#64 := by
  have h : ∀ n : Nat, leNat (List.replicate n 0#8) = 0 := by
    intro n
    induction n with
    | zero => rfl
    | succ n ih => simp only [List.replicate_succ, leNat, ih]; rfl
  rw [List.eq_replicate_iff]
  refine ⟨by rw [List.length_map, List.length_range], fun b hb => ?_⟩
  obtain ⟨k, -, rfl⟩ := List.mem_map.mp hb
  rw [fieldAt, List.drop_replicate, List.take_replicate, h]

theorem imageAt_ok : imageAt 0x10800#64 = some image1 := by
  let s := launching 0x10800#64
  let db := s.mem.bytes 0x10800 128
  let hd := s.mem.bytes 0x10900 0xA8
  have hz : s.vaBytes placedRcb 0x11000#64 2048 = some (s.mem.bytes 0x11000 2048) := by
    have hp : s.vaPa placedRcb kindRead 0x11000#64 = some 0x11000 := by decide +kernel
    rw [State.vaBytes, hp]
    exact if_pos (by decide +kernel)
  rw [bytes_unlisted (by decide +kernel)] at hz
  have hb : (descOf db).binding = 0x11000#64 := by decide +kernel
  have h := readLaunch_ok (s := s) (rcb := placedRcb) (addr := 0x10800#64) (db := db) (hd := hd) (tl := [])
    (bt := List.replicate 2048 0#8) (by decide +kernel) (by decide +kernel) (by decide +kernel) (by decide +kernel) (by decide +kernel)
    (by decide +kernel) (by rw [hb]; exact hz) (by decide +kernel)
  rw [zeros_bind] at h
  have hi : ({ desc := descOf db, record := recordOf hd, tail := tailOf hd [], binding := List.replicate 256 0#64 } : LaunchImage)
      = image1 := by decide +kernel
  unfold imageAt
  rw [h, hi]

theorem wit_LaunchStarts :
    (launching 0x10800#64).mayStartLaunch (launch0 0x10800#64) = true ∧ (launching 0x10801#64).mayStartLaunch (launch0 0x10801#64) = true
    ∧ (launching 0x10800#64).queueRegion 0 = placedRcb ∧ (imageAt 0x10801#64).isNone = true
    ∧ imageAt 0x10800#64 = some image1 ∧ rejects image1 = none
    ∧ (launching 0x10800#64).windowsFit placedRcb (launchWindowsOf image1.binding) = true
    ∧ ({ launching 0x10800#64 with regions := [(placedRcb, { placedRegion with windowBytes := 0 })] } : State).windowsFit placedRcb [(0, 256)]
        = false :=
  ⟨by decide +kernel, by decide +kernel, by decide +kernel, by decide +kernel, imageAt_ok, by decide +kernel, by decide +kernel,
    by decide +kernel⟩

/-- Claims below and at the number of gangs; a gang to place. -/
def claiming (counter : Nat) (claimed : List Nat) : Launch :=
  { placedLaunch .vector with counter := counter, desc := { (placedLaunch .vector).desc with x := 17 }, dispatchers := [(0, ⟨claimed, false⟩)] }
def frames (l : Launch) : State :=
  { dev0 with regions := [(placedRcb, { placedRegion with frames := 64 })], launches := [(1, l)], gangs := [] }

theorem wit_GangsClaimed : ∀ n ∈ [0, 16, 17, 32], (frames (claiming n [])).mayClaim (claiming n []) 0 = true
    ∧ (frames (claiming n [])).mayClaim (claiming n []) 15 = true := by decide +kernel

theorem wit_GangPlaced :
    let l := claiming 32 [3, 4]
    let s := frames l
    s.dbg.frozen = false ∧ l.killed = false ∧ l.started = true ∧ s.host.dev = .running ∧ (l.dispatcher 0).claimed = 3 :: [4]
    ∧ 0 ∈ s.placesOn l 0
    ∧ ∀ d ∈ s.placesOn l 0, s.activeOnCluster 0 < s.activeOnCluster d ∨ s.activeOnCluster 0 = s.activeOnCluster d ∧ 0 ≤ d := by decide +kernel

def exited : Group := { grp0 with ctl := { grp0.ctl with exited := BitVec.allOnes 32 } }

theorem wit_GroupRetires :
    exited.mayRetire = true ∧ exited.ctl.compared = false ∧ (one exited).retireDiverges exited = false
    ∧ (∀ e ∈ (one exited).groups, e.1 ≠ 2 → e.2.id.gang = exited.id.gang → e.2.id.walker = true)
    ∧ ¬ ∀ e ∈ (twoGroups (one exited)).groups, e.1 ≠ 2 → e.2.id.gang = exited.id.gang → e.2.id.walker = true := by decide +kernel

theorem wit_EpochsClose : (∀ c ∈ ({ placedLaunch .vector with contributions := [⟨0x10100, 0, none, false, 1, 3, 0, 5#64⟩,
      ⟨0x10100, 0, none, false, 0, 9, 1, 6#64⟩] } : Launch).contributions, c.f64 = false ∧ c.pa = 0x10100 ∧ c.remote = none)
    ∧ dev0.windowGone 0x10100 = false ∧ ∀ write, dev0.spoilt 0x10100 4 write = none := by decide +kernel

theorem wit_LaunchCompletes :
    (∀ l ∈ [{ placedLaunch .vector with packet := 9, retired := 1 }, { placedLaunch .vector with packet := 9, killed := true },
        { launch0 0#64 with status := some 5#64 }], dev0.launchOver 1 l = true)
    ∧ (run false 0#64 []).completion = 0#64 := by decide +kernel

/-! ## Contexts, parking and pre-emption -/

/-- The group with its context at 0x20000, and this control state. -/
def inCtx (f : Ctl → Ctl) (g : Group := grp0) : Group := { g with ctl := f { g.ctl with ctx := 0x20000#64 } }

theorem wit_Contexts : grp0.pinSlot < 8 ∧
    (let ps : List Piece := [(0, [1#8]), (8, [2#8, 3#8]), (0x2000, [4#8])]
    (∀ p ∈ ps, p.2 ≠ [] ∧ p.1 / 4096 = (p.1 + p.2.length - 1) / 4096
      ∧ native.ctxReach (inCtx id) (0x20000#64 + BitVec.ofNat 64 (4096 * (p.1 / 4096))) = .pa (0x30000 + 4096 * (p.1 / 4096)))
    ∧ ps.Pairwise (fun p q => 0x30000 + p.1 + p.2.length ≤ 0x30000 + q.1 ∨ 0x30000 + q.1 + q.2.length ≤ 0x30000 + p.1)
    ∧ (match native.ctxWrite (inCtx id) ps with
      | .ok _ => true
      | .error _ => false) = true) := by decide +kernel

/-- A group whose descriptor lies in the native page. -/
def parkedIn : Group := { grp0 with id := { grp0.id with desc := 0x2F000 } }

/-- Every lane waits at a barrier since aclk 3: with the region's threshold, and with the override of one set in SLEEP. -/
def idle (w : LaneWait) (th : Nat) : Group :=
  { grp0 with ctl := { grp0.ctl with waits := (List.range 32).map fun l => (l, w), waitSince := some 3 }
              view := { grp0.view with parkThreshold := th } }
theorem wit_ParkThreshold : ∀ th ∈ [0, 1, 65535],
    let g := idle (.barrier false 0 0 false) th
    g.ctl.act = .active ∧ g.id.walker = false ∧ g.ctl.dead = false ∧ g.ctl.ctxReqs = [] ∧ g.tr.entering = none ∧ g.tr.boundary = []
    ∧ g.live ≠ 0#32 ∧ (∀ l, l < 32 → g.waitOf l = some (.barrier false 0 0 false)) ∧ g.fl.sleepers = [] ∧ g.view.parkThreshold = th
    ∧ g.ctl.waitSince = some 3
    ∧ (let z := { sleeper .eq true with threshold := some (BitVec.ofNat 16 th) }
      z.threshold = some (BitVec.ofNat 16 th) ∧ (BitVec.ofNat 16 th).toNat = th
      ∧ ∀ e ∈ (idle (.sleep 0) th).ctl.waits, e.2 = .sleep 0)
    ∧ dev0.descPa g = none ∧ (∃ p ∈ native.descPa parkedIn, Takes native (p + 8) 56) := by decide +kernel

/-- A core whose register misses exceed the threshold of 0, and one whose slots no group waits for. -/
theorem wit_Evicted :
    let s : State := { one grp0 with
      boot := { dev0.boot with missThreshold := 0 }, cores := [(0, { Core.fresh with misses := [dev0.clk.cycle] })] }
    grp0.ctl.act = .active ∧ grp0.id.walker = false ∧ grp0.ctl.dead = false ∧ grp0.fl.cmds = [] ∧ grp0.ctl.notice ≠ .handler
    ∧ grp0.ctl.ctxReqs = [] ∧ ¬ (grp0.tr.st.active = true ∧ grp0.tr.st.code = 0x31#8) ∧ s.descPa grp0 = none ∧ s.boot.missThreshold < ((s.core 0).misses.filter fun x => decide (s.clk.cycle < x + 1024)).length
    ∧ s.effClass 2 ≤ 3 ∧ (∀ p ∈ s.groups, p.1 = 2)
    ∧ (one grp0).activeOn 0 < 64 ∧ ((one grp0).core 0).misses.length ≤ (one grp0).boot.missThreshold
    ∧ (inCtx fun c => { c with act := .parked }).ctl.act ≠ .active := by decide +kernel

/-- A group that parks of its own accord, and one of a gang that is parked by force: with the context's page mapped, and not. -/
theorem wit_ParkCompletes :
    let g := inCtx (fun c => { c with act := .parking, cause := .wait, missing := List.range 256 })
    let asked := { g with ctl := { g.ctl with ctxWalked := [(0, 2, .req 0)] } }
    g.id.walker = false ∧ g.ctl.dead = false ∧ g.ctl.ctxReqs = [] ∧ g.ctl.ctxWalkOn = [] ∧ g.ctl.cause ≠ .suspend
    ∧ placedGang.suspended = false ∧ g.fl.roots = [] ∧ g.tr.entering = none
    ∧ g.fl.publ = none ∧ g.fl.ops = [] ∧ g.fl.probes = [] ∧ g.fl.cmds = [] ∧ placedGang.preempt = .none
    ∧ (∀ x ∈ [g.headerPieces ++ g.logPieces ++ g.vectorPieces, (g.headerPieces ++ g.logPieces ++ g.vectorPieces) ++ (g.tilePieces ++ [g.enginePiece])],
      (match native.ctxWrite g x with
        | .ok _ => true
        | .error _ => false) = true
      ∧ (match dev0.ctxWrite asked x with
        | .ok _ => false
        | .error (.page _) => true
        | .error _ => false) = true
      ∧ (match dev0.ctxWrite g x with
        | .ok _ => false
        | .error (.walk _ _) => true
        | .error _ => false) = true)
    ∧ (let g := { inCtx (fun c => { c with act := .parking, cause := .created }) with id := { grp0.id with alloc := ⟨8, 8, 0, 0⟩ } }
      (match native.ctxWrite g (g.headerPieces ++ [g.enginePiece] ++ (List.range (32 * ((8 + 31) / 32))).map g.linePiece) with
        | .ok _ => true
        | .error _ => false) = true) := by decide +kernel

/-- A parked group that may activate: its descriptor and its context lie in the native page, which reads zero, or holds a PC with bit 56. -/
def parked : Group :=
  { inCtx (fun c => { c with act := .parked, cause := .evicted }) with
    id := { grp0.id with desc := 0x2F000 }
    view := { grp0.view with faultDomain := 2 } }
def contextAt (bytes : Memory) : State :=
  one parked <| warm { dev0 with mem := [(0x2008, 7#8), (0x200A, 1#8), (0x2010, 0x23#8), (0x2012, 3#8)] ++ bytes ++ [(0x3F002, 2#8)] }

theorem wit_GroupActivates :
    (contextAt []).mayActivate 2 parked = true ∧ parked.ctl.saved = false ∧ parked.fl.ops = []
    ∧ (contextAt []).ctxDirect parked (BitVec.ofNat 64 parked.id.desc) = .pa 0x3F000 ∧ (contextAt []).mem.w64 0x3F000 = 0x20000#64
    ∧ (contextAt []).ctxReach parked 0x20000#64 = .pa 0x30000 ∧ (contextAt []).ctxReach parked 0x21000#64 = .pa 0x31000
    ∧ headerBad ((contextAt []).mem.bytes 0x30000 4096) = none ∧ pendsBad ((contextAt []).mem.bytes 0x30000 4096) parked = none
    ∧ (∀ e, e < 4 → ((contextAt []).mem.byte (0x30000 + 0x400 + 32 * e)).getLsbD 0 = false) ∧ parked.fl.late = []
    ∧ Gives (contextAt []) 0x3F000 8 ∧ Gives (contextAt []) 0x30000 4096 ∧ Gives (contextAt []) 0x31000 4096 := by
  decide +kernel

/-- A parked group with a load at its operand log, whose entry in its context is valid or not. -/
theorem wit_LogEntriesRead : ∀ v ∈ [0, 1],
    let o := { word (.load 4 false) [acc 0 4 0x50000#64 .miss] .none with log := some 3 }
    let g := { parked with fl := { parked.fl with ops := [o], nextSeq := 9 } }
    let s := contextAt (if v = 1 then [(0x30460, 1#8), (0x3046B, 0x44#8)] else [])
    (g.fl.ops.map MemOp.seq).Nodup ∧ (s.mem.byte (0x30000 + 0x400 + 32 * 3)).getLsbD 0 = decide (v = 1)
    ∧ (g.logged? 3).isSome = true ∧ (v = 1 → (wordShape (s.mem.w32 (0x30000 + 0x400 + 32 * 3 + 8))).isSome = true) := by decide +kernel

/-- A saved matrix group of one folio of vector lines, whose context fills the native page, with an issued command that its record names as
valid or not. -/
def saved (c : EngCmd) : Group :=
  let g := { parked with fl := { parked.fl with cmds := [c], nextSeq := 9 } }
  { g with
    id := { g.id with desc := 0x2EF00, duty := .matrix, alloc := ⟨32, 64, 8, 8⟩ }
    ctl := { g.ctl with saved := true, cause := .resumed } }
def savedAt (valid : Bool) (c : EngCmd) : State :=
  one (saved c) <| warm { dev0 with mem := ([(0x2008, 7#8), (0x200A, 1#8), (0x2010, 0x23#8), (0x2012, 3#8)]
      ++ (if valid then ((List.range 64).filterMap fun i => let b := c.entry.getD i 0#8; if b = 0#8 then none else some (0x30800 + i, b)) else []))
    ++ [(0x3EF02, 2#8)] }
theorem wit_GroupRestored :
    let c := cmd (.azero 7#3 12#6 0#4 false) [] true
    ∀ valid ∈ [true, false], let s := savedAt valid c
    s.mayRestore (saved c) = true ∧ (saved c).fl.late = [] ∧ ((saved c).fl.cmds.map EngCmd.seq).Nodup
    ∧ s.ctxDirect (saved c) (BitVec.ofNat 64 (saved c).id.desc) = .pa 0x3EF00 ∧ s.mem.w64 0x3EF00 = 0x20000#64
    ∧ s.ctxReach (saved c) 0x20000#64 = .pa 0x30000 ∧ Gives s 0x3EF00 8 ∧ Gives s 0x30000 4096
    ∧ (saved c).issued[0]? = some c ∧ (s.mem.byte (0x30000 + 0x807)).getLsbD 7 = valid
    ∧ ∀ i, i < 13 → s.ctxReach (saved c) (0x20000#64 + BitVec.ofNat 64 ((saved c).id.alloc.tileArea + 4096 * i)) = .pa (0x33000 + 4096 * i)
      ∧ Gives s (0x33000 + 4096 * i) 4096 := by decide +kernel

theorem wit_ActivationFaults :
    (one parked).mayActivate 2 parked = true ∧ (match (one parked).ctxDirect parked (BitVec.ofNat 64 parked.id.desc) with
        | .page va => va == 0x2F000#64
        | _ => false) = true
    ∧ 1 < parked.view.faultDomain ∧ Gives (contextAt []) 0x3F000 8 ∧ Gives (contextAt []) 0x30000 4096 ∧ Gives (contextAt []) 0x31000 4096
    ∧ grp0.view.faultDomain = 0 ∧ (∀ o ∈ parked.fl.ops, o.queue ≠ .outbound) ∧ (dev0.launches.map Prod.fst).Nodup
    ∧ Table.get? dev0.launches grp0.id.launch ≠ none ∧ (placedLaunch .vector).region = dev0.regionOf grp0
    ∧ placedGang.launch = 1 ∧ parked.fl.late = []
    ∧ (contextAt [(0x30007, 1#8)]).mem.byte (0x30000 + 7) ≠ 0#8
    ∧ ((∀ j ∈ List.range 31, (contextAt [(0x300FF, 1#8)]).mem.byte (0x30000 + (8 * j + 7)) = 0#8)
      ∧ (contextAt [(0x300FF, 1#8)]).mem.byte (0x30000 + 0xFF) ≠ 0#8)
    ∧ (∀ j ∈ List.range 32, (contextAt [(0x30140, 0x10#8)]).mem.byte (0x30000 + (8 * j + 7)) = 0#8)
    ∧ ((contextAt [(0x30140, 0x10#8)]).mem.byte 0x30140).toNat / 16 ≠ 0 := by decide +kernel

theorem wit_NoticeBegins :
    placedGang.preempt = .none ∧ ((one grp0).groups.map Prod.fst).Nodup ∧ grp0.view.noticeDeadline ≠ 0
    ∧ ({ grp0 with id := { grp0.id with notice := true } } : Group).id.notice = true
    ∧ ({ grp0 with view := { grp0.view with noticeDeadline := 0 } } : Group).view.noticeDeadline = 0
    ∧ grp0.id.gang = 1 ∧ grp0.id.walker = false ∧ grp0.ctl.dead = false ∧ grp0.live ≠ 0#32 ∧ grp0.id.notice = false
    ∧ exited.live = 0#32 := by decide +kernel

theorem wit_GangParked :
    let g := inCtx fun c => { c with act := .parked, saved := true }
    (∀ p ∈ (one g).groups, p.2.id.gang = 1 → p.2.id.walker = false → p.2.ctl.dead = false → p.2.ctl.act = .parked ∧ p.2.ctl.saved = true)
    ∧ (∃ p ∈ (one g).groups, p.2.id.gang = 1) ∧ ((one g).groups.map Prod.fst).Nodup
    ∧ ({ dev0.clk with cycle := 99 } : Clock).cycle < 100 ∧ 100 ≤ ({ dev0.clk with cycle := 100 } : Clock).cycle := by decide +kernel

theorem wit_GangResumes :
    let a : Gang := { placedGang with preempt := .parked, panels := [(0, ⟨[], [], some 0, tensor, 0, false⟩), (1, ⟨[], [], none, [], 0, false⟩)] }
    let s : State := { one (inCtx fun c => { c with act := .parked, cause := .preempt, saved := true }) with gangs := [(1, a)] }
    Table.get? s.gangs 1 = some a ∧ (∃ l ∈ s.launches, l.1 = a.launch ∧ s.mayResume 1 a l.2 3 = true)
    ∧ (s.groups.map Prod.fst).Nodup ∧ (s.groupsOf 1).head? = some 2 ∧ (∃ p ∈ a.panels, p.2.fmt.isSome = true)
    ∧ ∃ p ∈ a.panels, p.2.fmt.isSome = false := by decide +kernel

/-! ## Timers, the debugger, recording and replay -/

/-- Lanes 0 to 15 stand at 0x10000 and the others at 0x10004; the second set has let n issues pass. -/
def twoSets (n : Nat) (cur : BitVec 32) : Group :=
  { grp0 with ctl := { grp0.ctl with
    pcs := (List.range 32).map fun l => (l, if l < 16 then 0x10000#64 else 0x10004#64)
    counts := [(16, BitVec.ofNat 24 n)], cur := cur } }
def ruled (f : Region → Region) (g : Group) : State := one g (warm { dev0 with regions := [(placedRcb, f placedRegion)] })

theorem wit_ProgressPromise :
    (let s := ruled (fun r => { r with promise := 1 }) (twoSets 256 0xFFFF#32)
    s.promise (s.regionOf (twoSets 256 0xFFFF#32)) = true
      ∧ (twoSets 256 0xFFFF#32).countOf 0xFFFF#32 = 0 ∧ ∃ v ∈ s.readySets (twoSets 256 0xFFFF#32), v.mask ≠ 0xFFFF#32 ∧ 256 ≤ v.count)
    ∧ (let s : State := { ruled (fun r => { r with promise := 1 }) grp0 with clk := { dev0.clk with cycle := 4096 } }
    s.promise (s.regionOf grp0) = true ∧ grp0.ctl.urgent = false ∧ grp0.ctl.readySince + 4096 ≤ s.clk.cycle ∧ s.readySets grp0 ≠ []) := by
  decide +kernel

theorem wit_WatchdogTrap : ∀ n ∈ [15, 16],
    let g := twoSets n 0xFFFF#32
    let s := ruled (fun r => { r with promise := 0, watchdog := 16 }) g
    s.watchdog (s.regionOf g) = 16 ∧ s.promise (s.regionOf g) = false ∧ g.id.walker = false ∧ g.fl.pend = []
    ∧ ((∃ v ∈ s.readySets g, 16 ≤ v.count) ↔ n = 16) ∧ ((s.watchdogSet g).isSome = true ↔ n = 16) ∧ grp0.view.faultDomain = 0 ∧ parked.view.faultDomain = 2 ∧ g.ctl.act ≠ .parked := by
  decide +kernel

/-- A comparator armed at the group's PC for every launch and every group position. -/
def comparator : BitVec 128 := BitVec.ofNat 128 (0x10000 + 2 ^ 63 + 2 ^ 64 + 0xFFFF * 2 ^ 112)
def compared : State := { warm (one grp0) with dbg := { dev0.dbg with attached := some placedRcb, comparators := [(7, comparator)] } }

theorem wit_ComparatorMatch :
    (∃ v ∈ compared.candidate grp0, v.mask = BitVec.allOnes 32 ∧ v.pc = 0x10000#64 ∧ grp0.ctl.uncompared &&& v.mask = 0#32 ∧ (lanesOf v.mask).headD 0 = 0)
    ∧ (match compared.fetch grp0 (BitVec.allOnes 32) with
      | .word _ => true
      | _ => false) = true
    ∧ compared.under placedRcb (compared.regionOf grp0) = true ∧ grp0.id.walker = false ∧ grp0.fl.pend = []
    ∧ comparator.getLsbD 63 = true ∧ (comparator.extractLsb' 0 56).setWidth 64 = 0x10000#64 ∧ comparator.getLsbD 64 = true
    ∧ comparator.getLsbD (112 + grp0.id.grpid % 16) = true ∧ ∀ j, j < 7 → (Table.getD compared.dbg.comparators j 0#128).getLsbD 63 = false := by
  decide +kernel

/-- An access held since order 5 and aclk 100 on a gated word, with a timeout of 16. -/
def heldAcc : LaneAcc := { acc 0 8 0x10400#64 (.direct 0x10400) with judged := true, held := some (5, 100) }
def held (cycle : Nat) : State :=
  { gated (some (gate0 [⟨0x10400, 0, 0, 0, none⟩])) (one (withOps [word (.store 8) [heldAcc] .outbound])) with
    clk := { dev0.clk with cycle := cycle } }

theorem wit_GateTimeout : Takes (held 116) (gate0 []).status 8 ∧
    (∃ h ∈ (held 116).heldClocks (gate0 [⟨0x10400, 0, 0, 0, none⟩]), h.2 + 16 ≤ 116 ∧ 1 < h.1)
    ∧ (∀ h ∈ (held 115).heldClocks (gate0 [⟨0x10400, 0, 0, 0, none⟩]), 115 < h.2 + 16 ∨ h.1 ≤ 1) := by decide +kernel

theorem wit_Debugger :
    dev0.dbg.attached = none ∧ compared.dbg.attached ≠ none ∧ dev0.registered placedRcb = true
    ∧ comparator.extractLsb' 65 31 = 0#31 ∧ comparator.extractLsb' 56 7 = 0#7 ∧ comparator.extractLsb' 0 2 = 0#2
    ∧ (inCtx fun c => { c with stopped := true, cause := .debug }).ctl.stopped = true ∧ grp0.ctl.stopped = false
    ∧ compared.under placedRcb (compared.regionOf grp0) = true ∧ dev0.spanOk 0x60000 4096 = true ∧ 0x60000 % 8 = 0
    ∧ (∃ c ∈ (withCmd (cmd (.azero 7#3 12#6 0#4 false) [] true)).fl.cmds, dev0.namesAcc grp0 c 7 = true)
    ∧ (∀ c ∈ grp0.fl.cmds, dev0.namesAcc grp0 c 7 = false) ∧ (cmd (.tld 0#8 7#3 12#6 0#4) [0#64] true).namesTile 7 = true
    ∧ (cmd (.tld 0#8 7#3 12#6 0#4) [0#64] true).namesTile 0 = false ∧ dev0.spanOk 0x60000 2176 = true
    ∧ dev0.spoilt 0x60000 4096 true = none ∧ dev0.spoilt 0x60000 2176 true = none
    ∧ (∃ g ∈ Table.get? (one (inCtx fun c => { c with act := .parked }) compared).groups 2, g.ctl.act = .parked) := by decide +kernel

theorem wit_Freezing :
    let frozen : State := { one (inCtx fun c => { c with act := .parked }) with dbg := { dev0.dbg with frozen := true } }
    (∀ p ∈ (one grp0).groups, ∀ c ∈ p.2.fl.cmds, c.started = false) ∧ dev0.dbg.frozen = false ∧ frozen.dbg.freezing = false
    ∧ (∃ p ∈ (one grp0).groups, p.2.id.walker = false ∧ p.2.ctl.dead = false ∧ p.2.ctl.act ≠ .parked)
    ∧ (∀ p ∈ frozen.groups, p.2.id.walker = true ∨ p.2.ctl.dead = true ∨ p.2.ctl.act = .parked)
    ∧ frozen.spanOk 0x60000 frozen.dumpBytes.length = true ∧ 0x60000 % 8 = 0
    ∧ frozen.spoilt 0x60000 frozen.dumpBytes.length true = none
    ∧ (let c := cmd (.rtake 15#4 12#6 0#4) [] true
      (engines c).waitsForParty 2 (withCmd c) c = true) := by decide +kernel

/-- A list of one word, and a log at 0x10200 with one entry of one access, or none taken. -/
def logMem : Memory := (((dev0.mem.store 0x10100 8 0x10400).store 0x10200 8 1).store 0x10208 8 1).store 0x1024C 2 1
theorem wit_RecordAndReplay :
    let s : State := { dev0 with mem := logMem }
    s.replayOk placedRcb 1 0x10200#64 96 = true ∧ s.replayOk placedRcb 1 0x10201#64 96 = false
    ∧ s.watchWords placedRcb 0x10100#64 1 = some [0x10400]
    ∧ (∃ hd ∈ s.vaBytes placedRcb 0x10200#64 16, fieldAt hd 8 8 = 1 ∧ 64 + 32 * fieldAt hd 0 8 ≤ 96 ∧ fieldAt hd 0 8 = 1)
    ∧ (∃ es ∈ s.readLog placedRcb 0x10200#64 1 0, logFits es 1 = true ∧ ∃ e ∈ es, e.retires = false)
    ∧ s.vaPa placedRcb 1 0x10208#64 = some 0x10208 ∧ placedRegion.gate = none ∧ placedRegion.recorder = none ∧ placedRegion.replay = none
    ∧ s.logPa placedRcb ⟨[], 0x10200#64, 96, 0, placedRcb, 0, 0, []⟩ 8 = some 0x10208
    ∧ (∃ hd ∈ s.vaBytes placedRcb 0x10200#64 64, fieldAt hd 16 48 = 0) ∧ s.spoilt 0x10208 8 true = none := by decide +kernel

/-! ## Profiling, the fabric, time, errors -/

theorem wit_ProfileMemory :
    (63 < 64 ∧ 0x100000 % 65536 = 0 ∧ dev0.spanOk 0x100000 65536 = true ∧ dev0.spanOk 0x110000 65536 = true
      ∧ dev0.spanOk 0x120000 0x10000 = true ∧ 0x10000 % 65536 = 0 ∧ 65536 ≤ 0x10000 ∧ 0x10000 ≤ 0x4000000)
    ∧ ¬ 0x100001 % 65536 = 0 := by decide +kernel

/-- Without a configuration and without errors the homes take every store. -/
theorem takes_plain {s : State} (h1 : s.boot.settings = none) (h2 : s.bad = []) (h3 : s.fab.cxlDown = []) (a n : Nat) : Takes s a n := by
  have hp : s.inPrivate a = false := by simp [State.inPrivate, h1]
  refine ⟨hp, ?_⟩
  simp [State.spoilt, State.portDown, State.refuses, State.refusesAll, hp, h2, h3, Table.get?]

theorem wit_IntervalEnds :
    (withPart (partition 0#5 0) dev0).clk.time < 10000 * ((withPart (partition 0#5 0) dev0).prof.index + 1)
    ∧ dev0.prof.parts = [] ∧ 10000 * (dev0.prof.index + 1) ≤ ({ dev0.clk with time := 10000 } : Clock).time ∧ (partition 0x1E#5 0).on 0 = false
    ∧ Gives dev0 0x110000 4096 ∧ frameBad (dev0.mem.bytes 0x110000 4096) = false ∧ frameBad ((dev0.mem.store 0x110000 1 32).bytes 0x110000 4096) = true := by decide +kernel

/-- A core that owes a sample of its one group: with room in the ring, and without. -/
def sampled (w : Nat) : State :=
  { withPart { partition 4#5 w with period := 4096 } (one { grp0 with ctl := { grp0.ctl with cur := 1#32 } }) with
    clk := { dev0.clk with cycle := 4096 } }
theorem wit_SampleTaken : ∀ w ∈ [0, 1364, 1365],
    (sampled w).spoilt (0x120000 + 48 * (w % 1365)) 48 true = none ∧ (sampled w).owesSample 0 0 = some 4096 ∧ ((sampled w).nextSample 0 0).map Prod.fst = some 2 ∧ grp0.live ≠ 0#32
    ∧ ((partition 4#5 w).writeIndex - (partition 4#5 w).readIndex < (partition 4#5 w).bytes / 48 ↔ w < 1365) := by decide +kernel

/-- The configured device: port 35 leads to device 7; an access in flight to it through import slot 3. -/
def fabric (up : Bool) (g : Group) : State :=
  { one g with
    boot := { dev0.boot with settings := some settings }
    fab := { dev0.fab with ports := if up then [(35, ⟨0, 0⟩)] else [] }
    xlat := { dev0.xlat with imports := [(3, BitVec.ofNat 128 (2 ^ 63 + 7))] } }

theorem wit_Ports :
    35 < 36 ∧ (fabric false grp0).host.dev = .running ∧ Table.get? (fabric false grp0).fab.ports 35 = none
    ∧ (fabric false grp0).expectedPeer 35 = some 7#22 ∧ (fabric false grp0).expectedPeer 34 ≠ some 7#22
    ∧ Table.get? (fabric true grp0).fab.ports 35 = some ⟨0, 0⟩ ∧ (⟨2 ^ 32 - 1, 0⟩ : Port).frames < 2 ^ 32 ∧ 2 ^ 32 ≤ (⟨2 ^ 32, 0⟩ : Port).frames
    ∧ (∀ p ∈ (fabric false grp0).fab.ports, (fabric false grp0).expectedPeer p.1 ≠ some 7#22)
    ∧ (fabric true grp0).inFlightTo 7#22 = [] ∧ (fabric true grp0).sleepsTo 7#22 = []
    ∧ (let z := { sleeper .eq true with va := BitVec.ofNat 64 (3 * 2 ^ 54 + 3 * 2 ^ 38) }
      (fabric true (asleep z)).sleepsTo 7#22 = [(2, 0)] ∧ (fabric true (asleep z)).inFlightTo 7#22 = [])
    ∧ (fabric true (withOps [word (.load 8 false) [acc 0 8 0#64 (.peer 3)] .none])).inFlightTo 7#22 = [(2, 0, 0)] := by decide +kernel

theorem wit_TimeAndPower :
    (let s := fabric true grp0
    s.boot.settings = some settings ∧ 35 < 36 ∧ settings.ptpPorts.getLsbD 35 = true ∧ settings.ptpDomain = (PtpMessage.mk 35 4 0).domain
      ∧ (Table.get? s.fab.ports 35).isSome = true ∧ (Table.get? (fabric false grp0).fab.ports 35).isSome = false)
    ∧ dev0.clk.time < 2 ^ 64 ∧ dev0.clk.time + 1000000 < 1000001 ∧ 1000000 ≤ dev0.clk.time + 1000000 ∧ 114 < 115
    ∧ dev0.boot.settings = none ∧ 100 * 20 ≤ (PowerReading.mk 2000 0).watts ∧ ¬ (100 * 20 ≤ (PowerReading.mk 1999 104).watts)
    ∧ 105 ≤ (PowerReading.mk 0 105).celsius ∧ ¬ 105 ≤ (PowerReading.mk 1999 104).celsius
    ∧ placedRegion.parent = 0 ∧ placedRcb ∈ dev0.regions.map Prod.fst ∧ (dev0.regions.all fun p => p.2.parent == 0) = true
    ∧ dev0.under placedRcb (placedLaunch .vector).region = true
    ∧ ({ dev0.clk with cycle := 4095 } : Clock).cycle < dev0.clk.window + 4096
    ∧ dev0.clk.window + 4096 ≤ ({ dev0.clk with cycle := 4096 } : Clock).cycle := by decide +kernel

/-- Cluster 0 holds a window of the launch, and a replacement is free. -/
def windowed : State := { dev0 with gangs := [], launches := [(1, { placedLaunch .vector with windows := [(0, 65536)], binding := [(5, 1#64)] })] }
/-- The region of the one gang has only cluster 0 in its mask. -/
def alone : State := { dev0 with regions := [(placedRcb, { placedRegion with inheritMask := false, mask := 1 })] }
theorem wit_UnitRetired :
    (dev0.gangs.map Prod.fst).Nodup ∧ 319 < 320 ∧ dev0.windowHolders 319 = [] ∧ windowed.windowHolders 0 = [1] ∧ windowed.mem.wf = true
    ∧ (∃ t ∈ (windowed.modCluster 0 fun c => { c with retired := true }).replacement 0, t ≠ 0 ∧
      ∀ e ∈ windowed.gangs, e.2.cluster ≠ 0 ∧ e.2.displaced = false)
    ∧ (∀ p ∈ windowed.mem, p.1 < launchWindowAt 0 0) ∧ bindKind 1#64 = 1 ∧ bindTarget 1#64 = 0
    ∧ (∀ j, j < 4 → ∀ e ∈ dev0.gangs, (dev0.modCore (4 * 0 + j) fun c => { c with retired := true }).stranded { e.2 with displaced := true } = false)
    ∧ (∀ e ∈ dev0.gangs, (dev0.modCluster 319 fun c => { c with retired := true }).stranded { e.2 with displaced := true } = false)
    ∧ placedGang.cluster = 0 ∧ alone.windowHolders 0 = []
    ∧ (alone.modCluster 0 fun c => { c with retired := true }).stranded { placedGang with displaced := true } = true := by decide +kernel

/-! ## Numbers -/

theorem wit_Numbers :
    (f32.decode 0x3F800000).rat = some 1 ∧ (f32.decode 0x40000000).rat = some 2
    ∧ (f32.decode (f32.round .rne ((f32.decode 0x3F800000).div (f32.decode 0x40000000)))).rat = some (1 / 2)
    ∧ (FVal.fin true 3 (-1)).rat = some (-3 / 2) ∧ (e4m3.decode (e4m3.maxBits false)).rat = some 448 := by
  have h1 : f32.decode 0x3F800000 = .fin false (2 ^ 23) (-23) := by decide +kernel
  have h2 : f32.decode 0x40000000 = .fin false (2 ^ 23) (-22) := by decide +kernel
  have h3 : f32.decode (f32.round .rne ((f32.decode 0x3F800000).div (f32.decode 0x40000000))) = .fin false (2 ^ 23) (-24) := by decide +kernel
  have h4 : e4m3.decode (e4m3.maxBits false) = .fin false 14 5 := by decide +kernel
  rw [h3, h1, h2, h4]
  refine ⟨?_, ?_, ?_, ?_, ?_⟩ <;> simp [FVal.rat] <;> norm_num

/-! ## Single steps, with results worked out by hand from the rules -/

/-- The group after the word i has been executed for all its lanes; none when that is no next state. -/
def after (i : Instr) (f : Group → Group := id) : Option Group :=
  match exec i (atWord 0#32 f) with
  | .next t => Table.get? t.groups 2
  | .fault _ => none
  | .refused _ => none
def v (n : Nat) (x : BitVec 32) : Nat × BitVec 32 := (32 * n, x)
def always : Guard := ⟨0#2, .al⟩

-- R168: the sum wraps; a source that is the destination is read first
theorem test_iadd_wraps : (after (.iadd always 4#6 4#6 5#6) (withRegs [v 4 0xFFFFFFFF#32, v 5 2#32] [])).map (·.vreg 4 0) = some 1#32 := by
  decide +kernel
-- R168: the immediate is signed
theorem test_iaddi_sign : (after (.iaddi always 7#6 2#6 0x3B#6) (withRegs [v 2 3#32] [])).map (·.vreg 7 0) = some 0xFFFFFFFE#32 := by
  decide +kernel
-- R173: the sum saturates before the minimum with D
theorem test_iaddmin_saturates : (after (.iaddmin always 3#6 4#6 5#6) (withRegs [v 3 0x7FFFFFFF#32, v 4 0x7FFFFFFF#32, v 5 1#32] [])).map
    (·.vreg 3 0) = some 0x7FFFFFFF#32 := by decide +kernel
-- R174: a count of 40 leaves copies of the sign
theorem test_sar_beyond_width : (after (.sar always 3#6 4#6 5#6) (withRegs [v 4 0x80000000#32, v 5 40#32] [])).map (·.vreg 3 0)
    = some 0xFFFFFFFF#32 := by decide +kernel
-- R175: a field of width 4 at bit 28, sign-extended
theorem test_bfx_top : (after (.bfx always 3#6 4#6 5#6) (withRegs [v 4 0x90000000#32, v 5 0x0000041C#32] [])).map (·.vreg 3 0)
    = some 0xFFFFFFF9#32 := by decide +kernel
theorem test_clz_zero : (after (.clz always 3#6 4#6)).map (·.vreg 3 0) = some 32#32 := by decide +kernel
-- R171: -7 / 2 is -3 toward zero; the quotient waits in a landing line while the register keeps its value
theorem test_idiv_truncates : (after (.idivI32 3#6 4#6 5#6 2#4) (withRegs [v 4 0xFFFFFFF9#32, v 5 2#32] [])).map
    (fun g => (g.landingWord 0 0, g.vreg 3 0)) = some (0xFFFFFFFD#32, 0#32) := by decide +kernel
-- R177: 1 - 2 sets S alone
theorem test_icmp_borrow : (after (.icmp always 2#2 false 4#6 5#6) (withRegs [v 4 1#32, v 5 2#32] [])).map (fun g => cregGet (g.cond 0) 2#2)
    = some (flags true false false false) := by decide +kernel
-- R121, R188: 1 + 2^-24 lies halfway and rounds to the even neighbour, 1
theorem test_fadd_tie : (after (.fadd always 3#6 4#6 5#6) (withRegs [v 4 0x3F800000#32, v 5 0x33800000#32] [])).map (·.vreg 3 0)
    = some 0x3F800000#32 := by decide +kernel
-- R197: 3.0e9 is above the signed range
theorem test_cvt_saturates : (after (.cvtRz always 3#6 4#6 .i32 .f32) (withRegs [v 4 0x4F32D05E#32] [])).map (·.vreg 3 0)
    = some 0x7FFFFFFF#32 := by decide +kernel
-- R125: seed 0, stream 0, counter 1
theorem test_rng_word : (after (.rng always 3#6 4#6) (withRegs [v 4 1#32] [])).map (·.vreg 3 0) = some 0x8209B480#32 := by decide +kernel
-- R201: lane 0 takes lane 31's value
theorem test_shfl_source : (after (.shfl always 3#6 4#6 5#6) (withRegs [(128 + 31, 9#32), v 5 31#32] [])).map (·.vreg 3 0) = some 9#32 := by
  decide +kernel
-- R203: the exclusive sum leaves the lane's own value out
theorem test_scan_exclusive : (after (.scan always 3#6 4#6 .iaddX) (withRegs [(128, 5#32), (129, 6#32), (130, 7#32)] [])).map
    (fun g => (g.vreg 3 0, g.vreg 3 2)) = some (0#32, 11#32) := by decide +kernel
-- R182: three words back
theorem test_bra_back : (after (.bra always 0x3FFFD#18)).map (·.pc 0) = some 0xFFF4#64 := by decide +kernel
-- R222, R223: the immediate is signed; equal values set Z and C
theorem test_smovi_sign : (after (.smovi 3#6 0x3FFFE#18)).map (·.sreg 3) = some 0xFFFFFFFFFFFFFFFE#64 := by decide +kernel
theorem test_scmp_equal : (after (.scmp 3#6 4#6)).map (·.regs.ucc) = some (flags false true true false) := by decide +kernel
-- R239, R241: the set stands at TVEC with the code and the immediate of its trap, and returns to the next word
theorem test_trap_enters : (after (.trap 5#12) fun g => { g with tr := { g.tr with tvec := 0x100#56 } }).map
    (fun g => (g.pc 31, g.tr.st.code, g.tr.st.imm, g.tr.st.ret)) = some (0x100#64, 0x40#8, 5#12, 0x10004#56) := by decide +kernel
-- R185: no lane is left
theorem test_exit_all : (after (.exit always)).map (·.live) = some 0#32 := by decide +kernel

/-- What memory holds after an access of the placed group has been performed at its home. -/
def homeWord (kind : MemKind) (at_ n : Nat) : Option Nat :=
  match execHomeAccessPerform 2 0 0 (.done 0#64) { atHome kind with mem := dev0.mem.store 0x10100 8 0x8000000000000004 } with
  | .next t => some (t.mem.nat at_ n)
  | .fault _ => none
  | .refused _ => none
-- R2, R80, R211: four bytes, the rest untouched; the unsigned minimum of 4 and 5; 4 is not 0, so the compare-and-swap stores nothing
theorem test_store_at_home : homeWord (.store 4) 0x10100 8 = some 0x8000000000000005 := by decide +kernel
theorem test_min_at_home : homeWord (.atom .minN 4) 0x10100 8 = some 0x8000000000000004 := by decide +kernel
theorem test_cas_at_home : homeWord (.cas 4) 0x10100 4 = some 4 := by decide +kernel

/-- The whole step: the placed word is fetched, decoded and executed. -/
def stepPc (w : Word) : Option (BitVec 64) :=
  match step (State.reset.placeWord w) with
  | .next t => (Table.get? t.groups 2).map (·.pc 0)
  | .fault _ => none
  | .refused _ => none
theorem test_step_goes_on : stepPc 0x01003105#32 = some 0x10004#64 := by decide +kernel
theorem test_step_jumps : stepPc 0xA0000005#32 = some 0x10014#64 := by decide +kernel

end Sys2Proof.Tests
end

section

/-! Every step keeps the canonical form of memory (O46, log 2). Memory is written by storeBytes, by the moves and
drops of windows (moveWindows, retireGang, LAUNCH_COMPLETE) and by reset; every other operation of the machine either
leaves it alone or is composed of these. The predicate is carried through the operations in the order of the model: a
lemma per operation, named after it, says that its result has the form when its argument has, so that the proof for an
operation that is composed of others is the composition of their lemmas. -/

set_option Elab.async false

namespace Sys2Proof.Machine

/-- Memory of the state is in canonical form. -/
def State.Formed (s : State) : Prop := s.mem.wf = true

/-- The state that a run of an engine has reached has memory in canonical form. -/
def Run.Formed (r : Run) : Prop := r.s.Formed

/-- An outcome whose next state, when there is one, has memory in canonical form. -/
def Out.Formed (o : Out) : Prop :=
  match o with
  | .next t => t.Formed
  | .fault _ => True
  | .refused _ => True

/-- What a computation that can stop gives has a property. -/
def Yields {ε α : Type} (P : α → Prop) (e : Except ε α) : Prop := ∀ ⦃x⦄, e = .ok x → P x

/-- What a computation that can stop stops with has a property. -/
def StopsWith {ε α : Type} (P : ε → Prop) (e : Except ε α) : Prop := ∀ ⦃x⦄, e = .error x → P x

theorem Out.Formed.next {s : State} (h : s.Formed) : Out.Formed (.next s) := h

theorem Out.Formed.fault {f : Fault} : Out.Formed (.fault f) := trivial

theorem Yields.ok {ε α : Type} {P : α → Prop} {x : α} (h : P x) : Yields P (.ok x : Except ε α) := by
  rintro _ ⟨⟩
  exact h

theorem Yields.error {ε α : Type} {P : α → Prop} {e : ε} : Yields P (.error e : Except ε α) := by
  rintro _ ⟨⟩

theorem Yields.map {ε α β : Type} {P : α → Prop} {Q : β → Prop} {e : Except ε α} {f : α → β} (he : Yields P e)
    (hf : ∀ x, P x → Q (f x)) : Yields Q (e.map f) := by
  cases e with
  | error _ => exact .error
  | ok x => exact .ok (hf x (he rfl))

theorem State.Formed.foldl {α : Type} {f : State → α → State} {l : List α} {s : State} (h : s.Formed)
    (hf : ∀ s x, s.Formed → (f s x).Formed) : (l.foldl f s).Formed := by
  induction l generalizing s with
  | nil => exact h
  | cons x r ih => exact ih (hf s x h)

theorem State.Formed.ite {p : Prop} [Decidable p] {s t : State} (hs : s.Formed) (ht : t.Formed) :
    (if p then s else t).Formed := by
  split
  · exact hs
  · exact ht

theorem StopsWith.error {ε α : Type} {P : ε → Prop} {e : ε} (h : P e) : StopsWith P (.error e : Except ε α) := by
  rintro _ ⟨⟩
  exact h

theorem StopsWith.ok {ε α : Type} {P : ε → Prop} {x : α} : StopsWith P (.ok x : Except ε α) := by
  rintro _ ⟨⟩

theorem State.Formed.iteFst {α : Type} {p : Prop} [Decidable p] {x y : State × α} (hs : x.1.Formed)
    (ht : y.1.Formed) : (if p then x else y).1.Formed := by
  split
  · exact hs
  · exact ht

theorem Out.Formed.ite {p : Prop} [Decidable p] {o u : Out} (ho : o.Formed) (hu : u.Formed) :
    Out.Formed (if p then o else u) := by
  split
  · exact ho
  · exact hu


/-! ## Groups, operands, barriers and control -/

section

variable {s : State} {k holder slot top n gang : Nat} {g : Group} {f : Issue → Group → Group} {t : TrapReq}
    {i : Instr}

theorem State.Formed.setGroup (hs : s.Formed) : (s.setGroup k g).Formed := hs

theorem State.Formed.modGroup {f : Group → Group} (hs : s.Formed) : (s.modGroup k f).Formed := hs

theorem State.Formed.modGang {f : Gang → Gang} (hs : s.Formed) : (s.modGang k f).Formed := hs

theorem State.Formed.modLaunch {f : Launch → Launch} (hs : s.Formed) : (s.modLaunch k f).Formed := hs

theorem State.Formed.modRegion {f : Region → Region} (hs : s.Formed) : (s.modRegion k f).Formed := hs

theorem State.Formed.modCore {f : Core → Core} (hs : s.Formed) : (s.modCore k f).Formed := hs

theorem State.Formed.modCluster {f : Cluster → Cluster} (hs : s.Formed) : (s.modCluster k f).Formed := hs

theorem State.Formed.setMem {m : Memory} (hm : m.wf = true) : (s.setMem m).Formed := hm

theorem State.Formed.pin (hs : s.Formed) : (s.pin holder slot).Formed := hs.modRegion

theorem State.Formed.unpin (hs : s.Formed) : (s.unpin holder slot).Formed := hs.modRegion

theorem State.Formed.refreshGroup (hs : s.Formed) : (s.refreshGroup k holder slot).Formed := by
  unfold State.refreshGroup
  dsimp only
  split
  · exact hs
  · exact .setGroup (.ite hs hs.pin.unpin)

theorem State.Formed.notice {bytes : List Byte} (hs : s.Formed) : (s.notice bytes).Formed := hs

theorem State.Formed.violation {address : BitVec 64} {source : BitVec 32} {kind reason : Nat} (hs : s.Formed) :
    (s.violation address source kind reason).Formed := .ite hs hs

theorem State.Formed.discardGroup (hs : s.Formed) : (s.discardGroup k).Formed := by
  unfold State.discardGroup
  split
  · exact hs
  · dsimp only
    have ht {h : Nat} {x : Nat} {os : List MemOp} {cs : List EngCmd} :
        (cs.foldl (fun s c => c.answered.foldl (fun s p => s.unpin h p.2) s) (os.foldl (fun s o =>
          match o.log with
          | none => s
          | some _ => o.answered.foldl (fun s a => s.unpin h a) (s.unpin h o.slot)) (s.unpin h x))).Formed := by
      refine .foldl (.foldl hs.unpin fun s1 o h1 => ?_) fun _ _ h2 => h2.foldl fun _ _ h3 => h3.unpin
      split
      · exact h1
      · exact .foldl h1.unpin fun _ _ h3 => h3.unpin
    split
    · exact ht
    · exact .setGroup ht

theorem State.Formed.killLaunch (hs : s.Formed) : (s.killLaunch k).Formed := by
  unfold State.killLaunch
  dsimp only
  split
  · exact hs
  · refine .modLaunch ?_
    split
    · exact hs.foldl fun _ _ ht => ht.discardGroup
    · exact .unpin (hs.foldl fun _ _ ht => ht.discardGroup)

theorem State.Formed.killRegion (hs : s.Formed) : (s.killRegion top).Formed :=
  (hs.foldl fun _ _ ht => ht.killLaunch).foldl fun _ _ ht => ht.unpin

theorem State.Formed.forceGang {suspended : Bool} (hs : s.Formed) : (s.forceGang k suspended).Formed := hs.modGang

theorem State.Formed.suspendRegion (hs : s.Formed) : (s.suspendRegion top).Formed :=
  hs.foldl fun _ _ ht => ht.forceGang

theorem State.Formed.modPart {f : Partition → Partition} (hs : s.Formed) : (s.modPart k f).Formed := hs

theorem State.Formed.tally {part ev : Nat} (hs : s.Formed) : (s.tally part ev n).Formed := hs.modPart

theorem State.Formed.countTrap (hs : s.Formed) : (s.countTrap g).Formed := hs.tally

theorem State.Formed.toFaultDomain (hs : s.Formed) : (s.toFaultDomain k t).Formed := by
  unfold State.toFaultDomain
  dsimp only
  split
  · exact hs
  · split
    · exact hs.setGroup.countTrap.killRegion
    · exact hs.setGroup.countTrap.suspendRegion
    · exact hs.setGroup.countTrap.setGroup.notice

theorem State.Formed.takeTrap (hs : s.Formed) : (s.takeTrap k t).Formed := by
  unfold State.takeTrap
  dsimp only
  split
  · exact hs
  · exact .ite hs.setGroup (.ite hs.setGroup.countTrap (.ite hs.toFaultDomain (.ite hs.toFaultDomain (.ite (.ite
      hs.setGroup hs.toFaultDomain) hs.setGroup.countTrap))))

theorem State.Formed.raiseAtIssue (hs : s.Formed) : (s.raiseAtIssue k t).Formed := by
  unfold State.raiseAtIssue
  dsimp only
  split
  · exact hs
  · exact .ite hs.takeTrap hs.setGroup

theorem State.withIssuer_formed {k : Issue → Group → Out} (hf : ∀ x0 x1, Out.Formed (k x0 x1)) :
    Out.Formed (s.withIssuer k) := by
  unfold State.withIssuer
  split
  · exact .fault
  · split
    · exact .fault
    · exact hf _ _

theorem State.Formed.runWord {eff : Issue → Group → State → Out} (hs : s.Formed)
    (hf : ∀ x0 x1 s', s'.Formed → Out.Formed (eff x0 x1 s')) : Out.Formed (s.runWord i eff) := by
  unfold State.runWord
  refine State.withIssuer_formed (fun _ _ => ?_)
  split
  · exact .next hs.setGroup.raiseAtIssue
  · split
    · exact hf _ _ _ hs.setGroup
    · exact .next hs

theorem State.Formed.runGroup' (hs : s.Formed) : Out.Formed (s.runGroup' i f) :=
  hs.runWord fun _ _ _ ht => .next ht.setGroup

theorem State.Formed.runGroup (hs : s.Formed) : Out.Formed (s.runGroup i f) :=
  hs.runWord fun _ _ _ ht => .next ht.setGroup

theorem State.Formed.finishPhase (hs : s.Formed) : (s.finishPhase gang k).Formed := by
  unfold State.finishPhase
  dsimp only
  split
  · exact hs.modGang.foldl fun _ _ ht => ht.modGroup
  · exact (hs.modGang.foldl fun _ _ ht => ht.modGroup).foldl fun _ _ ht => ht.refreshGroup

theorem State.Formed.checkBarrier {fuel : Nat} (hs : s.Formed) : (State.checkBarrier fuel s gang k).Formed := by
  induction fuel generalizing s with
  | zero => exact hs
  | succ n ih =>
    unfold State.checkBarrier
    split
    · exact ih hs.finishPhase
    · exact hs

theorem State.Formed.checkBarriers (hs : s.Formed) : (s.checkBarriers g).Formed :=
  hs.foldl fun _ _ ht => ht.checkBarrier

theorem State.Formed.arriveAt {is : Issue} {gang thenWait refresh : Bool} (hs : s.Formed) :
    (s.arriveAt is g gang n thenWait refresh).Formed := hs.setGroup.modGang.checkBarrier

theorem State.Formed.indirect {gd : Guard} {a : BitVec 6} {link : BitVec 32 → BitVec 64 → Group → Group}
    (hs : s.Formed) : Out.Formed (s.indirect i gd a link) := by
  unfold State.indirect
  refine State.Formed.runWord hs (fun _ _ _ ht => ?_)
  dsimp only
  split
  · exact .next ht.raiseAtIssue
  · exact .next ht.setGroup

end

/-! ## Words of the lanes -/

section

variable {s : State} {i : Instr} {gd : Guard} {d a : BitVec 6} {val : Group → Nat → FVal} {la : BitVec 4}

theorem State.Formed.laneOp {val : Group → Nat → BitVec 32} (hs : s.Formed) : Out.Formed (s.laneOp i gd d val) :=
  hs.runGroup

theorem State.Formed.laneOpW {val : Group → Nat → BitVec 64} (hs : s.Formed) : Out.Formed (s.laneOpW i gd d val) :=
  hs.runGroup

theorem State.Formed.laneFlags {cd : BitVec 2} {val : Group → Nat → BitVec 4} (hs : s.Formed) :
    Out.Formed (s.laneFlags i gd cd val) := hs.runGroup

theorem State.Formed.longOp {width : Nat} {val : Group → Nat → Nat → BitVec 32} (hs : s.Formed) :
    Out.Formed (s.longOp i d width la val) := by
  unfold State.longOp
  refine State.Formed.runWord hs (fun _ _ _ ht => ?_)
  dsimp only
  split
  · exact .next ht.setGroup
  · split
    · exact .next ht
    · exact .next ht.setGroup

theorem State.Formed.floatOp (hs : s.Formed) : Out.Formed (s.floatOp i gd d val) := hs.laneOp

theorem State.Formed.doubleOp (hs : s.Formed) : Out.Formed (s.doubleOp i gd d val) := hs.laneOpW

theorem State.Formed.longFloat (hs : s.Formed) : Out.Formed (s.longFloat i d la val) := hs.longOp

theorem State.Formed.longDouble (hs : s.Formed) : Out.Formed (s.longDouble i d la val) := hs.longOp

theorem State.Formed.convert {mode : RMode} {dst src : CvtFmt} (hs : s.Formed) :
    Out.Formed (s.convert i gd d a mode dst src) := hs.runGroup

theorem State.Formed.crossbar {src : Group → Nat → Int} (hs : s.Formed) : Out.Formed (s.crossbar i gd d a src) :=
  hs.runGroup

end

/-! ## Profiling counters and translation -/

section

variable {s : State} {pa kind n part core region page k id : Nat} {bs : List Byte} {g : Group} {va : BitVec 64}
    {code : BitVec 8} {gen : BitVec 16} {w : Walk} {slot : Option Nat} {r : WalkResult}
    {f : State → MemOp → LaneAcc → State × LaneAcc} {z : Sleeper}

theorem State.Formed.homeViolation {kind : ErrorKind} {other : State → State} (hs : s.Formed)
    (hf : ∀ s', s'.Formed → (other s').Formed) : (s.homeViolation pa kind other).Formed := by
  unfold State.homeViolation
  split
  · exact hf _ hs
  · exact hs.violation
  · exact hs.violation

theorem State.Formed.watchStore (hs : s.Formed) : (s.watchStore pa n).Formed := hs

theorem State.Formed.storeBytes (hs : s.Formed) : (s.storeBytes pa bs).Formed := State.storeBytes_wf _ _ hs

theorem State.Formed.deviceStore (hs : s.Formed) : (s.deviceStore pa bs).Formed := by
  unfold State.deviceStore
  split
  · exact hs.storeBytes
  · exact hs.homeViolation fun _ ht => ht.violation

theorem State.Formed.storeNat {v : Nat} (hs : s.Formed) : (s.storeNat pa n v).Formed := hs.deviceStore

theorem State.Formed.profRecord {bytes : List Byte} (hs : s.Formed) : (s.profRecord part bytes).Formed := by
  unfold State.profRecord
  split
  · exact hs
  · exact .ite hs.deviceStore.modPart hs.modPart

theorem State.Formed.mark {mask : BitVec 32} {tag : BitVec 12} {a : BitVec 64} (hs : s.Formed) :
    (s.mark g mask tag a).Formed := by
  unfold State.mark
  split
  · exact hs
  · exact .ite hs.profRecord hs

theorem State.Formed.setLcr {v : BitVec 64} (hs : s.Formed) : (s.setLcr g n v).Formed := hs.modCore

theorem State.Formed.laneViolation (hs : s.Formed) : (s.laneViolation core va).Formed := hs.violation

theorem State.Formed.windowViolation (hs : s.Formed) : (s.windowViolation core code va).Formed :=
  .ite hs.laneViolation hs

theorem State.Formed.tlbFill {t : TlbEntry} (hs : s.Formed) : (s.tlbFill core t).Formed := hs.modCore.modCluster

theorem State.Formed.tlbDrop (hs : s.Formed) : (s.tlbDrop region gen).Formed := hs

theorem State.Formed.tlbForget (hs : s.Formed) : (s.tlbForget core page).Formed := hs.modCore.modCluster

theorem State.Formed.queueWalk (hs : s.Formed) : (s.queueWalk core w).Formed := .ite hs hs.modCore.tally

theorem State.Formed.postRequest {slot : Nat} (hs : s.Formed) :
    (s.postRequest page region slot gen kind).1.Formed := by
  unfold State.postRequest
  dsimp only
  split
  · exact hs
  · exact .notice hs

theorem State.Formed.malformedNotice {pa : Option Nat} (hs : s.Formed) : (s.malformedNotice pa).Formed := by
  unfold State.malformedNotice
  dsimp only
  split
  · exact hs
  · exact hs

theorem State.Formed.noteWalkEnd {root : BitVec 64} (hs : s.Formed) : (s.noteWalkEnd root va).Formed := by
  unfold State.noteWalkEnd
  split
  · exact hs
  · exact hs
  · exact hs.malformedNotice
  · exact hs.homeViolation fun _ ht => ht

theorem State.Formed.withLeaf {slot : Nat} {e : BitVec 64} (hs : s.Formed) :
    (s.withLeaf region slot gen kind va e).1.Formed := by
  unfold State.withLeaf
  dsimp only
  split
  · exact hs
  · exact hs.postRequest
  · exact hs

theorem State.Formed.tryTlb {slot : Nat} (hs : s.Formed) : (s.tryTlb part core region slot gen kind va).1.Formed := by
  unfold State.tryTlb
  split
  · exact hs.withLeaf
  · exact hs.queueWalk

theorem State.Formed.afterWalk (hs : s.Formed) : (s.afterWalk w kind va r).1.Formed := by
  unfold State.afterWalk
  dsimp only
  split
  · exact hs.withLeaf
  · exact hs.postRequest
  · exact hs

theorem threadAccs_formed {f : State → LaneAcc → State × LaneAcc} {as : List LaneAcc}
    (hf : ∀ s' x, s'.Formed → (f s' x).1.Formed) (ht : s.Formed) : (threadAccs f s as).1.Formed := by
  induction as generalizing s with
  | nil => exact ht
  | cons a r ih => exact ih (hf _ _ ht)

theorem threadOps_formed {os : List MemOp} (hf : ∀ s' x y, s'.Formed → (f s' x y).1.Formed) (ht : s.Formed) :
    (threadOps f s os).1.Formed := by
  induction os generalizing s with
  | nil => exact ht
  | cons o r ih => exact ih (threadAccs_formed (fun s' x hu => hf s' o x hu) ht)

theorem State.Formed.threadGroup (hs : s.Formed) (hf : ∀ s' x1 x2, s'.Formed → (f s' x1 x2).1.Formed) :
    (s.threadGroup k f).Formed := by
  unfold State.threadGroup
  dsimp only
  split
  · exact hs
  · exact .modGroup (threadOps_formed (fun _ _ _ ht => hf _ _ _ ht) hs)

theorem State.Formed.endFetch {m : BitVec 32} (hs : s.Formed) : (s.endFetch k w r m).Formed := by
  unfold State.endFetch
  dsimp only
  split
  · exact hs
  · exact hs.modGroup
  · exact .ite hs.modGroup hs.postRequest.modGroup

theorem State.Formed.endFetches (hs : s.Formed) : (s.endFetches k w r).Formed := by
  unfold State.endFetches
  split
  · exact hs
  · exact hs.foldl fun _ _ ht => ht.endFetch

theorem State.Formed.raiseBoundary {t : TrapReq} (hs : s.Formed) : (s.raiseBoundary k t).Formed := by
  unfold State.raiseBoundary
  split
  · exact hs
  · exact .ite hs.toFaultDomain hs.setGroup

theorem State.Formed.failSleep (hs : s.Formed) : (s.failSleep k z code).Formed := hs.modGroup.raiseBoundary

theorem State.Formed.endSleepWalk (hs : s.Formed) : (s.endSleepWalk k g w r z).Formed := by
  unfold State.endSleepWalk
  dsimp only
  split
  · exact hs
  · exact hs.failSleep
  · exact .ite hs.failSleep hs.postRequest.modGroup

theorem State.Formed.endSleeps (hs : s.Formed) : (s.endSleeps k w r).Formed := by
  unfold State.endSleeps
  split
  · exact hs
  · exact hs.foldl fun _ _ ht => ht.endSleepWalk

theorem State.Formed.endProbes (hs : s.Formed) : (s.endProbes k w r).Formed := hs.modGroup

theorem State.Formed.endAcc {o : MemOp} {a : LaneAcc} (hs : s.Formed) : (s.endAcc w r o a).1.Formed := by
  unfold State.endAcc
  dsimp only
  split
  · split
    · exact hs.afterWalk
    · exact hs
  · split
    · split
      · exact hs
      · exact hs
      · exact hs
    · exact hs
  · exact hs
  · exact hs
  · exact hs
  · exact hs
  · exact hs

theorem State.Formed.endWalkFor (hs : s.Formed) : (s.endWalkFor w r k).Formed :=
  (hs.endFetches.endSleeps.endProbes.threadGroup fun _ _ _ ht => ht.endAcc).modGroup

theorem State.Formed.endWalk (hs : s.Formed) : (s.endWalk core w r).Formed := by
  unfold State.endWalk
  dsimp only
  split
  · exact .ite (hs.modCore.tally.foldl fun _ _ ht => ht.endWalkFor).tlbFill (hs.modCore.tally.foldl fun _ _ ht =>
      ht.endWalkFor)
  · exact hs.modCore.tally.foldl fun _ _ ht => ht.endWalkFor
  · exact hs.modCore.tally.foldl fun _ _ ht => ht.endWalkFor

theorem State.Formed.walkContract (hs : s.Formed) : (s.walkContract core w).1.Formed := by
  unfold State.walkContract
  split
  · exact hs
  · exact hs
  · exact hs.malformedNotice
  · exact (hs.homeViolation fun _ ht => ht).notice

theorem State.Formed.serveWalk (hs : s.Formed) : (s.serveWalk core).Formed := by
  unfold State.serveWalk
  split
  · exact hs
  · exact hs.walkContract.endWalk

theorem State.Formed.answerOps (hs : s.Formed) : (s.answerOps k id slot).Formed := by
  unfold State.answerOps
  dsimp only
  split
  · exact hs
  · refine .modGroup ?_
    refine .foldl hs fun _ _ ht => ?_
    split
    · exact ht
    · exact ht.pin

theorem State.Formed.answerFetch (hs : s.Formed) : (s.answerFetch k id slot).Formed := hs.modGroup

theorem State.Formed.answerSleep (hs : s.Formed) : (s.answerSleep k id slot).Formed := by
  unfold State.answerSleep
  split
  · exact hs
  · split
    · exact hs.setGroup
    · exact hs.foldl fun _ _ ht => ht.failSleep

theorem State.Formed.answerCmds (hs : s.Formed) : (s.answerCmds k id page slot).Formed := by
  unfold State.answerCmds
  dsimp only
  split
  · exact hs
  · refine .modGroup ?_
    refine .foldl hs fun _ _ ht => ?_
    split
    · exact ht
    · exact ht.pin

end

/-! ## Homes and lane accesses -/

section

variable {s : State} {launch rcb code pa n idx k seq : Nat} {a : LaneAcc} {stored : Option (BitVec 32)} {r : Recorder}
    {g : Group} {o : MemOp} {reply : Reply}

theorem State.Formed.contribute {c : Contribution} (hs : s.Formed) : (s.contribute launch c).Formed := hs.modLaunch

theorem State.Formed.overflowLaunch (hs : s.Formed) : (s.overflowLaunch launch).Formed := hs.modLaunch

theorem State.Formed.disarm (hs : s.Formed) : (s.disarm rcb code).Formed := by
  unfold State.disarm
  split
  · exact hs
  · split
    · exact hs
    · exact hs.modRegion.storeNat

theorem State.Formed.gateOne {a : Accessor} (hs : s.Formed) : (s.gateOne rcb pa a stored).1.Formed := by
  unfold State.gateOne
  split
  · exact hs
  dsimp only
  split
  · split
    · exact hs
    · exact State.Formed.ite (State.Formed.disarm hs) hs
  · exact hs

theorem State.Formed.foldlFst {α β : Type} {f : State × β → α → State × β} {l : List α} {x : State × β}
    (h : x.1.Formed) (hf : ∀ x a, x.1.Formed → (f x a).1.Formed) : (l.foldl f x).1.Formed := by
  induction l generalizing x with
  | nil => exact h
  | cons a r ih => exact ih (hf x a h)

theorem State.Formed.gateDone {a : Accessor} (hs : s.Formed) : (s.gateDone pa a stored).1.Formed :=
  .foldlFst (x := (s, false)) hs fun _ _ ht => ht.gateOne

theorem State.Formed.logStore {off v : Nat} (hs : s.Formed) : (s.logStore rcb r off n v).Formed := by
  unfold State.logStore
  split
  · exact hs
  · exact hs.storeNat

theorem State.Formed.setRecorder {r : Option Recorder} (hs : s.Formed) : (s.setRecorder rcb r).Formed := hs.modRegion

theorem State.Formed.recordStatus (hs : s.Formed) : (s.recordStatus rcb r code).Formed := hs.logStore.setRecorder

theorem State.Formed.appendLog {bytes : List Byte} (hs : s.Formed) : (s.appendLog rcb r bytes).1.Formed := by
  unfold State.appendLog
  dsimp only
  split
  · exact hs.recordStatus
  · split
    · exact hs.recordStatus
    · exact hs.deviceStore.logStore.setRecorder

theorem State.Formed.recordOne {a : Accessor} (hs : s.Formed) : (s.recordOne rcb r idx a stored).Formed := by
  unfold State.recordOne
  dsimp only
  split
  · exact hs.recordStatus
  · split
    · refine .setRecorder ?_
      split
      · exact hs.logStore
      · exact hs.logStore.logStore.logStore
    · exact .ite hs.appendLog.setRecorder hs.appendLog

theorem State.Formed.closeRuns {a : Accessor} (hs : s.Formed) : (s.closeRuns pa a).Formed := hs

theorem State.Formed.recordAccess {a : Accessor} (hs : s.Formed) : (s.recordAccess pa a stored).Formed := by
  unfold State.recordAccess
  split
  · exact hs
  · refine .foldl hs fun _ _ ht => ?_
    split
    · exact ht
    · split
      · exact ht
      · exact ht.recordOne

theorem State.Formed.homeNote {a : Accessor} (hs : s.Formed) : (s.homeNote pa a stored).1.Formed :=
  hs.closeRuns.recordAccess.gateDone

theorem State.Formed.noteBytes (hs : s.Formed) : (s.noteBytes pa n).Formed := hs.foldl fun _ _ ht => ht.homeNote

theorem State.Formed.engineStore {bs : List Byte} (hs : s.Formed) : (s.engineStore pa bs).Formed := by
  unfold State.engineStore
  split
  · exact hs.storeBytes.noteBytes
  · exact hs.deviceStore

theorem State.Formed.noteEarly (hs : s.Formed) : (s.noteEarly k g o a).Formed := by
  unfold State.noteEarly
  split
  · exact hs
  · exact hs

theorem State.Formed.setAcc (hs : s.Formed) : (s.setAcc k seq idx a).Formed := hs.modGroup

theorem State.Formed.contributeAcc {home : Nat} {remote : Option Nat} (hs : s.Formed) :
    (s.contributeAcc g o a pa home remote).Formed := by
  unfold State.contributeAcc
  split
  · exact hs.contribute
  · exact hs
  · exact hs
  · exact hs
  · exact hs
  · exact hs
  · exact hs

theorem State.Formed.countCxl {reads writes : Bool} (hs : s.Formed) : (s.countCxl g pa n reads writes).Formed :=
  .ite hs (.ite (.tally (.ite hs.modRegion.tally hs.modRegion)) (.ite hs.modRegion.tally hs.modRegion))

theorem State.Formed.performHome (hs : s.Formed) : (s.performHome k g o idx a pa).Formed :=
  .ite (.setAcc (.countCxl (.contributeAcc (.ite hs.noteEarly.modGroup.storeBytes hs.noteEarly.modGroup)))) (.setAcc
    (.homeNote (.countCxl (.contributeAcc (.ite hs.noteEarly.modGroup.storeBytes hs.noteEarly.modGroup)))))

theorem State.Formed.failLane {lane : Nat} {code : BitVec 8} (hs : s.Formed) : (s.failLane k seq lane code).Formed :=
  hs.modGroup

theorem State.Formed.redoKnown {old : State} (hs : s.Formed) : (old.redoKnown s).Formed := hs

theorem State.Formed.redoPeer {who : Agent} {dev : BitVec 22} (hs : s.Formed) : (s.redoPeer who dev).Formed := hs

theorem State.Formed.performPeer {slot : Nat} (hs : s.Formed) : (s.performPeer k g o idx a slot reply).Formed := by
  unfold State.performPeer
  dsimp only
  split
  · exact hs.failLane.laneViolation
  · exact .tally (.setAcc (.ite hs.noteEarly.modGroup.contributeAcc.redoPeer hs.noteEarly.modGroup.contributeAcc))

theorem State.Formed.freeLog (hs : s.Formed) : (s.freeLog g o).Formed := by
  unfold State.freeLog
  dsimp only
  split
  · exact hs
  · exact hs.unpin.foldl fun _ _ ht => ht.unpin

theorem State.Formed.finishOp (hs : s.Formed) : (s.finishOp k o).Formed := by
  unfold State.finishOp
  dsimp only
  split
  · exact hs
  · refine .foldl ?_ fun _ _ ht => ht.raiseBoundary
    split
    · exact hs.setGroup.freeLog
    · exact hs.setGroup.freeLog.raiseBoundary

theorem State.Formed.afterPerform (hs : s.Formed) : (s.afterPerform k seq).Formed := by
  unfold State.afterPerform
  split
  · exact hs
  · split
    · exact hs
    · split
      · dsimp only
        split
        · exact .ite hs (State.Formed.setGroup hs)
        · split
          · exact hs
          · exact State.Formed.finishOp hs
      · exact hs

theorem State.Formed.performHere (hs : s.Formed) : (s.performHere k g o idx a pa reply).Formed := by
  unfold State.performHere
  split
  · exact hs.failLane.homeViolation fun _ ht => .ite ht.violation ht.laneViolation
  · exact hs.performHome

theorem State.Formed.performAcc (hs : s.Formed) : (s.performAcc k g o idx a reply).Formed := by
  unfold State.performAcc
  split
  · exact hs.performPeer.afterPerform
  · exact hs.performHere.afterPerform
  · exact hs.performHere.afterPerform
  · exact hs
  · exact hs
  · exact hs
  · exact hs

theorem State.Formed.arriveAcc (hs : s.Formed) : (s.arriveAcc k g o idx a reply).Formed := by
  unfold State.arriveAcc
  split
  · exact hs.performAcc
  · dsimp only
    split
    · split
      · exact hs.setAcc
      · exact hs
    · exact hs.performAcc

theorem State.Formed.performAt (hs : s.Formed) : (s.performAt k seq idx reply).Formed := by
  unfold State.performAt
  split
  · exact hs
  · split
    · exact hs
    · split
      · exact hs
      · exact hs.performAcc

theorem State.Formed.endGate (hs : s.Formed) : (s.endGate rcb code).Formed := by
  unfold State.endGate
  dsimp only
  split
  · exact hs
  · exact (hs.modRegion.foldl fun _ _ ht => ht.performAt).storeNat

end

/-! ## Memory words, their events, and uniform words -/

section

variable {s : State} {part core region k size align grp : Nat} {kind : MemKind} {a d : BitVec 6} {g : Group}
    {o : MemOp} {i : Instr} {gd : Guard} {bs : BitVec 2} {sc : Scope} {mem : Memory} {who : Agent} {z : Sleeper}
    {reply : Reply}

theorem State.Formed.tryAcc {slot : Nat} {gen : BitVec 16} {kind : Nat} {a : LaneAcc} (hs : s.Formed) :
    (s.tryAcc part core region slot gen kind a).1.Formed := by
  unfold State.tryAcc
  dsimp only
  split
  · exact hs.tryTlb
  · exact hs

theorem State.Formed.launchOp (hs : s.Formed) : (s.launchOp k g o).Formed :=
  .modGroup (.ite (.pin (threadAccs_formed (fun _ _ ht => ht.tryAcc) hs)) (threadAccs_formed (fun _ _ ht =>
    ht.tryAcc) hs))

theorem State.Formed.issueMem {is : Issue} {m : MemWord} (hs : s.Formed) : Out.Formed (s.issueMem i is g m) := by
  unfold State.issueMem
  dsimp only
  split
  · exact .next hs.windowViolation.raiseAtIssue
  · split
    · exact .next (.ite hs.setGroup hs.setGroup.launchOp)
    · split
      · exact .next hs
      · exact .next hs.setGroup.launchOp

theorem State.Formed.memLM (hs : s.Formed) : Out.Formed (s.memLM i gd d a bs kind size) :=
  hs.runWord fun _ _ _ ht => ht.issueMem

theorem State.Formed.memLA {ord : Ord} {data : Group → Nat → LaneData} (hs : s.Formed) :
    Out.Formed (s.memLA i a bs kind ord sc size data) := hs.runWord fun _ _ _ ht => ht.issueMem

theorem State.Formed.memFadd {f64 : Bool} (hs : s.Formed) : Out.Formed (s.memFadd i d a bs sc f64 size) := by
  unfold State.memFadd
  refine State.Formed.runWord hs (fun _ _ _ ht => ?_)
  dsimp only
  split
  · exact ht.issueMem
  · exact .next (.ite (.ite ht.setGroup ht.setGroup.overflowLaunch) (.launchOp (.ite ht.setGroup
      ht.setGroup.overflowLaunch)))

theorem State.Formed.memGM {off : BitVec 8} (hs : s.Formed) : Out.Formed (s.memGM i d a off kind) :=
  hs.runWord fun _ _ _ ht => ht.issueMem

theorem State.Formed.probeLane {lane : Nat} {va : BitVec 64} (hs : s.Formed) :
    (s.probeLane g align lane va).1.Formed := by
  unfold State.probeLane
  dsimp only
  split
  · exact hs
  · exact hs
  · split
    · exact hs
    · exact hs.queueWalk
  · exact hs
  · exact hs
  · exact hs
  · exact hs
  · exact hs

theorem State.Formed.probeLanes {addr : Nat → BitVec 64} {ls : List Nat} (hs : s.Formed) :
    (s.probeLanes g align addr ls).1.Formed := by
  induction ls generalizing s with
  | nil => exact hs
  | cons l r ih => exact ih hs.probeLane

theorem execLdProbe_formed {cj : BitVec 2} {size : ProbeSize} (hs : s.Formed) :
    Out.Formed (execLdProbe gd cj a bs size s) := by
  unfold execLdProbe
  refine State.Formed.runWord hs (fun _ _ _ ht => ?_)
  dsimp only
  split
  · exact .next ht.raiseAtIssue
  · exact .next ht.probeLanes.setGroup

theorem State.Formed.reperform (hs : s.Formed) : (s.reperform core k o).Formed := hs

theorem State.Formed.redoEarlyOf (hs : s.Formed) : (State.redoEarlyOf mem who s k).Formed := by
  unfold State.redoEarlyOf
  dsimp only
  split
  · exact hs
  · exact .ite hs hs.setGroup

theorem State.Formed.redoEarly (hs : s.Formed) : (s.redoEarly mem who).Formed := hs.foldl fun _ _ ht => ht.redoEarlyOf

theorem State.Formed.depart (hs : s.Formed) : (s.depart k g o).Formed := hs.modGroup.modCore.reperform.afterPerform

theorem execStoreQueueDepart_formed (hs : s.Formed) : Out.Formed (execStoreQueueDepart grp s) := by
  unfold execStoreQueueDepart
  split
  · exact .next hs
  · split
    · exact .next hs
    · exact .next (.ite hs.depart hs)

theorem execValueLands_formed {seq : Nat} (hs : s.Formed) : Out.Formed (execValueLands grp seq s) := by
  unfold execValueLands
  split
  · exact .next hs
  · split
    · exact .next hs
    · exact .next (.ite hs.setGroup.finishOp hs)

theorem State.Formed.replayAcc {a : LaneAcc} (hs : s.Formed) : (s.replayAcc part core region o a).1.Formed := by
  unfold State.replayAcc
  dsimp only
  split
  · split
    · exact hs
    · split
      · exact hs.queueWalk
      · split
        · exact hs
        · exact hs
        · exact hs
  · exact hs
  · exact hs
  · exact hs
  · exact hs
  · exact hs
  · exact hs

theorem execSleep_formed {b : BitVec 6} {n64 : Bool} {c : SleepCond} (hs : s.Formed) :
    Out.Formed (execSleep d a b n64 c s) := by
  unfold execSleep
  refine State.Formed.runWord hs (fun _ _ _ ht => ?_)
  dsimp only
  split
  · exact .next ht.windowViolation.raiseAtIssue
  · exact .next ht.setGroup

theorem State.Formed.sleepValue {pa : Option Nat} {v : BitVec 64} (hs : s.Formed) : (s.sleepValue k z pa v).Formed :=
  .ite hs.modGroup hs.modGroup

theorem State.Formed.sleepRead {st : AccState} {pa : Nat} (hs : s.Formed) :
    (s.sleepRead k g z st pa reply).Formed := by
  unfold State.sleepRead
  dsimp only
  split
  · exact hs
  · split
    · exact (hs.homeViolation fun _ ht => ht.laneViolation).failSleep
    · exact hs.countCxl.homeNote.sleepValue

theorem State.Formed.sleepStep (hs : s.Formed) : (s.sleepStep k g z reply).Formed := by
  unfold State.sleepStep
  split
  · exact hs.sleepRead
  · split
    · exact hs.sleepValue
    · exact hs.laneViolation.failSleep
  · exact hs.queueWalk
  · exact hs.failSleep

theorem execSleepWake_formed {pc : BitVec 56} (hs : s.Formed) : Out.Formed (execSleepWake grp pc reply s) := by
  unfold execSleepWake
  split
  · exact .next hs
  · split
    · exact .next hs
    · exact .next hs.sleepStep

theorem State.Formed.uniOp {val : Group → BitVec 64} (hs : s.Formed) : Out.Formed (s.uniOp i d val) := hs.runGroup

end

/-! ## System words and the accesses of an engine -/

section

variable {s : State} {h grp n kind k seq : Nat} {w va : BitVec 64} {r : Run} {a d : BitVec 6} {g : Group}
    {bs : List Byte} {ls : List Loc} {rd : Reader}

theorem State.Formed.installRoot {slot : Nat} (hs : s.Formed) : (s.installRoot h slot w).Formed := hs.modRegion

theorem State.Formed.rootStep {gen : BitVec 64} (hs : s.Formed) : (s.rootStep h w gen).1.Formed := by
  unfold State.rootStep
  dsimp only
  split
  · exact hs
  · split
    · exact hs
    · exact .ite hs.installRoot hs

theorem execRootswStep_formed (hs : s.Formed) : Out.Formed (execRootswStep grp s) := by
  unfold execRootswStep
  dsimp only
  split
  · exact .next hs
  · split
    · exact .next hs
    · split
      · exact .next hs
      · exact .next hs.rootStep.modGroup

theorem State.Formed.tlbf {i : Instr} {r : State → Group → Walk → State × WalkResult} (hs : s.Formed)
    (hf : ∀ s' x1 x2, s'.Formed → (r s' x1 x2).1.Formed) : Out.Formed (s.tlbf i r) := by
  unfold State.tlbf
  refine State.Formed.runWord hs (fun _ _ _ ht => ?_)
  dsimp only
  split
  · exact .next ht.setGroup
  · split
    · exact .next ht.setGroup
    · exact .next (.endWalk (hf _ _ _ ht.setGroup))

theorem execTlbfFill_formed {b : BitVec 6} (hs : s.Formed) : Out.Formed (execTlbfFill a b s) := by
  unfold execTlbfFill
  refine State.Formed.tlbf hs (fun _ _ _ ht => ?_)
  dsimp only
  split
  · exact ht
  · exact ht.malformedNotice

theorem execSwrite_formed {reg : WSpecReg} (hs : s.Formed) : Out.Formed (execSwrite d reg s) := by
  unfold execSwrite
  refine State.Formed.runWord hs (fun _ _ _ ht => ?_)
  dsimp only
  split
  · split
    · exact .next ht.raiseAtIssue
    · exact .next ht.setGroup
  · exact .next ht.setGroup
  · exact .next ht.setGroup.setLcr

theorem State.Formed.noteWalk (hs : s.Formed) : (s.noteWalk g va).Formed := .ite hs.noteWalkEnd hs

theorem State.Formed.noteByteRead (hs : s.Formed) : (s.noteByteRead g va).Formed := by
  unfold State.noteByteRead
  split
  · exact hs.noteWalk
  · split
    · exact hs
    · exact hs.homeViolation fun _ ht => ht

theorem State.Formed.noteBytesRead (hs : s.Formed) : (s.noteBytesRead g va n).Formed := by
  unfold State.noteBytesRead
  split
  · exact hs
  · exact hs.noteByteRead

theorem State.Formed.noteScript (hs : s.Formed) : (s.noteScript g va n).Formed := by
  induction n generalizing va with
  | zero => exact hs
  | succ m ih =>
    unfold State.noteScript
    split
    · exact hs.noteBytesRead
    · dsimp only
      split
      · exact hs
      · exact .ite hs.noteWalk ih

theorem State.Formed.armGate {rcb : Nat} {es : List ScriptEntry} {words : List Nat} {status timeout : Nat}
    {replay : Bool} (hs : s.Formed) : (s.armGate rcb es words status timeout replay).Formed :=
  State.Formed.storeNat hs

theorem State.Formed.gateDescriptor (hs : s.Formed) : (s.gateDescriptor g bs).Formed := by
  unfold State.gateDescriptor
  dsimp only
  split
  · exact .ite hs.storeNat hs.armGate
  · exact .storeNat (.ite hs hs.noteScript)
  · exact .ite (.ite hs hs.noteScript) (.noteWalk (.ite hs hs.noteScript))

theorem execGateArm_formed (hs : s.Formed) : Out.Formed (execGateArm d s) := by
  unfold execGateArm
  refine State.Formed.runWord hs (fun _ _ _ ht => ?_)
  dsimp only
  split
  · exact .next ht.setGroup.endGate.noteBytesRead.raiseBoundary
  · exact .next ht.setGroup.endGate.gateDescriptor

theorem State.Formed.of {ext : EngineReply} (hs : s.Formed) : (Run.of s ext).Formed := hs

theorem State.Formed.engineNote (hs : s.Formed) : (s.engineNote ls).Formed := hs.foldl fun _ _ ht => ht.homeNote

theorem State.Formed.countLocs {write : Bool} (hs : s.Formed) : (s.countLocs g write ls).Formed :=
  .ite (.ite hs hs.modRegion.tally) (.tally (.ite hs hs.modRegion.tally))

theorem Run.Formed.enter {write : Bool} {va : Option (BitVec 64)} (hs : r.Formed) :
    Yields Run.Formed (r.enter rd write va ls) := by
  unfold Run.enter
  split
  · exact .error
  · split
    · exact .error
    · split
      · exact .error
      · split
        · exact .error
        · exact .ok hs
        · exact .error
        · exact .ok hs

theorem Run.Formed.bytesAt (hs : r.Formed) : (r.bytesAt ls).1.Formed := by
  induction ls generalizing r with
  | nil => exact hs
  | cons l t ih => cases l <;> exact ih hs

theorem Run.Formed.readAt {va : Option (BitVec 64)} (hs : r.Formed) : Yields (·.1.Formed) (r.readAt rd va ls) := by
  unfold Run.readAt
  dsimp only
  split
  · exact .error
  · next r1 hr =>
      have ht : r1.Formed := hs.enter hr
      exact .ok (.countLocs (.engineNote ht.bytesAt))

theorem Run.Formed.read (hs : r.Formed) : Yields (·.1.Formed) (r.read rd kind va n) := by
  unfold Run.read
  split
  · exact .error
  · exact hs.readAt

theorem State.Formed.writeLocs (hs : s.Formed) : (s.writeLocs g ls bs).Formed := by
  unfold State.writeLocs
  refine .foldl (hs.foldl fun _ _ ht => ht.engineStore) fun _ _ ht => ?_
  split
  · exact ht
  · exact ht.redoPeer

theorem Run.Formed.writeAt {va : Option (BitVec 64)} (hs : r.Formed) : Yields Run.Formed (r.writeAt rd va ls bs) := by
  unfold Run.writeAt
  split
  · exact .error
  · next r1 hr =>
      have ht : r1.Formed := hs.enter hr
      exact .ok (.countLocs (.writeLocs ht))

theorem Run.Formed.write {hidden : Bool} (hs : r.Formed) : Yields Run.Formed (r.write rd hidden va bs) := by
  unfold Run.write
  split
  · exact .error
  · exact hs.writeAt

theorem State.Formed.secondRead {block : Nat} (hs : s.Formed) : (s.secondRead block).Formed := by
  unfold State.secondRead
  dsimp only
  split
  · exact hs
  · split
    · exact hs.noteBytes
    · exact hs.homeViolation fun _ ht => ht.violation

theorem State.Formed.kvSecond {launch : Nat} {e : KvEntry} (hs : s.Formed) : (s.kvSecond launch e).Formed :=
  .ite hs.secondRead hs

theorem Run.Formed.kvEntry {tid : List Byte} {p : Nat} (hs : r.Formed) :
    Yields (·.1.Formed) (r.kvEntry rd tid p kind) := by
  unfold Run.kvEntry
  split
  · exact .error
  · next r1 hr =>
      have ht : r1.1.Formed := hs.read hr
      exact .ok ht

theorem Run.Formed.kvBytes {page : KvPage} {off : Nat} (hs : r.Formed) :
    Yields (·.1.Formed) (r.kvBytes rd va page off n) := by
  unfold Run.kvBytes
  split
  · exact hs.readAt
  · exact hs.readAt

theorem State.Formed.kvViolations {accs : List LaneAcc} (hs : s.Formed) : (s.kvViolations g accs).Formed := by
  unfold State.kvViolations
  refine .foldl hs fun _ _ ht => ?_
  split
  · exact ht.windowViolation
  · exact ht

theorem State.Formed.kvAdvanceOp (hs : s.Formed) : (State.kvAdvanceOp k s seq).Formed := by
  unfold State.kvAdvanceOp
  dsimp only
  split
  · exact hs
  · split
    · exact hs
    · exact (hs.foldl fun _ _ ht => ht.kvSecond).setGroup

theorem State.Formed.kvAdvanceAll (hs : s.Formed) : (s.kvAdvanceAll).Formed :=
  hs.foldl fun _ _ ht => ht.foldl fun _ _ hu => hu.kvAdvanceOp

theorem execLdk_formed {gd : Guard} {bs : BitVec 2} {la : BitVec 4} (hs : s.Formed) :
    Out.Formed (execLdk gd d a bs la s) := by
  unfold execLdk
  refine State.Formed.runWord hs (fun _ _ _ ht => ?_)
  dsimp only
  split
  · exact .next (.ite ht.setGroup.kvViolations ht.setGroup.kvViolations.launchOp)
  · split
    · exact .next ht
    · exact .next ht.setGroup.kvViolations.launchOp

theorem State.Formed.kvAnew {o : MemOp} {x : KvLane} (hs : s.Formed) : (s.kvAnew g o x).1.Formed :=
  .kvViolations (threadAccs_formed (fun _ _ ht => ht.tryAcc) hs)

theorem State.Formed.kvReplayed {old : MemOp} (hs : s.Formed) : (s.kvReplayed k g old).Formed := by
  unfold State.kvReplayed
  dsimp only
  split
  · exact hs
  · exact hs.foldl fun _ _ ht => .ite ht ht.kvAnew.modGroup

theorem execLogEntryReplay_formed (hs : s.Formed) : Out.Formed (execLogEntryReplay grp seq s) := by
  unfold execLogEntryReplay
  dsimp only
  split
  · exact .next hs
  · split
    · exact .next hs
    · split
      · refine .next ?_
        refine .kvReplayed ?_
        refine .threadGroup hs (fun _ _ _ ht => ?_)
        split
        · exact ht.replayAcc
        · exact ht
      · refine .next ?_
        refine .threadGroup hs (fun _ _ _ ht => ?_)
        split
        · exact ht.replayAcc
        · exact ht

theorem execHomeAccessPerform_formed {idx : Nat} {reply : Reply} (hs : s.Formed) :
    Out.Formed (execHomeAccessPerform grp seq idx reply s) := by
  unfold execHomeAccessPerform
  split
  · exact .next hs
  · split
    · exact .next hs
    · split
      · exact .next hs
      · exact .next (.ite hs.arriveAcc hs)

end

/-! ## Issue -/

section

variable {s : State} {g : Group} {set : BitVec 32} {i : Option Instr} {v : SetView} {k : Nat} {t : TrapReq}
    {is : Issue} {stepping : Bool} {run : Instr → State → Out}

theorem State.Formed.strokeWord {pc : Nat} (hs : s.Formed) : (s.strokeWord g set pc i).Formed := by
  unfold State.strokeWord
  dsimp only
  split
  · exact .ite hs hs.modPart.setLcr
  · exact hs

theorem State.Formed.countWord (hs : s.Formed) : (s.countWord g v i).Formed :=
  .ite (.ite (.ite hs.tally.tally hs.tally) (.tally (.ite hs.tally.tally hs.tally))) (.strokeWord (.ite (.ite
    hs.tally.tally hs.tally) (.tally (.ite hs.tally.tally hs.tally))))

theorem State.Formed.trapWord (hs : s.Formed) : (s.trapWord k set t).Formed := hs.modGroup.raiseAtIssue

theorem State.Formed.takeBoundary {m : BitVec 32} {pc : BitVec 64} (hs : s.Formed) :
    (s.takeBoundary k m pc t).Formed := hs.modGroup.raiseAtIssue

theorem State.Formed.takeStep (hs : s.Formed) : (s.takeStep k).Formed := by
  unfold State.takeStep
  dsimp only
  split
  · exact hs
  · split
    · exact hs
    · split
      · exact hs
      · exact .ite hs hs.takeBoundary

theorem State.Formed.setIssue {is : Option Issue} (hs : s.Formed) : (s.setIssue is).Formed := hs

theorem State.Formed.afterWord (hs : s.Formed) : (s.afterWord is stepping).Formed :=
  .ite hs.setIssue.modGroup.raiseBoundary.takeStep hs.setIssue

theorem State.runIssued_formed {i : Instr} {stamp before : Nat} (hf : ∀ i s', s'.Formed → (run i s').Formed)
    (hs : s.Formed) : (State.runIssued run s is i stamp before stepping).Formed := by
  unfold State.runIssued
  have hr : (run i (s.setIssue (some is))).Formed := hf _ _ hs.setIssue
  split
  · next t he => 
    rw [he] at hr
    exact .next (State.Formed.afterWord hr)
  · exact .fault
  · exact trivial

theorem State.issueSet_formed (hf : ∀ i s', s'.Formed → (run i s').Formed) (hs : s.Formed) :
    (State.issueSet run s k g v).Formed := by
  unfold State.issueSet
  split
  · exact .next hs.takeBoundary
  · split
    · exact .next hs
    · exact .next hs
    · exact .next hs.raiseAtIssue
    · exact .next (hs.homeViolation fun _ ht => ht.laneViolation).raiseAtIssue
    · split
      · exact .next hs.trapWord
      · dsimp only
        split
        · refine State.runIssued_formed hf (State.Formed.countWord ?_)
          exact .ite hs hs
        · refine .next (.afterWord (.trapWord (.countWord ?_)))
          exact .ite hs hs
        · refine .next (.afterWord (.trapWord (.countWord ?_)))
          exact .ite hs hs

theorem State.issueOn_formed {core : Nat} {uniform : Bool} (hf : ∀ x0 s', s'.Formed → Out.Formed (run x0 s'))
    (ht : s.Formed) : Out.Formed (State.issueOn run s core uniform) := by
  unfold State.issueOn
  split
  · exact .next ht
  · split
    · exact .next ht
    · exact State.issueSet_formed (fun _ _ hu => hf _ _ hu) ht

end

/-! ## Engine commands: deliveries -/

section

variable {s : State} {n c0 c1 c2 p u k limit ch code : Nat} {g : Group} {r : Run} {rd : Reader} {tid : List Byte}
    {c : EngCmd} {d : Delivery} {geo : CopyGeo} {ext : EngineReply} {ring : BitVec 4}

theorem State.Formed.issueEngine {i : Instr} {f : BitVec 6} {la : BitVec 4} (hs : s.Formed) :
    Out.Formed (s.issueEngine i f n la) := by
  unfold State.issueEngine
  refine State.Formed.runWord hs (fun _ _ _ ht => ?_)
  dsimp only
  split
  · exact .next (.setGroup ht)
  · split
    · exact .next ht
    · exact .next (.setGroup ht)

theorem State.Formed.errorNote {e : Option ErrorAt} (hs : s.Formed) : (s.errorNote g e).Formed := by
  unfold State.errorNote
  split
  · exact hs
  · split
    · exact hs.laneViolation
    · refine .homeViolation hs (fun _ ht => ?_)
      split
      · exact ht.laneViolation
      · exact ht.violation

theorem State.Formed.verdict {e : Stop} {before after : State} {count quantity : Nat} (hs : before.Formed)
    (ht : after.Formed) : (e.verdict g before after count quantity).1.Formed := by
  unfold Stop.verdict
  split
  · exact hs
  · exact hs
  · exact hs
  · exact ht.errorNote

theorem Run.Formed.sparse (hs : r.Formed) : Yields (·.1.Formed) (r.sparse rd tid c0 c1 c2) := by
  unfold Run.sparse
  dsimp only
  split
  · exact .error
  · next r1 _ hr =>
      have ht : r1.Formed := hs.read hr
      split
      · exact .ok ht
      · split
        · exact .error
        · next r2 _ hr =>
            have hu : r2.Formed := ht.read hr
            exact .ok hu

theorem Run.Formed.kvRow (hs : r.Formed) : Yields (·.1.Formed) (r.kvRow rd tid p c0 n) := by
  unfold Run.kvRow
  dsimp only
  split
  · exact .error
  · next r1 _ hr =>
      have ht : r1.Formed := hs.kvEntry hr
      split
      · exact .error
      · exact .map (Run.Formed.kvBytes (.kvSecond ht)) fun _ hu => hu

theorem Run.Formed.slantPair (hs : r.Formed) : Yields (·.1.Formed) (r.slantPair rd tid p c0) := by
  unfold Run.slantPair
  dsimp only
  split
  · exact .error
  · next r1 _ _ hr =>
    have ht : r1.Formed := hs.kvRow hr
    split
    · exact .error
    · exact .error
    · next r2 _ _ hr _ => exact .ok (ht.read (x := (r2, _)) hr)

theorem Run.Formed.unitOf {c : CopyGeo} (hs : r.Formed) : Yields (·.1.Formed) (r.unitOf rd c c0 c1 c2) := by
  unfold Run.unitOf
  split
  · exact hs.slantPair
  · split
    · exact .map hs.kvRow fun _ ht => ht
    · exact .map hs.read fun _ ht => ht
  · split
    · exact .error
    · next r1 _ hr =>
        have ht : r1.Formed := hs.sparse hr
        split
        · exact .ok ht
        · exact .map ht.sparse fun _ hu => hu

theorem Run.Formed.copyUnit {c : CopyGeo} (hs : r.Formed) : Yields (·.1.Formed) (r.copyUnit rd c u) := by
  unfold Run.copyUnit
  dsimp only
  split
  · exact .map hs.unitOf fun _ ht => ht
  · exact .map (P := (·.1.Formed)) (.ok hs) fun _ ht => ht

theorem State.Formed.modCmd {seq : Nat} {f : EngCmd → EngCmd} (hs : s.Formed) : (s.modCmd k seq f).Formed :=
  hs.modGroup

theorem Run.Formed.put {c : CopyGeo} {bs : List Byte} {cl : Nat} (hs : d.r.Formed) :
    (d.put rd c u bs cl).r.Formed := by
  unfold Delivery.put
  dsimp only
  split
  · exact hs
  · split
    · exact hs
    · next r1 hr => exact hs.writeAt hr

theorem Run.Formed.run {c : CopyGeo} {fuel : Nat} (hs : d.r.Formed) : (c.run rd fuel limit d).r.Formed := by
  induction fuel generalizing d with
  | zero => exact hs
  | succ n ih =>
    unfold CopyGeo.run
    dsimp only
    split
    · exact hs
    · split
      · exact hs
      · next r1 _ _ hr =>
        have ht : r1.Formed := hs.copyUnit hr
        exact ih (Run.Formed.put ht)

theorem Run.Formed.copyTo (hs : r.Formed) : (r.copyTo k g c ch geo limit).1.Formed := by
  unfold Run.copyTo
  refine State.Formed.modCmd (.tally (.modGang ?_))
  exact Run.Formed.run hs

theorem Run.Formed.copyPart (hs : r.Formed) : (r.copyPart k g c ch geo limit).1.Formed := by
  unfold Run.copyPart
  dsimp only
  split
  · exact .verdict hs.copyTo hs.copyTo
  · exact hs.copyTo

theorem State.Formed.workCopy {ch : BitVec 3} {var : CopyVar} (hs : s.Formed) :
    (s.workCopy k g c ch var ext).1.Formed := by
  unfold State.workCopy
  dsimp only
  split
  · exact hs
  · exact hs.of.copyPart

theorem State.Formed.endChain (hs : s.Formed) : (s.endChain k c code).1.Formed := hs.modCmd

theorem Run.Formed.endRecord (hs : r.Formed) : (r.endRecord k g c code).1.Formed := by
  unfold Run.endRecord
  dsimp only
  split
  · exact .verdict hs hs
  · next r1 hr =>
      have ht : r1.Formed := hs.write hr
      split
      · exact .verdict hs ht
      · next r2 hr =>
          have hu : r2.Formed := ht.write hr
          exact .modCmd hu

theorem Run.Formed.readRecord (hs : r.Formed) : Yields (·.1.Formed) (r.readRecord k g c) := by
  unfold Run.readRecord
  dsimp only
  split
  · exact .ok hs
  · split
    · exact .error
    · split
      · exact .error
      · exact .error
      · next r1 _ hr =>
          have ht : r1.Formed := hs.read hr
          exact .ok (.modCmd ht)

theorem Run.Formed.recordPart (hs : r.Formed) : (r.recordPart k g c ch geo limit).1.Formed := by
  unfold Run.recordPart
  dsimp only
  split
  · exact Run.Formed.endRecord (.errorNote hs.copyTo)
  · exact .verdict hs.copyTo hs.copyTo
  · split
    · exact hs.copyTo
    · exact hs.copyTo.endRecord

theorem Run.Formed.readRecord_stop (hs : r.Formed) : StopsWith (·.1.Formed) (r.readRecord k g c) := by
  unfold Run.readRecord
  split
  · exact .ok
  · split
    · exact .error (State.Formed.endChain hs)
    · split
      · exact .error (State.Formed.endChain (.errorNote hs))
      · exact .error (State.Formed.verdict hs hs)
      · exact .ok

theorem State.Formed.workRecord {ch : BitVec 3} (hs : s.Formed) : (s.workRecord k g c ch ext).1.Formed := by
  unfold State.workRecord
  split
  · next x hr => exact hs.of.readRecord_stop hr
  · next r1 _ hr =>
    have ht : r1.Formed := hs.of.readRecord hr
    split
    · exact State.Formed.endChain ht
    · split
      · exact ht.endRecord
      · split
        · exact ht.endRecord
        · exact ht.recordPart

theorem State.Formed.watchPublish (hs : s.Formed) : (s.watchPublish).Formed := hs

theorem State.Formed.publish {slot : Nat} (hs : s.Formed) : (s.publish k g c slot).Formed :=
  .modGroup (.modCmd (.ite (.watchPublish hs) hs))

theorem State.Formed.workRput (hs : s.Formed) : (s.workRput g c ring).1.Formed := by
  unfold State.workRput
  dsimp only
  split
  · exact hs
  · split
    · exact hs
    · split
      · exact hs
      · exact hs.modGang

theorem State.Formed.workRtake (hs : s.Formed) : (s.workRtake g c ring).1.Formed := by
  unfold State.workRtake
  dsimp only
  split
  · exact hs
  · split
    · exact hs
    · split
      · exact hs
      · split
        · exact hs
        · exact hs.modGang

end

/-! ## Engine commands: tiles and accumulators -/

section

variable {r : Run} {rd : Reader} {tid : List Byte} {x24 bs : Bool} {c0 i0 r0 x : Int} {c1 c2 n k : Nat}
    {row : Option (Nat × Nat)} {s : State} {g : Group} {c : EngCmd} {ext : EngineReply} {tile acc : BitVec 3}

theorem Run.Formed.loadElem {c0 : Nat} (hs : r.Formed) : Yields (·.1.Formed) (r.loadElem rd tid x24 c0 c1 c2) := by
  unfold Run.loadElem
  dsimp only
  split
  · exact hs.sparse
  · exact .map hs.read fun _ ht => ht

theorem Run.Formed.loadRow (hs : r.Formed) : Yields (·.1.Formed) (r.loadRow rd tid x24 row c0 n) := by
  induction n generalizing r c0 with
  | zero => exact .ok hs
  | succ m ih =>
    unfold Run.loadRow
    dsimp only
    split
    · exact .error
    · next r1 _ _ hr =>
      have ht : r1.Formed := by
        split at hr
        · exact Yields.ok (P := (·.1.Formed)) hs hr
        · split at hr
          · exact Yields.map (Q := (·.1.Formed)) hs.loadElem (fun _ hu => hu) hr
          · exact Yields.ok (P := (·.1.Formed)) hs hr
      exact .map (ih ht) fun _ hu => hu

theorem Run.Formed.loadScales {b : Nat} (hs : r.Formed) : Yields (·.1.Formed) (r.loadScales rd tid row i0 b) := by
  induction b with
  | zero => exact .ok hs
  | succ m ih =>
    unfold Run.loadScales
    split
    · exact .error
    · next r1 _ hr =>
      have ht : r1.Formed := ih hr
      dsimp only
      split
      · exact .ok ht
      · split
        · exact .ok ht
        · split
          · exact .ok ht
          · exact .map ht.read fun _ hu => hu

theorem Run.Formed.loadRows (hs : r.Formed) : Yields (·.1.Formed) (r.loadRows rd tid x24 i0 r0 n) := by
  induction n with
  | zero => exact .ok hs
  | succ m ih =>
    unfold Run.loadRows
    split
    · exact .error
    · next r1 _ _ hr =>
      have ht : r1.Formed := ih hr
      dsimp only
      split
      · exact .error
      · next r2 _ _ hr =>
        have hu : r2.Formed := ht.loadRow hr
        exact .map hu.loadScales fun _ hv => hv

theorem State.Formed.load (hs : s.Formed) : Yields (·.1.Formed) (s.load g c x24 ext) := by
  unfold State.load
  dsimp only
  split
  · exact .error
  · split
    · exact .error
    · next r1 _ _ hr =>
      have ht : r1.Formed := hs.of.loadRows hr
      exact .ok ht

theorem State.Formed.load_stop (hs : s.Formed) : StopsWith (·.1.Formed) (s.load g c x24 ext) := by
  unfold State.load
  dsimp only
  split
  · exact .error hs
  · split
    · exact .error (hs.verdict hs)
    · exact .ok

theorem State.Formed.workTld (hs : s.Formed) : (s.workTld k g c tile ext).1.Formed := by
  unfold State.workTld
  split
  · next x hr => exact hs.load_stop hr
  · next s1 _ _ hr =>
    have ht : s1.Formed := hs.load hr
    exact ht

theorem State.Formed.workWld (hs : s.Formed) : (s.workWld g c x24 ext).1.Formed := by
  unfold State.workWld
  dsimp only
  split
  · exact hs
  · split
    · next x hr => exact hs.load_stop hr
    · next s1 _ _ hr =>
      have ht : s1.Formed := hs.load hr
      exact ht

theorem State.Formed.takeMma {f : MmaFmt} (hs : s.Formed) : (s.takeMma k g c f tile acc bs).1.Formed := by
  unfold State.takeMma
  dsimp only
  split
  · exact hs
  · exact .iteFst hs hs

theorem State.Formed.workAzero {f64 : Bool} (hs : s.Formed) : (s.workAzero k acc f64).1.Formed := hs.modGroup

theorem Run.Formed.astWrite {c : Nat} {ps : List Nat} (hs : r.Formed) :
    Yields (·.1.Formed) (r.astWrite rd tid c c1 c2 ps) := by
  unfold Run.astWrite
  dsimp only
  split
  · exact .error
  · exact .map hs.write fun _ ht => ht

theorem Run.Formed.astRowAt {acc i : Nat} (hs : r.Formed) :
    Yields (·.1.Formed) (r.astRowAt rd g tid acc bs c0 r0 x i) := by
  unfold Run.astRowAt
  dsimp only
  split
  · exact .ok hs
  · split
    · exact .ok hs
    · split
      · exact .error
      · next r1 _ hr =>
          have ht : r1.Formed := hs.astWrite hr
          split
          · exact .ok ht
          · exact .map ht.write fun _ hu => hu

theorem Run.Formed.astRows {acc qty : Nat} (hs : r.Formed) : (r.astRows rd g tid acc bs c0 r0 x n qty).1.Formed := by
  induction n generalizing r qty with
  | zero => exact hs
  | succ m ih =>
    unfold Run.astRows
    split
    · exact hs
    · next r1 _ hr => exact ih (hs.astRowAt hr)

theorem State.Formed.workAst (hs : s.Formed) : (s.workAst g c acc bs ext).1.Formed := by
  unfold State.workAst
  dsimp only
  split
  · exact hs
  · split
    · exact hs.of.astRows
    · exact hs.verdict hs.of.astRows

end

/-! ## Engine commands: collectives -/

section

variable {s : State} {g : Group} {c : EngCmd} {slot : BitVec 4} {r : Run} {rd : Reader} {ext : EngineReply}
    {role off k : Nat} {bs d : List Byte}

theorem State.Formed.workBlsub {n : BitVec 8} (hs : s.Formed) : (s.workBlsub g c n slot).1.Formed := by
  unfold State.workBlsub
  dsimp only
  split
  · exact hs
  · exact hs.modGang

theorem Run.Formed.partialAt {va : BitVec 64} (hs : r.Formed) : Yields (·.1.Formed) (r.partialAt rd va) := by
  unfold Run.partialAt
  dsimp only
  split
  · exact .error
  · split
    · exact .error
    · next r1 _ hr =>
        have ht : r1.Formed := hs.read hr
        split
        · exact .error
        · exact .map ht.read fun _ hu => hu

theorem Run.Formed.partials {vas : List (BitVec 64)} (hs : r.Formed) : Yields (·.1.Formed) (r.partials rd vas) := by
  induction vas generalizing r with
  | nil => exact .ok hs
  | cons va t ih =>
    unfold Run.partials
    split
    · exact .error
    · next r1 _ hr => exact .map (ih (hs.partialAt hr)) fun _ ht => ht

theorem State.Formed.collect {b : BlotSlot} (hs : s.Formed) : (s.collect g c b ext).1.Formed := by
  unfold State.collect
  dsimp only
  split
  · exact hs
  · split
    · exact hs.verdict hs
    · next r1 hr =>
        have ht : r1.Formed := hs.of.partials hr
        exact hs
    · next r1 _ _ hr =>
        have ht : r1.Formed := hs.of.partials hr
        split
        · exact hs
        · split
          · exact hs
          · split
            · exact hs.verdict hs
            · next r2 hr =>
                have hu : r2.Formed := ht.write hr
                exact hu

theorem State.Formed.workBlcol (hs : s.Formed) : (s.workBlcol g c slot ext).1.Formed := by
  unfold State.workBlcol
  split
  · exact hs
  · next a _ =>
    dsimp only
    split
    · exact hs
    · have ht : (s.collect g c (a.blot slot.toNat) ext).1.Formed := hs.collect
      split <;> next he => rw [he] at ht; exact ht

theorem State.Formed.castRole (hs : s.Formed) : (s.castRole g role off bs).1.Formed := by
  unfold State.castRole
  split
  · exact hs
  · exact hs.engineStore

theorem State.Formed.castRoles {n : Nat} (hs : s.Formed) : (s.castRoles g role off bs n).1.Formed := by
  induction n generalizing s role with
  | zero => exact hs
  | succ m ih => exact ih hs.castRole

theorem State.Formed.workQcast (hs : s.Formed) : (s.workQcast g c ext).1.Formed := by
  unfold State.workQcast
  dsimp only
  split
  · exact hs
  · split
    · exact hs.verdict hs
    · next r1 _ hr =>
        have ht : r1.Formed := hs.of.read hr
        split
        · exact hs
        · exact .castRoles ht

theorem Run.Formed.residuals (hs : r.Formed) : Yields (·.1.Formed) (r.residuals rd d) := by
  unfold Run.residuals
  dsimp only
  split
  · exact .ok hs
  · split
    · exact .error
    · next r1 _ hr =>
        have ht : r1.Formed := hs.read hr
        split
        · exact .ok ht
        · exact .map ht.read fun _ hu => hu

theorem State.Formed.joinColl {sent : List Byte} (hs : s.Formed) : (s.joinColl k g c d sent).Formed := by
  unfold State.joinColl
  dsimp only
  split
  · exact .modCmd hs
  · exact .modCmd hs

theorem State.Formed.workJoin (hs : s.Formed) : (s.workJoin k g c ext).1.Formed := by
  unfold State.workJoin
  dsimp only
  split
  · exact hs
  · split
    · exact hs.verdict hs
    · next r1 _ hr =>
        have ht : r1.Formed := hs.of.read hr
        split
        · exact ht
        · split
          · exact hs.verdict hs
          · next r2 _ hr =>
              have hu : r2.Formed := ht.read hr
              split
              · exact hs.verdict hs
              · next r3 _ hr =>
                  have hv : r3.Formed := hu.residuals hr
                  exact .joinColl hv

theorem State.Formed.leaveColl {x : Coll} {seq : Nat} (hs : s.Formed) : (s.leaveColl x k seq).Formed := hs

theorem Run.Formed.deposit {res out : List Byte} {receives : Bool} (hs : r.Formed) :
    Yields Run.Formed (r.deposit rd d res out receives) := by
  unfold Run.deposit
  dsimp only
  split
  · exact .error
  · next r1 hr =>
    have ht : r1.Formed := by
      split at hr
      · exact hs.write hr
      · exact Yields.ok hs hr
    split
    · exact .ok ht
    · split
      · exact .error
      · next r2 hr => exact Run.Formed.write (ht.write hr)

theorem State.Formed.workReduce (hs : s.Formed) : (s.workReduce k g c ext).1.Formed := by
  unfold State.workReduce
  dsimp only
  split
  · exact hs
  · split
    · exact hs.leaveColl
    · split
      · exact hs.leaveColl
      · split
        · exact hs
        · exact hs.leaveColl
        · split
          · exact hs.errorNote.leaveColl
          · exact hs.verdict hs
          · next r1 hr =>
              have ht : r1.Formed := hs.of.deposit hr
              exact .leaveColl ht

theorem State.Formed.workCreduce (hs : s.Formed) : (s.workCreduce k g c ext).1.Formed := by
  unfold State.workCreduce
  split
  · exact hs.workJoin
  · exact hs.workReduce

end

/-! ## Engine commands: TIDs, paths and pages -/

section

variable {s : State} {g : Group} {c : EngCmd} {ext : EngineReply} {tid : List Byte} {k n len : Nat} {r : Run}
    {rd : Reader} {va : BitVec 64} {h : BitVec 32} {w : PathWalk}

theorem State.Formed.tidImage (hs : s.Formed) : Yields (·.1.Formed) (s.tidImage g c ext) := by
  unfold State.tidImage
  split
  · exact .ok hs
  · split
    · exact .error
    · split
      · exact .error
      · next r1 _ hr =>
        have ht : r1.Formed := hs.of.read hr
        split
        · exact .error
        · exact .ok ht

theorem State.Formed.tidImage_stop (hs : s.Formed) : StopsWith (·.1.Formed) (s.tidImage g c ext) := by
  unfold State.tidImage
  split
  · exact .ok
  · split
    · exact .error hs
    · split
      · exact .error (hs.verdict hs)
      · next r1 _ hr =>
        have ht : r1.Formed := hs.of.read hr
        split
        · exact .error ht
        · exact .ok

theorem State.Formed.workTidset {tid : BitVec 8} (hs : s.Formed) : (s.workTidset g c tid ext).1.Formed := by
  unfold State.workTidset
  split
  · next x hr => exact hs.tidImage_stop hr
  · next s1 _ hr =>
    have ht : s1.Formed := hs.tidImage hr
    exact ht

theorem State.Formed.takeReplica {tid : BitVec 8} {cluster : Nat} (hs : s.Formed) :
    (s.takeReplica k g c tid cluster ext).Formed := by
  unfold State.takeReplica
  split
  · exact hs
  · next s1 _ hr =>
    have ht : s1.Formed := hs.tidImage hr
    exact ht

theorem State.Formed.workTidget (hs : s.Formed) : (s.workTidget g c ext).1.Formed := by
  unfold State.workTidget
  split
  · exact hs
  · split
    · exact hs
    · split
      · exact hs.verdict hs
      · next r1 hr =>
          have ht : r1.Formed := hs.of.write hr
          exact ht

theorem Run.Formed.read32 (hs : r.Formed) : Yields (·.1.Formed) (r.read32 rd va) := .map hs.read fun _ ht => ht

theorem Run.Formed.write32 {v : BitVec 32} (hs : r.Formed) : Yields Run.Formed (r.write32 rd va v) := hs.write

theorem Run.Formed.bucket {parent token : BitVec 32} {fuel node : Nat} (hs : r.Formed) :
    Yields (·.1.Formed) (r.bucket rd tid h parent token fuel node) := by
  induction fuel generalizing r node with
  | zero => exact .ok hs
  | succ n ih =>
    unfold Run.bucket
    split
    · exact .ok hs
    · split
      · exact .error
      · next r1 _ hr => exact .map (ih (hs.read hr)) fun _ ht => ht

theorem Run.Formed.startHash {start : Nat} (hs : r.Formed) : Yields (·.1.Formed) (r.startHash rd tid start) := by
  unfold Run.startHash
  split
  · exact .ok hs
  · exact hs.read32

theorem State.Formed.pathEnd {insert : Bool} (hs : s.Formed) (ht : w.r.Formed) :
    (s.pathEnd rd tid insert w).1.Formed := by
  unfold State.pathEnd
  dsimp only
  split
  · exact hs.verdict ht
  · split
    · exact ht
    · split
      · exact hs.verdict ht
      · next r2 _ hr =>
          have hu : r2.Formed := ht.read32 hr
          split
          · exact hs.verdict ht
          · next r3 hr =>
              have hv : r3.Formed := hu.write32 hr
              exact hv

theorem Run.Formed.after {x : Except Stop Run} {f : PathWalk → PathWalk} (hs : w.r.Formed)
    (hx : Yields Run.Formed x) (hf : ∀ w, w.r.Formed → (f w).r.Formed) : (w.after x f).r.Formed := by
  cases x with
  | error _ => exact hs
  | ok r => exact hf _ (hx rfl)

theorem Run.Formed.zeroFrom {path : BitVec 64} (hs : w.r.Formed) : (PathWalk.zeroFrom rd path k n w).r.Formed := by
  induction n generalizing k w with
  | zero => exact hs
  | succ m ih => exact .after hs hs.write32 fun _ ht => ih ht

theorem Run.Formed.insert {bucket : Nat} {head token : BitVec 32} (hs : w.r.Formed) :
    (w.insert rd tid bucket head h token).1.r.Formed := by
  unfold PathWalk.insert
  split
  · exact hs
  · next r1 _ hr =>
    have ht : r1.Formed := hs.read32 hr
    split
    · exact ht
    · exact .after ht ht.write32 fun _ hu => .after hu hu.write fun _ hv => .after hv hv.write32 fun _ hw => hw

theorem Run.Formed.token {path : BitVec 64} {insert : Bool} (hs : w.r.Formed) :
    (w.token rd tid path insert len k).r.Formed := by
  unfold PathWalk.token
  split
  · exact hs
  · next r1 _ hr =>
    have ht : r1.Formed := hs.read32 hr
    dsimp only
    split
    · exact hs
    · next r2 _ hr =>
      have hu : r2.Formed := ht.read32 hr
      split
      · exact hs
      · next r3 _ _ hr =>
        have hv : r3.Formed := hu.bucket hr
        split
        · exact .after hv hv.write32 fun _ hw => hw
        · split
          · split
            · exact .insert hv
            · exact .after (.insert hv) (.write32 (.insert hv)) fun _ hw => hw
          · exact .zeroFrom hv

theorem Run.Formed.path {path : BitVec 64} {insert : Bool} (hs : w.r.Formed) :
    (PathWalk.path rd tid path insert len n w).r.Formed := by
  induction n generalizing w with
  | zero => exact hs
  | succ m ih =>
    unfold PathWalk.path
    split
    · exact hs
    · exact ih hs.token

theorem State.Formed.workPath {insert : Bool} (hs : s.Formed) : (s.workPath g c insert ext).1.Formed := by
  unfold State.workPath
  dsimp only
  split
  · exact hs
  · split
    · exact hs
    · split
      · exact hs.verdict hs
      · next r1 _ hr =>
        have ht : r1.Formed := hs.of.read hr
        split
        · exact hs.verdict hs
        · next r2 _ hr =>
          have hu : r2.Formed := ht.read32 hr
          split
          · exact hu
          · split
            · exact hs.verdict hs
            · next r3 _ hr =>
              have hv : r3.Formed := hu.startHash hr
              exact hs.pathEnd (.path hv)

theorem Run.Formed.failedPage {e : KvEntry} {code : Nat} (hs : r.Formed) : (r.failedPage e code).1.Formed := hs

theorem Run.Formed.resolvePage {p : Nat} (hs : r.Formed) : Yields (·.1.Formed) (r.resolvePage rd tid p) := by
  unfold Run.resolvePage
  split
  · exact .error
  · next r1 _ hr =>
    have h1 : r1.Formed := hs.kvEntry hr
    have ht {e : KvEntry} : (r1.s.kvSecond rd.g.id.launch e).Formed := State.Formed.kvSecond h1
    dsimp only
    split
    · exact .ok ht
    · split
      · next r2 hr =>
        have hu : r2.Formed := Run.Formed.enter (by exact ht) hr
        exact .ok hu
      · exact .ok (Run.Formed.failedPage (State.Formed.errorNote ht))
      · exact .error
    · exact .ok (Run.Formed.failedPage ht)
    · exact .error

theorem Run.Formed.resolvePages {out : BitVec 64} {q : Nat} (hs : r.Formed) :
    (r.resolvePages rd tid out q n).1.Formed := by
  induction n generalizing r out q with
  | zero => exact hs
  | succ m ih =>
    unfold Run.resolvePages
    split
    · exact hs
    · next r1 _ _ hr =>
      have ht : r1.Formed := hs.resolvePage hr
      split
      · exact ht
      · next r2 hr => exact ih (ht.write hr)

theorem State.Formed.workKvres (hs : s.Formed) : (s.workKvres g c ext).1.Formed := by
  unfold State.workKvres
  dsimp only
  split
  · exact hs
  · split
    · exact hs
    · split
      · exact hs.verdict hs.of.resolvePages
      · exact hs.of.resolvePages

end

/-! ## Events of engine commands -/

section

variable {s : State} {k grp seq : Nat} {g : Group} {c : EngCmd} {ext : EngineReply} {x : BitVec 64}

theorem State.Formed.start (hs : s.Formed) : (s.start k g c).Formed := by
  unfold State.start
  dsimp only
  split
  · exact hs
  · exact hs
  · exact hs
  · exact State.Formed.takeMma (s := State.modCmd _ _ _ _) hs
  · exact hs

theorem execEngineCommandStart_formed (hs : s.Formed) : Out.Formed (execEngineCommandStart grp seq s) := by
  unfold execEngineCommandStart
  split
  · exact .next hs
  · split
    · exact .next hs
    · exact .next (.ite hs.start hs)

theorem State.Formed.work (hs : s.Formed) : (s.work k g c ext).1.Formed := by
  unfold State.work
  split
  · exact hs.workCopy
  · split
    · exact hs
    · exact hs
  · exact hs
  · split
    · exact hs
    · exact hs
  · exact hs.workRput
  · exact hs.workRtake
  · exact hs.workTld
  · exact hs.workWld
  · exact hs
  · exact hs.workAzero
  · exact hs.workAst
  · exact hs.workBlsub
  · exact hs.workBlcol
  · exact hs.workQcast
  · exact hs.workCreduce
  · exact hs.workTidset
  · exact hs.workTidget
  · exact hs.workPath
  · exact hs.workPath
  · exact hs.workKvres
  · exact hs

theorem State.Formed.traceCmd (hs : s.Formed) : (s.traceCmd g c x).Formed := by
  unfold State.traceCmd
  dsimp only
  split
  · exact hs
  · exact .ite hs (.ite hs.modPart.profRecord hs.modPart)

theorem State.Formed.finishCmd (hs : s.Formed) : (s.finishCmd k c x).Formed := by
  unfold State.finishCmd
  dsimp only
  split
  · exact hs
  · split
    · refine .setGroup ?_
      split
      · exact (hs.foldl fun _ _ ht => ht.unpin).tally
      · exact hs.foldl fun _ _ ht => ht.unpin
    · refine .traceCmd ?_
      refine .setGroup ?_
      split
      · exact (hs.foldl fun _ _ ht => ht.unpin).tally
      · exact hs.foldl fun _ _ ht => ht.unpin

theorem State.Formed.settleCmd {x : State × Verdict} (hs : x.1.Formed) : (State.settleCmd k g c x).Formed := by
  unfold State.settleCmd
  dsimp only
  split
  · exact hs
  · exact hs.finishCmd
  · exact hs.finishCmd
  · exact hs.postRequest.modCmd
  · exact hs.queueWalk.modCmd

theorem State.Formed.copyStops (hs : s.Formed) : (s.copyStops k g c ext).1.Formed := by
  unfold State.copyStops
  dsimp only
  split
  · exact hs
  · split
    · exact hs.of.recordPart
    · exact hs.of.copyPart

theorem execEngineCommandComplete_formed (hs : s.Formed) : Out.Formed (execEngineCommandComplete grp seq ext s) := by
  unfold execEngineCommandComplete
  split
  · exact .next hs
  · split
    · exact .next hs
    · exact .next (.ite hs.work.settleCmd (.ite hs.copyStops.settleCmd hs))

theorem execChainRecord_formed (hs : s.Formed) : Out.Formed (execChainRecord grp seq ext s) := by
  unfold execChainRecord
  split
  · exact .next hs
  · split
    · exact .next hs
    · split
      · exact .next (.ite hs.workRecord.settleCmd (.ite hs.copyStops.settleCmd hs))
      · exact .next hs

theorem execPublInstant_formed (hs : s.Formed) : Out.Formed (execPublInstant grp seq s) := by
  unfold execPublInstant
  split
  · exact .next hs
  · split
    · exact .next hs
    · split
      · exact .next (.ite hs.publish hs)
      · exact .next hs

theorem Run.Formed.deliverUpTo {r : Run} {ch limit : Nat} {geo : CopyGeo} (hs : r.Formed) :
    (r.deliverUpTo grp g c ch limit geo).Formed := by
  unfold Run.deliverUpTo
  dsimp only
  split
  · exact hs
  · split
    · exact hs.copyTo
    · exact .settleCmd (.verdict hs.copyTo hs.copyTo)
    · exact hs.copyTo

theorem State.Formed.deliver {bytes : Nat} (hs : s.Formed) : (s.deliver grp seq bytes).Formed := by
  unfold State.deliver
  split
  · exact hs
  · split
    · exact hs
    · split
      · exact hs
      · dsimp only
        split
        · next x hr =>
          refine .settleCmd ?_
          split at hr
          · exact hs.of.readRecord_stop hr
          · cases hr
        · next r1 _ hr =>
          have ht : r1.Formed := by
            split at hr
            · exact hs.of.readRecord hr
            · exact Yields.ok (P := (·.1.Formed)) hs.of hr
          split
          · exact ht
          · exact ht.deliverUpTo

theorem State.Formed.copyToBoundary (hs : s.Formed) : (s.copyToBoundary k g).Formed :=
  hs.foldl fun _ _ ht => .ite ht.copyStops.settleCmd ht

theorem State.Formed.replicaTurn {cluster : Nat} (hs : s.Formed) : (s.replicaTurn grp seq cluster ext).Formed := by
  unfold State.replicaTurn
  split
  · exact hs
  · split
    · exact hs
    · split
      · exact .ite hs.takeReplica hs
      · exact hs

end

/-! ## Contexts and the events of issue -/

section

variable {s : State} {g : Group} {f : BitVec 64 → CtxReach} {ps : List Piece} {k slot core grp rcb : Nat}

theorem State.Formed.ctxStore {pa : Nat} {bs : List Byte} (hs : s.Formed) : (s.ctxStore g pa bs).Formed :=
  hs.countCxl.storeBytes

theorem State.Formed.ctxPut (hs : s.Formed) : Yields State.Formed (s.ctxPut f g ps) := by
  unfold State.ctxPut
  dsimp only
  split
  · exact .error
  · split
    · exact .error
    · exact .ok (hs.foldl fun _ _ ht => ht.ctxStore)

theorem State.Formed.ctxWrite (hs : s.Formed) : Yields State.Formed (s.ctxWrite g ps) := hs.ctxPut

theorem State.Formed.ctxWriteSome (hs : s.Formed) : (s.ctxWriteSome g ps).Formed := by
  unfold State.ctxWriteSome
  refine .foldl hs fun _ _ ht => ?_
  split
  · exact .ite ht ht.ctxStore
  · exact ht
  · exact ht
  · exact ht
  · exact ht

theorem State.Formed.countCtx {off n : Nat} (hs : s.Formed) : (s.countCtx g off n).Formed := by
  unfold State.countCtx
  split
  · exact hs.countCxl
  · exact hs

theorem State.Formed.recordTrap (hs : s.Formed) : (s.recordTrap k).Formed := by
  unfold State.recordTrap
  split
  · exact hs
  · split
    · next s1 hr => exact hs.ctxPut hr
    · exact hs

theorem State.Formed.ctxDomain {off : Option Nat} (hs : s.Formed) : (s.ctxDomain k off).Formed :=
  .recordTrap (.toFaultDomain hs)

theorem State.Formed.ctxWalk {va : BitVec 64} (hs : s.Formed) : (s.ctxWalk k g slot va).Formed :=
  hs.queueWalk.modGroup

theorem State.Formed.ctxFault {e : CtxReach} (hs : s.Formed) : (s.ctxFault k g e).Formed := by
  unfold State.ctxFault
  dsimp only
  split
  · exact hs
  · exact hs.ctxWalk
  · exact hs.postRequest.modGroup
  · exact hs.ctxDomain
  · exact (hs.homeViolation fun _ ht => ht).ctxDomain

theorem State.Formed.answerCtx {id page : Nat} {slot : Option Nat} (hs : s.Formed) :
    (s.answerCtx k id page slot).Formed := by
  unfold State.answerCtx
  dsimp only
  split
  · exact hs
  · split
    · exact hs
    · split
      · exact hs.setGroup
      · exact hs.setGroup.ctxDomain

theorem State.Formed.putLate (hs : s.Formed) : Yields State.Formed (s.putLate f g) := by
  unfold State.putLate
  split
  · split
    · exact .error
    · exact hs.ctxPut
  · exact .error

theorem State.Formed.putDescriptor (hs : s.Formed) : (s.putDescriptor k).Formed := by
  unfold State.putDescriptor
  split
  · exact hs
  · split
    · exact hs
    · exact hs.deviceStore

theorem State.Formed.landLate (hs : s.Formed) : (s.landLate k).Formed := by
  unfold State.landLate
  split
  · exact hs
  · split
    · exact hs
    · split
      · exact hs
      · split
        · exact hs
        · next s1 hr =>
          have ht : s1.Formed := hs.putLate hr
          exact ht

theorem execWalkStart_formed (hs : s.Formed) : Out.Formed (execWalkStart core s) := by
  unfold execWalkStart
  dsimp only
  split
  · exact .next hs
  · split
    · exact .next hs
    · exact .next hs.modCore.setGroup

theorem State.Formed.failWalk (hs : s.Formed) : (s.failWalk core).Formed := by
  unfold State.failWalk
  dsimp only
  split
  · exact hs.modGroup
  · exact .ite hs.modGroup.notice.endWalk hs.modGroup

theorem execWalkerInstructionLimit_formed (hs : s.Formed) : Out.Formed (execWalkerInstructionLimit core s) :=
  .next (.ite hs.failWalk hs)

theorem execTrapEntry_formed (hs : s.Formed) : Out.Formed (execTrapEntry grp s) := by
  unfold execTrapEntry
  dsimp only
  split
  · exact .next hs
  · split
    · split
      · exact .next hs.failWalk
      · split
        · exact .next hs
        · exact .next hs.setGroup.takeTrap
    · split
      · exact .next (.ite hs.setGroup.toFaultDomain hs)
      · split
        · exact .next hs
        · split
          · exact .next hs
          · exact .next hs.takeBoundary

theorem execFairnessLimit_formed (hs : s.Formed) : Out.Formed (execFairnessLimit grp s) := by
  unfold execFairnessLimit
  dsimp only
  split
  · exact .next hs
  · exact .next (.ite hs.setGroup hs)

theorem execProgressWaitLimit_formed (hs : s.Formed) : Out.Formed (execProgressWaitLimit grp s) := by
  unfold execProgressWaitLimit
  dsimp only
  split
  · exact .next hs
  · exact .next (.ite hs.setGroup hs)

theorem execWatchdog_formed (hs : s.Formed) : Out.Formed (execWatchdog grp s) := by
  unfold execWatchdog
  split
  · exact .next hs
  · split
    · exact .next hs
    · exact .next hs.raiseAtIssue

theorem State.Formed.noteTurns (hs : s.Formed) : (s.noteTurns).Formed := hs

theorem State.Formed.noteFetches (hs : s.Formed) : (s.noteFetches).Formed :=
  hs.foldl fun _ _ ht => .ite ht (ht.foldl fun _ _ hu => hu.queueWalk)

theorem execPcComparatorMatch_formed (hs : s.Formed) : Out.Formed (execPcComparatorMatch grp s) := by
  unfold execPcComparatorMatch
  split
  · exact .next hs
  · split
    · exact .next hs
    · split
      · exact .next hs.trapWord
      · exact .next hs

theorem execGateTimeout_formed (hs : s.Formed) : Out.Formed (execGateTimeout rcb s) := by
  unfold execGateTimeout
  split
  · exact .next hs
  · exact .next (.ite hs.endGate hs)

theorem State.Formed.walksDrop {region : Nat} {gen : BitVec 16} (hs : s.Formed) : (s.walksDrop region gen).Formed :=
  hs

theorem execSlotReclaim_formed (hs : s.Formed) : Out.Formed (execSlotReclaim rcb slot s) := by
  unfold execSlotReclaim
  dsimp only
  split
  · exact .next hs
  · split
    · exact .next hs
    · exact .next hs.tlbDrop.walksDrop.modRegion.notice

end

/-! ## Parking, activation and lines -/

section

variable {s : State} {k grp line gang : Nat} {g : Group} {f : Folio}

theorem State.Formed.binPlace {core part : Nat} (hs : s.Formed) : (s.binPlace core part).Formed := by
  unfold State.binPlace
  split
  · exact hs
  · exact .ite hs (.ite hs.modCore hs)

theorem State.Formed.freeBins (hs : s.Formed) : (s.freeBins).Formed := hs

theorem State.Formed.saveGroup {forced : Bool} (hs : s.Formed) : (s.saveGroup k forced).Formed := by
  unfold State.saveGroup
  split
  · exact hs
  · split
    · exact .ctxFault hs.ctxWriteSome
    · next s1 hr =>
      have ht : s1.Formed := hs.ctxWrite hr
      have hu : ((s1.modGroup k (Group.parked forced s1.clk.cycle)).putDescriptor k).Formed := .putDescriptor ht
      exact .ite (.ite hu.notice hu) (State.Formed.tally (.ite hu.notice hu))

theorem State.Formed.forceSave (hs : s.Formed) : (s.forceSave k g).Formed := by
  unfold State.forceSave
  dsimp only
  split
  · exact hs.copyToBoundary
  · exact .ite hs.copyToBoundary.saveGroup hs.copyToBoundary

theorem execParkComplete_formed (hs : s.Formed) : Out.Formed (execParkComplete grp s) := by
  unfold execParkComplete
  split
  · exact .next hs
  · split
    · exact .next hs
    · exact .next (.ite hs.forceSave hs.saveGroup)

theorem execParkThreshold_formed (hs : s.Formed) : Out.Formed (execParkThreshold grp s) := by
  unfold execParkThreshold
  split
  · exact .next hs
  · exact .next (.ite hs.setGroup.putDescriptor hs)

theorem State.Formed.dropCmd {c : EngCmd} (hs : s.Formed) : (s.dropCmd k c).Formed := hs.finishCmd

theorem State.Formed.dropOps (hs : s.Formed) : (s.dropOps k g f).Formed := by
  unfold State.dropOps
  refine .foldl hs fun _ _ ht => ?_
  dsimp only
  split
  · exact ht.freeLog
  · exact ht.freeLog.modGroup

theorem State.Formed.retryMisses (hs : s.Formed) : (s.retryMisses k g).Formed :=
  hs.threadGroup fun _ _ _ ht => ht.tryAcc

theorem State.Formed.standUp {lf : Folio} (hs : s.Formed) : (s.standUp k g f lf).Formed :=
  (hs.setGroup.dropOps.foldl fun _ _ ht => ht.pin).retryMisses.putDescriptor

theorem State.Formed.ctxMalformed {off : Nat} (hs : s.Formed) : (s.ctxMalformed k g f off).Formed :=
  hs.setGroup.ctxDomain

theorem State.Formed.withCtx {f : State → Group → State} (hs : s.Formed) (hf : ∀ s' x, s'.Formed → (f s' x).Formed)
    : (s.withCtx k g f).Formed := by
  unfold State.withCtx
  split
  · exact hs.ctxFault
  · split
    · exact .ctxFault hs.setGroup
    · next s1 hr =>
      have ht : s1.Formed := by
        split at hr
        · exact Yields.ok hs hr
        · exact hs.putLate hr
      exact hf _ _ ht.setGroup

theorem State.Formed.activate (hs : s.Formed) : (s.activate k g).Formed := by
  unfold State.activate
  refine .withCtx hs (fun _ _ ht => ?_)
  split
  · exact ht.ctxFault
  · exact ht.ctxFault
  · split
    · exact ht.ctxMalformed
    · exact ht.countCtx.countCtx.standUp

theorem State.Formed.restore (hs : s.Formed) : (s.restore k).Formed := by
  unfold State.restore
  dsimp only
  split
  · exact hs
  · split
    · exact hs
    · refine .withCtx hs (fun _ _ ht => ?_)
      split
      · exact ht.ctxFault
      · split
        · exact ht.ctxMalformed
        · split
          · exact ht.ctxFault
          · exact (ht.countCtx.foldl fun _ _ hu => hu.countCtx).setGroup.foldl fun _ _ hu => hu.dropCmd

theorem execGroupActivate_formed (hs : s.Formed) : Out.Formed (execGroupActivate grp s) := by
  unfold execGroupActivate
  split
  · exact .next hs
  · exact .next (.ite hs.activate hs)

theorem execGroupEvict_formed (hs : s.Formed) : Out.Formed (execGroupEvict grp s) := by
  unfold execGroupEvict
  split
  · exact .next hs
  · exact .next (.ite hs.setGroup.putDescriptor hs)

theorem State.Formed.replaceLine (hs : s.Formed) : (s.replaceLine grp line).Formed := by
  unfold State.replaceLine
  split
  · exact hs
  · split
    · exact hs
    · split
      · exact hs.setGroup
      · split
        · exact hs.ctxFault
        · next s1 hr => exact State.Formed.setGroup (hs.ctxWrite hr)

theorem execLineFill_formed (hs : s.Formed) : Out.Formed (execLineFill grp line s) := by
  unfold execLineFill
  split
  · exact .next hs
  · split
    · exact .next hs
    · split
      · exact .next hs.ctxFault
      · exact .next hs.countCtx.setGroup

theorem State.Formed.noteFillsOf (hs : s.Formed) : (s.noteFillsOf k).Formed := by
  unfold State.noteFillsOf
  dsimp only
  split
  · exact hs
  · split
    · exact .ite hs.setGroup.setGroup hs.setGroup.setGroup.modCore.tally
    · exact .ctxFault (.ite hs.setGroup.setGroup hs.setGroup.setGroup.modCore.tally)

theorem State.Formed.noteFills (hs : s.Formed) : (s.noteFills).Formed := hs.foldl fun _ _ ht => .ite ht ht.noteFillsOf

theorem execPreemptRequest_formed (hs : s.Formed) : Out.Formed (execPreemptRequest gang s) := by
  unfold execPreemptRequest
  dsimp only
  split
  · exact .next hs
  · split
    · exact .next hs
    · split
      · exact .next hs.forceGang
      · exact .next (hs.modGang.foldl fun _ _ ht => ht.modGroup)

theorem execNoticeDeadline_formed (hs : s.Formed) : Out.Formed (execNoticeDeadline gang s) := by
  unfold execNoticeDeadline
  split
  · exact .next hs
  · exact .next (.ite hs.modGang hs)

theorem execGangParkComplete_formed (hs : s.Formed) : Out.Formed (execGangParkComplete gang s) := by
  unfold execGangParkComplete
  dsimp only
  split
  · exact .next hs
  · split
    · exact .next hs
    · exact .next hs.modGang.tally

end

/-! ## The device and its queues -/

section

variable {s : State} {n rcb q code off hwSlot row : Nat} {va v status : BitVec 64} {data ops : List Byte}

theorem State.Formed.paNote {pa : Nat} (hs : s.Formed) : (s.paNote pa n).Formed := by
  unfold State.paNote
  split
  · exact hs.noteBytes
  · exact hs.homeViolation fun _ ht => ht.violation

theorem State.Formed.pageNote (hs : s.Formed) : (s.pageNote rcb va n).Formed := by
  unfold State.pageNote
  dsimp only
  split
  · exact .ite hs.noteWalkEnd hs
  · exact hs.paNote

theorem State.Formed.vaNote (hs : s.Formed) : (s.vaNote rcb va n).Formed := .ite hs.pageNote hs.pageNote.pageNote

theorem State.Formed.vaStore {v : Nat} (hs : s.Formed) : (s.vaStore rcb va n v).Formed := by
  unfold State.vaStore
  split
  · exact hs
  · exact hs.engineStore

theorem State.Formed.modHost {f : HostIf → HostIf} (hs : s.Formed) : (s.modHost f).Formed := hs

theorem State.Formed.respond {q : Request} {result : BitVec 64} (hs : s.Formed) : (s.respond q result data).Formed :=
  hs.modHost

theorem State.Formed.serve {f : Request → State → State} (hs : s.Formed)
    (hf : ∀ x0 s', s'.Formed → (f x0 s').Formed) : Out.Formed (s.serve code ops f) := by
  unfold State.serve
  split
  · exact .next hs
  · split
    · exact .next hs
    · split
      · exact .next (hf _ _ hs)
      · exact .next hs.respond

theorem State.Formed.serveWith {f : State → State × BitVec 64} (hs : s.Formed)
    (hf : ∀ s', s'.Formed → (f s').1.Formed) : Out.Formed (s.serveWith code ops f) :=
  hs.serve fun _ _ ht => .respond (hf _ ht)

theorem State.Formed.doorbell {v : BitVec 32} (hs : s.Formed) : (s.doorbell v).Formed :=
  .ite hs (.ite hs.modHost hs.respond)

theorem execEventWrite_formed (hs : s.Formed) : Out.Formed (execEventWrite v s) := .next hs.modHost

theorem execNtailWrite_formed (hs : s.Formed) : Out.Formed (execNtailWrite v s) := .next hs.modHost

theorem execImage_formed (hs : s.Formed) : Out.Formed (execImage off data s) := by
  unfold execImage
  refine State.Formed.serveWith hs (fun _ ht => ?_)
  dsimp only
  split
  · exact ht
  · exact ht

theorem State.Formed.booted {img : List Byte} (hs : s.Formed) : (s.booted img).Formed := .modHost hs

theorem execBoot_formed (hs : s.Formed) : Out.Formed (execBoot s) := by
  unfold execBoot
  refine State.Formed.serveWith hs (fun _ ht => ?_)
  dsimp only
  split
  · exact ht
  · exact ht.booted

theorem State.Formed.resetFrom (hs : s.Formed) : s.resetFrom.Formed := Table.wf_filter _ hs

theorem State.Formed.modQueue {f : Queue → Queue} (hs : s.Formed) : (s.modQueue q f).Formed := hs

theorem State.Formed.putQueue (hs : s.Formed) : (s.putQueue q).Formed := by
  unfold State.putQueue
  split
  · exact hs.engineStore
  · exact hs

theorem State.Formed.noteTable (hs : s.Formed) : (s.noteTable q).Formed := by
  unfold State.noteTable
  split
  · exact hs
  · exact hs.paNote

theorem State.Formed.notifyQueue {n : BitVec 32} (hs : s.Formed) : (s.notifyQueue q n).Formed := by
  unfold State.notifyQueue
  dsimp only
  split
  · exact hs
  · exact .ite hs.modQueue hs.modQueue.putQueue

theorem State.Formed.clearError (hs : s.Formed) : (s.clearError q).Formed := hs.modQueue.putQueue

theorem execNotifyWrite_formed (hs : s.Formed) : Out.Formed (execNotifyWrite q v s) := by
  unfold execNotifyWrite
  dsimp only
  split
  · exact .next hs
  · split
    · exact .next hs.notifyQueue
    · split
      · exact .next hs.vaNote
      · exact .next (.ite hs.vaStore hs.vaNote)

theorem State.Formed.mapQueue {hw : Nat} (hs : s.Formed) : (s.mapQueue q hw).Formed := by
  unfold State.mapQueue
  dsimp only
  split
  · exact hs
  · split
    · exact hs.noteTable
    · exact .ite hs.noteTable hs.noteTable.vaNote.modQueue.notifyQueue

theorem execQueueSlotMap_formed (hs : s.Formed) : Out.Formed (execQueueSlotMap q hwSlot s) :=
  .next (.ite hs.mapQueue hs)

theorem execQueueSlotUnmap_formed (hs : s.Formed) : Out.Formed (execQueueSlotUnmap q s) := by
  unfold execQueueSlotUnmap
  split
  · exact .next hs
  · exact .next hs.modQueue.putQueue

theorem execQueueCreate_formed {ring size qgroup : Nat} {flags : BitVec 16} {readAddr wake : Nat} (hs : s.Formed) :
    (execQueueCreate q ring size qgroup flags rcb readAddr wake s).Formed :=
  hs.serveWith fun _ ht => .iteFst ht (State.Formed.putQueue ht)

theorem execQueueMap_formed (hs : s.Formed) : Out.Formed (execQueueMap q hwSlot s) := by
  unfold execQueueMap
  refine State.Formed.serveWith hs (fun _ ht => ?_)
  split
  · exact ht
  · split
    · exact ht.mapQueue
    · exact ht

theorem execQueueDelete_formed (hs : s.Formed) : Out.Formed (execQueueDelete q s) := by
  unfold execQueueDelete
  refine State.Formed.serveWith hs (fun _ ht => ?_)
  dsimp only
  split
  · exact ht
  · split
    · exact ht
    · exact ht

theorem State.Formed.noteUnits {q : Queue} (hs : s.Formed) : (s.noteUnits q n).Formed :=
  hs.foldl fun _ _ ht => ht.vaNote

theorem State.Formed.writeCompletion {at_ value : BitVec 64} (hs : s.Formed) :
    (s.writeCompletion rcb at_ value status).Formed := .ite hs hs.vaStore.vaStore

theorem State.Formed.completePacket {k : Nat} (hs : s.Formed) : (s.completePacket k status).Formed := by
  unfold State.completePacket
  dsimp only
  split
  · exact hs
  · exact hs.writeCompletion

theorem State.Formed.advanceRead (hs : s.Formed) : (s.advanceRead q n).Formed := by
  unfold State.advanceRead
  dsimp only
  split
  · exact hs.modQueue
  · exact hs.modQueue.vaStore

theorem State.Formed.enterPacket {b : List Byte} {kind : PacketKind} {graph : GraphRun} (hs : s.Formed) :
    (s.enterPacket q b kind graph).1.Formed := .advanceRead hs

theorem State.Formed.parse {soon : Bool} {f : Queue → List Byte → State → State} (hs : s.Formed)
    (hf : ∀ x0 x1 s', s'.Formed → (f x0 x1 s').Formed) : (s.parse q row soon f).Formed := by
  unfold State.parse
  split
  · exact hs
  · split
    · exact hs
    · exact .ite hs (.ite hs.noteUnits.advanceRead.writeCompletion (.ite hs (.ite hs (hf _ _ _ hs.noteUnits))))

theorem State.Formed.parseNow {f : List Byte → State → State × BitVec 64} (hs : s.Formed)
    (hf : ∀ x0 s', s'.Formed → (f x0 s').1.Formed) : Out.Formed (s.parseNow q row f) :=
  .next (hs.parse fun _ _ _ ht => .ite ht.advanceRead.writeCompletion (.writeCompletion (hf _ _ ht.advanceRead)))

theorem execWaitPacket_formed (hs : s.Formed) : Out.Formed (execWaitPacket q s) := by
  unfold execWaitPacket
  refine .next ?_
  refine .parse hs (fun _ _ _ ht => ?_)
  split
  · exact ht.advanceRead.writeCompletion
  · exact ht.enterPacket

theorem State.Formed.waitNote {p : Packet} (hs : s.Formed) : (s.waitNote p).Formed := by
  unfold State.waitNote
  split
  · exact hs.vaNote
  · exact hs
  · exact hs

theorem execWaitConditionMet_formed {pkt : Nat} (hs : s.Formed) : Out.Formed (execWaitConditionMet pkt s) := by
  unfold execWaitConditionMet
  split
  · exact .next hs
  · exact .next (.ite hs.waitNote.completePacket hs)

theorem execKvTableSet_formed (hs : s.Formed) : Out.Formed (execKvTableSet q s) := hs.parseNow fun _ _ ht => ht

theorem execRegisterWrite_formed (hs : s.Formed) : Out.Formed (execRegisterWrite off v s) := by
  unfold execRegisterWrite
  split
  · exact .next hs.doorbell
  · split
    · exact execEventWrite_formed hs
    · split
      · exact execNtailWrite_formed hs
      · split
        · exact .next hs.modHost
        · split
          · exact execNotifyWrite_formed hs
          · exact .next hs

end

/-! ## Regions and launches -/

section

variable {s : State} {top k q rcb c launch die pkt : Nat} {l : Launch} {g : Group} {cs : List Contribution}
    {b : List Byte}

theorem State.Formed.reclip (hs : s.Formed) : (s.reclip top).Formed := by
  unfold State.reclip
  refine .foldl hs fun _ _ ht => ?_
  dsimp only
  split
  · exact ht.modRegion
  · exact ht.modRegion.engineStore

theorem State.Formed.registerRegion {bs : List Byte} {r : Region} (hs : s.Formed) :
    (s.registerRegion k bs r).1.Formed := by
  unfold State.registerRegion
  split
  · exact hs
  · split
    · exact hs
    · split
      · exact hs
      · split
        · exact hs
        · exact .reclip hs

theorem execRegionRegister_formed (hs : s.Formed) : Out.Formed (execRegionRegister q s) := by
  unfold execRegionRegister
  refine State.Formed.parseNow hs (fun _ _ ht => ?_)
  dsimp only
  split
  · exact ht.paNote
  · exact ht.paNote.registerRegion

theorem State.Formed.relevel (hs : s.Formed) : (s.relevel top).Formed := hs

theorem execRegionUpdate_formed (hs : s.Formed) : Out.Formed (execRegionUpdate q s) := by
  unfold execRegionUpdate
  refine State.Formed.parseNow hs (fun _ _ ht => ?_)
  dsimp only
  split
  · exact ht
  · exact ht.paNote
  · split
    · exact ht.paNote
    · split
      · exact ht.paNote
      · exact ht.paNote.modRegion.relevel.reclip

theorem State.Formed.disowned {rs : Table Region} {x : Xlat} (hs : s.Formed) :
    ({ s with regions := rs, xlat := x } : State).Formed := hs

theorem execRegionUnregister_formed (hs : s.Formed) : (execRegionUnregister q s).Formed := by
  refine hs.parseNow fun b s1 ht => ?_
  dsimp only
  split
  · exact ht
  · split
    · exact ht
    · exact .engineStore (.disowned (ht.foldl fun _ _ hu => hu.tlbDrop))

theorem execRegionSuspend_formed (hs : s.Formed) : Out.Formed (execRegionSuspend rcb s) := by
  unfold execRegionSuspend
  refine State.Formed.serveWith hs (fun _ ht => ?_)
  split
  · exact ht.suspendRegion
  · exact ht

theorem State.Formed.resumeRegion (hs : s.Formed) : (s.resumeRegion top).Formed := hs

theorem execRegionResume_formed (hs : s.Formed) : Out.Formed (execRegionResume rcb s) := by
  unfold execRegionResume
  refine State.Formed.serveWith hs (fun _ ht => ?_)
  split
  · exact ht.resumeRegion
  · exact ht

theorem execRegionKill_formed (hs : s.Formed) : Out.Formed (execRegionKill rcb s) := by
  unfold execRegionKill
  refine State.Formed.serveWith hs (fun _ ht => ?_)
  split
  · exact ht.killRegion
  · exact ht

theorem State.Formed.takeSpare {a : Nat} (hs : s.Formed) : (s.takeSpare c a).Formed := .ite hs.modCluster hs

theorem State.Formed.startLaunch {m : LaunchImage} (hs : s.Formed) : (s.startLaunch k l rcb m).Formed := .pin hs

theorem State.Formed.rejectLaunch {reason : Nat} (hs : s.Formed) : (s.rejectLaunch k reason).Formed := hs.modLaunch

theorem execLaunchStart_formed (hs : s.Formed) : (execLaunchStart launch s).Formed := by
  unfold execLaunchStart
  split
  · exact .next hs
  · split
    · exact .next hs
    · split
      · exact .next hs.rejectLaunch
      · dsimp only
        split
        · exact .next hs.rejectLaunch
        · exact .ite (.next (.startLaunch hs.vaNote)) (.next hs)

theorem execGangClaim_formed (hs : s.Formed) : Out.Formed (execGangClaim launch die s) := by
  unfold execGangClaim
  dsimp only
  split
  · exact .next hs
  · split
    · exact .next hs
    · exact .next hs.modLaunch

theorem State.Formed.firstDescriptor (hs : s.Formed) : (s.firstDescriptor k g).Formed := by
  unfold State.firstDescriptor
  split
  · exact hs
  · exact hs.deviceStore.putDescriptor

theorem State.Formed.createGroup {pl : Place} {pos : Position} (hs : s.Formed) : (s.createGroup l pl pos).Formed := by
  unfold State.createGroup
  dsimp only
  split
  · exact hs
  · exact .setGroup (.pin (.binPlace hs))

theorem State.Formed.enroll (hs : s.Formed) : (s.enroll k).Formed := by
  unfold State.enroll
  split
  · exact hs
  · dsimp only
    refine .firstDescriptor ?_
    split
    · next s1 hr _ => exact State.Formed.setGroup (hs.ctxPut hr)
    · next s1 hr _ => exact hs.ctxPut hr
    · exact hs.setGroup
    · exact hs.setGroup

theorem State.Formed.placedOne (hs : s.Formed) : (s.placedOne k die).Formed := by
  unfold State.placedOne
  dsimp only
  split
  · exact hs
  · split
    · exact hs.modLaunch.unpin
    · exact hs.modLaunch

theorem State.Formed.placeGang {gangid : Nat} (hs : s.Formed) : (s.placeGang k l gangid c).Formed :=
  .foldl (.foldl hs fun _ _ ht => ht.createGroup) fun _ _ ht => ht.enroll

theorem execGangPlace_formed (hs : s.Formed) : Out.Formed (execGangPlace launch die s) := by
  unfold execGangPlace
  split
  · exact .next hs
  · split
    · exact .next hs
    · split
      · exact .next hs.placeGang.placedOne
      · exact .next hs

theorem State.Formed.logRetirement (hs : s.Formed) : (s.logRetirement g).Formed := by
  unfold State.logRetirement
  refine .foldl hs fun _ _ ht => ?_
  split
  · exact ht
  · exact .ite ht.appendLog ht

theorem State.Formed.retireGang {gang : Nat} (hs : s.Formed) : (s.retireGang gang launch).Formed := by
  unfold State.retireGang
  split
  · exact hs
  · exact Memory.wf_drop _ _ hs

theorem State.Formed.retireGroup (hs : s.Formed) : (s.retireGroup k g).Formed := by
  have ht : ((s.logRetirement g).unpin g.view.holder g.pinSlot).Formed := hs.logRetirement.unpin
  exact .retireGang ht

theorem execGroupRetire_formed {grp : Nat} (hs : s.Formed) : Out.Formed (execGroupRetire grp s) := by
  unfold execGroupRetire
  dsimp only
  split
  · exact .next hs
  · split
    · exact .next hs
    · split
      · exact .next hs.setGroup.toFaultDomain
      · exact .next hs.retireGroup

theorem State.Formed.closeWord {f64 : Bool} {pa : Nat} (hs : s.Formed) : (s.closeWord f64 pa cs).Formed := by
  unfold State.closeWord
  dsimp only
  split
  · exact hs.homeViolation fun _ ht => ht
  · exact hs.engineStore

theorem State.Formed.closeContributions (hs : s.Formed) : (s.closeContributions cs).Formed :=
  hs.foldl fun _ _ ht => ht.closeWord

theorem State.Formed.closeEpochs (hs : s.Formed) : (s.closeEpochs l).Formed := hs.closeContributions

theorem State.Formed.modGraph {f : GraphRun → GraphRun} (hs : s.Formed) : (s.modGraph k f).Formed := hs

theorem State.Formed.settleGraph (hs : s.Formed) : (s.settleGraph k).Formed := by
  unfold State.settleGraph
  split
  · exact hs
  · exact .ite hs.completePacket hs

theorem State.Formed.launchDone {status : BitVec 64} (hs : s.Formed) : (s.launchDone k pkt status).Formed := by
  unfold State.launchDone
  split
  · exact hs
  · split
    · exact hs.completePacket
    · exact hs.modGraph.settleGraph
    · exact hs

theorem execLaunchComplete_formed (hs : s.Formed) : (execLaunchComplete launch s).Formed := by
  unfold execLaunchComplete
  split
  · exact .next hs
  · next l _ =>
    split
    · exact .next hs
    · have hc : (if l.killed then s else s.closeEpochs l).Formed := .ite hs hs.closeEpochs
      refine .next (.launchDone (Memory.wf_drop _ _ ?_))
      split
      · exact hc
      · exact hc.unpin

theorem State.Formed.addLaunch {addr : BitVec 64} {after : List Nat} (hs : s.Formed) :
    (s.addLaunch q pkt addr after).1.Formed := hs

theorem execLaunchPacket_formed (hs : s.Formed) : Out.Formed (execLaunchPacket q s) :=
  .next (hs.parse fun _ _ _ ht => ht.enterPacket.addLaunch)

theorem State.Formed.exitLoop {at_ : BitVec 64} {code count : Nat} {loops : List LoopRun} (hs : s.Formed) :
    (s.exitLoop pkt rcb at_ b code count loops).Formed := hs.vaStore.vaStore.modGraph.settleGraph

theorem State.Formed.runNode {p : Packet} (hs : s.Formed) : (s.runNode pkt p).Formed := by
  unfold State.runNode
  dsimp only
  split
  · exact hs.modGraph.settleGraph
  · exact .ite (.ite hs.vaNote.exitLoop hs.vaNote.modGraph) (.ite hs.vaNote.modGraph.settleGraph
      hs.vaNote.addLaunch.modGraph.settleGraph)

theorem execGraphPacket_formed (hs : s.Formed) : Out.Formed (execGraphPacket q s) := by
  unfold execGraphPacket
  dsimp only
  split
  · split
    · exact .next hs.runNode
    · exact .next hs.modGraph.settleGraph
  · exact .next (hs.parse fun _ _ _ ht => ht.enterPacket)

theorem State.Formed.loopNote (hs : s.Formed) : (s.loopNote rcb b).Formed :=
  .ite (.ite hs hs.vaNote) (.vaNote (.ite hs hs.vaNote))

theorem execLoopIteration_formed (hs : s.Formed) : Out.Formed (execLoopIteration pkt s) := by
  unfold execLoopIteration
  dsimp only
  split
  · exact .next hs
  · split
    · exact .next hs
    · split
      · exact .next hs
      · split
        · exact .next hs.modGraph.settleGraph
        · split
          · exact .next (.exitLoop (.ite hs.vaNote hs.vaNote.loopNote))
          · exact .next (.modGraph (.vaStore (.ite hs.vaNote hs.vaNote.loopNote)))

end

/-! ## Preempted gangs and requests of the host -/

section

variable {s : State} {k slot gang cluster c rcb id code : Nat} {gen : BitVec 16} {q : PeerRequest}

theorem State.Formed.reloadPanel {p : Panel} (hs : s.Formed) : (s.reloadPanel k slot p).Formed := by
  unfold State.reloadPanel
  dsimp only
  split
  · exact hs
  · exact .modGroup hs

theorem State.Formed.reloadPanels (hs : s.Formed) : (s.reloadPanels gang).Formed := by
  unfold State.reloadPanels
  split
  · exact hs.foldl fun _ _ ht => ht.reloadPanel
  · exact hs

theorem State.Formed.moveGroup {cores : List Nat} (hs : s.Formed) : (s.moveGroup cores k).Formed := by
  unfold State.moveGroup
  dsimp only
  split
  · exact hs
  · exact hs.binPlace.setGroup.putDescriptor

theorem execGangResume_formed (hs : s.Formed) : Out.Formed (execGangResume gang cluster s) := by
  unfold execGangResume
  dsimp only
  split
  · exact .next hs
  · split
    · exact .next hs
    · split
      · exact .next hs
      · exact .next (.reloadPanels (.modGang (.foldl (.modGang (.ite hs hs.takeSpare)) fun _ _ ht => ht.moveGroup)))

theorem State.Formed.moveWindows {t : Nat} (hs : s.Formed) : (s.moveWindows c t).Formed :=
  State.Formed.foldl (.ite hs hs.takeSpare) fun s _ ht => (State.Formed.setMem (s := s) (Memory.wf_moveRange _ _ _
    ht) :)

theorem State.Formed.interrupted (hs : s.Formed) : (s.interrupted rcb).Formed := by
  unfold State.interrupted
  split
  · exact hs.killRegion
  · exact hs.suspendRegion
  · exact hs.notice

theorem State.Formed.displace {p : Gang → Bool} (hs : s.Formed) : (s.displace p).Formed :=
  hs.foldl fun _ _ ht => ht.forceGang.modGang

theorem State.Formed.moveAway (hs : s.Formed) : (s.moveAway c).1.Formed := by
  unfold State.moveAway
  split
  · exact hs.moveWindows
  · exact hs

theorem State.Formed.interruptStranded {rs : List Nat} (hs : s.Formed) : (s.interruptStranded rs).Formed :=
  hs.foldl fun _ _ ht => ht.interrupted

theorem execUncorrectableError_formed {core : Option Nat} (hs : s.Formed) :
    Out.Formed (execUncorrectableError cluster core s) := by
  unfold execUncorrectableError
  dsimp only
  split
  · exact .next hs
  · split
    · exact .next hs.modCore.displace.interruptStranded
    · exact .next hs.modCluster.displace.moveAway.interruptStranded

theorem execInstall_formed {word : BitVec 64} (hs : s.Formed) : Out.Formed (execInstall rcb word gen s) := by
  unfold execInstall
  refine State.Formed.serveWith hs (fun _ ht => ?_)
  split
  · exact ht
  · exact ht.rootStep

theorem State.Formed.modHold {h : Nat} {f : Nat → Nat} (hs : s.Formed) : (s.modHold h slot f).Formed := hs.modRegion

theorem execHold_formed (hs : s.Formed) : Out.Formed (execHold rcb slot gen s) := by
  unfold execHold
  refine State.Formed.serveWith hs (fun _ ht => ?_)
  split
  · exact ht.modHold
  · exact ht

theorem execUnhold_formed (hs : s.Formed) : (execUnhold rcb slot gen s).Formed :=
  hs.serveWith fun _ ht => .iteFst ht ht

theorem execPassign_formed (hs : s.Formed) : Out.Formed (execPassign slot rcb s) := by
  unfold execPassign
  refine State.Formed.serveWith hs (fun _ ht => ?_)
  dsimp only
  split
  · exact ht
  · split
    · exact ht
    · exact ht

theorem execPfree_formed (hs : s.Formed) : Out.Formed (execPfree slot s) := by
  unfold execPfree
  refine State.Formed.serveWith hs (fun _ ht => ?_)
  dsimp only
  split
  · exact ht
  · exact ht

theorem State.Formed.putEntry {base : Option Nat} {bytes n v : Nat} (hs : s.Formed) :
    (s.putEntry base bytes n v).Formed := by
  unfold State.putEntry
  split
  · exact hs
  · exact hs.engineStore

theorem execImportSet_formed {entry : BitVec 128} (hs : s.Formed) : Out.Formed (execImportSet slot entry s) := by
  unfold execImportSet
  dsimp only
  split
  · exact .next hs
  · refine State.Formed.serveWith hs (fun _ ht => ?_)
    split
    · exact ht
    · exact ht.putEntry

theorem execExportSet_formed {entry : BitVec 512} (hs : s.Formed) : Out.Formed (execExportSet slot entry s) := by
  unfold execExportSet
  dsimp only
  split
  · exact .next hs
  · refine State.Formed.serveWith hs (fun _ ht => ?_)
    split
    · exact ht
    · exact ht.putEntry

theorem State.Formed.ingressError {reason : Nat} (hs : s.Formed) : (s.ingressError q reason).Formed := hs.violation

theorem State.Formed.peerPerform {pa : Nat} (hs : s.Formed) : (s.peerPerform q pa).Formed := by
  have hw {v : Option (BitVec 64)} : State.Formed (match v with
      | none => s
      | some v => s.storeBytes pa (leBytes q.size v.toNat)) := by
    cases v with
    | none => exact hs
    | some v => exact hs.storeBytes
  unfold State.peerPerform
  dsimp only
  split
  · exact hs.homeViolation fun _ ht => ht.violation
  · refine State.Formed.homeNote ?_
    split
    · exact hw
    · exact hw

theorem State.Formed.withXlat {x : Xlat} (hs : s.Formed) : ({ s with xlat := x } : State).Formed := hs

theorem State.Formed.ingressMemory (hs : s.Formed) : (s.ingressMemory q).Formed := by
  unfold State.ingressMemory
  dsimp only
  split
  · exact hs.peerPerform
  · exact hs.noteWalkEnd.ingressError
  · exact .withXlat (.pin hs.postRequest)

theorem execIngressRequest_formed {req : PeerRequest} (hs : s.Formed) : Out.Formed (execIngressRequest req s) := by
  unfold execIngressRequest
  dsimp only
  split
  · exact .next hs
  · split
    · exact .next hs.ingressError
    · split
      · exact .next hs
      · split
        · split
          · exact .next hs.secondRead.ingressError
          · exact .next hs.secondRead.peerPerform
        · exact .next hs.ingressMemory

theorem State.Formed.closePeer {importer : BitVec 22} {launch : Nat} (hs : s.Formed) :
    (s.closePeer importer launch).Formed := .closeContributions hs

theorem State.Formed.answerIngress {i : Ingress} {slot : Option Nat} (hs : s.Formed) :
    (s.answerIngress i slot).Formed := by
  unfold State.answerIngress
  refine .unpin ?_
  dsimp only
  split
  · exact hs.ingressError
  · split
    · exact hs.ingressError
    · split
      · exact hs.peerPerform
      · exact hs.ingressError
      · exact hs.noteWalkEnd.ingressError

theorem State.Formed.answer {page : Nat} {slot : Option Nat} (hs : s.Formed) : (s.answer id page slot).Formed :=
  .foldl (.foldl hs fun _ _ ht => ht.answerOps.answerFetch.answerSleep.answerCmds.answerCtx) fun _ _ ht =>
    ht.answerIngress

theorem State.Formed.discardAnswer (hs : s.Formed) : (s.discardAnswer id code).Formed := hs

theorem execAnswer_formed (hs : s.Formed) : (execAnswer id code slot s).Formed := by
  refine .ite (.next hs) (hs.serveWith fun s1 ht => ?_)
  split
  · exact ht.discardAnswer
  · split
    · exact ht.discardAnswer
    · exact ht.answer

end

/-! ## Debugging, profiling and the fabric -/

section

variable {rcb k grp buf count bytes part core n port seq : Nat} {s : State} {list log : BitVec 64} {dev : BitVec 22}

theorem execDebugAttach_formed (hs : s.Formed) : Out.Formed (execDebugAttach rcb s) := by
  unfold execDebugAttach
  refine State.Formed.serveWith hs (fun _ ht => ?_)
  dsimp only
  split
  · exact ht
  · exact ht

theorem execDebugComparatorWrite_formed {w : BitVec 128} (hs : s.Formed) :
    Out.Formed (execDebugComparatorWrite k w s) := by
  unfold execDebugComparatorWrite
  refine State.Formed.serveWith hs (fun _ ht => ?_)
  dsimp only
  split
  · exact ht
  · exact ht

theorem execDebugResume_formed {stepOne : Bool} (hs : s.Formed) : Out.Formed (execDebugResume grp stepOne s) := by
  unfold execDebugResume
  refine State.Formed.serveWith hs (fun _ ht => ?_)
  split
  · exact ht
  · split
    · exact ht.setGroup
    · exact ht

theorem execDebugReadAccumulator_formed {acc : BitVec 3} (hs : s.Formed) :
    Out.Formed (execDebugReadAccumulator grp acc buf s) := by
  unfold execDebugReadAccumulator
  refine State.Formed.serveWith hs (fun _ ht => ?_)
  split
  · exact ht
  · split
    · exact ht
    · split
      · exact ht
      · exact ht.engineStore

theorem State.Formed.tileRead {tile : BitVec 3} (hs : s.Formed) : Out.Formed (s.tileRead grp tile buf) := by
  unfold State.tileRead
  refine State.Formed.serveWith hs (fun _ ht => ?_)
  split
  · exact ht
  · split
    · exact ht
    · split
      · exact ht
      · exact ht.engineStore

theorem execDebugDetach_formed (hs : s.Formed) : Out.Formed (execDebugDetach s) := by
  unfold execDebugDetach
  refine State.Formed.serveWith hs (fun _ ht => ?_)
  dsimp only
  split
  · exact ht
  · exact ht

theorem State.Formed.noteHalts (hs : s.Formed) : (s.noteHalts).Formed := .ite hs (.ite hs hs)

theorem execFreeze_formed (hs : s.Formed) : Out.Formed (execFreeze s) := hs.serve fun _ _ ht => .ite (.respond ht) ht

theorem execFreezeDump_formed (hs : s.Formed) : Out.Formed (execFreezeDump buf s) :=
  hs.serve fun _ _ ht => .ite ht.respond (.ite ht (.ite (.respond ht) (.respond (.engineStore ht))))

theorem execFreezeThaw_formed (hs : s.Formed) : Out.Formed (execFreezeThaw s) := by
  unfold execFreezeThaw
  refine State.Formed.serveWith hs (fun _ ht => ?_)
  dsimp only
  split
  · exact ht
  · exact ht

theorem execReplayRecord_formed (hs : s.Formed) : Out.Formed (execReplayRecord rcb list count log bytes s) := by
  unfold execReplayRecord
  refine State.Formed.serveWith hs (fun _ ht => ?_)
  dsimp only
  split
  · exact ht
  · split
    · exact ht
    · exact (ht.foldl fun _ _ hu => hu.logStore).setRecorder

theorem State.Formed.beginReplay {ws : List Nat} {es : List ReplayEntry} {status : Nat} (hs : s.Formed) :
    (s.beginReplay rcb ws es status).Formed := .modRegion (.ite hs.endGate.armGate.disarm hs.endGate.armGate)

theorem execReplayArm_formed (hs : s.Formed) : Out.Formed (execReplayArm rcb list count log bytes s) := by
  unfold execReplayArm
  refine State.Formed.serveWith hs (fun _ ht => ?_)
  dsimp only
  split
  · exact ht
  · split
    · split
      · exact ht
      · split
        · exact ht
        · split
          · exact ht.beginReplay
          · exact ht
    · exact ht

theorem execReplayEnd_formed (hs : s.Formed) : Out.Formed (execReplayEnd rcb s) := by
  unfold execReplayEnd
  refine State.Formed.serveWith hs (fun _ ht => ?_)
  dsimp only
  split
  · exact ht
  · split
    · exact .setRecorder (.ite ht.recordStatus ht)
    · refine .modRegion ?_
      split
      · exact ht
      · exact .ite ht.endGate ht
    · exact ht

theorem execProfile_formed {snap ctl ring : Nat} (hs : s.Formed) :
    Out.Formed (execProfile part snap ctl ring bytes s) := by
  unfold execProfile
  refine State.Formed.serveWith hs (fun _ ht => ?_)
  dsimp only
  split
  · exact ht
  · split
    · exact ht
    · split
      · exact ht
      · exact ht

theorem State.Formed.writeSnapshot {p : Partition} {time : Nat} (hs : s.Formed) : (s.writeSnapshot p time).Formed :=
  hs.storeNat.deviceStore.deviceStore.deviceStore.storeNat.storeNat

theorem State.Formed.turnPartition (hs : s.Formed) : (s.turnPartition k).Formed := by
  unfold State.turnPartition
  dsimp only
  split
  · exact hs
  · split
    · exact hs.writeSnapshot.modPart
    · exact (hs.writeSnapshot.homeViolation fun _ ht => ht).modPart

theorem execProfilingInterval_formed (hs : s.Formed) : Out.Formed (execProfilingInterval s) := by
  unfold execProfilingInterval
  dsimp only
  split
  · exact .next hs
  · exact .next (hs.foldl fun _ _ ht => ht.turnPartition)

theorem execPcSample_formed (hs : s.Formed) : Out.Formed (execPcSample core part s) := by
  unfold execPcSample
  dsimp only
  split
  · exact .next hs
  · split
    · exact .next hs.modCore
    · exact .next hs.modCore.modCore.profRecord

theorem State.Formed.idleSlots (hs : s.Formed) : (s.idleSlots core n).Formed := hs.foldl fun _ _ ht => ht.modPart

theorem State.Formed.lostSlotsOn (hs : s.Formed) : (s.lostSlotsOn core n).Formed :=
  hs.foldl fun _ _ ht => .ite ht ht.modPart

theorem State.Formed.passTime (hs : s.Formed) : (s.passTime n).Formed :=
  .ite hs (((hs.foldl fun _ _ ht => ht.idleSlots).foldl fun _ _ ht => ht.lostSlotsOn).foldl fun _ _ ht => .ite
    ht.tally ht)

theorem State.Formed.modFab {f : Fabric → Fabric} (hs : s.Formed) : (s.modFab f).Formed := hs

theorem execPortBringUp_formed {peer : BitVec 22} {ok : Bool} (hs : s.Formed) :
    Out.Formed (execPortBringUp port peer ok s) := by
  unfold execPortBringUp
  split
  · exact .next hs
  · split
    · exact .next hs.modFab
    · exact .next hs.violation

theorem State.Formed.loseSleep (hs : s.Formed) : (s.loseSleep k seq).Formed := by
  unfold State.loseSleep
  split
  · exact hs
  · split
    · exact hs
    · exact hs.sleepStep

theorem State.Formed.loseCmd (hs : s.Formed) : (s.loseCmd dev k seq).Formed := by
  unfold State.loseCmd
  split
  · exact hs
  · next g _ =>
    split
    · exact hs
    · next c _ =>
      split
      · exact hs
      · dsimp only
        refine .ite hs (.settleCmd ?_)
        split
        · split
          · exact hs
          · exact hs.workRecord
        · exact hs.work

theorem State.Formed.loseDevice (hs : s.Formed) : (s.loseDevice dev).Formed :=
  .ite (((hs.foldl fun _ _ ht => ht.performAt).foldl fun _ _ ht => ht.loseSleep).foldl fun _ _ ht => ht.loseCmd)
    (((hs.foldl fun _ _ ht => ht.performAt).foldl fun _ _ ht => ht.loseSleep).foldl fun _ _ ht => ht.loseCmd)

theorem execPortLoss_formed (hs : s.Formed) : Out.Formed (execPortLoss port s) := by
  unfold execPortLoss
  dsimp only
  split
  · exact .next hs
  · split
    · exact .next hs.modFab
    · exact .next hs.modFab.loseDevice

theorem execLinkKeyRenewal_formed (hs : s.Formed) : Out.Formed (execLinkKeyRenewal port s) :=
  .next (.ite hs.modFab hs)

theorem State.Formed.sendFrames (hs : s.Formed) : (s.sendFrames port n).Formed := hs.modFab

theorem State.Formed.stepTime {t : Nat} (hs : s.Formed) : (s.stepTime t).Formed := hs

theorem execPtpEvent_formed {m : PtpMessage} (hs : s.Formed) : Out.Formed (execPtpEvent m s) := by
  unfold execPtpEvent
  dsimp only
  split
  · exact .next hs
  · exact .next (.modHost (.ite hs.stepTime hs))

theorem execThermalHalt_formed {celsius : Nat} (hs : s.Formed) : Out.Formed (execThermalHalt celsius s) := by
  unfold execThermalHalt
  dsimp only
  split
  · exact .next hs
  · exact .next (hs.foldl fun _ _ ht => ht.killRegion).modHost

theorem State.Formed.endShareWindow (hs : s.Formed) : (s.endShareWindow).Formed := .ite hs hs

end

/-! ## Every instruction -/

section

variable {s : State}

theorem exec_formed {i : Instr} (hs : s.Formed) : Out.Formed (exec i s) := by
  unfold exec
  cases i with
  | iadd | iaddi | isub | imul | imulh | imulhu | imad | imin | imax | iminu | imaxu | iabs | ineg | rng | movi
    | movhi | andL | orL | xorL | andn | shl | shr | sar | rol | bfx | bfxu | bfi | popc | clz | ctz | brev | cmovR
    | iaddmin | iaddmax | faddmin | badd | bfma | hadd | hfma | fmin | fmax | cvtRneF32Q4 | cvtRneQ4F32
    => exact hs.laneOp
  | iadc | isbb | sel | cvtsr | yield | nop | scan | sample | scmp | lread | sbcast | ballot | idxImm | idxReg
    | prioImm | prioReg | rootsw | preq | fence | stamp => exact hs.runGroup
  | icmp | itst | fcmp | dcmp | cmov | cmovV | cmovI => exact hs.laneFlags
  | addw | subw | shlw | shrw | sarw | mulw => exact hs.laneOpW
  | idivI32 | idivN32 | iremI32 | iremN32 => exact hs.longOp
  | fdiv | fsqrt | frcp | frsq | fexp2 | flog2 | fsin | fcos => exact hs.longFloat
  | ddiv | dsqrt => exact hs.longDouble
  | aaddN64 | aminI64 | amaxI64 | aminN64 | amaxN64 | aandN64 | aorN64 | axorN64 | axchgN64 | acasN64 | aaddN32
    | aminI32 | amaxI32 | aminN32 | amaxN32 | aandN32 | aorN32 | axorN32 | axchgN32 | acasN32 | ldaN32 | ldaN64
    | staN32 | staN64 => exact hs.memLA
  | ldI8 | ldN8 | ldI16 | ldN16 | ldN32 | ldN64 | ldN128 | stN8 | stN16 | stN32 | stN64 | stN128 => exact hs.memLM
  | ldk => exact execLdk_formed hs
  | ldProbe => exact execLdProbe_formed hs
  | faddOrdF32 | faddOrdF64 => exact hs.memFadd
  | bra | bral | wait | sread => exact hs.runWord fun _ _ _ ht => .next ht.setGroup
  | jmp | ret => exact hs.indirect
  | exit => exact hs.runWord fun _ _ _ ht => .next ht.setGroup.checkBarriers
  | fadd | fsub | fmul | ffma => exact hs.floatOp
  | dadd | dmul | dfma => exact hs.doubleOp
  | shfl | shflI | lsh | lshI | lrot | lrotI | bcast | bcastI => exact hs.crossbar
  | cvtRne | cvtRz | cvtRu | cvtRd => exact hs.convert
  | sadd | ssub | smul | smulh | sand | sor | sxor | sshl | sshr | ssar | smin | smax | ssel | smovi | smovhi | saddi
    => exact hs.uniOp
  | ubra | tret => exact hs.runGroup'
  | bar | gbar | arrive => exact hs.runWord fun _ _ _ ht => .next ht.arriveAt
  | sleep => exact execSleep_formed hs
  | refresh => exact hs.runWord fun _ _ _ ht => .next ht.setGroup.refreshGroup
  | tlbfFill => exact execTlbfFill_formed hs
  | tlbfReq => exact hs.tlbf fun _ _ _ ht => ht
  | tlbfBad => exact hs.tlbf fun _ _ _ ht => ht.malformedNotice
  | trap | brk => exact hs.runWord fun _ _ _ ht => .next ht.setGroup.raiseAtIssue
  | gateArm => exact execGateArm_formed hs
  | gateCancel => exact hs.runWord fun _ _ _ ht => .next ht.setGroup.endGate
  | pmark | pmarkV => exact hs.runWord fun _ _ _ ht => .next ht.setGroup.mark
  | sld | sst => exact hs.memGM
  | copy | chain | chwp | publ | rput | rtake | tld | wld | mma | azero | ast | blsub | blcol | qcast | creduce
    | tidset | tidget | stins | stlook | kvres => exact hs.issueEngine
  | swrite => exact execSwrite_formed hs
  | reset | i3cResetRequest => exact .next hs.resetFrom
  | image => exact execImage_formed hs
  | boot => exact execBoot_formed hs
  | config | release => exact hs.serveWith fun _ ht => ht
  | attest => exact hs.serve fun _ _ ht => ht.respond
  | vlog => exact hs.serve fun _ _ ht => .respond ht
  | queueCreate => exact execQueueCreate_formed hs
  | queueMap => exact execQueueMap_formed hs
  | queueDelete => exact execQueueDelete_formed hs
  | regionSuspend => exact execRegionSuspend_formed hs
  | regionResume => exact execRegionResume_formed hs
  | regionKill => exact execRegionKill_formed hs
  | install => exact execInstall_formed hs
  | hold => exact execHold_formed hs
  | unhold => exact execUnhold_formed hs
  | passign => exact execPassign_formed hs
  | pfree => exact execPfree_formed hs
  | answer => exact execAnswer_formed hs
  | importSet => exact execImportSet_formed hs
  | exportSet => exact execExportSet_formed hs
  | profile => exact execProfile_formed hs
  | debugAttach => exact execDebugAttach_formed hs
  | debugComparatorWrite => exact execDebugComparatorWrite_formed hs
  | debugResume => exact execDebugResume_formed hs
  | debugReadAccumulator => exact execDebugReadAccumulator_formed hs
  | debugDetach => exact execDebugDetach_formed hs
  | freeze => exact execFreeze_formed hs
  | freezeDump => exact execFreezeDump_formed hs
  | freezeThaw => exact execFreezeThaw_formed hs
  | replayRecord => exact execReplayRecord_formed hs
  | replayArm => exact execReplayArm_formed hs
  | replayEnd => exact execReplayEnd_formed hs
  | notifyWrite => exact execNotifyWrite_formed hs
  | eventWrite => exact execEventWrite_formed hs
  | ntailWrite => exact execNtailWrite_formed hs
  | registerWrite => exact execRegisterWrite_formed hs
  | queueSlotMap => exact execQueueSlotMap_formed hs
  | queueSlotUnmap => exact execQueueSlotUnmap_formed hs
  | launchPacket => exact execLaunchPacket_formed hs
  | graphPacket => exact execGraphPacket_formed hs
  | waitPacket => exact execWaitPacket_formed hs
  | waitConditionMet => exact execWaitConditionMet_formed hs
  | regionRegister => exact execRegionRegister_formed hs
  | regionUpdate => exact execRegionUpdate_formed hs
  | regionUnregister => exact execRegionUnregister_formed hs
  | kvTableSet => exact execKvTableSet_formed hs
  | launchStart => exact execLaunchStart_formed hs
  | gangClaim => exact execGangClaim_formed hs
  | gangPlace => exact execGangPlace_formed hs
  | launchComplete => exact execLaunchComplete_formed hs
  | loopIteration => exact execLoopIteration_formed hs
  | groupActivate => exact execGroupActivate_formed hs
  | groupEvict => exact execGroupEvict_formed hs
  | parkThreshold => exact execParkThreshold_formed hs
  | parkComplete => exact execParkComplete_formed hs
  | fairnessLimit => exact execFairnessLimit_formed hs
  | progressWaitLimit => exact execProgressWaitLimit_formed hs
  | watchdog => exact execWatchdog_formed hs
  | preemptRequest => exact execPreemptRequest_formed hs
  | noticeDeadline => exact execNoticeDeadline_formed hs
  | gangParkComplete => exact execGangParkComplete_formed hs
  | gangResume => exact execGangResume_formed hs
  | trapEntry => exact execTrapEntry_formed hs
  | valueLands => exact execValueLands_formed hs
  | lineFill => exact execLineFill_formed hs
  | storeQueueDepart => exact execStoreQueueDepart_formed hs
  | homeAccessPerform => exact execHomeAccessPerform_formed hs
  | walkStart => exact execWalkStart_formed hs
  | walkerInstructionLimit => exact execWalkerInstructionLimit_formed hs
  | logEntryReplay => exact execLogEntryReplay_formed hs
  | slotReclaim => exact execSlotReclaim_formed hs
  | rootswStep => exact execRootswStep_formed hs
  | sleepWake => exact execSleepWake_formed hs
  | publInstant => exact execPublInstant_formed hs
  | engineCommandStart => exact execEngineCommandStart_formed hs
  | engineCommandComplete => exact execEngineCommandComplete_formed hs
  | chainRecord => exact execChainRecord_formed hs
  | groupRetire => exact execGroupRetire_formed hs
  | gateTimeout => exact execGateTimeout_formed hs
  | pcComparatorMatch => exact execPcComparatorMatch_formed hs
  | profilingInterval => exact execProfilingInterval_formed hs
  | pcSample => exact execPcSample_formed hs
  | ingressRequest => exact execIngressRequest_formed hs
  | portBringUp => exact execPortBringUp_formed hs
  | portLoss => exact execPortLoss_formed hs
  | linkKeyRenewal => exact execLinkKeyRenewal_formed hs
  | ptpEvent => exact execPtpEvent_formed hs
  | powerThrottle => exact .next hs
  | thermalHalt => exact execThermalHalt_formed hs
  | uncorrectableError => exact execUncorrectableError_formed hs
  | shareWindowEnd => exact .next hs.endShareWindow
  | ptpReferenceLoss => exact .next (.modHost hs)

end

/-! ## Turns and steps -/

section

variable {p : Nat × Group} {s old : State} {k : Nat} {g : Group} {c : EngCmd} {a : OutAccess} {who : Agent}

/-- What is offered, when something is, has a property. -/
def Offers {α : Type} (P : α → Prop) (o : Option α) : Prop := ∀ ⦃x⦄, o = some x → P x

theorem Offers.none {α : Type} {P : α → Prop} : Offers P none := by
  rintro _ ⟨⟩

theorem Offers.some {α : Type} {P : α → Prop} {x : α} (h : P x) : Offers P (some x) := by
  rintro _ ⟨⟩
  exact h

theorem Offers.map {α β : Type} {P : α → Prop} {Q : β → Prop} {o : Option α} {f : α → β} (ho : Offers P o)
    (hf : ∀ x, P x → Q (f x)) : Offers Q (o.map f) := by
  cases o with
  | none => exact .none
  | some x => exact .some (hf x (ho rfl))

theorem Offers.mapAll {α β : Type} {Q : β → Prop} {o : Option α} {f : α → β} (hf : ∀ x, Q (f x)) :
    Offers Q (o.map f) := Offers.map (P := fun _ => True) (fun _ _ => trivial) fun x _ => hf x

theorem Offers.bind {α β : Type} {Q : β → Prop} {o : Option α} {f : α → Option β} (hf : ∀ x, Offers Q (f x)) :
    Offers Q (o.bind f) := by
  cases o with
  | none => exact .none
  | some x => exact hf x

theorem Offers.ite {α : Type} {P : α → Prop} {p : Prop} [Decidable p] {o u : Option α} (ho : Offers P o)
    (hu : Offers P u) : Offers P (if p then o else u) := by
  split
  · exact ho
  · exact hu

theorem Offers.dueIf {b : Bool} {f : Unit → Out} (hf : (f ()).Formed) : Offers Out.Formed (dueIf b f) :=
  .ite (.some hf) .none

theorem Offers.firstOf {α β : Type} {P : β → Prop} {f : α → Option β} {xs : List α} (hf : ∀ x, Offers P (f x)) :
    Offers P (firstOf f xs) := by
  induction xs with
  | nil => exact .none
  | cons x r ih =>
    unfold Sys2Proof.Machine.firstOf
    split
    · next i he => exact .some (hf x he)
    · exact ih

theorem Offers.firstOffer {α β : Type} {P : β → Prop} {x : α} {fs : List (α → Option β)}
    (hf : ∀ f ∈ fs, Offers P (f x)) : Offers P (firstOffer x fs) := by
  induction fs with
  | nil => exact .none
  | cons f r ih =>
    obtain ⟨h, hr⟩ := List.forall_mem_cons.mp hf
    unfold Sys2Proof.Machine.firstOffer
    split
    · next i he => exact .some (h he)
    · exact ih hr

theorem Offers.byControl {α : Type} {f : α → Option Out} {x : α} (hf : Offers Out.Formed (f x)) :
    Offers (·.2.Formed) (byControl f x) := .map hf fun _ h => h

theorem State.Formed.workOn (hs : s.Formed) : (s.workOn k g c).1.Formed := by
  unfold State.workOn
  split
  · split
    · exact hs.work
    · exact hs.workRecord
  · exact hs.work

theorem State.Formed.opDue {o : MemOp} (hs : s.Formed) : Offers Out.Formed (s.opDue k g o) := by
  refine .ite (.some (execValueLands_formed hs)) (.ite (.some (execLogEntryReplay_formed hs)) (.firstOf fun i => ?_))
  split
  · exact .none
  · exact .dueIf (execHomeAccessPerform_formed hs)

theorem State.Formed.memoryDue (hs : s.Formed) : Offers Out.Formed (s.memoryDue p) := by
  unfold State.memoryDue
  split
  · next o he => exact .some (Offers.firstOf (fun _ => hs.opDue) he)
  · split
    · exact .none
    · exact .dueIf (execStoreQueueDepart_formed hs)

theorem State.Formed.trapDue (hs : s.Formed) : Offers Out.Formed (s.trapDue p) := by
  unfold State.trapDue
  exact .dueIf (execTrapEntry_formed hs)

theorem State.Formed.sleepDue (hs : s.Formed) : Offers Out.Formed (s.sleepDue p) :=
  .firstOf fun _ => .dueIf (execSleepWake_formed hs)

theorem State.Formed.rootDue (hs : s.Formed) : Offers Out.Formed (s.rootDue p) := by
  unfold State.rootDue
  split
  · exact .none
  · exact .dueIf (execRootswStep_formed hs)

theorem State.Formed.timerDue (hs : s.Formed) : Offers Out.Formed (s.timerDue p) :=
  .ite (.some (execFairnessLimit_formed hs))
    (.ite (.some (execProgressWaitLimit_formed hs)) (.dueIf (execWatchdog_formed hs)))

theorem State.Formed.commandDue (hs : s.Formed) : Offers Out.Formed (s.commandDue k g c) := by
  have hd {r : EngineReply} : (execEngineCommandComplete k c.seq r s).Formed := execEngineCommandComplete_formed hs
  refine .ite (.some (execEngineCommandStart_formed hs)) (.ite (.dueIf hd) (.ite .none
    (.ite (.dueIf (execPublInstant_formed hs)) ?_)))
  split
  · exact .ite (.some hd) (.dueIf (execChainRecord_formed hs))
  · exact .dueIf hd

theorem State.Formed.engineDue (hs : s.Formed) : Offers Out.Formed (s.engineDue p) := .firstOf fun _ => hs.commandDue

theorem State.Formed.groupDue (hs : s.Formed) : Offers Out.Formed (s.groupDue p) :=
  .ite (.some (execParkComplete_formed hs)) <| .ite (.some (.next hs.restore)) <|
    .ite (.some (execParkThreshold_formed hs)) <| .ite (.some (execGroupActivate_formed hs)) <|
    .ite (.some (execGroupEvict_formed hs)) <| .ite (.some (execGroupRetire_formed hs)) <|
    .ite .none (.mapAll fun _ => execLineFill_formed hs)

theorem State.Formed.coreDue {p : Nat × Core} (hs : s.Formed) : Offers Out.Formed (s.coreDue p) :=
  .mapAll fun _ => .next hs.replaceLine

theorem State.Formed.gangDue {p : Nat × Gang} (hs : s.Formed) : Offers Out.Formed (s.gangDue p) :=
  .ite (.some (execNoticeDeadline_formed hs)) <| .ite (.some (execGangParkComplete_formed hs)) <|
    .mapAll fun _ => execGangResume_formed hs

theorem State.Formed.regionDue {p : Nat × Region} (hs : s.Formed) : Offers Out.Formed (s.regionDue p) := by
  unfold State.regionDue
  split
  · exact .some (execSlotReclaim_formed hs)
  · split
    · exact .none
    · exact .dueIf (execGateTimeout_formed hs)

theorem State.Formed.launchDue {p : Nat × Launch} (hs : s.Formed) : Offers Out.Formed (s.launchDue p) :=
  .ite (.some (execLaunchComplete_formed hs)) <| .ite (.dueIf (execLaunchStart_formed hs)) <|
    .firstOf fun _ => .ite (.some (execGangClaim_formed hs)) (.dueIf (execGangPlace_formed hs))

theorem State.Formed.packetStep {q row : Nat} (hs : s.Formed) : Out.Formed (s.packetStep q row) := by
  unfold State.packetStep
  split
  · exact execLaunchPacket_formed hs
  · exact execGraphPacket_formed hs
  · exact execWaitPacket_formed hs
  · exact execRegionRegister_formed hs
  · exact execRegionUpdate_formed hs
  · exact execRegionUnregister_formed hs
  · exact execKvTableSet_formed hs

theorem State.Formed.queueDue {p : Nat × Queue} (hs : s.Formed) : Offers Out.Formed (s.queueDue p) := by
  unfold State.queueDue
  split
  · exact .bind fun _ => .ite (.bind fun _ => .dueIf (execQueueSlotMap_formed hs)) .none
  · split
    · exact .some (execGraphPacket_formed hs)
    · split
      · exact .none
      · exact .dueIf hs.packetStep

theorem State.Formed.packetDue {p : Nat × Packet} (hs : s.Formed) : Offers Out.Formed (s.packetDue p) :=
  .ite (.some (execWaitConditionMet_formed hs)) (.dueIf (execLoopIteration_formed hs))

theorem State.Formed.walkerDue {p : Nat × Core} (hs : s.Formed) : Offers Out.Formed (s.walkerDue p) :=
  .dueIf (execWalkerInstructionLimit_formed hs)

theorem State.Formed.samplesDue {core : Nat} (hs : s.Formed) : Offers Out.Formed (s.samplesDue core) :=
  .firstOf fun _ => .dueIf (execPcSample_formed hs)

theorem State.Formed.profDue (hs : s.Formed) : Offers Out.Formed s.profDue := by
  unfold State.profDue
  split
  · exact .none
  · split
    · next o he => exact .some (Offers.firstOf (fun _ => hs.samplesDue) he)
    · exact .dueIf (execProfilingInterval_formed hs)

theorem State.Formed.linkDue (hs : s.Formed) : Offers Out.Formed s.linkDue :=
  .mapAll fun _ => execLinkKeyRenewal_formed hs

theorem State.Formed.freezeDue (hs : s.Formed) : Offers Out.Formed s.freezeDue := by
  unfold State.freezeDue
  split
  · exact .dueIf (execFreeze_formed hs)
  · split
    · exact .none
    · exact .dueIf (execFreezeDump_formed hs)

theorem State.Formed.due (hs : s.Formed) : Offers (·.2.Formed) s.due := by
  refine .firstOffer ?_
  simp only [List.forall_mem_cons, List.not_mem_nil, false_imp_iff, implies_true, and_true]
  exact ⟨.firstOf fun _ => .byControl hs.walkerDue, .firstOf fun _ => .map hs.memoryDue fun _ h => h,
    .firstOf fun _ => .byControl hs.trapDue, .firstOf fun _ => .byControl hs.sleepDue,
    .firstOf fun _ => .byControl hs.rootDue, .firstOf fun _ => .byControl hs.timerDue,
    .firstOf fun _ => .map hs.engineDue fun _ h => h, .firstOf fun _ => .byControl hs.groupDue,
    .firstOf fun _ => .byControl hs.coreDue, .firstOf fun _ => .byControl hs.gangDue,
    .firstOf fun _ => .byControl hs.regionDue, .ite .none (.firstOf fun _ => .byControl hs.packetDue),
    .ite .none (.firstOf fun _ => .byControl hs.launchDue), .ite .none (.firstOf fun _ => .byControl hs.queueDue),
    .ite .none (.byControl hs.profDue), .byControl hs.linkDue, .byControl hs.freezeDue⟩

theorem State.Formed.defaultMove (hs : s.Formed) : Offers (·.2.Formed) s.defaultMove := by
  unfold State.defaultMove
  split
  · exact .some (.next hs.serveWalk)
  · split
    · next x he => exact .some (hs.due he)
    · split
      · exact .none
      · exact .some (State.issueOn_formed (fun _ _ => exec_formed) hs)

theorem State.Formed.elapse {aclk ns : Nat} (hs : s.Formed) : (s.elapse aclk ns).Formed :=
  .ite hs (.endShareWindow hs.passTime)

theorem State.Formed.outside {sharer : Bool} {pa : Nat} (hs : s.Formed) : (s.outside sharer pa a).Formed := by
  unfold State.outside
  dsimp only
  split
  · exact hs
  · split
    · exact hs.homeViolation fun _ ht => ht.violation
    · split
      · exact hs.engineStore
      · exact hs.noteBytes

theorem State.Formed.hostVa {rcb : Nat} {va : BitVec 64} (hs : s.Formed) : (s.hostVa rcb va a).Formed := by
  unfold State.hostVa
  split
  · exact hs
  · split
    · exact hs
    · exact hs.outside

theorem State.Formed.spoil {line : Nat} {kind : Option ErrorKind} (hs : s.Formed) : (s.spoil line kind).Formed := by
  unfold State.spoil
  split
  · exact hs
  · exact hs
  · exact hs

theorem State.Formed.setCxlPort {port : Nat} {up : Bool} (hs : s.Formed) : (s.setCxlPort port up).Formed := hs.modFab

theorem State.Formed.modBoot {f : Boot → Boot} (hs : s.Formed) : (s.modBoot f).Formed := hs

theorem State.Formed.turn {t : Turn} (hs : s.Formed) : Out.Formed (s.turn t) := by
  unfold State.turn
  split
  · split
    · exact .fault
    · split
      · exact .next hs
      · exact exec_formed hs
  · exact State.issueOn_formed (fun _ _ ht => exec_formed ht) hs
  · exact .next hs.elapse
  · exact .next hs.outside
  · exact .next hs.hostVa
  · exact .next (.ite hs hs.deliver)
  · exact .next hs.closePeer
  · exact .next (.ite hs hs.serveWalk)
  · exact .next hs.replaceLine
  · exact .next hs.tlbForget
  · exact .next hs.modBoot
  · exact .next hs.modBoot
  · exact .next hs.modBoot
  · exact .next hs.modBoot
  · exact .next hs.clearError
  · exact .next hs.replicaTurn
  · exact .next hs.sendFrames
  · exact .next hs.restore
  · exact hs.tileRead
  · exact .next hs.spoil
  · exact .next hs.setCxlPort
  · exact .next hs.modFab

theorem State.Formed.noteDescriptor (hs : s.Formed) : (old.noteDescriptor s k).Formed := by
  unfold State.noteDescriptor
  split
  · split
    · exact hs
    · split
      · exact hs
      · exact .ite hs hs.putDescriptor
  · exact hs

theorem State.Formed.noteDescriptors (hs : s.Formed) : (old.noteDescriptors s).Formed :=
  hs.foldl fun _ _ ht => ht.noteDescriptor

theorem State.Formed.countRequests (hs : s.Formed) : (old.countRequests s).Formed := by
  unfold State.countRequests
  refine .foldl hs fun _ _ ht => ?_
  split
  · exact ht
  · exact ht.tally

theorem State.Formed.countEntries (hs : s.Formed) : (old.countEntries s).Formed := by
  unfold State.countEntries
  refine .foldl hs fun _ _ ht => ?_
  split
  · exact ht
  · exact .ite ht ht.tally

theorem State.Formed.countTurn (hs : s.Formed) : (old.countTurn s).Formed := .ite hs hs.countRequests.countEntries

theorem State.Formed.landLates (hs : s.Formed) : (s.landLates).Formed := hs.foldl fun _ _ ht => .ite ht ht.landLate

theorem State.Formed.noteWakes (hs : s.Formed) : (s.noteWakes).Formed := .ite hs hs

theorem State.Formed.settle (hs : s.Formed) : (old.settle who s).Formed :=
  hs.redoEarly.kvAdvanceAll.redoKnown.noteDescriptors.noteFetches.noteFills.countTurn.noteTurns.noteWakes.freeBins
    |>.landLates.noteHalts

theorem Out.settle_formed {o : Out} (hs : o.Formed) : (Out.settle old who o).Formed := by
  cases o with
  | next s => exact .next (State.Formed.settle hs)
  | fault _ => exact .fault
  | refused _ => exact trivial

theorem State.Formed.move (hs : s.Formed) : s.move.Formed := by
  unfold State.move
  split
  · exact Out.settle_formed (State.Formed.turn hs)
  · split
    · next x _ he => exact Out.settle_formed (hs.defaultMove he)
    · exact .next hs

/-- Settles O46: a step is a move, and every move ends in an outcome whose memory has the form. -/
theorem stepKeepsMemoryForm : Obligations.StepKeepsMemoryForm := by
  unfold Obligations.StepKeepsMemoryForm
  intro s t hs h
  have hm : Out.Formed (step s) := State.Formed.move hs
  rw [h] at hm
  exact hm

theorem State.Formed.step (hs : s.Formed) : Out.Formed (step s) := hs.move

end

end Sys2Proof.Machine

end

section

/-! A home that nothing gates or records leaves no note of an access, and no access of the control die changes the queues
and packets; the bytes of numbers and tables. -/

set_option Elab.async false

namespace Sys2Proof.Machine

/-! ## Notes at a home while nothing gates or records -/

section

variable {s : State} {pa n : Nat} {a : Accessor} {h : Option (BitVec 32)} {bs : List Byte}

theorem State.closeRuns_of_quiet (hq : Quiet s) : s.closeRuns pa a = s := by
  have hm : s.regions.map (fun p =>
      match p.2.recorder with
      | none => p
      | some r =>
        if a.named && a.mode == 2 && s.under p.1 a.region then p
        else (p.1, { p.2 with recorder := some (r.closeRun pa) })) = s.regions.map id :=
    List.map_congr_left fun p hp => by rw [(hq p hp).2]; rfl
  rw [List.map_id] at hm
  exact congrArg (fun r => { s with regions := r }) hm

theorem State.recordAccess_of_quiet (hq : Quiet s) : s.recordAccess pa a h = s := by
  have hf : (s.regions.filter fun p => p.2.recorder.isSome && s.under p.1 a.region) = [] :=
    List.filter_eq_nil_iff.mpr fun p hp => by simp [(hq p hp).2]
  simp [State.recordAccess, hf]

theorem State.gatesOn_of_quiet (hq : Quiet s) : s.gatesOn pa = [] :=
  List.filterMap_eq_nil_iff.mpr fun p hp => by rw [(hq p hp).1]

theorem State.homeNote_of_quiet (hq : Quiet s) : s.homeNote pa a h = (s, false) := by
  rw [State.homeNote, State.closeRuns_of_quiet hq, State.recordAccess_of_quiet hq, State.gateDone, State.gatesOn_of_quiet hq]
  rfl

theorem State.noteBytes_of_quiet (hq : Quiet s) : s.noteBytes pa n = s := by
  unfold State.noteBytes
  induction (((List.range n).map fun i => wordOf (pa + i)).eraseDups) with
  | nil => rfl
  | cons w r ih => rw [List.foldl_cons, State.homeNote_of_quiet hq, ih]

theorem Quiet.storeBytes (hq : Quiet s) : Quiet (s.storeBytes pa bs) := hq

theorem State.engineStore_of_quiet (hq : Quiet s) (hs : s.spoilt pa bs.length true = none) :
    s.engineStore pa bs = s.storeBytes pa bs := by
  rw [State.engineStore, hs]
  exact State.noteBytes_of_quiet hq.storeBytes

theorem State.paNote_of_quiet (hq : Quiet s) (hs : s.spoilt pa n false = none) : s.paNote pa n = s := by
  rw [State.paNote, hs]
  exact State.noteBytes_of_quiet hq

end

/-! ## What the accesses of the control die leave unchanged -/

section

variable {s : State} {pa n rcb idx v code : Nat} {a : Accessor} {h : Option (BitVec 32)} {bs : List Byte} {k : ErrorKind}
    {r : Recorder} {root va : BitVec 64}

@[simp] theorem State.violation_disp {x : BitVec 64} {y : BitVec 32} {i j : Nat} : (s.violation x y i j).disp = s.disp := by
  unfold State.violation
  dsimp only
  split
  · rfl
  · rfl

theorem State.homeViolation_disp {f : State → State} (hf : (f s).disp = s.disp) : (s.homeViolation pa k f).disp = s.disp := by
  cases k with
  | access => exact hf
  | integrity => exact State.violation_disp
  | poison => exact State.violation_disp

@[simp] theorem State.deviceStore_disp : (s.deviceStore pa bs).disp = s.disp := by
  unfold State.deviceStore
  split
  · rfl
  · exact State.homeViolation_disp State.violation_disp

@[simp] theorem State.storeNat_disp : (s.storeNat pa n v).disp = s.disp := State.deviceStore_disp

@[simp] theorem State.logStore_disp : (s.logStore rcb r idx n v).disp = s.disp := by
  unfold State.logStore
  split
  · rfl
  · exact State.storeNat_disp

@[simp] theorem State.recordStatus_disp : (s.recordStatus rcb r code).disp = s.disp := State.logStore_disp

theorem State.appendLog_disp : (s.appendLog rcb r bs).1.disp = s.disp := by
  unfold State.appendLog
  split
  · exact State.recordStatus_disp
  · split
    · exact State.recordStatus_disp
    · exact State.logStore_disp.trans State.deviceStore_disp

theorem State.recordOne_disp : (s.recordOne rcb r idx a h).disp = s.disp := by
  unfold State.recordOne
  split
  · exact State.recordStatus_disp
  · dsimp only
    split
    · cases h with
      | none => exact State.logStore_disp
      | some x => exact (State.logStore_disp.trans State.logStore_disp).trans State.logStore_disp
    · split
      · exact State.appendLog_disp
      · exact State.appendLog_disp

theorem State.foldl_disp {α : Type} {f : State → α → State} {l : List α} (hf : ∀ s x, (f s x).disp = s.disp) :
    (l.foldl f s).disp = s.disp := by
  induction l generalizing s with
  | nil => rfl
  | cons x r ih => exact ih.trans (hf s x)

theorem State.recordAccess_disp : (s.recordAccess pa a h).disp = s.disp := by
  unfold State.recordAccess
  split
  · rfl
  · refine State.foldl_disp fun s p => ?_
    split
    · rfl
    · split
      · rfl
      · exact State.recordOne_disp

theorem State.disarm_disp : (s.disarm rcb code).disp = s.disp := by
  unfold State.disarm
  split
  · rfl
  · split
    · rfl
    · exact State.storeNat_disp

theorem State.gateOne_disp : (s.gateOne rcb pa a h).1.disp = s.disp := by
  unfold State.gateOne
  split
  · rfl
  · dsimp only
    split
    · split
      · rfl
      · dsimp only
        split
        · exact State.disarm_disp
        · rfl
    · rfl

theorem State.gateDone_disp : (s.gateDone pa a h).1.disp = s.disp := by
  unfold State.gateDone
  generalize s.gatesOn pa = gs, false = b
  induction gs generalizing s b with
  | nil => rfl
  | cons p r ih => exact (ih _).trans State.gateOne_disp

theorem State.homeNote_disp : (s.homeNote pa a h).1.disp = s.disp :=
  State.gateDone_disp.trans State.recordAccess_disp

theorem State.noteBytes_disp : (s.noteBytes pa n).disp = s.disp := State.foldl_disp fun _ _ => State.homeNote_disp

@[simp] theorem State.engineStore_disp : (s.engineStore pa bs).disp = s.disp := by
  unfold State.engineStore
  split
  · exact State.noteBytes_disp
  · exact State.deviceStore_disp

@[simp] theorem State.putQueue_disp {q : Nat} : (s.putQueue q).disp = s.disp := by
  unfold State.putQueue
  split
  · exact State.engineStore_disp
  · rfl

theorem State.paNote_disp : (s.paNote pa n).disp = s.disp := by
  unfold State.paNote
  split
  · exact State.noteBytes_disp
  · exact State.homeViolation_disp State.violation_disp

theorem State.noteWalkEnd_disp : (s.noteWalkEnd root va).disp = s.disp := by
  unfold State.noteWalkEnd
  split
  · rfl
  · rfl
  · rfl
  · exact State.homeViolation_disp rfl

theorem State.pageNote_disp : (s.pageNote rcb va n).disp = s.disp := by
  unfold State.pageNote
  split
  · dsimp only
    split
    · exact State.noteWalkEnd_disp
    · rfl
  · exact State.paNote_disp

@[simp] theorem State.vaNote_disp : (s.vaNote rcb va n).disp = s.disp := by
  unfold State.vaNote
  dsimp only
  split
  · exact State.pageNote_disp
  · exact State.pageNote_disp.trans State.pageNote_disp

end

/-! ## Bytes of tables and of numbers -/

section

variable {t : Table Byte} {bs r : List Byte} {i off n m v : Nat}

theorem getD_leBytes (h : i < n) : (leBytes n v).getD i 0#8 = BitVec.ofNat 8 (v / 256 ^ i) := by
  induction n generalizing v i with
  | zero => omega
  | succ n ih =>
    cases i with
    | zero => simp [leBytes]
    | succ i => simpa [leBytes, Nat.div_div_eq_div_mul, Nat.pow_succ, Nat.mul_comm] using ih (v := v / 256) (i := i) (by omega)

theorem leNat_div_mod (bs : List Byte) (j : Nat) : leNat bs / 256 ^ j % 256 = (bs.getD j 0#8).toNat := by
  induction bs generalizing j with
  | nil => simp [leNat]
  | cons b r ih =>
    have hb := b.isLt
    cases j with
    | zero => simp only [leNat, Nat.pow_zero, Nat.div_one, List.getD_cons_zero]; omega
    | succ j =>
      have hd : (b.toNat + 256 * leNat r) / 256 = leNat r := by omega
      rw [leNat, Nat.pow_succ', ← Nat.div_div_eq_div_mul, hd, ih, List.getD_cons_succ]

theorem leNat_lt (bs : List Byte) : leNat bs < 256 ^ bs.length := by
  induction bs with
  | nil => simp [leNat]
  | cons b r ih =>
    have hb := b.isLt
    rw [leNat, List.length_cons, Nat.pow_succ]
    omega

theorem getD_foldl_put_zip (i : Nat) (bs : List Byte) (t : Table Byte) :
    Table.getD (((List.range' i bs.length).zip bs).foldl (fun t p => Table.put 0#8 t (off + p.1) p.2) t) n 0#8 =
      if off + i ≤ n ∧ n < off + i + bs.length then bs.getD (n - (off + i)) 0#8 else Table.getD t n 0#8 := by
  induction bs generalizing i t with
  | nil => simp
  | cons b r ih =>
    rw [List.length_cons, List.range'_succ, List.zip_cons_cons, List.foldl_cons, ih, Table.getD_put]
    by_cases hn : n = off + i
    · subst hn
      rw [if_neg (by omega), if_pos rfl, if_pos (by omega), Nat.sub_self, List.getD_cons_zero]
    · by_cases hr : off + (i + 1) ≤ n ∧ n < off + (i + 1) + r.length
      · rw [if_pos hr, if_pos (by omega), show n - (off + i) = n - (off + (i + 1)) + 1 by omega, List.getD_cons_succ]
      · rw [if_neg hr, if_neg hn, if_neg (by omega)]

/-- Bytes put into a table stand there, and the others stay. -/
theorem getD_putBytesAt (t : Table Byte) (off : Nat) (bs : List Byte) (n : Nat) :
    Table.getD (putBytesAt t off bs) n 0#8 =
      if off ≤ n ∧ n < off + bs.length then bs.getD (n - off) 0#8 else Table.getD t n 0#8 := by
  rw [putBytesAt, List.range_eq_range']
  exact getD_foldl_put_zip 0 bs t

theorem tableBytes_putBytesAt (t : Table Byte) (off : Nat) (bs : List Byte) :
    tableBytes (putBytesAt t off bs) off bs.length = bs := by
  refine List.ext_getElem (by simp [tableBytes]) fun i _ hi => ?_
  simp only [tableBytes, List.getElem_map, List.getElem_range, getD_putBytesAt]
  rw [if_pos (by omega), Nat.add_sub_cancel_left, List.getD_eq_getElem _ _ hi]

theorem getD_tableBytes (h : i < n) : (tableBytes t off n).getD i 0#8 = Table.getD t (off + i) 0#8 := by
  simp [tableBytes, List.getD_eq_getElem?_getD, h]

/-- A byte of the 8 bytes that a register reads from a table. -/
theorem extract_tableBytes (h : i < 8) :
    (BitVec.ofNat 64 (leNat (tableBytes t off 8))).extractLsb' (8 * i) 8 = Table.getD t (off + i) 0#8 := by
  have hl : (tableBytes t off 8).length = 8 := by simp [tableBytes]
  have hlt : leNat (tableBytes t off 8) < 2 ^ 64 := by
    have h8 := leNat_lt (tableBytes t off 8)
    rw [hl] at h8
    omega
  apply BitVec.eq_of_toNat_eq
  rw [BitVec.extractLsb'_toNat, BitVec.toNat_ofNat, Nat.mod_eq_of_lt hlt, Nat.shiftRight_eq_div_pow, Nat.pow_mul,
    ← getD_tableBytes h]
  exact leNat_div_mod _ _

theorem fieldAt_skip (h : m ≤ off) : fieldAt (leBytes m v ++ r) off n = fieldAt r (off - m) n := by
  have hl := leBytes_length m v
  rw [fieldAt, List.drop_append, List.drop_eq_nil_of_le (by omega), hl, List.nil_append]
  rfl

theorem fieldAt_head : fieldAt (leBytes n v ++ r) 0 n = v % 256 ^ n := by
  rw [fieldAt, List.drop_zero, List.take_left' (leBytes_length n v), leNat_leBytes]

end

end Sys2Proof.Machine

end

section

/-! The host's registers and the queues (O51): what each register does and reads, the descriptor of a queue in its table,
notify writes, and the requests about queues. -/

set_option Elab.async false

namespace Sys2Proof.Machine

/-! ## The host's registers -/

theorem event_clear (e : BitVec 3) (v : BitVec 64) (b : Nat) (hb : b < 3) :
    (e &&& ~~~ v.setWidth 3).getLsbD b = (e.getLsbD b && !v.getLsbD b) := by
  rw [BitVec.getLsbD_and, BitVec.getLsbD_not, BitVec.getLsbD_setWidth, decide_eq_true hb, Bool.true_and, Bool.true_and]

/-- The one notice that waits goes into the ring when there is room. -/
theorem placeNotices_one {h : HostIf} {b : List Byte} {m : Nat} (hb : h.backlog = [b]) (hn : h.nhead + 1#7 ≠ h.ntail) :
    placeNotices (m + 2) h = { h with
      notices := ((List.range 32).zip b).foldl (fun t p => Table.put 0#8 t (32 * h.nhead.toNat + p.1) p.2) h.notices
      nhead := h.nhead + 1#7
      event := h.event ||| 2#3
      backlog := [] } := by
  rw [placeNotices.eq_def]
  simp only [hb, if_neg hn]
  rw [placeNotices.eq_def]

theorem placeNotices_none {h : HostIf} {m : Nat} (hb : h.backlog = []) : placeNotices m h = h := by
  rw [placeNotices.eq_def]
  cases m with
  | zero => rfl
  | succ m => simp only [hb]

theorem placeNotices_ntail {h : HostIf} {m : Nat} : (placeNotices m h).ntail = h.ntail := by
  induction m generalizing h with
  | zero => rfl
  | succ m ih =>
    rw [placeNotices.eq_def]
    dsimp only
    split
    · rfl
    · split
      · rfl
      · exact ih

theorem exec_registerWrite_doorbell (s : State) (v : BitVec 64) :
    exec (.registerWrite 0 v) s = .next (s.doorbell (v.setWidth 32)) := rfl

theorem exec_registerWrite_request {s : State} {v : BitVec 64} {off : Nat} (hlo : 0x1000 ≤ off) (hhi : off + 8 ≤ 0x2000) :
    exec (.registerWrite off v) s =
      .next (s.modHost fun h => { h with request := putBytesAt h.request (off - 0x1000) (leBytes 8 v.toNat) }) := by
  rw [exec_registerWrite, execRegisterWrite, if_neg (by omega), if_neg (by omega), if_neg (by omega),
    if_pos (by simp only [Bool.and_eq_true, decide_eq_true_eq]; omega)]

theorem exec_registerWrite_notify {s : State} {v : BitVec 64} {k : Nat} (hk : k < 65536) :
    exec (.registerWrite (0x10000 + 8 * k) v) s = exec (.notifyWrite k v) s := by
  rw [exec_registerWrite, execRegisterWrite, if_neg (by omega), if_neg (by omega), if_neg (by omega),
    if_neg (by simp only [Bool.and_eq_true, decide_eq_true_eq]; omega),
    if_pos (by simp only [Bool.and_eq_true, decide_eq_true_eq, beq_iff_eq]; omega), exec_notifyWrite,
    show (0x10000 + 8 * k - 0x10000) / 8 = k by omega]

theorem exec_eventWrite_frame (s : State) (v : BitVec 64) :
    ∃ t : State, exec (.eventWrite v) s = .next t ∧ { t with host := { t.host with event := s.host.event } } = s
      ∧ ∀ b, b < 3 → t.host.event.getLsbD b = (s.host.event.getLsbD b && !v.getLsbD b) :=
  ⟨_, rfl, rfl, event_clear _ _⟩

theorem exec_ntailWrite_frame (s : State) (v : BitVec 64) :
    ∃ t : State, exec (.ntailWrite v) s = .next t ∧ t.host.ntail = v.setWidth 7 ∧ { t with host := s.host } = s
      ∧ (s.host.backlog = [] → t.host = { s.host with ntail := v.setWidth 7 })
      ∧ ∀ b, s.host.backlog = [b] → b.length = 32 → s.host.nhead + 1#7 ≠ v.setWidth 7 →
        t.host.backlog = [] ∧ t.host.nhead = s.host.nhead + 1#7 ∧ tableBytes t.host.notices (32 * s.host.nhead.toNat) 32 = b
        ∧ t.host.event = s.host.event ||| 2#3 := by
  refine ⟨_, rfl, placeNotices_ntail, rfl, fun hb => placeNotices_none hb, fun b hb hl hn => ?_⟩
  have hp := placeNotices_one (h := { s.host with ntail := v.setWidth 7 }) (m := 0) hb hn
  have ht : (s.modHost fun h => placeNotices (h.backlog.length + 1) { h with ntail := v.setWidth 7 }).host =
      placeNotices 2 { s.host with ntail := v.setWidth 7 } := by simp only [State.modHost, hb, List.length_singleton]
  rw [ht, hp]
  refine ⟨rfl, rfl, ?_, rfl⟩
  have hr := tableBytes_putBytesAt s.host.notices (32 * s.host.nhead.toNat) b
  rw [putBytesAt, hl] at hr
  exact hr

theorem doorbell_ignored {s : State} {v : BitVec 32}
    (h : s.host.taken ≠ none ∨ v ≠ BitVec.ofNat 32 (leNat (tableBytes s.host.request 4 4))) : s.doorbell v = s := by
  rw [State.doorbell, if_pos (by simpa [Option.isSome_iff_ne_none] using h)]

/-- The request that the block holds. -/
def HostIf.block (h : HostIf) : Request :=
  { code := leNat (tableBytes h.request 0 2)
    len := BitVec.ofNat 16 (leNat (tableBytes h.request 2 2))
    seq := BitVec.ofNat 32 (leNat (tableBytes h.request 4 4))
    operands := tableBytes h.request 8 4088 }

theorem doorbell_rung {s : State} {v : BitVec 32} (ht : s.host.taken = none) (hv : v = s.host.block.seq) :
    s.doorbell v =
      if knownCodes.contains s.host.block.code && blockKnown s.host.block.code s.host.block.operands then
        s.modHost fun h => { h with taken := some s.host.block }
      else s.respond s.host.block notAccepted [] := by
  rw [State.doorbell, if_neg (by simp [ht, hv, HostIf.block])]
  rfl

theorem hostRegisters : Claims.HostRegisters := by
  intro s v off
  refine ⟨?_, ?_, ⟨fun h => ?_, fun ht hv => ⟨fun hc hk => ?_, fun h => ?_⟩⟩, fun hlo hhi => ?_, fun k => exec_registerWrite_notify⟩
  · rintro i (rfl | rfl)
    · exact exec_eventWrite_frame s v
    · exact exec_eventWrite_frame s v
  · rintro i (rfl | rfl)
    · exact exec_ntailWrite_frame s v
    · exact exec_ntailWrite_frame s v
  · rw [exec_registerWrite_doorbell, doorbell_ignored h]
  · rw [exec_registerWrite_doorbell, doorbell_rung ht hv, if_pos]
    · rfl
    · rw [Bool.and_eq_true, List.contains_iff_mem, knownCodes, HostIf.block]
      dsimp only
      exact ⟨hc, hk⟩
  · rw [exec_registerWrite_doorbell, doorbell_rung ht hv, if_neg]
    · rfl
    · rw [Bool.and_eq_true, not_and_or, List.contains_iff_mem, Bool.not_eq_true, knownCodes, HostIf.block]
      dsimp only
      exact h
  · refine ⟨_, exec_registerWrite_request hlo hhi, rfl, fun n => ?_⟩
    show Table.getD (putBytesAt s.host.request (off - 0x1000) (leBytes 8 v.toNat)) n 0#8 = _
    rw [getD_putBytesAt, leBytes_length]
    by_cases hn : off ≤ n + 0x1000 ∧ n + 0x1000 < off + 8
    · rw [if_pos (by omega), if_pos hn, getD_leBytes (by omega), show n + 0x1000 - off = n - (off - 0x1000) by omega]
      apply BitVec.eq_of_toNat_eq
      rw [BitVec.extractLsb'_toNat, BitVec.toNat_ofNat, Nat.shiftRight_eq_div_pow, Nat.pow_mul]
    · rw [if_neg (by omega), if_neg hn]

theorem bar0_status (h : HostIf) : h.bar0 0x0008 = h.status := rfl

theorem bar0_beyond {h : HostIf} {off : Nat} (ho : 0x4000 ≤ off) : h.bar0 off = 0#64 := by
  unfold HostIf.bar0
  simp only [Bool.and_eq_true, decide_eq_true_eq]
  rw [if_neg (by omega), if_neg (by omega), if_neg (by omega), if_neg (by omega), if_neg (by omega), if_neg (by omega),
    if_neg (by omega)]

theorem bar0_request {h : HostIf} {off : Nat} (hlo : 0x1000 ≤ off) (hhi : off + 8 ≤ 0x2000) :
    h.bar0 off = BitVec.ofNat 64 (leNat (tableBytes h.request (off - 0x1000) 8)) := by
  unfold HostIf.bar0
  simp only [Bool.and_eq_true, decide_eq_true_eq]
  rw [if_neg (by omega), if_neg (by omega), if_neg (by omega), if_neg (by omega), if_pos ⟨hlo, hhi⟩]

theorem bar0_response {h : HostIf} {off : Nat} (hlo : 0x2000 ≤ off) (hhi : off + 8 ≤ 0x3000) :
    h.bar0 off = BitVec.ofNat 64 (leNat (tableBytes h.response (off - 0x2000) 8)) := by
  unfold HostIf.bar0
  simp only [Bool.and_eq_true, decide_eq_true_eq]
  rw [if_neg (by omega), if_neg (by omega), if_neg (by omega), if_neg (by omega), if_neg (by omega), if_pos ⟨hlo, hhi⟩]

theorem bar0_notices {h : HostIf} {off : Nat} (hlo : 0x3000 ≤ off) (hhi : off + 8 ≤ 0x4000) :
    h.bar0 off = BitVec.ofNat 64 (leNat (tableBytes h.notices (off - 0x3000) 8)) := by
  unfold HostIf.bar0
  simp only [Bool.and_eq_true, decide_eq_true_eq]
  rw [if_neg (by omega), if_neg (by omega), if_neg (by omega), if_neg (by omega), if_neg (by omega), if_neg (by omega),
    if_pos ⟨hlo, hhi⟩]

theorem status_toNat (h : HostIf) :
    h.status.toNat = (match h.dev with | .recovery => 0 | .booting => 1 | .running => 2 | .halted => 3)
      + 2 ^ 2 * h.unconfigured.toNat + 2 ^ 3 * h.timeUnlocked.toNat + 2 ^ 32 * h.lastSeq.toNat := by
  have hs := h.lastSeq.isLt
  have hu := h.unconfigured.toNat_le
  have ht := h.timeUnlocked.toNat_le
  rw [HostIf.status, BitVec.toNat_ofNat]
  cases h.dev <;> dsimp only <;> omega

theorem hostReads : Claims.HostReads := by
  intro h off
  refine ⟨rfl, (congrArg BitVec.toNat (bar0_status h)).trans (status_toNat h), BitVec.toNat_setWidth_of_le (by decide : 3 ≤ 64),
    BitVec.toNat_setWidth_of_le (by decide : 7 ≤ 64), BitVec.toNat_setWidth_of_le (by decide : 7 ≤ 64),
    fun ho => bar0_beyond (by omega), fun j hj => ⟨fun hlo hhi => ?_, fun hlo hhi => ?_, fun hlo hhi => ?_⟩⟩
  · rw [bar0_request hlo hhi]
    exact extract_tableBytes hj
  · rw [bar0_response hlo hhi]
    exact extract_tableBytes hj
  · rw [bar0_notices hlo hhi]
    exact extract_tableBytes hj

/-! ## The queue table -/

section

variable {s : State} {k base : Nat} {x : Queue}

theorem Queue.toBytes_length (x : Queue) : x.toBytes.length = 64 := by
  simp only [Queue.toBytes, List.length_append, leBytes_length]

theorem State.putQueue_of_table (hx : Table.get? s.disp.queues k = some x) (hb : s.boot.queueTable = some base) :
    s.putQueue k = s.engineStore (base + 64 * k) x.toBytes := by
  simp only [State.putQueue, hb, State.queue?, hx]

theorem State.putQueue_of_noTable (hb : s.boot.queueTable = none) : s.putQueue k = s := by
  simp only [State.putQueue, hb]

/-- Part of the bytes just written is read back. -/
theorem Memory.nat_setBytes_part (m : Memory) {a off n : Nat} {bs : List Byte} (h : off + n ≤ bs.length) :
    (m.setBytes a bs).nat (a + off) n = fieldAt bs off n := by
  refine congrArg leNat (List.ext_getElem (by simp [Memory.bytes]; omega) fun i h1 h2 => ?_)
  have hi : i < n := by simpa [Memory.bytes] using h1
  simp only [Memory.bytes, List.getElem_map, List.getElem_range, Memory.byte_setBytes, List.getElem_take, List.getElem_drop]
  rw [if_pos (by omega), show a + off + i - a = off + i by omega, List.getD_eq_getElem _ _ (by omega)]

/-- The fields of a descriptor (20: R334). -/
theorem Queue.fieldAt_toBytes (x : Queue) :
    let field := fieldAt x.toBytes
    field 0x00 8 = x.ring.toNat ∧ field 0x08 4 = x.size % 2 ^ 32 ∧ field 0x0C 2 = x.qgroup % 2 ^ 16
      ∧ field 0x0E 2 = x.privileged.toNat + 2 * x.error.toNat ∧ field 0x10 8 = x.rcb % 2 ^ 64
      ∧ field 0x18 8 = x.readAddr.toNat ∧ field 0x20 8 = x.wake.toNat ∧ field 0x28 4 = x.savedWrite.toNat
      ∧ field 0x2C 4 = x.savedRead.toNat ∧ field 0x30 8 = 0 ∧ field 0x38 8 = 0 := by
  have hflags : (x.privileged.toNat + 2 * x.error.toNat) % 65536 = x.privileged.toNat + 2 * x.error.toNat := by
    have hp := x.privileged.toNat_le
    have hr := x.error.toNat_le
    omega
  have hzero : leBytes 16 0 = leBytes 8 0 ++ (leBytes 8 0 ++ []) := by decide
  simp only [Queue.toBytes, List.append_assoc, hzero, fieldAt_skip, fieldAt_head, hflags, Nat.reduceLeDiff, Nat.reduceSub,
    Nat.reducePow, Nat.sub_self, Nat.le_refl, Nat.zero_mod, and_true, true_and]
  omega

theorem queueTable : Claims.QueueTable := by
  intro s k base x hx hb hq hs
  have ht : s.putQueue k = s.storeBytes (base + 64 * k) x.toBytes := by
    rw [State.putQueue_of_table hx hb]
    exact State.engineStore_of_quiet hq (by rwa [Queue.toBytes_length])
  have hf (off n : Nat) {v : Nat} (h : off + n ≤ 64) (hv : fieldAt x.toBytes off n = v) :
      (s.putQueue k).mem.nat (base + 64 * k + off) n = v := by
    rw [ht, ← hv, State.storeBytes_mem]
    exact Memory.nat_setBytes_part s.mem (by rwa [Queue.toBytes_length])
  obtain ⟨hring, hsize, hgroup, hflags, hrcb, hread, hwake, hsw, hsr, hz, hz'⟩ := x.fieldAt_toBytes
  refine ⟨fun a ha => ?_, State.putQueue_disp, hf 0x00 8 (by decide) hring, hf 0x08 4 (by decide) hsize,
    hf 0x0C 2 (by decide) hgroup, hf 0x0E 2 (by decide) hflags, hf 0x10 8 (by decide) hrcb,
    hf 0x18 8 (by decide) hread, hf 0x20 8 (by decide) hwake, hf 0x28 4 (by decide) hsw,
    hf 0x2C 4 (by decide) hsr, hf 0x30 8 (by decide) hz, hf 0x38 8 (by decide) hz', State.putQueue_of_noTable rfl⟩
  rw [ht, State.storeBytes_mem]
  exact Memory.byte_setBytes_out _ (by rwa [Queue.toBytes_length])

end

/-! ## Notify writes -/

section

variable {s : State} {pa n rcb k : Nat} {bs : List Byte} {e : ErrorKind} {root va : BitVec 64} {x : Queue} {f : Queue → Queue}

theorem State.violation_keeps {a : BitVec 64} {b : BitVec 32} {i j : Nat} :
    (s.violation a b i j).mem = s.mem ∧ (s.violation a b i j).regions = s.regions := by
  unfold State.violation
  dsimp only
  split
  · exact ⟨rfl, rfl⟩
  · exact ⟨rfl, rfl⟩

theorem State.homeViolation_keeps {g : State → State} (hg : (g s).mem = s.mem ∧ (g s).regions = s.regions) :
    (s.homeViolation pa e g).mem = s.mem ∧ (s.homeViolation pa e g).regions = s.regions := by
  cases e with
  | access => exact hg
  | integrity => exact State.violation_keeps
  | poison => exact State.violation_keeps

theorem State.paNote_keeps (hq : Quiet s) : (s.paNote pa n).mem = s.mem ∧ (s.paNote pa n).regions = s.regions := by
  unfold State.paNote
  split
  · rw [State.noteBytes_of_quiet hq]
    exact ⟨rfl, rfl⟩
  · exact State.homeViolation_keeps State.violation_keeps

theorem State.noteWalkEnd_keeps : (s.noteWalkEnd root va).mem = s.mem ∧ (s.noteWalkEnd root va).regions = s.regions := by
  unfold State.noteWalkEnd
  split
  · exact ⟨rfl, rfl⟩
  · exact ⟨rfl, rfl⟩
  · exact ⟨rfl, rfl⟩
  · exact State.homeViolation_keeps ⟨rfl, rfl⟩

theorem State.pageNote_keeps (hq : Quiet s) :
    (s.pageNote rcb va n).mem = s.mem ∧ (s.pageNote rcb va n).regions = s.regions := by
  unfold State.pageNote
  split
  · dsimp only
    split
    · exact State.noteWalkEnd_keeps
    · exact ⟨rfl, rfl⟩
  · exact State.paNote_keeps hq

theorem Quiet.of_regions {t : State} (hq : Quiet s) (h : t.regions = s.regions) : Quiet t := by
  unfold Quiet
  rw [h]
  exact hq

/-- A read of the control die changes no memory while nothing records. -/
theorem State.vaNote_mem (hq : Quiet s) : (s.vaNote rcb va n).mem = s.mem := by
  unfold State.vaNote
  dsimp only
  split
  · exact (State.pageNote_keeps hq).1
  · obtain ⟨hm, hr⟩ := State.pageNote_keeps (rcb := rcb) (va := va) (n := 65536 - (va.setWidth 16).toNat) hq
    exact (State.pageNote_keeps (hq.of_regions hr)).1.trans hm

theorem State.modQueue_eq (hx : Table.get? s.disp.queues k = some x) :
    s.modQueue k f = { s with disp := { s.disp with queues := Table.set s.disp.queues k (f x) } } := by
  simp only [State.modQueue, Table.modify, hx]

theorem State.notifyQueue_eq {w : BitVec 32} (hx : Table.get? s.disp.queues k = some x) :
    s.notifyQueue k w = if (x.takeNotify w).error = x.error then s.modQueue k fun x => x.takeNotify w
      else (s.modQueue k fun x => x.takeNotify w).putQueue k := by
  simp only [State.notifyQueue, State.queue?, hx, beq_iff_eq]
  exact if_congr eq_comm rfl rfl

theorem ahead_iff {n w : BitVec 32} : ahead n w = true ↔ 0 < (n - w).toNat ∧ (n - w).toNat < 2 ^ 31 := by
  have h : n = w ↔ (n - w).toNat = 0 := by bv_omega
  simp only [ahead, Bool.and_eq_true, bne_iff_ne, decide_eq_true_eq, ne_eq, h]
  omega

theorem Queue.takeNotify_stale {w : BitVec 32} (h : (w - x.write).toNat = 0 ∨ 2 ^ 31 ≤ (w - x.write).toNat) :
    x.takeNotify w = x := by
  have ha : ahead w x.write = false := by
    rw [← Bool.not_eq_true, ahead_iff]
    omega
  rw [Queue.takeNotify, ha]
  rfl

theorem Queue.takeNotify_fits {w : BitVec 32} (h0 : 0 < (w - x.write).toNat) (h1 : (w - x.write).toNat < 2 ^ 31)
    (h : (w - x.write).toNat + (x.write - x.read).toNat ≤ x.size) : x.takeNotify w = { x with write := w } := by
  rw [Queue.takeNotify, ahead_iff.mpr ⟨h0, h1⟩, if_neg (by decide), if_pos (by omega)]

theorem Queue.takeNotify_overflows {w : BitVec 32} (h0 : 0 < (w - x.write).toNat) (h1 : (w - x.write).toNat < 2 ^ 31)
    (h : x.size < (w - x.write).toNat + (x.write - x.read).toNat) : x.takeNotify w = { x with error := true } := by
  rw [Queue.takeNotify, ahead_iff.mpr ⟨h0, h1⟩, if_neg (by decide), if_neg (by omega)]

theorem exec_notifyWrite_mapped {v : BitVec 64} (hx : Table.get? s.disp.queues k = some x) (hs : x.slot ≠ none) :
    exec (.notifyWrite k v) s = .next (s.notifyQueue k (v.setWidth 32)) := by
  obtain ⟨hw, hh⟩ := Option.ne_none_iff_exists'.mp hs
  simp only [exec_notifyWrite, execNotifyWrite, State.queue?, hx, hh]

theorem exec_notifyWrite_unmapped {v : BitVec 64} {w : BitVec 32} (hx : Table.get? s.disp.queues k = some x) (hs : x.slot = none)
    (hw : s.vaWord x.rcb x.wake = some w) :
    exec (.notifyWrite k v) s = .next (if ahead (v.setWidth 32) w then s.vaStore x.rcb x.wake 4 (v.setWidth 32).toNat
      else s.vaNote x.rcb x.wake 4) := by
  simp only [exec_notifyWrite, execNotifyWrite, State.queue?, hx, hs, hw]

theorem State.vaWord_of_answered (hp : s.vaPa rcb 0 va = some pa) (hs : s.spoilt pa 4 false = none) :
    s.vaWord rcb va = some (s.mem.w32 pa) := by
  have hp' : s.vaPa rcb kindRead va = some pa := hp
  simp only [State.vaWord, hp', Option.bind_some, State.paBytes, hs, Option.isSome_none, Bool.false_eq_true, if_false, Option.map_some]
  rfl

theorem State.vaStore_of_quiet {v : Nat} (hq : Quiet s) (hp : s.vaPa rcb 1 va = some pa) (hs : s.spoilt pa n true = none) :
    s.vaStore rcb va n v = s.storeBytes pa (leBytes n v) := by
  have hp' : s.vaPa rcb kindWrite va = some pa := hp
  simp only [State.vaStore, hp']
  exact State.engineStore_of_quiet hq (by rwa [leBytes_length])

/-- What a notify write leaves of the queues while the queue is mapped. -/
theorem State.notifyQueue_disp {w : BitVec 32} (hx : Table.get? s.disp.queues k = some x) :
    (s.notifyQueue k w).disp = { s.disp with queues := Table.set s.disp.queues k (x.takeNotify w) } := by
  rw [State.notifyQueue_eq hx, State.modQueue_eq hx]
  split
  · rfl
  · exact State.putQueue_disp

theorem notifyWrites : Claims.NotifyWrites := by
  intro s k v x hx
  refine ⟨fun hs => ?_, fun hs hq pa hr hw hsp => ?_, ?_⟩
  · have hd := State.notifyQueue_disp (w := v.setWidth 32) hx
    refine ⟨_, x.takeNotify (v.setWidth 32), exec_notifyWrite_mapped hx hs, ?_, fun j hj => ?_, fun h => ?_, fun h => ?_,
      Queue.takeNotify_stale, Queue.takeNotify_fits, Queue.takeNotify_overflows⟩
    · rw [hd]
      exact Table.get?_set_self _ _ _
    · rw [hd]
      exact Table.get?_set_ne _ _ hj
    · have ht : s.notifyQueue k (v.setWidth 32) = s.modQueue k fun x => x.takeNotify (v.setWidth 32) := by
        rw [State.notifyQueue_eq hx]
        split
        · rfl
        · next hne => exact State.putQueue_of_noTable (h.resolve_left hne)
      rw [ht, State.modQueue_eq hx]
    · rw [hd, State.notifyQueue_eq hx, if_neg h, State.modQueue_eq hx]
  · refine ⟨_, exec_notifyWrite_unmapped hx hs (State.vaWord_of_answered hr (hsp false)), ?_⟩
    by_cases ha : ahead (v.setWidth 32) (s.mem.w32 pa) = true
    · have hn : v.setWidth 32 ≠ s.mem.w32 pa := fun he => by
        rw [he, ahead_iff, BitVec.sub_self] at ha
        exact absurd ha.1 (by decide)
      rw [if_pos ha, if_pos ⟨hn, (ahead_iff.mp ha).2⟩, State.vaStore_of_quiet hq hw (hsp true)]
      refine ⟨fun a h => ?_, rfl, ?_⟩
      · rw [State.storeBytes_mem]
        exact Memory.byte_setBytes_out _ (by rwa [leBytes_length])
      · have hb := Memory.nat_store s.mem pa 4 (v.setWidth 32).toNat
        rw [Memory.store] at hb
        rw [State.storeBytes_mem, Memory.w32, hb]
        apply BitVec.eq_of_toNat_eq
        have hlt := (v.setWidth 32).isLt
        rw [BitVec.toNat_ofNat]
        omega
    · have hn : ¬ (v.setWidth 32 ≠ s.mem.w32 pa ∧ (v.setWidth 32 - s.mem.w32 pa).toNat < 2 ^ 31) := fun ⟨hne, hlt⟩ =>
        ha (ahead_iff.mpr ⟨by bv_omega, hlt⟩)
      rw [if_neg ha, if_neg hn, State.vaNote_mem hq]
      exact ⟨fun a _ => by rw [State.vaNote_mem hq], State.vaNote_disp, rfl⟩
  · rw [State.clearError, State.modQueue_eq hx]

end

/-! ## Requests about queues -/

section

variable {s : State} {q : Request} {k hw pa base code n : Nat} {x z : Queue}

theorem State.serveWith_asked {ops : List Byte} {f : State → State × BitVec 64} (h : Asked s q code ops) :
    s.serveWith code ops f = .next ((f s).1.respond q (f s).2 []) := by
  obtain ⟨ht, hc, ho, ha⟩ := h
  have hg : ¬ ((decide (q.code ≠ code) || decide (q.operands.take ops.length ≠ ops)) = true) := by simp [hc, ho]
  simp only [State.serveWith, State.serve, ht]
  rw [if_neg hg, if_pos ha]

theorem pow_log2_iff {n : Nat} : 2 ^ n.log2 = n ↔ ∃ e, n = 2 ^ e :=
  ⟨fun he => ⟨_, he.symm⟩, fun ⟨e, he⟩ => by rw [he, Nat.log2_two_pow]⟩

/-- The fields that a queue may have (20: R334). -/
theorem queueFieldsOk_iff {ring size qgroup rd wake : Nat} {flags : BitVec 16} :
    queueFieldsOk k ring size qgroup flags rd wake = true ↔
      k < 65536 ∧ ring < 2 ^ 56 ∧ ring % 4096 = 0 ∧ 64 ≤ size ∧ size ≤ 65536 ∧ (∃ e, size = 2 ^ e) ∧ qgroup < 256
        ∧ flags.toNat < 4 ∧ rd % 4 = 0 ∧ wake % 4 = 0 := by
  simp only [queueFieldsOk, Bool.and_eq_true, decide_eq_true_eq, beq_iff_eq, and_assoc, pow_log2_iff]
  rfl

theorem exec_queueCreate_legal {ring size grp rcb rd wake : Nat} {flags : BitVec 16}
    (ha : Asked s q 0x0010 (opWords [0, k, ring, size, grp] ++ leBytes 2 flags.toNat ++ opWords [rcb, rd, wake]))
    (hf : queueFieldsOk k ring size grp flags rd wake = true) (hm : ∀ x, Table.get? s.disp.queues k = some x → x.slot = none) :
    exec (.queueCreate k ring size grp flags rcb rd wake) s = .next (
      (({ s with disp := { s.disp with queues := Table.set s.disp.queues k {
        ring := BitVec.ofNat 64 ring, size := size, qgroup := grp, privileged := flags.getLsbD 0, error := flags.getLsbD 1
        rcb := rcb, readAddr := BitVec.ofNat 64 rd, wake := BitVec.ofNat 64 wake, savedWrite := 0, savedRead := 0
        slot := none, write := 0, read := 0 } } } : State).putQueue k).respond q 0#64 []) := by
  rw [exec_queueCreate, execQueueCreate, State.serveWith_asked ha]
  cases hx : Table.get? s.disp.queues k with
  | none =>
    simp only [State.queue?, hx, hf, Bool.not_true, Bool.or_self, Bool.false_eq_true, if_false]
    rfl
  | some x =>
    simp only [State.queue?, hx, hf, hm x hx, Option.isSome_none, Bool.not_true, Bool.or_self, Bool.false_eq_true, if_false]
    rfl

theorem exec_queueCreate_refused {ring size grp rcb rd wake : Nat} {flags : BitVec 16}
    (ha : Asked s q 0x0010 (opWords [0, k, ring, size, grp] ++ leBytes 2 flags.toNat ++ opWords [rcb, rd, wake]))
    (h : ¬ queueFieldsOk k ring size grp flags rd wake = true ∨ ∃ x, Table.get? s.disp.queues k = some x ∧ x.slot ≠ none) :
    exec (.queueCreate k ring size grp flags rcb rd wake) s = .next (s.respond q 1#64 []) := by
  rw [exec_queueCreate, execQueueCreate, State.serveWith_asked ha]
  rcases h with hf | ⟨x, hx, hs⟩
  · simp only [Bool.not_eq_true] at hf
    simp only [hf, Bool.not_false, Bool.true_or, if_true]
    rfl
  · simp only [State.queue?, hx, Option.isSome_iff_ne_none.mpr hs, Bool.or_true, if_true]
    rfl

/-- The descriptor that the table has of a queue, when its base is named (20: R334). -/
theorem State.tableQueue_eq (hb : s.boot.queueTable = some base) :
    s.tableQueue k x = if s.spoilt (base + 64 * k) 64 false = none ∧ queueReserved (s.mem.bytes (base + 64 * k) 64) = false then
      some (x.ofBytes (s.mem.bytes (base + 64 * k) 64)) else none := by
  simp only [State.tableQueue, hb, State.paBytes]
  cases s.spoilt (base + 64 * k) 64 false with
  | some e => rfl
  | none => cases h : queueReserved (s.mem.bytes (base + 64 * k) 64) <;> simp [h]

theorem fieldAt_lt (bs : List Byte) (off n : Nat) : fieldAt bs off n < 256 ^ n :=
  (leNat_lt _).trans_le (Nat.pow_le_pow_right (by decide) (List.length_take_le _ _))

theorem queueReserved_iff {b : List Byte} (hl : b.length = 64) :
    queueReserved b = true ↔ 4 ≤ leNat ((b.drop 0x0E).take 2) ∨ leNat (b.drop 0x30) ≠ 0 := by
  have hd : (b.drop 0x30).take 16 = b.drop 0x30 := List.take_of_length_le (by rw [List.length_drop, hl])
  simp only [queueReserved, fieldAt, Bool.or_eq_true, bne_iff_ne, ne_eq, hd]
  omega

theorem State.mayMap_iff (hz : s.tableQueue k x = some z) : s.mayMap k x hw = true ↔
    x.slot = none ∧ hw < 4096 ∧ (∀ p ∈ s.disp.queues, p.2.slot ≠ some hw)
      ∧ k < 65536 ∧ z.ring.toNat < 2 ^ 56 ∧ z.ring.toNat % 4096 = 0 ∧ 64 ≤ z.size ∧ z.size ≤ 65536 ∧ (∃ e, z.size = 2 ^ e)
      ∧ z.qgroup < 256 ∧ z.readAddr.toNat % 4 = 0 ∧ z.wake.toNat % 4 = 0 := by
  have h0 : (0#16).toNat < 4 := by decide
  simp only [State.mayMap, hz, Option.map_some, Option.getD_some, Bool.and_eq_true, queueFieldsOk_iff, Option.isNone_iff_eq_none,
    decide_eq_true_eq, Bool.not_eq_true', List.any_eq_false, beq_iff_eq, and_assoc, h0, true_and]
  rfl

theorem State.mayMap_none (hz : s.tableQueue k x = none) : s.mayMap k x hw = false := by
  simp [State.mayMap, hz]

theorem State.noteTable_of_quiet (hq : Quiet s) (hz : s.tableQueue k x = some z) : s.noteTable k = s := by
  unfold State.noteTable
  split
  · rfl
  · next base hb =>
    rw [State.tableQueue_eq hb, Option.ite_none_right_eq_some] at hz
    exact State.paNote_of_quiet hq hz.1.1

/-- A queue is mapped: its descriptor and its saved indices stand again, and what notify writes left on its wake word is taken. -/
theorem State.mapQueue_eq (hx : Table.get? s.disp.queues k = some x) (hz : s.tableQueue k x = some z) (hq : Quiet s)
    (hm : s.mayMap k x hw = true) :
    s.mapQueue k hw =
      let y := ({ z with slot := some hw, write := z.savedWrite, read := z.savedRead } : Queue).takeNotify (s.wakeWord z)
      let read := s.vaNote z.rcb z.wake 4
      let set : State := { read with disp := { read.disp with queues := Table.set s.disp.queues k y } }
      if y.error = z.error then set else set.putQueue k := by
  have hr : Table.get? (s.vaNote z.rcb z.wake 4).disp.queues k = some x := by rw [State.vaNote_disp, hx]
  simp only [State.mapQueue, State.queue?, hx, hz, State.noteTable_of_quiet hq hz, hm, Bool.not_true, Bool.false_eq_true, if_false]
  rw [State.modQueue_eq hr, State.notifyQueue_eq (Table.get?_set_self _ _ _), State.modQueue_eq (Table.get?_set_self _ _ _)]
  simp only [Table.set_set, State.vaNote_disp]

theorem exec_queueMap_asked (ha : Asked s q 0x0010 (opWords [1, k, hw])) (hx : Table.get? s.disp.queues k = some x) :
    exec (.queueMap k hw) s =
      .next (if s.mayMap k x hw then (s.mapQueue k hw).respond q 0#64 [] else s.respond q 1#64 []) := by
  rw [exec_queueMap, execQueueMap, State.serveWith_asked ha]
  simp only [State.queue?, hx]
  split <;> rfl

/-- The read of a wake word that lies in one page and whose home answers leaves nothing. -/
theorem State.vaNote_of_answered {rcb : Nat} {va : BitVec 64} (hq : Quiet s) (hva : va.toNat % 4 = 0)
    (hp : s.vaPa rcb 0 va = some pa) (hs : s.spoilt pa 4 false = none) : s.vaNote rcb va 4 = s := by
  have hp' : s.vaPa rcb kindRead va = some pa := hp
  have hm : 4 ≤ 65536 - (va.setWidth 16).toNat := by
    rw [BitVec.toNat_setWidth]
    omega
  rw [State.vaNote, if_pos hm]
  simp only [State.pageNote, hp']
  exact State.paNote_of_quiet hq hs

theorem exec_queueSlotUnmap_eq (hx : Table.get? s.disp.queues k = some x) (hs : x.slot ≠ none) :
    let y : Queue := { x with slot := none, savedWrite := x.write, savedRead := x.read }
    exec (.queueSlotUnmap k) s =
      .next (({ s with disp := { s.disp with queues := Table.set s.disp.queues k y } } : State).putQueue k) := by
  obtain ⟨hw, hh⟩ := Option.ne_none_iff_exists'.mp hs
  simp only [exec_queueSlotUnmap, execQueueSlotUnmap, State.queue?, hx, Option.bind_some, hh]
  rw [State.modQueue_eq hx]

theorem exec_queueDelete_asked (ha : Asked s q 0x0010 (opWords [2, k])) (hx : Table.get? s.disp.queues k = some x)
    (hs : x.slot = none) (hp : ∀ p ∈ s.disp.packets, p.2.queue ≠ k) :
    exec (.queueDelete k) s =
      .next (({ s with disp := { s.disp with queues := Table.erase s.disp.queues k } } : State).respond q 0#64 []) := by
  have hany : (s.disp.packets.any fun p => p.2.queue == k) = false := by simpa using hp
  rw [exec_queueDelete, execQueueDelete, State.serveWith_asked ha]
  simp only [State.queue?, hx, hs, hany, Option.isSome_none, Bool.or_self, Bool.false_eq_true, if_false]
  rfl

end

/-- A descriptor of the table that firmware reads: when it is refused, and the fields it has otherwise. -/
theorem tableQueue_spec {s : State} {k base : Nat} {x : Queue} (hb : s.boot.queueTable = some base) :
    let b := s.mem.bytes (base + 64 * k) 64
    (s.spoilt (base + 64 * k) 64 false ≠ none ∨ 4 ≤ leNat ((b.drop 0x0E).take 2) ∨ leNat (b.drop 0x30) ≠ 0
      ↔ s.tableQueue k x = none)
    ∧ ∀ z, s.tableQueue k x = some z → z.ring.toNat = leNat (b.take 8) ∧ z.size = leNat ((b.drop 8).take 4)
      ∧ z.savedWrite.toNat = leNat ((b.drop 0x28).take 4) ∧ z.savedRead.toNat = leNat ((b.drop 0x2C).take 4) := by
  intro b
  refine ⟨?_, fun z hz => ?_⟩
  · rw [State.tableQueue_eq hb, ← queueReserved_iff (Memory.bytes_length _ _ _), ite_eq_right_iff, imp_iff_not (by simp),
      not_and_or, Bool.not_eq_false]
  · rw [State.tableQueue_eq hb, Option.ite_none_right_eq_some, Option.some_inj] at hz
    rw [← hz.2]
    exact ⟨Nat.mod_eq_of_lt (fieldAt_lt b 0 8), rfl, Nat.mod_eq_of_lt (fieldAt_lt b 0x28 4), Nat.mod_eq_of_lt (fieldAt_lt b 0x2C 4)⟩

/-- The address at which the home of a wake word answers. -/
def State.wakeAt (s : State) (z : Queue) : Option Nat :=
  (s.vaPa z.rcb 0 z.wake).filter fun pa => s.spoilt pa 4 false = none

theorem State.wakeAt_some {s : State} {z : Queue} {pa : Nat} (h : s.wakeAt z = some pa) :
    s.vaPa z.rcb 0 z.wake = some pa ∧ s.spoilt pa 4 false = none := by
  simpa [State.wakeAt, Option.filter_eq_some_iff] using h

theorem State.wakeWord_of_some {s : State} {z : Queue} {pa : Nat} (h : s.wakeAt z = some pa) : s.wakeWord z = s.mem.w32 pa := by
  obtain ⟨hp, hs⟩ := State.wakeAt_some h
  rw [State.wakeWord, State.vaWord_of_answered hp hs, Option.getD_some]

theorem State.wakeWord_of_none {s : State} {z : Queue} (h : s.wakeAt z = none) : s.wakeWord z = z.savedWrite := by
  have hw : s.vaWord z.rcb z.wake = none := by
    rw [State.vaWord, Option.bind_eq_none_iff]
    intro pa hp
    have hs : s.spoilt pa 4 false ≠ none := by simpa using Option.filter_eq_none_iff.mp h pa hp
    rw [State.paBytes, if_pos (Option.isSome_iff_ne_none.mpr hs), Option.map_none]
  rw [State.wakeWord, hw, Option.getD_none]

theorem State.vaNote_wake {s : State} {z : Queue} (hq : Quiet s) (hw : z.wake.toNat % 4 = 0) :
    s.vaNote z.rcb z.wake 4 = if (s.wakeAt z).isSome then s else s.vaNote z.rcb z.wake 4 := by
  cases h : s.wakeAt z with
  | none => rfl
  | some pa =>
    obtain ⟨hp, hs⟩ := State.wakeAt_some h
    exact State.vaNote_of_answered hq hw hp hs

theorem queueRequests : Claims.QueueRequests := by
  intro s q k ring size grp rcb rd wake hw flags
  refine ⟨fun ha hl hm => ?_, fun ha h => ?_, fun base x hb _ => tableQueue_spec hb, fun x hx hz ha => ?_, fun x z hx hz hq => ?_⟩
  · exact exec_queueCreate_legal ha (queueFieldsOk_iff.mpr hl) fun x hx => not_not.mp fun hs => hm ⟨x, hx, hs⟩
  · exact exec_queueCreate_refused ha (h.imp_left (mt queueFieldsOk_iff.mp))
  · rw [exec_queueMap_asked ha hx, State.mayMap_none hz]
    rfl
  · intro sound free at_ wakeWord read y set now
    have hword : s.wakeWord z = wakeWord := by
      cases h : s.wakeAt z with
      | none =>
        have hat : at_ = none := h
        rw [State.wakeWord_of_none h]
        simp only [wakeWord, hat]
      | some pa =>
        have hat : at_ = some pa := h
        rw [State.wakeWord_of_some h]
        simp only [wakeWord, hat]
    have hmay : s.mayMap k x hw = true ↔ free := State.mayMap_iff hz
    have hnow (hf : free) : s.mapQueue k hw = now := by
      have hm := hmay.mpr hf
      obtain ⟨-, -, -, -, -, -, -, -, -, -, -, hwake⟩ := hf
      have hread : s.vaNote z.rcb z.wake 4 = read := State.vaNote_wake hq hwake
      rw [State.mapQueue_eq hx hz hq hm, hword, hread]
    refine ⟨fun hf ha => ?_, fun hf ha => ?_, fun hf hd => ?_, fun hs => exec_queueSlotUnmap_eq hx hs,
      fun ha hs hp => exec_queueDelete_asked ha hx hs hp⟩
    · rw [exec_queueMap_asked ha hx, if_pos (hmay.mpr hf), hnow hf]
    · rw [exec_queueMap_asked ha hx, if_neg (mt hmay.mp hf)]
    · rw [exec_queueSlotMap, execQueueSlotMap, if_pos (by rw [hd]; rfl), hnow hf]

/-- Settles O51: the registers, the table of the queues, notify writes and the requests, each by the lemma of its claim. -/
theorem hostRegistersAndQueues : Obligations.HostRegistersAndQueues := by
  unfold Obligations.HostRegistersAndQueues
  exact ⟨hostRegisters, hostReads, queueTable, notifyWrites, queueRequests⟩

end Sys2Proof.Machine

end

section

/-! Accesses at their home (O29). -/

set_option Elab.async false

namespace Sys2Proof.Machine

namespace LateError

/-- A store of four bytes by lane 0, translated, in the outbound path. -/
def access : LaneAcc :=
  { lane := 0, off := 0, size := 4, va := 0x10100#64, st := .direct 0x10100, done := false, data := 5#64, cmp := 0, val := 0
    ordinal := 0, judged := false, held := none, diverged := false }

/-- The memory word of that store. -/
def op : MemOp :=
  { seq := 0, pc := 0, word := 0, set := 1#32, kind := .store 4, ord := .rlx, scope := .device, base := 0, accs := [access]
    pend := none, queue := .outbound, log := none, slot := 0, gen := 1, answered := [], kv := [] }

/-- The device on which a group is placed. -/
def device : State := State.reset.placedDevice .vector 0#32

/-- A group all of whose lanes have exited while that store is on its way; traps of its region that find no live lane suspend the group and
give notice (policy 2 of its fault domain). -/
def exited : Group :=
  let g := (device.newGroup (placedLaunch .vector) ⟨1, 1, 0, 0, 0, 0⟩ (placedPosition .vector) 0).bornActive
  { g with
    ctl := { g.ctl with exited := g.ctl.present }
    view := { g.view with faultDomain := 2 }
    fl := { g.fl with ops := [op], nextSeq := 1 } }

/-- The device with that group alone. -/
def state : State := { device with groups := [(2, exited)], cores := [(0, { Core.fresh with out := [(2, 0)] })] }

/-- The events of the host after a step. -/
def eventOf (o : Out) : Option (BitVec 3) :=
  match o with
  | .next t => some t.host.event
  | .fault _ => none
  | .refused _ => none

/-- An error response to the store raises both the event of the violation and that of the notice. -/
theorem eventOf_errorResponse : eventOf (exec (.homeAccessPerform 2 0 0 (.error .poison)) state) = some 6#3 := by decide +kernel

end LateError

/-- Refutes O29: its clause of a home that answers an error has EVENT gain the violation bit alone. The error makes the store fail, and the
trap of a store that outlives the lanes of its group goes to the fault domain, which may give a notice: EVENT gains bit 1 as well. -/
theorem not_accessesAtHome : ¬ Obligations.AccessesAtHome := by
  unfold Obligations.AccessesAtHome
  rintro ⟨-, -, hErr, -⟩
  have hq : Quiet LateError.state := by
    unfold Quiet
    decide +kernel
  obtain ⟨t, ht, -, -, hev, -⟩ := hErr LateError.state 2 0 0 LateError.exited LateError.op LateError.access 0x10100 (.error .poison)
    .poison (by decide +kernel) (by decide +kernel) (by decide +kernel) (by decide +kernel) (by decide +kernel) (by decide +kernel)
    (by decide +kernel) hq (by decide +kernel) (by decide +kernel) (.inl rfl)
  have h6 := LateError.eventOf_errorResponse
  rw [ht] at h6
  have h4 : t.host.event = 4#3 := hev.trans (by decide +kernel)
  exact absurd (Option.some.inj h6) (by rw [h4]; decide)

end Sys2Proof.Machine

end

section

/-! A turn of a core's pipe and a listed step of the table (O44): what the turn leads to, and what the word that is fetched makes of it. -/

set_option Elab.async false

namespace Sys2Proof.Machine



section

variable {s : State} {rest : List Turn} {core k : Nat} {uniform : Bool} {v : SetView} {g : Group} {w : Word} {i : Instr}
  {o : Out} {who : Agent} {old : State}

theorem Out.settle_next {t : State} : Out.settle old who (.next t) = .next (State.settle old who t) := rfl

/-- The turn at the head of the agenda is the step. -/
theorem step_of_agenda {t : Turn} (h : s.agenda = t :: rest) :
    step s = Out.settle { s with agenda := rest } (({ s with agenda := rest } : State).agentOf t)
      (({ s with agenda := rest } : State).turn t) := by
  simp only [step, State.move, h]

/-- With an empty agenda and no step of the machine's own due, the pipe that issueTurn names is the step. -/
theorem step_of_issueTurn (ha : s.agenda = []) (hw : s.walkDue = none) (hd : s.due = none)
    (hi : s.issueTurn = some (core, uniform)) : step s = Out.settle s .control (s.issueOn exec core uniform) := by
  simp only [step, State.move, ha, State.defaultMove, hw, hd, hi]

/-- A pipe that has a set to issue issues it. -/
theorem State.issueOn_pick {run : Instr → State → Out} (hp : s.pickOn core uniform = some (k, v))
    (hg : Table.get? s.groups k = some g) : s.issueOn run core uniform = s.issueSet run k g v := by
  simp only [State.issueOn, hp, hg]

/-- The state in which a word that has been fetched issues: its group has noted the issue. -/
def State.notedIssue (s : State) (k : Nat) (g : Group) (v : SetView) : State :=
  let n : State := { s.setGroup k (g.noteIssue v (s.views g) (s.fresh + 1) s.clk.cycle) with fresh := s.fresh + 1 }
  if g.id.walker then n.modCore g.ctl.core fun c => { c with walkIssued := c.walkIssued + 1 } else n

theorem State.notedIssue_fresh : (s.notedIssue k g v).fresh = s.fresh + 1 := by
  unfold State.notedIssue
  dsimp only
  split
  · rfl
  · rfl

/-- What an issue makes of a word that no boundary trap and no comparator precedes (01: R12; 07: R137, R146). -/
theorem State.issueSet_word {run : Instr → State → Out} (hb : g.boundaryFor v.mask = none) (hf : s.fetch g v.mask = .word w)
    (hc : s.comparatorHit g v = none) :
    s.issueSet run k g v =
      let is : Issue := ⟨k, v.mask, v.pc.setWidth 56, w⟩
      let n := s.notedIssue k g v
      match decode w with
      | .ok i =>
        ((n.countWord g v (some i)).modGroup k (Group.noteMoves i v.mask n.fresh)).runIssued run is i n.fresh
          g.fl.nextSeq g.ctl.stepping
      | .illop => .next (((n.countWord g v none).trapWord k v.mask (is.trap codeIllop)).afterWord is g.ctl.stepping)
      | .illfld =>
        let code := if (Word.duty w).any fun d => d != g.id.duty then codeIllop else codeIllfld
        .next (((n.countWord g v none).trapWord k v.mask (is.trap code)).afterWord is g.ctl.stepping) := by
  simp only [State.issueSet, hb, hf, hc]
  rfl

theorem State.runIssued_next {run : Instr → State → Out} {is : Issue} {stamp before : Nat} {stepping : Bool} {t : State}
    (h : run i (s.setIssue (some is)) = .next t) :
    s.runIssued run is i stamp before stepping =
      .next ((t.modGroup is.grp (Group.noteWord i stamp before)).afterWord is stepping) := by
  simp only [State.runIssued, h]

theorem State.runIssued_fault {run : Instr → State → Out} {is : Issue} {stamp before : Nat} {stepping : Bool} {f : Fault}
    (h : run i (s.setIssue (some is)) = .fault f) : s.runIssued run is i stamp before stepping = .fault f := by
  simp only [State.runIssued, h]

theorem any_duty_iff {x : Option Duty} {y : Duty} : (x.any fun d => d != y) = true ↔ ∃ d, x = some d ∧ d ≠ y := by
  cases x <;> simp

/-- A step of the table that its turn names: it stands while accesses performed early hold it, and else is exec of it (04: R90). -/
theorem State.turn_event (hi : i.isWord = false) :
    s.turn (.event i) = if s.stepHeld i = true then .next s else exec i s := by
  simp only [State.turn, hi, Bool.false_eq_true, if_false]

end

/-- Settles O44: the turn leads to the issue of the set, and the decoded word says which of its outcomes follows. -/
theorem stepRunsTheDecodedWord : Obligations.StepRunsTheDecodedWord := by
  unfold Obligations.StepRunsTheDecodedWord
  intro s rest core uniform k v g w s₁ pc is noted lines done trapped ready turn
  have hstep : turn → ready → step s = Out.settle s₁ .control (s₁.issueSet exec k g v) := by
    rintro ht ⟨hp, hg, -, -, -⟩
    rw [← State.issueOn_pick hp hg]
    rcases ht with h | ⟨ha, rfl, hw, hd, hi⟩
    · exact step_of_agenda h
    · have hs : s₁ = s := by
        simp only [s₁, ← ha]
      rw [hs]
      exact step_of_issueTurn ha hw hd hi
  refine ⟨fun ht hr i hi => ?_, fun ht hr hi => ?_, fun ht hr hi => ?_, fun i hi ha => ?_⟩
  · obtain ⟨-, -, hb, hf, hc⟩ := id hr
    rw [hstep ht hr, State.issueSet_word hb hf hc, hi]
    dsimp only
    rw [State.notedIssue_fresh]
    refine ⟨fun t hx => ?_, fun f hx => ?_⟩
    · exact congrArg (Out.settle s₁ .control) (State.runIssued_next hx)
    · exact congrArg (Out.settle s₁ .control) (State.runIssued_fault hx)
  · obtain ⟨-, -, hb, hf, hc⟩ := id hr
    rw [hstep ht hr, State.issueSet_word hb hf hc, hi]
    rfl
  · obtain ⟨-, -, hb, hf, hc⟩ := id hr
    rw [hstep ht hr, State.issueSet_word hb hf hc, hi]
    simp only [any_duty_iff]
    rfl
  · have hs : step s = Out.settle s₁ (s₁.stepAgent i) (s₁.turn (.event i)) := step_of_agenda ha
    rw [hs, State.turn_event hi]
    refine ⟨fun hh => ?_, fun hh t hx => ?_, fun hh f hx => ?_⟩
    · rw [if_pos hh, Out.settle_next]
    · rw [hh, if_neg Bool.false_ne_true, hx, Out.settle_next]
    · rw [hh, if_neg Bool.false_ne_true, hx]
      rfl

end Sys2Proof.Machine

end

section

/-! Tables of which entries are changed, filtered or erased: what reading them gives. -/

set_option Elab.async false

namespace Sys2Proof.Machine

variable {α β : Type}

theorem Table.mem_of_get? {t : Table α} {k : Nat} {v : α} (h : Table.get? t k = some v) : (k, v) ∈ t := by
  induction t with
  | nil => cases h
  | cons p r ih =>
    obtain ⟨j, w⟩ := p
    simp only [Table.get?] at h
    split at h
    · next e => cases h; simp [e]
    · exact .tail _ (ih h)

theorem Table.get?_of_mem {t : Table α} {k : Nat} {v : α} (hn : (t.map Prod.fst).Nodup) (h : (k, v) ∈ t) :
    Table.get? t k = some v := by
  induction t with
  | nil => cases h
  | cons p r ih =>
    obtain ⟨j, w⟩ := p
    obtain ⟨hj, hr⟩ := List.nodup_cons.mp hn
    simp only [Table.get?]
    rcases List.mem_cons.mp h with e | hm
    · cases e; simp
    · have hne : j ≠ k := fun e => hj (List.mem_map.mpr ⟨_, hm, e.symm⟩)
      rw [if_neg hne, ih hr hm]

/-- In a table whose keys are distinct, reading a key gives the entry listed under it. -/
theorem Table.get?_eq_some_iff {t : Table α} {k : Nat} {v : α} (hn : (t.map Prod.fst).Nodup) :
    Table.get? t k = some v ↔ (k, v) ∈ t := ⟨Table.mem_of_get?, Table.get?_of_mem hn⟩

/-- Reading a table whose entries a map changed under their keys. -/
theorem Table.get?_map {f : Nat × α → Nat × β} (hf : ∀ p, (f p).1 = p.1) (t : Table α) (k : Nat) :
    Table.get? (t.map f) k = (Table.get? t k).map fun v => (f (k, v)).2 := by
  induction t with
  | nil => rfl
  | cons p r ih =>
    obtain ⟨j, v⟩ := p
    have hp : f (j, v) = (j, (f (j, v)).2) := Prod.ext (hf _) rfl
    rw [List.map_cons, hp]
    simp only [Table.get?, ih]
    split
    · next e => subst e; rfl
    · rfl

/-- The keys of the entries that pass a test. -/
theorem Table.mem_keys_filter {t : Table α} (hn : (t.map Prod.fst).Nodup) {p : Nat × α → Bool} {k : Nat} :
    k ∈ (t.filter p).map Prod.fst ↔ ∃ v, Table.get? t k = some v ∧ p (k, v) = true := by
  simp only [List.mem_map, List.mem_filter, Prod.exists, Table.get?_eq_some_iff hn]
  constructor
  · rintro ⟨j, v, ⟨hm, hp⟩, rfl⟩; exact ⟨v, hm, hp⟩
  · rintro ⟨v, hm, hp⟩; exact ⟨k, v, ⟨hm, hp⟩, rfl⟩

theorem Table.nodup_filter {t : Table α} (hn : (t.map Prod.fst).Nodup) (p : Nat × α → Bool) : ((t.filter p).map Prod.fst).Nodup :=
  hn.sublist (List.filter_sublist.map _)

/-- Reading a table of which the entries that fail a test are gone. -/
theorem Table.get?_filter {t : Table α} (hn : (t.map Prod.fst).Nodup) (p : Nat × α → Bool) (k : Nat) :
    Table.get? (t.filter p) k = (Table.get? t k).filter fun v => p (k, v) := by
  ext v
  rw [Table.get?_eq_some_iff (Table.nodup_filter hn p), List.mem_filter, Option.filter_eq_some_iff, Table.get?_eq_some_iff hn]

/-- A change with no further effect where it has been made, at each of a list of keys. -/
theorem Table.get?_foldl_modify {f : α → α} (hf : ∀ v, f (f v) = f v) (ks : List Nat) (t : Table α) (k : Nat) :
    Table.get? (ks.foldl (fun t k => Table.modify t k f) t) k = if k ∈ ks then (Table.get? t k).map f else Table.get? t k := by
  induction ks generalizing t with
  | nil => simp
  | cons j r ih =>
    rw [List.foldl_cons, ih, Table.get?_modify]
    by_cases e : k = j
    · subst e
      cases h : Table.get? t k <;> simp [hf]
    · simp [e]

/-- Erasing a list of keys. -/
theorem Table.foldl_erase (ks : List Nat) (t : Table α) : ks.foldl Table.erase t = t.filter fun p => !ks.contains p.1 := by
  induction ks generalizing t with
  | nil => simp
  | cons j r ih =>
    rw [List.foldl_cons, ih, Table.erase_eq_filter, List.filter_filter]
    refine List.filter_congr fun p _ => ?_
    by_cases e : p.1 = j
    · simp [e]
    · simp [e, Ne.symm e]

/-- Erasing the entries that pass a test leaves those that fail it. -/
theorem Table.foldl_erase_filter {t : Table α} (hn : (t.map Prod.fst).Nodup) (p : Nat × α → Bool) :
    ((t.filter p).map Prod.fst).foldl Table.erase t = t.filter fun e => !p e := by
  rw [Table.foldl_erase]
  refine List.filter_congr fun e he => ?_
  have h : e.1 ∈ (t.filter p).map Prod.fst ↔ p e = true := by
    rw [Table.mem_keys_filter hn, Table.get?_of_mem hn he]
    simp
  rw [List.contains_eq_mem, Bool.not_inj_iff, Bool.eq_iff_iff, decide_eq_true_eq, h]

end Sys2Proof.Machine

end

section

/-! The driver's region control (O52): what a suspension, a resumption and a kill of a subtree leave of gangs, launches and groups. -/

set_option Elab.async false

namespace Sys2Proof.Machine

section

variable {s t u : State} {k top : Nat}

/-! ## What ends with a kill -/

/-- A store that has left its queue. -/
def MemOp.left (o : MemOp) : Bool := o.queue == .outbound

/-- The operations of a discarded group: the stores that have left the queue, with the fences, without their log entries. -/
def keptOps (ops : List MemOp) : List MemOp := (ops.filter fun o => o.left || o.isFence).map fun o => { o with pend := none, log := none }

/-- What is left of a group that is discarded. -/
def Group.discarded (g : Group) : Option Group :=
  if g.fl.ops.any MemOp.left then
    some { g with
      ctl := { g.ctl with exited := g.ctl.present, dead := true, act := .active, waits := [], missing := [] }
      fl := { g.fl with ops := keptOps g.fl.ops, pend := [], cmds := [], roots := [], sleepers := [], probes := [], publ := none }
      tr := { g.tr with entering := none, boundary := [] } }
  else none

/-- The table of groups once the group of a key has been discarded. -/
def discardIn (t : Table Group) (k : Nat) : Table Group :=
  match Table.get? t k with
  | none => t
  | some g =>
    match g.discarded with
    | none => Table.erase t k
    | some h => Table.set t k h

/-- Whether a kill of a launch discards a group. -/
def Group.endsWith (g : Group) (launch : Nat) : Bool := g.id.launch == launch && !g.id.walker && !g.ctl.dead

/-- The table of groups once the groups of a launch have been discarded. -/
def endGroups (t : Table Group) (launch : Nat) : Table Group := ((t.filter fun p => p.2.endsWith launch).map Prod.fst).foldl discardIn t

/-- A launch that a kill has ended. -/
def Launch.ended (l : Launch) : Launch := { l with killed := true, pin := none, dispatchers := [], contributions := [] }

theorem any_left_iff {ops : List MemOp} : ops.any MemOp.left = true ↔ ∃ o ∈ ops, o.queue = .outbound := by simp [MemOp.left]

theorem any_left_keptOps (ops : List MemOp) : (keptOps ops).any MemOp.left = ops.any MemOp.left := by
  rw [Bool.eq_iff_iff, any_left_iff, any_left_iff]
  simp only [keptOps, List.mem_map, List.mem_filter]
  constructor
  · rintro ⟨-, ⟨o, ⟨ho, -⟩, rfl⟩, hq⟩; exact ⟨o, ho, hq⟩
  · rintro ⟨o, ho, hq⟩; exact ⟨_, ⟨o, ⟨ho, by simp [MemOp.left, hq]⟩, rfl⟩, hq⟩

theorem keptOps_keptOps (ops : List MemOp) : keptOps (keptOps ops) = keptOps ops := by
  simp only [keptOps, List.filter_map, List.map_map, List.filter_filter, Function.comp_def, MemOp.left, MemOp.isFence, Bool.and_self]

theorem Group.discarded_eq_none {g : Group} (h : ∀ o ∈ g.fl.ops, o.queue ≠ .outbound) : g.discarded = none :=
  if_neg fun hl => by
    obtain ⟨o, ho, hq⟩ := any_left_iff.mp hl
    exact h o ho hq

theorem Group.discarded_of_left {g : Group} (h : ∃ o ∈ g.fl.ops, o.queue = .outbound) :
    ∃ d, g.discarded = some d ∧ d.ctl.dead = true ∧ d.live = 0#32 ∧ d.fl.cmds = [] ∧ d.fl.pend = [] ∧ d.fl.sleepers = []
      ∧ d.fl.probes = [] ∧ d.regs = g.regs ∧ d.fl.ops.map (fun o => (o.seq, o.kind, o.accs)) =
        (g.fl.ops.filter fun o => o.queue == .outbound || o.isFence).map fun o => (o.seq, o.kind, o.accs) := by
  refine ⟨_, if_pos (any_left_iff.mpr h), rfl, ?_, rfl, rfl, rfl, rfl, rfl, ?_⟩
  · simp [Group.live]
  · rw [keptOps, List.map_map]
    rfl

theorem Group.discarded_dead {g d : Group} (h : g.discarded = some d) : d.ctl.dead = true := by
  unfold Group.discarded at h
  split at h
  · cases h; rfl
  · cases h

/-- A group that has been discarded is not changed by it again. -/
theorem Group.discarded_discarded {g d : Group} (h : g.discarded = some d) : d.discarded = some d := by
  unfold Group.discarded at h
  split at h
  · next hl =>
    cases h
    unfold Group.discarded
    rw [keptOps_keptOps, any_left_keptOps, if_pos hl]
  · cases h

theorem Group.bind_discarded (o : Option Group) : (o.bind Group.discarded).bind Group.discarded = o.bind Group.discarded := by
  cases o with
  | none => rfl
  | some g =>
    cases h : g.discarded with
    | none => simp [h]
    | some d => simp [h, Group.discarded_discarded h]

/-! ## The tables after the kill of a launch -/

theorem get?_discardIn (t : Table Group) (k j : Nat) :
    Table.get? (discardIn t k) j = if j = k then (Table.get? t k).bind Group.discarded else Table.get? t j := by
  unfold discardIn
  split
  · next h => split <;> simp_all
  · next g h =>
    split
    · next hd =>
      split
      · next e => simp [e, h, hd]
      · next e => rw [Table.get?_erase_ne t e]
    · next d hd => simp [Table.get?_set, h, hd]

theorem get?_foldl_discardIn (ks : List Nat) (t : Table Group) (j : Nat) :
    Table.get? (ks.foldl discardIn t) j = if j ∈ ks then (Table.get? t j).bind Group.discarded else Table.get? t j := by
  induction ks generalizing t with
  | nil => simp
  | cons k r ih =>
    rw [List.foldl_cons, ih, get?_discardIn]
    by_cases e : j = k
    · subst e
      simp [Group.bind_discarded]
    · simp [e]

theorem mem_discardIn {p : Nat × Group} {t : Table Group} (h : p ∈ discardIn t k) : p ∈ t ∨ p.2.ctl.dead = true := by
  unfold discardIn at h
  split at h
  · exact .inl h
  · split at h
    · rw [Table.erase_eq_filter] at h
      exact .inl (List.mem_of_mem_filter h)
    · next d hd =>
      rcases Table.mem_set h with h | rfl
      · exact .inl h
      · exact .inr (Group.discarded_dead hd)

theorem mem_foldl_discardIn {p : Nat × Group} {ks : List Nat} {t : Table Group} (h : p ∈ ks.foldl discardIn t) :
    p ∈ t ∨ p.2.ctl.dead = true := by
  induction ks generalizing t with
  | nil => exact .inl h
  | cons k r ih => exact (ih h).elim (fun h => mem_discardIn h) .inr

/-- The groups once those of some launches have been discarded: every entry is an entry from before or a dead group's. -/
structure Ended (t₀ t : Table Group) (launches : List Nat) : Prop where
  mem : ∀ p ∈ t, p ∈ t₀ ∨ p.2.ctl.dead = true
  get? : ∀ j, Table.get? t j = (Table.get? t₀ j).bind fun g => if ∃ l ∈ launches, g.endsWith l = true then g.discarded else some g

theorem Ended.refl (t : Table Group) : Ended t t [] where
  mem _ h := .inl h
  get? j := by simp

theorem Group.not_endsWith_of_dead {g : Group} (h : g.ctl.dead = true) (l : Nat) : g.endsWith l = false := by simp [Group.endsWith, h]

theorem Ended.endGroups {t₀ t : Table Group} {ls : List Nat} (h : Ended t₀ t ls) (hn : (t₀.map Prod.fst).Nodup) (l : Nat) :
    Ended t₀ (endGroups t l) (l :: ls) where
  mem p hp := (mem_foldl_discardIn hp).elim (h.mem p) .inr
  get? j := by
    have hIn : j ∈ (t.filter fun p => p.2.endsWith l).map Prod.fst → ∃ g, Table.get? t₀ j = some g ∧ g.endsWith l = true := by
      intro hj
      obtain ⟨⟨i, g⟩, hp, rfl⟩ := List.mem_map.mp hj
      obtain ⟨hp, he⟩ := List.mem_filter.mp hp
      rcases h.mem _ hp with hm | hd
      · exact ⟨g, Table.get?_of_mem hn hm, he⟩
      · rw [Group.not_endsWith_of_dead hd] at he
        cases he
    rw [Machine.endGroups, get?_foldl_discardIn, h.get?]
    cases h0 : Table.get? t₀ j with
    | none => simp
    | some g =>
      rw [Option.bind_some, Option.bind_some]
      by_cases hb : ∃ x ∈ ls, g.endsWith x = true
      · have hc : ∃ x ∈ l :: ls, g.endsWith x = true := hb.imp fun x hx => ⟨.tail _ hx.1, hx.2⟩
        rw [if_pos hb, if_pos hc]
        split
        · exact Group.bind_discarded (some g)
        · rfl
      · rw [if_neg hb, Option.bind_some]
        refine if_congr ?_ rfl rfl
        constructor
        · intro hj
          obtain ⟨g', hg', he⟩ := hIn hj
          rw [h0] at hg'
          cases hg'
          exact ⟨l, .head _, he⟩
        · rintro ⟨x, hx, he⟩
          rcases List.mem_cons.mp hx with rfl | hx
          · have hg : Table.get? t j = some g := by rw [h.get?, h0, Option.bind_some, if_neg hb]
            exact List.mem_map.mpr ⟨_, List.mem_filter.mpr ⟨Table.mem_of_get? hg, he⟩, rfl⟩
          · exact absurd ⟨x, hx, he⟩ hb

theorem Ended.foldl {t₀ t : Table Group} {ls : List Nat} (h : Ended t₀ t ls) (hn : (t₀.map Prod.fst).Nodup) (ks : List Nat) :
    Ended t₀ (ks.foldl Machine.endGroups t) (ks.reverse ++ ls) := by
  induction ks generalizing t ls with
  | nil => exact h
  | cons k r ih => simpa using ih (h.endGroups hn k)

/-! ## Pins that drop -/

/-- What a region keeps while its pins drop. -/
def Region.lasting (r : Region) : Bool × Option Gate × Table (BitVec 64) := (r.killed, r.gate, r.slots)

/-- A state that differs from s in pins of regions alone. -/
def PinsDrop (s t : State) : Prop :=
  ∃ rs, t = { s with regions := rs } ∧ ∀ k, (Table.get? rs k).map Region.lasting = (Table.get? s.regions k).map Region.lasting

theorem PinsDrop.refl (s : State) : PinsDrop s s := ⟨s.regions, rfl, fun _ => rfl⟩

theorem PinsDrop.trans (h : PinsDrop s t) (h' : PinsDrop t u) : PinsDrop s u := by
  obtain ⟨rs, rfl, hr⟩ := h
  obtain ⟨rs', rfl, hr'⟩ := h'
  exact ⟨rs', rfl, fun k => (hr' k).trans (hr k)⟩

theorem PinsDrop.foldl {α : Type} {f : State → α → State} (hf : ∀ s x, PinsDrop s (f s x)) (l : List α) (s : State) :
    PinsDrop s (l.foldl f s) := by
  induction l generalizing s with
  | nil => exact .refl s
  | cons x r ih => exact (hf s x).trans (ih _)

theorem State.unpin_lasting (s : State) (holder slot k : Nat) :
    (Table.get? (s.unpin holder slot).regions k).map Region.lasting = (Table.get? s.regions k).map Region.lasting := by
  rw [State.unpin, State.modRegion, Table.get?_modify]
  split
  · next e => subst e; cases Table.get? s.regions k <;> rfl
  · rfl

theorem PinsDrop.unpin (s : State) (holder slot : Nat) : PinsDrop s (s.unpin holder slot) := ⟨_, rfl, s.unpin_lasting holder slot⟩

/-- Reading a region after its pins dropped. -/
theorem PinsDrop.get? (h : PinsDrop s t) {R : Region} (hR : Table.get? s.regions k = some R) :
    ∃ R', Table.get? t.regions k = some R' ∧ R'.killed = R.killed ∧ R'.gate = R.gate ∧ R'.slots = R.slots := by
  obtain ⟨rs, rfl, hr⟩ := h
  have hk := hr k
  rw [hR] at hk
  obtain ⟨R', hR', he⟩ := Option.map_eq_some_iff.mp hk
  simp only [Region.lasting, Prod.mk.injEq] at he
  exact ⟨R', hR', he⟩

theorem PinsDrop.groups (h : PinsDrop s t) : t.groups = s.groups := by
  obtain ⟨rs, rfl, -⟩ := h
  rfl

/-- The pins of an operation with a log entry drop. -/
def State.unpinOp (holder : Nat) (s : State) (o : MemOp) : State :=
  match o.log with
  | none => s
  | some _ => o.answered.foldl (fun s a => s.unpin holder a) (s.unpin holder o.slot)

/-- The pins of an engine command drop. -/
def State.unpinCmd (holder : Nat) (s : State) (c : EngCmd) : State := c.answered.foldl (fun s p => s.unpin holder p.2) s

/-- The pins of a group that is discarded drop. -/
def State.unpinGroup (s : State) (g : Group) : State :=
  g.fl.cmds.foldl (State.unpinCmd g.view.holder) (g.fl.ops.foldl (State.unpinOp g.view.holder) (s.unpin g.view.holder g.pinSlot))

theorem PinsDrop.unpinOp (holder : Nat) (s : State) (o : MemOp) : PinsDrop s (s.unpinOp holder o) := by
  unfold State.unpinOp
  split
  · exact .refl s
  · exact (PinsDrop.unpin _ _ _).trans (.foldl (fun s a => .unpin s _ a) _ _)

theorem PinsDrop.unpinCmd (holder : Nat) (s : State) (c : EngCmd) : PinsDrop s (s.unpinCmd holder c) := by
  unfold State.unpinCmd
  exact .foldl (fun s _ => .unpin s _ _) _ _

theorem PinsDrop.unpinGroup (s : State) (g : Group) : PinsDrop s (s.unpinGroup g) := by
  have hops : PinsDrop s (g.fl.ops.foldl (State.unpinOp g.view.holder) (s.unpin g.view.holder g.pinSlot)) :=
    (PinsDrop.unpin _ _ _).trans (.foldl (.unpinOp _) _ _)
  exact hops.trans (.foldl (.unpinCmd _) _ _)

theorem any_left_filter (ops : List MemOp) :
    ((ops.filter fun o => o.queue == .outbound || o.isFence).any fun o => o.queue == .outbound) = ops.any MemOp.left := by
  rw [List.any_filter]
  congr 1
  funext o
  simp only [MemOp.left]
  cases o.queue == QueueState.outbound <;> simp

theorem State.discardGroup_of_some {g : Group} (hg : Table.get? s.groups k = some g) :
    s.discardGroup k = { s.unpinGroup g with groups := discardIn s.groups k } := by
  unfold State.discardGroup discardIn
  rw [hg]
  have h : (if !((g.fl.ops.filter fun o => o.queue == .outbound || o.isFence).any fun o => o.queue == .outbound) then
        { s.unpinGroup g with groups := Table.erase (s.unpinGroup g).groups k }
      else (s.unpinGroup g).setGroup k { g with
        ctl := { g.ctl with exited := g.ctl.present, dead := true, act := .active, waits := [], missing := [] }
        fl := { g.fl with ops := keptOps g.fl.ops, pend := [], cmds := [], roots := [], sleepers := [], probes := [], publ := none }
        tr := { g.tr with entering := none, boundary := [] } }) = { s.unpinGroup g with groups := match g.discarded with
    | none => Table.erase s.groups k
    | some h => Table.set s.groups k h } := by
    unfold Group.discarded
    rw [any_left_filter, State.setGroup, (PinsDrop.unpinGroup s g).groups]
    cases g.fl.ops.any MemOp.left <;> rfl
  exact h

theorem State.discardGroup_eq (s : State) (k : Nat) :
    ∃ u, PinsDrop s u ∧ s.discardGroup k = { u with groups := discardIn s.groups k } := by
  cases hg : Table.get? s.groups k with
  | none =>
    refine ⟨s, .refl s, ?_⟩
    simp only [State.discardGroup, discardIn, hg]
  | some g => exact ⟨_, .unpinGroup s g, State.discardGroup_of_some hg⟩

theorem State.foldl_discardGroup (ps : List (Nat × Group)) (s : State) :
    ∃ u, PinsDrop s u ∧ ps.foldl (fun s p => s.discardGroup p.1) s = { u with groups := (ps.map Prod.fst).foldl discardIn s.groups } := by
  induction ps generalizing s with
  | nil => exact ⟨s, .refl s, rfl⟩
  | cons p r ih =>
    obtain ⟨-, ⟨rs, rfl, hr⟩, he⟩ := State.discardGroup_eq s p.1
    obtain ⟨-, ⟨rs', rfl, hr'⟩, hf⟩ := ih (s.discardGroup p.1)
    rw [he] at hf hr'
    refine ⟨_, ⟨rs', rfl, fun k => (hr' k).trans (hr k)⟩, ?_⟩
    rw [List.foldl_cons, he, hf]
    rfl

/-- The gangs once those of a launch are gone. -/
def endGangs (t : Table Gang) (launch : Nat) : Table Gang := ((t.filter fun p => p.2.launch == launch).map Prod.fst).foldl Table.erase t

/-- The launches once one has ended. -/
def endLaunch (t : Table Launch) (launch : Nat) : Table Launch := Table.modify t launch Launch.ended

theorem State.killLaunch_eq {l : Launch} (hl : Table.get? s.launches k = some l) :
    ∃ u, PinsDrop s u ∧ s.killLaunch k =
      { u with groups := endGroups s.groups k, gangs := endGangs s.gangs k, launches := endLaunch s.launches k } := by
  obtain ⟨-, ⟨rs, rfl, hr⟩, he⟩ := State.foldl_discardGroup (s.groups.filter fun p => p.2.endsWith k) s
  unfold State.killLaunch
  rw [hl]
  simp only [Group.endsWith] at he
  dsimp only
  rw [he]
  cases hp : l.pin with
  | none => exact ⟨_, ⟨rs, rfl, hr⟩, rfl⟩
  | some p =>
    exact ⟨_, ⟨_, rfl, fun k => (State.unpin_lasting { s with regions := rs } p.1 p.2 k).trans (hr k)⟩, rfl⟩

theorem State.foldl_killLaunch (ks : List Nat) (s : State) (hk : ∀ k ∈ ks, (Table.get? s.launches k).isSome = true) :
    ∃ u, PinsDrop s u ∧ ks.foldl State.killLaunch s =
      { u with groups := ks.foldl endGroups s.groups, gangs := ks.foldl endGangs s.gangs, launches := ks.foldl endLaunch s.launches } := by
  induction ks generalizing s with
  | nil => exact ⟨s, .refl s, rfl⟩
  | cons k r ih =>
    obtain ⟨l, hl⟩ := Option.isSome_iff_exists.mp (hk k (.head _))
    obtain ⟨-, ⟨rs, rfl, hr⟩, he⟩ := State.killLaunch_eq hl
    have hk' : ∀ j ∈ r, (Table.get? (s.killLaunch k).launches j).isSome = true := by
      intro j hj
      rw [he]
      dsimp only
      rw [endLaunch, Table.get?_modify]
      split
      · simp [hl]
      · exact hk j (.tail _ hj)
    obtain ⟨-, ⟨rs', rfl, hr'⟩, hf⟩ := ih (s.killLaunch k) hk'
    rw [he] at hf hr'
    refine ⟨_, ⟨rs', rfl, fun k => (hr' k).trans (hr k)⟩, ?_⟩
    rw [List.foldl_cons, he, hf]
    rfl

theorem endGangs_eq_filter {t : Table Gang} (hn : (t.map Prod.fst).Nodup) (k : Nat) : endGangs t k = t.filter fun p => p.2.launch != k :=
  Table.foldl_erase_filter hn _

theorem foldl_endGangs {t : Table Gang} (hn : (t.map Prod.fst).Nodup) (ks : List Nat) :
    ks.foldl endGangs t = t.filter fun p => !ks.contains p.2.launch := by
  induction ks generalizing t with
  | nil => simp
  | cons k r ih =>
    rw [List.foldl_cons, endGangs_eq_filter hn, ih (Table.nodup_filter hn _), List.filter_filter]
    refine List.filter_congr fun p _ => ?_
    by_cases e : p.2.launch = k
    · simp [e]
    · simp [e]

theorem get?_foldl_endLaunch (ks : List Nat) (t : Table Launch) (k : Nat) :
    Table.get? (ks.foldl endLaunch t) k = if k ∈ ks then (Table.get? t k).map Launch.ended else Table.get? t k :=
  Table.get?_foldl_modify (f := Launch.ended) (fun _ => rfl) ks t k

/-- The launches that a kill of a region's subtree ends. -/
def State.launchesUnder (s : State) (top : Nat) : List Nat := (s.launches.filter fun p => s.under top p.2.region).map Prod.fst

theorem State.mem_launchesUnder (hn : (s.launches.map Prod.fst).Nodup) :
    k ∈ s.launchesUnder top ↔ ∃ l, Table.get? s.launches k = some l ∧ s.under top l.region = true := Table.mem_keys_filter hn

theorem State.launchesUnder_isSome (hn : (s.launches.map Prod.fst).Nodup) :
    ∀ k ∈ s.launchesUnder top, (Table.get? s.launches k).isSome = true := by
  intro k hk
  obtain ⟨l, hl, -⟩ := (State.mem_launchesUnder hn).mp hk
  simp [hl]

/-- A region that a kill has ended, and another. -/
def State.killedRegion (s : State) (top : Nat) (p : Nat × Region) : Nat × Region :=
  if s.under top p.1 then (p.1, { p.2 with killed := true, gate := none }) else p

theorem State.killRegion_eq (hn : (s.launches.map Prod.fst).Nodup) (top : Nat) :
    ∃ u, PinsDrop s u ∧ s.killRegion top =
      { u with
        regions := u.regions.map (s.killedRegion top)
        groups := (s.launchesUnder top).foldl endGroups s.groups
        gangs := (s.launchesUnder top).foldl endGangs s.gangs
        launches := (s.launchesUnder top).foldl endLaunch s.launches
        colls := s.colls.filter fun c => !(s.launchesUnder top).contains c.launch
        xlat := { s.xlat with
          requests := s.xlat.requests.filter fun p => !s.under top p.2.region
          ingress := s.xlat.ingress.filter fun i => !s.under top i.holder } } := by
  obtain ⟨-, ⟨rs, rfl, hr⟩, he⟩ := State.foldl_killLaunch (s.launchesUnder top) s (State.launchesUnder_isSome hn)
  obtain ⟨rs', hu, hr'⟩ := PinsDrop.foldl (fun s (i : Ingress) => .unpin s i.holder i.slot)
    (s.xlat.ingress.filter fun i => s.under top i.holder) ((s.launchesUnder top).foldl State.killLaunch s)
  rw [he] at hu hr'
  refine ⟨_, ⟨rs', rfl, fun k => (hr' k).trans (hr k)⟩, ?_⟩
  unfold State.killRegion
  simp only [State.launchesUnder] at he hu
  dsimp only
  rw [he, hu]
  rfl

/-- Whether a launch is one of the subtree of top. -/
def State.launchUnder (s : State) (top launch : Nat) : Bool :=
  match Table.get? s.launches launch with
  | none => false
  | some l => s.under top l.region

theorem State.launchUnder_iff {launch : Nat} :
    s.launchUnder top launch = true ↔ ∃ l, Table.get? s.launches launch = some l ∧ s.under top l.region = true := by
  unfold State.launchUnder
  cases Table.get? s.launches launch <;> simp

/-! ## Suspending -/

/-- A gang of a region that is suspended. -/
def Gang.suspend (a : Gang) : Gang := { a with preempt := if a.preempt == .parked then .parked else .forced, suspended := a.suspended || true }

theorem Gang.suspend_eq (a : Gang) : a.suspend = { a with preempt := if a.preempt = .parked then .parked else .forced, suspended := true } := by
  simp [Gang.suspend]

theorem Gang.suspend_suspend (a : Gang) : a.suspend.suspend = a.suspend := by
  unfold Gang.suspend
  cases a.preempt <;> simp

theorem State.foldl_forceGang (ps : List (Nat × Gang)) (s : State) :
    ps.foldl (fun s p => s.forceGang p.1 true) s =
      { s with gangs := (ps.map Prod.fst).foldl (fun t k => Table.modify t k Gang.suspend) s.gangs } := by
  induction ps generalizing s with
  | nil => rfl
  | cons p r ih => exact ih _

theorem State.suspendRegion_eq (s : State) (top : Nat) : s.suspendRegion top =
    { s with
      regions := s.regions.map fun p => if s.under top p.1 then (p.1, { p.2 with suspended := true }) else p
      gangs := ((s.gangs.filter fun p => s.launchUnder top p.2.launch).map Prod.fst).foldl
        (fun t k => Table.modify t k Gang.suspend) s.gangs } :=
  congrArg (fun t : State => { t with
    regions := t.regions.map fun (p : Nat × Region) => if s.under top p.1 then (p.1, { p.2 with suspended := true }) else p })
    (State.foldl_forceGang (s.gangs.filter fun p => s.launchUnder top p.2.launch) s)

theorem get?_gangs_suspendRegion (hn : (s.gangs.map Prod.fst).Nodup) (top k : Nat) :
    Table.get? (s.suspendRegion top).gangs k =
      (Table.get? s.gangs k).map fun a => if s.launchUnder top a.launch = true then a.suspend else a := by
  rw [State.suspendRegion_eq]
  dsimp only
  rw [Table.get?_foldl_modify Gang.suspend_suspend]
  simp only [Table.mem_keys_filter hn]
  cases Table.get? s.gangs k with
  | none => simp
  | some a => by_cases h : s.launchUnder top a.launch = true <;> simp [h]

theorem regionSuspended : Claims.RegionSuspended := by
  intro s q top ha hn
  rw [exec_regionSuspend, execRegionSuspend, State.serveWith_asked ha]
  refine ⟨fun hr => by simp [hr], fun hr => ⟨s.suspendRegion top, by simp [hr], ?_, ?_, ?_⟩⟩
  · rw [State.suspendRegion_eq]
  · intro k R hk
    rw [State.suspendRegion_eq]
    dsimp only
    rw [Table.get?_map (fun p => by split <;> rfl), hk, Option.map_some]
    split <;> rfl
  · intro k a hk
    rw [get?_gangs_suspendRegion hn, hk]
    simp only [Option.map_some, State.launchUnder_iff, Gang.suspend_eq]

/-! ## Resuming -/

theorem Group.released?_eq (g : Group) :
    g.released? = if g.ctl.cause = .suspend then { g with ctl := { g.ctl with cause := .resumed, ctxAns := [], ctxWalked := [] } } else g := by
  simp [Group.released?]

theorem regionResumed : Claims.RegionResumed := by
  intro s q top ha
  rw [exec_regionResume, execRegionResume, State.serveWith_asked ha]
  refine ⟨fun hr => by simp [hr], fun hr => ⟨s.resumeRegion top, by simp [hr], rfl, ?_, ?_, ?_⟩⟩
  · intro k R hk
    have hregs : (s.resumeRegion top).regions = s.regions.map fun p =>
        if s.under top p.1 then (p.1, { p.2 with suspended := false }) else p := rfl
    rw [hregs, Table.get?_map (fun p => by split <;> rfl), hk, Option.map_some]
    split <;> rfl
  · intro k a hk
    have hgangs : (s.resumeRegion top).gangs = s.gangs.map fun p =>
        if s.launchUnder top p.2.launch then (p.1, { p.2 with suspended := false, again := p.2.again || p.2.suspended }) else p := rfl
    rw [hgangs, Table.get?_map (fun p => by split <;> rfl), hk, Option.map_some]
    simp only [State.launchUnder_iff]
    split <;> rfl
  · intro k g hk
    have hgroups : (s.resumeRegion top).groups = s.groups.map fun p =>
        if s.launchUnder top p.2.id.launch && !p.2.id.walker then (p.1, p.2.released?) else p := rfl
    rw [hgroups, Table.get?_map (fun p => by split <;> rfl), hk, Option.map_some]
    simp only [Bool.and_eq_true, Bool.not_eq_true', State.launchUnder_iff, Group.released?_eq]
    split
    · next h => simp [h]
    · next h => exact congrArg some (if_neg fun ⟨h₁, h₂, _⟩ => h ⟨h₁, h₂⟩).symm

/-! ## Killing -/

theorem regionKilled : Claims.RegionKilled := by
  intro s q top ha hgangs hgroups hlaunches ends
  rw [exec_regionKill, execRegionKill, State.serveWith_asked ha]
  refine ⟨fun hr => by simp [hr], fun hr => ⟨s.killRegion top, by simp [hr], ?_⟩⟩
  have hends : ∀ launch, launch ∈ s.launchesUnder top ↔ ends launch := fun _ => State.mem_launchesUnder hlaunches
  obtain ⟨u, hu, he⟩ := State.killRegion_eq hlaunches top
  have hEnded : Ended s.groups ((s.launchesUnder top).foldl endGroups s.groups) (s.launchesUnder top).reverse := by
    simpa using (Ended.refl s.groups).foldl hgroups (s.launchesUnder top)
  rw [he]
  refine ⟨?_, ?_, ?_, ?_, ?_, ?_⟩
  · obtain ⟨rs, rfl, -⟩ := hu
    exact fun _ => rfl
  · intro k R hk
    obtain ⟨R', hR', hkilled, hgate, hslots⟩ := hu.get? hk
    dsimp only
    rw [Table.get?_map (fun p => by unfold State.killedRegion; split <;> rfl), hR', Option.map_some]
    refine ⟨_, rfl, ?_⟩
    simp only [State.killedRegion]
    cases s.under top k <;> simp [hkilled, hgate, hslots]
  · intro k l hk
    dsimp only
    have hmem : k ∈ s.launchesUnder top ↔ s.under top l.region = true := by rw [State.mem_launchesUnder hlaunches, hk]; simp
    rw [get?_foldl_endLaunch, hk]
    simp only [hmem]
    split <;> rfl
  · intro k a hk
    dsimp only
    rw [foldl_endGangs hgangs, Table.get?_filter hgangs, hk]
    simp [hends]
  · intro k g hk gone
    dsimp only
    have hgone : (∃ l ∈ (s.launchesUnder top).reverse, g.endsWith l = true) ↔ gone := by
      simp only [List.mem_reverse, hends, Group.endsWith, Bool.and_eq_true, beq_iff_eq, Bool.not_eq_true']
      exact ⟨fun ⟨_, he, ⟨hl, hw⟩, hd⟩ => ⟨hl ▸ he, hw, hd⟩, fun ⟨he, hw, hd⟩ => ⟨_, he, ⟨rfl, hw⟩, hd⟩⟩
    rw [hEnded.get?, hk, Option.bind_some]
    refine ⟨fun hn => if_neg (mt hgone.mp hn), fun hg hl => ?_, fun hg hl => ?_⟩
    · rw [if_pos (hgone.mpr hg), Group.discarded_eq_none hl]
    · rw [if_pos (hgone.mpr hg)]
      exact Group.discarded_of_left hl
  · intro p
    simp

/-- Settles O52: a suspension marks gangs one by one, which is a map of their table; a kill ends launches one by one, of which each discards its
own groups and gangs and drops pins. -/
theorem regionControl : Obligations.RegionControl := by
  unfold Obligations.RegionControl
  exact ⟨regionSuspended, regionResumed, regionKilled⟩

end
end Sys2Proof.Machine

end

section

/-! Gangs that resume (O58): which group of the gang gets the reloads of its panels. -/

set_option Elab.async false

namespace Sys2Proof.Machine

namespace ResumedGang

/-- The device on which the gang is placed. -/
def device : State := State.reset.placedDevice .vector 0#32

/-- A group of the gang, parked with its context saved. -/
def member : Group :=
  let g := (device.newGroup (placedLaunch .vector) ⟨1, 1, 0, 0, 0, 0⟩ (placedPosition .vector) 0).bornActive
  { g with ctl := { g.ctl with ctx := 0x20000#64, act := .parked, cause := .preempt, saved := true } }

/-- The gang, parked, with one loaded panel. -/
def gang : Gang := { placedGang with preempt := .parked, panels := [(0, ⟨[], [], some 0, [], 0, false⟩)] }

/-- The device with two groups of that gang, whose table is not in the order of its keys. -/
def state : State := { device with gangs := [(1, gang)], groups := [(5, member), (2, member)] }

/-- The number of engine commands of group 5 after a step. -/
def commandsAfter (o : Out) : Option Nat :=
  match o with
  | .next t => (Table.get? t.groups 5).map fun g => g.fl.cmds.length
  | .fault _ => none
  | .refused _ => none

/-- The reload of the panel goes to group 2. -/
theorem commandsAfter_gangResume : commandsAfter (exec (.gangResume 1 3) state) = some 0 := by decide +kernel

/-- The gang may be resumed on cluster 3. -/
theorem mayResume_state : state.mayResume 1 gang (placedLaunch .vector) 3 = true := by decide +kernel

end ResumedGang

/-- Refutes O58: its clause of a resumed gang (R37) has the reloads of the panels go to the group that comes first in the table of groups, and
takes every table whose keys are distinct. In a table that is not in the order of its keys (group 5 before group 2) that group is another one
once the groups have moved, for a move sets the entry of group 2 before that of group 5: group 5 gets no command. -/
theorem not_parkingAndPreemption : ¬ Obligations.ParkingAndPreemption := by
  unfold Obligations.ParkingAndPreemption
  rintro ⟨-, -, -, -, -, -, -, -, -, -, -, hResumes⟩
  obtain ⟨t, A, ht, -, -, -, -, -, -, -, -, -, -, hGroups⟩ :=
    hResumes ResumedGang.state 1 3 ResumedGang.gang (placedLaunch .vector) rfl rfl ResumedGang.mayResume_state (by decide +kernel)
  obtain ⟨h, hh, -, -, -, -, -, -, hFirst⟩ := hGroups 5 ResumedGang.member rfl (by decide +kernel) (by decide +kernel) (by decide +kernel)
  rw [if_pos (by decide +kernel)] at hFirst
  obtain ⟨new, hcmds, hlen, -⟩ := hFirst
  have hLoads : new.length = 1 := hlen.trans (by decide +kernel)
  have hNone : h.fl.cmds.length = 0 := by
    have h0 := ResumedGang.commandsAfter_gangResume
    rw [ht] at h0
    simpa [ResumedGang.commandsAfter, hh] using h0
  rw [hcmds, List.length_append] at hNone
  omega

end Sys2Proof.Machine

end

section

/-! Limits of progress, the watchdog and the comparators (O59): what a trap does that goes to the fault domain, or stops the group for the debugger. -/

set_option Elab.async false

namespace Sys2Proof.Machine

section

variable {s : State} {k : Nat} {g : Group} {v : SetView}

/-! ## Limits of progress -/

theorem progressPromise : Claims.ProgressPromise := by
  intro s k g hk hp
  refine ⟨fun hcur hcount hwait => ?_, fun hurgent hsince hready => ?_⟩
  · have hdue : s.fairnessDue g = true := by
      obtain ⟨v, hv, hne, h256⟩ := hwait
      simp only [State.fairnessDue, hp, hcount, Bool.and_eq_true, bne_iff_ne, List.any_eq_true, decide_eq_true_eq]
      exact ⟨⟨⟨trivial, hcur⟩, by simp⟩, v, hv, hne, h256⟩
    rw [exec_fairnessLimit, execFairnessLimit, hk]
    dsimp only
    rw [if_pos hdue]
    rfl
  · have hdue : s.progressDue g = true := by simp [State.progressDue, hurgent, hp, hsince, hready]
    rw [exec_progressWaitLimit, execProgressWaitLimit, hk]
    dsimp only
    rw [if_pos hdue]
    rfl

/-! ## The watchdog -/

theorem State.mem_readySets : v ∈ s.readySets g ↔ s.mayStand g = true ∧ v ∈ s.views g ∧ v.ready = true := by
  unfold State.readySets
  split
  · next h => simp [h]
  · next h => simp [h]

/-- The watchdog names a ready set that has waited for the limit, and only while the promise is off. -/
theorem State.watchdogSet_eq_some (h : s.watchdogSet g = some v) :
    v ∈ s.readySets g ∧ s.watchdog (s.regionOf g) ≤ v.count ∧ s.watchdog (s.regionOf g) ≠ 0 ∧ s.promise (s.regionOf g) = false
      ∧ g.id.walker = false := by
  unfold State.watchdogSet at h
  dsimp only at h
  split at h
  · cases h
  · next hno =>
    simp only [Bool.or_eq_true, decide_eq_true_eq, Bool.not_eq_true', not_or, Bool.not_eq_false, Bool.not_eq_true] at hno
    obtain ⟨⟨⟨hlim, hp⟩, hw⟩, hstand⟩ := hno
    have hv := List.find?_some h
    simp only [Bool.and_eq_true, decide_eq_true_eq] at hv
    exact ⟨State.mem_readySets.mpr ⟨hstand, List.mem_of_find?_eq_some h, hv.1⟩, hv.2, hlim, hp, hw⟩

theorem State.watchdogSet_isSome (hlim : s.watchdog (s.regionOf g) ≠ 0) (hp : s.promise (s.regionOf g) = false) (hw : g.id.walker = false)
    (hv : ∃ v ∈ s.readySets g, s.watchdog (s.regionOf g) ≤ v.count) : ∃ v, s.watchdogSet g = some v := by
  obtain ⟨v, hv, hcount⟩ := hv
  obtain ⟨hstand, hmem, hready⟩ := State.mem_readySets.mp hv
  rw [← Option.isSome_iff_exists, State.watchdogSet, if_neg (by simp [hlim, hp, hw, hstand]), List.find?_isSome]
  exact ⟨v, hmem, by simp [hready, hcount]⟩

theorem State.candidate_of_watchdogSet (h : s.watchdogSet g = some v) : s.candidate g = none := by
  simp [State.candidate, State.mayIssue, h]

/-- A group whose trap state records a trap that goes to the fault domain. -/
def Group.recorded (g : Group) (t : TrapReq) : Group :=
  { g with
    tr := { g.tr with st := t.toState g.tr.st.active false false, entering := none }
    ctl := { g.ctl with watchdogged := g.ctl.watchdogged || t.code == codeWatchdog } }

theorem State.toFaultDomain_kill {t : TrapReq} (hk : Table.get? s.groups k = some g) (hd : g.view.faultDomain = 0) :
    s.toFaultDomain k t = ((s.setGroup k (g.recorded t)).countTrap (g.recorded t)).killRegion (s.regionOf g) := by
  unfold State.toFaultDomain
  rw [hk]
  dsimp only
  rw [hd]
  rfl

theorem State.toFaultDomain_suspend {t : TrapReq} (hk : Table.get? s.groups k = some g) (hd : g.view.faultDomain = 1) :
    s.toFaultDomain k t = ((s.setGroup k (g.recorded t)).countTrap (g.recorded t)).suspendRegion (s.regionOf g) := by
  unfold State.toFaultDomain
  rw [hk]
  dsimp only
  rw [hd]
  rfl

/-- A group of which the driver is told: it parks, or stays parked until the driver lets it go on. -/
def Group.toldOf (g : Group) : Group :=
  if g.ctl.act == .parked then { g with ctl := { g.ctl with cause := .suspend, wakeSince := none } } else g.park .suspend

theorem State.toFaultDomain_tell {t : TrapReq} (hk : Table.get? s.groups k = some g) (hd : 1 < g.view.faultDomain) :
    s.toFaultDomain k t = (((s.setGroup k (g.recorded t)).countTrap (g.recorded t)).setGroup k (g.recorded t).toldOf).notice
      (noticeBytes 3 (g.recorded t).toldOf.id.frame t.code.toNat t.pc.toNat) := by
  obtain ⟨n, hn⟩ : ∃ n, g.view.faultDomain = n + 2 := ⟨g.view.faultDomain - 2, by omega⟩
  unfold State.toFaultDomain
  rw [hk]
  dsimp only
  rw [hn]
  rfl

theorem State.raiseAtIssue_watchdog (hk : Table.get? s.groups k = some g) (hw : g.id.walker = false) (hpend : g.fl.pend = []) :
    s.raiseAtIssue k (watchdogTrap g v) = s.toFaultDomain k (watchdogTrap g v) := by
  have hstop : s.stopsAt g (watchdogTrap g v) = false := by simp [State.stopsAt, watchdogTrap, codeWatchdog, codeBreak, codeStep]
  have hcode : ((watchdogTrap g v).code == codeWatchdog) = true := by simp [watchdogTrap]
  unfold State.raiseAtIssue
  rw [hk]
  dsimp only
  rw [hpend, if_pos (by simp)]
  unfold State.takeTrap
  rw [hk]
  dsimp only
  rw [if_neg (by simp [hw]), if_neg (by simp [hstop]), if_pos hcode, ite_self]

theorem Group.recorded_watchdog (g : Group) (v : SetView) : g.recorded (watchdogTrap g v) =
    { g with
      tr := { g.tr with st := (watchdogTrap g v).toState g.tr.st.active false false, entering := none }
      ctl := { g.ctl with watchdogged := true } } := by
  simp [Group.recorded, watchdogTrap]

theorem exec_watchdog_of_none (hk : Table.get? s.groups k = some g) (h : s.watchdogSet g = none) : exec (.watchdog k) s = .next s := by
  rw [exec_watchdog, execWatchdog, hk]
  dsimp only
  rw [h]

theorem exec_watchdog_of_some (hk : Table.get? s.groups k = some g) (hw : g.id.walker = false) (hpend : g.fl.pend = [])
    (h : s.watchdogSet g = some v) : exec (.watchdog k) s = .next (s.toFaultDomain k (watchdogTrap g v)) := by
  rw [exec_watchdog, execWatchdog, hk]
  dsimp only
  rw [h]
  dsimp only
  rw [State.raiseAtIssue_watchdog hk hw hpend]

theorem watchdogTraps : Claims.WatchdogTrap := by
  intro s k g hk lim
  refine ⟨fun hno => ?_, fun hlim hp hw hpend hv => ?_, fun v hv => State.candidate_of_watchdogSet hv⟩
  · have hnone : s.watchdogSet g = none := by
      refine Option.eq_none_iff_forall_ne_some.mpr fun v hv => ?_
      obtain ⟨hready, hcount, hlim, hp, -⟩ := State.watchdogSet_eq_some hv
      rcases hno with h0 | hp' | hall
      · exact hlim h0
      · rw [hp] at hp'; cases hp'
      · exact absurd (hall v hready) (Nat.not_lt.mpr hcount)
    exact exec_watchdog_of_none hk hnone
  · obtain ⟨v, hset⟩ := State.watchdogSet_isSome hlim hp hw hv
    obtain ⟨hready, hcount, -⟩ := State.watchdogSet_eq_some hset
    have hexec := exec_watchdog_of_some hk hw hpend hset
    refine ⟨v, hready, hcount, fun hd => ?_, fun hd => ?_, fun hd hact => ?_⟩
    · rw [hexec, State.toFaultDomain_kill hk hd, Group.recorded_watchdog]
      rfl
    · rw [hexec, State.toFaultDomain_suspend hk hd, Group.recorded_watchdog]
      rfl
    · rw [hexec, State.toFaultDomain_tell hk hd, Group.recorded_watchdog]
      refine ⟨_, rfl, ?_, ?_, fun j hj => ?_⟩
      · have hact' : (g.ctl.act == .parked) = false := by simp [hact]
        simp only [State.notice_groups, State.setGroup_groups, Table.get?_set_self, Group.toldOf, hact']
        rfl
      · simp only [State.countTrap, State.notice, State.tally, State.modPart, State.setGroup]
      · simp [State.countTrap, Table.get?_set_ne _ _ hj]

/-! ## Comparators -/

theorem comparatorMatches_iff {w : BitVec 128} {pc : BitVec 64} {queue grpid : Nat} :
    comparatorMatches w pc queue grpid = true ↔ w.getLsbD 63 = true ∧ (w.extractLsb' 0 56).setWidth 64 = pc
      ∧ (w.getLsbD 64 = true ∨ (w.extractLsb' 96 16).toNat = queue) ∧ w.getLsbD (112 + grpid % 16) = true := by
  have hw : w.extractLsb' 0 56 = w.setWidth 56 := by ext; simp
  simp only [comparatorMatches, hw, Bool.and_eq_true, Bool.or_eq_true, beq_iff_eq, and_assoc]

/-- The moves of an issue when no value is pending. -/
theorem Group.issueMoves_of_none (hpend : g.fl.pend = []) (set : BitVec 32) :
    (g.dirtyLines (pendLines (g.movesAt false set))).moves false set = g := by
  have hmoves : g.movesAt false set = [] := by simp [Group.movesAt, hpend]
  rw [hmoves]
  simp [pendLines, Group.dirtyLines, Group.moves, hpend]

/-- A group that a trap stops for the debugger: its lanes stand where it returns to, and it parks (25: R405). -/
def Group.stoppedBy (g : Group) (t : TrapReq) : Group :=
  let m := t.mask &&& g.live
  let waits := (lanesOf m).any fun l => (g.waitOf l).isSome
  let g := g.sendTo m t.ret
  { g with
    tr := { g.tr with st := t.toState g.tr.st.active (waits || (g.tr.st.active && g.tr.st.resume)) false, entering := none }
    ctl := { g.ctl with stopped := true } }

theorem State.raiseAtIssue_stops {t : TrapReq} (hk : Table.get? s.groups k = some g) (hw : g.id.walker = false)
    (hstop : s.stopsAt g t = true) :
    s.raiseAtIssue k t = (s.setGroup k ((g.stoppedBy t).park .debug)).countTrap (g.stoppedBy t) := by
  unfold State.raiseAtIssue
  rw [hk]
  dsimp only
  rw [hstop, Bool.or_true, if_pos rfl]
  unfold State.takeTrap
  rw [hk]
  dsimp only
  rw [if_neg (by simp [hw]), if_pos hstop]
  rfl

theorem Group.sendTo_eq (m : BitVec 32) (pc : BitVec 56) (g : Group) :
    ∃ p f, g.sendTo m pc = { g with ctl := { g.ctl with pcs := p, fetched := f } } := by
  obtain ⟨p, hp⟩ := Group.setPcs_eq m (fun _ => pc.setWidth 64) g
  exact ⟨p, _, by rw [Group.sendTo, Group.goto, hp]⟩

theorem Group.sendTo_pc (m : BitVec 32) (pc : BitVec 56) (g : Group) (l : Nat) (hl : l < 32) :
    (g.sendTo m pc).pc l = if has m l = true then pc.setWidth 64 else g.pc l := by
  have h := Group.setPcs_pc m (fun _ => pc.setWidth 64) g l hl
  simp only [Group.sendTo, Group.goto, Group.pc] at h ⊢
  exact h

theorem Group.stoppedBy_pc (g : Group) (t : TrapReq) (l : Nat) (hl : l < 32) :
    (g.stoppedBy t).pc l = if has (t.mask &&& g.live) l = true then t.ret.setWidth 64 else g.pc l := by
  have h := Group.sendTo_pc (t.mask &&& g.live) t.ret g l hl
  simp only [Group.stoppedBy, Group.pc] at h ⊢
  exact h

theorem Group.stoppedBy_regs (g : Group) (t : TrapReq) : (g.stoppedBy t).regs = g.regs := by
  obtain ⟨p, f, h⟩ := Group.sendTo_eq (t.mask &&& g.live) t.ret g
  simp only [Group.stoppedBy, h]

theorem Group.stoppedBy_st (g : Group) (t : TrapReq) :
    ∃ resume, (g.stoppedBy t).tr.st = t.toState g.tr.st.active resume false := by
  obtain ⟨p, f, h⟩ := Group.sendTo_eq (t.mask &&& g.live) t.ret g
  simp only [Group.stoppedBy, h]
  exact ⟨_, rfl⟩

theorem Group.stoppedBy_stopped (g : Group) (t : TrapReq) : (g.stoppedBy t).ctl.stopped = true := rfl

theorem Group.park_pc (g : Group) (c : ParkCause) (l : Nat) : (g.park c).pc l = g.pc l := rfl

/-- The first comparator that a set matches. -/
theorem State.comparatorHit_eq {top c : Nat} (hatt : s.dbg.attached = some top) (hund : s.under top (s.regionOf g) = true)
    (hun : g.ctl.uncompared &&& v.mask = 0#32) (hw : g.id.walker = false) (hc : c < 8)
    (hhit : comparatorMatches (Table.getD s.dbg.comparators c 0#128) v.pc (s.launchOf g).1 g.id.grpid = true)
    (hfirst : ∀ j, j < c → ¬ comparatorMatches (Table.getD s.dbg.comparators j 0#128) v.pc (s.launchOf g).1 g.id.grpid = true) :
    s.comparatorHit g v = some c := by
  unfold State.comparatorHit
  dsimp only
  rw [if_neg (by simp [hun, hw, State.debugHeld, hatt, hund]), List.find?_range_eq_some]
  refine ⟨hhit, by simpa using hc, fun j hj => by simpa using hfirst j hj⟩

theorem comparatorMatch : Claims.ComparatorMatch := by
  intro s k c top g v w hk hcand hfetch hatt hund hun hw hpend hits hc hhit hfirst
  have hcmp : s.comparatorHit g v = some c :=
    State.comparatorHit_eq hatt hund hun hw hc (comparatorMatches_iff.mpr hhit) fun j hj hm => hfirst j hj (comparatorMatches_iff.mp hm)
  let u : State := { s with groups := Table.set s.groups k g }
  have hmoved : s.modGroup k (fun g => (g.dirtyLines (pendLines (g.movesAt false v.mask))).moves false v.mask) = u := by
    rw [State.modGroup, Table.modify, hk]
    dsimp only
    rw [Group.issueMoves_of_none hpend]
  have huk : Table.get? u.groups k = some g := Table.get?_set_self _ _ _
  have hstop : u.stopsAt g (breakBefore v.mask v.pc w c) = true := by
    have hheld : u.debugHeld (u.regionOf g) = true := by
      have : s.debugHeld (s.regionOf g) = true := by simp [State.debugHeld, hatt, hund]
      exact this
    simp [State.stopsAt, hw, hheld, breakBefore]
  have hexec : exec (.pcComparatorMatch k) s = .next
      ((u.setGroup k ((g.stoppedBy (breakBefore v.mask v.pc w c)).park .debug)).countTrap (g.stoppedBy (breakBefore v.mask v.pc w c))) := by
    rw [exec_pcComparatorMatch, execPcComparatorMatch, hk]
    dsimp only
    rw [hcand]
    dsimp only
    rw [hcmp, hfetch]
    dsimp only
    rw [State.trapWord, hmoved, State.raiseAtIssue_stops huk hw hstop]
  obtain ⟨resume, hst⟩ := Group.stoppedBy_st g (breakBefore v.mask v.pc w c)
  refine ⟨_, (g.stoppedBy (breakBefore v.mask v.pc w c)).park .debug, hexec, ?_, fun j hj => ?_, fun _ => rfl, rfl, rfl,
    Group.stoppedBy_stopped g (breakBefore v.mask v.pc w c), ?_⟩
  · simp only [State.countTrap, State.tally_groups, State.setGroup_groups, Table.get?_set_self]
  · simp [State.countTrap, u, Table.get?_set_ne _ _ hj]
  · simp only [Group.park, Group.stoppedBy_regs, hst]
    exact ⟨rfl, rfl, rfl, rfl, rfl, rfl, trivial, fun l hl => (Group.park_pc _ .debug l).trans (Group.stoppedBy_pc _ _ l hl)⟩

end
end Sys2Proof.Machine

end

section

/-! The debugger's requests (O59): what they answer, and the bytes that firmware stores. -/

set_option Elab.async false

namespace Sys2Proof.Machine

section

variable {s t : State} {q : Request} {k : Nat} {g : Group}

/-! ## What firmware stores -/

/-- A field of numbers of n bytes each, one after another. -/
theorem fieldAt_flatMap {α : Type} (n : Nat) (f : α → Nat) (xs : List α) {j : Nat} {x : α} (hj : xs[j]? = some x) :
    fieldAt (xs.flatMap fun x => leBytes n (f x)) (n * j) n = f x % 256 ^ n := by
  induction xs generalizing j with
  | nil => cases hj
  | cons y r ih =>
    rw [List.flatMap_cons]
    cases j with
    | zero =>
      cases hj
      exact fieldAt_head
    | succ j =>
      have hskip : n * (j + 1) - n = n * j := by rw [Nat.mul_succ, Nat.add_sub_cancel]
      rw [fieldAt_skip (Nat.le_mul_of_pos_right n j.succ_pos), hskip]
      exact ih hj

theorem length_flatMap_leBytes {α : Type} (n : Nat) (f : α → Nat) (xs : List α) :
    (xs.flatMap fun x => leBytes n (f x)).length = n * xs.length := by
  induction xs with
  | nil => rfl
  | cons x r ih => rw [List.flatMap_cons, List.length_append, leBytes_length, ih, List.length_cons, Nat.mul_succ, Nat.add_comm]

/-- Bytes that firmware stores at their home stand there, and no other byte changes. -/
theorem State.engineStore_mem {pa : Nat} {bs : List Byte} (hq : Quiet s) (hs : s.spoilt pa bs.length true = none) :
    (s.engineStore pa bs).mem = s.mem.setBytes pa bs := by
  rw [State.engineStore_of_quiet hq hs]
  rfl

theorem Group.accBytes_length (g : Group) (a : Nat) : (g.accBytes a).length = 4096 := by
  rw [Group.accBytes, length_flatMap_leBytes, List.length_range]

theorem Group.fieldAt_accBytes (g : Group) (a : Nat) {j : Nat} (hj : j < 1024) :
    fieldAt (g.accBytes a) (4 * j) 4 = (Table.getD g.regs.acc (1024 * a + j) 0#32).toNat := by
  rw [Group.accBytes, fieldAt_flatMap 4 _ _ (List.getElem?_range hj)]
  exact Nat.mod_eq_of_lt (BitVec.isLt _)

/-! ## The debugger's requests -/

theorem State.serveWith_gives {code : Nat} {ops : List Byte} {f : State → State × BitVec 64} {r : BitVec 64} (ha : Asked s q code ops)
    (hf : f s = (t, r)) : s.serveWith code ops f = .next (t.respond q r []) := by
  rw [State.serveWith_asked ha, hf]

theorem debugAttaches {rcb : Nat} (ha : Asked s q 0x0033 (opWords [1, rcb])) :
    (s.dbg.attached ≠ none → exec (.debugAttach rcb) s = .next (s.respond q 1#64 []))
      ∧ (s.dbg.attached = none → s.registered rcb = true → exec (.debugAttach rcb) s =
        .next (({ s with dbg := { s.dbg with attached := some rcb } } : State).respond q 0#64 [])) := by
  rw [exec_debugAttach, execDebugAttach]
  refine ⟨fun h => State.serveWith_gives ha (if_pos ?_), fun h hr => State.serveWith_gives ha (if_neg ?_)⟩
  · simp [Option.isSome_iff_ne_none, h]
  · simp [h, hr]

/-- The bits of a comparator word that are not reserved. -/
theorem comparatorBits_getLsbD : ∀ b, b < 128 → comparatorBits.getLsbD b = !decide (b < 2 ∨ 56 ≤ b ∧ b < 63 ∨ 65 ≤ b ∧ b < 96) := by
  decide

theorem debugComparatorWrites {w : BitVec 128} (ha : Asked s q 0x0033 (opWords [2, k] ++ leBytes 16 w.toNat)) :
    (8 ≤ k → exec (.debugComparatorWrite k w) s = .next (s.respond q 1#64 []))
      ∧ (k < 8 → ∃ t : State, exec (.debugComparatorWrite k w) s = .next (t.respond q 0#64 [])
          ∧ { t with dbg := { t.dbg with comparators := s.dbg.comparators } } = s
          ∧ (∀ j, j ≠ k → Table.getD t.dbg.comparators j 0#128 = Table.getD s.dbg.comparators j 0#128)
          ∧ ∀ b, b < 128 → (Table.getD t.dbg.comparators k 0#128).getLsbD b =
            (w.getLsbD b && !decide (b < 2 ∨ 56 ≤ b ∧ b < 63 ∨ 65 ≤ b ∧ b < 96))) := by
  rw [exec_debugComparatorWrite, execDebugComparatorWrite]
  refine ⟨fun h => State.serveWith_gives ha (if_pos h), fun h => ⟨_, State.serveWith_gives ha (if_neg (Nat.not_le.mpr h)), rfl,
    fun j hj => Table.getD_put_ne _ _ _ hj, fun b hb => ?_⟩⟩
  dsimp only
  rw [Table.getD_put_self, BitVec.getLsbD_and, comparatorBits_getLsbD b hb]

theorem Group.inDebugger_iff :
    g.inDebugger = true ↔ g.ctl.stopped = true ∧ g.ctl.cause = .debug ∧ g.id.walker = false ∧ g.ctl.dead = false := by
  simp [Group.inDebugger, and_assoc]

theorem debugResumes {one : Bool} (ha : Asked s q 0x0033 (opWords [3, k] ++ leBytes 1 (Bool.toNat one))) (hk : Table.get? s.groups k = some g) :
    (g.ctl.stopped = false ∨ g.ctl.cause ≠ .debug → exec (.debugResume k one) s = .next (s.respond q 1#64 []))
      ∧ (g.ctl.stopped = true → g.ctl.cause = .debug → g.id.walker = false → g.ctl.dead = false →
        exec (.debugResume k one) s =
          .next (({ s with groups := Table.set s.groups k (g.debugResume one) } : State).respond q 0#64 [])) := by
  rw [exec_debugResume, execDebugResume]
  refine ⟨fun h => State.serveWith_gives ha ?_, fun hs hc hw hd => State.serveWith_gives ha ?_⟩
  · have hin : ¬ g.inDebugger = true := by
      rw [Group.inDebugger_iff]
      rintro ⟨hs, hc, -⟩
      rcases h with h | h
      · rw [hs] at h; cases h
      · exact h hc
    rw [hk]
    exact if_neg hin
  · rw [hk]
    exact if_pos (Group.inDebugger_iff.mpr ⟨hs, hc, hw, hd⟩)

theorem State.readable_of_held {top : Nat} (hatt : s.dbg.attached = some top) (hund : s.under top (s.regionOf g) = true)
    (hact : g.ctl.act = .parked) (hw : g.id.walker = false) (hd : g.ctl.dead = false) : s.readable g = true := by
  simp [State.readable, State.debugHeld, hatt, hund, hact, hw, hd]

theorem debugReadsAccumulator {acc : BitVec 3} {buf : Nat}
    (ha : Asked s q 0x0033 (opWords [4, k] ++ leBytes 1 acc.toNat ++ opWords [buf])) (hk : Table.get? s.groups k = some g)
    (hr : s.readable g = true) (hspan : s.spanOk buf 4096 = true) (hal : buf % 8 = 0) :
    ((∃ c ∈ g.fl.cmds, s.namesAcc g c acc.toNat = true) → exec (.debugReadAccumulator k acc buf) s = .next (s.respond q 2#64 []))
      ∧ ((∀ c ∈ g.fl.cmds, s.namesAcc g c acc.toNat = false) → Quiet s → s.spoilt buf 4096 true = none →
        ∃ t : State, exec (.debugReadAccumulator k acc buf) s = .next (t.respond q 0#64 []) ∧ SameBut s t buf 4096
          ∧ ∀ j, j < 1024 → t.mem.w32 (buf + 4 * j) = Table.getD g.regs.acc (1024 * acc.toNat + j) 0#32) := by
  have hok : ¬ (!s.readable g || !s.spanOk buf 4096 || buf % 8 != 0) = true := by simp [hr, hspan, hal]
  rw [exec_debugReadAccumulator, execDebugReadAccumulator]
  refine ⟨fun hc => State.serveWith_gives ha ?_, fun hc hq hs =>
    ⟨s.engineStore buf (g.accBytes acc.toNat), State.serveWith_gives ha ?_, ?_⟩⟩
  · rw [hk]
    exact (if_neg hok).trans (if_pos (List.any_eq_true.mpr hc))
  · rw [hk]
    exact (if_neg hok).trans (if_neg (by simpa using hc))
  · have hmem := State.engineStore_mem hq (pa := buf) (bs := g.accBytes acc.toNat) (by rw [Group.accBytes_length]; exact hs)
    refine ⟨fun a h => ?_, fun j hj => ?_⟩
    · rw [hmem, Memory.byte_setBytes_out]
      rwa [Group.accBytes_length]
    · rw [hmem, Memory.w32, Memory.nat_setBytes_part _ (by rw [Group.accBytes_length]; omega), Group.fieldAt_accBytes g _ hj,
        BitVec.ofNat_toNat, BitVec.setWidth_eq]

theorem bytesFrom_length (t : Table Byte) (lo n : Nat) : (bytesFrom t lo n).length = n := by simp [bytesFrom]

theorem getD_bytesFrom (t : Table Byte) (lo : Nat) {n j : Nat} (hj : j < n) : (bytesFrom t lo n).getD j 0#8 = Table.getD t (lo + j) 0#8 := by
  simp [bytesFrom, hj]

theorem Group.tileBytes_length (g : Group) (tile : Nat) : (g.tileBytes tile).length = 2176 := by
  rw [Group.tileBytes, List.length_append, bytesFrom_length, bytesFrom_length]

theorem Group.getD_tileBytes (g : Group) (tile : Nat) {j : Nat} (hj : j < 2048) :
    (g.tileBytes tile).getD j 0#8 = Table.getD g.regs.tiles (2048 * tile + j) 0#8 := by
  rw [Group.tileBytes, List.getD_append _ _ _ _ (by rwa [bytesFrom_length]), getD_bytesFrom _ _ hj]

theorem Group.getD_tileBytes_scales (g : Group) (tile : Nat) {j : Nat} (hj : j < 128) :
    (g.tileBytes tile).getD (2048 + j) 0#8 = Table.getD g.regs.scales (128 * tile + j) 0#8 := by
  rw [Group.tileBytes, List.getD_append_right _ _ _ _ (by rw [bytesFrom_length]; omega), bytesFrom_length, Nat.add_sub_cancel_left,
    getD_bytesFrom _ _ hj]

theorem debugReadsTile {tile : BitVec 3} {buf : Nat}
    (ha : Asked s q 0x0033 (opWords [6, k] ++ leBytes 1 tile.toNat ++ opWords [buf])) (hk : Table.get? s.groups k = some g)
    (hr : s.readable g = true) (hspan : s.spanOk buf 2176 = true) (hal : buf % 8 = 0) :
    ((∃ c ∈ g.fl.cmds, c.namesTile tile.toNat = true) → s.tileRead k tile buf = .next (s.respond q 2#64 []))
      ∧ ((∀ c ∈ g.fl.cmds, c.namesTile tile.toNat = false) → Quiet s → s.spoilt buf 2176 true = none →
        ∃ t : State, s.tileRead k tile buf = .next (t.respond q 0#64 []) ∧ SameBut s t buf 2176
          ∧ (∀ j, j < 2048 → t.mem.byte (buf + j) = Table.getD g.regs.tiles (2048 * tile.toNat + j) 0#8)
          ∧ ∀ j, j < 128 → t.mem.byte (buf + 2048 + j) = Table.getD g.regs.scales (128 * tile.toNat + j) 0#8) := by
  have hok : ¬ (!s.readable g || !s.spanOk buf 2176 || buf % 8 != 0) = true := by simp [hr, hspan, hal]
  rw [State.tileRead]
  refine ⟨fun hc => State.serveWith_gives ha ?_, fun hc hq hs =>
    ⟨s.engineStore buf (g.tileBytes tile.toNat), State.serveWith_gives ha ?_, ?_⟩⟩
  · rw [hk]
    exact (if_neg hok).trans (if_pos (List.any_eq_true.mpr hc))
  · rw [hk]
    exact (if_neg hok).trans (if_neg (by simpa using hc))
  · have hlen := Group.tileBytes_length g tile.toNat
    have hmem := State.engineStore_mem hq (pa := buf) (bs := g.tileBytes tile.toNat) (by rw [hlen]; exact hs)
    refine ⟨fun a h => ?_, fun j hj => ?_, fun j hj => ?_⟩
    · rw [hmem, Memory.byte_setBytes_out]
      rwa [hlen]
    · rw [hmem, Memory.byte_setBytes, if_pos (by omega), Nat.add_sub_cancel_left, Group.getD_tileBytes g _ hj]
    · rw [hmem, Memory.byte_setBytes, if_pos (by omega), Nat.add_assoc, Nat.add_sub_cancel_left, Group.getD_tileBytes_scales g _ hj]

theorem Group.detached_eq (g : Group) : g.detached =
    if g.ctl.stopped = true ∧ g.ctl.cause = .debug ∧ g.id.walker = false ∧ g.ctl.dead = false then g.debugResume false
    else if g.ctl.stopped = true then { g with ctl := { g.ctl with stopped := false, uncompared := g.ctl.uncompared ||| g.tr.st.mask } }
    else g := by
  rw [Group.detached]
  simp only [Group.inDebugger_iff]

theorem debugDetaches (ha : Asked s q 0x0033 (opWords [5])) (hatt : s.dbg.attached ≠ none) :
    ∃ t : State, exec .debugDetach s = .next (t.respond q 0#64 []) ∧ { t with dbg := s.dbg, groups := s.groups } = s
      ∧ t.dbg = { s.dbg with attached := none, comparators := [] }
      ∧ ∀ k g, Table.get? s.groups k = some g → Table.get? t.groups k = some g.detached := by
  rw [exec_debugDetach, execDebugDetach]
  refine ⟨_, State.serveWith_gives ha (if_neg (by simpa using hatt)), rfl, rfl, fun k g hk => ?_⟩
  dsimp only
  rw [Table.get?_map (f := fun p : Nat × Group => (p.1, p.2.detached)) (fun _ => rfl), hk]
  rfl

theorem debugger : Claims.Debugger := by
  intro s q no
  refine ⟨fun rcb ha => debugAttaches ha, fun k w ha => debugComparatorWrites ha, fun k one g ha hk => debugResumes ha hk,
    fun k acc buf g top ha hk hatt hund hact hw hd hspan hal =>
      debugReadsAccumulator ha hk (State.readable_of_held hatt hund hact hw hd) hspan hal,
    fun k tile buf g top ha hk hatt hund hact hw hd hspan hal =>
      debugReadsTile ha hk (State.readable_of_held hatt hund hact hw hd) hspan hal,
    fun ha hatt => ?_, fun ha hatt => ?_⟩
  · rw [exec_debugDetach, execDebugDetach]
    exact State.serveWith_gives ha (if_pos (by simp [hatt]))
  · obtain ⟨t, ht, hframe, hdbg, hgroups⟩ := debugDetaches ha hatt
    exact ⟨t, ht, hframe, hdbg, fun k g hk => (hgroups k g hk).trans (congrArg some g.detached_eq)⟩

end
end Sys2Proof.Machine

end

section

/-! Freeze, dump and thaw (O59). -/

set_option Elab.async false

namespace Sys2Proof.Machine

section

variable {s t u : State} {q : Request} {k : Nat} {g : Group} {c : EngCmd}

/-! ## Freezing -/

theorem State.serve_gives {code : Nat} {ops : List Byte} {f : Request → State → State} (ha : Asked s q code ops) (hf : f q s = t) :
    s.serve code ops f = .next t := by
  obtain ⟨ht, hc, ho, hacc⟩ := ha
  simp only [State.serve, ht]
  rw [if_neg (by simp [hc, ho]), if_pos hacc, hf]

theorem State.mayIssue_of_frozen (h : s.dbg.frozen = true) : s.mayIssue g = false := by simp [State.mayIssue, State.mayStand, h]

theorem State.engineRuns_of_frozen (h : s.dbg.frozen = true) (hc : c.started = false ∨ c.stamp ∈ s.dbg.halted) :
    s.engineRuns g c = false := by
  rcases hc with hc | hc
  · simp [State.engineRuns, h, hc]
  · simp [State.engineRuns, hc]

/-- A command that has come to a wait for another party in a freeze is noted, if it is not noted already. -/
theorem State.mem_halted_noteHalts (hf : s.dbg.frozen = true) (hg : (k, g) ∈ s.groups) (hc : c ∈ g.fl.cmds) (hs : c.started = true)
    (hw : s.waitsForParty k g c = true) : c.stamp ∈ s.noteHalts.dbg.halted := by
  unfold State.noteHalts
  rw [if_neg (by simp [hf])]
  extract_lets new
  by_cases hin : c.stamp ∈ s.dbg.halted
  · split
    · exact hin
    · exact List.mem_append_left _ hin
  · have hnew : c.stamp ∈ new :=
      List.mem_flatMap.mpr ⟨_, hg, List.mem_map.mpr ⟨c, List.mem_filter.mpr ⟨hc, by simp [hs, hin, hw]⟩, rfl⟩⟩
    have hne : ¬ new.isEmpty = true := fun he => by
      rw [List.isEmpty_iff.mp he] at hnew
      cases hnew
    rw [if_neg hne]
    exact List.mem_append_right _ hnew

theorem State.stands_of_not_started (h : c.started = false) : s.stands k g c = true := by simp [State.stands, State.rests, h]

theorem State.allStand_of_not_started (h : ∀ p ∈ s.groups, ∀ c ∈ p.2.fl.cmds, c.started = false) : s.allStand = true := by
  refine List.all_eq_true.mpr fun p hp => ?_
  rw [Bool.or_eq_true, List.all_eq_true]
  exact .inr fun c hc => State.stands_of_not_started (h p hp c hc)

theorem freezes (ha : Asked s q 0x0034 (opWords [0])) (h : ∀ p ∈ s.groups, ∀ c ∈ p.2.fl.cmds, c.started = false) :
    exec .freeze s = .next (({ s with dbg := { s.dbg with frozen := true, freezing := false } } : State).respond q 0#64 []) := by
  rw [exec_freeze, execFreeze]
  exact State.serve_gives ha (if_pos (State.allStand_of_not_started (s := { s with dbg := { s.dbg with frozen := true, freezing := true } }) h))

/-- What a dump asks of the groups: those that are active park. -/
def dumpParks (p : Nat × Group) : Nat × Group := if p.2.id.walker || p.2.ctl.dead then p else (p.1, p.2.dumpPark)

theorem State.allParked_iff :
    s.allParked = true ↔ ∀ p ∈ s.groups, p.2.id.walker = true ∨ p.2.ctl.dead = true ∨ p.2.ctl.act = .parked := by
  simp [State.allParked, or_assoc]

theorem dumpParks_fst (p : Nat × Group) : (dumpParks p).1 = p.1 := by
  unfold dumpParks
  split <;> rfl

theorem dumpParks_snd (k : Nat) (g : Group) : (dumpParks (k, g)).2 =
    if g.id.walker = false ∧ g.ctl.dead = false ∧ g.ctl.act = .active then
      { g with ctl := { g.ctl with act := .parking, cause := .debug } } else g := by
  unfold dumpParks
  split
  · next h => rw [if_neg (by rw [Bool.or_eq_true] at h; rintro ⟨hw, hd, -⟩; simp [hw, hd] at h)]
  · next h =>
    rw [Bool.or_eq_true, not_or, Bool.not_eq_true, Bool.not_eq_true] at h
    obtain ⟨hw, hd⟩ := h
    dsimp only at hw hd
    simp [Group.dumpPark, Group.park, hw, hd]

theorem dumpParks_not_parked {p : Nat × Group} (hw : p.2.id.walker = false) (hd : p.2.ctl.dead = false) (hp : p.2.ctl.act ≠ .parked) :
    (dumpParks p).2.id.walker = false ∧ (dumpParks p).2.ctl.dead = false ∧ (dumpParks p).2.ctl.act ≠ .parked := by
  rw [dumpParks, if_neg (by simp [hw, hd]), Group.dumpPark]
  split
  · exact ⟨hw, hd, by simp [Group.park]⟩
  · exact ⟨hw, hd, hp⟩

theorem dumpParks_of_parked {p : Nat × Group} (h : p.2.id.walker = true ∨ p.2.ctl.dead = true ∨ p.2.ctl.act = .parked) : dumpParks p = p := by
  unfold dumpParks
  split
  · rfl
  · next hno =>
    rw [Bool.or_eq_true, not_or] at hno
    have hact : p.2.ctl.act = .parked := (h.resolve_left hno.1).resolve_left hno.2
    rw [Group.dumpPark, if_neg (by simp [hact])]

theorem dumpWaits {buf : Nat} (ha : Asked s q 0x0034 (opWords [1, buf])) (hf : s.dbg.frozen = true) (hz : s.dbg.freezing = false)
    (h : ∃ p ∈ s.groups, p.2.id.walker = false ∧ p.2.ctl.dead = false ∧ p.2.ctl.act ≠ .parked) :
    ∃ t : State, exec (.freezeDump buf) s = .next t ∧ { t with groups := s.groups, dbg := s.dbg } = s
      ∧ ∀ k g, Table.get? s.groups k = some g → Table.get? t.groups k = some
        (if g.id.walker = false ∧ g.ctl.dead = false ∧ g.ctl.act = .active then
          { g with ctl := { g.ctl with act := .parking, cause := .debug } } else g) := by
  let u : State := { s with dbg := { s.dbg with dumping := some buf }, groups := s.groups.map dumpParks }
  have hno : u.allParked = false := by
    rw [← Bool.not_eq_true, State.allParked_iff]
    obtain ⟨p, hp, hw, hd, hact⟩ := h
    intro hall
    obtain ⟨hw', hd', hact'⟩ := dumpParks_not_parked hw hd hact
    rcases hall _ (List.mem_map_of_mem hp) with h | h | h
    · rw [hw'] at h; cases h
    · rw [hd'] at h; cases h
    · exact hact' h
  have hexec : exec (.freezeDump buf) s = .next u := by
    rw [exec_freezeDump, execFreezeDump]
    exact State.serve_gives ha ((if_neg (by simp [hf, hz])).trans (if_pos (congrArg Bool.not hno)))
  refine ⟨u, hexec, rfl, fun k g hk => ?_⟩
  rw [Table.get?_map dumpParks_fst, hk, Option.map_some, dumpParks_snd]

/-- Which addresses are of memory depends on the configuration alone. -/
theorem State.inCxl_congr (h : t.boot = s.boot) (pa : Nat) : t.inCxl pa = s.inCxl pa := by
  unfold State.inCxl
  rw [h]

theorem State.cxlCovers_congr (h : t.boot = s.boot) (n lo hi : Nat) : t.cxlCovers n lo hi = s.cxlCovers n lo hi := by
  induction n generalizing lo with
  | zero => rfl
  | succ n ih =>
    unfold State.cxlCovers
    rw [State.inCxl_congr h, h]
    simp only [ih]

theorem State.spanOk_congr (h : t.boot = s.boot) (base n : Nat) : t.spanOk base n = s.spanOk base n := by
  rw [State.spanOk, State.spanOk, State.inCxl_congr h, h, State.cxlCovers_congr h]

/-- A dump with every group parked stores its bytes. -/
theorem exec_freezeDump_parked {buf : Nat} (ha : Asked s q 0x0034 (opWords [1, buf])) (hf : s.dbg.frozen = true) (hz : s.dbg.freezing = false)
    (h : ∀ p ∈ s.groups, p.2.id.walker = true ∨ p.2.ctl.dead = true ∨ p.2.ctl.act = .parked) (hal : buf % 8 = 0)
    (hspan : s.spanOk buf s.dumpBytes.length = true) :
    exec (.freezeDump buf) s = .next
      ((({ s with dbg := { s.dbg with dumping := none } } : State).engineStore buf s.dumpBytes).respond q 0#64 []) := by
  have hsame : s.groups.map dumpParks = s.groups := (List.map_congr_left fun p hp => dumpParks_of_parked (h p hp)).trans s.groups.map_id
  rw [exec_freezeDump, execFreezeDump]
  refine State.serve_gives ha ((if_neg (by simp [hf, hz])).trans ?_)
  have hparks : (s.groups.map fun p => if p.2.id.walker || p.2.ctl.dead then p else (p.1, p.2.dumpPark)) = s.groups := hsame
  rw [hparks]
  have hpark : ({ s with dbg := { s.dbg with dumping := some buf } } : State).allParked = true := State.allParked_iff.mpr h
  let u : State := { s with dbg := { s.dbg with dumping := none } }
  have hfits : ¬ (decide (buf % 8 ≠ 0) || !u.spanOk buf u.dumpBytes.length) = true := by
    have hbytes : u.dumpBytes = s.dumpBytes := rfl
    rw [hbytes, State.spanOk_congr (s := s) (t := u) rfl, hspan, hal]
    decide
  exact (if_neg (by rw [hpark]; decide)).trans (if_neg hfits)

theorem dumpStands {buf : Nat} (ha : Asked s q 0x0034 (opWords [1, buf])) (hf : s.dbg.frozen = true) (hz : s.dbg.freezing = false)
    (h : ∀ p ∈ s.groups, p.2.id.walker = true ∨ p.2.ctl.dead = true ∨ p.2.ctl.act = .parked) (hq : Quiet s) (hal : buf % 8 = 0)
    (hspan : s.spanOk buf s.dumpBytes.length = true) (hs : s.spoilt buf s.dumpBytes.length true = none) :
    ∃ t : State, exec (.freezeDump buf) s = .next (t.respond q 0#64 []) ∧ SameBut s t buf s.dumpBytes.length
      ∧ t.mem.w64 buf = BitVec.ofNat 64 (s.groups.filter fun p => !p.2.id.walker && !p.2.ctl.dead).length
      ∧ t.mem.w64 (buf + 8) = BitVec.ofNat 64 s.disp.queues.length ∧ t.mem.w64 (buf + 16) = BitVec.ofNat 64 s.regions.length := by
  let u : State := { s with dbg := { s.dbg with dumping := none } }
  have hmem : (u.engineStore buf s.dumpBytes).mem = s.mem.setBytes buf s.dumpBytes := State.engineStore_mem (s := u) hq hs
  obtain ⟨rest, hbytes⟩ : ∃ rest, s.dumpBytes =
      leBytes 8 s.dumped.length ++ (leBytes 8 s.disp.queues.length ++ (leBytes 8 s.regions.length ++ rest)) := by
    simp only [State.dumpBytes, List.append_assoc]
    exact ⟨_, rfl⟩
  have hlen : 24 ≤ s.dumpBytes.length := by simp only [hbytes, List.length_append, leBytes_length]; omega
  have hw64 : ∀ off, off + 8 ≤ 24 → (u.engineStore buf s.dumpBytes).mem.w64 (buf + off) = BitVec.ofNat 64 (fieldAt s.dumpBytes off 8) := by
    intro off hoff
    rw [hmem, Memory.w64, Memory.nat_setBytes_part _ (by omega)]
  refine ⟨u.engineStore buf s.dumpBytes, exec_freezeDump_parked ha hf hz h hal hspan, fun a hout => ?_, ?_, ?_, ?_⟩
  · rw [hmem, Memory.byte_setBytes_out _ hout]
  · have h0 := hw64 0 (by decide)
    rw [Nat.add_zero, hbytes, fieldAt_head] at h0
    rw [hbytes, h0]
    simp [State.dumped, ← BitVec.toNat_inj]
  · rw [hw64 8 (by decide), hbytes, fieldAt_skip (by decide), fieldAt_head]
    simp [← BitVec.toNat_inj]
  · rw [hw64 16 (by decide), hbytes, fieldAt_skip (by decide), fieldAt_skip (by decide), fieldAt_head]
    simp [← BitVec.toNat_inj]

theorem Group.thaw_eq (g : Group) : g.thaw =
    if g.ctl.cause = .debug ∧ g.ctl.stopped = false then { g with ctl := { g.ctl with cause := .none } } else g := by
  simp [Group.thaw]

theorem thaws (ha : Asked s q 0x0034 (opWords [2])) (hf : s.dbg.frozen = true) :
    ∃ t : State, exec .freezeThaw s = .next (t.respond q 0#64 []) ∧ { t with groups := s.groups, dbg := s.dbg } = s
      ∧ t.dbg = { s.dbg with frozen := false, freezing := false, dumping := none, halted := [] }
      ∧ ∀ k g, Table.get? s.groups k = some g → Table.get? t.groups k = some
        (if g.ctl.cause = .debug ∧ g.ctl.stopped = false then { g with ctl := { g.ctl with cause := .none } } else g) := by
  rw [exec_freezeThaw, execFreezeThaw]
  refine ⟨_, State.serveWith_gives ha (if_neg (by simp [hf])), rfl, rfl, fun k g hk => ?_⟩
  dsimp only
  rw [Table.get?_map (f := fun p : Nat × Group => (p.1, p.2.thaw)) (fun _ => rfl), hk, Option.map_some, Group.thaw_eq]

theorem freezing : Claims.Freezing := by
  intro s q no
  refine ⟨fun u hf g => ⟨State.mayIssue_of_frozen hf, fun c hc => State.engineRuns_of_frozen hf hc⟩,
    fun k g c hf hg hc hs hw => State.mem_halted_noteHalts hf hg hc hs hw, freezes, fun buf ha hf => ?_,
    fun buf ha hf hz => ⟨dumpWaits ha hf hz, fun h hq hal hspan hs => dumpStands ha hf hz h hq hal hspan hs⟩, fun ha hf => ?_, thaws⟩
  · rw [exec_freezeDump, execFreezeDump]
    exact State.serve_gives ha (if_pos (by simp [hf]))
  · rw [exec_freezeThaw, execFreezeThaw]
    exact State.serveWith_gives ha (if_pos (by simp [hf]))

end
end Sys2Proof.Machine

end

section

/-! Recording and replaying a region (O59). -/

set_option Elab.async false

namespace Sys2Proof.Machine

section

variable {s t u : State} {q : Request} {rcb pa k n v : Nat} {R : Region} {c : Recorder}

/-! ## Stores of the device -/

theorem leBytes_zero (n : Nat) : leBytes n 0 = List.replicate n 0#8 := by
  induction n with
  | zero => rfl
  | succ n ih => rw [leBytes, Nat.zero_div, ih, List.replicate_succ]

theorem State.deviceStore_of_takes {bs : List Byte} (h : s.spoilt pa bs.length true = none) : s.deviceStore pa bs = s.storeBytes pa bs := by
  rw [State.deviceStore, h]

theorem State.storeNat_of_takes (h : s.spoilt pa n true = none) : s.storeNat pa n v = s.storeBytes pa (leBytes n v) :=
  State.deviceStore_of_takes (by rwa [leBytes_length])

/-- A number that the device stores, at a home that performs the store, reads back. -/
theorem State.w64_storeNat (h : s.spoilt pa 8 true = none) : (s.storeNat pa 8 v).mem.w64 pa = BitVec.ofNat 64 v := by
  rw [State.storeNat_of_takes h, Memory.w64]
  refine (congrArg (BitVec.ofNat 64) (Memory.nat_store s.mem pa 8 v)).trans ?_
  simp [← BitVec.toNat_inj]

theorem State.sameBut_storeNat (h : s.spoilt pa n true = none) : SameBut s (s.storeNat pa n v) pa n := by
  intro a ha
  rw [State.storeNat_of_takes h]
  exact Memory.byte_setBytes_out s.mem (by rwa [leBytes_length])

theorem State.deviceStore_keeps (s : State) (pa : Nat) (bs : List Byte) :
    (s.deviceStore pa bs).regions = s.regions
      ∧ ((s.deviceStore pa bs).mem = s.mem.setBytes pa bs ∨ (s.deviceStore pa bs).mem = s.mem) := by
  unfold State.deviceStore
  split
  · exact ⟨rfl, .inl rfl⟩
  · obtain ⟨hmem, hregs⟩ := State.homeViolation_keeps (s := s) (pa := pa) (e := ‹_›)
      (g := fun s => s.violation (BitVec.ofNat 64 pa) (s.homeSource pa) 3 0) State.violation_keeps
    exact ⟨hregs, .inr hmem⟩

/-- A state whose regions are those of s, and whose bytes are those of s but for some that are 0. -/
def Cleared (s t : State) : Prop := t.regions = s.regions ∧ ∀ x, t.mem.byte x = s.mem.byte x ∨ t.mem.byte x = 0#8

theorem Cleared.refl (s : State) : Cleared s s := ⟨rfl, fun _ => .inl rfl⟩

theorem Cleared.trans (h : Cleared s t) (h' : Cleared t u) : Cleared s u :=
  ⟨h'.1.trans h.1, fun x => (h'.2 x).elim (fun e => e ▸ h.2 x) .inr⟩

theorem Cleared.deviceStore_zero (s : State) (pa n : Nat) : Cleared s (s.storeNat pa n 0) := by
  obtain ⟨hregs, hmem⟩ := s.deviceStore_keeps pa (leBytes n 0)
  refine ⟨hregs, fun x => ?_⟩
  rw [State.storeNat]
  rcases hmem with hmem | hmem
  · rw [hmem, Memory.byte_setBytes, leBytes_zero]
    split
    · next hx =>
      rw [List.length_replicate] at hx
      exact .inr (List.getD_replicate _ (by omega))
    · exact .inl rfl
  · exact .inl (by rw [hmem])

theorem State.logStore_regions (s : State) (rcb : Nat) (c : Recorder) (off n v : Nat) : (s.logStore rcb c off n v).regions = s.regions := by
  unfold State.logStore
  split
  · rfl
  · exact (s.deviceStore_keeps _ _).1

theorem Cleared.logStore_zero (s : State) (rcb : Nat) (c : Recorder) (off n : Nat) : Cleared s (s.logStore rcb c off n 0) := by
  unfold State.logStore
  split
  · exact .refl s
  · exact .deviceStore_zero s _ n

theorem Cleared.foldl_logStore_zero (s : State) (rcb : Nat) (c : Recorder) (n : Nat) (offs : List Nat) :
    Cleared s (offs.foldl (fun s i => s.logStore rcb c (8 * i) n 0) s) := by
  induction offs generalizing s with
  | nil => exact .refl s
  | cons i r ih => exact (Cleared.logStore_zero s rcb c (8 * i) n).trans (ih _)

theorem State.get?_setRecorder (hR : Table.get? s.regions rcb = some R) (c : Option Recorder) :
    Table.get? (s.setRecorder rcb c).regions rcb = some { R with recorder := c } := by
  rw [State.setRecorder, State.modRegion, Table.get?_modify_self, hR]
  rfl

theorem State.get?_modRegion_ne {j : Nat} (hj : j ≠ rcb) (f : Region → Region) :
    Table.get? (s.modRegion rcb f).regions j = Table.get? s.regions j := by
  rw [State.modRegion, Table.get?_modify, if_neg hj]

/-! ## Recording -/

theorem replayRecordRefused {list log : BitVec 64} {count bytes : Nat} (h : s.replayOk rcb count log bytes = false)
    (ha : Asked s q 0x0035 (opWords [1, rcb, list.toNat, count, log.toNat, bytes])) :
    exec (.replayRecord rcb list count log bytes) s = .next (s.respond q 1#64 []) := by
  rw [exec_replayRecord, execReplayRecord]
  exact State.serveWith_gives ha (if_pos (by simp [h]))

theorem replayArmRefused {list log : BitVec 64} {count bytes : Nat} (h : s.replayOk rcb count log bytes = false)
    (ha : Asked s q 0x0035 (opWords [2, rcb, list.toNat, count, log.toNat, bytes])) :
    exec (.replayArm rcb list count log bytes) s = .next (s.respond q 1#64 []) := by
  rw [exec_replayArm, execReplayArm]
  exact State.serveWith_gives ha (if_pos (by simp [h]))

/-- The recorder of a region that begins to record. -/
def State.newRecorder (s : State) (rcb : Nat) (ws : List Nat) (log : BitVec 64) (bytes : Nat) : Recorder :=
  { watch := ws, log := log, bytes := bytes, slot := s.currentSlot (s.slotHolder rcb), holder := s.slotHolder rcb, entries := 0, status := 0
    open_ := [] }

theorem replayRecords {list log : BitVec 64} {count bytes : Nat} {ws : List Nat} (hR : Table.get? s.regions rcb = some R)
    (h : s.replayOk rcb count log bytes = true) (hws : s.watchWords rcb list count = some ws)
    (ha : Asked s q 0x0035 (opWords [1, rcb, list.toNat, count, log.toNat, bytes])) :
    ∃ t : State, exec (.replayRecord rcb list count log bytes) s = .next (t.respond q 0#64 [])
      ∧ Table.get? t.regions rcb = some { R with recorder := some (s.newRecorder rcb ws log bytes) }
      ∧ (∀ j, j ≠ rcb → Table.get? t.regions j = Table.get? s.regions j)
      ∧ ∀ x, t.mem.byte x ≠ s.mem.byte x → t.mem.byte x = 0#8 := by
  obtain ⟨hregs, hbytes⟩ := Cleared.foldl_logStore_zero s rcb (s.newRecorder rcb ws log bytes) 8 (List.range 8)
  rw [exec_replayRecord, execReplayRecord]
  refine ⟨_, State.serveWith_gives ha ((if_neg (by simp [h])).trans (by rw [hws]; rfl)), ?_, fun j hj => ?_, fun x hx => ?_⟩
  · exact State.get?_setRecorder (by rw [← hR]; exact congrArg (Table.get? · rcb) hregs) _
  · exact (State.get?_modRegion_ne hj _).trans (congrArg (Table.get? · j) hregs)
  · exact (hbytes x).resolve_left hx

theorem replayEndRefused (hR : Table.get? s.regions rcb = some R) (ha : Asked s q 0x0035 (opWords [3, rcb])) (hc : R.recorder = none)
    (he : R.replay = none) : exec (.replayEnd rcb) s = .next (s.respond q 1#64 []) := by
  rw [exec_replayEnd, execReplayEnd]
  refine State.serveWith_gives ha ?_
  rw [hR]
  dsimp only
  rw [hc, he]
  rfl

theorem recordEnds (hR : Table.get? s.regions rcb = some R) (ha : Asked s q 0x0035 (opWords [3, rcb])) (hc : R.recorder = some c) :
    ∃ t : State, exec (.replayEnd rcb) s = .next (t.respond q 0#64 [])
      ∧ Table.get? t.regions rcb = some { R with recorder := none }
      ∧ (c.status ≠ 0 → SameBytes s t)
      ∧ (c.status = 0 → ∀ p, s.logPa rcb c 8 = some p → s.spoilt p 8 true = none → t.mem.w64 p = 1#64 ∧ SameBut s t p 8) := by
  let u : State := if c.status = 0 then s.recordStatus rcb c 1 else s
  have hexec : exec (.replayEnd rcb) s = .next ((u.setRecorder rcb none).respond q 0#64 []) := by
    rw [exec_replayEnd, execReplayEnd]
    refine State.serveWith_gives ha ?_
    rw [hR]
    dsimp only
    rw [hc]
    rfl
  refine ⟨_, hexec, ?_, fun hst => ?_, fun hst p hp hs => ?_⟩
  · by_cases hst : c.status = 0
    · have hu : u = s.recordStatus rcb c 1 := if_pos hst
      have hlog : Table.get? (s.logStore rcb c 8 8 1).regions rcb = some R := by rw [State.logStore_regions, hR]
      rw [hu, State.recordStatus, State.get?_setRecorder (State.get?_setRecorder hlog _)]
    · have hu : u = s := if_neg hst
      rw [hu, State.get?_setRecorder hR]
  · have hu : u = s := if_neg hst
    rw [hu]
    exact fun _ => rfl
  · have hu : u = s.recordStatus rcb c 1 := if_pos hst
    have hmem : (u.setRecorder rcb none).mem = (s.storeNat p 8 1).mem := by
      rw [hu, State.recordStatus, State.logStore, hp]
      rfl
    refine ⟨by rw [hmem]; exact State.w64_storeNat hs, fun a hout => ?_⟩
    rw [hmem]
    exact State.sameBut_storeNat hs a hout

theorem replayEnds {e : List (Nat × BitVec 32)} (hR : Table.get? s.regions rcb = some R) (ha : Asked s q 0x0035 (opWords [3, rcb]))
    (hc : R.recorder = none) (he : R.replay = some e) (hg : R.gate = none) :
    ∃ t : State, exec (.replayEnd rcb) s = .next (t.respond q 0#64 [])
      ∧ { t with regions := s.regions } = s ∧ Table.get? t.regions rcb = some { R with replay := none } := by
  have hexec : exec (.replayEnd rcb) s = .next ((s.modRegion rcb fun r => { r with replay := none }).respond q 0#64 []) := by
    rw [exec_replayEnd, execReplayEnd]
    refine State.serveWith_gives ha ?_
    rw [hR]
    dsimp only
    rw [hc, he, hg]
    rfl
  refine ⟨_, hexec, rfl, ?_⟩
  rw [State.modRegion, Table.get?_modify_self, hR]
  rfl

/-! ## Replaying -/

/-- The gate of a region that begins to replay. -/
def State.replayGate (s : State) (ws : List Nat) (es : List ReplayEntry) (status : Nat) : Gate :=
  { script := es.flatMap (ReplayEntry.script ws), words := ws.eraseDups, status, timeout := 2 ^ 20, unscripted := 0, progressed := s.fresh
    replay := true, runHash := [] }

/-- The replay of a region that begins to replay: the hashes of the groups that retire. -/
def replayHashes (es : List ReplayEntry) : List (Nat × BitVec 32) := (es.filter ReplayEntry.retires).map fun e => (e.group, e.hash)

theorem flatMap_script_accesses (ws : List Nat) (es : List ReplayEntry) :
    (es.flatMap (ReplayEntry.script ws)).map (fun e => (e.word, e.group, e.lane, e.ordinal)) =
      (es.filter fun e => !e.retires).flatMap fun e => (List.range e.run).map fun j => (ws.getD e.word 0, e.group, e.lane, e.ordinal + j) := by
  induction es with
  | nil => rfl
  | cons e r ih =>
    rw [List.flatMap_cons, List.map_append, ih, List.filter_cons]
    cases he : e.retires with
    | true => simp [ReplayEntry.script, he]
    | false => simp [ReplayEntry.script, he, Function.comp_def]

theorem flatMap_script_ne_nil {ws : List Nat} {es : List ReplayEntry} {count : Nat} (hfits : logFits es count = true)
    (h : ∃ e ∈ es, e.retires = false) : (es.flatMap (ReplayEntry.script ws)).isEmpty = false := by
  obtain ⟨e, he, hr⟩ := h
  have hrun : 1 ≤ e.run := by
    have hall := (Bool.and_eq_true _ _ ▸ hfits).1
    have := List.all_eq_true.mp hall e he
    simp only [hr, Bool.false_or, Bool.and_eq_true, decide_eq_true_eq] at this
    exact this.2
  rw [← Bool.not_eq_true, List.isEmpty_iff, List.flatMap_eq_nil_iff]
  intro hnil
  have hlen := congrArg List.length (hnil e he)
  simp [ReplayEntry.script, hr] at hlen
  omega

theorem State.endGate_of_none {code : Nat} (hR : Table.get? s.regions rcb = some R) (hg : R.gate = none) : s.endGate rcb code = s := by
  unfold State.endGate
  rw [hR]
  simp only [Option.bind_some, hg]

/-- A region begins to replay: its gate is armed, and the status word is stored. -/
theorem State.beginReplay_spec {ws : List Nat} {es : List ReplayEntry} {count status : Nat} (hR : Table.get? s.regions rcb = some R)
    (hg : R.gate = none) (hfits : logFits es count = true) (hes : ∃ e ∈ es, e.retires = false) (hs : s.spoilt status 8 true = none) :
    (s.beginReplay rcb ws es status).mem = (s.storeNat status 8 0).mem
      ∧ Table.get? (s.beginReplay rcb ws es status).regions rcb =
        some { R with gate := some (s.replayGate ws es status), replay := some (replayHashes es) } := by
  let u : State := { s.modRegion rcb fun r => { r with gate := some (s.replayGate ws es status) } with
    fresh := s.fresh + 1, groups := s.groups.map fun p => (p.1, s.ungated ws.eraseDups p.1 p.2) }
  have harm : s.armGate rcb (es.flatMap (ReplayEntry.script ws)) ws.eraseDups status (2 ^ 20) true = u.storeNat status 8 0 := rfl
  have hu : u.spoilt status 8 true = none := hs
  have hbegin : s.beginReplay rcb ws es status =
      (u.storeNat status 8 0).modRegion rcb fun r => { r with replay := some (replayHashes es) } := by
    unfold State.beginReplay
    dsimp only
    rw [State.endGate_of_none hR hg, harm, flatMap_script_ne_nil hfits hes]
    rfl
  rw [hbegin, State.storeNat_of_takes hu, State.storeNat_of_takes hs]
  refine ⟨rfl, ?_⟩
  have hur : Table.get? u.regions rcb = some { R with gate := some (s.replayGate ws es status) } := by
    refine (Table.get?_modify_self _ _ _).trans ?_
    rw [hR]
    rfl
  refine (Table.get?_modify_self _ _ _).trans ?_
  exact congrArg (Option.map _) hur

theorem replayArms {list log : BitVec 64} {count bytes status : Nat} {ws : List Nat} {hd : List Byte} {es : List ReplayEntry}
    (hok : s.replayOk rcb count log bytes = true) (hws : s.watchWords rcb list count = some ws)
    (ha : Asked s q 0x0035 (opWords [2, rcb, list.toNat, count, log.toNat, bytes])) (hhd : s.vaBytes rcb log 64 = some hd)
    (hver : fieldAt hd 8 8 = 1) (hres : fieldAt hd 16 48 = 0) (hlen : 64 + 32 * fieldAt hd 0 8 ≤ bytes)
    (hes : s.readLog rcb log (fieldAt hd 0 8) 0 = some es) (hfits : logFits es count = true) (hst : s.vaPa rcb 1 (log + 8#64) = some status) :
    exec (.replayArm rcb list count log bytes) s = .next ((s.beginReplay rcb ws es status).respond q 0#64 []) := by
  rw [exec_replayArm, execReplayArm]
  refine State.serveWith_gives ha ((if_neg (by simp [hok])).trans ?_)
  rw [hws, hhd, kindWrite, hst]
  dsimp only
  rw [if_neg (by simpa [hver, hres] using hlen), hes]
  exact if_pos hfits

theorem recordAndReplay : Claims.RecordAndReplay := by
  intro s q rcb R hR no asks
  refine ⟨fun list count log bytes h => ⟨replayRecordRefused h, replayArmRefused h⟩, fun list count log bytes ws hok hws =>
    ⟨replayRecords hR hok hws, fun hd es status ha hhd hver hres hlen hes hfits hst hs hg hsome => ?_⟩,
    replayEndRefused hR, fun c => recordEnds hR, fun e => replayEnds hR⟩
  obtain ⟨hmem, hregs⟩ := State.beginReplay_spec (ws := ws) hR hg hfits hsome hs
  refine ⟨_, _, _, replayArms hok hws ha hhd hver hres hlen hes hfits hst, hregs, rfl, rfl, rfl, rfl, rfl,
    fun x => List.mem_eraseDups, ?_, fun a hout => ?_, flatMap_script_accesses ws es⟩
  · rw [hmem]
    exact State.w64_storeNat hs
  · rw [hmem]
    exact State.sameBut_storeNat hs a hout

end
end Sys2Proof.Machine

end

section

/-! The timeout of a gate (O59): what the performance of accesses leaves as it is. -/

set_option Elab.async false

namespace Sys2Proof.Machine

section

variable {s t u : State} {rcb k pa n : Nat} {g : Group}

/-! ## What a gate that has ended stays clear of

The accesses that a gate held are performed after it is gone. None of them arms a gate, and none changes whether the home of an address
performs a store: neither the configuration, nor the lines whose data is bad, nor the ports that are down. -/

/-- A region without a gate. -/
def Ungated (rcb : Nat) (s : State) : Prop := ∃ R, Table.get? s.regions rcb = some R ∧ R.gate = none

/-- What the performance of accesses leaves as it is. -/
structure Kept (rcb : Nat) (s t : State) : Prop where
  boot : t.boot = s.boot
  bad : t.bad = s.bad
  down : t.fab.cxlDown = s.fab.cxlDown
  gate : Ungated rcb s → Ungated rcb t

theorem Kept.of_regions (hb : t.boot = s.boot) (hd : t.bad = s.bad) (hf : t.fab.cxlDown = s.fab.cxlDown) (hr : t.regions = s.regions) :
    Kept rcb s t := ⟨hb, hd, hf, fun h => by rwa [Ungated, hr]⟩

theorem Kept.refl (s : State) : Kept rcb s s := .of_regions rfl rfl rfl rfl

theorem Kept.trans (h : Kept rcb s t) (h' : Kept rcb t u) : Kept rcb s u :=
  ⟨h'.boot.trans h.boot, h'.bad.trans h.bad, h'.down.trans h.down, fun hs => h'.gate (h.gate hs)⟩

theorem Kept.withFresh (h : Kept rcb s t) (n : Nat) : Kept rcb s { t with fresh := n } := h.trans (.of_regions rfl rfl rfl rfl)

theorem Kept.withGroups (h : Kept rcb s t) (gs : Table Group) : Kept rcb s { t with groups := gs } := h.trans (.of_regions rfl rfl rfl rfl)

theorem Kept.foldl {α : Type} {f : State → α → State} (hf : ∀ s x, Kept rcb s (f s x)) (l : List α) (s : State) :
    Kept rcb s (l.foldl f s) := by
  induction l generalizing s with
  | nil => exact .refl s
  | cons x r ih => exact (hf s x).trans (ih _)

/-- A change of a region that arms no gate. -/
theorem Kept.modRegion {f : Region → Region} (hf : ∀ R, R.gate = none → (f R).gate = none) (s : State) (j : Nat) :
    Kept rcb s (s.modRegion j f) := by
  refine ⟨rfl, rfl, rfl, fun ⟨R, hR, hg⟩ => ?_⟩
  rw [Ungated, State.modRegion, Table.get?_modify]
  split
  · next e => exact ⟨f R, by rw [← e, hR]; rfl, hf R hg⟩
  · exact ⟨R, hR, hg⟩

/-- A change of a region that has a gate. -/
theorem Kept.modRegion_gated {j : Nat} (hj : Ungated rcb s → j ≠ rcb) (f : Region → Region) : Kept rcb s (s.modRegion j f) := by
  refine ⟨rfl, rfl, rfl, fun hu => ?_⟩
  have hne : rcb ≠ j := (hj hu).symm
  obtain ⟨R, hR, hg⟩ := hu
  exact ⟨R, by rw [State.get?_modRegion_ne hne, hR], hg⟩

/-- A change of every region that arms no gate. -/
theorem Ungated.map {f : Nat × Region → Nat × Region} (hk : ∀ p, (f p).1 = p.1) (hf : ∀ p, p.2.gate = none → (f p).2.gate = none)
    (h : Ungated rcb s) (hr : t.regions = s.regions.map f) : Ungated rcb t := by
  obtain ⟨R, hR, hg⟩ := h
  exact ⟨_, by rw [hr, Table.get?_map hk, hR]; rfl, hf _ hg⟩

/-! ## Stores and error responses -/

theorem Kept.violation (s : State) (a : BitVec 64) (b : BitVec 32) (i j : Nat) : Kept rcb s (s.violation a b i j) := by
  unfold State.violation
  dsimp only
  split
  · exact .of_regions rfl rfl rfl rfl
  · exact .of_regions rfl rfl rfl rfl

theorem Kept.homeViolation {f : State → State} (hf : ∀ s, Kept rcb s (f s)) (s : State) (pa : Nat) (e : ErrorKind) :
    Kept rcb s (s.homeViolation pa e f) := by
  cases e with
  | access => exact hf s
  | integrity => exact .violation s _ _ _ _
  | poison => exact .violation s _ _ _ _

theorem Kept.storeBytes (s : State) (pa : Nat) (bs : List Byte) : Kept rcb s (s.storeBytes pa bs) := .of_regions rfl rfl rfl rfl

theorem Kept.deviceStore (s : State) (pa : Nat) (bs : List Byte) : Kept rcb s (s.deviceStore pa bs) := by
  unfold State.deviceStore
  split
  · exact .storeBytes s pa bs
  · exact .homeViolation (fun s => .violation s _ _ _ _) s pa _

/-! ## Recorders and gates -/

theorem Kept.logStore (s : State) (j : Nat) (c : Recorder) (off n v : Nat) : Kept rcb s (s.logStore j c off n v) := by
  unfold State.logStore
  split
  · exact .refl s
  · exact .deviceStore s _ _

theorem Kept.setRecorder (s : State) (j : Nat) (c : Option Recorder) : Kept rcb s (s.setRecorder j c) :=
  .modRegion (f := fun R => { R with recorder := c }) (fun _ h => h) s j

theorem Kept.recordStatus (s : State) (j : Nat) (c : Recorder) (code : Nat) : Kept rcb s (s.recordStatus j c code) :=
  (Kept.logStore s j c 8 8 code).trans (.setRecorder _ j _)

theorem Kept.appendLog (s : State) (j : Nat) (c : Recorder) (bs : List Byte) : Kept rcb s (s.appendLog j c bs).1 := by
  unfold State.appendLog
  split
  · exact .recordStatus s j c 2
  · split
    · exact .recordStatus s j c 2
    · exact ((Kept.deviceStore s _ bs).trans (.logStore _ j c _ _ _)).trans (.setRecorder _ j _)

theorem Kept.recordOne (s : State) (j : Nat) (c : Recorder) (i : Nat) (a : Accessor) (stored : Option (BitVec 32)) :
    Kept rcb s (s.recordOne j c i a stored) := by
  unfold State.recordOne
  split
  · exact .recordStatus s j c 2
  · dsimp only
    split
    · refine Kept.trans ?_ (.setRecorder _ j _)
      split
      · exact .logStore s j c _ _ _
      · exact ((Kept.logStore s j c _ _ _).trans (.logStore _ j c _ _ _)).trans (.logStore _ j c _ _ _)
    · split
      · exact (Kept.appendLog s j c _).trans (.setRecorder _ j _)
      · exact .appendLog s j c _

theorem Kept.recordAccess (s : State) (pa : Nat) (a : Accessor) (stored : Option (BitVec 32)) : Kept rcb s (s.recordAccess pa a stored) := by
  unfold State.recordAccess
  split
  · exact .refl s
  · refine .foldl (fun s p => ?_) _ s
    split
    · exact .refl s
    · split
      · exact .refl s
      · exact .recordOne s _ _ _ a stored

theorem Kept.closeRuns (s : State) (pa : Nat) (a : Accessor) : Kept rcb s (s.closeRuns pa a) := by
  refine ⟨rfl, rfl, rfl, fun h => h.map (fun p => ?_) (fun p hg => ?_) rfl⟩
  · split
    · rfl
    · split <;> rfl
  · split
    · exact hg
    · split <;> exact hg

theorem Kept.disarm (s : State) (j code : Nat) : Kept rcb s (s.disarm j code) := by
  unfold State.disarm
  split
  · exact .refl s
  · split
    · exact .refl s
    · exact (Kept.modRegion (f := fun R => { R with gate := none }) (fun _ _ => rfl) s j).trans (.deviceStore _ _ _)

theorem State.gateOne_of_ungated {a : Accessor} {stored : Option (BitVec 32)} (h : Ungated rcb s) : s.gateOne rcb pa a stored = (s, false) := by
  obtain ⟨R, hR, hg⟩ := h
  unfold State.gateOne
  rw [hR]
  simp only [Option.bind_some, hg]

/-- A gate that takes note of an access is no gate of a region that has none. -/
theorem Kept.gateOne (s : State) (j pa : Nat) (a : Accessor) (stored : Option (BitVec 32)) : Kept rcb s (s.gateOne j pa a stored).1 := by
  by_cases hu : Ungated j s
  · rw [State.gateOne_of_ungated hu]
    exact .refl s
  · have hj : Ungated rcb s → j ≠ rcb := fun h e => hu (e ▸ h)
    unfold State.gateOne
    split
    · exact .refl s
    · dsimp only
      split
      · split
        · exact .refl s
        · next e _ =>
          dsimp only
          split
          · refine Kept.trans ?_ (.disarm _ j 1)
            exact (Kept.modRegion_gated hj _).withFresh _
          · exact (Kept.modRegion_gated hj _).withFresh _
      · exact .modRegion_gated hj _

theorem Kept.gateDone (s : State) (pa : Nat) (a : Accessor) (stored : Option (BitVec 32)) : Kept rcb s (s.gateDone pa a stored).1 := by
  unfold State.gateDone
  generalize s.gatesOn pa = gs, false = b
  induction gs generalizing s b with
  | nil => exact .refl s
  | cons p r ih => exact (Kept.gateOne s p.1 pa a stored).trans (ih _ _)

theorem Kept.homeNote (s : State) (pa : Nat) (a : Accessor) (stored : Option (BitVec 32)) : Kept rcb s (s.homeNote pa a stored).1 :=
  ((Kept.closeRuns s pa a).trans (.recordAccess _ pa a stored)).trans (.gateDone _ pa a stored)

/-! ## What follows on a trap that no handler takes -/

theorem Kept.unpin (s : State) (holder slot : Nat) : Kept rcb s (s.unpin holder slot) := by
  unfold State.unpin
  refine .modRegion (fun R h => ?_) s holder
  exact h

theorem Kept.of_pinsDrop (h : PinsDrop s t) : Kept rcb s t := by
  refine ⟨?_, ?_, ?_, fun ⟨R, hR, hg⟩ => ?_⟩
  · obtain ⟨rs, rfl, -⟩ := h; rfl
  · obtain ⟨rs, rfl, -⟩ := h; rfl
  · obtain ⟨rs, rfl, -⟩ := h; rfl
  · obtain ⟨R', hR', -, hg', -⟩ := h.get? hR
    exact ⟨R', hR', hg'.trans hg⟩

theorem Kept.killLaunch (s : State) (k : Nat) : Kept rcb s (s.killLaunch k) := by
  cases hl : Table.get? s.launches k with
  | none =>
    rw [State.killLaunch, hl]
    exact .refl s
  | some l =>
    obtain ⟨u, hu, he⟩ := State.killLaunch_eq hl
    rw [he]
    exact (Kept.of_pinsDrop hu).trans (.of_regions rfl rfl rfl rfl)

theorem Kept.killRegion (s : State) (top : Nat) : Kept rcb s (s.killRegion top) := by
  have hlaunches : Kept rcb s ((s.launchesUnder top).foldl State.killLaunch s) := .foldl (fun s k => .killLaunch s k) _ s
  have hpins := hlaunches.trans (.foldl (fun s (i : Ingress) => .unpin s i.holder i.slot)
    (s.xlat.ingress.filter fun i => s.under top i.holder) _)
  refine hpins.trans ⟨rfl, rfl, rfl, fun h => h.map (f := s.killedRegion top) (fun p => ?_) (fun p hg => ?_) rfl⟩
  · unfold State.killedRegion
    split <;> rfl
  · unfold State.killedRegion
    split
    · rfl
    · exact hg

theorem Kept.suspendRegion (s : State) (top : Nat) : Kept rcb s (s.suspendRegion top) := by
  rw [State.suspendRegion_eq]
  refine ⟨rfl, rfl, rfl, fun h => h.map (fun p => ?_) (fun p hg => ?_) rfl⟩
  · split <;> rfl
  · split <;> exact hg

theorem Kept.setGroup (s : State) (k : Nat) (g : Group) : Kept rcb s (s.setGroup k g) := .of_regions rfl rfl rfl rfl

theorem Kept.modGroup (s : State) (k : Nat) (f : Group → Group) : Kept rcb s (s.modGroup k f) := .of_regions rfl rfl rfl rfl

theorem Kept.tally (s : State) (part ev n : Nat) : Kept rcb s (s.tally part ev n) := .of_regions rfl rfl rfl rfl

theorem Kept.notice (s : State) (bs : List Byte) : Kept rcb s (s.notice bs) := .of_regions rfl rfl rfl rfl

theorem Kept.toFaultDomain (s : State) (k : Nat) (t : TrapReq) : Kept rcb s (s.toFaultDomain k t) := by
  cases hk : Table.get? s.groups k with
  | none =>
    rw [State.toFaultDomain, hk]
    exact .refl s
  | some g =>
    have hcount : Kept rcb s ((s.setGroup k (g.recorded t)).countTrap (g.recorded t)) := (Kept.setGroup s k _).trans (.tally _ _ _ _)
    rcases Nat.lt_or_ge 1 g.view.faultDomain with hd | hd
    · rw [State.toFaultDomain_tell hk hd]
      exact (hcount.trans (.setGroup _ k _)).trans (.notice _ _)
    · rcases Nat.le_one_iff_eq_zero_or_eq_one.mp hd with hd | hd
      · rw [State.toFaultDomain_kill hk hd]
        exact hcount.trans (.killRegion _ _)
      · rw [State.toFaultDomain_suspend hk hd]
        exact hcount.trans (.suspendRegion _ _)

theorem Kept.raiseBoundary (s : State) (k : Nat) (t : TrapReq) : Kept rcb s (s.raiseBoundary k t) := by
  unfold State.raiseBoundary
  split
  · exact .refl s
  · split
    · exact .toFaultDomain s k t
    · exact .setGroup s k _

/-! ## The access of a lane -/

theorem Kept.freeLog (s : State) (g : Group) (o : MemOp) : Kept rcb s (s.freeLog g o) := by
  unfold State.freeLog
  split
  · exact .refl s
  · exact (Kept.unpin s _ _).trans (.foldl (fun s _ => .unpin s _ _) _ _)

theorem Kept.finishOp (s : State) (k : Nat) (o : MemOp) : Kept rcb s (s.finishOp k o) := by
  unfold State.finishOp
  split
  · exact .refl s
  · refine Kept.trans ?_ (.foldl (fun s _ => .raiseBoundary s k _) _ _)
    split
    · exact (Kept.setGroup s k _).trans (.freeLog _ _ o)
    · exact ((Kept.setGroup s k _).trans (.freeLog _ _ o)).trans (.raiseBoundary _ k _)

theorem Kept.afterPerform (s : State) (k seq : Nat) : Kept rcb s (s.afterPerform k seq) := by
  have hcore : ∀ (j : Nat) (f : Core → Core), Kept rcb s (s.modCore j f) := fun _ _ => .of_regions rfl rfl rfl rfl
  unfold State.afterPerform
  split
  · exact .refl s
  · split
    · exact .refl s
    · split
      · dsimp only
        split
        · split
          · exact (hcore _ _).withGroups _
          · exact (hcore _ _).trans (.setGroup _ k _)
        · split
          · exact hcore _ _
          · exact (hcore _ _).trans (.finishOp _ k _)
      · exact .refl s

theorem Kept.noteEarly (s : State) (k : Nat) (g : Group) (o : MemOp) (a : LaneAcc) : Kept rcb s (s.noteEarly k g o a) := by
  unfold State.noteEarly
  split
  · exact .refl s
  · exact .of_regions rfl rfl rfl rfl

theorem Kept.contributeAcc (s : State) (g : Group) (o : MemOp) (a : LaneAcc) (pa home : Nat) (remote : Option Nat) :
    Kept rcb s (s.contributeAcc g o a pa home remote) := by
  unfold State.contributeAcc
  split
  · exact .of_regions rfl rfl rfl rfl
  all_goals exact .refl s

theorem Kept.countCxl (s : State) (g : Group) (pa n : Nat) (reads writes : Bool) : Kept rcb s (s.countCxl g pa n reads writes) := by
  have hshare := Kept.modRegion (rcb := rcb) (f := fun r => r.useCxl (s.cxlPortOf pa) n) (fun _ h => h) s (s.regionOf g)
  unfold State.countCxl
  split
  · exact .refl s
  · dsimp only
    have hreads : Kept rcb s (if reads = true then (s.modRegion (s.regionOf g) fun r => r.useCxl (s.cxlPortOf pa) n).tally g.view.partition 0x0E n
        else s.modRegion (s.regionOf g) fun r => r.useCxl (s.cxlPortOf pa) n) := by
      split
      · exact hshare.trans (.tally _ _ _ _)
      · exact hshare
    split
    · exact hreads.trans (.tally _ _ _ _)
    · exact hreads

theorem Kept.setAcc (s : State) (k seq i : Nat) (a : LaneAcc) : Kept rcb s (s.setAcc k seq i a) := .modGroup s k _

theorem Kept.performHome (s : State) (k : Nat) (g : Group) (o : MemOp) (i : Nat) (a : LaneAcc) (pa : Nat) :
    Kept rcb s (s.performHome k g o i a pa) := by
  unfold State.performHome
  extract_lets old old' w bytes s₁ s₂ s₃ s₄ a' h x
  have h₃ : Kept rcb s s₃ := by
    have h₂ : Kept rcb s s₂ := (Kept.noteEarly s k g o a).trans (.modGroup _ k _)
    by_cases hw : w.isSome = true
    · rw [show s₃ = s₂.storeBytes pa bytes from if_pos hw]
      exact h₂.trans (.storeBytes _ pa bytes)
    · rw [show s₃ = s₂ from if_neg hw]
      exact h₂
  have h₄ : Kept rcb s s₄ := (h₃.trans (.contributeAcc _ g o a pa _ none)).trans (.countCxl _ g pa a.size _ _)
  split
  · exact h₄.trans (.setAcc _ k o.seq i a')
  · exact (h₄.trans (.homeNote _ pa _ _)).trans (.setAcc _ k o.seq i _)

theorem Kept.failLane (s : State) (k seq lane : Nat) (code : BitVec 8) : Kept rcb s (s.failLane k seq lane code) := .modGroup s k _

theorem Kept.laneViolation (s : State) (core : Nat) (va : BitVec 64) : Kept rcb s (s.laneViolation core va) := .violation s _ _ _ _

theorem Kept.performHere (s : State) (k : Nat) (g : Group) (o : MemOp) (i : Nat) (a : LaneAcc) (pa : Nat) (reply : Reply) :
    Kept rcb s (s.performHere k g o i a pa reply) := by
  unfold State.performHere
  split
  · refine (Kept.failLane s k o.seq a.lane codeAccess).trans (.homeViolation (fun s => ?_) _ pa _)
    split
    · exact .violation s _ _ _ _
    · exact .laneViolation s _ _
  · exact .performHome s k g o i a pa

theorem Kept.performPeer (s : State) (k : Nat) (g : Group) (o : MemOp) (i : Nat) (a : LaneAcc) (slot : Nat) (reply : Reply) :
    Kept rcb s (s.performPeer k g o i a slot reply) := by
  unfold State.performPeer
  split
  · exact (Kept.failLane s k o.seq a.lane _).trans (.laneViolation _ _ _)
  · next v _ =>
    extract_lets w s₁ s₂ s₃ s₄
    have h₃ : Kept rcb s s₃ := ((Kept.noteEarly s k g o a).trans (.modGroup _ k _)).trans (.contributeAcc _ g o a _ _ _)
    have h₄ : Kept rcb s s₄ := by
      by_cases hw : w.isSome = true
      · rw [show s₄ = s₃.redoPeer (.group k) (s₃.importDevice slot) from if_pos hw]
        exact h₃.withGroups _
      · rw [show s₄ = s₃ from if_neg hw]
        exact h₃
    exact (h₄.trans (.setAcc _ k o.seq i _)).trans (.tally _ _ _ _)

theorem Kept.performAcc (s : State) (k : Nat) (g : Group) (o : MemOp) (i : Nat) (a : LaneAcc) (reply : Reply) :
    Kept rcb s (s.performAcc k g o i a reply) := by
  unfold State.performAcc
  cases a.st with
  | peer slot => exact (Kept.performPeer s k g o i a slot reply).trans (.afterPerform _ k o.seq)
  | leaf e => exact (Kept.performHere s k g o i a _ reply).trans (.afterPerform _ k o.seq)
  | direct pa => exact (Kept.performHere s k g o i a pa reply).trans (.afterPerform _ k o.seq)
  | miss => exact .refl s
  | wait _ => exact .refl s
  | answered _ => exact .refl s
  | failed _ => exact .refl s

theorem Kept.performAt (s : State) (k seq i : Nat) (reply : Reply) : Kept rcb s (s.performAt k seq i reply) := by
  unfold State.performAt
  split
  · exact .refl s
  · split
    · exact .refl s
    · split
      · exact .refl s
      · exact .performAcc s k _ _ i _ reply

/-! ## The home of a status word -/

theorem State.inPrivate_congr (h : t.boot = s.boot) (pa : Nat) : t.inPrivate pa = s.inPrivate pa := by
  unfold State.inPrivate
  rw [h]

/-- Which port of CXL memory holds an address depends on the configuration alone. -/
theorem State.homeOf_congr (h : t.boot = s.boot) (hpa : pa < 2 ^ 60) : t.homeOf pa = s.homeOf pa := by
  have h61 : ¬ 2 ^ 61 ≤ pa := by omega
  unfold State.homeOf
  rw [if_neg h61, if_neg h61, if_neg (Nat.not_le.mpr hpa), if_neg (Nat.not_le.mpr hpa), h]

theorem State.lt_of_inCxl (h : s.inCxl pa = true) : pa < 2 ^ 60 := by
  have hend : Config.cxlEnd = 0x800000000000 := rfl
  unfold State.inCxl at h
  rw [Bool.and_eq_true, Bool.and_eq_true, decide_eq_true_eq, decide_eq_true_eq, hend] at h
  omega

theorem State.cxlPortOf_congr (h : t.boot = s.boot) (hin : s.inCxl pa = true) : t.cxlPortOf pa = s.cxlPortOf pa :=
  congrArg (fun n => n - 1000) (State.homeOf_congr h (State.lt_of_inCxl hin))

theorem Kept.portDown (h : Kept rcb s t) (pa : Nat) : t.portDown pa = s.portDown pa := by
  unfold State.portDown
  rw [h.down, State.inCxl_congr h.boot]
  by_cases hin : s.inCxl pa = true
  · rw [State.cxlPortOf_congr h.boot hin]
  · rw [Bool.not_eq_true] at hin
    rw [hin, Bool.false_and, Bool.false_and]

/-- A home that performs stores of a word whose lines are not counted performs them after the held accesses too. -/
theorem Kept.takes (h : Kept rcb s t) (hs : Takes s pa n) : t.spoilt pa n true = none := by
  obtain ⟨hpriv, hspoilt⟩ := hs
  have hrefuse : t.refuses pa n = s.refuses pa n := by
    simp only [State.refuses, State.refusesAll, State.inPrivate_congr h.boot, hpriv, Bool.false_and]
  rwa [State.spoilt, h.portDown, hrefuse, h.bad]

/-! ## The timeout -/

/-- A gate ends: it is gone, and its status word names the code and the unscripted accesses. -/
theorem State.endGate_spec {R : Region} {x : Gate} (code : Nat) (hR : Table.get? s.regions rcb = some R) (hx : R.gate = some x)
    (hs : Takes s x.status 8) : Ungated rcb (s.endGate rcb code)
      ∧ (s.endGate rcb code).mem.w64 x.status = BitVec.ofNat 64 (gateStatus code x.unscripted) := by
  let u : State := s.modRegion rcb fun r => { r with gate := none }
  let v : State := ((s.heldAccs x.words).foldr insertHeld []).foldl (fun s e => s.performAt e.2.1 e.2.2.1 e.2.2.2 (.done 0)) u
  have hend : s.endGate rcb code = v.storeNat x.status 8 (gateStatus code x.unscripted) := by
    unfold State.endGate
    rw [hR]
    simp only [Option.bind_some, hx]
    rfl
  have hu : Kept rcb s u := .modRegion (f := fun r => { r with gate := none }) (fun _ _ => rfl) s rcb
  have hungated : Ungated rcb u := ⟨{ R with gate := none }, (Table.get?_modify_self _ _ _).trans (by rw [hR]; rfl), rfl⟩
  have hv : Kept rcb u v := .foldl (fun s e => .performAt s _ _ _ _) _ u
  rw [hend]
  exact ⟨(hv.trans (.deviceStore v x.status _)).gate hungated, State.w64_storeNat ((hu.trans hv).takes hs)⟩

theorem State.gateExpired_iff {x : Gate} :
    s.gateExpired x = true ↔ ∃ h ∈ s.heldClocks x, h.2 + x.timeout ≤ s.clk.cycle ∧ x.progressed < h.1 := by
  simp [State.gateExpired]

theorem gateTimesOut : Claims.GateTimeout := by
  intro s rcb R x hR hx hs
  have hexec : exec (.gateTimeout rcb) s = .next (if s.gateExpired x then s.endGate rcb 2 else s) := by
    rw [exec_gateTimeout, execGateTimeout, hR]
    simp only [Option.bind_some, hx]
  rw [hexec]
  refine ⟨fun hno => ?_, fun hexp => ?_⟩
  · have hnot : ¬ s.gateExpired x = true := by
      rw [State.gateExpired_iff]
      rintro ⟨h, hh, hc, hp⟩
      rcases hno h hh with hlt | hle
      · omega
      · omega
    rw [if_neg hnot]
  · obtain ⟨⟨R', hR', hg⟩, hw⟩ := State.endGate_spec 2 hR hx hs
    rw [if_pos (State.gateExpired_iff.mpr hexp)]
    exact ⟨_, R', rfl, hR', hg, hw⟩

/-- Settles O59. Of its seven parts the gate's timeout is the long one: the accesses that the gate held are performed after it is gone, and no
step of their performance arms a gate or spoils the home of its status word. -/
theorem timersDebugAndReplay : Obligations.TimersDebugAndReplay := by
  unfold Obligations.TimersDebugAndReplay
  exact ⟨progressPromise, watchdogTraps, comparatorMatch, gateTimesOut, debugger, freezing, recordAndReplay⟩

end
end Sys2Proof.Machine

end

section

/-! The checks of a lane's address at issue (O26): which space an address lies in, and the trap of the lowest lane that fails one. -/

set_option Elab.async false

namespace Sys2Proof.Machine

section

variable {s : State} {g : Group} {store : Bool} {size : Nat} {va : BitVec 64}

/-! ## The spaces of virtual addresses -/

/-- A field of a word, read off the word's number. -/
theorem extractLsb'_eq_iff {w lo len : Nat} (v : BitVec w) (x : BitVec len) :
    v.extractLsb' lo len = x ↔ v.toNat / 2 ^ lo % 2 ^ len = x.toNat := by
  rw [← BitVec.toNat_inj, BitVec.extractLsb'_toNat, Nat.shiftRight_eq_div_pow]

theorem topByte_eq_zero_iff (va : BitVec 64) : va.extractLsb' 56 8 = 0#8 ↔ va.toNat < 2 ^ 56 := by
  rw [extractLsb'_eq_iff, BitVec.toNat_ofNat]
  omega

theorem inTree_iff (va : BitVec 64) : inTree va = true ↔ va.toNat < 2 ^ 55 := by
  have hval : (0 : BitVec 9).toNat = 0 := rfl
  rw [inTree, beq_iff_eq, extractLsb'_eq_iff, hval]
  omega

/-- Below 2^56, bits 55:54 are 10 in the role window alone. -/
theorem inRoleWindow_iff (h : va.toNat < 2 ^ 56) :
    va.extractLsb' 54 2 = 2#2 ↔ 2 ^ 55 ≤ va.toNat ∧ va.toNat < 2 ^ 55 + 2 ^ 54 := by
  rw [extractLsb'_eq_iff, BitVec.toNat_ofNat]
  omega

theorem roleOk_iff (va : BitVec 64) :
    roleOk va = true ↔ va.toNat / 2 ^ 48 % 2 ^ 6 = 0 ∧ va.toNat / 2 ^ 23 % 2 ^ 17 = 0 := by
  simp only [roleOk, Bool.and_eq_true, beq_iff_eq, extractLsb'_eq_iff, BitVec.ofNat_eq_ofNat, BitVec.toNat_ofNat, Nat.zero_mod]

/-! ## The checks by space -/

theorem State.startAccess_outside (hw : g.id.walker = false) (h : 2 ^ 56 ≤ va.toNat) :
    s.startAccess g store size va = .trap codeAccess := by
  have htop : va.extractLsb' 56 8 ≠ 0#8 := fun e => absurd ((topByte_eq_zero_iff va).mp e) (by omega)
  rw [State.startAccess, hw, if_neg Bool.false_ne_true, if_pos htop]

theorem State.startAccess_tree (hw : g.id.walker = false) (h : va.toNat < 2 ^ 55) :
    s.startAccess g store size va = if va.toNat % size ≠ 0 then .trap codeAlign else .ok .miss := by
  have htop : va.extractLsb' 56 8 = 0#8 := (topByte_eq_zero_iff va).mpr (by omega)
  rw [State.startAccess, hw, if_neg Bool.false_ne_true, if_neg (not_not.mpr htop), if_pos ((inTree_iff va).mpr h)]

/-- The check of an address in the role window, after its reserved bits and its alignment: the role's window is bound (03: R72). -/
def State.startRole (s : State) (g : Group) (va : BitVec 64) : Start :=
  match s.roleAt g.id.launch g.id.gang (va.toNat / 2 ^ 40 % 2 ^ 8) (va.toNat % 2 ^ 23) with
  | none => .trap codeAccess
  | some pa => .ok (.direct pa)

theorem State.startAccess_role (hw : g.id.walker = false) (h : 2 ^ 55 ≤ va.toNat) (h' : va.toNat < 2 ^ 55 + 2 ^ 54) :
    s.startAccess g store size va =
      if !roleOk va then .trap codeAccess else if va.toNat % size ≠ 0 then .trap codeAlign else s.startRole g va := by
  have htop : va.extractLsb' 56 8 = 0#8 := (topByte_eq_zero_iff va).mpr (by omega)
  have htree : ¬ inTree va = true := by rw [inTree_iff]; omega
  have hrole : va.extractLsb' 54 2 = 2#2 := (inRoleWindow_iff (by omega)).mpr ⟨h, h'⟩
  rw [State.startAccess, hw, if_neg Bool.false_ne_true, if_neg (not_not.mpr htop), if_neg htree, if_pos hrole, State.startRole,
    BitVec.extractLsb'_toNat, Nat.shiftRight_eq_div_pow, BitVec.toNat_setWidth] <;> rfl

theorem State.startAccess_import (hw : g.id.walker = false) (h : 2 ^ 55 + 2 ^ 54 ≤ va.toNat) (h' : va.toNat < 2 ^ 56) :
    s.startAccess g store size va =
      if va.toNat % size ≠ 0 then .trap codeAlign
      else if importValid (s.importAt (va.toNat / 2 ^ 38 % 2 ^ 16)) && !importKv (s.importAt (va.toNat / 2 ^ 38 % 2 ^ 16)) then
        .ok (.peer (va.toNat / 2 ^ 38 % 2 ^ 16))
      else .trap codeImport := by
  have htop : va.extractLsb' 56 8 = 0#8 := (topByte_eq_zero_iff va).mpr h'
  have htree : ¬ inTree va = true := by rw [inTree_iff]; omega
  have hrole : ¬ va.extractLsb' 54 2 = 2#2 := by rw [inRoleWindow_iff h']; omega
  rw [State.startAccess, hw, if_neg Bool.false_ne_true, if_neg (not_not.mpr htop), if_neg htree, if_neg hrole,
    BitVec.extractLsb'_toNat, Nat.shiftRight_eq_div_pow]

theorem addressChecks : Claims.AddressChecks := by
  intro s g store size va hw _
  refine ⟨State.startAccess_outside hw, fun h hn => ?_, fun h hn => ?_,
    fun h h' => ⟨fun hres => ?_, fun h48 h23 hn => ?_, fun h48 h23 hn => ?_⟩, fun h h' => ⟨fun hn => ?_, fun hn => ?_⟩⟩
  · rw [State.startAccess_tree hw h, if_pos hn, codeAlign]
  · rw [State.startAccess_tree hw h, if_neg (not_not.mpr hn)]
  · have hbad : (!roleOk va) = true := by
      rw [Bool.not_eq_true', ← Bool.not_eq_true, roleOk_iff, not_and_or]
      exact hres
    rw [State.startAccess_role hw h h', if_pos hbad, codeAccess]
  · rw [State.startAccess_role hw h h', (roleOk_iff va).mpr ⟨h48, h23⟩, Bool.not_true, if_neg Bool.false_ne_true, if_pos hn,
      codeAlign]
  · rw [State.startAccess_role hw h h', (roleOk_iff va).mpr ⟨h48, h23⟩, Bool.not_true, if_neg Bool.false_ne_true,
      if_neg (not_not.mpr hn), State.startRole]
    rfl
  · rw [State.startAccess_import hw h h', if_pos hn, codeAlign]
  · rw [State.startAccess_import hw h h', if_neg (not_not.mpr hn)]
    simp only [Bool.and_eq_true, Bool.not_eq_true']
    rfl

/-! ## The lowest lane that fails a check -/

/-- The checks of lanes in ascending order stop at the lowest lane whose address fails one. -/
theorem State.startLanes_trap {addr : Nat → BitVec 64} {l : Nat} {c : BitVec 8} {ls : List Nat} (hasc : ls.Pairwise (· < ·))
    (hl : l ∈ ls) (ht : s.startAccess g store size (addr l) = .trap c)
    (hlow : ∀ j ∈ ls, j < l → ∃ st, s.startAccess g store size (addr j) = .ok st) :
    s.startLanes g store size addr ls = .trap l c := by
  induction ls with
  | nil => exact absurd hl List.not_mem_nil
  | cons x r ih =>
    obtain ⟨hx, hr⟩ := List.pairwise_cons.mp hasc
    rw [State.startLanes]
    rcases List.mem_cons.mp hl with rfl | hlr
    · rw [ht]
    · obtain ⟨st, hst⟩ := hlow x List.mem_cons_self (hx l hlr)
      rw [hst, ih hr hlr fun j hj => hlow j (List.mem_cons_of_mem x hj)]

theorem lanesOf_ascending (m : BitVec 32) : (lanesOf m).Pairwise (· < ·) := List.pairwise_lt_range.filter _

theorem Group.laneAddr_eq (g : Group) (a : BitVec 6) (bs : BitVec 2) (l : Nat) :
    g.laneAddr a bs l = BitVec.ofNat 64 ((g.rs (baseReg bs)).toNat + (g.rv a l).toNat) := by
  apply BitVec.eq_of_toNat_eq
  simp [Group.laneAddr]

/-- A word whose lowest failing lane is l has no effect but the trap of that lane (11: R207). -/
theorem State.issueMem_trap {i : Instr} {is : Issue} {m : MemWord} {l : Nat} {c : BitVec 8} (hl : l < 32)
    (h : s.startLanes g m.kind.writes m.size m.addr m.lanes = .trap l c) :
    s.issueMem i is g m = .next ((s.windowViolation g.ctl.core c (m.addr l)).raiseAtIssue is.grp (is.addrTrap c l (m.addr l))) := by
  have hlane : l ≠ uniformLane := Nat.ne_of_lt hl
  rw [State.issueMem, h]
  simp only [if_neg hlane]

/-- The plain loads and stores with the same operands: the word, whether it stores, and its size (11: R208). -/
def plainAccesses (gd : Guard) (d a : BitVec 6) (bs : BitVec 2) (la : BitVec 4) : List (Instr × Bool × Nat) :=
  [(.ldI8 gd d a bs la, false, 1), (.ldN8 gd d a bs la, false, 1), (.ldI16 gd d a bs la, false, 2),
    (.ldN16 gd d a bs la, false, 2), (.ldN32 gd d a bs la, false, 4), (.ldN64 gd d a bs la, false, 8),
    (.ldN128 gd d a bs la, false, 16), (.stN8 gd d a bs, true, 1), (.stN16 gd d a bs, true, 2), (.stN32 gd d a bs, true, 4),
    (.stN64 gd d a bs, true, 8), (.stN128 gd d a bs, true, 16)]

/-- The plain loads and stores are lane accesses of one form (11: R208). -/
theorem exec_plainAccess {gd : Guard} {d a : BitVec 6} {bs : BitVec 2} {la : BitVec 4} {i : Instr}
    (h : (i, store, size) ∈ plainAccesses gd d a bs la) :
    ∃ kind : MemKind, kind.writes = store ∧ ∀ s, exec i s = s.memLM i gd d a bs kind size := by
  simp only [plainAccesses, List.mem_cons, Prod.mk.injEq, List.not_mem_nil, or_false] at h
  obtain ⟨rfl, rfl, rfl⟩ | ⟨rfl, rfl, rfl⟩ | ⟨rfl, rfl, rfl⟩ | ⟨rfl, rfl, rfl⟩ | ⟨rfl, rfl, rfl⟩ | ⟨rfl, rfl, rfl⟩
    | ⟨rfl, rfl, rfl⟩ | ⟨rfl, rfl, rfl⟩ | ⟨rfl, rfl, rfl⟩ | ⟨rfl, rfl, rfl⟩ | ⟨rfl, rfl, rfl⟩ | ⟨rfl, rfl, rfl⟩ := h
  · exact ⟨.load 1 true, rfl, exec_ldI8 gd d a bs la⟩
  · exact ⟨.load 1 false, rfl, exec_ldN8 gd d a bs la⟩
  · exact ⟨.load 2 true, rfl, exec_ldI16 gd d a bs la⟩
  · exact ⟨.load 2 false, rfl, exec_ldN16 gd d a bs la⟩
  · exact ⟨.load 4 false, rfl, exec_ldN32 gd d a bs la⟩
  · exact ⟨.load 8 false, rfl, exec_ldN64 gd d a bs la⟩
  · exact ⟨.load 16 false, rfl, exec_ldN128 gd d a bs la⟩
  · exact ⟨.store 1, rfl, exec_stN8 gd d a bs⟩
  · exact ⟨.store 2, rfl, exec_stN16 gd d a bs⟩
  · exact ⟨.store 4, rfl, exec_stN32 gd d a bs⟩
  · exact ⟨.store 8, rfl, exec_stN64 gd d a bs⟩
  · exact ⟨.store 16, rfl, exec_stN128 gd d a bs⟩

theorem addressTrapAtIssue : Claims.AddressTrapAtIssue := by
  intro gd d a bs la i store size hi s is g₀ ⟨hissue, hgrp, hword, hroom, _⟩ g addr l c hl htakes htrap hlow
  obtain ⟨kind, rfl, hexec⟩ := exec_plainAccess hi
  have haddr : g.laneAddr a bs = addr := funext (Group.laneAddr_eq g a bs)
  have hmem : ∀ j, j ∈ lanesOf (g.passing gd is.mask) ↔ j < 32 ∧ takes gd is g j = true := by
    intro j
    rw [mem_lanesOf]
    exact and_congr_right fun hj => by rw [takes_ok gd is g j hj]
  have hlanes : (s.setGroup is.grp g).startLanes g kind.writes size addr (lanesOf (g.passing gd is.mask)) = .trap l c :=
    State.startLanes_trap (lanesOf_ascending _) ((hmem l).mpr ⟨hl, htakes⟩) htrap
      fun j hj hjl => hlow j hjl ((hmem j).mp hj).2
  rw [hexec, State.memLM, State.runWord_ok hissue hgrp hword hroom, haddr]
  exact State.issueMem_trap hl hlanes

end

/-- Settles O26: the address lies in one of the spaces, each with its own checks, and the checks of a word stop at its lowest failing lane. -/
theorem addressChecksAtIssue : Obligations.AddressChecksAtIssue := ⟨addressChecks, addressTrapAtIssue⟩

end Sys2Proof.Machine

end

section

/-! Roots (O32): what a state keeps when pins of regions change, refresh, and the step of a root switch at the region's home. -/

set_option Elab.async false

namespace Sys2Proof.Machine

section

variable {s t u : State} {rs rs' : Table Region} {k holder slot rcb : Nat} {g : Group}

/-! ## Pins of regions -/

/-- A region without its pins, and without the list of unused slots that goes with them. -/
def Region.bare (r : Region) : Region := { r with pins := [], unused := [] }

/-- Two tables of regions that differ in pins alone. -/
def SameBare (rs rs' : Table Region) : Prop := ∀ k, (Table.get? rs' k).map Region.bare = (Table.get? rs k).map Region.bare

/-- A state that differs from s in pins of regions alone. -/
def OnlyPins (s t : State) : Prop := ∃ rs, t = { s with regions := rs } ∧ SameBare s.regions rs

theorem OnlyPins.refl (s : State) : OnlyPins s s := ⟨s.regions, rfl, fun _ => rfl⟩

theorem OnlyPins.trans (h : OnlyPins s t) (h' : OnlyPins t u) : OnlyPins s u := by
  obtain ⟨rs, rfl, hr⟩ := h
  obtain ⟨rs', rfl, hr'⟩ := h'
  exact ⟨rs', rfl, fun k => (hr' k).trans (hr k)⟩

theorem OnlyPins.modRegion {f : Region → Region} (hf : ∀ r, (f r).bare = r.bare) (s : State) (j : Nat) :
    OnlyPins s (s.modRegion j f) := by
  refine ⟨_, rfl, fun k => ?_⟩
  rw [Table.get?_modify]
  split
  · next e =>
    rw [e, Option.map_map]
    exact congrFun (congrArg Option.map (funext hf)) _
  · rfl

theorem OnlyPins.pin (s : State) (holder slot : Nat) : OnlyPins s (s.pin holder slot) :=
  .modRegion (by intro; rfl) s holder

theorem OnlyPins.unpin (s : State) (holder slot : Nat) : OnlyPins s (s.unpin holder slot) :=
  .modRegion (by intro; rfl) s holder

/-! ## What is read from a region whatever its pins -/

/-- Two tables that differ in pins hold a region under the same keys. -/
theorem SameBare.cases (h : SameBare rs rs') (k : Nat) :
    Table.get? rs k = none ∧ Table.get? rs' k = none
      ∨ ∃ r r', Table.get? rs k = some r ∧ Table.get? rs' k = some r' ∧ r'.bare = r.bare := by
  have hk := h k
  cases hr : Table.get? rs k with
  | none =>
    rw [hr] at hk
    exact .inl ⟨rfl, Option.map_eq_none_iff.mp hk⟩
  | some r =>
    rw [hr] at hk
    obtain ⟨r', hr', e⟩ := Option.map_eq_some_iff.mp hk
    exact .inr ⟨r, r', rfl, hr', e⟩

/-- What does not look at pins is the same of regions that differ in pins. -/
theorem Region.congr_bare {α : Type} {get : Region → α} (hg : ∀ r, get r.bare = get r) {r r' : Region} (h : r'.bare = r.bare) :
    get r' = get r := by rw [← hg r', h, hg r]

theorem SameBare.inheritIn {α : Type} {get : Region → Option α} (h : SameBare rs rs') (hg : ∀ r, get r.bare = get r) (dflt : α)
    (n rcb : Nat) : inheritIn rs' get dflt n rcb = inheritIn rs get dflt n rcb := by
  induction n generalizing rcb with
  | zero => rfl
  | succ n ih =>
    rcases h.cases rcb with ⟨e, e'⟩ | ⟨r, r', e, e', hb⟩
    · simp only [Machine.inheritIn, e, e']
    · have hparent : r'.parent = r.parent := Region.congr_bare (get := Region.parent) (fun _ => rfl) hb
      simp only [Machine.inheritIn, e, e', Region.congr_bare hg hb, hparent, ih]

theorem SameBare.clipMin {get : Region → Option Nat} (h : SameBare rs rs') (hg : ∀ r, get r.bare = get r) (n rcb : Nat) :
    clipMin rs' get n rcb = clipMin rs get n rcb := by
  induction n generalizing rcb with
  | zero => rfl
  | succ n ih =>
    rcases h.cases rcb with ⟨e, e'⟩ | ⟨r, r', e, e', hb⟩
    · simp only [Machine.clipMin, e, e']
    · have hparent : r'.parent = r.parent := Region.congr_bare (get := Region.parent) (fun _ => rfl) hb
      simp only [Machine.clipMin, e, e', Region.congr_bare hg hb, hparent, ih]

theorem SameBare.chainIn (h : SameBare rs rs') (n rcb : Nat) : chainIn rs' n rcb = chainIn rs n rcb := by
  induction n generalizing rcb with
  | zero => rfl
  | succ n ih =>
    rcases h.cases rcb with ⟨e, e'⟩ | ⟨r, r', e, e', hb⟩
    · simp only [Machine.chainIn, e, e']
    · have hparent : r'.parent = r.parent := Region.congr_bare (get := Region.parent) (fun _ => rfl) hb
      simp only [Machine.chainIn, e, e', hparent, ih]

theorem SameBare.slotHolderIn (h : SameBare rs rs') (n rcb : Nat) : slotHolderIn rs' n rcb = slotHolderIn rs n rcb := by
  induction n generalizing rcb with
  | zero => rfl
  | succ n ih =>
    rcases h.cases rcb with ⟨e, e'⟩ | ⟨r, r', e, e', hb⟩
    · simp only [Machine.slotHolderIn, e, e']
    · have hparent : r'.parent = r.parent := Region.congr_bare (get := Region.parent) (fun _ => rfl) hb
      have hinherit : r'.inheritSlots = r.inheritSlots := Region.congr_bare (get := Region.inheritSlots) (fun _ => rfl) hb
      simp only [Machine.slotHolderIn, e, e', hparent, hinherit, ih]

theorem OnlyPins.eff {α : Type} {get : Region → Option α} (h : OnlyPins s t) (hg : ∀ r, get r.bare = get r) (dflt : α) (rcb : Nat) :
    t.eff get dflt rcb = s.eff get dflt rcb := by
  obtain ⟨rs, rfl, hr⟩ := h
  exact hr.inheritIn hg dflt 8 rcb

theorem OnlyPins.budgets {get : Region → Option Nat} (h : OnlyPins s t) (hg : ∀ r, get r.bare = get r) (rcb : Nat) :
    t.budgets get rcb = s.budgets get rcb := by
  obtain ⟨rs, rfl, hr⟩ := h
  simp only [State.budgets, hr.chainIn, hr.clipMin hg]

theorem OnlyPins.slotHolder (h : OnlyPins s t) (rcb : Nat) : t.slotHolder rcb = s.slotHolder rcb := by
  obtain ⟨rs, rfl, hr⟩ := h
  exact hr.slotHolderIn 8 rcb

/-- The fields that a refresh point gives do not depend on pins. -/
theorem OnlyPins.viewOf (h : OnlyPins s t) (rcb : Nat) : t.viewOf rcb = s.viewOf rcb := by
  unfold State.viewOf State.determinism State.publishScope State.partition State.parkThreshold State.noticeDeadline State.faultDomain
  rw [h.eff (fun _ => rfl), h.eff (fun _ => rfl), h.eff (fun _ => rfl), h.eff (fun _ => rfl), h.eff (fun _ => rfl), h.eff (fun _ => rfl),
    h.budgets (fun _ => rfl), h.budgets (fun _ => rfl), h.budgets (fun _ => rfl), h.slotHolder]

theorem OnlyPins.slotWord (h : OnlyPins s t) (holder slot : Nat) : t.slotWord holder slot = s.slotWord holder slot := by
  obtain ⟨rs, rfl, hr⟩ := h
  rcases hr.cases holder with ⟨e, e'⟩ | ⟨r, r', e, e', hb⟩
  · simp only [State.slotWord, e, e']
  · have hslots : r'.slots = r.slots := Region.congr_bare (get := Region.slots) (fun _ => rfl) hb
    simp only [State.slotWord, e, e', hslots]

theorem OnlyPins.groups (h : OnlyPins s t) : t.groups = s.groups := by
  obtain ⟨rs, rfl, -⟩ := h
  rfl

theorem OnlyPins.mem (h : OnlyPins s t) : t.mem = s.mem := by
  obtain ⟨rs, rfl, -⟩ := h
  rfl

theorem OnlyPins.regionOf (h : OnlyPins s t) (g : Group) : t.regionOf g = s.regionOf g := by
  obtain ⟨rs, rfl, -⟩ := h
  rfl

/-! ## refresh -/

/-- The group after a refresh that takes it to a slot of a holder: the pin, its generation, and the fields of its region. -/
def State.refreshed (s : State) (g : Group) (holder slot : Nat) : Group :=
  { g with pinSlot := slot, pinGen := slotGen (s.slotWord holder slot), view := { s.viewOf (s.regionOf g) with holder := holder } }

theorem OnlyPins.refreshed (h : OnlyPins s t) (g : Group) (holder slot : Nat) : t.refreshed g holder slot = s.refreshed g holder slot := by
  rw [State.refreshed, h.slotWord, h.regionOf, h.viewOf]
  rfl

/-- The pin of a refresh moves to the new slot, unless it stands on it. -/
theorem onlyPins_repin (s : State) (c : Prop) [Decidable c] (holder slot old oldSlot : Nat) :
    OnlyPins s (if c then s else (s.pin holder slot).unpin old oldSlot) := by
  split
  · exact .refl s
  · exact (OnlyPins.pin s holder slot).trans (.unpin _ old oldSlot)

/-- A refresh takes a group whose slots keep their holder, or that has nothing in flight on the old ones, to the slot that was read; a group
with something in flight stays on its slots when another region has come to hold them (03: R69, log 32). -/
theorem State.refreshGroup_spec (hg : Table.get? s.groups k = some g) :
    ∃ t h n, OnlyPins s t ∧ s.refreshGroup k holder slot = t.setGroup k (s.refreshed g h n)
      ∧ (g.view.holder = holder ∨ g.onSlots = false → h = holder ∧ n = slot)
      ∧ (g.view.holder ≠ holder → g.onSlots = true → h = g.view.holder ∧ n = s.currentSlot g.view.holder) := by
  let h := if g.view.holder = holder || g.onSlots then g.view.holder else holder
  let n := if g.view.holder = holder || !(g.view.holder = holder || g.onSlots) then slot else s.currentSlot g.view.holder
  have hp : OnlyPins s (if h = g.view.holder && n = g.pinSlot then s else (s.pin h n).unpin g.view.holder g.pinSlot) :=
    onlyPins_repin s _ h n g.view.holder g.pinSlot
  refine ⟨_, h, n, hp, ?_, fun hmoves => ?_, fun hne hon => ?_⟩
  · rw [← hp.refreshed]
    simp only [State.refreshGroup, hg]
    rfl
  · rcases hmoves with e | e
    · simp [h, n, e]
    · by_cases e' : g.view.holder = holder <;> simp [h, n, e, e']
  · simp [h, n, hne, hon]

/-! ## Words of root slots -/

theorem slotGen_toNat (w : BitVec 64) : (slotGen w).toNat = w.toNat / 2 ^ 48 := by
  rw [slotGen, BitVec.extractLsb'_toNat, Nat.shiftRight_eq_div_pow]
  have := w.isLt
  omega

theorem slotGen_eq (w : BitVec 64) : slotGen w = BitVec.ofNat 16 (w.toNat / 2 ^ 48) := by
  rw [← slotGen_toNat, BitVec.ofNat_toNat, BitVec.setWidth_eq]

/-! ## The step of a root switch -/

variable {w gen : BitVec 64} {R : Region}

theorem State.rootOk_iff (s : State) (w : BitVec 64) :
    s.rootOk w = true ↔ w.getLsbD 0 = true ∧ w.getLsbD 1 = false ∧ w.toNat / 2 ^ 4 % 2 ^ 5 = 0
      ∧ s.inMemory (w.toNat / 2 ^ 9 % 2 ^ 39 * 2 ^ 13) = true := by
  have hzero : (0 : BitVec 5).toNat = 0 := rfl
  rw [State.rootOk, slotNode, BitVec.extractLsb'_toNat, Nat.shiftRight_eq_div_pow]
  simp only [Bool.and_eq_true, beq_iff_eq, extractLsb'_eq_iff, hzero, Bool.not_eq_true', slotValid]
  constructor
  · rintro ⟨⟨⟨hvalid, hres⟩, hbit⟩, hnode⟩
    exact ⟨hvalid, hbit, hres, hnode⟩
  · rintro ⟨hvalid, hbit, hres, hnode⟩
    exact ⟨⟨⟨hvalid, hres⟩, hbit⟩, hnode⟩

/-- A generation is a number of 16 bits. -/
theorem genHigh_eq_zero_iff (gen : BitVec 64) : gen.extractLsb' 16 48 = 0#48 ↔ gen.toNat < 2 ^ 16 := by
  rw [extractLsb'_eq_iff, BitVec.toNat_ofNat]
  omega

/-- What a root switch names is well formed: the word may become a root, and the generation has 16 bits (12: R237). -/
def State.rootGood (s : State) (w gen : BitVec 64) : Prop := s.rootOk w = true ∧ gen.toNat < 2 ^ 16

theorem State.rootGood_iff (s : State) (w gen : BitVec 64) :
    s.rootGood w gen ↔ w.getLsbD 0 = true ∧ w.getLsbD 1 = false ∧ w.toNat / 2 ^ 4 % 2 ^ 5 = 0
      ∧ s.inMemory (w.toNat / 2 ^ 9 % 2 ^ 39 * 2 ^ 13) = true ∧ gen.toNat < 2 ^ 16 := by
  simp only [State.rootGood, State.rootOk_iff, and_assoc]

theorem State.rootStep_malformed (h : ¬ s.rootGood w gen) : s.rootStep holder w gen = (s, s.rootResult holder 4 0) := by
  have hc : (!s.rootOk w || decide (gen.extractLsb' 16 48 ≠ 0#48)) = true := by
    rw [Bool.or_eq_true, Bool.not_eq_true', decide_eq_true_eq, ne_eq, genHigh_eq_zero_iff, ← Bool.not_eq_true, ← not_and_or]
    exact h
  rw [State.rootStep, if_pos hc]

/-- A well-formed root switch is decided by the current generation, then by the slots. -/
theorem State.rootStep_good (h : s.rootGood w gen) : s.rootStep holder w gen =
    if slotGen (s.slotWord holder (s.currentSlot holder)) ≠ gen.setWidth 16 then (s, s.rootResult holder 1 0)
    else
      let c := s.rootCode holder w
      let t := if c.1 = 0 then s.installRoot holder c.2 w else s
      (t, t.rootResult holder c.1 c.2) := by
  obtain ⟨hok, hgen⟩ := h
  rw [State.rootStep, hok, (genHigh_eq_zero_iff gen).mpr hgen]
  rfl

theorem slotGen_eq_setWidth_iff (hgen : gen.toNat < 2 ^ 16) : slotGen w = gen.setWidth 16 ↔ w.toNat / 2 ^ 48 = gen.toNat := by
  rw [← BitVec.toNat_inj, slotGen_toNat, BitVec.toNat_setWidth, Nat.mod_eq_of_lt hgen]

theorem slotGen_eq_iff (v w : BitVec 64) : slotGen v = slotGen w ↔ v.toNat / 2 ^ 48 = w.toNat / 2 ^ 48 := by
  rw [← BitVec.toNat_inj, slotGen_toNat, slotGen_toNat]

/-! ## The slot that a root switch takes -/

theorem State.slotWord_eq (hR : Table.get? s.regions holder = some R) (j : Nat) : s.slotWord holder j = Table.getD R.slots j 0#64 := by
  rw [State.slotWord, hR]

theorem State.currentSlot_eq (hR : Table.get? s.regions holder = some R) : s.currentSlot holder = R.current := by
  rw [State.currentSlot, hR]

/-- The slots that are valid. -/
theorem contains_validSlots (p : Nat → Bool) {j : Nat} (hj : j < 8) : ((List.range 8).filter p).contains j = p j := by
  rw [Bool.eq_iff_iff, List.contains_iff_mem, List.mem_filter, List.mem_range]
  exact and_iff_right hj

theorem State.rootCode_taken {j : Nat} (hj : j < 8) (hv : slotValid (s.slotWord holder j) = true)
    (hgen : slotGen (s.slotWord holder j) = slotGen w) : s.rootCode holder w = (3, 0) := by
  have hsame : (slotGen (s.slotWord holder j) == slotGen w) = true := beq_iff_eq.mpr hgen
  exact if_pos (List.any_eq_true.mpr ⟨j, List.mem_filter.mpr ⟨List.mem_range.mpr hj, hv⟩, hsame⟩)

/-- A generation that no valid slot holds takes the lowest slot that is not valid. -/
theorem State.rootCode_new (hnew : ∀ i, i < 8 → slotValid (s.slotWord holder i) = true → slotGen (s.slotWord holder i) ≠ slotGen w) :
    s.rootCode holder w = match (List.range 8).find? fun i =>
        !((List.range 8).filter fun i => slotValid (s.slotWord holder i)).contains i with
      | none => (2, 0)
      | some i => (0, i) := by
  rw [State.rootCode]
  refine if_neg fun h => ?_
  obtain ⟨i, hi, hgen⟩ := List.any_eq_true.mp h
  obtain ⟨hi, hv⟩ := List.mem_filter.mp hi
  exact hnew i (List.mem_range.mp hi) hv (beq_iff_eq.mp hgen)

theorem State.rootCode_full (hall : ∀ i, i < 8 → slotValid (s.slotWord holder i) = true)
    (hnew : ∀ i, i < 8 → slotGen (s.slotWord holder i) ≠ slotGen w) : s.rootCode holder w = (2, 0) := by
  have hfind : ((List.range 8).find? fun i => !((List.range 8).filter fun i => slotValid (s.slotWord holder i)).contains i) = none := by
    rw [List.find?_range_eq_none]
    intro i hi
    rw [contains_validSlots _ hi, hall i hi]
    rfl
  rw [State.rootCode_new fun i hi _ => hnew i hi, hfind]

theorem State.rootCode_free {j : Nat} (hj : j < 8) (hv : slotValid (s.slotWord holder j) = false)
    (hlow : ∀ i, i < j → slotValid (s.slotWord holder i) = true)
    (hnew : ∀ i, i < 8 → slotValid (s.slotWord holder i) = true → slotGen (s.slotWord holder i) ≠ slotGen w) :
    s.rootCode holder w = (0, j) := by
  have hfind : ((List.range 8).find? fun i => !((List.range 8).filter fun i => slotValid (s.slotWord holder i)).contains i)
      = some j := by
    rw [List.find?_range_eq_some]
    refine ⟨?_, List.mem_range.mpr hj, fun i hi => ?_⟩
    · rw [contains_validSlots _ hj, hv]
      rfl
    · rw [contains_validSlots _ (hi.trans hj), hlow i hi]
      rfl
  rw [State.rootCode_new hnew, hfind]

/-- A region with a word installed in a slot, which is its current one. -/
def Region.withRoot (R : Region) (j : Nat) (w : BitVec 64) : Region :=
  { R with slots := Table.put 0#64 R.slots j w, current := j }.noteUnused

theorem State.installRoot_region (hR : Table.get? s.regions holder = some R) (j : Nat) (w : BitVec 64) :
    Table.get? (s.installRoot holder j w).regions holder = some (R.withRoot j w) := by
  rw [State.installRoot, State.modRegion_regions, Table.get?_modify_self, hR]
  rfl

theorem Region.getD_withRoot (R : Region) (j : Nat) (w : BitVec 64) :
    Table.getD (R.withRoot j w).slots (R.withRoot j w).current 0#64 = w := Table.getD_put_self _ _ _ _

/-- The word in the result register: the code, the current generation, and the slot of a word that was installed (12: R237). -/
def rootWord (code gen slot : Nat) : BitVec 64 := BitVec.ofNat 64 (code * 2 ^ 56 + gen * 2 ^ 16 + slot)

theorem State.rootResult_eq (hR : Table.get? s.regions holder = some R) (code slot : Nat) :
    s.rootResult holder code slot
      = rootWord code ((Table.getD R.slots R.current 0#64).toNat / 2 ^ 48) (if code = 0 then slot else 0) := by
  rw [State.rootResult, slotGen_toNat, State.currentSlot_eq hR, State.slotWord_eq hR, rootWord]

/-- A root switch that the slots refuse leaves the state as it is. -/
theorem State.rootStep_refused {c : Nat} (h : s.rootGood w gen)
    (hgen : slotGen (s.slotWord holder (s.currentSlot holder)) = gen.setWidth 16) (hcode : s.rootCode holder w = (c, 0)) (hc : c ≠ 0) :
    s.rootStep holder w gen = (s, s.rootResult holder c 0) := by
  rw [State.rootStep_good h, if_neg (not_not.mpr hgen), hcode]
  simp only [if_neg hc]

theorem State.rootStep_installs {j : Nat} (h : s.rootGood w gen)
    (hgen : slotGen (s.slotWord holder (s.currentSlot holder)) = gen.setWidth 16) (hcode : s.rootCode holder w = (0, j)) :
    s.rootStep holder w gen = (s.installRoot holder j w, (s.installRoot holder j w).rootResult holder 0 j) := by
  rw [State.rootStep_good h, if_neg (not_not.mpr hgen), hcode]
  rfl

/-- The step of a root switch leaves the state as it is or installs a word. -/
theorem State.rootStep_cases (s : State) (holder : Nat) (w gen : BitVec 64) :
    (s.rootStep holder w gen).1 = s ∨ ∃ j, (s.rootStep holder w gen).1 = s.installRoot holder j w := by
  by_cases h : s.rootGood w gen
  · rw [State.rootStep_good h]
    split
    · exact .inl rfl
    · dsimp only
      split
      · exact .inr ⟨_, rfl⟩
      · exact .inl rfl
  · exact .inl (congrArg Prod.fst (State.rootStep_malformed h))

theorem State.rootStep_groups (s : State) (holder : Nat) (w gen : BitVec 64) : (s.rootStep holder w gen).1.groups = s.groups := by
  rcases s.rootStep_cases holder w gen with e | ⟨j, e⟩ <;> rw [e]
  rfl

theorem State.rootStep_mem (s : State) (holder : Nat) (w gen : BitVec 64) : (s.rootStep holder w gen).1.mem = s.mem := by
  rcases s.rootStep_cases holder w gen with e | ⟨j, e⟩ <;> rw [e]
  rfl

theorem State.rootStep_region (hR : Table.get? s.regions holder = some R) (w gen : BitVec 64) :
    ∃ R', Table.get? (s.rootStep holder w gen).1.regions holder = some R' := by
  rcases s.rootStep_cases holder w gen with e | ⟨j, e⟩ <;> rw [e]
  · exact ⟨R, hR⟩
  · exact ⟨_, State.installRoot_region hR j w⟩

/-- A root switch is outstanding, at the next place in program order (12: R237). -/
def Group.queueRoot (g : Group) (d a b : BitVec 6) : Group :=
  { g with fl := { g.fl with
    nextSeq := g.fl.nextSeq + 1
    roots := g.fl.roots ++ [{ d, word := g.rs a, gen := g.rs b, seq := g.fl.nextSeq }] } }

/-- The step finishes the root switch in its group: it is no longer outstanding, and its result is written (12: R237). -/
def Group.rootDone (rest : List RootSw) (d : BitVec 6) (x : BitVec 64) (g : Group) : Group :=
  ({ g with fl := { g.fl with roots := rest } } : Group).ws d x

theorem exec_rootswStep_ready {r : RootSw} {rest : List RootSw} (hg : Table.get? s.groups k = some g) (hroots : g.fl.roots = r :: rest)
    (hrel : g.released r.seq = true) (hheld : g.heldByCommand r.seq = false) :
    exec (.rootswStep k) s = .next ((s.rootStep g.view.holder r.word r.gen).1.modGroup k
      (Group.rootDone rest r.d (s.rootStep g.view.holder r.word r.gen).2)) := by
  have hready : g.rootReady r = true := by rw [Group.rootReady, hrel, hheld]; rfl
  rw [exec_rootswStep, execRootswStep, hg]
  simp only [hroots, hready, Bool.not_true, Bool.false_eq_true, if_false]
  rfl

theorem Group.rootDone_roots (rest : List RootSw) (d : BitVec 6) (x : BitVec 64) (g : Group) : (g.rootDone rest d x).fl.roots = rest := by
  obtain ⟨t, e⟩ := Group.ws_eq ({ g with fl := { g.fl with roots := rest } } : Group) d x
  rw [Group.rootDone, e]

theorem Group.rootDone_sreg (rest : List RootSw) (d : BitVec 6) (x : BitVec 64) (g : Group) (n : Nat) :
    (g.rootDone rest d x).sreg n = if d ≠ 63#6 ∧ n = d.toNat then x else g.sreg n := Group.ws_sreg _ _ _ _

end

theorem refresh : Claims.Refresh := by
  intro s is g₀ ⟨hissue, hgrp, hword, hroom, _⟩ g rcb home slot
  obtain ⟨pcs, hadv⟩ := Group.advance_eq is g
  let u := s.setGroup is.grp (g.advance is)
  have hself : Table.get? u.groups is.grp = some (g.advance is) := Table.get?_set_self _ _ _
  obtain ⟨t, h, n, hpins, hrefresh, hmoves, hstays⟩ := State.refreshGroup_spec (holder := home) (slot := slot) hself
  have hexec : exec .refresh s = .next (t.setGroup is.grp (u.refreshed (g.advance is) h n)) := by
    rw [exec_refresh, execRefresh, State.runWord_ok hissue hgrp hword hroom, ← hrefresh]
    dsimp only
    rw [State.setGroup_setGroup]
    rfl
  refine ⟨_, _, hexec, Table.get?_set_self _ _ _, fun j hj => ?_, fun x => ?_, fun hc => ?_, fun hne hon => ?_,
    fun l hl => Group.advance_pc is g l hl, ?_⟩
  · rw [State.setGroup_groups, Table.get?_set_ne _ _ hj, hpins.groups, State.setGroup_groups, Table.get?_set_ne _ _ hj]
  · rw [State.setGroup_mem, hpins.mem, State.setGroup_mem]
  · rw [hadv] at hmoves ⊢
    obtain ⟨rfl, rfl⟩ := hmoves hc
    exact ⟨rfl, slotGen_eq _, rfl⟩
  · rw [hadv] at hstays ⊢
    obtain ⟨rfl, rfl⟩ := hstays hne hon
    exact ⟨rfl, slotGen_eq _, rfl⟩
  · rw [hadv]
    rfl

theorem rootSwitchIssue : Claims.RootSwitchIssue := by
  intro d a b s is g₀ i hfits
  refine completes_runGroup (f := fun _ g => g.queueRoot d a b) (exec_rootsw d a b s) hfits ?_
  obtain ⟨pcs, hadv⟩ := Group.advance_eq is ((g₀.atIssue i is).queueRoot d a b)
  refine ⟨?_, ?_, fun l hl => Group.advance_pc _ _ _ hl, ?_⟩ <;> rw [hadv] <;> rfl

theorem rootSwitchStep : Claims.RootSwitchStep := by
  intro s k home g r rest R hg hroots hrel hheld hhome hR word gen valid good result
  subst hhome
  obtain ⟨R', hR'⟩ := State.rootStep_region hR r.word r.gen
  have hslot : ∀ j, s.slotWord g.view.holder j = word j := State.slotWord_eq hR
  have hgood : s.rootGood r.word r.gen ↔ good := State.rootGood_iff s r.word r.gen
  have hcur : good → (slotGen (s.slotWord g.view.holder (s.currentSlot g.view.holder)) = r.gen.setWidth 16
      ↔ gen (word R.current) = r.gen.toNat) := by
    intro h
    rw [State.currentSlot_eq hR, hslot]
    exact slotGen_eq_setWidth_iff (hgood.mpr h).2
  have hsame : ∀ c, s.rootStep g.view.holder r.word r.gen = (s, s.rootResult g.view.holder c 0) → R' = R
      ∧ ∀ n, (g.rootDone rest r.d (s.rootStep g.view.holder r.word r.gen).2).sreg n
        = if r.d ≠ 63#6 ∧ n = r.d.toNat then result c (gen (word R.current)) 0 else g.sreg n := by
    intro c e
    rw [e] at hR' ⊢
    rw [State.rootResult_eq hR, ite_self]
    exact ⟨Option.some.inj (hR'.symm.trans hR), Group.rootDone_sreg rest r.d _ g⟩
  refine ⟨_, _, R', exec_rootswStep_ready hg hroots hrel hheld, ?_, hR', Group.rootDone_roots rest r.d _ g, fun x => ?_,
    fun h => hsame 4 ?_, fun h hne => hsame 1 ?_, fun h he ht => hsame 3 ?_, fun h he hfull => hsame 2 ?_,
    fun j hj hv hlow hnew h he => ?_⟩
  · rw [State.modGroup_groups, Table.get?_modify_self, State.rootStep_groups, hg]
    rfl
  · rw [State.modGroup_mem, State.rootStep_mem]
  · exact State.rootStep_malformed (mt hgood.mp h)
  · rw [State.rootStep_good (hgood.mpr h), if_pos (mt (hcur h).mp hne)]
  · obtain ⟨j, hj, hv, hsamegen⟩ := ht
    refine State.rootStep_refused (hgood.mpr h) ((hcur h).mpr he) (State.rootCode_taken hj ?_ ?_) (by decide)
    · rw [hslot]
      exact hv
    · rw [hslot]
      exact (slotGen_eq_iff _ _).mpr hsamegen
  · refine State.rootStep_refused (hgood.mpr h) ((hcur h).mpr he) (State.rootCode_full (fun i hi => ?_) fun i hi => ?_) (by decide)
    · rw [hslot]
      exact (hfull i hi).1
    · rw [hslot]
      exact mt (slotGen_eq_iff _ _).mp (hfull i hi).2
  · have hcode : s.rootCode g.view.holder r.word = (0, j) := by
      refine State.rootCode_free hj (by rw [hslot]; exact hv) (fun i hi => by rw [hslot]; exact hlow i hi) fun i hi hvi => ?_
      rw [hslot] at hvi ⊢
      exact mt (slotGen_eq_iff _ _).mp (hnew i hi hvi)
    have hstep := State.rootStep_installs (hgood.mpr h) ((hcur h).mpr he) hcode
    rw [hstep] at hR' ⊢
    obtain rfl : R.withRoot j r.word = R' := Option.some.inj ((State.installRoot_region hR j r.word).symm.trans hR')
    refine ⟨rfl, fun i => Table.getD_put _ _ _ _ _, fun n => ?_⟩
    rw [Group.rootDone_sreg, State.rootResult_eq hR', Region.getD_withRoot, if_pos rfl]
    rfl

/-- Settles O32: a refresh moves pins, on which no other field of a region depends; the step of a root switch is decided check by check, and
installs its word in the first slot that is not valid. -/
theorem refreshAndRootSwitch : Obligations.RefreshAndRootSwitch := ⟨refresh, rootSwitchIssue, rootSwitchStep⟩

end Sys2Proof.Machine

end

section

/-! Departure of the head of a store queue (O48; 04: R85, R86). The store hash takes the pieces of a store when they are performed, not at
its departure: 25: R408 as log 27 reads it. -/

set_option Elab.async false

namespace Sys2Proof.Machine

section

variable {s : State} {k seq : Nat} {g : Group} {o : MemOp}

theorem State.core_modCore (s : State) (c : Nat) (f : Core → Core) (n : Nat) :
    (s.modCore c f).core n = if n = c then f (s.core c) else s.core n := by
  simp only [State.core, State.modCore_cores, Table.getD_eq, Table.get?_set]
  split
  · rfl
  · rfl

theorem Group.seq_of_opAt (h : g.opAt seq = some o) : o.seq = seq := by simpa using List.find?_some h

/-- The head of the queue as it stands in the outbound path. -/
def MemOp.departed (o : MemOp) : MemOp := { o with queue := .outbound }

/-- The group once the head of its queue has left. -/
def Group.departed (g : Group) (o : MemOp) : Group :=
  { g with fl := { g.fl with
    ops := g.fl.ops.map fun y => if y.seq = o.seq then o.departed else y
    hashing := g.fl.hashing ++ o.hashPieces } }

/-- Operations that a map changes under their positions. -/
theorem Group.opAt_map {f : MemOp → MemOp} (hf : ∀ y, (f y).seq = y.seq) :
    (g.setOps (g.fl.ops.map f)).opAt seq = (g.opAt seq).map f := by
  have hsame : ((fun y : MemOp => y.seq == seq) ∘ f) = fun y => y.seq == seq := funext fun y => congrArg (· == seq) (hf y)
  rw [Group.opAt, Group.setOps_fl, List.find?_map, hsame]
  rfl

theorem Group.departed_opAt (h : g.queueHead = some o) : (g.departed o).opAt o.seq = some o.departed := by
  have hmap : (g.departed o).opAt o.seq = (g.opAt o.seq).map fun y => if y.seq = o.seq then o.departed else y :=
    Group.opAt_map fun y => by
      split
      · next e => exact e.symm
      · rfl
  obtain ⟨y, hy⟩ : ∃ y, g.opAt o.seq = some y :=
    Option.isSome_iff_exists.mp (List.find?_isSome.mpr ⟨o, List.mem_of_find?_eq_some h, beq_self_eq_true o.seq⟩)
  rw [hmap, hy, Option.map_some, if_pos (Group.seq_of_opAt hy)]

/-- When a store leaves, loads of other groups may be performed again; a group changes in its operations only. -/
theorem State.reperform_group {core j : Nat} {x : Group} (h : Table.get? s.groups j = some x) :
    ∃ os, Table.get? (s.reperform core k o).groups j = some (x.setOps os) ∧ (j = k → os = x.fl.ops) := by
  rw [State.reperform, Table.get?_map fun p => by split <;> rfl, h, Option.map_some]
  split
  · exact ⟨x.fl.ops, rfl, fun _ => rfl⟩
  · next hne => exact ⟨_, rfl, fun e => by simp [e] at hne⟩

/-- An operation of which an access is left to do neither leaves the outbound path nor finishes. -/
theorem State.afterPerform_of_waiting (hg : Table.get? s.groups k = some g) (ho : g.opAt seq = some o)
    (hleft : ∃ a ∈ o.accs, a.over = false) : s.afterPerform k seq = s := by
  have hall : o.accs.all LaneAcc.over = false := List.all_eq_false.mpr (hleft.imp fun a ⟨ha, hover⟩ => ⟨ha, by simp [hover]⟩)
  unfold Group.opAt at ho
  simp [State.afterPerform, hg, ho, hall]

/-- The state once the head of a queue has left: its group and the path of its core hold it. -/
def State.departed (s : State) (k : Nat) (g : Group) (o : MemOp) : State :=
  (s.modGroup k fun g => g.departed o).modCore g.ctl.core fun c => { c with out := c.out ++ [(k, o.seq)] }

theorem State.departed_self (hg : Table.get? s.groups k = some g) : Table.get? (s.departed k g o).groups k = some (g.departed o) := by
  rw [State.departed, State.modCore_groups, State.modGroup_groups, Table.get?_modify_self, hg, Option.map_some]

theorem State.departed_other {j : Nat} (hj : j ≠ k) : Table.get? (s.departed k g o).groups j = Table.get? s.groups j := by
  rw [State.departed, State.modCore_groups, State.modGroup_groups, Table.get?_modify, if_neg hj]

theorem State.departed_out : ((s.departed k g o).core g.ctl.core).out = (s.core g.ctl.core).out ++ [(k, o.seq)] := by
  rw [State.departed, State.core_modCore, if_pos rfl]
  rfl

theorem State.reperform_departed_self (hg : Table.get? s.groups k = some g) :
    Table.get? ((s.departed k g o).reperform g.ctl.core k o.departed).groups k = some (g.departed o) := by
  obtain ⟨os, hos, hown⟩ := State.reperform_group (k := k) (o := o.departed) (core := g.ctl.core) (State.departed_self (o := o) hg)
  rw [hos, hown rfl]
  rfl

theorem State.depart_eq (hg : Table.get? s.groups k = some g) (hhead : g.queueHead = some o) (hleft : ∃ a ∈ o.accs, a.over = false) :
    s.depart k g o = (s.departed k g o).reperform g.ctl.core k o.departed :=
  State.afterPerform_of_waiting (o := o.departed) (State.reperform_departed_self hg) (Group.departed_opAt hhead) hleft

theorem exec_storeQueueDepart_head (hg : Table.get? s.groups k = some g) (hdead : g.ctl.dead = false) (hhead : g.queueHead = some o)
    (hmay : g.mayDepart o = true) : exec (.storeQueueDepart k) s = .next (s.depart k g o) := by
  rw [exec_storeQueueDepart, execStoreQueueDepart]
  simp [hg, hhead, hmay, hdead]

end

theorem storeDeparts : Claims.StoreDeparts := by
  intro s k g o hg hdead hhead hmay hleft
  have hexec := exec_storeQueueDepart_head hg hdead hhead hmay
  rw [State.depart_eq hg hhead hleft] at hexec
  refine ⟨_, g.departed o, o.departed, hexec, State.reperform_departed_self hg, Group.departed_opAt hhead, rfl, State.departed_out, rfl, rfl,
    fun _ => rfl, fun j x hx => ?_⟩
  by_cases hj : j = k
  · subst hj
    obtain rfl : g = x := Option.some.inj (hg.symm.trans hx)
    exact ⟨_, State.reperform_departed_self hg, rfl, rfl, rfl⟩
  · obtain ⟨os, hos, -⟩ := State.reperform_group (k := k) (o := o.departed) (core := g.ctl.core)
      ((State.departed_other (g := g) (o := o) hj).trans hx)
    exact ⟨_, hos, rfl, rfl, rfl⟩

end Sys2Proof.Machine

end

section

/-! A line of registers that comes into its core (O48; 02: R51, R52). -/

set_option Elab.async false

namespace Sys2Proof.Machine

section

variable {s : State} {k line pa n : Nat} {g : Group} {bs : List Byte}

/-- Bytes within a run of bytes of memory. -/
theorem Memory.bytes_within (m : Memory) (a : Nat) {n i j : Nat} (h : i + j ≤ n) :
    ((m.bytes a n).drop i).take j = m.bytes (a + i) j := by
  refine List.ext_getElem ?_ fun x _ hx => ?_
  · simp only [List.length_take, List.length_drop, Memory.bytes_length]
    omega
  · simp [Memory.bytes, Nat.add_assoc]

/-- Word l of a line of bytes. -/
def lineWord (bs : List Byte) (l : Nat) : BitVec 32 := BitVec.ofNat 32 (leNat ((bs.drop (4 * l)).take 4))

theorem lineWord_bytes (m : Memory) (a : Nat) {l : Nat} (hl : l < 32) : lineWord (m.bytes a 128) l = m.w32 (a + 4 * l) := by
  rw [lineWord, Memory.bytes_within _ _ (by omega)]
  rfl

theorem foldl_setVreg_eq {ls : List Nat} (hls : ∀ l ∈ ls, l < 32) (n : Nat) (val : Nat → BitVec 32) (g : Group) :
    ls.foldl (fun g l => g.setVreg n l (val l)) g = Group.setLanesIn ls (BitVec.allOnes 32) n val g := by
  induction ls generalizing g with
  | nil => rfl
  | cons l r ih =>
    have hl : has (BitVec.allOnes 32) l = true := by
      rw [has, BitVec.getLsbD_allOnes, decide_eq_true (hls l List.mem_cons_self)]
    rw [List.foldl_cons, ih fun x hx => hls x (List.mem_cons_of_mem _ hx), Group.setLanesIn, if_pos hl]

/-- The group whose line is neither missing nor on its way any more. -/
def Group.lineCame (line : Nat) (g : Group) : Group :=
  { g with ctl := { g.ctl with missing := g.ctl.missing.filter (· != line), filling := g.ctl.filling.filter (· != line) } }

/-- A line comes as a write of its register in every lane. -/
theorem Group.fillLine_eq_setLanesIn (line : Nat) (bs : List Byte) (g : Group) :
    g.fillLine line bs = Group.setLanesIn (List.range 32) (BitVec.allOnes 32) line (lineWord bs) (g.lineCame line) := by
  have hzip : (List.range 32).zip (words32 32 bs) = (List.range 32).map fun l => (l, lineWord bs l) := by
    have h := List.zip_map' (l := List.range 32) (f := fun l => l) (g := lineWord bs)
    rwa [List.map_id'] at h
  rw [← foldl_setVreg_eq fun l hl => List.mem_range.mp hl]
  unfold Group.fillLine
  rw [hzip, List.foldl_map]
  rfl

theorem Group.fillLine_eq (line : Nat) (bs : List Byte) (g : Group) :
    ∃ v, g.fillLine line bs = { g.lineCame line with regs := { g.regs with v := v } } := by
  rw [Group.fillLine_eq_setLanesIn]
  exact Group.setLanesIn_eq _ _ _ _ _

theorem Group.fillLine_vreg (line : Nat) (bs : List Byte) (g : Group) (n : Nat) {l : Nat} (hl : l < 32) :
    (g.fillLine line bs).vreg n l = if n = line then lineWord bs l else g.vreg n l := by
  have hone : has (BitVec.allOnes 32) l = true := by rw [has, BitVec.getLsbD_allOnes, decide_eq_true hl]
  rw [Group.fillLine_eq_setLanesIn, Group.setLanesIn_vreg _ _ _ _ _ _ _ (fun x hx => List.mem_range.mp hx) hl]
  simp only [List.mem_range, hl, hone, and_true]
  rfl

theorem Group.touchLine_vreg (line stamp : Nat) (g : Group) (n l : Nat) : (g.touchLine line stamp).vreg n l = g.vreg n l := rfl

theorem State.countCxl_groups (s : State) (g : Group) (pa n : Nat) (reads writes : Bool) :
    (s.countCxl g pa n reads writes).groups = s.groups := by
  unfold State.countCxl
  split
  · rfl
  · cases reads <;> cases writes <;> rfl

theorem State.countCxl_mem (s : State) (g : Group) (pa n : Nat) (reads writes : Bool) :
    (s.countCxl g pa n reads writes).mem = s.mem := by
  unfold State.countCxl
  split
  · rfl
  · cases reads <;> cases writes <;> rfl

theorem State.ctxRead_of_pa {off : Nat} (hpa : s.ctxReach g (g.ctl.ctx + BitVec.ofNat 64 off) = .pa pa) (hok : s.spoilt pa n false = none) :
    s.ctxRead g off n = .ok (s.mem.bytes pa n) := by
  simp [State.ctxRead, hpa, State.ctxSpoilt, hok]

theorem State.countCtx_of_pa {off : Nat} (hpa : s.ctxReach g (g.ctl.ctx + BitVec.ofNat 64 off) = .pa pa) :
    s.countCtx g off n = s.countCxl g pa n true false := by
  simp only [State.countCtx, hpa]

theorem exec_lineFill_of_pa (hg : Table.get? s.groups k = some g) (hmay : s.mayFill g line = true)
    (hpa : s.ctxReach g (g.ctl.ctx + BitVec.ofNat 64 (0x2000 + 128 * line)) = .pa pa) (hok : s.spoilt pa 128 false = none) :
    exec (.lineFill k line) s = .next ((s.countCxl g pa 128 true false).setGroup k
      ((g.fillLine line (s.mem.bytes pa 128)).touchLine line s.fresh)) := by
  rw [exec_lineFill, execLineFill]
  simp [hg, hmay, State.ctxRead_of_pa hpa hok, State.countCtx_of_pa hpa]

end

theorem lineFilled : Claims.LineFilled := by
  intro s k line pa g hg hmay hpa hok
  obtain ⟨v, hv⟩ := Group.fillLine_eq line (s.mem.bytes pa 128) g
  refine ⟨_, _, exec_lineFill_of_pa hg hmay hpa hok, Table.get?_set_self _ _ _, fun j hj => ?_, fun x => ?_, fun n l hl => ?_, ?_, ?_, ?_, ?_⟩
  · rw [State.setGroup_groups, Table.get?_set_ne _ _ hj, State.countCxl_groups]
  · rw [State.setGroup_mem, State.countCxl_mem]
  · rw [Group.touchLine_vreg, Group.fillLine_vreg line _ g n hl, lineWord_bytes _ _ hl]
  · rw [hv]
    rfl
  · rw [hv]
    rfl
  · exact Table.get?_set_self _ _ _
  · rw [hv]
    rfl

end Sys2Proof.Machine

end

section

/-! Landing of the value of a memory word (O48; 02: R56; 04: R84; 11: R208, R211, R218). -/

set_option Elab.async false

namespace Sys2Proof.Machine

/-! ## Landing lines -/

section

variable {slot j l m i : Nat} {x : BitVec 32} {g : Group} {p : Pend} {ws : List (Nat × Nat × BitVec 32)}

/-- A word past the width of its destination goes nowhere. -/
theorem Group.setLanding_past (hp : Table.get? g.fl.pend slot = some p) (hj : p.width ≤ j) : g.setLanding slot j l x = g := by
  rw [Group.setLanding, hp]
  exact if_pos hj

theorem Group.setLanding_landingWord (hp : Table.get? g.fl.pend slot = some p) (hl : l < 32) (hi : i < 32) :
    (g.setLanding slot j l x).landingWord m i = if j < p.width ∧ m = p.line + j ∧ i = l then x else g.landingWord m i := by
  have hat : 32 * m + i = 32 * (p.line + j) + l ↔ m = p.line + j ∧ i = l := by omega
  by_cases hj : j < p.width
  · simp only [Group.setLanding_word g slot j l x p hp hj, hat, hj, true_and]
  · rw [Group.setLanding_past hp (Nat.le_of_not_lt hj), if_neg fun h => hj h.1]

/-- Words, each with its number and its lane, go to the landing lines of a pending destination, one after another. -/
def Group.landAll (slot : Nat) (ws : List (Nat × Nat × BitVec 32)) (g : Group) : Group :=
  ws.foldl (fun g w => g.setLanding slot w.1 w.2.1 w.2.2) g

theorem Group.landAll_eq (slot : Nat) (ws : List (Nat × Nat × BitVec 32)) (g : Group) :
    ∃ t, g.landAll slot ws = { g with fl := { g.fl with landing := t } } := by
  induction ws generalizing g with
  | nil => exact ⟨g.fl.landing, rfl⟩
  | cons w r ih =>
    obtain ⟨t, ht⟩ := Group.setLanding_eq g slot w.1 w.2.1 w.2.2
    obtain ⟨u, hu⟩ := ih (g.setLanding slot w.1 w.2.1 w.2.2)
    exact ⟨u, hu.trans (by rw [ht])⟩

theorem Group.landAll_pend (slot : Nat) (ws : List (Nat × Nat × BitVec 32)) (g : Group) : (g.landAll slot ws).fl.pend = g.fl.pend := by
  obtain ⟨t, ht⟩ := Group.landAll_eq slot ws g
  rw [ht]

/-- A word of a landing line to which nothing goes keeps its value. -/
theorem Group.landAll_word_of_none (hp : Table.get? g.fl.pend slot = some p) (hws : ∀ w ∈ ws, w.2.1 < 32) (hi : i < 32)
    (hnone : ∀ w ∈ ws, w.1 < p.width → m = p.line + w.1 → i ≠ w.2.1) : (g.landAll slot ws).landingWord m i = g.landingWord m i := by
  induction ws generalizing g with
  | nil => rfl
  | cons w r ih =>
    have hp' : Table.get? (g.setLanding slot w.1 w.2.1 w.2.2).fl.pend slot = some p := by
      rw [← hp, ← Group.landAll_pend slot [w] g]
      rfl
    have hw := hnone w List.mem_cons_self
    exact (ih hp' (fun v hv => hws v (List.mem_cons_of_mem _ hv)) fun v hv => hnone v (List.mem_cons_of_mem _ hv)).trans
      ((Group.setLanding_landingWord hp (hws w List.mem_cons_self) hi).trans (if_neg fun ⟨hj, hm, hl⟩ => hw hj hm hl))

/-- A word of a landing line to which one value goes, perhaps more than once, has that value. -/
theorem Group.landAll_word_of_mem (hp : Table.get? g.fl.pend slot = some p) (hws : ∀ w ∈ ws, w.2.1 < 32) (hj : j < p.width)
    (hmem : (j, l, x) ∈ ws) (hsame : ∀ w ∈ ws, w.1 = j → w.2.1 = l → w.2.2 = x) :
    (g.landAll slot ws).landingWord (p.line + j) l = x := by
  induction ws generalizing g with
  | nil => cases hmem
  | cons w r ih =>
    have hp' : Table.get? (g.setLanding slot w.1 w.2.1 w.2.2).fl.pend slot = some p := by
      rw [← hp, ← Group.landAll_pend slot [w] g]
      rfl
    have hr : ∀ v ∈ r, v.2.1 < 32 := fun v hv => hws v (List.mem_cons_of_mem _ hv)
    have hl : l < 32 := hws _ hmem
    by_cases hlater : (j, l, x) ∈ r
    · exact ih hp' hr hlater fun v hv => hsame v (List.mem_cons_of_mem _ hv)
    · obtain rfl : (j, l, x) = w := (List.mem_cons.mp hmem).resolve_right hlater
      refine (Group.landAll_word_of_none hp' hr hl fun v hv _ hm hlane => hlater ?_).trans
        ((Group.setLanding_landingWord hp hl hl).trans (if_pos ⟨hj, rfl, rfl⟩))
      have hv1 : v.1 = j := (Nat.add_left_cancel hm).symm
      have hv2 : v.2.2 = x := hsame v (List.mem_cons_of_mem _ hv) hv1 hlane.symm
      obtain ⟨v1, v2, v3⟩ := v
      simp_all

end

/-! ## The words that the accesses of an operation give -/

section

variable {g : Group} {o : MemOp} {a b : LaneAcc} {v w : Nat × BitVec 32} {slot : Nat} {p : Pend} {kind : MemKind}

/-- The words of an operation's accesses, each with its number and its lane. -/
def MemOp.landings (o : MemOp) : List (Nat × Nat × BitVec 32) := o.accs.flatMap fun a => (landWords o.kind a).map fun w => (w.1, a.lane, w.2)

theorem MemOp.mem_landings {y : Nat × Nat × BitVec 32} :
    y ∈ o.landings ↔ ∃ a ∈ o.accs, a.lane = y.2.1 ∧ (y.1, y.2.2) ∈ landWords o.kind a := by
  simp only [MemOp.landings, List.mem_flatMap, List.mem_map]
  constructor
  · rintro ⟨a, ha, w, hw, rfl⟩
    exact ⟨a, ha, rfl, hw⟩
  · rintro ⟨a, ha, hl, hw⟩
    exact ⟨a, ha, _, hw, by rw [hl]⟩

theorem landWords_nodup (kind : MemKind) (a : LaneAcc) : ((landWords kind a).map Prod.fst).Nodup := by
  cases kind with
  | load n signed => unfold landWords; dsimp only; split_ifs <;> simp
  | atom op n => unfold landWords; dsimp only; split_ifs <;> simp
  | cas n => unfold landWords; dsimp only; split_ifs <;> simp
  | ldk => unfold landWords; dsimp only; split_ifs <;> simp
  | store n => exact List.nodup_nil
  | fadd f64 => exact List.nodup_nil
  | fence f => exact List.nodup_nil

theorem landWords_word {signed : Bool} {op : AtomOp} (hk : kind = .load 4 signed ∨ kind = .atom op 4 ∨ kind = .cas 4) (a : LaneAcc) :
    landWords kind a = [(0, a.val.setWidth 32)] := by
  rcases hk with rfl | rfl | rfl <;> rfl

theorem landWords_dword {op : AtomOp} (hk : kind = .atom op 8 ∨ kind = .cas 8 ∨ ∃ signed, kind = .load 8 signed ∧ a.off = 0) :
    landWords kind a = [(0, a.val.setWidth 32), (1, a.val.extractLsb' 32 32)] := by
  rcases hk with rfl | rfl | ⟨signed, rfl, hoff⟩
  · rfl
  · rfl
  · unfold landWords
    simp [hoff]

theorem landWords_qword (signed : Bool) (a : LaneAcc) :
    landWords (.load 16 signed) a = [(a.off / 4, a.val.setWidth 32), (a.off / 4 + 1, a.val.extractLsb' 32 32)] := rfl

theorem landWords_ldk (a : LaneAcc) : landWords .ldk a = if a.isPair then [(0, a.data.setWidth 32)] else [] := rfl

theorem MemOp.has_failedLanes (hok : ∀ a ∈ o.accs, a.st.isFailed = false) {l : Nat} (hl : l < 32) : has o.failedLanes l = false := by
  rw [MemOp.failedLanes, has_maskOf _ _ hl, List.any_eq_false]
  intro a ha
  have h := hok a ha
  cases e : a.st with
  | failed c => rw [e] at h; cases h
  | _ => simp

theorem MemOp.failure_of_ok (hok : ∀ a ∈ o.accs, a.st.isFailed = false) (uniform : Bool) : o.failure uniform = none := by
  unfold MemOp.failure
  rw [List.filterMap_eq_nil_iff.mpr fun a ha => ?_]
  · rfl
  · have h := hok a ha
    cases e : a.st with
    | failed c => rw [e] at h; cases h
    | _ => rfl

/-- Without a failed lane, every word of every access lands. -/
theorem Group.landOp_eq (hpend : o.pend = some slot) (haccs : ∀ a ∈ o.accs, a.done = true ∧ a.st.isFailed = false ∧ a.lane < 32) :
    g.landOp o = (g.landAll slot o.landings).markLanded slot := by
  have hok : ∀ a ∈ o.accs, a.st.isFailed = false := fun a ha => (haccs a ha).2.1
  rw [Group.landOp, hpend]
  dsimp only
  rw [Group.landAll, MemOp.landings, List.foldl_flatMap]
  refine congrArg (fun h : Group => h.markLanded slot) (List.foldl_ext _ _ _ fun g a ha => ?_)
  obtain ⟨hdone, -, hlane⟩ := haccs a ha
  have hne : a.lane ≠ uniformLane := Nat.ne_of_lt hlane
  simp only [hdone, MemOp.has_failedLanes hok hlane, hne, Bool.not_true, Bool.or_self, Bool.false_eq_true, if_false, List.foldl_map]

/-- The word of an access lands, when no other access of the operation gives that word in that lane. -/
theorem Group.landAll_landings_word (hp : Table.get? g.fl.pend slot = some p) (hlanes : ∀ a ∈ o.accs, a.lane < 32) (ha : a ∈ o.accs)
    (hw : w ∈ landWords o.kind a) (hj : w.1 < p.width)
    (hone : ∀ b ∈ o.accs, b.lane = a.lane → (∃ v ∈ landWords o.kind b, v.1 = w.1) → b = a) :
    (g.landAll slot o.landings).landingWord (p.line + w.1) a.lane = w.2 := by
  refine Group.landAll_word_of_mem hp (fun y hy => ?_) hj (MemOp.mem_landings.mpr ⟨a, ha, rfl, hw⟩) fun y hy hnum hlane => ?_
  · obtain ⟨b, hb, hl, -⟩ := MemOp.mem_landings.mp hy
    exact hl ▸ hlanes b hb
  · obtain ⟨b, hb, hl, hv⟩ := MemOp.mem_landings.mp hy
    obtain rfl := hone b hb (hl.trans hlane) ⟨_, hv, hnum⟩
    have heq : (y.1, y.2.2) = w := List.inj_on_of_nodup_map (landWords_nodup o.kind b) hv hw hnum
    rw [← heq]

/-- A word of a landing line keeps its value in the lanes of no access, and outside the lines of the destination. -/
theorem Group.landAll_landings_stays {m l : Nat} (hp : Table.get? g.fl.pend slot = some p) (hlanes : ∀ a ∈ o.accs, a.lane < 32) (hl : l < 32)
    (h : (∀ a ∈ o.accs, a.lane ≠ l) ∨ m < p.line ∨ p.line + p.width ≤ m) :
    (g.landAll slot o.landings).landingWord m l = g.landingWord m l := by
  refine Group.landAll_word_of_none hp (fun y hy => ?_) hl fun y hy hj hm hlane => ?_
  · obtain ⟨b, hb, hl, -⟩ := MemOp.mem_landings.mp hy
    exact hl ▸ hlanes b hb
  · obtain ⟨b, hb, hbl, -⟩ := MemOp.mem_landings.mp hy
    rcases h with h | h
    · exact h b hb (hbl.trans hlane.symm)
    · omega

end

/-! ## VALUE_LANDS -/

section

variable {s : State} {k seq slot : Nat} {g : Group} {o : MemOp} {a : LaneAcc} {p : Pend}

theorem Group.over_of_mayLand (h : g.mayLand o = true) (ha : a ∈ o.accs) : a.over = true := by
  simp only [Group.mayLand, Bool.and_eq_true] at h
  obtain ⟨⟨⟨⟨-, hover⟩, -⟩, -⟩, -⟩ := h
  exact List.all_eq_true.mp hover a ha

theorem OnlyPins.freeLog (s : State) (g : Group) (o : MemOp) : OnlyPins s (s.freeLog g o) := by
  have hfold : ∀ (ns : List Nat) (u : State), OnlyPins u (ns.foldl (fun s a => s.unpin g.view.holder a) u) := by
    intro ns
    induction ns with
    | nil => exact fun u => .refl u
    | cons n r ih => exact fun u => (OnlyPins.unpin u _ n).trans (ih _)
  unfold State.freeLog
  split
  · exact .refl s
  · exact (OnlyPins.unpin s _ _).trans (hfold _ _)

/-- The group without an operation that has finished. -/
def Group.finished (g : Group) (o : MemOp) : Group := (g.setOps (g.fl.ops.filter fun x => x.seq != o.seq)).tidy

theorem Group.finished_opAt (g : Group) (o : MemOp) : (g.finished o).opAt o.seq = none := by
  refine List.find?_eq_none.mpr fun x hx => ?_
  have hne := (List.mem_filter.mp (List.mem_filter.mp hx).1).2
  simpa using hne

/-- An operation of which no lane failed and no run diverged finishes without a trap. -/
theorem State.finishOp_of_ok (hg : Table.get? s.groups k = some g) (hok : ∀ a ∈ o.accs, a.st.isFailed = false ∧ a.diverged = false) :
    s.finishOp k o = (s.setGroup k (g.finished o)).freeLog g o := by
  have hdiv : o.accs.filter LaneAcc.diverged = [] := List.filter_eq_nil_iff.mpr fun a ha => by simp [(hok a ha).2]
  simp only [State.finishOp, hg, MemOp.failure_of_ok fun a ha => (hok a ha).1, hdiv, List.foldl_nil]
  rfl

theorem exec_valueLands_of_mayLand (hg : Table.get? s.groups k = some g) (ho : g.opAt seq = some o) (hmay : g.mayLand o = true) :
    exec (.valueLands k seq) s = .next ((s.setGroup k (g.landOp o)).finishOp k o) := by
  rw [exec_valueLands, execValueLands]
  simp only [hg, ho, hmay, if_true]

/-- The group once the value of an operation has landed. -/
def Group.landedBy (g : Group) (slot : Nat) (o : MemOp) : Group := ((g.landAll slot o.landings).markLanded slot).finished o

theorem Group.landedBy_pend (g : Group) (slot : Nat) (o : MemOp) (n : Nat) : Table.get? (g.landedBy slot o).fl.pend n
    = if n = slot then (Table.get? g.fl.pend slot).map fun p => { p with landed := true } else Table.get? g.fl.pend n := by
  rw [← Group.landAll_pend slot o.landings g]
  exact Table.get?_modify _ _ _ _

theorem Group.landedBy_frame (g : Group) (slot : Nat) (o : MemOp) :
    (g.landedBy slot o).regs = g.regs ∧ (g.landedBy slot o).ctl = g.ctl ∧ (g.landedBy slot o).tr = g.tr := by
  obtain ⟨t, ht⟩ := Group.landAll_eq slot o.landings g
  rw [Group.landedBy, ht]
  exact ⟨rfl, rfl, rfl⟩

section

variable (hp : Table.get? g.fl.pend slot = some p) (hlanes : ∀ a ∈ o.accs, a.lane < 32)

include hp hlanes

/-- With one access to a lane, each word of each access lands. -/
theorem Group.landedBy_of_lanes (hnodup : (o.accs.map LaneAcc.lane).Nodup) (ha : a ∈ o.accs) {w : Nat × BitVec 32}
    (hw : w ∈ landWords o.kind a) (hj : w.1 < p.width) : (g.landedBy slot o).landingWord (p.line + w.1) a.lane = w.2 :=
  Group.landAll_landings_word hp hlanes ha hw hj fun _ hb hl _ => List.inj_on_of_nodup_map hnodup hb ha hl

theorem Group.landedBy_word (hnodup : (o.accs.map LaneAcc.lane).Nodup) (ha : a ∈ o.accs) {x : BitVec 32}
    (hw : landWords o.kind a = [(0, x)]) (hwidth : 1 ≤ p.width) : (g.landedBy slot o).landingWord p.line a.lane = x :=
  Group.landedBy_of_lanes hp hlanes hnodup ha (w := (0, x)) (hw ▸ List.mem_singleton.mpr rfl) hwidth

theorem Group.landedBy_dword (hnodup : (o.accs.map LaneAcc.lane).Nodup) (ha : a ∈ o.accs) {lo hi : BitVec 32}
    (hw : landWords o.kind a = [(0, lo), (1, hi)]) (hwidth : 2 ≤ p.width) :
    (g.landedBy slot o).landingWord p.line a.lane = lo ∧ (g.landedBy slot o).landingWord (p.line + 1) a.lane = hi :=
  ⟨Group.landedBy_of_lanes hp hlanes hnodup ha (w := (0, lo)) (hw ▸ List.mem_pair.mpr (.inl rfl)) (Nat.lt_of_lt_of_le Nat.two_pos hwidth),
    Group.landedBy_of_lanes hp hlanes hnodup ha (w := (1, hi)) (hw ▸ List.mem_pair.mpr (.inr rfl)) hwidth⟩

/-- The two halves of 16 bytes give words of their own. -/
theorem Group.landedBy_qword {signed : Bool} (hk : o.kind = .load 16 signed) (hnodup : (o.accs.map fun a => (a.lane, a.off)).Nodup)
    (hoffs : ∀ a ∈ o.accs, a.off = 0 ∨ a.off = 8) (ha : a ∈ o.accs) (hwidth : 4 ≤ p.width) :
    (g.landedBy slot o).landingWord (p.line + a.off / 4) a.lane = a.val.setWidth 32
      ∧ (g.landedBy slot o).landingWord (p.line + a.off / 4 + 1) a.lane = a.val.extractLsb' 32 32 := by
  have ha8 := hoffs a ha
  have hlands : ∀ w ∈ landWords o.kind a, w.1 < p.width → (g.landedBy slot o).landingWord (p.line + w.1) a.lane = w.2 := by
    refine fun w hw hj => Group.landAll_landings_word hp hlanes ha hw hj fun b hb hl ⟨v, hv, hvw⟩ => ?_
    have hb8 := hoffs b hb
    rw [hk, landWords_qword] at hv hw
    have hoff : b.off = a.off := by
      rcases List.mem_pair.mp hv with rfl | rfl <;> rcases List.mem_pair.mp hw with rfl | rfl <;> dsimp only at hvw <;> omega
    exact List.inj_on_of_nodup_map hnodup hb ha (Prod.ext hl hoff)
  rw [hk, landWords_qword] at hlands
  exact ⟨hlands (_, _) (List.mem_pair.mpr (.inl rfl)) (by dsimp only; omega),
    hlands (_, _) (List.mem_pair.mpr (.inr rfl)) (by dsimp only; omega)⟩

/-- Of the accesses of an LDK, those that read pairs give words. -/
theorem Group.landedBy_pair (hk : o.kind = .ldk) (hnodup : ((o.accs.filter LaneAcc.isPair).map LaneAcc.lane).Nodup) (ha : a ∈ o.accs)
    (hpair : a.isPair = true) (hwidth : 1 ≤ p.width) : (g.landedBy slot o).landingWord p.line a.lane = a.data.setWidth 32 := by
  have hw : (0, a.data.setWidth 32) ∈ landWords o.kind a := by
    rw [hk, landWords_ldk, if_pos hpair]
    exact List.mem_singleton.mpr rfl
  refine Group.landAll_landings_word hp hlanes ha hw hwidth fun b hb hl ⟨v, hv, _⟩ => ?_
  have hbpair : b.isPair = true := by
    by_contra hno
    rw [hk, landWords_ldk, if_neg hno] at hv
    cases hv
  exact List.inj_on_of_nodup_map hnodup (List.mem_filter.mpr ⟨hb, hbpair⟩) (List.mem_filter.mpr ⟨ha, hpair⟩) hl

end

/-- A value of which no lane failed lands, and its operation is gone. -/
theorem exec_valueLands_of_ok (hg : Table.get? s.groups k = some g) (ho : g.opAt o.seq = some o) (hmay : g.mayLand o = true)
    (hpend : o.pend = some slot) (haccs : ∀ a ∈ o.accs, a.st.isFailed = false ∧ a.diverged = false ∧ a.lane < 32) :
    ∃ t, OnlyPins (s.setGroup k (g.landedBy slot o)) t ∧ exec (.valueLands k o.seq) s = .next t := by
  have hland : g.landOp o = (g.landAll slot o.landings).markLanded slot := by
    refine Group.landOp_eq hpend fun a ha => ?_
    obtain ⟨hok, -, hlane⟩ := haccs a ha
    have hover := Group.over_of_mayLand hmay ha
    rw [LaneAcc.over, hok, Bool.or_false] at hover
    exact ⟨hover, hok, hlane⟩
  have hfin := State.finishOp_of_ok (s := s.setGroup k (g.landOp o)) (Table.get?_set_self _ _ _)
    fun a ha => ⟨(haccs a ha).1, (haccs a ha).2.1⟩
  rw [State.setGroup_setGroup] at hfin
  refine ⟨_, ?_, (exec_valueLands_of_mayLand hg ho hmay).trans (congrArg _ hfin)⟩
  rw [hland]
  exact OnlyPins.freeLog _ _ _

end

theorem valueLanded : Claims.ValueLanded := by
  intro s k seq slot g o p hg ho hmay hpend hp _ haccs hwidth hfits
  obtain rfl := Group.seq_of_opAt ho
  obtain ⟨t, hpins, hexec⟩ := exec_valueLands_of_ok hg ho hmay hpend haccs
  obtain ⟨hregs, hctl, htr⟩ := Group.landedBy_frame g slot o
  have hlanes : ∀ a ∈ o.accs, a.lane < 32 := fun a ha => (haccs a ha).2.2
  refine ⟨t, g.landedBy slot o, hexec, ?_, fun j hj => ?_, fun x => ?_, hregs, hctl, htr, Group.finished_opAt _ _, ?_, fun n hn => ?_,
    fun hnodup a ha => ?_, fun sg hk hnodup hoffs a ha => ?_, fun hk hnodup a ha hpair => ?_, fun m l hl hno => ?_, fun m l hl hout => ?_⟩
  · rw [hpins.groups, State.setGroup_groups, Table.get?_set_self]
  · rw [hpins.groups, State.setGroup_groups, Table.get?_set_ne _ _ hj]
  · rw [hpins.mem, State.setGroup_mem]
  · rw [Group.landedBy_pend, if_pos rfl, hp, Option.map_some]
  · rw [Group.landedBy_pend, if_neg hn]
  · refine ⟨fun sg hk => ?_, fun sg hk => ?_, fun sg op hk => ?_, fun op hk => ?_⟩
    · exact Group.landedBy_word hp hlanes hnodup ha (by rw [hk]; rfl) hwidth
    · exact Group.landedBy_word hp hlanes hnodup ha (by rw [hk]; rfl) hwidth
    · exact Group.landedBy_word hp hlanes hnodup ha (landWords_word hk a) hwidth
    · refine Group.landedBy_dword hp hlanes hnodup ha (landWords_dword hk) (hfits 8 ?_)
      rcases hk with hk | hk | ⟨sg, hk, -⟩
      · exact .inr (.inr ⟨op, hk⟩)
      · exact .inl hk
      · exact .inr (.inl ⟨sg, hk⟩)
  · exact Group.landedBy_qword hp hlanes hk hnodup hoffs ha (hfits 16 (.inr (.inl ⟨sg, hk⟩)))
  · exact Group.landedBy_pair hp hlanes hk hnodup ha hpair hwidth
  · exact Group.landAll_landings_stays hp hlanes hl (.inl hno)
  · exact Group.landAll_landings_stays hp hlanes hl (.inr hout)

end Sys2Proof.Machine

end

section

/-! Replay of an entry of the operand log (O48; 02: R57; 03: R76; 11: R220). What a replay does to the state besides the group is to
queue walks and to note violations; no lookup of a slot, of a TLB or of a replica depends on either. -/

set_option Elab.async false

namespace Sys2Proof.Machine

/-! ## States with more walks queued -/

/-- A state reached by queueing walks, counting them, and noting violations. -/
structure WalksQueued (s t : State) : Prop where
  mem : t.mem = s.mem
  groups : t.groups = s.groups
  regions : t.regions = s.regions
  launches : t.launches = s.launches
  clusters : t.clusters = s.clusters
  tlb : ∀ c, (t.core c).tlb = (s.core c).tlb
  walks : ∀ c, ∀ w ∈ (s.core c).walks, w ∈ (t.core c).walks

section

variable {s t u : State} {g : Group} {o : MemOp} {a b : LaneAcc} {part core region slot kind page : Nat} {gen : BitVec 16} {va : BitVec 64}

theorem WalksQueued.refl (s : State) : WalksQueued s s := ⟨rfl, rfl, rfl, rfl, rfl, fun _ => rfl, fun _ _ h => h⟩

theorem WalksQueued.trans (h : WalksQueued s t) (h' : WalksQueued t u) : WalksQueued s u where
  mem := h'.mem.trans h.mem
  groups := h'.groups.trans h.groups
  regions := h'.regions.trans h.regions
  launches := h'.launches.trans h.launches
  clusters := h'.clusters.trans h.clusters
  tlb c := (h'.tlb c).trans (h.tlb c)
  walks c w hw := h'.walks c w (h.walks c w hw)

/-- The core with one walk more to do. -/
def Core.queue (w : Walk) (c : Core) : Core := { c with walks := c.walks ++ [w] }

/-- A walk is queued in its core and counted, unless it joins one for its page. -/
theorem State.queueWalk_cases (s : State) (core : Nat) (w : Walk) :
    s.queueWalk core w = s ∧ s.walkPending core w.region w.gen w.page = true
      ∨ s.queueWalk core w = (s.modCore core (Core.queue w)).tally w.part 0x05 1 := by
  unfold State.queueWalk
  split
  · next h => exact .inl ⟨rfl, h⟩
  · exact .inr rfl

theorem State.core_tally (s : State) (part ev n c : Nat) : (s.tally part ev n).core c = s.core c := rfl

theorem WalksQueued.queueWalk (s : State) (core : Nat) (w : Walk) : WalksQueued s (s.queueWalk core w) := by
  rcases s.queueWalk_cases core w with ⟨e, -⟩ | e
  · rw [e]
    exact .refl s
  · rw [e]
    refine ⟨rfl, rfl, rfl, rfl, rfl, fun c => ?_, fun c x hx => ?_⟩
    · rw [State.core_tally, State.core_modCore]
      split
      · next e => rw [e]; rfl
      · rfl
    · rw [State.core_tally, State.core_modCore]
      split
      · next e => exact List.mem_append_left _ (e ▸ hx)
      · exact hx

theorem WalksQueued.violation (s : State) (address : BitVec 64) (source : BitVec 32) (kind reason : Nat) :
    WalksQueued s (s.violation address source kind reason) := by
  unfold State.violation
  dsimp only
  split
  · exact ⟨rfl, rfl, rfl, rfl, rfl, fun _ => rfl, fun _ _ h => h⟩
  · exact ⟨rfl, rfl, rfl, rfl, rfl, fun _ => rfl, fun _ _ h => h⟩

theorem WalksQueued.windowViolation (s : State) (core : Nat) (code : BitVec 8) (va : BitVec 64) :
    WalksQueued s (s.windowViolation core code va) := by
  unfold State.windowViolation
  split
  · exact .violation s _ _ _ _
  · exact .refl s

theorem WalksQueued.kvViolations (s : State) (g : Group) (accs : List LaneAcc) : WalksQueued s (s.kvViolations g accs) := by
  induction accs generalizing s with
  | nil => exact .refl s
  | cons a r ih =>
    refine .trans ?_ (ih _)
    dsimp only
    split
    · exact .windowViolation s _ _ _
    · exact .refl s

theorem WalksQueued.slotWord (h : WalksQueued s t) (holder slot : Nat) : t.slotWord holder slot = s.slotWord holder slot := by
  rw [State.slotWord, State.slotWord, h.regions]

theorem WalksQueued.tlb_eq (h : WalksQueued s t) (core region : Nat) (gen : BitVec 16) (page : Nat) :
    t.tlb core region gen page = s.tlb core region gen page := by
  rw [State.tlb, State.tlb, State.cluster, State.cluster, h.tlb, h.clusters]

theorem WalksQueued.tidReplica (h : WalksQueued s t) (launch cluster n : Nat) : t.tidReplica launch cluster n = s.tidReplica launch cluster n := by
  rw [State.tidReplica, State.tidReplica, State.tidEntry, State.tidEntry, h.launches]

theorem WalksQueued.walkPending (h : WalksQueued s t) (hp : s.walkPending core region gen page = true) :
    t.walkPending core region gen page = true := by
  obtain ⟨w, hw, hserves⟩ := List.any_eq_true.mp hp
  exact List.any_eq_true.mpr ⟨w, h.walks core w hw, hserves⟩

/-- A walk that is queued, or that joins one for its page, is to be done. -/
theorem State.walkPending_queueWalk (s : State) (core : Nat) (w : Walk) :
    (s.queueWalk core w).walkPending core w.region w.gen w.page = true := by
  rcases s.queueWalk_cases core w with ⟨e, h⟩ | e
  · rw [e]
    exact h
  · rw [e, State.walkPending, State.core_tally, State.core_modCore, if_pos rfl]
    exact List.any_eq_true.mpr ⟨w, List.mem_append_right _ (List.mem_singleton.mpr rfl), by simp [Walk.serves]⟩

/-! ## Accesses changed one after another -/

section

variable {β : Type} {f : State → LaneAcc → State × LaneAcc} {h : State → MemOp → LaneAcc → State × LaneAcc}

theorem threadAccs_queues (hf : ∀ u a, WalksQueued u (f u a).1) (as : List LaneAcc) (s : State) : WalksQueued s (threadAccs f s as).1 := by
  induction as generalizing s with
  | nil => exact .refl s
  | cons a r ih => exact (hf s a).trans (ih _)

/-- What a change keeps of each access, the changes of a list keep. -/
theorem threadAccs_map {p : LaneAcc → β} (hf : ∀ u a, p (f u a).2 = p a) (as : List LaneAcc) (s : State) :
    (threadAccs f s as).2.map p = as.map p := by
  induction as generalizing s with
  | nil => rfl
  | cons a r ih => exact congrArg₂ List.cons (hf s a) (ih _)

/-- Each access is changed in a state that the changes before it have reached. -/
theorem threadAccs_getElem? (hf : ∀ u a, WalksQueued u (f u a).1) {as : List LaneAcc} {i : Nat} {a : LaneAcc} (ha : as[i]? = some a) (s : State) :
    ∃ u, WalksQueued s u ∧ WalksQueued (f u a).1 (threadAccs f s as).1 ∧ (threadAccs f s as).2[i]? = some (f u a).2 := by
  induction as generalizing s i with
  | nil => cases ha
  | cons b r ih =>
    cases i with
    | zero =>
      obtain rfl : b = a := Option.some.inj ha
      exact ⟨s, .refl s, threadAccs_queues hf r _, rfl⟩
    | succ i =>
      obtain ⟨u, hsu, hut, hi⟩ := ih ha (f s b).1
      exact ⟨u, (hf s b).trans hsu, hut, hi⟩

theorem threadOps_queues (hh : ∀ u o a, WalksQueued u (h u o a).1) (os : List MemOp) (s : State) : WalksQueued s (threadOps h s os).1 := by
  induction os generalizing s with
  | nil => exact .refl s
  | cons o r ih => exact (threadAccs_queues (fun u a => hh u o a) o.accs s).trans (ih _)

/-- The operation at a position, its accesses changed in a state that the changes before them have reached. -/
theorem threadOps_find? (hh : ∀ u o a, WalksQueued u (h u o a).1) {os : List MemOp} {o : MemOp} {n : Nat}
    (ho : os.find? (fun o => o.seq == n) = some o) (s : State) :
    ∃ u, WalksQueued s u ∧ WalksQueued (threadAccs (fun s a => h s o a) u o.accs).1 (threadOps h s os).1
      ∧ (threadOps h s os).2.find? (fun o => o.seq == n) = some { o with accs := (threadAccs (fun s a => h s o a) u o.accs).2 } := by
  induction os generalizing s with
  | nil => cases ho
  | cons x r ih =>
    by_cases hx : (x.seq == n) = true
    · rw [List.find?_cons_of_pos (p := fun y : MemOp => y.seq == n) hx] at ho
      obtain rfl : x = o := Option.some.inj ho
      exact ⟨s, .refl s, threadOps_queues hh r _, List.find?_cons_of_pos (p := fun y : MemOp => y.seq == n) hx⟩
    · rw [List.find?_cons_of_neg (p := fun y : MemOp => y.seq == n) hx] at ho
      obtain ⟨u, hsu, hut, hfind⟩ := ih ho (threadAccs (fun s a => h s x a) s x.accs).1
      exact ⟨u, (threadAccs_queues (fun u a => hh u x a) x.accs s).trans hsu, hut, (List.find?_cons_of_neg (p := fun y : MemOp => y.seq == n)
        (a := { x with accs := (threadAccs (fun s a => h s x a) s x.accs).2 }) hx).trans hfind⟩

end

/-! ## The replay of one access -/

/-- An access but for its translation. -/
def LaneAcc.untranslated (a : LaneAcc) : LaneAcc := { a with st := .miss }

theorem State.replayAcc_unanswered (h : ∀ n, a.st ≠ .answered n) : s.replayAcc part core region o a = (s, a) := by
  unfold State.replayAcc
  split
  · next n e => exact absurd e (h n)
  all_goals rfl

section

variable {n : Nat} {e x : BitVec 64}

theorem State.replayAcc_invalid (h : a.st = .answered n) (hv : slotValid (s.slotWord region n) = false) :
    s.replayAcc part core region o a = (s, { a with st := .failed codeAccess }) := by
  simp [State.replayAcc, h, hv]

theorem State.replayAcc_miss (h : a.st = .answered n) (hv : slotValid (s.slotWord region n) = true)
    (ht : s.tlb core region (slotGen (s.slotWord region n)) (pageOf a.va) = none) : s.replayAcc part core region o a
      = (s.queueWalk core (s.walkOf part region n (slotGen (s.slotWord region n)) o.kind.access false a.va), a) := by
  simp [State.replayAcc, h, hv, ht]

theorem State.replayAcc_leaf (h : a.st = .answered n) (hv : slotValid (s.slotWord region n) = true)
    (ht : s.tlb core region (slotGen (s.slotWord region n)) (pageOf a.va) = some e) (hx : leafReach o.kind.access e = .leaf x) :
    s.replayAcc part core region o a = (s, { a with st := .leaf x }) := by
  simp [State.replayAcc, h, hv, ht, hx]

theorem State.replayAcc_refused (h : a.st = .answered n) (hv : slotValid (s.slotWord region n) = true)
    (ht : s.tlb core region (slotGen (s.slotWord region n)) (pageOf a.va) = some e) (hx : ∀ x, leafReach o.kind.access e ≠ .leaf x) :
    s.replayAcc part core region o a = (s, { a with st := .failed codeAccess }) := by
  cases hr : leafReach o.kind.access e with
  | leaf x => exact absurd hr (hx x)
  | request => simp [State.replayAcc, h, hv, ht, hr]
  | denied c => simp [State.replayAcc, h, hv, ht, hr]

end

/-- A replay of an access changes its translation only, and queues at most a walk. -/
theorem State.replayAcc_changes (s : State) (part core region : Nat) (o : MemOp) (a : LaneAcc) :
    WalksQueued s (s.replayAcc part core region o a).1 ∧ (s.replayAcc part core region o a).2.untranslated = a.untranslated := by
  by_cases hans : ∃ n, a.st = .answered n
  · obtain ⟨n, hn⟩ := hans
    cases hv : slotValid (s.slotWord region n) with
    | false =>
      rw [State.replayAcc_invalid hn hv]
      exact ⟨.refl s, rfl⟩
    | true =>
      cases ht : s.tlb core region (slotGen (s.slotWord region n)) (pageOf a.va) with
      | none =>
        rw [State.replayAcc_miss hn hv ht]
        exact ⟨.queueWalk s _ _, rfl⟩
      | some e =>
        by_cases hx : ∃ x, leafReach o.kind.access e = .leaf x
        · obtain ⟨x, hx⟩ := hx
          rw [State.replayAcc_leaf hn hv ht hx]
          exact ⟨.refl s, rfl⟩
        · rw [State.replayAcc_refused hn hv ht fun x hx' => hx ⟨x, hx'⟩]
          exact ⟨.refl s, rfl⟩
  · rw [State.replayAcc_unanswered fun n hn => hans ⟨n, hn⟩]
    exact ⟨.refl s, rfl⟩

/-! ## The replay of an operation -/

/-- The accesses of an operation after a replay, each replayed in a state that the replays before it have reached. -/
structure Replayed (s t : State) (g : Group) (o : MemOp) (as : List LaneAcc) : Prop where
  kept : as.map LaneAcc.untranslated = o.accs.map LaneAcc.untranslated
  each : ∀ {i : Nat} {a : LaneAcc}, o.accs[i]? = some a → ∃ u, WalksQueued s u
    ∧ WalksQueued (u.replayAcc g.view.partition g.ctl.core g.view.holder o a).1 t
    ∧ as[i]? = some (u.replayAcc g.view.partition g.ctl.core g.view.holder o a).2

theorem State.modGroup_of_some {k : Nat} {f : Group → Group} (hg : Table.get? s.groups k = some g) : s.modGroup k f = s.setGroup k (f g) := by
  simp only [State.modGroup, Table.modify, hg]
  rfl

/-- What LOG_ENTRY_REPLAY does to an access of a group: those of other operations stay. -/
def replayOf (g : Group) (seq : Nat) (s : State) (o : MemOp) (a : LaneAcc) : State × LaneAcc :=
  if o.seq = seq then s.replayAcc g.view.partition g.ctl.core g.view.holder o a else (s, a)

theorem replayOf_queues (g : Group) (seq : Nat) (s : State) (o : MemOp) (a : LaneAcc) : WalksQueued s (replayOf g seq s o a).1 := by
  unfold replayOf
  split
  · exact (s.replayAcc_changes _ _ _ o a).1
  · exact .refl s

theorem exec_logEntryReplay_of_some {k : Nat} (hg : Table.get? s.groups k = some g) (hact : g.ctl.act ≠ .parked)
    (ho : g.opAt o.seq = some o) : ∃ t os as, WalksQueued s t ∧ Replayed s t g o as
      ∧ (g.setOps os).opAt o.seq = some { o with accs := as }
      ∧ exec (.logEntryReplay k o.seq) s = .next ((t.setGroup k (g.setOps os)).kvReplayed k (g.setOps os) o) := by
  obtain ⟨u, hsu, hut, hfind⟩ := threadOps_find? (replayOf_queues g o.seq) ho s
  have hst := threadOps_queues (replayOf_queues g o.seq) g.fl.ops s
  have hown : (fun s a => replayOf g o.seq s o a) = fun s a => s.replayAcc g.view.partition g.ctl.core g.view.holder o a :=
    funext fun s => funext fun a => if_pos rfl
  rw [hown] at hut hfind
  refine ⟨_, _, _, hst, ⟨threadAccs_map (fun u a => (u.replayAcc_changes _ _ _ o a).2) _ u, fun ha => ?_⟩, hfind, ?_⟩
  · obtain ⟨v, huv, hvt, hi⟩ := threadAccs_getElem? (fun u a => (u.replayAcc_changes _ _ _ o a).1) ha u
    exact ⟨v, hsu.trans huv, hvt.trans hut, hi⟩
  · have hthread : s.threadGroup k (fun s x a => if x.seq = o.seq then s.replayAcc g.view.partition g.ctl.core g.view.holder x a else (s, a))
        = (threadOps (replayOf g o.seq) s g.fl.ops).1.setGroup k (g.setOps (threadOps (replayOf g o.seq) s g.fl.ops).2) := by
      rw [State.threadGroup, hg]
      exact State.modGroup_of_some (hst.groups ▸ hg)
    rw [exec_logEntryReplay, execLogEntryReplay, hg]
    dsimp only
    rw [if_neg (by simpa using hact), ho, hthread, State.setGroup_groups, Table.get?_set_self]

/-- Without lanes of an LDK, nothing begins anew. -/
theorem State.kvReplayed_of_nil {k : Nat} {old : MemOp} (ho : g.opAt old.seq = some o) (hkv : o.kv = []) : s.kvReplayed k g old = s := by
  rw [State.kvReplayed, ho]
  dsimp only
  rw [hkv]
  rfl

theorem pageOf_eq (va : BitVec 64) : pageOf va = va.toNat / 2 ^ 16 % 2 ^ 40 := by
  rw [pageOf, BitVec.extractLsb'_toNat, Nat.shiftRight_eq_div_pow]

theorem Replayed.unanswered {as : List LaneAcc} {i : Nat} (h : Replayed s t g o as) (ha : o.accs[i]? = some a)
    (hst : ∀ n, a.st ≠ .answered n) : as[i]? = some a := by
  obtain ⟨u, -, -, hi⟩ := h.each ha
  rwa [State.replayAcc_unanswered hst] at hi

section

variable {as : List LaneAcc} {i n : Nat} {e x : BitVec 64}

theorem Replayed.invalid (h : Replayed s t g o as) (ha : o.accs[i]? = some a) (hst : a.st = .answered n)
    (hv : slotValid (s.slotWord g.view.holder n) = false) : as[i]? = some { a with st := .failed codeAccess } := by
  obtain ⟨u, hu, -, hi⟩ := h.each ha
  rw [← hu.slotWord] at hv
  rwa [State.replayAcc_invalid hst hv] at hi

theorem Replayed.leaf (h : Replayed s t g o as) (ha : o.accs[i]? = some a) (hst : a.st = .answered n)
    (hv : slotValid (s.slotWord g.view.holder n) = true)
    (ht : s.tlb g.ctl.core g.view.holder (slotGen (s.slotWord g.view.holder n)) (pageOf a.va) = some e)
    (hx : leafReach o.kind.access e = .leaf x) : as[i]? = some { a with st := .leaf x } := by
  obtain ⟨u, hu, -, hi⟩ := h.each ha
  rw [← hu.tlb_eq, ← hu.slotWord] at ht
  rw [← hu.slotWord] at hv
  rwa [State.replayAcc_leaf hst hv ht hx] at hi

theorem Replayed.refused (h : Replayed s t g o as) (ha : o.accs[i]? = some a) (hst : a.st = .answered n)
    (hv : slotValid (s.slotWord g.view.holder n) = true)
    (ht : s.tlb g.ctl.core g.view.holder (slotGen (s.slotWord g.view.holder n)) (pageOf a.va) = some e)
    (hx : ∀ x, leafReach o.kind.access e ≠ .leaf x) : as[i]? = some { a with st := .failed codeAccess } := by
  obtain ⟨u, hu, -, hi⟩ := h.each ha
  rw [← hu.tlb_eq, ← hu.slotWord] at ht
  rw [← hu.slotWord] at hv
  rwa [State.replayAcc_refused hst hv ht hx] at hi

theorem Replayed.miss (h : Replayed s t g o as) (ha : o.accs[i]? = some a) (hst : a.st = .answered n)
    (hv : slotValid (s.slotWord g.view.holder n) = true)
    (ht : s.tlb g.ctl.core g.view.holder (slotGen (s.slotWord g.view.holder n)) (pageOf a.va) = none) : as[i]? = some a
      ∧ t.walkPending g.ctl.core g.view.holder (slotGen (s.slotWord g.view.holder n)) (pageOf a.va) = true := by
  obtain ⟨u, hu, hut, hi⟩ := h.each ha
  rw [← hu.tlb_eq, ← hu.slotWord] at ht
  rw [← hu.slotWord] at hv ⊢
  rw [State.replayAcc_miss hst hv ht] at hi hut
  exact ⟨hi, hut.walkPending (u.walkPending_queueWalk g.ctl.core _)⟩

theorem Replayed.length (h : Replayed s t g o as) : as.length = o.accs.length := by simpa using congrArg List.length h.kept

end

end

theorem logEntryReplayed : Claims.LogEntryReplayed := by
  intro s k g o hg hact ho hkv
  obtain ⟨t, os, as, hst, hrep, hop, hexec⟩ := exec_logEntryReplay_of_some hg hact ho
  rw [State.kvReplayed_of_nil hop hkv] at hexec
  refine ⟨_, _, _, hexec, Table.get?_set_self _ _ _, fun j hj => ?_, fun x => ?_, rfl, hop, hrep.length, fun i a ha => ⟨hrep.unanswered ha,
    fun n hn => ?_⟩⟩
  · rw [State.setGroup_groups, Table.get?_set_ne _ _ hj, hst.groups]
  · rw [State.setGroup_mem, hst.mem]
  · dsimp only
    rw [← slotGen_eq, ← pageOf_eq]
    exact ⟨hrep.invalid ha hn, fun e x hv ht hx => hrep.leaf ha hn hv ht hx, fun e hv ht hx => hrep.refused ha hn hv ht hx,
      hrep.miss ha hn⟩

/-! ## The lanes of an LDK begin anew -/

section

variable {s t : State} {g : Group} {o : MemOp} {a b : LaneAcc} {x : KvLane} {k : Nat} {as : List LaneAcc}

/-- The leaf of a page gives a read its translation. -/
theorem leafReach_kindRead (e : BitVec 64) : leafReach kindRead e = .leaf e := by
  unfold leafReach
  rfl

theorem State.tryTlb_kindRead_queues (s : State) (part core region slot : Nat) (gen : BitVec 16) (va : BitVec 64) :
    WalksQueued s (s.tryTlb part core region slot gen kindRead va).1 := by
  unfold State.tryTlb
  split
  · rw [State.withLeaf, leafReach_kindRead]
    exact .refl s
  · exact .queueWalk s _ _

theorem State.tryAcc_kindRead_queues (s : State) (part core region slot : Nat) (gen : BitVec 16) (a : LaneAcc) :
    WalksQueued s (s.tryAcc part core region slot gen kindRead a).1 := by
  unfold State.tryAcc
  split
  · exact s.tryTlb_kindRead_queues _ _ _ _ _ _
  · exact .refl s

theorem State.tryAcc_untranslated (s : State) (part core region slot : Nat) (gen : BitVec 16) (kind : Nat) (a : LaneAcc) :
    (s.tryAcc part core region slot gen kind a).2.untranslated = a.untranslated := by
  unfold State.tryAcc
  split
  · rfl
  · rfl

/-- The reads with which a lane begins step 1 stand at their offsets, and nothing has happened to them. -/
theorem State.kvReads_off (s : State) (g : Group) (h : BitVec 64) (x : KvLane) (n : Nat) :
    (s.kvReads g h x n).map LaneAcc.off = if ldkFit h x.tid then [kvMeta, kvData, kvFreq, kvAgain] else [kvPair] := by
  cases hfit : ldkFit h x.tid <;> simp [State.kvReads, hfit, State.kvRead, kvFailed, LaneAcc.fresh]

theorem State.kvReads_fresh {h : BitVec 64} {n : Nat} (ha : a ∈ s.kvReads g h x n) : a.lane = x.lane ∧ a.done = false ∧ a.ordinal = n := by
  cases hfit : ldkFit h x.tid <;> simp [State.kvReads, hfit, State.kvRead, kvFailed] at ha
  · subst ha
    exact ⟨rfl, rfl, rfl⟩
  · rcases ha with rfl | rfl | rfl | rfl <;> exact ⟨rfl, rfl, rfl⟩

/-- The lane as it begins step 1 at a replay: with the entry of its replica read again. -/
def State.kvFresh (s : State) (g : Group) (o : MemOp) (x : KvLane) : KvLane :=
  { x with tid := s.tidReplica g.id.launch (g.ctl.core / 4) (handleTid o.base), tries := 0 }

/-- The ordinal of a lane's accesses, with which its reads are made anew. -/
def MemOp.kvOrdinal (o : MemOp) (x : KvLane) : Nat := ((o.accs.filter fun a => a.lane == x.lane).head?.map LaneAcc.ordinal).getD 0

theorem State.kvAnew_spec (s : State) (g : Group) (o : MemOp) (x : KvLane) : WalksQueued s (s.kvAnew g o x).1
    ∧ (s.kvAnew g o x).2.1 = s.kvFresh g o x
    ∧ (s.kvAnew g o x).2.2.map LaneAcc.untranslated = (s.kvReads g o.base (s.kvFresh g o x) (o.kvOrdinal x)).map LaneAcc.untranslated := by
  refine ⟨?_, rfl, ?_⟩
  · unfold State.kvAnew
    exact (threadAccs_queues (fun u a => u.tryAcc_kindRead_queues _ _ _ _ _ a) _ s).trans (.kvViolations _ _ _)
  · unfold State.kvAnew
    dsimp only
    rw [threadAccs_map fun u a => u.tryAcc_untranslated _ _ _ _ _ _ a, List.map_map]
    refine List.map_congr_left fun a _ => ?_
    dsimp only [Function.comp]
    split
    · rfl
    · rfl

/-- An operation whose lane x has begun anew as y, with these reads. -/
def MemOp.anew (o : MemOp) (x y : KvLane) (news : List LaneAcc) : MemOp :=
  { o with
    accs := (o.accs.filter fun a => a.lane != x.lane) ++ news
    kv := o.kv.map fun w => if w.lane = x.lane then y else w }

/-- The operation at a position begins anew; others stay. -/
def anewAt (seq : Nat) (x y : KvLane) (news : List LaneAcc) (z : MemOp) : MemOp := if z.seq = seq then z.anew x y news else z

theorem anewAt_seq (seq : Nat) (x y : KvLane) (news : List LaneAcc) (z : MemOp) : (anewAt seq x y news z).seq = z.seq := by
  unfold anewAt
  split
  · rfl
  · rfl

/-- An operation with one lane, whose accesses are all of that lane, keeps none of them when it begins anew. -/
theorem anewAt_self (hkv : o.kv = [x]) (hlane : ∀ a ∈ o.accs, a.lane = x.lane) (y : KvLane) (news : List LaneAcc) :
    anewAt o.seq x y news o = { o with accs := news, kv := [y] } := by
  have hnone : o.accs.filter (fun a => a.lane != x.lane) = [] := List.filter_eq_nil_iff.mpr fun a ha => by simp [hlane a ha]
  simp [anewAt, MemOp.anew, hnone, hkv]

/-- The one lane of an LDK begins anew, once all its reads are translated of which some waited for their answers. -/
theorem State.kvReplayed_of_translated {old : MemOp} (hg : Table.get? s.groups k = some g) (ho : g.opAt old.seq = some o) (hkv : o.kv = [x])
    (hold : ∃ a ∈ old.accs, a.lane = x.lane ∧ a.st.known = false) (hnew : ∀ a ∈ o.accs, a.st.known = true ∧ a.st.isFailed = false) :
    s.kvReplayed k g old = (s.kvAnew g o x).1.setGroup k
      (g.setOps (g.fl.ops.map (anewAt o.seq x (s.kvFresh g o x) (s.kvAnew g o x).2.2))) := by
  obtain ⟨a, ha, hlane, hst⟩ := hold
  have hanswered : old.accs.any (fun a => a.lane == x.lane && !a.st.known) = true := List.any_eq_true.mpr ⟨a, ha, by simp [hlane, hst]⟩
  have hknown : o.accs.any (fun a => a.lane == x.lane && !a.st.known) = false := List.any_eq_false.mpr fun b hb => by simp [(hnew b hb).1]
  have hfailed : o.accs.any (fun a => a.lane == x.lane && a.st.isFailed) = false := List.any_eq_false.mpr fun b hb => by simp [(hnew b hb).2]
  obtain ⟨hq, -, -⟩ := s.kvAnew_spec g o x
  rw [State.kvReplayed, ho]
  dsimp only
  rw [hkv, List.foldl_cons, List.foldl_nil, if_neg (by simp [hanswered, hknown, hfailed])]
  exact State.modGroup_of_some (hq.groups ▸ hg)

/-- What does not look at translations is the same of accesses that differ in them. -/
theorem map_congr_untranslated {β : Type} {p : LaneAcc → β} {as bs : List LaneAcc} (hp : ∀ a, p a.untranslated = p a)
    (h : as.map LaneAcc.untranslated = bs.map LaneAcc.untranslated) : as.map p = bs.map p := by
  have hcomp : p ∘ LaneAcc.untranslated = p := funext hp
  rw [← hcomp, ← List.map_map, h, List.map_map]

/-- Whose access it is, and whether it is performed. -/
def LaneAcc.place (a : LaneAcc) : Nat × Bool × Nat := (a.lane, a.done, a.ordinal)

/-- The reads of a lane that begins anew, as LDK makes them. -/
theorem State.kvAnew_reads (s : State) (g : Group) (o : MemOp) (x : KvLane) :
    (s.kvAnew g o x).2.2.map LaneAcc.off = (if ldkFit o.base (s.kvFresh g o x).tid then [kvMeta, kvData, kvFreq, kvAgain] else [kvPair])
    ∧ ∀ a ∈ (s.kvAnew g o x).2.2, a.lane = x.lane ∧ a.done = false ∧ a.ordinal = o.kvOrdinal x := by
  obtain ⟨-, -, h⟩ := s.kvAnew_spec g o x
  refine ⟨(map_congr_untranslated (fun _ => rfl) h).trans (s.kvReads_off _ _ _ _), ?_⟩
  have hreads : ∀ y ∈ (s.kvReads g o.base (s.kvFresh g o x) (o.kvOrdinal x)).map LaneAcc.place, y = (x.lane, false, o.kvOrdinal x) := by
    refine List.forall_mem_map.mpr fun a ha => ?_
    obtain ⟨hlane, hdone, hord⟩ := State.kvReads_fresh ha
    rw [LaneAcc.place, hlane, hdone, hord]
    rfl
  rw [← map_congr_untranslated (p := LaneAcc.place) (fun _ => rfl) h] at hreads
  intro a ha
  have hplace := List.forall_mem_map.mp hreads a ha
  simpa only [LaneAcc.place, Prod.mk.injEq] using hplace

/-- Every access after a replay is translated, when each was or its answered slot translates it. -/
theorem Replayed.translated (h : Replayed s t g o as)
    (hothers : ∀ a ∈ o.accs, (∀ n, a.st ≠ .answered n) → a.st.known = true ∧ a.st.isFailed = false)
    (hanswered : ∀ a ∈ o.accs, ∀ n, a.st = .answered n → slotValid (s.slotWord g.view.holder n) = true
      ∧ ∃ e leaf, s.tlb g.ctl.core g.view.holder (slotGen (s.slotWord g.view.holder n)) (pageOf a.va) = some e
        ∧ leafReach o.kind.access e = .leaf leaf) {b : LaneAcc} (hb : b ∈ as) : b.st.known = true ∧ b.st.isFailed = false := by
  obtain ⟨i, hi, rfl⟩ := List.mem_iff_getElem.mp hb
  have hi' : i < o.accs.length := h.length ▸ hi
  have ha := List.getElem?_eq_getElem hi'
  have hmem := List.getElem_mem hi'
  by_cases hst : ∃ n, o.accs[i].st = .answered n
  · obtain ⟨n, hn⟩ := hst
    obtain ⟨hv, e, leaf, ht, hx⟩ := hanswered _ hmem n hn
    have hb := h.leaf ha hn hv ht hx
    rw [List.getElem?_eq_getElem hi] at hb
    rw [Option.some.inj hb]
    exact ⟨rfl, rfl⟩
  · have hb := h.unanswered ha fun n hn => hst ⟨n, hn⟩
    rw [List.getElem?_eq_getElem hi] at hb
    rw [Option.some.inj hb]
    exact hothers _ hmem fun n hn => hst ⟨n, hn⟩

/-- In an operation all of whose accesses are those of one lane, that lane begins anew with the ordinal of the first. -/
theorem MemOp.kvOrdinal_of_lane (h : ∀ a ∈ o.accs, a.lane = x.lane) (hne : o.accs ≠ []) :
    some (o.kvOrdinal x) = o.accs.head?.map LaneAcc.ordinal := by
  have hall : (o.accs.filter fun a => a.lane == x.lane) = o.accs := List.filter_eq_self.mpr fun a ha => by simp [h a ha]
  rw [MemOp.kvOrdinal, hall, List.head?_eq_some_head hne]
  rfl

end

/-- After a replay every access is of the lane that all were of, and the first has the ordinal of the first. -/
theorem Replayed.lane {s t : State} {g : Group} {o : MemOp} {as : List LaneAcc} {l : Nat} (h : Replayed s t g o as)
    (hlane : ∀ a ∈ o.accs, a.lane = l) : ∀ a ∈ as, a.lane = l := by
  have hall : ∀ n ∈ as.map LaneAcc.lane, n = l := by
    rw [map_congr_untranslated (fun _ => rfl) h.kept]
    exact List.forall_mem_map.mpr hlane
  exact List.forall_mem_map.mp hall

theorem kvReplayed : Claims.KvReplayed := by
  intro s k g o x hg hact ho hkv hlane ⟨a, ha, n, hn⟩ hothers hanswered
  obtain ⟨t, os, as, hst, hrep, hop, hexec⟩ := exec_logEntryReplay_of_some hg hact ho
  let u := t.setGroup k (g.setOps os)
  let o₁ : MemOp := { o with accs := as }
  rw [State.kvReplayed_of_translated (x := x) (Table.get?_set_self _ _ _) hop hkv ⟨a, ha, hlane a ha, by rw [hn]; rfl⟩
    fun b hb => hrep.translated hothers hanswered hb] at hexec
  obtain ⟨hq, -, -⟩ := u.kvAnew_spec (g.setOps os) o₁ x
  obtain ⟨hoff, hreads⟩ := u.kvAnew_reads (g.setOps os) o₁ x
  have hfresh : u.kvFresh (g.setOps os) o₁ x
      = { x with tid := s.tidReplica g.id.launch (g.ctl.core / 4) (handleTid o.base), tries := 0 } := by
    rw [← hst.tidReplica]
    rfl
  have hordinal : some (o₁.kvOrdinal x) = o.accs.head?.map LaneAcc.ordinal := by
    have hne : as ≠ [] := by
      rw [← List.length_pos_iff, hrep.length]
      exact List.length_pos_of_mem ha
    rw [MemOp.kvOrdinal_of_lane (hrep.lane hlane) hne, ← List.head?_map, ← List.head?_map, map_congr_untranslated (fun _ => rfl) hrep.kept]
  refine ⟨_, _, { o with accs := (u.kvAnew (g.setOps os) o₁ x).2.2, kv := [u.kvFresh (g.setOps os) o₁ x] }, hexec,
    Table.get?_set_self _ _ _, fun j hj => ?_, fun y => ?_, rfl, ?_, ?_, rfl, ?_, fun b hb => ?_⟩
  · rw [State.setGroup_groups, Table.get?_set_ne _ _ hj, hq.groups, State.setGroup_groups, Table.get?_set_ne _ _ hj, hst.groups]
  · rw [State.setGroup_mem, hq.mem, State.setGroup_mem, hst.mem]
  · rw [Group.opAt_map (anewAt_seq _ _ _ _), hop, Option.map_some]
    exact congrArg some (anewAt_self (o := o₁) hkv (hrep.lane hlane) _ _)
  · exact congrArg (fun y => [y]) hfresh
  · rw [hoff, hfresh]
  · obtain ⟨hl, hdone, hord⟩ := hreads b hb
    exact ⟨hl, hdone, hord ▸ hordinal⟩

/-- Settles O48: a store that leaves its queue with an access left to do does not finish, and the pieces that it adds to the hash wait for
their performance (log 27); a value lands word by word, each in a line and lane of its own; a line comes as a write of its register; and a
replay threads its accesses through states that differ in queued walks, on which no translation depends. -/
theorem memoryWordSteps : Obligations.MemoryWordSteps := ⟨storeDeparts, valueLanded, lineFilled, logEntryReplayed, kvReplayed⟩

end Sys2Proof.Machine

end

section

/-! Finite values as rational numbers (O8; 06: R115, R116; 10: R187): a value at a common exponent, the sum, the product and the order. -/

set_option Elab.async false

namespace Sys2Proof.Machine

/-- The sign of a value, as a factor. -/
def signFactor (neg : Bool) : ℚ := if neg then -1 else 1

theorem FVal.rat_fin (neg : Bool) (m : Nat) (e : Int) : (FVal.fin neg m e).rat = some (signFactor neg * (m * 2 ^ e)) := by
  simp [FVal.rat, signFactor]

/-- Only a finite value is a rational number. -/
theorem FVal.eq_fin_of_rat {x : FVal} {p : ℚ} (h : x.rat = some p) :
    ∃ neg m e, x = .fin neg m e ∧ p = signFactor neg * (m * 2 ^ e) := by
  cases x with
  | nan => cases h
  | inf neg => cases h
  | fin neg m e => exact ⟨neg, m, e, rfl, by rw [FVal.rat_fin] at h; exact (Option.some.inj h).symm⟩

theorem signFactor_not (a : Bool) : signFactor (!a) = -signFactor a := by cases a <;> simp [signFactor]

theorem signFactor_bne (a b : Bool) : signFactor (a != b) = signFactor a * signFactor b := by
  cases a <;> cases b <;> simp [signFactor]

theorem abs_signFactor_mul (a : Bool) (t : ℚ) : |signFactor a * t| = |t| := by cases a <;> simp [signFactor]

/-- The whole multiple of 2^q that a finite value is, for q at most its exponent. -/
theorem signedAt_mul_zpow (neg : Bool) (m : Nat) {e q : Int} (h : q ≤ e) :
    (signedAt neg m e q : ℚ) * 2 ^ q = signFactor neg * (m * 2 ^ e) := by
  obtain ⟨d, rfl⟩ := Int.le.dest h
  cases neg <;> simp [signedAt, signFactor, zpow_add₀] <;> ring

theorem FVal.rat_scaled (i e : Int) : (FVal.scaled i e).rat = some ((i : ℚ) * 2 ^ e) := by
  rw [FVal.scaled, FVal.rat_fin]
  rcases lt_or_ge i 0 with hi | hi
  · have hn : ((i.natAbs : Nat) : ℚ) = -i := by rw [Nat.cast_natAbs, abs_of_neg hi]; push_cast; rfl
    simp [signFactor, hi, hn]
  · have hn : ((i.natAbs : Nat) : ℚ) = i := by rw [Nat.cast_natAbs, abs_of_nonneg hi]
    simp [signFactor, not_lt.mpr hi, hn]

theorem FVal.rat_neg {x : FVal} {p : ℚ} (hx : x.rat = some p) : x.neg.rat = some (-p) := by
  obtain ⟨a, m, e, rfl, rfl⟩ := FVal.eq_fin_of_rat hx
  rw [FVal.neg, FVal.rat_fin, signFactor_not, neg_mul]

theorem FVal.rat_mul {x y : FVal} {p q : ℚ} (hx : x.rat = some p) (hy : y.rat = some q) : (x.mul y).rat = some (p * q) := by
  obtain ⟨a, m, e, rfl, rfl⟩ := FVal.eq_fin_of_rat hx
  obtain ⟨b, n, d, rfl, rfl⟩ := FVal.eq_fin_of_rat hy
  rw [FVal.mul, FVal.rat_fin, signFactor_bne, zpow_add₀ two_ne_zero, Nat.cast_mul]
  congr 1
  ring

/-- Both terms are taken at the smaller exponent, where the sum is one of whole numbers. -/
theorem FVal.rat_add {x y : FVal} {p q : ℚ} (hx : x.rat = some p) (hy : y.rat = some q) : (x.add y).rat = some (p + q) := by
  obtain ⟨a, m, e, rfl, rfl⟩ := FVal.eq_fin_of_rat hx
  obtain ⟨b, n, d, rfl, rfl⟩ := FVal.eq_fin_of_rat hy
  rw [← signedAt_mul_zpow a m (min_le_left e d), ← signedAt_mul_zpow b n (min_le_right e d), ← add_mul, ← Int.cast_add]
  simp only [FVal.add]
  split
  · rename_i h0
    rw [h0, FVal.rat_fin]
    simp
  · exact FVal.rat_scaled _ _

theorem FVal.cmp_of_rat {x y : FVal} {p q : ℚ} (hx : x.rat = some p) (hy : y.rat = some q) :
    x.cmp y = some (if p < q then .lt else if p = q then .eq else .gt) := by
  obtain ⟨a, m, e, rfl, rfl⟩ := FVal.eq_fin_of_rat hx
  obtain ⟨b, n, d, rfl, rfl⟩ := FVal.eq_fin_of_rat hy
  have hu : (0 : ℚ) < 2 ^ min e d := zpow_pos two_pos _
  simp only [← signedAt_mul_zpow a m (min_le_left e d), ← signedAt_mul_zpow b n (min_le_right e d), mul_lt_mul_iff_left₀ hu,
    mul_left_inj' hu.ne', Int.cast_lt, Int.cast_inj]
  rfl

/-- Settles O8: at the smaller of the two exponents finite values are whole multiples of one power of two. -/
theorem exactArithmetic : Obligations.ExactArithmetic := fun _ _ _ _ hx hy =>
  ⟨FVal.rat_add hx hy, FVal.rat_mul hx hy, FVal.rat_neg hx, FVal.cmp_of_rat hx hy⟩

end Sys2Proof.Machine

end

section

/-! The magnitudes of a format in the order of their patterns (06: R115), as if exponents had no bound: what a pattern stands for, and that
the next pattern stands for the next value. Rounding chooses between two neighbours in this order. -/

set_option Elab.async false

namespace Sys2Proof.Machine

/-- What every format of 06: R115 has: two exponents at least between zeros and infinities, and a fraction. -/
structure FloatFmt.Wide (f : FloatFmt) : Prop where
  ebits : 2 ≤ f.ebits
  fbits : 1 ≤ f.fbits

theorem FloatFmt.wide_of_mem {f : FloatFmt} (hf : f ∈ [f64, f32, f16, bf16, e4m3, e5m2]) : f.Wide := by
  simp only [List.mem_cons, List.not_mem_nil, or_false] at hf
  rcases hf with rfl | rfl | rfl | rfl | rfl | rfl <;> exact ⟨by decide, by decide⟩

/-- The exponent of the unit in the last place at the pattern p. -/
def FloatFmt.expAt (f : FloatFmt) (p : Nat) : Int := max (p / 2 ^ f.fbits : Nat) 1 - f.bias - f.fbits

/-- The significand at the pattern p, with its hidden bit. -/
def FloatFmt.sigAt (f : FloatFmt) (p : Nat) : Nat := if p < 2 ^ f.fbits then p else 2 ^ f.fbits + p % 2 ^ f.fbits

/-- The unit in the last place at the pattern p. -/
def FloatFmt.ulp (f : FloatFmt) (p : Nat) : ℚ := 2 ^ f.expAt p

/-- The magnitude of the pattern p. -/
def FloatFmt.mag (f : FloatFmt) (p : Nat) : ℚ := f.sigAt p * f.ulp p

section

variable {f : FloatFmt}

theorem FloatFmt.ulp_pos (f : FloatFmt) (p : Nat) : 0 < f.ulp p := zpow_pos two_pos _

@[simp] theorem FloatFmt.mag_zero (f : FloatFmt) : f.mag 0 = 0 := by simp [FloatFmt.mag, FloatFmt.sigAt]

/-- Below the smallest normal value a pattern counts units. -/
theorem FloatFmt.mag_subnormal {k : Nat} (h : k < 2 ^ f.fbits) : f.mag k = k * 2 ^ (1 - (f.bias : Int) - f.fbits) := by
  simp [FloatFmt.mag, FloatFmt.sigAt, FloatFmt.ulp, FloatFmt.expAt, Nat.div_eq_of_lt h, h]

theorem FloatFmt.ulp_subnormal {k : Nat} (h : k < 2 ^ f.fbits) : f.ulp k = 2 ^ (1 - (f.bias : Int) - f.fbits) := by
  simp [FloatFmt.ulp, FloatFmt.expAt, Nat.div_eq_of_lt h]

theorem FloatFmt.ulp_normal {E r : Nat} (hE : 1 ≤ E) (hr : r < 2 ^ f.fbits) :
    f.ulp (E * 2 ^ f.fbits + r) = 2 ^ ((E : Int) - f.bias - f.fbits) := by
  have hd : (E * 2 ^ f.fbits + r) / 2 ^ f.fbits = E := by
    rw [mul_comm, Nat.mul_add_div (by positivity), Nat.div_eq_of_lt hr, add_zero]
  simp only [FloatFmt.ulp, FloatFmt.expAt, hd]
  congr 3
  omega

/-- From the smallest normal value up a pattern is an exponent field and a fraction. -/
theorem FloatFmt.mag_normal {E r : Nat} (hE : 1 ≤ E) (hr : r < 2 ^ f.fbits) :
    f.mag (E * 2 ^ f.fbits + r) = (2 ^ f.fbits + r : Nat) * 2 ^ ((E : Int) - f.bias - f.fbits) := by
  have hge : ¬ E * 2 ^ f.fbits + r < 2 ^ f.fbits := by nlinarith
  rw [FloatFmt.mag, FloatFmt.ulp_normal hE hr, FloatFmt.sigAt, if_neg hge, mul_comm E, Nat.mul_add_mod, Nat.mod_eq_of_lt hr]

/-- A pattern is subnormal, or an exponent field and a fraction. -/
theorem FloatFmt.subnormal_or_normal (f : FloatFmt) (p : Nat) :
    p < 2 ^ f.fbits ∨ ∃ E r, 1 ≤ E ∧ r < 2 ^ f.fbits ∧ p = E * 2 ^ f.fbits + r := by
  rcases Nat.lt_or_ge p (2 ^ f.fbits) with h | h
  · exact .inl h
  · exact .inr ⟨p / 2 ^ f.fbits, p % 2 ^ f.fbits, Nat.div_pos h (by positivity), Nat.mod_lt _ (by positivity),
      by rw [mul_comm]; exact (Nat.div_add_mod _ _).symm⟩

/-- The next pattern stands for the next multiple of the unit in the last place; where the fraction is full the exponent goes up. -/
theorem FloatFmt.mag_succ (f : FloatFmt) (p : Nat) : f.mag (p + 1) = f.mag p + f.ulp p := by
  rcases f.subnormal_or_normal p with hp | ⟨E, r, hE, hr, rfl⟩
  · rw [FloatFmt.mag_subnormal hp, FloatFmt.ulp_subnormal hp]
    rcases Nat.lt_or_ge (p + 1) (2 ^ f.fbits) with h | h
    · rw [FloatFmt.mag_subnormal h]
      push_cast
      ring
    · have e : p + 1 = 1 * 2 ^ f.fbits + 0 := by omega
      have e' : ((2 ^ f.fbits + 0 : Nat) : ℚ) = p + 1 := by rw [add_zero, ← Nat.cast_succ]; congr 1; omega
      rw [e, FloatFmt.mag_normal le_rfl (by positivity), e']
      push_cast
      ring
  · rw [FloatFmt.mag_normal hE hr, FloatFmt.ulp_normal hE hr]
    rcases Nat.lt_or_ge (r + 1) (2 ^ f.fbits) with h | h
    · rw [add_assoc, FloatFmt.mag_normal hE h]
      push_cast
      ring
    · have e : E * 2 ^ f.fbits + r + 1 = (E + 1) * 2 ^ f.fbits + 0 := by rw [add_mul]; omega
      have e' : (r : ℚ) = 2 ^ f.fbits - 1 := by rw [eq_sub_iff_add_eq]; exact_mod_cast (by omega : r + 1 = 2 ^ f.fbits)
      have e2 : ((E + 1 : Nat) : Int) - f.bias - f.fbits = (E - f.bias - f.fbits) + 1 := by push_cast; ring
      rw [e, FloatFmt.mag_normal (by omega) (by positivity), e2, zpow_add_one₀ two_ne_zero]
      push_cast
      rw [e']
      ring

theorem FloatFmt.mag_strictMono (f : FloatFmt) : StrictMono f.mag :=
  strictMono_nat_of_lt_succ fun p => by rw [FloatFmt.mag_succ]; exact lt_add_of_pos_right _ (f.ulp_pos p)

theorem FloatFmt.mag_nonneg (f : FloatFmt) (p : Nat) : 0 ≤ f.mag p := by
  rw [← f.mag_zero]
  exact f.mag_strictMono.monotone (Nat.zero_le p)

/-! ## Patterns and their values -/

theorem FloatFmt.two_pow_ebits (hf : f.Wide) : 2 ^ f.ebits = 2 * f.bias + 2 := by
  have h := hf.ebits
  obtain ⟨n, hn⟩ : ∃ n, f.ebits = n + 1 := ⟨f.ebits - 1, by omega⟩
  have hp : 1 ≤ 2 ^ n := Nat.one_le_two_pow
  rw [FloatFmt.bias, hn, Nat.add_sub_cancel, pow_succ]
  omega

theorem FloatFmt.bias_pos (hf : f.Wide) : 1 ≤ f.bias := by
  have h : 2 ^ 1 ≤ 2 ^ (f.ebits - 1) := Nat.pow_le_pow_right two_pos (by have := hf.ebits; omega)
  rw [FloatFmt.bias]
  omega

theorem FloatFmt.sign_eq (f : FloatFmt) (neg : Bool) : f.sign neg = neg.toNat * 2 ^ (f.ebits + f.fbits) := by
  cases neg <;> simp [FloatFmt.sign, add_comm]

theorem FloatFmt.maxBits_eq (f : FloatFmt) (neg : Bool) : f.maxBits neg = f.sign neg + f.maxBits false := by
  simp [FloatFmt.maxBits, FloatFmt.sign]

theorem FloatFmt.four_le_two_pow_ebits (hf : f.Wide) : 4 ≤ 2 ^ f.ebits := by
  simpa using Nat.pow_le_pow_right two_pos hf.ebits

theorem FloatFmt.two_le_two_pow_fbits (hf : f.Wide) : 2 ≤ 2 ^ f.fbits := by
  simpa using Nat.pow_le_pow_right two_pos hf.fbits

/-- The largest finite pattern: the one below infinity, or for e4m3 the one below the NaN. -/
theorem FloatFmt.maxBits_false (f : FloatFmt) :
    f.maxBits false = if f.noInf then 2 ^ f.fbits * 2 ^ f.ebits - 2 else 2 ^ f.fbits * (2 ^ f.ebits - 1) - 1 := by
  simp [FloatFmt.maxBits, FloatFmt.sign, pow_add, mul_comm]

/-- A pattern without its sign lies beyond the finite ones when its exponent is all ones, and for e4m3 its fraction too. -/
theorem FloatFmt.maxBits_lt_iff (hf : f.Wide) {r : Nat} (hr : r < 2 ^ (f.ebits + f.fbits)) :
    f.maxBits false < r ↔ r / 2 ^ f.fbits = 2 ^ f.ebits - 1 ∧ (f.noInf = true → r % 2 ^ f.fbits = 2 ^ f.fbits - 1) := by
  have hF := FloatFmt.two_le_two_pow_fbits hf
  have hE := FloatFmt.four_le_two_pow_ebits hf
  have hm := Nat.mod_lt r (show 2 ^ f.fbits > 0 by omega)
  have hq : r / 2 ^ f.fbits < 2 ^ f.ebits := Nat.div_lt_of_lt_mul (by rwa [← pow_add, add_comm])
  rw [FloatFmt.maxBits_false, ← Nat.div_add_mod r (2 ^ f.fbits)]
  simp only [Nat.mul_add_div (show 2 ^ f.fbits > 0 by omega), Nat.mul_add_mod, Nat.mod_mod, Nat.div_eq_of_lt hm, add_zero]
  generalize r / 2 ^ f.fbits = a at *
  generalize r % 2 ^ f.fbits = b at *
  generalize 2 ^ f.fbits = F at *
  generalize 2 ^ f.ebits = X at *
  obtain ⟨Y, rfl⟩ : ∃ Y, X = Y + 1 := ⟨X - 1, by omega⟩
  have hY : F * 1 ≤ F * Y := Nat.mul_le_mul_left F (by omega)
  rw [Nat.add_sub_cancel, mul_add]
  rcases Nat.lt_or_ge a Y with ha | ha
  · have hle : F * (a + 1) ≤ F * Y := Nat.mul_le_mul_left F ha
    rw [mul_add] at hle
    refine iff_of_false ?_ (by omega)
    split <;> omega
  · obtain rfl : a = Y := by omega
    cases f.noInf <;> simp <;> omega

theorem FloatFmt.maxBits_add_one_lt (hf : f.Wide) : f.maxBits false + 1 < 2 ^ (f.ebits + f.fbits) := by
  have hF := FloatFmt.two_le_two_pow_fbits hf
  have hE := FloatFmt.four_le_two_pow_ebits hf
  rw [FloatFmt.maxBits_false, add_comm f.ebits, pow_add]
  generalize 2 ^ f.fbits = F at *
  generalize 2 ^ f.ebits = X at *
  have h4 : F * 4 ≤ F * X := Nat.mul_le_mul_left F hE
  rw [Nat.mul_sub]
  split <;> omega

/-- What a pattern decodes to, by its sign and the rest. -/
theorem FloatFmt.decode_sign_add (hf : f.Wide) (neg : Bool) {r : Nat} (hr : r < 2 ^ (f.ebits + f.fbits)) :
    f.decode (f.sign neg + r) =
      if r ≤ f.maxBits false then .fin neg (f.sigAt r) (f.expAt r)
      else if f.noInf || r % 2 ^ f.fbits != 0 then .nan else .inf neg := by
  have hsplit : f.sign neg = 2 ^ f.fbits * (neg.toNat * 2 ^ f.ebits) := by rw [FloatFmt.sign_eq, pow_add]; ring
  have hfrac : (f.sign neg + r) % 2 ^ f.fbits = r % 2 ^ f.fbits := by rw [hsplit, Nat.mul_add_mod]
  have hex : (f.sign neg + r) / 2 ^ f.fbits % 2 ^ f.ebits = r / 2 ^ f.fbits := by
    rw [hsplit, Nat.mul_add_div (by positivity), Nat.mul_add_mod_self_right, Nat.mod_eq_of_lt]
    exact Nat.div_lt_of_lt_mul (by rwa [← pow_add, add_comm])
  have hneg : ((f.sign neg + r) / 2 ^ (f.fbits + f.ebits) % 2 == 1) = neg := by
    rw [FloatFmt.sign_eq, add_comm f.ebits] at *
    rw [mul_comm, Nat.mul_add_div (by positivity), Nat.div_eq_of_lt hr]
    cases neg <;> rfl
  simp only [FloatFmt.decode, hfrac, hex, hneg]
  have hmax := FloatFmt.maxBits_lt_iff hf hr
  have h4 := FloatFmt.four_le_two_pow_ebits hf
  rcases Nat.lt_or_ge r (2 ^ f.fbits) with h | h
  · have h0 := Nat.div_eq_of_lt h
    rw [if_pos h0, if_pos (by omega), FloatFmt.sigAt, if_pos h, FloatFmt.expAt, h0, Nat.mod_eq_of_lt h]
    simp
  · have h1 : 1 ≤ r / 2 ^ f.fbits := Nat.div_pos h (by positivity)
    have htop : ((decide (r / 2 ^ f.fbits = 2 ^ f.ebits - 1) &&
        if f.noInf = true then r % 2 ^ f.fbits == 2 ^ f.fbits - 1 else true) = true) ↔ ¬ r ≤ f.maxBits false := by
      rw [not_le, hmax]
      cases f.noInf <;> simp
    rw [if_neg (by omega), FloatFmt.sigAt, if_neg (not_lt.mpr h), FloatFmt.expAt, max_eq_left h1]
    simp only [htop, ite_not]

/-- The finite values of a format are the magnitudes of the patterns up to the largest, with either sign. -/
theorem FloatFmt.rat_decode_sign_add (hf : f.Wide) (neg : Bool) {r : Nat} (hr : r ≤ f.maxBits false) :
    (f.decode (f.sign neg + r)).rat = some (signFactor neg * f.mag r) := by
  rw [FloatFmt.decode_sign_add hf neg (by have := FloatFmt.maxBits_add_one_lt hf; omega), if_pos hr, FVal.rat_fin]
  rfl

theorem FloatFmt.abs_eq_mag_of_rat_decode (hf : f.Wide) {p : Nat} {z : ℚ} (hp : p < 2 ^ (1 + f.ebits + f.fbits))
    (hz : (f.decode p).rat = some z) : ∃ r, r ≤ f.maxBits false ∧ |z| = f.mag r := by
  have hr : p % 2 ^ (f.ebits + f.fbits) < 2 ^ (f.ebits + f.fbits) := Nat.mod_lt _ (by positivity)
  have hd : p / 2 ^ (f.ebits + f.fbits) < 2 := Nat.div_lt_of_lt_mul (by rwa [← pow_succ, add_comm _ 1, ← add_assoc])
  obtain ⟨neg, hneg⟩ : ∃ neg : Bool, p / 2 ^ (f.ebits + f.fbits) = neg.toNat :=
    ⟨decide (p / 2 ^ (f.ebits + f.fbits) = 1), by
      rcases Nat.le_one_iff_eq_zero_or_eq_one.mp (Nat.le_of_lt_succ hd) with h | h <;> simp [h]⟩
  have hsplit : p = f.sign neg + p % 2 ^ (f.ebits + f.fbits) := by
    rw [FloatFmt.sign_eq, ← hneg, mul_comm]
    exact (Nat.div_add_mod _ _).symm
  refine ⟨p % 2 ^ (f.ebits + f.fbits), ?_⟩
  by_cases hle : p % 2 ^ (f.ebits + f.fbits) ≤ f.maxBits false
  · rw [hsplit, FloatFmt.rat_decode_sign_add hf neg hle, Option.some.injEq] at hz
    exact ⟨hle, by rw [← hz, abs_signFactor_mul, abs_of_nonneg (f.mag_nonneg _)]⟩
  · rw [hsplit, FloatFmt.decode_sign_add hf neg hr, if_neg hle] at hz
    split at hz <;> cases hz

theorem FloatFmt.rat_decode_maxBits (hf : f.Wide) : (f.decode (f.maxBits false)).rat = some (f.mag (f.maxBits false)) := by
  simpa [FloatFmt.sign, signFactor] using FloatFmt.rat_decode_sign_add hf false le_rfl

/-- The sign bit of a pattern. -/
theorem FloatFmt.sign_add_div (hf : f.Wide) (neg : Bool) {r : Nat} (hr : r ≤ f.maxBits false) :
    (f.sign neg + r) / 2 ^ (f.ebits + f.fbits) = neg.toNat := by
  have := FloatFmt.maxBits_add_one_lt hf
  rw [FloatFmt.sign_eq, mul_comm, Nat.mul_add_div (by positivity), Nat.div_eq_of_lt (by omega), add_zero]

theorem FloatFmt.sign_add_mod_two (hf : f.Wide) (neg : Bool) (r : Nat) : (f.sign neg + r) % 2 = r % 2 := by
  obtain ⟨n, hn⟩ : ∃ n, f.ebits + f.fbits = n + 1 := ⟨f.ebits + f.fbits - 1, by have := hf.fbits; omega⟩
  rw [FloatFmt.sign_eq, hn, pow_succ, ← mul_assoc]
  omega

/-! ## Packing -/

/-- The pattern of a rounded magnitude before overflow is looked at. -/
def FloatFmt.pattern (f : FloatFmt) (k : Nat) (q : Int) : Nat :=
  if k < 2 ^ f.fbits then k
  else if k = 2 ^ (f.fbits + 1) then (q + 1 + f.fbits + f.bias).toNat * 2 ^ f.fbits
  else (q + f.fbits + f.bias).toNat * 2 ^ f.fbits + (k - 2 ^ f.fbits)

/-- What becomes of a rounded magnitude with the pattern b (06: R122). -/
def FloatFmt.clip (f : FloatFmt) (mode : RMode) (neg : Bool) (b : Nat) : Nat :=
  if b ≤ f.maxBits false then f.sign neg + b
  else match mode with
    | .rne => f.infBits neg
    | .rz => f.maxBits neg
    | .ru => if neg then f.maxBits neg else f.infBits neg
    | .rd => if neg then f.infBits neg else f.maxBits neg

theorem FloatFmt.pack_eq_clip (f : FloatFmt) (mode : RMode) (neg : Bool) (k : Nat) (q : Int) :
    f.pack mode neg k q = f.clip mode neg (f.pattern k q) := by
  have hp : 2 ^ f.fbits < 2 ^ (f.fbits + 1) := Nat.pow_lt_pow_right one_lt_two (Nat.lt_succ_self _)
  have hm : (if (if k = 2 ^ (f.fbits + 1) then 2 ^ f.fbits else k) < 2 ^ f.fbits
      then (if k = 2 ^ (f.fbits + 1) then 2 ^ f.fbits else k)
      else ((if k = 2 ^ (f.fbits + 1) then q + 1 else q) + f.fbits + f.bias).toNat * 2 ^ f.fbits
        + ((if k = 2 ^ (f.fbits + 1) then 2 ^ f.fbits else k) - 2 ^ f.fbits)) = f.pattern k q := by
    unfold FloatFmt.pattern
    by_cases hk : k = 2 ^ (f.fbits + 1)
    · simp [hk, hp.le]
    · simp [hk]
  simp only [FloatFmt.pack, hm]
  rfl

/-- k counts units of 2^q, and 2^q is the unit in the last place of the format there. -/
structure FloatFmt.Normalised (f : FloatFmt) (k : Nat) (q : Int) : Prop where
  least : 1 - (f.bias : Int) - f.fbits ≤ q
  subnormal : k < 2 ^ f.fbits → q = 1 - (f.bias : Int) - f.fbits
  most : k ≤ 2 ^ (f.fbits + 1)

/-- A normalised magnitude with less than a full significand. -/
theorem FloatFmt.Normalised.mag_pattern_lt {k : Nat} {q : Int} (hf : f.Wide) (h : f.Normalised k q) (hk : k < 2 ^ (f.fbits + 1)) :
    f.mag (f.pattern k q) = k * 2 ^ q ∧ f.ulp (f.pattern k q) = 2 ^ q ∧ f.pattern k q % 2 = k % 2 := by
  obtain ⟨hleast, hsub, -⟩ := h
  unfold FloatFmt.pattern
  split
  · rename_i hs
    rw [hsub hs]
    exact ⟨FloatFmt.mag_subnormal hs, FloatFmt.ulp_subnormal hs, rfl⟩
  · rename_i hs
    rw [if_neg hk.ne]
    have hr : k - 2 ^ f.fbits < 2 ^ f.fbits := by rw [pow_succ] at hk; omega
    have hE : 1 ≤ (q + f.fbits + f.bias).toNat := by omega
    have hq : (((q + f.fbits + f.bias).toNat : Nat) : Int) - f.bias - f.fbits = q := by omega
    refine ⟨?_, ?_, ?_⟩
    · rw [FloatFmt.mag_normal hE hr, hq, Nat.add_sub_cancel' (not_lt.mp hs)]
    · rw [FloatFmt.ulp_normal hE hr, hq]
    · obtain ⟨c, hc⟩ : 2 ∣ 2 ^ f.fbits := dvd_pow_self 2 (by have := hf.fbits; omega)
      rw [hc] at hs ⊢
      rw [mul_left_comm]
      omega

/-- One unit more is the next pattern. -/
theorem FloatFmt.Normalised.pattern_succ {k : Nat} {q : Int} (h : f.Normalised k q) (hk : k < 2 ^ (f.fbits + 1)) :
    f.pattern (k + 1) q = f.pattern k q + 1 := by
  obtain ⟨hleast, hsub, -⟩ := h
  have hp : 2 ^ (f.fbits + 1) = 2 * 2 ^ f.fbits := by rw [pow_succ, mul_comm]
  have hF : 1 ≤ 2 ^ f.fbits := Nat.one_le_two_pow
  unfold FloatFmt.pattern
  rcases Nat.lt_or_ge (k + 1) (2 ^ f.fbits) with h1 | h1
  · rw [if_pos h1, if_pos (by omega)]
  rw [if_neg (by omega)]
  by_cases h2 : k < 2 ^ f.fbits
  · have he : (q + f.fbits + f.bias).toNat = 1 := by rw [hsub h2]; omega
    rw [if_pos h2, if_neg (by omega), he]
    omega
  · rw [if_neg h2, if_neg hk.ne]
    split
    · have he : (q + 1 + f.fbits + f.bias).toNat = (q + f.fbits + f.bias).toNat + 1 := by omega
      rw [he, add_mul]
      omega
    · omega

theorem FloatFmt.Normalised.mag_pattern {k : Nat} {q : Int} (hf : f.Wide) (h : f.Normalised k q) :
    f.mag (f.pattern k q) = k * 2 ^ q := by
  rcases h.most.lt_or_eq with hk | hk
  · exact (h.mag_pattern_lt hf hk).1
  · have hp : 2 ^ f.fbits < 2 ^ (f.fbits + 1) := Nat.pow_lt_pow_right one_lt_two (Nat.lt_succ_self _)
    obtain ⟨n, rfl⟩ : ∃ n, k = n + 1 := ⟨k - 1, by omega⟩
    have hn : f.Normalised n q := ⟨h.least, fun _ => by omega, by omega⟩
    obtain ⟨hmag, hulp, -⟩ := hn.mag_pattern_lt hf (by omega)
    rw [hn.pattern_succ (by omega), FloatFmt.mag_succ, hmag, hulp]
    push_cast
    ring

end

end Sys2Proof.Machine

end

section

/-! Rounding (O9; 06: R121, R122): the rounded magnitude is that of the pattern below the value or of the next one, and each mode's choice
between the two is the one that its rule asks for among all the values of the format. -/

set_option Elab.async false

namespace Sys2Proof.Machine

/-- When a mode rounds a magnitude away from zero: it lies d above the pattern k, and the next one u above it (06: R121). -/
def RoundsAway (mode : RMode) (neg : Bool) (k : Nat) (d u : ℚ) : Prop :=
  match mode with
  | .rne => u < 2 * d ∨ 2 * d = u ∧ k % 2 = 1
  | .rz => False
  | .ru => 0 < d ∧ neg = false
  | .rd => 0 < d ∧ neg = true

section

variable {f : FloatFmt} {mode : RMode} {neg : Bool} {m k r s a b : Nat} {e q : Int} {t u c : ℚ}

theorem not_roundsAway_zero (hu : 0 < u) : ¬ RoundsAway mode neg k 0 u := by
  cases mode <;> simp [RoundsAway, hu.le, hu.ne]

theorem roundsAway_congr_mod (h : k % 2 = a % 2) {d : ℚ} : RoundsAway mode neg k d u ↔ RoundsAway mode neg a d u := by
  cases mode <;> simp [RoundsAway, h]

/-- The model's test of a remainder r of 2^s says when the value lies so, in units of any size c. -/
theorem roundsUp_iff (hc : 0 < c) : roundsUp mode neg k r s = true ↔ RoundsAway mode neg k (r * c) (2 ^ s * c) := by
  have hpos : 0 < (r : ℚ) * c ↔ r ≠ 0 := by rw [mul_pos_iff_of_pos_right hc, Nat.cast_pos, Nat.pos_iff_ne_zero]
  cases mode with
  | rne =>
    have hlt : (2 : ℚ) ^ s * c < 2 * (r * c) ↔ 2 ^ s < 2 * r := by
      rw [← mul_assoc, mul_lt_mul_iff_left₀ hc]
      exact_mod_cast Iff.rfl
    have heq : 2 * ((r : ℚ) * c) = 2 ^ s * c ↔ 2 * r = 2 ^ s := by
      rw [← mul_assoc, mul_left_inj' hc.ne']
      exact_mod_cast Iff.rfl
    have h0 : 2 * r = 2 ^ s → r ≠ 0 := by rintro h rfl; exact absurd h.symm (by simp)
    simp only [RoundsAway, roundsUp, hlt, heq, Bool.or_eq_true, Bool.and_eq_true, decide_eq_true_eq, beq_iff_eq, bne_iff_ne]
    tauto
  | rz => simp [RoundsAway, roundsUp]
  | ru => simp [RoundsAway, roundsUp, hpos]
  | rd => simp [RoundsAway, roundsUp, hpos]

/-- roundAt takes the multiple of 2^q below the magnitude, or the next. -/
theorem roundAt_eq_floor_or_succ (mode : RMode) (neg : Bool) (m : Nat) (e q : Int) : ∃ k : Nat,
    (k : ℚ) * 2 ^ q ≤ m * 2 ^ e ∧ (m : ℚ) * 2 ^ e < (k + 1) * 2 ^ q
    ∧ (RoundsAway mode neg k (m * 2 ^ e - k * 2 ^ q) (2 ^ q) → roundAt mode neg m e q = k + 1)
    ∧ (¬ RoundsAway mode neg k (m * 2 ^ e - k * 2 ^ q) (2 ^ q) → roundAt mode neg m e q = k) := by
  have hq : (0 : ℚ) < 2 ^ q := zpow_pos two_pos q
  rcases le_or_gt q e with h | h
  · obtain ⟨d, rfl⟩ := Int.le.dest h
    have hd : (q + d - q).toNat = d := by omega
    have hk : ((m * 2 ^ d : Nat) : ℚ) * 2 ^ q = m * 2 ^ (q + d : Int) := by
      rw [zpow_add₀ two_ne_zero, zpow_natCast]
      push_cast
      ring
    refine ⟨m * 2 ^ d, hk.le, ?_, fun hup => ?_, fun _ => ?_⟩
    · rw [add_one_mul, hk]
      exact lt_add_of_pos_right _ hq
    · rw [hk, sub_self] at hup
      exact absurd hup (not_roundsAway_zero hq)
    · rw [roundAt, if_pos h, hd]
  · obtain ⟨s, rfl⟩ := Int.le.dest h.le
    have hs : (e + s - e).toNat = s := by omega
    have he : (0 : ℚ) < 2 ^ e := zpow_pos two_pos e
    have hu : (2 : ℚ) ^ (e + s : Int) = 2 ^ s * 2 ^ e := by rw [zpow_add₀ two_ne_zero, zpow_natCast, mul_comm]
    have hm : (m : ℚ) = 2 ^ s * (m / 2 ^ s : Nat) + (m % 2 ^ s : Nat) := by exact_mod_cast (Nat.div_add_mod m (2 ^ s)).symm
    have hr : ((m % 2 ^ s : Nat) : ℚ) + 1 ≤ 2 ^ s := by exact_mod_cast Nat.mod_lt m (by positivity)
    have hd : (m : ℚ) * 2 ^ e - (m / 2 ^ s : Nat) * 2 ^ (e + s : Int) = (m % 2 ^ s : Nat) * 2 ^ e := by rw [hu]; nlinarith
    refine ⟨m / 2 ^ s, ?_, ?_, ?_⟩
    · rw [← sub_nonneg, hd]
      positivity
    · rw [add_one_mul, ← sub_lt_iff_lt_add', hd, hu]
      exact mul_lt_mul_of_pos_right (by linarith) he
    · rw [hd, hu, ← roundsUp_iff he, roundAt, if_neg (not_le.mpr h), hs]
      cases hup : roundsUp mode neg (m / 2 ^ s) (m % 2 ^ s) s <;> simp [hup]

/-- floor(log2) of a magnitude. -/
theorem zpow_log2_le_lt (hm : m ≠ 0) (e : Int) :
    (2 : ℚ) ^ (e + m.log2) ≤ m * 2 ^ e ∧ (m : ℚ) * 2 ^ e < 2 ^ (e + m.log2 + 1) := by
  have he : (0 : ℚ) < 2 ^ e := zpow_pos two_pos e
  have h1 : (2 : ℚ) ^ m.log2 ≤ m := by exact_mod_cast Nat.log2_self_le hm
  have h2 : (m : ℚ) < 2 ^ (m.log2 + 1) := by exact_mod_cast Nat.lt_log2_self
  constructor
  · rw [zpow_add₀ two_ne_zero, zpow_natCast, mul_comm]
    exact mul_le_mul_of_nonneg_right h1 he.le
  · rw [add_assoc, zpow_add₀ two_ne_zero, mul_comm ((2 : ℚ) ^ e)]
    exact mul_lt_mul_of_pos_right (by exact_mod_cast h2) he

/-- The exponent of the multiples that round takes of m x 2^e. -/
def FloatFmt.roundExp (f : FloatFmt) (m : Nat) (e : Int) : Int := max (e + m.log2 - f.fbits) (1 - (f.bias : Int) - f.fbits)

theorem FloatFmt.round_of_ne_zero (f : FloatFmt) (mode : RMode) (neg : Bool) (e : Int) (hm : m ≠ 0) :
    f.round mode (.fin neg m e) = f.clip mode neg (f.pattern (roundAt mode neg m e (f.roundExp m e)) (f.roundExp m e)) := by
  rw [← FloatFmt.pack_eq_clip]
  exact if_neg hm

/-- The exponent that round takes is that of the unit in the last place: what lies below the magnitude there is normalised. -/
theorem FloatFmt.normalised_floor (hm : m ≠ 0) (hq : q = f.roundExp m e) (hle : (k : ℚ) * 2 ^ q ≤ m * 2 ^ e)
    (hlt : (m : ℚ) * 2 ^ e < (k + 1) * 2 ^ q) : f.Normalised k q ∧ k < 2 ^ (f.fbits + 1) := by
  obtain ⟨hlow, hhigh⟩ := zpow_log2_le_lt hm e
  rw [FloatFmt.roundExp] at hq
  have h2q : (0 : ℚ) < 2 ^ q := zpow_pos two_pos q
  have hfull : k < 2 ^ (f.fbits + 1) := by
    have h : (k : ℚ) * 2 ^ q < 2 ^ (f.fbits + 1) * 2 ^ q := calc
      (k : ℚ) * 2 ^ q < 2 ^ (e + m.log2 + 1) := hle.trans_lt hhigh
      _ ≤ 2 ^ ((f.fbits + 1 : Nat) + q : Int) := zpow_le_zpow_right₀ one_le_two (by omega)
      _ = _ := by rw [zpow_add₀ two_ne_zero, zpow_natCast]
    exact_mod_cast lt_of_mul_lt_mul_right h h2q.le
  refine ⟨⟨by omega, fun hk => ?_, hfull.le⟩, hfull⟩
  by_contra hne
  have h : (2 : ℚ) ^ f.fbits * 2 ^ q < (k + 1) * 2 ^ q := calc
    (2 : ℚ) ^ f.fbits * 2 ^ q = 2 ^ (e + m.log2) := by
      rw [← zpow_natCast, ← zpow_add₀ two_ne_zero]
      congr 1
      omega
    _ < (k + 1) * 2 ^ q := hlow.trans_lt hlt
  have : 2 ^ f.fbits < k + 1 := by exact_mod_cast lt_of_mul_lt_mul_right h h2q.le
  omega

/-- The magnitude t lies from the pattern a up, below the next, and b is the one of the two that the mode takes. -/
structure FloatFmt.Rounds (f : FloatFmt) (mode : RMode) (neg : Bool) (t : ℚ) (a b : Nat) : Prop where
  below : f.mag a ≤ t
  above : t < f.mag (a + 1)
  away : RoundsAway mode neg a (t - f.mag a) (f.ulp a) → b = a + 1
  stay : ¬ RoundsAway mode neg a (t - f.mag a) (f.ulp a) → b = a

/-- What round does with a finite value: one of the two neighbours, then the rule of overflow. -/
theorem FloatFmt.round_fin (hf : f.Wide) (mode : RMode) (neg : Bool) (m : Nat) (e : Int) :
    ∃ a b, f.Rounds mode neg (m * 2 ^ e) a b ∧ f.round mode (.fin neg m e) = f.clip mode neg b := by
  by_cases hm : m = 0
  · refine ⟨0, 0, ⟨by simp [hm], ?_, fun h => ?_, fun _ => rfl⟩, by simp [FloatFmt.round, FloatFmt.clip, hm]⟩
    · simpa [hm, FloatFmt.mag_succ] using f.ulp_pos 0
    · simp only [hm, FloatFmt.mag_zero, Nat.cast_zero, zero_mul, sub_self] at h
      exact absurd h (not_roundsAway_zero (f.ulp_pos 0))
  obtain ⟨k, hle, hlt, haway, hstay⟩ := roundAt_eq_floor_or_succ mode neg m e (f.roundExp m e)
  obtain ⟨hk, hfull⟩ := FloatFmt.normalised_floor hm rfl hle hlt
  obtain ⟨hmag, hulp, hodd⟩ := hk.mag_pattern_lt hf hfull
  refine ⟨f.pattern k (f.roundExp m e), _, ⟨hmag.le.trans hle, ?_, ?_, ?_⟩, f.round_of_ne_zero mode neg e hm⟩
  · rw [FloatFmt.mag_succ, hmag, hulp, ← add_one_mul]
    exact hlt
  · rw [hmag, hulp, roundsAway_congr_mod hodd]
    exact fun h => by rw [haway h, hk.pattern_succ hfull]
  · rw [hmag, hulp, roundsAway_congr_mod hodd]
    exact fun h => by rw [hstay h]

end

end Sys2Proof.Machine

end

section

/-! Rounding settled (O9; 06: R121, R122): the choice of each mode against every value of the format, and what lies beyond the largest. -/

set_option Elab.async false

namespace Sys2Proof.Machine

section

variable {f : FloatFmt} {mode : RMode} {neg : Bool} {m a b r : Nat} {e : Int} {t z : ℚ}

/-! ## Magnitudes -/

theorem FloatFmt.Rounds.eq_or_eq_succ (h : f.Rounds mode neg t a b) : b = a ∨ b = a + 1 := by
  by_cases ha : RoundsAway mode neg a (t - f.mag a) (f.ulp a)
  · exact .inr (h.away ha)
  · exact .inl (h.stay ha)

/-- No magnitude of the format lies strictly between the neighbours. -/
theorem FloatFmt.Rounds.mag_le_or_le_mag (h : f.Rounds mode neg t a b) (r : Nat) :
    r ≤ a ∧ f.mag r ≤ f.mag a ∧ |f.mag r - t| = t - f.mag r
    ∨ a + 1 ≤ r ∧ f.mag (a + 1) ≤ f.mag r ∧ |f.mag r - t| = f.mag r - t := by
  rcases Nat.lt_or_ge a r with hr | hr
  · have hm := f.mag_strictMono.monotone (Nat.succ_le_of_lt hr)
    exact .inr ⟨hr, hm, abs_of_nonneg (by have := h.above; simp only [Nat.succ_eq_add_one] at hm; linarith)⟩
  · have hm := f.mag_strictMono.monotone hr
    exact .inl ⟨hr, hm, by rw [abs_sub_comm]; exact abs_of_nonneg (by have := h.below; linarith)⟩

/-- To the nearest: no magnitude lies nearer, and one that lies as near as the result leaves it even. -/
theorem FloatFmt.Rounds.nearest (h : f.Rounds .rne neg t a b) (r : Nat) :
    |f.mag b - t| ≤ |f.mag r - t| ∧ (|f.mag b - t| = |f.mag r - t| → r ≠ b → b % 2 = 0) := by
  have hsucc := f.mag_succ a
  have hbelow := h.below
  have habove := h.above
  by_cases haway : f.ulp a < 2 * (t - f.mag a) ∨ 2 * (t - f.mag a) = f.ulp a ∧ a % 2 = 1
  · obtain rfl := h.away haway
    have hb : |f.mag (a + 1) - t| = f.mag (a + 1) - t := abs_of_nonneg (by linarith)
    have hhalf : f.ulp a ≤ 2 * (t - f.mag a) := by
      rcases haway with h1 | h1
      · exact h1.le
      · exact h1.1.ge
    rcases h.mag_le_or_le_mag r with ⟨hr, hm, habs⟩ | ⟨hr, hm, habs⟩ <;> rw [hb, habs]
    · refine ⟨by linarith, fun heq _ => ?_⟩
      rcases haway with h1 | h1
      · linarith
      · omega
    · exact ⟨by linarith, fun heq hne => absurd (f.mag_strictMono.injective (by linarith)) hne⟩
  · obtain rfl := h.stay haway
    have hb : |f.mag b - t| = t - f.mag b := by rw [abs_sub_comm]; exact abs_of_nonneg (by linarith)
    have hhalf : 2 * (t - f.mag b) ≤ f.ulp b := not_lt.mp fun h1 => haway (.inl h1)
    rcases h.mag_le_or_le_mag r with ⟨hr, hm, habs⟩ | ⟨hr, hm, habs⟩ <;> rw [hb, habs]
    · exact ⟨by linarith, fun heq hne => absurd (f.mag_strictMono.injective (by linarith)) hne⟩
    · refine ⟨by linarith, fun heq _ => ?_⟩
      by_contra hodd
      exact haway (.inr ⟨by linarith, by omega⟩)

/-- A mode that rounds toward zero takes the greatest magnitude not above. -/
theorem FloatFmt.Rounds.inward (h : f.Rounds mode neg t a b) (hm : mode = .rz ∨ mode = .ru ∧ neg = true ∨ mode = .rd ∧ neg = false) :
    f.mag b ≤ t ∧ ∀ r, f.mag r ≤ t → f.mag r ≤ f.mag b := by
  obtain rfl : b = a := h.stay (by rcases hm with rfl | ⟨rfl, rfl⟩ | ⟨rfl, rfl⟩ <;> simp [RoundsAway])
  refine ⟨h.below, fun r hr => ?_⟩
  rcases h.mag_le_or_le_mag r with ⟨-, hle, -⟩ | ⟨-, hle, -⟩
  · exact hle
  · have := h.above
    linarith

/-- A mode that rounds away from zero takes the least magnitude not below. -/
theorem FloatFmt.Rounds.outward (h : f.Rounds mode neg t a b) (hm : mode = .ru ∧ neg = false ∨ mode = .rd ∧ neg = true) :
    t ≤ f.mag b ∧ ∀ r, t ≤ f.mag r → f.mag b ≤ f.mag r := by
  have hiff : RoundsAway mode neg a (t - f.mag a) (f.ulp a) ↔ 0 < t - f.mag a := by
    rcases hm with ⟨rfl, rfl⟩ | ⟨rfl, rfl⟩ <;> simp [RoundsAway]
  by_cases hd : 0 < t - f.mag a
  · obtain rfl := h.away (hiff.mpr hd)
    refine ⟨h.above.le, fun r hr => ?_⟩
    rcases h.mag_le_or_le_mag r with ⟨-, hle, -⟩ | ⟨-, hle, -⟩
    · linarith
    · exact hle
  · obtain rfl := h.stay (fun ha => hd (hiff.mp ha))
    have hb := h.below
    exact ⟨by linarith, fun r hr => by linarith⟩

/-! ## Signed values -/

theorem FloatFmt.abs_signFactor_mag (f : FloatFmt) (neg : Bool) (r : Nat) : |signFactor neg * f.mag r| = f.mag r := by
  rw [abs_signFactor_mul, abs_of_nonneg (f.mag_nonneg r)]

/-- A value of the other sign lies no nearer than its magnitude does, and as near only when it is zero. -/
theorem FloatFmt.Rounds.nearest_signed (h : f.Rounds .rne neg t a b) (ht : 0 ≤ t) (hz : |z| = f.mag r) :
    |signFactor neg * f.mag b - signFactor neg * t| ≤ |z - signFactor neg * t|
    ∧ (|signFactor neg * f.mag b - signFactor neg * t| = |z - signFactor neg * t| → signFactor neg * f.mag b ≠ z → b % 2 = 0) := by
  obtain ⟨hle, htie⟩ := h.nearest r
  have hdist : |signFactor neg * f.mag b - signFactor neg * t| = |f.mag b - t| := by rw [← mul_sub, abs_signFactor_mul]
  have hfar : |f.mag r - t| ≤ |z - signFactor neg * t| := by
    have := abs_abs_sub_abs_le z (signFactor neg * t)
    rwa [hz, abs_signFactor_mul, abs_of_nonneg ht] at this
  refine ⟨hdist.trans_le (hle.trans hfar), fun heq hne => ?_⟩
  by_cases hr : r = b
  · subst hr
    have hneg : z = -(signFactor neg * f.mag r) := by
      rcases abs_eq_abs.mp (hz.trans (f.abs_signFactor_mag neg r).symm) with h1 | h1
      · exact absurd h1.symm hne
      · exact h1
    have hzero : signFactor neg * f.mag r = 0 := by
      rw [hneg] at heq
      rcases abs_eq_abs.mp heq with h1 | h1
      · linarith
      · have ht0 : t = 0 := abs_eq_zero.mp (by rw [← abs_signFactor_mul neg, abs_eq_zero]; linarith)
        have h0 := (h.nearest 0).1
        rw [ht0, f.mag_zero, sub_zero, sub_zero, abs_zero] at h0
        rw [abs_nonpos_iff.mp h0, mul_zero]
    exact absurd (by rw [hneg, hzero, neg_zero]) hne
  · exact htie (le_antisymm hle (hfar.trans (heq.symm.trans hdist).le)) hr

theorem FloatFmt.Rounds.toward_zero_signed (h : f.Rounds .rz neg t a b) (ht : 0 ≤ t) (hz : |z| = f.mag r) :
    |signFactor neg * f.mag b| ≤ |signFactor neg * t| ∧ (|z| ≤ |signFactor neg * t| → |z| ≤ |signFactor neg * f.mag b|) := by
  obtain ⟨hle, hgreatest⟩ := h.inward (.inl rfl)
  rw [f.abs_signFactor_mag, abs_signFactor_mul, abs_of_nonneg ht, hz]
  exact ⟨hle, hgreatest r⟩

theorem FloatFmt.Rounds.upward_signed (h : f.Rounds .ru neg t a b) (ht : 0 ≤ t) (hz : |z| = f.mag r) :
    signFactor neg * t ≤ signFactor neg * f.mag b ∧ (signFactor neg * t ≤ z → signFactor neg * f.mag b ≤ z) := by
  cases neg with
  | false =>
    obtain ⟨hle, hleast⟩ := h.outward (.inl ⟨rfl, rfl⟩)
    simp only [signFactor, Bool.false_eq_true, if_false, one_mul]
    exact ⟨hle, fun hx => by rw [abs_of_nonneg (ht.trans hx)] at hz; exact hz ▸ hleast r (hz ▸ hx)⟩
  | true =>
    obtain ⟨hle, hgreatest⟩ := h.inward (.inr (.inl ⟨rfl, rfl⟩))
    simp only [signFactor, if_true, neg_one_mul]
    refine ⟨neg_le_neg hle, fun hx => ?_⟩
    rcases le_or_gt 0 z with h0 | h0
    · exact (neg_nonpos.mpr (f.mag_nonneg b)).trans h0
    · rw [abs_of_neg h0] at hz
      have := hgreatest r (by linarith)
      linarith

/-- Rounding down is rounding the negated value up. -/
theorem FloatFmt.Rounds.up_of_down (h : f.Rounds .rd neg t a b) : f.Rounds .ru (!neg) t a b := by
  have hiff : RoundsAway .ru (!neg) a (t - f.mag a) (f.ulp a) ↔ RoundsAway .rd neg a (t - f.mag a) (f.ulp a) := by
    simp [RoundsAway]
  exact ⟨h.below, h.above, fun ha => h.away (hiff.mp ha), fun ha => h.stay fun hb => ha (hiff.mpr hb)⟩

theorem FloatFmt.Rounds.downward_signed (h : f.Rounds .rd neg t a b) (ht : 0 ≤ t) (hz : |z| = f.mag r) :
    signFactor neg * f.mag b ≤ signFactor neg * t ∧ (z ≤ signFactor neg * t → z ≤ signFactor neg * f.mag b) := by
  obtain ⟨hle, hleast⟩ := h.up_of_down.upward_signed ht (by rwa [abs_neg] : |-z| = f.mag r)
  rw [signFactor_not, neg_mul, neg_mul] at hle hleast
  exact ⟨neg_le_neg_iff.mp hle, fun hz => neg_le_neg_iff.mp (hleast (neg_le_neg hz))⟩

/-! ## Within the range -/

/-- A magnitude that the format reaches rounds to one of its patterns. -/
theorem FloatFmt.Rounds.le_maxBits (h : f.Rounds mode neg t a b) (ht : t ≤ f.mag (f.maxBits false)) : b ≤ f.maxBits false := by
  have ha : a ≤ f.maxBits false := f.mag_strictMono.le_iff_le.mp (h.below.trans ht)
  rcases ha.lt_or_eq with hlt | heq
  · rcases h.eq_or_eq_succ with rfl | rfl <;> omega
  · have hd : t - f.mag a = 0 := by rw [sub_eq_zero]; exact le_antisymm (heq ▸ ht) h.below
    rw [h.stay (by rw [hd]; exact not_roundsAway_zero (f.ulp_pos a))]
    exact ha

theorem FloatFmt.clip_of_le (h : b ≤ f.maxBits false) : f.clip mode neg b = f.sign neg + b := if_pos h

theorem roundedInRange : Claims.RoundedInRange := by
  intro f hmem neg m e x top hx htop hle mode
  have hf := FloatFmt.wide_of_mem hmem
  rw [FVal.rat_fin, Option.some.injEq] at hx
  rw [FloatFmt.rat_decode_maxBits hf, Option.some.injEq] at htop
  have ht : (0 : ℚ) ≤ m * 2 ^ e := by positivity
  rw [← hx, ← htop, abs_signFactor_mul, abs_of_nonneg ht] at hle
  obtain ⟨a, b, hr, hround⟩ := FloatFmt.round_fin hf mode neg m e
  have hb := hr.le_maxBits hle
  rw [hround, FloatFmt.clip_of_le hb]
  refine ⟨_, FloatFmt.rat_decode_sign_add hf neg hb, FloatFmt.sign_add_div hf neg hb, fun p hp z hz => ?_⟩
  obtain ⟨r, -, hzr⟩ := FloatFmt.abs_eq_mag_of_rat_decode hf hp hz
  subst hx
  cases mode with
  | rne =>
    obtain ⟨hnear, htie⟩ := hr.nearest_signed ht hzr
    refine ⟨hnear, fun heq hne => ?_⟩
    rw [hround, FloatFmt.clip_of_le hb, FloatFmt.sign_add_mod_two hf]
    exact htie heq hne
  | rz =>
    obtain ⟨hin, hgreatest⟩ := hr.toward_zero_signed ht hzr
    exact ⟨hin, fun hz _ => hgreatest hz⟩
  | ru => exact hr.upward_signed ht hzr
  | rd => exact hr.downward_signed ht hzr

/-! ## Beyond the range -/

/-- From where on the magnitude t, above the largest one top, gives an infinity (06: R122). -/
def FloatFmt.Overflows (f : FloatFmt) (mode : RMode) (neg : Bool) (top t : ℚ) : Prop :=
  match mode with
  | .rne => top + (2 : ℚ) ^ ((2 ^ f.ebits - 2 : Int) - f.bias - f.fbits) / 2 ≤ t
  | .rz => False
  | .ru => neg = false
  | .rd => neg = true

/-- A format with infinities ends at an odd pattern, with the last exponent but one. -/
theorem FloatFmt.maxBits_eq_of_inf (hf : f.Wide) (hi : f.noInf = false) :
    f.maxBits false = (2 ^ f.ebits - 2) * 2 ^ f.fbits + (2 ^ f.fbits - 1) := by
  have hF := FloatFmt.two_le_two_pow_fbits hf
  have hE := FloatFmt.four_le_two_pow_ebits hf
  rw [FloatFmt.maxBits_false, hi]
  generalize 2 ^ f.fbits = F at *
  obtain ⟨Y, hY⟩ : ∃ Y, 2 ^ f.ebits = Y + 2 := ⟨2 ^ f.ebits - 2, by omega⟩
  simp only [hY, Bool.false_eq_true, if_false, Nat.add_sub_cancel, (by omega : Y + 2 - 1 = Y + 1), mul_comm F, add_one_mul]
  omega

theorem FloatFmt.maxBits_odd (hf : f.Wide) (hi : f.noInf = false) : f.maxBits false % 2 = 1 := by
  have hF := FloatFmt.two_le_two_pow_fbits hf
  obtain ⟨c, hc⟩ : 2 ∣ 2 ^ f.fbits := dvd_pow_self 2 (by have := hf.fbits; omega)
  rw [FloatFmt.maxBits_eq_of_inf hf hi, hc, mul_left_comm]
  omega

theorem FloatFmt.ulp_maxBits (hf : f.Wide) (hi : f.noInf = false) :
    f.ulp (f.maxBits false) = 2 ^ ((2 ^ f.ebits - 2 : Int) - f.bias - f.fbits) := by
  have hE := FloatFmt.four_le_two_pow_ebits hf
  have hF := FloatFmt.two_le_two_pow_fbits hf
  rw [FloatFmt.maxBits_eq_of_inf hf hi, FloatFmt.ulp_normal (by omega) (by omega), Nat.cast_sub (by omega)]
  push_cast
  rfl

theorem FloatFmt.infBits_eq_of_inf (hi : f.noInf = false) : f.infBits neg = f.sign neg + (2 ^ f.ebits - 1) * 2 ^ f.fbits := by
  simp [FloatFmt.infBits, hi]

theorem FloatFmt.infBits_eq_of_noInf (hi : f.noInf = true) : f.infBits neg = f.maxBits neg := by
  simp [FloatFmt.infBits, FloatFmt.maxBits, hi]

/-- A rounded magnitude above the largest is an infinity where the mode rounds away from zero, else the largest. -/
theorem FloatFmt.clip_of_lt (h : f.maxBits false < b) :
    f.clip mode neg b = if mode = .rne ∨ mode = .ru ∧ neg = false ∨ mode = .rd ∧ neg = true then f.infBits neg else f.maxBits neg := by
  unfold FloatFmt.clip
  rw [if_neg (not_le.mpr h)]
  cases mode <;> cases neg <;> simp

theorem FloatFmt.clip_maxBits (f : FloatFmt) (mode : RMode) (neg : Bool) : f.clip mode neg (f.maxBits false) = f.maxBits neg := by
  rw [FloatFmt.clip_of_le le_rfl, ← FloatFmt.maxBits_eq]

theorem FloatFmt.Rounds.maxBits_le (h : f.Rounds mode neg t a b) (ht : f.mag (f.maxBits false) < t) : f.maxBits false ≤ a :=
  Nat.le_of_lt_succ (f.mag_strictMono.lt_iff_lt.mp (ht.trans h.above))

/-- To the nearest, a magnitude above the largest rounds past it from half a unit on, since the largest pattern is odd. -/
theorem FloatFmt.Rounds.maxBits_lt_iff (hf : f.Wide) (hi : f.noInf = false) (h : f.Rounds .rne neg t a b)
    (ht : f.mag (f.maxBits false) < t) :
    f.maxBits false < b ↔ f.Overflows .rne neg (f.mag (f.maxBits false)) t := by
  rw [FloatFmt.Overflows, ← FloatFmt.ulp_maxBits hf hi]
  have hu := f.ulp_pos (f.maxBits false)
  rcases (h.maxBits_le ht).lt_or_eq with ha | ha
  · have hsucc := f.mag_strictMono.monotone (Nat.succ_le_of_lt ha)
    rw [Nat.succ_eq_add_one, FloatFmt.mag_succ] at hsucc
    have hbelow := h.below
    exact iff_of_true (by rcases h.eq_or_eq_succ with rfl | rfl <;> omega) (by linarith)
  · subst ha
    have hodd := FloatFmt.maxBits_odd hf hi
    by_cases haway : RoundsAway .rne neg (f.maxBits false) (t - f.mag (f.maxBits false)) (f.ulp (f.maxBits false))
    · refine iff_of_true (by rw [h.away haway]; omega) ?_
      rcases haway with h1 | ⟨h1, -⟩ <;> linarith
    · refine iff_of_false (by rw [h.stay haway]; omega) fun hle => haway ?_
      rcases (by linarith : f.ulp (f.maxBits false) ≤ 2 * (t - f.mag (f.maxBits false))).lt_or_eq with h1 | h1
      · exact .inl h1
      · exact .inr ⟨h1.symm, hodd⟩

/-- A magnitude above the largest becomes an infinity where overflow begins, else the largest. -/
theorem FloatFmt.Rounds.clip_beyond (hf : f.Wide) (hi : f.noInf = false) (h : f.Rounds mode neg t a b)
    (ht : f.mag (f.maxBits false) < t) :
    (f.Overflows mode neg (f.mag (f.maxBits false)) t → f.clip mode neg b = f.infBits neg)
    ∧ (¬ f.Overflows mode neg (f.mag (f.maxBits false)) t → f.clip mode neg b = f.maxBits neg) := by
  have hle : f.maxBits false ≤ b := by
    have := h.maxBits_le ht
    rcases h.eq_or_eq_succ with rfl | rfl <;> omega
  have hpast (ho : mode = .ru ∧ neg = false ∨ mode = .rd ∧ neg = true) : f.maxBits false < b :=
    f.mag_strictMono.lt_iff_lt.mp (ht.trans_le (h.outward ho).1)
  rcases hle.eq_or_lt with rfl | hlt
  · rw [FloatFmt.clip_maxBits]
    refine ⟨fun ho => ?_, fun _ => rfl⟩
    cases mode with
    | rne => exact absurd ((h.maxBits_lt_iff hf hi ht).mpr ho) (lt_irrefl _)
    | rz => exact ho.elim
    | ru => exact absurd (hpast (.inl ⟨rfl, ho⟩)) (lt_irrefl _)
    | rd => exact absurd (hpast (.inr ⟨rfl, ho⟩)) (lt_irrefl _)
  · rw [FloatFmt.clip_of_lt hlt]
    cases mode with
    | rne => exact ⟨fun _ => rfl, fun ho => absurd ((h.maxBits_lt_iff hf hi ht).mp hlt) ho⟩
    | rz => exact ⟨fun ho => ho.elim, fun _ => rfl⟩
    | ru => cases neg <;> simp [FloatFmt.Overflows]
    | rd => cases neg <;> simp [FloatFmt.Overflows]

/-- A format without infinities keeps its largest value (06: R122). -/
theorem FloatFmt.Rounds.clip_beyond_of_noInf (hi : f.noInf = true) (h : f.Rounds mode neg t a b)
    (ht : f.mag (f.maxBits false) < t) : f.clip mode neg b = f.maxBits neg := by
  have hle : f.maxBits false ≤ b := by
    have := h.maxBits_le ht
    rcases h.eq_or_eq_succ with rfl | rfl <;> omega
  rcases hle.eq_or_lt with rfl | hlt
  · exact f.clip_maxBits mode neg
  · rw [FloatFmt.clip_of_lt hlt, FloatFmt.infBits_eq_of_noInf hi, ite_self]

theorem FloatFmt.infBits_of_mem (hf : f ∈ [f64, f32, f16, bf16, e4m3, e5m2]) :
    f.infBits neg = neg.toNat * 2 ^ (f.ebits + f.fbits) + if f = e4m3 then 0x7E else (2 ^ f.ebits - 1) * 2 ^ f.fbits := by
  rw [FloatFmt.infBits, FloatFmt.sign_eq]
  congr 1
  simp only [List.mem_cons, List.not_mem_nil, or_false] at hf
  rcases hf with rfl | rfl | rfl | rfl | rfl | rfl <;> decide

theorem FloatFmt.maxBits_of_mem (hf : f ∈ [f64, f32, f16, bf16, e4m3, e5m2]) :
    f.maxBits neg = neg.toNat * 2 ^ (f.ebits + f.fbits) + if f = e4m3 then 0x7E else (2 ^ f.ebits - 1) * 2 ^ f.fbits - 1 := by
  rw [FloatFmt.maxBits, FloatFmt.sign_eq]
  congr 1
  simp only [List.mem_cons, List.not_mem_nil, or_false] at hf
  rcases hf with rfl | rfl | rfl | rfl | rfl | rfl <;> decide

theorem FloatFmt.nan_of_mem (hf : f ∈ [f64, f32, f16, bf16, e4m3, e5m2]) :
    f.nan = if f = e4m3 then 0x7F else (2 ^ f.ebits - 1) * 2 ^ f.fbits + 2 ^ (f.fbits - 1) := by
  simp only [List.mem_cons, List.not_mem_nil, or_false] at hf
  rcases hf with rfl | rfl | rfl | rfl | rfl | rfl <;> decide

theorem roundedBeyond : Claims.RoundedBeyond := by
  intro f hmem neg mode
  have hf := FloatFmt.wide_of_mem hmem
  refine ⟨fun m e x top hx htop hlt => ?_, FloatFmt.nan_of_mem hmem, FloatFmt.infBits_of_mem hmem, fun e => ?_⟩
  · have key : (f.Overflows mode neg top |x| → f.round mode (.fin neg m e) = f.infBits neg)
        ∧ (¬ f.Overflows mode neg top |x| → f.round mode (.fin neg m e) = f.maxBits neg) := by
      rw [FVal.rat_fin, Option.some.injEq] at hx
      rw [FloatFmt.rat_decode_maxBits hf, Option.some.injEq] at htop
      rw [← htop, ← hx, abs_signFactor_mul, abs_of_nonneg (by positivity)] at hlt ⊢
      obtain ⟨a, b, hr, hround⟩ := FloatFmt.round_fin hf mode neg m e
      rw [hround]
      cases hi : f.noInf with
      | false => exact hr.clip_beyond hf hi hlt
      | true =>
        rw [FloatFmt.infBits_eq_of_noInf hi, hr.clip_beyond_of_noInf hi hlt]
        exact ⟨fun _ => rfl, fun _ => rfl⟩
    rw [FloatFmt.infBits_of_mem hmem, FloatFmt.maxBits_of_mem hmem] at key
    exact key
  · rw [← f.sign_eq neg, FloatFmt.round, if_pos rfl]

end

/-- Settles O9: the patterns of a format stand in the order of their magnitudes; a mode takes the pattern below the value or the next, by
the test of its rule, and the largest pattern of a format with infinities is odd, so that the nearest overflows from half a unit on. -/
theorem roundingModes : Obligations.RoundingModes := ⟨roundedInRange, roundedBeyond⟩

end Sys2Proof.Machine

end

section

/-! Stochastic rounding and the lane generator (O15; 06: R124, R125; 10: R199, R200). -/

set_option Elab.async false

namespace Sys2Proof.Machine

section

variable {f : FloatFmt} {m : Nat} {e E : Int} {neg : Bool} {x : BitVec 32} {g : BitVec 16}

/-! ## Stochastic rounding -/

theorem roundAt_rz (neg : Bool) (m : Nat) (e q : Int) :
    (roundAt .rz neg m e q : ℚ) * 2 ^ q ≤ m * 2 ^ e ∧ (m : ℚ) * 2 ^ e < (roundAt .rz neg m e q + 1) * 2 ^ q := by
  obtain ⟨k, hle, hlt, -, hstay⟩ := roundAt_eq_floor_or_succ .rz neg m e q
  rw [hstay (by simp [RoundsAway])]
  exact ⟨hle, hlt⟩

theorem roundAt_rz_eq_floor (neg : Bool) (m : Nat) (e q : Int) : (roundAt .rz neg m e q : Int) = ⌊(m * 2 ^ e : ℚ) / 2 ^ q⌋ := by
  have hq : (0 : ℚ) < 2 ^ q := zpow_pos two_pos q
  obtain ⟨hle, hlt⟩ := roundAt_rz neg m e q
  symm
  rw [Int.floor_eq_iff, le_div_iff₀ hq, div_lt_iff₀ hq]
  exact ⟨by exact_mod_cast hle, by exact_mod_cast hlt⟩

/-- The whole multiple that stochastic rounding takes: 16 bits below the unit in the last place, and the 16 random bits. -/
def FloatFmt.drawn (f : FloatFmt) (m : Nat) (e : Int) (g : BitVec 16) : Nat :=
  (roundAt .rz false m e (f.roundExp m e - 16) + g.toNat) / 2 ^ 16

theorem stochastic_of_fin (hx : f32.decode x.toNat = .fin neg m e) (hm : m ≠ 0) :
    stochastic f x g = f.clip .rne neg (f.pattern (f.drawn m e g) (f.roundExp m e)) := by
  rw [← FloatFmt.pack_eq_clip]
  simp only [stochastic, val32, hx, if_neg hm]
  rfl

/-- The draw gives the multiple below or the next, so what it gives is normalised. -/
theorem FloatFmt.normalised_drawn (hm : m ≠ 0) : f.Normalised (f.drawn m e g) (f.roundExp m e) := by
  obtain ⟨hle, hlt⟩ := roundAt_rz false m e (f.roundExp m e - 16)
  have hunit : (2 : ℚ) ^ f.roundExp m e = 2 ^ 16 * 2 ^ (f.roundExp m e - 16) := by
    rw [← zpow_natCast, ← zpow_add₀ two_ne_zero]
    congr 1
    ring
  have hpos : (0 : ℚ) < 2 ^ (f.roundExp m e - 16) := zpow_pos two_pos _
  rw [FloatFmt.drawn]
  generalize roundAt .rz false m e (f.roundExp m e - 16) = N at *
  have hlow : ((N / 2 ^ 16 : Nat) : ℚ) * 2 ^ 16 ≤ N := by exact_mod_cast Nat.div_mul_le_self N (2 ^ 16)
  have hhigh : (N : ℚ) + 1 ≤ ((N / 2 ^ 16 : Nat) + 1) * 2 ^ 16 := by exact_mod_cast (by omega : N + 1 ≤ (N / 2 ^ 16 + 1) * 2 ^ 16)
  obtain ⟨hk, hfull⟩ := FloatFmt.normalised_floor (f := f) (k := N / 2 ^ 16) hm rfl
    (by rw [hunit, ← mul_assoc]; exact (mul_le_mul_of_nonneg_right hlow hpos.le).trans hle)
    (by rw [hunit, ← mul_assoc]; exact hlt.trans_le (mul_le_mul_of_nonneg_right hhigh hpos.le))
  have hg := g.isLt
  exact ⟨hk.least, fun h => hk.subnormal (by omega), by omega⟩

theorem FloatFmt.drawn_eq_floor (f : FloatFmt) (m : Nat) (e : Int) (g : BitVec 16) :
    (f.drawn m e g : Int) = (⌊(m * 2 ^ e : ℚ) / 2 ^ f.roundExp m e * 2 ^ 16⌋ + g.toNat) / 2 ^ 16 := by
  have hunit : (m * 2 ^ e : ℚ) / 2 ^ (f.roundExp m e - 16) = m * 2 ^ e / 2 ^ f.roundExp m e * 2 ^ 16 := by
    rw [zpow_sub₀ two_ne_zero, div_div_eq_mul_div, mul_div_right_comm]
    rfl
  rw [FloatFmt.drawn, Int.natCast_div, Nat.cast_add, roundAt_rz_eq_floor, hunit]
  rfl

/-- The exponent of a magnitude is determined by the powers of two around it. -/
theorem eq_log2_of_zpow (hm : m ≠ 0) (hle : (2 : ℚ) ^ E ≤ m * 2 ^ e) (hlt : (m * 2 ^ e : ℚ) < 2 ^ (E + 1)) : E = e + m.log2 := by
  obtain ⟨hlow, hhigh⟩ := zpow_log2_le_lt hm e
  have h1 := (zpow_lt_zpow_iff_right₀ (one_lt_two (α := ℚ))).mp (hle.trans_lt hhigh)
  have h2 := (zpow_lt_zpow_iff_right₀ (one_lt_two (α := ℚ))).mp (hlow.trans_lt hlt)
  omega

/-- The magnitude that the pattern of an infinity would have. -/
theorem FloatFmt.mag_maxBits_succ (hf : f.Wide) (hi : f.noInf = false) : f.mag (f.maxBits false + 1) = 2 ^ (f.bias + 1) := by
  have hF := FloatFmt.two_le_two_pow_fbits hf
  have hE := FloatFmt.two_pow_ebits hf
  have hmax : f.maxBits false + 1 = (2 * f.bias + 1) * 2 ^ f.fbits + 0 := by
    rw [FloatFmt.maxBits_eq_of_inf hf hi, hE, Nat.add_sub_cancel, add_one_mul]
    omega
  have hexp : ((2 * f.bias + 1 : Nat) : Int) - f.bias - f.fbits = (f.bias + 1 : Nat) - (f.fbits : Nat) := by push_cast; ring
  rw [hmax, FloatFmt.mag_normal (by omega) (by omega), hexp, zpow_sub₀ two_ne_zero, zpow_natCast, zpow_natCast]
  push_cast
  field_simp
  ring

theorem stochasticRounding : Claims.StochasticRounding := by
  intro f hmem x g
  have hf : f.Wide := FloatFmt.wide_of_mem (by
    simp only [List.mem_cons, List.not_mem_nil, or_false] at hmem ⊢
    tauto)
  have hi : f.noInf = false := by
    simp only [List.mem_cons, List.not_mem_nil, or_false] at hmem
    rcases hmem with rfl | rfl <;> rfl
  cases hx : f32.decode x.toNat with
  | nan => simp [stochastic, val32, hx, FloatFmt.nan, hi]
  | inf neg => simp [stochastic, val32, hx, FloatFmt.infBits_eq_of_inf hi, FloatFmt.sign_eq]
  | fin neg m e =>
    by_cases hm : m = 0
    · simp [stochastic, val32, hx, hm, FloatFmt.sign_eq]
    simp only [if_neg hm]
    intro E hle hlt
    obtain rfl := eq_log2_of_zpow hm hle hlt
    have hover : (2 : ℚ) ^ (f.bias + 1) ≤ f.drawn m e g * 2 ^ f.roundExp m e
        ↔ f.maxBits false < f.pattern (f.drawn m e g) (f.roundExp m e) := by
      rw [← (FloatFmt.normalised_drawn hm).mag_pattern hf, ← FloatFmt.mag_maxBits_succ hf hi, f.mag_strictMono.le_iff_le]
      exact Iff.rfl
    have hdrawn := f.drawn_eq_floor m e g
    rw [FloatFmt.roundExp] at hdrawn
    rw [← hdrawn, Int.cast_natCast, ← FloatFmt.roundExp, stochastic_of_fin hx hm]
    split
    · rename_i h
      rw [FloatFmt.clip_of_lt (hover.mp h), if_pos (.inl rfl), FloatFmt.infBits_eq_of_inf hi, FloatFmt.sign_eq]
    · rename_i h
      have hle : f.pattern (f.drawn m e g) (f.roundExp m e) ≤ f.maxBits false := not_lt.mp fun hlt => h (hover.mpr hlt)
      rw [FloatFmt.clip_of_le hle, FloatFmt.rat_decode_sign_add hf neg hle, (FloatFmt.normalised_drawn hm).mag_pattern hf,
        FloatFmt.sign_add_div hf neg hle]
      exact ⟨rfl, rfl⟩

/-! ## The lane generator -/

theorem Group.foldl_id {α : Type} (step : Group → α → Group) (hstep : ∀ g a, (step g a).id = g.id) (as : List α) (g : Group) :
    (as.foldl step g).id = g.id := by
  induction as generalizing g with
  | nil => rfl
  | cons a r ih => rw [List.foldl_cons, ih, hstep]

theorem Group.setLanesIn_id (ls : List Nat) (mask : BitVec 32) (n : Nat) (val : Nat → BitVec 32) (g : Group) :
    (Group.setLanesIn ls mask n val g).id = g.id := by
  obtain ⟨v, hv⟩ := Group.setLanesIn_eq ls mask n val g
  rw [hv]

theorem Group.movePend_id (g : Group) (slot : Nat) (p : Pend) : (g.movePend slot p).id = g.id := by
  unfold Group.movePend
  cases p.uniform with
  | true => rfl
  | false => exact Group.foldl_id _ (fun h j => Group.setLanesIn_id _ _ _ _ h) _ _

theorem Group.settleOne_id (closer : Bool) (set : BitVec 32) (g : Group) (p : Nat × Pend) :
    (Group.settleOne closer set g p).id = g.id := by
  unfold Group.settleOne
  split
  · rfl
  · split
    · exact Group.movePend_id _ _ _
    · rfl

/-- The issue of a word does not change which group it is. -/
@[simp] theorem Group.atIssue_id (g : Group) (i : Instr) (is : Issue) : (g.atIssue i is).id = g.id :=
  Group.foldl_id _ (Group.settleOne_id _ _) _ _

/-- RandomWord in whole numbers modulo 2^64 with the multipliers j, k, a and b (06: R125). -/
def mixNat (j k a b seed stream counter : Nat) : Nat :=
  let z := (seed + stream * j + counter * k) % 2 ^ 64
  let z := (z ^^^ (z / 2 ^ 30)) * a % 2 ^ 64
  let z := (z ^^^ (z / 2 ^ 27)) * b % 2 ^ 64
  (z ^^^ (z / 2 ^ 31)) / 2 ^ 32 % 2 ^ 32

/-- RandomWord with the multipliers j, k, a and b. -/
def mixWord (j k a b seed stream : BitVec 64) (counter : BitVec 32) : BitVec 32 :=
  let z := seed + stream * j + counter.setWidth 64 * k
  let z := (z ^^^ (z >>> 30)) * a
  let z := (z ^^^ (z >>> 27)) * b
  let z := z ^^^ (z >>> 31)
  z.extractLsb' 32 32

theorem toNat_xorShift (z : BitVec 64) (n : Nat) : (z ^^^ (z >>> n)).toNat = z.toNat ^^^ (z.toNat / 2 ^ n) := by
  rw [BitVec.toNat_xor, BitVec.toNat_ushiftRight, Nat.shiftRight_eq_div_pow]

theorem toNat_weighted_sum (seed j k : BitVec 64) (stream : Nat) (c : BitVec 32) :
    (seed + BitVec.ofNat 64 stream * j + c.setWidth 64 * k).toNat = (seed.toNat + stream * j.toNat + c.toNat * k.toNat) % 2 ^ 64 := by
  simp [BitVec.toNat_add, BitVec.toNat_mul, Nat.add_mod, Nat.mul_mod]

theorem toNat_mixWord (j k a b seed : BitVec 64) (stream : Nat) (c : BitVec 32) :
    (mixWord j k a b seed (BitVec.ofNat 64 stream) c).toNat = mixNat j.toNat k.toNat a.toNat b.toNat seed.toNat stream c.toNat := by
  simp only [mixWord, mixNat, BitVec.extractLsb'_toNat, toNat_xorShift, BitVec.toNat_mul, toNat_weighted_sum,
    Nat.shiftRight_eq_div_pow]

theorem randomWord_eq_mixWord (seed stream : BitVec 64) (c : BitVec 32) : randomWord seed stream c =
    mixWord 0x9E3779B97F4A7C15#64 0xD1B54A32D192ED03#64 0xBF58476D1CE4E5B9#64 0x94D049BB133111EB#64 seed stream c := rfl

theorem mixNat_lt (j k a b seed stream counter : Nat) : mixNat j k a b seed stream counter < 2 ^ 32 := Nat.mod_lt _ (by norm_num)

/-- RandomWord in whole numbers, of a launch seed, a stream and a counter. -/
def randomNat (seed stream counter : Nat) : Nat :=
  mixNat 0x9E3779B97F4A7C15 0xD1B54A32D192ED03 0xBF58476D1CE4E5B9 0x94D049BB133111EB seed stream counter

theorem randomWord_eq (seed : BitVec 64) (stream : Nat) (c : BitVec 32) :
    randomWord seed (BitVec.ofNat 64 stream) c = BitVec.ofNat 32 (randomNat seed.toNat stream c.toNat) := by
  apply BitVec.eq_of_toNat_eq
  rw [BitVec.toNat_ofNat, randomNat, Nat.mod_eq_of_lt (mixNat_lt ..), randomWord_eq_mixWord, toNat_mixWord]
  rfl

theorem State.random_eq (s : State) {g g₀ : Group} (hid : g.id = g₀.id) (l : Nat) (c : BitVec 32) :
    s.random g l c =
      BitVec.ofNat 32 (randomNat (s.seedOf g₀).toNat ((s.workgroupId g₀ * 16 + g₀.id.grpid) * 32 + l) c.toNat) := by
  rw [State.random, randomWord_eq]
  simp only [State.seedOf, State.workgroupId, State.gangidOf, State.perGang, hid]

/-! ## The words -/

/-- Both 16-bit formats pack into 16 bits. -/
theorem stochastic_lt (hf : f ∈ [bf16, f16]) : stochastic f x g < 2 ^ 16 := by
  have hconst : f.nan < 2 ^ 16 ∧ ∀ neg, f.sign neg < 2 ^ 16 ∧ f.infBits neg < 2 ^ 16 ∧ f.maxBits neg < 2 ^ 16 := by
    simp only [List.mem_cons, List.not_mem_nil, or_false] at hf
    rcases hf with rfl | rfl <;> decide
  obtain ⟨hnan, hsigned⟩ := hconst
  cases hx : f32.decode x.toNat with
  | nan => simpa [stochastic, val32, hx] using hnan
  | inf neg => simpa [stochastic, val32, hx] using (hsigned neg).2.1
  | fin neg m e =>
    obtain ⟨hsign, hinf, hmax⟩ := hsigned neg
    by_cases hm : m = 0
    · simpa [stochastic, val32, hx, hm] using hsign
    rw [stochastic_of_fin hx hm, FloatFmt.clip]
    split
    · rename_i h
      rw [FloatFmt.maxBits_eq] at hmax
      omega
    · exact hinf

theorem packHalves_eq (v : Nat → Nat) (h0 : v 0 < 2 ^ 16) (h1 : v 16 < 2 ^ 16) :
    packHalves v = BitVec.ofNat 32 (v 0 + 2 ^ 16 * v 16) := by
  apply BitVec.eq_of_toNat_eq
  rw [packHalves, BitVec.toNat_append, BitVec.toNat_ofNat, BitVec.toNat_ofNat, BitVec.toNat_ofNat, Nat.mod_eq_of_lt h0,
    Nat.mod_eq_of_lt h1, ← Nat.shiftLeft_add_eq_or_of_lt h0, Nat.shiftLeft_eq]
  omega

theorem extractLsb'_ofNat (w i j n : Nat) (h : i + j ≤ w) : (BitVec.ofNat w n).extractLsb' i j = BitVec.ofNat j (n / 2 ^ i) := by
  apply BitVec.eq_of_toNat_eq
  have hw : 2 ^ w = 2 ^ i * 2 ^ (w - i) := by rw [← pow_add]; congr 1; omega
  rw [BitVec.extractLsb'_toNat, BitVec.toNat_ofNat, BitVec.toNat_ofNat, Nat.shiftRight_eq_div_pow, hw, Nat.mod_mul_right_div_self,
    Nat.mod_mod_of_dvd _ (Nat.pow_dvd_pow 2 (by omega))]

/-- The two results of a packed form, of the two words of a pair and the two halves of the random word n. -/
theorem packHalves_stochastic (hf : f ∈ [bf16, f16]) (v : BitVec 64) (n : Nat) :
    packHalves (fun e => stochastic f (v.extractLsb' (2 * e) 32) ((BitVec.ofNat 32 n).extractLsb' e 16))
      = BitVec.ofNat 32 (stochastic f (BitVec.ofNat 32 (v.toNat % 2 ^ 32)) (BitVec.ofNat 16 n)
        + 2 ^ 16 * stochastic f (BitVec.ofNat 32 (v.toNat / 2 ^ 32)) (BitVec.ofNat 16 (n / 2 ^ 16))) := by
  have hlow : v.extractLsb' (2 * 0) 32 = BitVec.ofNat 32 (v.toNat % 2 ^ 32) := by
    apply BitVec.eq_of_toNat_eq
    simp [BitVec.extractLsb'_toNat]
  have hhigh : v.extractLsb' (2 * 16) 32 = BitVec.ofNat 32 (v.toNat / 2 ^ 32) := by
    apply BitVec.eq_of_toNat_eq
    rw [BitVec.extractLsb'_toNat, BitVec.toNat_ofNat, Nat.shiftRight_eq_div_pow]
  have hg0 : (BitVec.ofNat 32 n).extractLsb' 0 16 = BitVec.ofNat 16 n := by
    rw [extractLsb'_ofNat _ _ _ _ (by norm_num), pow_zero, Nat.div_one]
  have hg1 : (BitVec.ofNat 32 n).extractLsb' 16 16 = BitVec.ofNat 16 (n / 2 ^ 16) := extractLsb'_ofNat _ _ _ _ (by norm_num)
  rw [packHalves_eq _ (stochastic_lt hf) (stochastic_lt hf), hlow, hhigh, hg0, hg1]

/-- The result of a single form, of one word and the low half of the random word n. -/
theorem stochastic_setWidth (f : FloatFmt) (v : BitVec 32) (n : Nat) :
    stochastic f ((v.setWidth 64).setWidth 32) ((BitVec.ofNat 32 n).setWidth 16)
      = stochastic f (BitVec.ofNat 32 v.toNat) (BitVec.ofNat 16 n) := by
  have hv : (v.setWidth 64).setWidth 32 = BitVec.ofNat 32 v.toNat := by
    apply BitVec.eq_of_toNat_eq
    simp
  have hn : (BitVec.ofNat 32 n).setWidth 16 = BitVec.ofNat 16 n := by
    apply BitVec.eq_of_toNat_eq
    simp
  rw [hv, hn]

theorem generatorWords : Claims.GeneratorWords := by
  intro gd form d a b s is g₀ word sr
  have hnat (l : Nat) (c : BitVec 32) :
      word l c = randomNat (s.seedOf g₀).toNat ((s.workgroupId g₀ * 16 + g₀.id.grpid) * 32 + l) c.toNat := rfl
  have hword (i : Instr) (l : Nat) (c : BitVec 32) : s.random (g₀.atIssue i is) l c = BitVec.ofNat 32 (word l c) := by
    rw [hnat, s.random_eq (Group.atIssue_id g₀ i is)]
  clear_value word
  refine ⟨fun hf => ?_, fun hf => ?_⟩
  · have he : exec (.rng gd d a) s = s.runGroup (.rng gd d a) fun is g =>
        g.writeLanes (g.passing gd is.mask) d fun l => s.random g l (g.rv a l) := exec_rng gd d a s
    exact completes_runGroup he hf (laneWrites_advance _ _ _ _ _ _ _ (takes_ok gd is _) fun l _ _ => hword _ l _)
  · have he : exec (.cvtsr form d a b) s = s.runGroup (.cvtsr form d a b) fun is g => g.writeLanes is.mask d fun l =>
        cvtsrValue form (if form.width = 2 then g.rw a l else (g.rv a l).setWidth 64) (s.random g l (g.rv b l)) :=
      exec_cvtsr form d a b s
    refine completes_runGroup he hf (laneWrites_advance _ _ _ _ _ _ _ (fun _ _ => rfl) fun l _ _ => ?_)
    rw [hword]
    cases form with
    | bf16 => exact congrArg (BitVec.ofNat 32) (stochastic_setWidth bf16 _ _)
    | f16 => exact congrArg (BitVec.ofNat 32) (stochastic_setWidth f16 _ _)
    | bf16x2 => exact packHalves_stochastic (f := bf16) (by simp) (Group.rw _ a l) _
    | f16x2 => exact packHalves_stochastic (f := f16) (by simp) (Group.rw _ a l) _

end

/-- Settles O15: the draw adds to the multiple below at most one unit, so packing gives its value; the generator's words are sums, products and
shifts modulo 2^64, and the issue of a word does not change the group's stream. -/
theorem generatorAndStochasticRounding : Obligations.GeneratorAndStochasticRounding := ⟨stochasticRounding, generatorWords⟩

end Sys2Proof.Machine

end

section

/-! What decoding says of the fields of a word (O43; 07: R138 to R140): the fields of a format joined give the word, and each codec's encoder
gives back the field that its decoder has read. -/

set_option Elab.async false

namespace Sys2Proof

/-! ## Joined fields -/

theorem fld_append (w : Word) {lo mid n m : Nat} (h : mid = lo + n) : fld w mid m ++ fld w lo n = fld w lo (m + n) := by
  subst h
  exact BitVec.extractLsb'_append_extractLsb'_eq_extractLsb' rfl

theorem extract_append {n k : Nat} (x : BitVec (k + n)) : x.extractLsb' n k ++ x.extractLsb' 0 n = x :=
  (BitVec.extractLsb'_append_extractLsb'_eq_extractLsb' (by omega)).trans (extract_all x)

theorem packL3_fld (w : Word) : packL3 (major w) (fld w 18 6) (fld w 12 6) (fld w 6 6) (fld w 0 6) = w := by
  simp only [packL3, major, fld_append]
  exact extract_all w

theorem packLL_fld (w : Word) : packLL (major w) (fld w 18 6) (fld w 12 6) (fld w 6 6) (fld w 2 4) (fld w 0 2) = w := by
  simp only [packLL, major, fld_append]
  exact extract_all w

theorem packLM_fld (w : Word) : packLM (major w) (fld w 18 6) (fld w 12 6) (fld w 6 6) (fld w 4 2) (fld w 0 4) = w := by
  simp only [packLM, major, fld_append]
  exact extract_all w

theorem packLA_fld (w : Word) :
    packLA (major w) (fld w 18 6) (fld w 12 6) (fld w 10 2) (fld w 6 4) (fld w 2 4) (fld w 0 2) = w := by
  simp only [packLA, major, fld_append]
  exact extract_all w

theorem packL1I_fld (w : Word) : packL1I (major w) (fld w 18 6) (fld w 12 6) (fld w 0 12) = w := by
  simp only [packL1I, major, fld_append]
  exact extract_all w

theorem packLB_fld (w : Word) : packLB (major w) (fld w 18 6) (fld w 0 18) = w := by
  simp only [packLB, major, fld_append]
  exact extract_all w

theorem packLC_fld (w : Word) :
    packLC (major w) (fld w 18 6) (fld w 16 2) (fld w 12 4) (fld w 6 6) (fld w 0 6) = w := by
  simp only [packLC, major, fld_append]
  exact extract_all w

theorem packGI_fld (w : Word) : packGI (major w) (fld w 18 6) (fld w 0 18) = w := by
  simp only [packGI, major, fld_append]
  exact extract_all w

theorem packGB_fld (w : Word) : packGB (major w) (fld w 20 4) (fld w 0 20) = w := by
  simp only [packGB, major, fld_append]
  exact extract_all w

theorem packGM_fld (w : Word) : packGM (major w) (fld w 18 6) (fld w 12 6) (fld w 4 8) (fld w 0 4) = w := by
  simp only [packGM, major, fld_append]
  exact extract_all w

theorem packGE_fld (w : Word) :
    packGE (major w) (fld w 16 8) (fld w 12 4) (fld w 6 6) (fld w 2 4) (fld w 0 2) = w := by
  simp only [packGE, major, fld_append]
  exact extract_all w

theorem packGS_fld (w : Word) : packGS (major w) (fld w 18 6) (fld w 6 12) (fld w 0 6) = w := by
  simp only [packGS, major, fld_append]
  exact extract_all w

/-! ## Codecs -/

theorem pad_of_unpad {n k : Nat} {x : BitVec (n + k)} {y : BitVec k} (h : unpad n k x = some y) : pad n y = x := by
  unfold unpad at h
  split at h
  · next hz =>
    cases h
    rw [pad, ← hz]
    exact extract_append x
  · cases h

theorem Cond.code_of_dec : ∀ {x : BitVec 4} {c : Cond}, Cond.dec x = some c → c.code = x :=
  (by decide : ∀ x : BitVec 4, ∀ c ∈ Cond.dec x, c.code = x) _ _

theorem Scope.code_of_dec : ∀ {x : BitVec 4} {c : Scope}, Scope.dec x = some c → c.code = x :=
  (by decide : ∀ x : BitVec 4, ∀ c ∈ Scope.dec x, c.code = x) _ _

theorem Ord.code_of_dec : ∀ {x : BitVec 2} {c : Ord}, Ord.dec x = some c → c.code = x :=
  (by decide : ∀ x : BitVec 2, ∀ c ∈ Ord.dec x, c.code = x) _ _

theorem FenceKind.code_of_dec : ∀ {x : BitVec 2} {k : FenceKind}, FenceKind.dec x = some k → k.code = x :=
  (by decide : ∀ x : BitVec 2, ∀ k ∈ FenceKind.dec x, k.code = x) _ _

theorem ProbeSize.code_of_dec : ∀ {x : BitVec 4} {c : ProbeSize}, ProbeSize.dec x = some c → c.code = x :=
  (by decide : ∀ x : BitVec 4, ∀ c ∈ ProbeSize.dec x, c.code = x) _ _

theorem CvtsrForm.code_of_dec : ∀ {x : BitVec 6} {c : CvtsrForm}, CvtsrForm.dec x = some c → c.code = x :=
  (by decide : ∀ x : BitVec 6, ∀ c ∈ CvtsrForm.dec x, c.code = x) _ _

theorem ScanOp.code_of_dec : ∀ {x : BitVec 6} {c : ScanOp}, ScanOp.dec x = some c → c.code = x :=
  (by decide : ∀ x : BitVec 6, ∀ c ∈ ScanOp.dec x, c.code = x) _ _

theorem CopyVar.code_of_dec : ∀ {x : BitVec 2} {c : CopyVar}, CopyVar.dec x = some c → c.code = x :=
  (by decide : ∀ x : BitVec 2, ∀ c ∈ CopyVar.dec x, c.code = x) _ _

theorem CvtFmt.encPair_of_decPair : ∀ {x : BitVec 6} {p : CvtFmt × CvtFmt}, CvtFmt.decPair x = some p → p.1.encPair p.2 = x :=
  (by decide : ∀ x : BitVec 6, ∀ p ∈ CvtFmt.decPair x, p.1.encPair p.2 = x) _ _

theorem MmaFmt.encTile_of_decTile :
    ∀ {x : BitVec 8} {p : MmaFmt × BitVec 3}, MmaFmt.decTile x = some p → p.1.encTile p.2 = x :=
  (by decide : ∀ x : BitVec 8, ∀ p ∈ MmaFmt.decTile x, p.1.encTile p.2 = x) _ _

theorem encBools_of_decBools : ∀ {x : BitVec 6} {p : Bool × Bool}, decBools x = some p → encBools p.1 p.2 = x :=
  (by decide : ∀ x : BitVec 6, ∀ p ∈ decBools x, encBools p.1 p.2 = x) _ _

theorem encBools_of_decBoolHi : ∀ {x : BitVec 6} {b : Bool}, decBoolHi x = some b → encBools b false = x :=
  (by decide : ∀ x : BitVec 6, ∀ b ∈ decBoolHi x, encBools b false = x) _ _

theorem encRel_of_decRel : ∀ {x : BitVec 2} {b : Bool}, decRel x = some b → encRel b = x :=
  (by decide : ∀ x : BitVec 2, ∀ b ∈ decRel x, encRel b = x) _ _

theorem encSleep_of_decSleep :
    ∀ {x : BitVec 6} {p : Bool × SleepCond}, decSleep x = some p → encSleep p.1 p.2 = x :=
  (by decide : ∀ x : BitVec 6, ∀ p ∈ decSleep x, encSleep p.1 p.2 = x) _ _

theorem Guard.enc_of_dec : ∀ {x : BitVec 6} {g : Guard}, Guard.dec x = some g → g.enc = x :=
  (by decide : ∀ x : BitVec 6, ∀ g ∈ Guard.dec x, g.enc = x) _ _

theorem encBool_of_decBool {n : Nat} {x : BitVec n} {b : Bool} (h : decBool x = some b) : encBool n b = x := by
  unfold decBool at h
  split at h
  · next hx => cases h; exact hx.symm
  · split at h
    · next hx => cases h; exact hx.symm
    · cases h

theorem LaneSel.enc_of_dec {b f : BitVec 6} {l : LaneSel} (h : LaneSel.dec b f = some l) : l.encB = b ∧ l.encF = f := by
  unfold LaneSel.dec at h
  split at h
  · next hf => cases h; exact ⟨rfl, hf.symm⟩
  · split at h
    · next hb =>
      obtain ⟨k, hk, rfl⟩ := Option.map_eq_some_iff.mp h
      exact ⟨hb.symm, pad_of_unpad hk⟩
    · cases h

theorem FenceKind.encScope_of_decScope {x : BitVec 12} {p : FenceKind × Scope} (h : FenceKind.decScope x = some p) :
    p.1.encScope p.2 = x := by
  unfold FenceKind.decScope at h
  split at h
  · next hz =>
    obtain ⟨k, hk, h⟩ := Option.bind_eq_some_iff.mp h
    obtain ⟨s, hs, rfl⟩ := Option.map_eq_some_iff.mp h
    have hhi : x.extractLsb' 6 6 ++ x.extractLsb' 4 2 = x.extractLsb' 4 8 :=
      BitVec.extractLsb'_append_extractLsb'_eq_extractLsb' rfl
    rw [FenceKind.encScope, FenceKind.code_of_dec hk, Scope.code_of_dec hs, ← hz, hhi]
    exact extract_append (n := 4) (k := 8) x
  · cases h

/-- A special register's number is its bank and the register's place in the bank, or a number of its own. -/
theorem SpecReg.code_of_dec {x : BitVec 12} {r : SpecReg} (h : SpecReg.dec x = some r) : r.code = x := by
  unfold SpecReg.dec at h
  split at h
  · next hbank => cases h; rw [SpecReg.code, ← hbank]; exact extract_append (n := 8) (k := 4) x
  split at h
  · next hbank => cases h; rw [SpecReg.code, ← hbank]; exact extract_append (n := 3) (k := 9) x
  split at h
  · next hbank => cases h; rw [SpecReg.code, ← hbank]; exact extract_append (n := 3) (k := 9) x
  split at h <;> cases h <;> exact BitVec.eq_of_toNat_eq (Eq.symm ‹_›)

theorem WSpecReg.code_of_dec {x : BitVec 12} {r : WSpecReg} (h : WSpecReg.dec x = some r) : r.code = x := by
  unfold WSpecReg.dec at h
  split at h
  · next hbank => cases h; rw [WSpecReg.code, ← hbank]; exact extract_append (n := 3) (k := 9) x
  split at h <;> cases h <;> exact BitVec.eq_of_toNat_eq (Eq.symm ‹_›)

theorem pad_of_unpadTo {n k : Nat} {α : Type} {dec : BitVec k → Option α} {enc : α → BitVec k} {x : BitVec (n + k)} {a : α}
    (hd : ∀ {y a}, dec y = some a → enc a = y) (h : unpadTo n k dec x = some a) : pad n (enc a) = x := by
  obtain ⟨y, hy, ha⟩ := Option.bind_eq_some_iff.mp h
  rw [hd ha, pad_of_unpad hy]

end Sys2Proof

end

section

/-! Decoding and encoding agree (O43; 07: R137; 08: R163): each form's decoder answers only instructions whose word is the one read, and so
does the decoder. What the lemma ReadsBack.F says is of the decoder decF. -/

set_option Elab.async false

namespace Sys2Proof

/-- w is the word of i, a well-formed instruction. -/
def WordOf (i : Instr) (w : Word) : Prop := i.isWord = true ∧ i.WellFormed ∧ encode i = w

/-- Whatever instruction r holds, w is its word. -/
def ReadsBack (w : Word) (r : Option Instr) : Prop := ∀ i, r = some i → WordOf i w

variable {w : Word} {op : BitVec 8}

theorem WordOf.of_eq {i : Instr} {v : Word} (h : WordOf i v) (e : v = w) : WordOf i w := e ▸ h

/-! ## The steps of a form's decoder -/

namespace ReadsBack

theorem of_some {i : Instr} (h : WordOf i w) : ReadsBack w (some i) := by
  rintro _ ⟨⟩
  exact h

theorem bind {α : Type} {x : Option α} {k : α → Option Instr} (h : ∀ a, x = some a → ReadsBack w (k a)) :
    ReadsBack w (x.bind k) := fun _ e =>
  let ⟨a, ha, e⟩ := Option.bind_eq_some_iff.mp e
  h a ha _ e

theorem ite {c : Prop} [Decidable c] {r : Option Instr} (h : c → ReadsBack w r) : ReadsBack w (if c then r else none) := by
  split
  · next hc => exact h hc
  · rintro _ ⟨⟩

theorem orElse {r r' : Option Instr} (h : ReadsBack w r) (h' : ReadsBack w r') : ReadsBack w (r <|> r') := by
  cases r with
  | none => simpa using h'
  | some => simpa using h

/-! ## The forms -/

section

variable (hm : major w = op)
include hm

theorem L3_gdab {mk} (h : ∀ g d a b, WordOf (mk g d a b) (packL3 op g.enc d a b)) : ReadsBack w (decL3_gdab mk w) :=
  .bind fun g hg => .of_some <| (h g _ _ _).of_eq <| by rw [← hm, Guard.enc_of_dec hg, packL3_fld]

theorem L3_gdaimm {mk} (h : ∀ g d a b, WordOf (mk g d a b) (packL3 op g.enc d a b)) : ReadsBack w (decL3_gdaimm mk w) :=
  L3_gdab hm h

theorem L3_cdab {mk} (h : ∀ g d a b, WordOf (mk g d a b) (packL3 op g.enc d a b)) : ReadsBack w (decL3_cdab mk w) :=
  L3_gdab hm h

theorem L3_gda {mk zb} (h : ∀ g d a, WordOf (mk g d a) (packL3 op g.enc d a zb)) : ReadsBack w (decL3_gda zb mk w) :=
  .ite fun hb => .bind fun g hg => .of_some <| (h g _ _).of_eq <| by
    rw [← hm, ← hb, Guard.enc_of_dec hg, packL3_fld]

theorem L1I_gdimm {mk} (h : ∀ g d i, WordOf (mk g d i) (packL1I op g.enc d i)) : ReadsBack w (decL1I_gdimm mk w) :=
  .bind fun g hg => .of_some <| (h g _ _).of_eq <| by rw [← hm, Guard.enc_of_dec hg, packL1I_fld]

theorem L3_formdab {mk} (h : ∀ f d a b, WordOf (mk f d a b) (packL3 op (CvtsrForm.code f) d a b)) :
    ReadsBack w (decL3_formdab mk w) :=
  .bind fun f hf => .of_some <| (h f _ _ _).of_eq <| by rw [← hm, CvtsrForm.code_of_dec hf, packL3_fld]

theorem LC_gcdwideab {mk} (h : ∀ g c x a b, WordOf (mk g c x a b) (packLC op g.enc c (encBool 4 x) a b)) :
    ReadsBack w (decLC_gcdwideab mk w) :=
  .bind fun g hg => .bind fun x hx => .of_some <| (h g _ x _ _).of_eq <| by
    rw [← hm, Guard.enc_of_dec hg, encBool_of_decBool hx, packLC_fld]

theorem LC_gcdab {mk zf} (h : ∀ g c a b, WordOf (mk g c a b) (packLC op g.enc c zf a b)) : ReadsBack w (decLC_gcdab zf mk w) :=
  .ite fun hf => .bind fun g hg => .of_some <| (h g _ _ _).of_eq <| by rw [← hm, ← hf, Guard.enc_of_dec hg, packLC_fld]

theorem LC_gcdcj {mk zf zb} (h : ∀ g c j, WordOf (mk g c j) (packLC op g.enc c zf (pad 4 j) zb)) :
    ReadsBack w (decLC_gcdcj zf zb mk w) :=
  .ite fun ⟨hf, hb⟩ => .bind fun g hg => .bind fun j hj => .of_some <| (h g _ j).of_eq <| by
    rw [← hm, ← hf, ← hb, Guard.enc_of_dec hg, pad_of_unpad hj, packLC_fld]

theorem LC_gcda {mk zf zb} (h : ∀ g c a, WordOf (mk g c a) (packLC op g.enc c zf a zb)) : ReadsBack w (decLC_gcda zf zb mk w) :=
  .ite fun ⟨hf, hb⟩ => .bind fun g hg => .of_some <| (h g _ _).of_eq <| by
    rw [← hm, ← hf, ← hb, Guard.enc_of_dec hg, packLC_fld]

theorem LC_gcdimm {mk zf za} (h : ∀ g c i, WordOf (mk g c i) (packLC op g.enc c zf za (pad 2 i))) :
    ReadsBack w (decLC_gcdimm zf za mk w) :=
  .ite fun ⟨hf, ha⟩ => .bind fun g hg => .bind fun i hi => .of_some <| (h g _ i).of_eq <| by
    rw [← hm, ← hf, ← ha, Guard.enc_of_dec hg, pad_of_unpad hi, packLC_fld]

theorem LC_ga {mk zk zf zb} (h : ∀ g a, WordOf (mk g a) (packLC op g.enc zk zf a zb)) : ReadsBack w (decLC_ga zk zf zb mk w) :=
  .ite fun ⟨hk, hf, hb⟩ => .bind fun g hg => .of_some <| (h g _).of_eq <| by
    rw [← hm, ← hk, ← hf, ← hb, Guard.enc_of_dec hg, packLC_fld]

theorem LL_dabla {mk zf} (h : ∀ d a b l, WordOf (mk d a b l) (packLL op d a b l zf)) : ReadsBack w (decLL_dabla zf mk w) :=
  .ite fun hf => .of_some <| (h _ _ _ _).of_eq <| by rw [← hm, ← hf, packLL_fld]

theorem LL_dala {mk zb zf} (h : ∀ d a l, WordOf (mk d a l) (packLL op d a zb l zf)) : ReadsBack w (decLL_dala zb zf mk w) :=
  .ite fun ⟨hb, hf⟩ => .of_some <| (h _ _ _).of_eq <| by rw [← hm, ← hb, ← hf, packLL_fld]

theorem LA_dabssclaord {mk} (h : ∀ d a s c l o, WordOf (mk d a s c l o) (packLA op d a s c.code l o.code)) :
    ReadsBack w (decLA_dabssclaord mk w) :=
  .bind fun c hc => .bind fun o ho => .of_some <| (h _ _ _ c _ o).of_eq <| by
    rw [← hm, Scope.code_of_dec hc, Ord.code_of_dec ho, packLA_fld]

theorem LA_dabssc {mk zl zo} (h : ∀ d a s c, WordOf (mk d a s c) (packLA op d a s c.code zl zo)) :
    ReadsBack w (decLA_dabssc zl zo mk w) :=
  .ite fun ⟨hl, ho⟩ => .bind fun c hc => .of_some <| (h _ _ _ c).of_eq <| by
    rw [← hm, ← hl, ← ho, Scope.code_of_dec hc, packLA_fld]

theorem LA_dabssclaacq {mk} (h : ∀ d a s c l x, WordOf (mk d a s c l x) (packLA op d a s c.code l (encBool 2 x))) :
    ReadsBack w (decLA_dabssclaacq mk w) :=
  .bind fun c hc => .bind fun x hx => .of_some <| (h _ _ _ c _ x).of_eq <| by
    rw [← hm, Scope.code_of_dec hc, encBool_of_decBool hx, packLA_fld]

theorem LA_dabsscrel {mk zl} (h : ∀ d a s c x, WordOf (mk d a s c x) (packLA op d a s c.code zl (encRel x))) :
    ReadsBack w (decLA_dabsscrel zl mk w) :=
  .ite fun hl => .bind fun c hc => .bind fun x hx => .of_some <| (h _ _ _ c x).of_eq <| by
    rw [← hm, ← hl, Scope.code_of_dec hc, encRel_of_decRel hx, packLA_fld]

theorem LM_gdabsla {mk} (h : ∀ g d a s l, WordOf (mk g d a s l) (packLM op g.enc d a s l)) : ReadsBack w (decLM_gdabsla mk w) :=
  .bind fun g hg => .of_some <| (h g _ _ _ _).of_eq <| by rw [← hm, Guard.enc_of_dec hg, packLM_fld]

theorem LM_gdabs {mk zl} (h : ∀ g d a s, WordOf (mk g d a s) (packLM op g.enc d a s zl)) : ReadsBack w (decLM_gdabs zl mk w) :=
  .ite fun hl => .bind fun g hg => .of_some <| (h g _ _ _).of_eq <| by rw [← hm, ← hl, Guard.enc_of_dec hg, packLM_fld]

theorem LM_gcjabssize {mk} (h : ∀ g j a s n, WordOf (mk g j a s n) (packLM op g.enc (pad 4 j) a s n.code)) :
    ReadsBack w (decLM_gcjabssize mk w) :=
  .bind fun g hg => .bind fun j hj => .bind fun n hn => .of_some <| (h g j _ _ n).of_eq <| by
    rw [← hm, Guard.enc_of_dec hg, pad_of_unpad hj, ProbeSize.code_of_dec hn, packLM_fld]

theorem LB_goff {mk} (h : ∀ g o, WordOf (mk g o) (packLB op g.enc o)) : ReadsBack w (decLB_goff mk w) :=
  .bind fun g hg => .of_some <| (h g _).of_eq <| by rw [← hm, Guard.enc_of_dec hg, packLB_fld]

theorem L3_ga {mk zd zb} (h : ∀ g a, WordOf (mk g a) (packL3 op g.enc zd a zb)) : ReadsBack w (decL3_ga zd zb mk w) :=
  .ite fun ⟨hd, hb⟩ => .bind fun g hg => .of_some <| (h g _).of_eq <| by
    rw [← hm, ← hd, ← hb, Guard.enc_of_dec hg, packL3_fld]

theorem L3_g {mk zd za zb} (h : ∀ g, WordOf (mk g) (packL3 op g.enc zd za zb)) : ReadsBack w (decL3_g zd za zb mk w) :=
  .ite fun ⟨hd, ha, hb⟩ => .bind fun g hg => .of_some <| (h g).of_eq <| by
    rw [← hm, ← hd, ← ha, ← hb, Guard.enc_of_dec hg, packL3_fld]

theorem L3_gdak {mk} (h : ∀ g d a k, WordOf (mk g d a k) (packL3 op g.enc d a (pad 1 k))) : ReadsBack w (decL3_gdak mk w) :=
  .bind fun g hg => .bind fun k hk => .of_some <| (h g _ _ k).of_eq <| by
    rw [← hm, Guard.enc_of_dec hg, pad_of_unpad hk, packL3_fld]

theorem L3_gdaop {mk} (h : ∀ g d a o, WordOf (mk g d a o) (packL3 op g.enc d a (ScanOp.code o))) : ReadsBack w (decL3_gdaop mk w) :=
  .bind fun g hg => .bind fun o ho => .of_some <| (h g _ _ o).of_eq <| by
    rw [← hm, Guard.enc_of_dec hg, ScanOp.code_of_dec ho, packL3_fld]

theorem L3_gdadstsrc {mk}
    (h : ∀ g d a x y, CvtFmt.pairOk x y = true → WordOf (mk g d a x y) (packL3 op g.enc d a (CvtFmt.encPair x y))) :
    ReadsBack w (decL3_gdadstsrc mk w) :=
  .bind fun g hg => .bind fun p hp => .ite fun hok => .of_some <| (h g _ _ p.1 p.2 hok).of_eq <| by
    rw [← hm, Guard.enc_of_dec hg, CvtFmt.encPair_of_decPair hp, packL3_fld]

theorem L3_dab {mk zb} (h : ∀ d a b, WordOf (mk d a b) (packL3 op d a b zb)) : ReadsBack w (decL3_dab zb mk w) :=
  .ite fun hb => .of_some <| (h _ _ _).of_eq <| by rw [← hm, ← hb, packL3_fld]

theorem L3_dabuns {mk} (h : ∀ d a b x, WordOf (mk d a b x) (packL3 op d a b (encBool 6 x))) : ReadsBack w (decL3_dabuns mk w) :=
  .bind fun x hx => .of_some <| (h _ _ _ x).of_eq <| by rw [← hm, encBool_of_decBool hx, packL3_fld]

theorem L3_ab {mk zg zb} (h : ∀ a b, WordOf (mk a b) (packL3 op zg a b zb)) : ReadsBack w (decL3_ab zg zb mk w) :=
  .ite fun ⟨hg, hb⟩ => .of_some <| (h _ _).of_eq <| by rw [← hm, ← hg, ← hb, packL3_fld]

theorem L3_dabc {mk} (h : ∀ d a b c, WordOf (mk d a b c) (packL3 op d a b (pad 2 (Cond.code c)))) : ReadsBack w (decL3_dabc mk w) :=
  .bind fun c hc => .of_some <| (h _ _ _ c).of_eq <| by rw [← hm, pad_of_unpadTo Cond.code_of_dec hc, packL3_fld]

theorem GI_dimm {mk} (h : ∀ d i, WordOf (mk d i) (packGI op d i)) : ReadsBack w (decGI_dimm mk w) :=
  .of_some <| (h _ _).of_eq <| by rw [← hm, packGI_fld]

theorem L3_dalane {mk} (h : ∀ d a l, WordOf (mk d a l) (packL3 op d a (LaneSel.encB l) (LaneSel.encF l))) :
    ReadsBack w (decL3_dalane mk w) :=
  .bind fun l hl => .of_some <| (h _ _ l).of_eq <| by
    rw [← hm, (LaneSel.enc_of_dec hl).1, (LaneSel.enc_of_dec hl).2, packL3_fld]

theorem L3_dahi {mk za} (h : ∀ d a x, WordOf (mk d a x) (packL3 op d a za (encBool 6 x))) : ReadsBack w (decL3_dahi za mk w) :=
  .ite fun ha => .bind fun x hx => .of_some <| (h _ _ x).of_eq <| by rw [← hm, ← ha, encBool_of_decBool hx, packL3_fld]

theorem L3_dkc {mk zb} (h : ∀ d k c, WordOf (mk d k c) (packL3 op d (pad 4 k) (pad 2 (Cond.code c)) zb)) :
    ReadsBack w (decL3_dkc zb mk w) :=
  .ite fun hb => .bind fun k hk => .bind fun c hc => .of_some <| (h _ k c).of_eq <| by
    rw [← hm, ← hb, pad_of_unpad hk, pad_of_unpadTo Cond.code_of_dec hc, packL3_fld]

theorem GS_imm {mk zd zf} (h : ∀ i, WordOf (mk i) (packGS op zd (pad 4 i) zf)) : ReadsBack w (decGS_imm zd zf mk w) :=
  .ite fun ⟨hd, hf⟩ => .bind fun i hi => .of_some <| (h i).of_eq <| by rw [← hm, ← hd, ← hf, pad_of_unpad hi, packGS_fld]

theorem GS_d {mk zy zf} (h : ∀ d, WordOf (mk d) (packGS op d zy zf)) : ReadsBack w (decGS_d zy zf mk w) :=
  .ite fun ⟨hy, hf⟩ => .of_some <| (h _).of_eq <| by rw [← hm, ← hy, ← hf, packGS_fld]

theorem GS_imm2 {mk zd zf} (h : ∀ i, WordOf (mk i) (packGS op zd (pad 10 i) zf)) : ReadsBack w (decGS_imm2 zd zf mk w) :=
  .ite fun ⟨hd, hf⟩ => .bind fun i hi => .of_some <| (h i).of_eq <| by rw [← hm, ← hd, ← hf, pad_of_unpad hi, packGS_fld]

theorem GB_coff {mk} (h : ∀ c o, WordOf (mk c o) (packGB op (Cond.code c) o)) : ReadsBack w (decGB_coff mk w) :=
  .bind fun c hc => .of_some <| (h c _).of_eq <| by rw [← hm, Cond.code_of_dec hc, packGB_fld]

theorem GS_nrefresh {mk zd} (h : ∀ n x, WordOf (mk n x) (packGS op zd (pad 9 n) (encBool 6 x))) :
    ReadsBack w (decGS_nrefresh zd mk w) :=
  .ite fun hd => .bind fun n hn => .bind fun x hx => .of_some <| (h n x).of_eq <| by
    rw [← hm, ← hd, pad_of_unpad hn, encBool_of_decBool hx, packGS_fld]

theorem GS_ngang {mk zd} (h : ∀ n x, WordOf (mk n x) (packGS op zd (pad 9 n) (encBools x false))) :
    ReadsBack w (decGS_ngang zd mk w) :=
  .ite fun hd => .bind fun n hn => .bind fun x hx => .of_some <| (h n x).of_eq <| by
    rw [← hm, ← hd, pad_of_unpad hn, encBools_of_decBoolHi hx, packGS_fld]

theorem GS_ngangrefresh {mk zd} (h : ∀ n x y, WordOf (mk n x y) (packGS op zd (pad 9 n) (encBools x y))) :
    ReadsBack w (decGS_ngangrefresh zd mk w) :=
  .ite fun hd => .bind fun n hn => .bind fun p hp => .of_some <| (h n p.1 p.2).of_eq <| by
    rw [← hm, ← hd, pad_of_unpad hn, encBools_of_decBools hp, packGS_fld]

theorem L3_dabn64c {mk} (h : ∀ d a b x c, WordOf (mk d a b x c) (packL3 op d a b (encSleep x c))) :
    ReadsBack w (decL3_dabn64c mk w) :=
  .bind fun p hp => .of_some <| (h _ _ _ p.1 p.2).of_eq <| by rw [← hm, encSleep_of_decSleep hp, packL3_fld]

theorem GS_ {i zd zy zf} (h : WordOf i (packGS op zd zy zf)) : ReadsBack w (decGS_ zd zy zf i w) :=
  .ite fun ⟨hd, hy, hf⟩ => .of_some <| h.of_eq <| by rw [← hm, ← hd, ← hy, ← hf, packGS_fld]

theorem GS_imm3 {mk zd zf} (h : ∀ i, WordOf (mk i) (packGS op zd i zf)) : ReadsBack w (decGS_imm3 zd zf mk w) :=
  .ite fun ⟨hd, hf⟩ => .of_some <| (h _).of_eq <| by rw [← hm, ← hd, ← hf, packGS_fld]

theorem GS_dimm {mk zf} (h : ∀ d i, WordOf (mk d i) (packGS op d i zf)) : ReadsBack w (decGS_dimm zf mk w) :=
  .ite fun hf => .of_some <| (h _ _).of_eq <| by rw [← hm, ← hf, packGS_fld]

theorem GM_daoffla {mk} (h : ∀ d a o l, WordOf (mk d a o l) (packGM op d a o l)) : ReadsBack w (decGM_daoffla mk w) :=
  .of_some <| (h _ _ _ _).of_eq <| by rw [← hm, packGM_fld]

theorem GM_daoff {mk zl} (h : ∀ d a o, WordOf (mk d a o) (packGM op d a o zl)) : ReadsBack w (decGM_daoff zl mk w) :=
  .ite fun hl => .of_some <| (h _ _ _).of_eq <| by rw [← hm, ← hl, packGM_fld]

theorem GS_kindsc {mk zd zf} (h : ∀ k c, WordOf (mk k c) (packGS op zd (FenceKind.encScope k c) zf)) :
    ReadsBack w (decGS_kindsc zd zf mk w) :=
  .ite fun ⟨hd, hf⟩ => .bind fun p hp => .of_some <| (h p.1 p.2).of_eq <| by
    rw [← hm, ← hd, ← hf, FenceKind.encScope_of_decScope hp, packGS_fld]

theorem GE_tidchslavar {mk}
    (h : ∀ t c s l v, (s != 63#6) = true → WordOf (mk t c s l v) (packGE op t (pad 1 c) s l (CopyVar.code v))) :
    ReadsBack w (decGE_tidchslavar mk w) :=
  .bind fun c hc => .bind fun v hv => .ite fun hs => .of_some <| (h _ c _ _ v hs).of_eq <| by
    rw [← hm, pad_of_unpad hc, CopyVar.code_of_dec hv, packGE_fld]

theorem GE_chsla {mk zt zf} (h : ∀ c s l, (s != 63#6) = true → WordOf (mk c s l) (packGE op zt (pad 1 c) s l zf)) :
    ReadsBack w (decGE_chsla zt zf mk w) :=
  .ite fun ⟨ht, hf⟩ => .bind fun c hc => .ite fun hs => .of_some <| (h c _ _ hs).of_eq <| by
    rw [← hm, ← ht, ← hf, pad_of_unpad hc, packGE_fld]

theorem GE_scchslaacq {mk}
    (h : ∀ k c s l x, (s != 63#6) = true → WordOf (mk k c s l x) (packGE op (pad 4 (Scope.code k)) (pad 1 c) s l (encBool 2 x))) :
    ReadsBack w (decGE_scchslaacq mk w) :=
  .bind fun k hk => .bind fun c hc => .bind fun x hx => .ite fun hs => .of_some <| (h k c _ _ x hs).of_eq <| by
    rw [← hm, pad_of_unpadTo Scope.code_of_dec hk, pad_of_unpad hc, encBool_of_decBool hx, packGE_fld]

theorem GE_tidsla {mk zr zf} (h : ∀ t s l, WordOf (mk t s l) (packGE op t zr s l zf)) : ReadsBack w (decGE_tidsla zr zf mk w) :=
  .ite fun ⟨hr, hf⟩ => .of_some <| (h _ _ _).of_eq <| by rw [← hm, ← hr, ← hf, packGE_fld]

theorem GE_ringsla {mk zr zf} (h : ∀ n s l, WordOf (mk n s l) (packGE op (pad 4 n) zr s l zf)) :
    ReadsBack w (decGE_ringsla zr zf mk w) :=
  .ite fun ⟨hr, hf⟩ => .bind fun n hn => .of_some <| (h n _ _).of_eq <| by rw [← hm, ← hr, ← hf, pad_of_unpad hn, packGE_fld]

theorem GE_ringsla2 {mk zr zf} (h : ∀ n s l, (s != 63#6) = true → WordOf (mk n s l) (packGE op (pad 4 n) zr s l zf)) :
    ReadsBack w (decGE_ringsla2 zr zf mk w) :=
  .ite fun ⟨hr, hf⟩ => .bind fun n hn => .ite fun hs => .of_some <| (h n _ _ hs).of_eq <| by
    rw [← hm, ← hr, ← hf, pad_of_unpad hn, packGE_fld]

theorem GE_tidtilesla {mk zf} (h : ∀ t n s l, (s != 63#6) = true → WordOf (mk t n s l) (packGE op t (pad 1 n) s l zf)) :
    ReadsBack w (decGE_tidtilesla zf mk w) :=
  .ite fun hf => .bind fun n hn => .ite fun hs => .of_some <| (h _ n _ _ hs).of_eq <| by
    rw [← hm, ← hf, pad_of_unpad hn, packGE_fld]

theorem GE_tidslax24 {mk zr} (h : ∀ t s l x, (s != 63#6) = true → WordOf (mk t s l x) (packGE op t zr s l (encBool 2 x))) :
    ReadsBack w (decGE_tidslax24 zr mk w) :=
  .ite fun hr => .bind fun x hx => .ite fun hs => .of_some <| (h _ _ _ x hs).of_eq <| by
    rw [← hm, ← hr, encBool_of_decBool hx, packGE_fld]

theorem GE_fmttileaccslabs {mk} (h : ∀ f t c s l x, (s != 63#6 && MmaFmt.bsOk f x) = true →
      WordOf (mk f t c s l x) (packGE op (MmaFmt.encTile f t) (pad 1 c) s l (encBool 2 x))) :
    ReadsBack w (decGE_fmttileaccslabs mk w) :=
  .bind fun p hp => .bind fun c hc => .bind fun x hx => .ite fun hs => .of_some <| (h p.1 p.2 c _ _ x hs).of_eq <| by
    rw [← hm, MmaFmt.encTile_of_decTile hp, pad_of_unpad hc, encBool_of_decBool hx, packGE_fld]

theorem GE_accslaf64 {mk zt} (h : ∀ c s l x, WordOf (mk c s l x) (packGE op zt (pad 1 c) s l (encBool 2 x))) :
    ReadsBack w (decGE_accslaf64 zt mk w) :=
  .ite fun ht => .bind fun c hc => .bind fun x hx => .of_some <| (h c _ _ x).of_eq <| by
    rw [← hm, ← ht, pad_of_unpad hc, encBool_of_decBool hx, packGE_fld]

theorem GE_tidaccslabs {mk}
    (h : ∀ t c s l x, (s != 63#6) = true → WordOf (mk t c s l x) (packGE op t (pad 1 c) s l (encBool 2 x))) :
    ReadsBack w (decGE_tidaccslabs mk w) :=
  .bind fun c hc => .bind fun x hx => .ite fun hs => .of_some <| (h _ c _ _ x hs).of_eq <| by
    rw [← hm, pad_of_unpad hc, encBool_of_decBool hx, packGE_fld]

theorem GE_nslotsla {mk zf}
    (h : ∀ n k s l, (s != 63#6 && n != 0#8) = true → WordOf (mk n k s l) (packGE op n k s l zf)) :
    ReadsBack w (decGE_nslotsla zf mk w) :=
  .ite fun hf => .ite fun hs => .of_some <| (h _ _ _ _ hs).of_eq <| by rw [← hm, ← hf, packGE_fld]

theorem GE_slotsla {mk zt zf} (h : ∀ k s l, (s != 63#6) = true → WordOf (mk k s l) (packGE op zt k s l zf)) :
    ReadsBack w (decGE_slotsla zt zf mk w) :=
  .ite fun ⟨ht, hf⟩ => .ite fun hs => .of_some <| (h _ _ _ hs).of_eq <| by rw [← hm, ← ht, ← hf, packGE_fld]

theorem GE_sla {mk zt zr zf} (h : ∀ s l, (s != 63#6) = true → WordOf (mk s l) (packGE op zt zr s l zf)) :
    ReadsBack w (decGE_sla zt zr zf mk w) :=
  .ite fun ⟨ht, hr, hf⟩ => .ite fun hs => .of_some <| (h _ _ hs).of_eq <| by rw [← hm, ← ht, ← hr, ← hf, packGE_fld]

theorem GE_tidsla2 {mk zr zf} (h : ∀ t s l, (s != 63#6) = true → WordOf (mk t s l) (packGE op t zr s l zf)) :
    ReadsBack w (decGE_tidsla2 zr zf mk w) :=
  .ite fun ⟨hr, hf⟩ => .ite fun hs => .of_some <| (h _ _ _ hs).of_eq <| by rw [← hm, ← hr, ← hf, packGE_fld]

theorem GS_dregvec {mk} (h : ∀ d r x, WordOf (mk d r x) (packGS op d (SpecReg.code r) (encBool 6 x))) :
    ReadsBack w (decGS_dregvec mk w) :=
  .bind fun r hr => .bind fun x hx => .of_some <| (h _ r x).of_eq <| by
    rw [← hm, SpecReg.code_of_dec hr, encBool_of_decBool hx, packGS_fld]

theorem GS_dreg {mk zf} (h : ∀ d r, WordOf (mk d r) (packGS op d (WSpecReg.code r) zf)) : ReadsBack w (decGS_dreg zf mk w) :=
  .ite fun hf => .bind fun r hr => .of_some <| (h _ r).of_eq <| by rw [← hm, ← hf, WSpecReg.code_of_dec hr, packGS_fld]

theorem GS_dord {mk zy} (h : ∀ d x, WordOf (mk d x) (packGS op d zy (encBool 6 x))) : ReadsBack w (decGS_dord zy mk w) :=
  .ite fun hy => .bind fun x hx => .of_some <| (h _ x).of_eq <| by rw [← hm, ← hy, encBool_of_decBool hx, packGS_fld]

end

end ReadsBack

open ReadsBack in
/-- What the decoder reads under each major code is an instruction whose word is the one read (08: R157). -/
theorem readsBack_of_decodeMajor {m : Nat} (hlt : m < 256) (hm : major w = BitVec.ofNat 8 m) :
    ∀ r, decodeMajor m w = some r → ReadsBack w r := by
  interval_cases m
  all_goals rintro _ ⟨⟩
  -- 0x01 to 0x2F: whole numbers, flags and selections of lanes
  exact L3_gdab hm fun _ _ _ _ => ⟨rfl, rfl, rfl⟩
  exact L3_gdaimm hm fun _ _ _ _ => ⟨rfl, rfl, rfl⟩
  iterate 11 exact L3_gdab hm fun _ _ _ _ => ⟨rfl, rfl, rfl⟩
  exact .orElse (L3_gda hm fun _ _ _ => ⟨rfl, rfl, rfl⟩) (L3_gda hm fun _ _ _ => ⟨rfl, rfl, rfl⟩)
  exact L3_gda hm fun _ _ _ => ⟨rfl, rfl, rfl⟩
  iterate 2 exact L1I_gdimm hm fun _ _ _ => ⟨rfl, rfl, rfl⟩
  iterate 11 exact L3_gdab hm fun _ _ _ _ => ⟨rfl, rfl, rfl⟩
  exact .orElse (L3_gda hm fun _ _ _ => ⟨rfl, rfl, rfl⟩) <|
    .orElse (L3_gda hm fun _ _ _ => ⟨rfl, rfl, rfl⟩) <|
    .orElse (L3_gda hm fun _ _ _ => ⟨rfl, rfl, rfl⟩) (L3_gda hm fun _ _ _ => ⟨rfl, rfl, rfl⟩)
  exact L3_cdab hm fun _ _ _ _ => ⟨rfl, rfl, rfl⟩
  exact L3_formdab hm fun _ _ _ _ => ⟨rfl, rfl, rfl⟩
  iterate 2 exact LC_gcdwideab hm fun _ _ _ _ _ => ⟨rfl, rfl, rfl⟩
  iterate 2 exact LC_gcdab hm fun _ _ _ _ => ⟨rfl, rfl, rfl⟩
  exact .orElse (LC_gcdcj hm fun _ _ _ => ⟨rfl, rfl, rfl⟩) <|
    .orElse (LC_gcda hm fun _ _ _ => ⟨rfl, rfl, rfl⟩) <|
    .orElse (LC_gcdimm hm fun _ _ _ => ⟨rfl, rfl, rfl⟩) (LC_ga hm fun _ _ => ⟨rfl, rfl, rfl⟩)
  iterate 11 exact L3_gdab hm fun _ _ _ _ => ⟨rfl, rfl, rfl⟩
  -- 0x30 to 0x37: words of long latency
  exact .orElse (LL_dabla hm fun _ _ _ _ => ⟨rfl, rfl, rfl⟩) <|
    .orElse (LL_dabla hm fun _ _ _ _ => ⟨rfl, rfl, rfl⟩) <|
    .orElse (LL_dabla hm fun _ _ _ _ => ⟨rfl, rfl, rfl⟩) (LL_dabla hm fun _ _ _ _ => ⟨rfl, rfl, rfl⟩)
  exact LL_dabla hm fun _ _ _ _ => ⟨rfl, rfl, rfl⟩
  exact LL_dala hm fun _ _ _ => ⟨rfl, rfl, rfl⟩
  iterate 3 exact .orElse (LL_dala hm fun _ _ _ => ⟨rfl, rfl, rfl⟩) (LL_dala hm fun _ _ _ => ⟨rfl, rfl, rfl⟩)
  exact LL_dabla hm fun _ _ _ _ => ⟨rfl, rfl, rfl⟩
  exact LL_dala hm fun _ _ _ => ⟨rfl, rfl, rfl⟩
  -- 0x38 to 0x5F: lane memory
  iterate 8 exact LA_dabssclaord hm fun _ _ _ _ _ _ => ⟨rfl, rfl, rfl⟩
  iterate 7 exact LM_gdabsla hm fun _ _ _ _ _ => ⟨rfl, rfl, rfl⟩
  exact LA_dabssclaord hm fun _ _ _ _ _ _ => ⟨rfl, rfl, rfl⟩
  iterate 5 exact LM_gdabs hm fun _ _ _ _ => ⟨rfl, rfl, rfl⟩
  exact LM_gdabsla hm fun _ _ _ _ _ => ⟨rfl, rfl, rfl⟩
  exact LM_gcjabssize hm fun _ _ _ _ _ => ⟨rfl, rfl, rfl⟩
  iterate 11 exact LA_dabssclaord hm fun _ _ _ _ _ _ => ⟨rfl, rfl, rfl⟩
  iterate 2 exact LA_dabssc hm fun _ _ _ _ => ⟨rfl, rfl, rfl⟩
  iterate 2 exact LA_dabssclaacq hm fun _ _ _ _ _ _ => ⟨rfl, rfl, rfl⟩
  iterate 2 exact LA_dabsscrel hm fun _ _ _ _ _ => ⟨rfl, rfl, rfl⟩
  -- 0x60 to 0x66: control transfers
  iterate 2 exact LB_goff hm fun _ _ => ⟨rfl, rfl, rfl⟩
  exact L3_gda hm fun _ _ _ => ⟨rfl, rfl, rfl⟩
  exact L3_ga hm fun _ _ => ⟨rfl, rfl, rfl⟩
  iterate 3 exact L3_g hm fun _ => ⟨rfl, rfl, rfl⟩
  -- 0x67 to 0x7F: fractions, the crossbar and conversions
  iterate 10 exact L3_gdab hm fun _ _ _ _ => ⟨rfl, rfl, rfl⟩
  exact L3_gdak hm fun _ _ _ _ => ⟨rfl, rfl, rfl⟩
  exact L3_gdab hm fun _ _ _ _ => ⟨rfl, rfl, rfl⟩
  exact L3_gdak hm fun _ _ _ _ => ⟨rfl, rfl, rfl⟩
  exact L3_gdab hm fun _ _ _ _ => ⟨rfl, rfl, rfl⟩
  exact L3_gdak hm fun _ _ _ _ => ⟨rfl, rfl, rfl⟩
  exact L3_gdab hm fun _ _ _ _ => ⟨rfl, rfl, rfl⟩
  exact L3_gdak hm fun _ _ _ _ => ⟨rfl, rfl, rfl⟩
  exact L3_gdaop hm fun _ _ _ _ => ⟨rfl, rfl, rfl⟩
  exact L3_gdab hm fun _ _ _ _ => ⟨rfl, rfl, rfl⟩
  exact .orElse (L3_gdadstsrc hm fun _ _ _ _ _ h => ⟨rfl, h, rfl⟩) <|
    .orElse (L3_gda hm fun _ _ _ => ⟨rfl, rfl, rfl⟩) (L3_gda hm fun _ _ _ => ⟨rfl, rfl, rfl⟩)
  iterate 3 exact L3_gdadstsrc hm fun _ _ _ _ _ h => ⟨rfl, h, rfl⟩
  iterate 2 exact L3_gdab hm fun _ _ _ _ => ⟨rfl, rfl, rfl⟩
  -- 0x81 to 0x97: uniform words
  iterate 3 exact L3_dab hm fun _ _ _ => ⟨rfl, rfl, rfl⟩
  exact L3_dabuns hm fun _ _ _ _ => ⟨rfl, rfl, rfl⟩
  iterate 6 exact L3_dab hm fun _ _ _ => ⟨rfl, rfl, rfl⟩
  iterate 2 exact L3_dabuns hm fun _ _ _ _ => ⟨rfl, rfl, rfl⟩
  exact L3_ab hm fun _ _ => ⟨rfl, rfl, rfl⟩
  exact L3_dabc hm fun _ _ _ _ => ⟨rfl, rfl, rfl⟩
  iterate 3 exact GI_dimm hm fun _ _ => ⟨rfl, rfl, rfl⟩
  exact L3_dalane hm fun _ _ _ => ⟨rfl, rfl, rfl⟩
  exact L3_dahi hm fun _ _ _ => ⟨rfl, rfl, rfl⟩
  exact L3_dkc hm fun _ _ _ => ⟨rfl, rfl, rfl⟩
  exact .orElse (GS_imm hm fun _ => ⟨rfl, rfl, rfl⟩) (GS_d hm fun _ => ⟨rfl, rfl, rfl⟩)
  exact .orElse (GS_imm2 hm fun _ => ⟨rfl, rfl, rfl⟩) (GS_d hm fun _ => ⟨rfl, rfl, rfl⟩)
  -- 0xA0 to 0xB2: system words and uniform memory
  exact GB_coff hm fun _ _ => ⟨rfl, rfl, rfl⟩
  iterate 2 exact GS_nrefresh hm fun _ _ => ⟨rfl, rfl, rfl⟩
  exact GS_ngang hm fun _ _ => ⟨rfl, rfl, rfl⟩
  exact GS_ngangrefresh hm fun _ _ _ => ⟨rfl, rfl, rfl⟩
  exact L3_dabn64c hm fun _ _ _ _ _ => ⟨rfl, rfl, rfl⟩
  exact GS_ hm ⟨rfl, rfl, rfl⟩
  exact L3_dab hm fun _ _ _ => ⟨rfl, rfl, rfl⟩
  exact .orElse (L3_ab hm fun _ _ => ⟨rfl, rfl, rfl⟩) <|
    .orElse (L3_ab hm fun _ _ => ⟨rfl, rfl, rfl⟩) (L3_ab hm fun _ _ => ⟨rfl, rfl, rfl⟩)
  exact GS_imm3 hm fun _ => ⟨rfl, rfl, rfl⟩
  iterate 2 exact GS_ hm ⟨rfl, rfl, rfl⟩
  exact GS_imm3 hm fun _ => ⟨rfl, rfl, rfl⟩
  exact .orElse (GS_d hm fun _ => ⟨rfl, rfl, rfl⟩) (GS_d hm fun _ => ⟨rfl, rfl, rfl⟩)
  exact .orElse (GS_imm3 hm fun _ => ⟨rfl, rfl, rfl⟩) (GS_dimm hm fun _ _ => ⟨rfl, rfl, rfl⟩)
  exact GM_daoffla hm fun _ _ _ _ => ⟨rfl, rfl, rfl⟩
  exact GM_daoff hm fun _ _ _ => ⟨rfl, rfl, rfl⟩
  exact GS_kindsc hm fun _ _ => ⟨rfl, rfl, rfl⟩
  -- 0xC0 to 0xD3: engine commands
  exact GE_tidchslavar hm fun _ _ _ _ _ h => ⟨rfl, h, rfl⟩
  exact GE_chsla hm fun _ _ _ h => ⟨rfl, h, rfl⟩
  exact GE_scchslaacq hm fun _ _ _ _ _ h => ⟨rfl, h, rfl⟩
  exact GE_tidsla hm fun _ _ _ => ⟨rfl, rfl, rfl⟩
  exact GE_ringsla hm fun _ _ _ => ⟨rfl, rfl, rfl⟩
  exact GE_ringsla2 hm fun _ _ _ h => ⟨rfl, h, rfl⟩
  exact GE_tidtilesla hm fun _ _ _ _ h => ⟨rfl, h, rfl⟩
  exact GE_tidslax24 hm fun _ _ _ _ h => ⟨rfl, h, rfl⟩
  exact GE_fmttileaccslabs hm fun _ _ _ _ _ _ h => ⟨rfl, h, rfl⟩
  exact GE_accslaf64 hm fun _ _ _ _ => ⟨rfl, rfl, rfl⟩
  exact GE_tidaccslabs hm fun _ _ _ _ _ h => ⟨rfl, h, rfl⟩
  exact GE_nslotsla hm fun _ _ _ _ h => ⟨rfl, h, rfl⟩
  exact GE_slotsla hm fun _ _ _ h => ⟨rfl, h, rfl⟩
  iterate 2 exact GE_sla hm fun _ _ h => ⟨rfl, h, rfl⟩
  iterate 5 exact GE_tidsla2 hm fun _ _ _ h => ⟨rfl, h, rfl⟩
  -- 0xF0 to 0xF2: special registers
  exact GS_dregvec hm fun _ _ _ => ⟨rfl, rfl, rfl⟩
  exact GS_dreg hm fun _ _ => ⟨rfl, rfl, rfl⟩
  exact GS_dord hm fun _ _ => ⟨rfl, rfl, rfl⟩

/-- A word that decodes is the word of its instruction (07: R137, R140). -/
theorem wordOf_of_decode {i : Instr} (h : decode w = .ok i) : WordOf i w := by
  unfold decode at h
  split at h <;> cases h
  next hr => exact readsBack_of_decodeMajor (major w).isLt (by simp) _ hr _ rfl

end Sys2Proof

end

section

/-! Decoding and encoding settled, with the words written out from the encoding tables (O42, O43). -/

set_option Elab.async false

namespace Sys2Proof.Laws.RoundTrip

/-- Decode and encode agree on every instruction, one constructor after another. -/
theorem statement (i : Instr) : Statement i :=
  i.casesOn
    iadd iaddi isub iadc isbb imul imulh imulhu imad imin imax iminu imaxu iabs ineg rng movi movhi andL orL xorL andn shl shr sar rol
    bfx bfxu bfi popc clz ctz brev sel cvtsr icmp itst fcmp dcmp cmov cmovV cmovI cmovR iaddmin iaddmax faddmin addw subw shlw shrw
    sarw mulw badd bfma idivI32 idivN32 iremI32 iremN32 fdiv fsqrt frcp frsq fexp2 flog2 fsin fcos ddiv dsqrt aaddN64 aminI64 amaxI64
    aminN64 amaxN64 aandN64 aorN64 axorN64 ldI8 ldN8 ldI16 ldN16 ldN32 ldN64 ldN128 axchgN64 stN8 stN16 stN32 stN64 stN128 ldk ldProbe
    acasN64 aaddN32 aminI32 amaxI32 aminN32 amaxN32 aandN32 aorN32 axorN32 axchgN32 acasN32 faddOrdF32 faddOrdF64 ldaN32 ldaN64 staN32
    staN64 bra bral jmp ret yield nop exit hadd hfma fadd fsub fmul ffma fmin fmax dadd shfl shflI lsh lshI lrot lrotI bcast bcastI
    scan sample cvtRne cvtRneF32Q4 cvtRneQ4F32 cvtRz cvtRu cvtRd dmul dfma sadd ssub smul smulh sand sor sxor sshl sshr ssar smin smax
    scmp ssel smovi smovhi saddi lread sbcast ballot idxImm idxReg prioImm prioReg ubra bar gbar arrive wait sleep refresh rootsw
    tlbfFill tlbfReq tlbfBad trap tret preq brk gateArm gateCancel pmark pmarkV sld sst fence copy chain chwp publ rput rtake tld wld
    mma azero ast blsub blcol qcast creduce tidset tidget stins stlook kvres sread swrite stamp reset image boot config attest vlog
    queueCreate queueMap queueDelete regionSuspend regionResume regionKill install hold unhold release passign pfree answer importSet
    exportSet profile debugAttach debugComparatorWrite debugResume debugReadAccumulator debugDetach freeze freezeDump freezeThaw
    replayRecord replayArm replayEnd notifyWrite eventWrite ntailWrite registerWrite queueSlotMap queueSlotUnmap launchPacket
    graphPacket waitPacket waitConditionMet regionRegister regionUpdate regionUnregister kvTableSet launchStart gangClaim gangPlace
    launchComplete loopIteration groupActivate groupEvict parkThreshold parkComplete fairnessLimit progressWaitLimit watchdog
    preemptRequest noticeDeadline gangParkComplete gangResume trapEntry valueLands lineFill storeQueueDepart homeAccessPerform
    walkStart walkerInstructionLimit logEntryReplay slotReclaim rootswStep sleepWake publInstant engineCommandStart
    engineCommandComplete chainRecord groupRetire gateTimeout pcComparatorMatch profilingInterval pcSample ingressRequest portBringUp
    portLoss linkKeyRenewal ptpEvent powerThrottle thermalHalt i3cResetRequest uncorrectableError shareWindowEnd ptpReferenceLoss

end Sys2Proof.Laws.RoundTrip

namespace Sys2Proof

/-- A word decodes to an instruction just when it is its word. -/
theorem decode_eq_ok_iff {w : Word} {i : Instr} : decode w = .ok i ↔ WordOf i w := by
  refine ⟨wordOf_of_decode, ?_⟩
  rintro ⟨hword, hwf, rfl⟩
  exact Laws.RoundTrip.statement i hword hwf

/-- Settles O43: each form's decoder answers only instructions whose word is the one read, and each constructor's word is read back. -/
theorem decodeAndEncodeAgree : Obligations.DecodeAndEncodeAgree :=
  ⟨Laws.RoundTrip.statement, fun _ _ => wordOf_of_decode⟩

/-- The major codes that 08: R157 assigns to no word. -/
def unassignedMajors : List Nat :=
  [0x00, 0x80, 0x8F, 0xAF] ++ List.range' 0x98 8 ++ List.range' 0xB3 13 ++ List.range' 0xD4 28 ++ List.range' 0xF3 13

theorem decodeMajor_unassigned {m : Nat} (hm : m ∈ unassignedMajors) (w : Word) : decodeMajor m w = none := by
  fin_cases hm <;> rfl

theorem decode_unassigned {w : Word} (hm : (major w).toNat ∈ unassignedMajors) : decode w = .illop := by
  rw [decode, decodeMajor_unassigned hm]

/-- Settles O42: the encoder writes the words, and no form reads a sample of a reserved field or an unassigned major code. -/
theorem wordsDecode : Obligations.WordsDecode := by
  have ok {i : Instr} {w : Word} (hword : i.isWord = true) (hwf : i.WellFormed) (h : encode i = w) : decode w = .ok i :=
    decode_eq_ok_iff.mpr ⟨hword, hwf, h⟩
  refine ⟨ok rfl rfl rfl, ok rfl rfl rfl, ok rfl rfl rfl, ok rfl rfl rfl, ok rfl rfl rfl, ok rfl rfl rfl, ok rfl rfl rfl, ok rfl rfl rfl,
    ok rfl rfl rfl, ok rfl rfl rfl, ok rfl rfl rfl, ok rfl rfl rfl, ok rfl rfl rfl, ok rfl rfl rfl, ok rfl rfl rfl,
    rfl, rfl, rfl, rfl, rfl, fun _ => decode_unassigned⟩

end Sys2Proof

end

section

/-! Conditions and direct branches (O21; 07: R141, R142, R144; 09: R182; 12: R228). -/

set_option Elab.async false

namespace Sys2Proof.Machine

/-! ## Targets -/

/-- The sum that a branch adds wraps at 2^56. -/
theorem branchTarget_eq_ofInt {n : Nat} (pc : BitVec 56) (off : BitVec n) :
    branchTarget pc off = BitVec.ofInt 56 (pc.toNat + 4 * off.toInt) := by
  have hoff : off.signExtend 56 <<< 2 = BitVec.ofInt 56 (4 * off.toInt) := by
    rw [BitVec.shiftLeft_eq_mul_twoPow, BitVec.ofInt_mul, BitVec.mul_comm]
    rfl
  rw [branchTarget, hoff, BitVec.ofInt_add, BitVec.ofInt_natCast, BitVec.ofNat_toNat, BitVec.setWidth_eq]

theorem setWidth_branchTarget {n : Nat} (pc : BitVec 56) (off : BitVec n) :
    (branchTarget pc off).setWidth 64 = BitVec.ofInt 64 ((pc.toNat + 4 * off.toInt) % 2 ^ 56) := by
  rw [branchTarget_eq_ofInt]
  apply BitVec.eq_of_toNat_eq
  rw [BitVec.toNat_setWidth, BitVec.toNat_ofInt, BitVec.toNat_ofInt]
  omega

/-! ## Lanes that jump -/

section

variable {s : State} {i : Instr} {is : Issue} {g : Group} {gd : Guard} {l : Nat} {target : Nat → BitVec 64}

theorem Group.jumpTo_eq (is : Issue) (m : BitVec 32) (target : Nat → BitVec 64) (g : Group) :
    ∃ p, g.jumpTo is m target = { g with ctl := { g.ctl with pcs := p } } := by
  obtain ⟨p, hp⟩ := g.advance_eq is
  obtain ⟨q, hq⟩ := (g.advance is).setPcs_eq m target
  exact ⟨q, by rw [Group.jumpTo, hq, hp]⟩

/-- The lanes that take a branch stand at their targets, the others of the set at the next word. -/
theorem Group.jumpTo_passing_pc (g h : Group) (hl : l < 32) :
    (h.jumpTo is (g.passing gd is.mask) target).pc l =
      if has is.mask l = true then (if g.guard gd l = true then target l else (is.pc + 4#56).setWidth 64) else h.pc l := by
  rw [Group.jumpTo, Group.setPcs_pc _ _ _ _ hl, Group.has_passing _ _ _ _ hl, Group.advance_pc _ _ _ hl]
  by_cases hm : has is.mask l = true <;> simp [hm]

/-- A word that sets the counters of its set by itself completes. -/
theorem completes_runGroup' {f : Issue → Group → Group} {P : Group → Prop} (he : exec i s = s.runGroup' i f) (hf : Fits s i is g)
    (hp : P (f is (g.atIssue i is))) : Completes s i is P := by
  obtain ⟨hi, hg, ht, hr, -⟩ := hf
  exact completes_setGroup (he.trans (State.runGroup'_ok hi hg ht hr)) hp

end

/-! ## The link of bral -/

/-- The group with the link x in v6:v7 of the lanes of m, as bral writes it. -/
def Group.linkTo (m : BitVec 32) (x : BitVec 64) (g : Group) : Group :=
  Group.setLanesIn (List.range 32) m 7 (fun _ => x.extractLsb' 32 32)
    (Group.setLanesIn (List.range 32) m 6 (fun _ => x.setWidth 32) g)

theorem exec_bral_linkTo (gd : Guard) (off : BitVec 18) (s : State) :
    exec (.bral gd off) s = s.runGroup' (.bral gd off) fun is g =>
      (g.linkTo (g.passing gd is.mask) ((is.pc + 4#56).setWidth 64)).jumpTo is (g.passing gd is.mask)
        fun _ => (branchTarget is.pc off).setWidth 64 := rfl

theorem Group.linkTo_eq (m : BitVec 32) (x : BitVec 64) (g : Group) :
    ∃ v, g.linkTo m x = { g with regs := { g.regs with v := v } } := by
  obtain ⟨v, hv⟩ := Group.setLanesIn_eq (List.range 32) m 6 (fun _ => x.setWidth 32) g
  obtain ⟨v', hv'⟩ := Group.setLanesIn_eq (List.range 32) m 7 (fun _ => x.extractLsb' 32 32) { g with regs := { g.regs with v := v } }
  exact ⟨v', by rw [Group.linkTo, hv, hv']⟩

theorem Group.linkTo_vreg (m : BitVec 32) (x : BitVec 64) (g : Group) (n l : Nat) (hl : l < 32) :
    (g.linkTo m x).vreg n l =
      if n = 6 ∧ has m l = true then BitVec.ofNat 32 x.toNat
      else if n = 7 ∧ has m l = true then BitVec.ofNat 32 (x.toNat / 2 ^ 32) else g.vreg n l := by
  have hlo : x.setWidth 32 = BitVec.ofNat 32 x.toNat := by rw [BitVec.ofNat_toNat]
  have hhi : x.extractLsb' 32 32 = BitVec.ofNat 32 (x.toNat / 2 ^ 32) := by
    apply BitVec.eq_of_toNat_eq
    rw [BitVec.extractLsb'_toNat, BitVec.toNat_ofNat, Nat.shiftRight_eq_div_pow]
  rw [Group.linkTo, Group.setLanesIn_vreg _ _ _ _ _ _ _ (by simp) hl, Group.setLanesIn_vreg _ _ _ _ _ _ _ (by simp) hl, hlo, hhi]
  by_cases h6 : n = 6 <;> simp [h6, hl]

/-! ## The words -/

theorem conditions : Claims.Conditions := by
  intro f
  simp [condHolds, flagS, flagZ, flagC, flagV]

theorem branches : Claims.Branches := by
  intro gd off s is g₀
  refine ⟨fun hf => completes_runGroup' (exec_bra gd off s) hf ?_, fun hf => completes_runGroup' (exec_bral_linkTo gd off s) hf ?_⟩
  · generalize g₀.atIssue (.bra gd off) is = g
    obtain ⟨p, hp⟩ := Group.jumpTo_eq is (g.passing gd is.mask) (fun _ => (branchTarget is.pc off).setWidth 64) g
    refine ⟨fun l hl => ?_, ?_⟩
    · rw [Group.jumpTo_passing_pc _ _ hl, setWidth_branchTarget]
    · rw [hp]
  · generalize g₀.atIssue (.bral gd off) is = g
    obtain ⟨v, hv⟩ := g.linkTo_eq (g.passing gd is.mask) ((is.pc + 4#56).setWidth 64)
    obtain ⟨p, hp⟩ := Group.jumpTo_eq is (g.passing gd is.mask) (fun _ => (branchTarget is.pc off).setWidth 64)
      (g.linkTo (g.passing gd is.mask) ((is.pc + 4#56).setWidth 64))
    refine ⟨fun l hl => ?_, fun n l hl => ?_, ?_⟩
    · rw [Group.jumpTo_passing_pc _ _ hl, setWidth_branchTarget, hv]
      rfl
    · have hlink := g.linkTo_vreg (g.passing gd is.mask) ((is.pc + 4#56).setWidth 64) n l hl
      rw [takes_ok _ _ _ _ hl, BitVec.toNat_setWidth_of_le (by decide)] at hlink
      rw [hp]
      exact hlink
    · rw [hp, hv]

theorem uniformBranch : Claims.UniformBranch := by
  intro c off s is g₀ hf
  refine completes_runGroup' (exec_ubra c off s) hf ?_
  generalize g₀.atIssue (.ubra c off) is = g
  split
  · next hc =>
    obtain ⟨p, hp⟩ := Group.setPcs_eq is.mask (fun _ => (branchTarget is.pc off).setWidth 64) g
    refine ⟨fun l hl => ?_, ?_⟩
    · rw [Group.goto, Group.setPcs_pc _ _ _ _ hl, setWidth_branchTarget, if_pos hc]
    · rw [Group.goto, hp]
  · next hc =>
    obtain ⟨p, hp⟩ := g.advance_eq is
    refine ⟨fun l hl => ?_, ?_⟩
    · rw [Group.advance_pc _ _ _ hl, if_neg hc]
    · rw [hp]

/-- Settles O21: the branch adds modulo 2^56, and a word's lanes part by its guard, or stay together by ucc. -/
theorem directBranches : Obligations.DirectBranches := ⟨conditions, branches, uniformBranch⟩

end Sys2Proof.Machine

end

section

/-! The checks of an issue (O40; 07: R137, R148; 02: R43; 08: R162): what each passes, and the trap of the first that fails. -/

set_option Elab.async false

namespace Sys2Proof.Machine

/-! ## Register checks -/

section

variable {a : Alloc} {xi : BitVec 8} {u : RegUse} {us : List RegUse} {n : Nat} {c : BitVec 8}

theorem RegUse.check_of_misaligned (hn : u.first xi = some n) (h : n % u.width ≠ 0) : u.check a xi = some codeRegalign := by
  simp [RegUse.check, hn, h]

theorem RegUse.check_of_beyond (hn : u.first xi = some n) (h : n % u.width = 0) (hb : a.limit u.cls < n + u.width) :
    u.check a xi = some codeRegbound := by
  simp [RegUse.check, hn, h, hb]

theorem checkUses_eq_none (h : ∀ u ∈ us, u.check a xi = none) : checkUses us a xi = none := by
  induction us with
  | nil => rfl
  | cons v r ih =>
    obtain ⟨hv, hr⟩ := List.forall_mem_cons.mp h
    simp [checkUses, hv, ih hr]

/-- The operand that fails first names the trap. -/
theorem checkUses_append (vs : List RegUse) (hus : ∀ v ∈ us, v.check a xi = none) (hu : u.check a xi = some c) :
    checkUses (us ++ u :: vs) a xi = some c := by
  induction us with
  | nil => simp [checkUses, hu]
  | cons v r ih =>
    obtain ⟨hv, hr⟩ := List.forall_mem_cons.mp hus
    simp [checkUses, hv, ih hr]

end

/-! ## The checks in their order -/

section

variable {s : State} {i : Instr} {set : BitVec 32} {g : Group}

theorem windowTrap_iff {xi : BitVec 8} {ps : Table Pend} :
    windowTrap i set xi ps = true ↔
      ∃ p ∈ ps, p.2.set &&& set ≠ 0#32 ∧ p.2.remaining ≠ 0 ∧ ∃ u ∈ i.uses, u.hits xi p.2 = true := by
  simp only [windowTrap, List.any_eq_true, Bool.and_eq_true, bne_iff_ne, and_assoc]

/-- The duty that the word asks for, if it asks for one, is the group's (01: R16). -/
def Group.onDuty (g : Group) (i : Instr) : Prop := ∀ d, i.duty = some d → d = g.id.duty

/-- The group's privilege meets what the word needs (08: R162). -/
def State.allows (s : State) (i : Instr) (g : Group) : Prop :=
  privilegeOk i.privilege g.id.walker (s.privileged g) (g.view.determinism == detReplay) = true

theorem State.wordTrap_of_not_onDuty (h : ¬ g.onDuty i) : s.wordTrap i set g = some codeIllop := by
  obtain ⟨d, h⟩ := not_forall.mp h
  obtain ⟨hd, hne⟩ := Classical.not_imp.mp h
  simp [State.wordTrap, hd, hne]

theorem State.wordTrap_of_not_allows (h : g.onDuty i) (hp : ¬ s.allows i g) : s.wordTrap i set g = some codePriv := by
  rw [State.allows, Bool.not_eq_true] at hp
  cases hd : i.duty with
  | none => simp [State.wordTrap, hd, hp]
  | some d => simp [State.wordTrap, hd, h d hd, hp]

/-- What is left of the checks for a word of the group's duty and privilege. -/
theorem State.wordTrap_of_allows (h : g.onDuty i) (hp : s.allows i g) :
    s.wordTrap i set g = (checkUses i.uses g.id.alloc g.regs.xi).or
      (if windowTrap i set g.regs.xi g.fl.pend = true then some codeWindow else none) := by
  rw [State.allows] at hp
  cases hd : i.duty with
  | none => cases hc : checkUses i.uses g.id.alloc g.regs.xi <;> simp [State.wordTrap, hd, hp, hc]
  | some d => cases hc : checkUses i.uses g.id.alloc g.regs.xi <;> simp [State.wordTrap, hd, h d hd, hp, hc]

end

/-- Settles O40: the checks in their order, the first register operand that fails named by the operands before it. -/
theorem checksOfAnIssue : Obligations.ChecksOfAnIssue := by
  intro s i set g duty priv ok open_
  have hpriv : priv ↔ s.allows i g := by
    simp only [priv, State.allows]
    cases i.privilege <;> simp [privilegeOk, detReplay, or_assoc]
  have hopen : open_ ↔ windowTrap i set g.regs.xi g.fl.pend = true := windowTrap_iff.symm
  rw [hpriv, hopen]
  refine ⟨State.wordTrap_of_not_onDuty, State.wordTrap_of_not_allows,
    fun hd hp us u vs huses hus n hn => ⟨fun hmis => ?_, fun hal hb => ?_⟩, fun hd hp hus hw => ?_, fun hd hp hus hw => ?_⟩
  · rw [State.wordTrap_of_allows hd hp, huses, checkUses_append vs hus (RegUse.check_of_misaligned hn hmis)]
    rfl
  · rw [State.wordTrap_of_allows hd hp, huses, checkUses_append vs hus (RegUse.check_of_beyond hn hal hb)]
    rfl
  · rw [State.wordTrap_of_allows hd hp, checkUses_eq_none hus, if_pos hw]
    rfl
  · rw [State.wordTrap_of_allows hd hp, checkUses_eq_none hus, if_neg hw]
    rfl

end Sys2Proof.Machine

end

section

/-! What an issue does to the windows of its set (O47; 07: R145 to R147; 02: R56): what one pending destination becomes, what its move leaves
of registers and landing lines, and the pending destinations one after another. -/

set_option Elab.async false

namespace Sys2Proof.Machine

/-! ## The move of a pending destination -/

/-- Reading a table of which the entries whose keys fail a test are gone. -/
theorem Table.getD_filter_keys {α : Type} (p : Nat → Bool) (t : Table α) (k : Nat) (z : α) :
    Table.getD (t.filter fun e => p e.1) k z = if p k = true then Table.getD t k z else z := by
  induction t with
  | nil => simp
  | cons e r ih =>
    obtain ⟨j, v⟩ := e
    rw [List.filter_cons]
    by_cases hp : p j = true <;> by_cases hj : j = k
    · subst hj; simp [hp, Table.getD]
    · simp [hp, hj, Table.getD, ih]
    · subst hj; simp [hp, ih]
    · simp [hp, hj, Table.getD, ih]

/-- Registers written one after another in the lanes of a mask. -/
theorem Group.foldl_setLanesIn (m : BitVec 32) (n w : Nat) (val : Nat → Nat → BitVec 32) (g : Group) :
    (∃ v, (List.range w).foldl (fun h j => Group.setLanesIn (List.range 32) m (n + j) (val j) h) g
        = { g with regs := { g.regs with v := v } })
      ∧ ∀ k l, l < 32 → ((List.range w).foldl (fun h j => Group.setLanesIn (List.range 32) m (n + j) (val j) h) g).vreg k l
          = if n ≤ k ∧ k < n + w ∧ has m l = true then val (k - n) l else g.vreg k l := by
  induction w with
  | zero => exact ⟨⟨g.regs.v, rfl⟩, fun k l _ => by simp; omega⟩
  | succ w ih =>
    obtain ⟨⟨v, hv⟩, hw⟩ := ih
    rw [List.range_succ (n := w), List.foldl_append, List.foldl_cons, List.foldl_nil]
    obtain ⟨v', hv'⟩ := Group.setLanesIn_eq (List.range 32) m (n + w) (val w) { g with regs := { g.regs with v := v } }
    refine ⟨⟨v', by rw [hv, ← hv']⟩, fun k l hl => ?_⟩
    rw [Group.setLanesIn_vreg _ _ _ _ _ _ _ (by simp) hl, hw k l hl]
    by_cases hk : k = n + w
    · subst hk; simp [hl]
    · have hlt : k < n + (w + 1) ↔ k < n + w := by omega
      simp only [hk, hlt, false_and, if_false]

section

variable {g : Group} {slot : Nat} {p : Pend}

/-- A move changes registers, the descriptor and its landing lines, and nothing else. -/
theorem Group.movePend_eq (g : Group) (slot : Nat) (p : Pend) : ∃ v s, g.movePend slot p =
    { g with
      regs := { g.regs with v := v, s := s }
      fl := { g.fl with
        pend := Table.erase g.fl.pend slot
        landing := g.fl.landing.filter fun e => e.1 / 32 < p.line || p.line + p.width ≤ e.1 / 32 } } := by
  unfold Group.movePend
  split
  · exact ⟨g.regs.v, _, rfl⟩
  · obtain ⟨v, hv⟩ := (Group.foldl_setLanesIn p.lanes p.reg p.width (fun j l => g.landingWord (p.line + j) l) g).1
    exact ⟨v, g.regs.s, by rw [hv]⟩

theorem Group.movePend_pend (g : Group) (slot : Nat) (p : Pend) : (g.movePend slot p).fl.pend = Table.erase g.fl.pend slot := by
  obtain ⟨v, s, h⟩ := g.movePend_eq slot p
  rw [h]

theorem Group.movePend_vreg_of_vector (hu : p.uniform = false) (n l : Nat) (hl : l < 32) : (g.movePend slot p).vreg n l =
    if p.reg ≤ n ∧ n < p.reg + p.width ∧ has p.lanes l = true then g.landingWord (p.line + (n - p.reg)) l else g.vreg n l := by
  refine Eq.trans ?_ ((Group.foldl_setLanesIn p.lanes p.reg p.width (fun j l => g.landingWord (p.line + j) l) g).2 n l hl)
  simp only [Group.movePend, hu, Group.vreg, Bool.false_eq_true, if_false]

theorem Group.movePend_vreg_of_uniform (hu : p.uniform = true) (n l : Nat) : (g.movePend slot p).vreg n l = g.vreg n l := by
  simp [Group.movePend, hu, Group.vreg]

theorem Group.movePend_sreg_of_uniform (hu : p.uniform = true) (n : Nat) : (g.movePend slot p).sreg n =
    if n = p.reg then g.landingWord p.line 1 ++ g.landingWord p.line 0 else g.sreg n := by
  simp [Group.movePend, hu, Group.sreg, Table.getD_put]

theorem Group.movePend_sreg_of_vector (hu : p.uniform = false) (n : Nat) : (g.movePend slot p).sreg n = g.sreg n := by
  obtain ⟨v, hv⟩ := (Group.foldl_setLanesIn p.lanes p.reg p.width (fun j l => g.landingWord (p.line + j) l) g).1
  simp only [Group.movePend, hu, Bool.false_eq_true, if_false, hv, Group.sreg]

theorem Group.movePend_landingWord_of_out {m k : Nat} (hk : k < 32) (hm : m < p.line ∨ p.line + p.width ≤ m) :
    (g.movePend slot p).landingWord m k = g.landingWord m k := by
  have hdiv : (32 * m + k) / 32 = m := by omega
  obtain ⟨v, s, h⟩ := g.movePend_eq slot p
  rw [Group.landingWord, h, Table.getD_filter_keys (fun j => j / 32 < p.line || p.line + p.width ≤ j / 32), if_pos]
  · rfl
  · simpa [hdiv] using hm

end

/-! ## One pending destination at an issue -/

/-- The value moves at the issue: the set counts in the window, which has ended or is closed. -/
def Pend.Moves (closer : Bool) (set : BitVec 32) (p : Pend) : Prop := p.set &&& set ≠ 0#32 ∧ (closer = true ∨ p.remaining = 0)

/-- What the issue leaves of the descriptor. -/
def Pend.settled (closer : Bool) (set : BitVec 32) (p : Pend) : Option Pend :=
  if p.set &&& set = 0#32 then some p
  else if closer || p.remaining = 0 then none
  else some { p with remaining := p.remaining - 1 }

section

variable {closer : Bool} {set : BitVec 32} {g : Group} {e : Nat × Pend}

theorem Group.settleOne_of_moves (h : e.2.Moves closer set) : g.settleOne closer set e = g.movePend e.1 e.2 := by
  obtain ⟨hset, hend⟩ := h
  have hend : (closer || decide (e.2.remaining = 0)) = true := by simpa using hend
  rw [Group.settleOne, if_neg hset, if_pos hend]

/-- Where nothing moves, at most the count of the descriptor changes. -/
theorem Group.settleOne_of_not_moves (h : ¬ e.2.Moves closer set) :
    ∃ ps, g.settleOne closer set e = { g with fl := { g.fl with pend := ps } } := by
  unfold Group.settleOne
  split
  · exact ⟨g.fl.pend, rfl⟩
  · next hset =>
    rw [if_neg fun hend => h ⟨hset, by simpa using hend⟩]
    exact ⟨_, rfl⟩

theorem Group.settleOne_pend (he : Table.get? g.fl.pend e.1 = some e.2) (k : Nat) :
    Table.get? (g.settleOne closer set e).fl.pend k =
      if k = e.1 then e.2.settled closer set else Table.get? g.fl.pend k := by
  unfold Group.settleOne Pend.settled
  split
  · split
    · next hk => rw [hk, he]
    · rfl
  split
  · rw [Group.movePend_pend]
    split
    · next hk => rw [hk, Table.get?_erase_self]
    · next hk => exact Table.get?_erase_ne _ hk
  · exact Table.get?_set ..

theorem Group.settleOne_frame (closer : Bool) (set : BitVec 32) (g : Group) (e : Nat × Pend) :
    ∃ ps t v s, g.settleOne closer set e =
      { g with regs := { g.regs with v := v, s := s }, fl := { g.fl with pend := ps, landing := t } } := by
  by_cases hm : e.2.Moves closer set
  · obtain ⟨v, s, h⟩ := g.movePend_eq e.1 e.2
    exact ⟨_, _, v, s, (Group.settleOne_of_moves hm).trans h⟩
  · obtain ⟨ps, h⟩ := Group.settleOne_of_not_moves (g := g) hm
    exact ⟨ps, g.fl.landing, g.regs.v, g.regs.s, h⟩

theorem Group.settleOne_vreg {j l : Nat} (hm : e.2.Moves closer set) (hu : e.2.uniform = false) (hj : j < e.2.width) (hl : l < 32) :
    (g.settleOne closer set e).vreg (e.2.reg + j) l =
      if has e.2.lanes l = true then g.landingWord (e.2.line + j) l else g.vreg (e.2.reg + j) l := by
  rw [Group.settleOne_of_moves hm, Group.movePend_vreg_of_vector hu _ _ hl]
  simp [hj]

theorem Group.settleOne_vreg_else {n l : Nat} (hl : l < 32)
    (hn : e.2.Moves closer set → e.2.uniform = false → n < e.2.reg ∨ e.2.reg + e.2.width ≤ n) :
    (g.settleOne closer set e).vreg n l = g.vreg n l := by
  by_cases hm : e.2.Moves closer set
  · rw [Group.settleOne_of_moves hm]
    cases hu : e.2.uniform with
    | false =>
      have hout := hn hm hu
      rw [Group.movePend_vreg_of_vector hu _ _ hl, if_neg (by omega)]
    | true => exact Group.movePend_vreg_of_uniform hu n l
  · obtain ⟨ps, h⟩ := Group.settleOne_of_not_moves (g := g) hm
    rw [h]
    rfl

theorem Group.settleOne_sreg (hm : e.2.Moves closer set) (hu : e.2.uniform = true) :
    (g.settleOne closer set e).sreg e.2.reg = g.landingWord e.2.line 1 ++ g.landingWord e.2.line 0 := by
  rw [Group.settleOne_of_moves hm, Group.movePend_sreg_of_uniform hu, if_pos rfl]

theorem Group.settleOne_sreg_else {n : Nat} (hn : e.2.Moves closer set → e.2.uniform = true → n ≠ e.2.reg) :
    (g.settleOne closer set e).sreg n = g.sreg n := by
  by_cases hm : e.2.Moves closer set
  · rw [Group.settleOne_of_moves hm]
    cases hu : e.2.uniform with
    | false => exact Group.movePend_sreg_of_vector hu n
    | true => rw [Group.movePend_sreg_of_uniform hu, if_neg (hn hm hu)]
  · obtain ⟨ps, h⟩ := Group.settleOne_of_not_moves (g := g) hm
    rw [h]
    rfl

theorem Group.settleOne_landingWord_else {m k : Nat} (hk : k < 32) (hm : m < e.2.line ∨ e.2.line + e.2.width ≤ m) :
    (g.settleOne closer set e).landingWord m k = g.landingWord m k := by
  by_cases hmove : e.2.Moves closer set
  · rw [Group.settleOne_of_moves hmove, Group.movePend_landingWord_of_out hk hm]
  · obtain ⟨ps, h⟩ := Group.settleOne_of_not_moves (g := g) hmove
    rw [h]
    rfl

end

/-! ## Pending destinations one after another -/

/-- Two pending destinations share no landing line and no register. -/
def Pend.Apart (p q : Pend) : Prop :=
  (p.line + p.width ≤ q.line ∨ q.line + q.width ≤ p.line)
    ∧ (p.uniform = q.uniform → p.reg + p.width ≤ q.reg ∨ q.reg + q.width ≤ p.reg)

/-- h is what the issue makes of g by settling the pending destinations es. -/
structure Settled (closer : Bool) (set : BitVec 32) (es : Table Pend) (g h : Group) : Prop where
  frame : ∃ ps t v s, h = { g with regs := { g.regs with v := v, s := s }, fl := { g.fl with pend := ps, landing := t } }
  pend : ∀ e ∈ es, Table.get? h.fl.pend e.1 = e.2.settled closer set
  pend_else : ∀ k, k ∉ es.map Prod.fst → Table.get? h.fl.pend k = Table.get? g.fl.pend k
  vreg : ∀ e ∈ es, e.2.Moves closer set → e.2.uniform = false → ∀ j l, j < e.2.width → l < 32 →
    h.vreg (e.2.reg + j) l = if has e.2.lanes l = true then g.landingWord (e.2.line + j) l else g.vreg (e.2.reg + j) l
  vreg_else : ∀ n l, l < 32 → (∀ e ∈ es, e.2.Moves closer set → e.2.uniform = false → n < e.2.reg ∨ e.2.reg + e.2.width ≤ n) →
    h.vreg n l = g.vreg n l
  sreg : ∀ e ∈ es, e.2.Moves closer set → e.2.uniform = true →
    h.sreg e.2.reg = g.landingWord e.2.line 1 ++ g.landingWord e.2.line 0
  sreg_else : ∀ n, (∀ e ∈ es, e.2.Moves closer set → e.2.uniform = true → n ≠ e.2.reg) → h.sreg n = g.sreg n

/-- Pending destinations that stay apart are settled each as if it were alone. -/
theorem settled_foldl {closer : Bool} {set : BitVec 32} {es : Table Pend} (hkeys : (es.map Prod.fst).Nodup)
    (hap : es.Pairwise fun e f => e.2.Apart f.2) (hwidth : ∀ e ∈ es, e.2.uniform = true → e.2.width = 1)
    (g : Group) (hget : ∀ e ∈ es, Table.get? g.fl.pend e.1 = some e.2) :
    Settled closer set es g (es.foldl (Group.settleOne closer set) g) := by
  induction es generalizing g with
  | nil => exact ⟨⟨g.fl.pend, g.fl.landing, g.regs.v, g.regs.s, rfl⟩, by simp, by simp, by simp, by simp, by simp, by simp⟩
  | cons e r ih =>
    obtain ⟨hkey, hkeys⟩ := List.nodup_cons.mp hkeys
    obtain ⟨hapart, hap⟩ := List.pairwise_cons.mp hap
    obtain ⟨hwe, hwidth⟩ := List.forall_mem_cons.mp hwidth
    obtain ⟨hge, hget⟩ := List.forall_mem_cons.mp hget
    have hne : ∀ f ∈ r, f.1 ≠ e.1 := fun f hf h => hkey (List.mem_map.mpr ⟨f, hf, h⟩)
    have hstep := Group.settleOne_pend (closer := closer) (set := set) hge
    have hrest := ih hkeys hap hwidth (g.settleOne closer set e) fun f hf => by rw [hstep, if_neg (hne f hf), hget f hf]
    rw [List.foldl_cons]
    constructor
    case frame =>
      obtain ⟨ps, t, v, s, h⟩ := g.settleOne_frame closer set e
      obtain ⟨ps', t', v', s', h'⟩ := hrest.frame
      exact ⟨ps', t', v', s', by rw [h', h]⟩
    case pend =>
      refine List.forall_mem_cons.mpr ⟨?_, hrest.pend⟩
      rw [hrest.pend_else _ hkey, hstep, if_pos rfl]
    case pend_else =>
      intro k hk
      obtain ⟨hke, hkr⟩ := List.ne_and_not_mem_of_not_mem_cons hk
      rw [hrest.pend_else k hkr, hstep, if_neg hke]
    case vreg =>
      refine List.forall_mem_cons.mpr ⟨fun hm hu j l hj hl => ?_, fun f hf hm hu j l hj hl => ?_⟩
      · rw [← Group.settleOne_vreg hm hu hj hl]
        refine hrest.vreg_else _ l hl fun f hf _ huf => ?_
        have := (hapart f hf).2 (hu.trans huf.symm)
        omega
      · obtain ⟨hlines, hregs⟩ := hapart f hf
        rw [hrest.vreg f hf hm hu j l hj hl, Group.settleOne_landingWord_else hl (by omega), Group.settleOne_vreg_else hl]
        intro _ hue
        have := hregs (hue.trans hu.symm)
        omega
    case vreg_else =>
      intro n l hl hn
      obtain ⟨hne, hnr⟩ := List.forall_mem_cons.mp hn
      rw [hrest.vreg_else n l hl hnr, Group.settleOne_vreg_else hl hne]
    case sreg =>
      refine List.forall_mem_cons.mpr ⟨fun hm hu => ?_, fun f hf hm hu => ?_⟩
      · rw [← Group.settleOne_sreg hm hu]
        refine hrest.sreg_else _ fun f hf _ huf => ?_
        have := (hapart f hf).2 (hu.trans huf.symm)
        have := hwe hu
        have := hwidth f hf huf
        omega
      · obtain ⟨hlines, -⟩ := hapart f hf
        have := hwidth f hf hu
        rw [hrest.sreg f hf hm hu, Group.settleOne_landingWord_else (by omega) (by omega),
          Group.settleOne_landingWord_else (by omega) (by omega)]
    case sreg_else =>
      intro n hn
      obtain ⟨hne, hnr⟩ := List.forall_mem_cons.mp hn
      rw [hrest.sreg_else n hnr, Group.settleOne_sreg_else hne]

/-- Settles O47: the pending destinations of the group, one after another, each as if it were alone. -/
theorem windowsAtAnIssue : Obligations.WindowsAtAnIssue := by
  intro closer set g hkeys hapart hfit h moves
  have hget : ∀ e ∈ g.fl.pend, Table.get? g.fl.pend e.1 = some e.2 := fun e he => Table.get?_of_mem hkeys he
  have hap : g.fl.pend.Pairwise fun e f => e.2.Apart f.2 :=
    (List.pairwise_map.mp hkeys).imp_of_mem fun he hf hne => hapart _ _ _ _ (hget _ he) (hget _ hf) hne
  have hs : Settled closer set g.fl.pend g h :=
    settled_foldl hkeys hap (fun e he => (hfit _ _ (hget e he)).2) g hget
  refine ⟨fun a p hp => ⟨fun hset => ?_, fun hset hclose hrem => ?_, fun hm => ⟨?_, fun hu => ?_, fun hu => ?_⟩⟩, ?_, ?_, ?_⟩
  · rw [hs.pend _ (Table.mem_of_get? hp), Pend.settled, if_pos hset]
  · rw [hs.pend _ (Table.mem_of_get? hp), Pend.settled, if_neg hset, if_neg (by simp [hclose, hrem])]
  · rw [hs.pend _ (Table.mem_of_get? hp), Pend.settled, if_neg hm.1, if_pos (by simpa using hm.2)]
  · exact hs.vreg _ (Table.mem_of_get? hp) hm hu
  · exact hs.sreg _ (Table.mem_of_get? hp) hm hu
  · exact fun n l hl hn => hs.vreg_else n l hl fun e he => hn _ _ (hget e he)
  · exact fun n hn => hs.sreg_else n fun e he => hn _ _ (hget e he)
  · obtain ⟨ps, t, v, s, hframe⟩ := hs.frame
    rw [hframe]

end Sys2Proof.Machine

end

section

/-! Integer arithmetic of the lanes (O1; 09: R168, R170, R172, R173): each operation on words as the operation on whole numbers. -/

set_option Elab.async false

namespace Sys2Proof.Machine

/-! ## Minimum, maximum, absolute value and the saturated sum -/

section

variable (x y : BitVec 32)

theorem minI32_eq_ofInt : minI32 x y = BitVec.ofInt 32 (min x.toInt y.toInt) := by
  rw [minI32]
  split
  · next h => rw [min_eq_left (BitVec.sle_iff_toInt_le.mp h), BitVec.ofInt_toInt]
  · next h => rw [min_eq_right (by rw [BitVec.sle_iff_toInt_le] at h; omega), BitVec.ofInt_toInt]

theorem maxI32_eq_ofInt : maxI32 x y = BitVec.ofInt 32 (max x.toInt y.toInt) := by
  rw [maxI32]
  split
  · next h => rw [max_eq_right (BitVec.sle_iff_toInt_le.mp h), BitVec.ofInt_toInt]
  · next h => rw [max_eq_left (by rw [BitVec.sle_iff_toInt_le] at h; omega), BitVec.ofInt_toInt]

theorem minN32_eq_ofNat : minN32 x y = BitVec.ofNat 32 (min x.toNat y.toNat) := by
  rw [minN32]
  split
  · next h => rw [min_eq_left (BitVec.ule_iff_toNat_le.mp h), BitVec.ofNat_toNat, BitVec.setWidth_eq]
  · next h => rw [min_eq_right (by rw [BitVec.ule_iff_toNat_le] at h; omega), BitVec.ofNat_toNat, BitVec.setWidth_eq]

theorem maxN32_eq_ofNat : maxN32 x y = BitVec.ofNat 32 (max x.toNat y.toNat) := by
  rw [maxN32]
  split
  · next h => rw [max_eq_right (BitVec.ule_iff_toNat_le.mp h), BitVec.ofNat_toNat, BitVec.setWidth_eq]
  · next h => rw [max_eq_left (by rw [BitVec.ule_iff_toNat_le] at h; omega), BitVec.ofNat_toNat, BitVec.setWidth_eq]

/-- The absolute value of the most negative number wraps to itself. -/
theorem abs_eq_ofNat_natAbs : (if x.msb then 0#32 - x else x) = BitVec.ofNat 32 x.toInt.natAbs := by
  have hx := x.isLt
  apply BitVec.eq_of_toNat_eq
  rw [BitVec.toInt_eq_msb_cond, BitVec.toNat_ofNat]
  split
  · rw [BitVec.toNat_sub, BitVec.toNat_ofNat]
    omega
  · omega

theorem toInt_addSat : (addSat x y).toInt = max (-(2 ^ 31)) (min (2 ^ 31 - 1) (x.toInt + y.toInt)) := by
  simp only [addSat]
  split
  · rw [BitVec.toInt_intMin]
    omega
  split
  · rw [BitVec.toInt_intMax]
    omega
  · rw [BitVec.toInt_ofInt, Int.bmod_eq_of_le (by omega) (by omega)]
    omega

theorem minI32_addSat (z : BitVec 32) : minI32 z (addSat x y) =
    BitVec.ofInt 32 (min z.toInt (max (-(2 ^ 31)) (min (2 ^ 31 - 1) (x.toInt + y.toInt)))) := by
  rw [minI32_eq_ofInt, toInt_addSat]

theorem maxI32_addSat (z : BitVec 32) : maxI32 z (addSat x y) =
    BitVec.ofInt 32 (max z.toInt (max (-(2 ^ 31)) (min (2 ^ 31 - 1) (x.toInt + y.toInt)))) := by
  rw [maxI32_eq_ofInt, toInt_addSat]

end

/-! ## Sums, differences and products of words of any width -/

section

variable {w : Nat} (x y : BitVec w)

theorem add_eq_ofNat : x + y = BitVec.ofNat w (x.toNat + y.toNat) := by
  simp [BitVec.ofNat_add]

theorem sub_eq_ofInt : x - y = BitVec.ofInt w (x.toInt - y.toInt) := by
  rw [Int.sub_eq_add_neg, BitVec.ofInt_add, BitVec.ofInt_neg, BitVec.ofInt_toInt, BitVec.ofInt_toInt, BitVec.sub_eq_add_neg]

theorem mul_eq_ofNat : x * y = BitVec.ofNat w (x.toNat * y.toNat) := by
  simp [BitVec.ofNat_mul]

theorem zero_sub_eq_ofInt : 0#w - x = BitVec.ofInt w (-x.toInt) := by
  simp [sub_eq_ofInt]

theorem add_signExtend_eq_ofInt {n : Nat} (imm : BitVec n) : x + imm.signExtend w = BitVec.ofInt w (x.toInt + imm.toInt) := by
  simp [BitVec.signExtend, BitVec.ofInt_add]

end

/-- Settles O1: each word is of the guarded lane form, and its value is the whole number of the rule taken modulo 2^32. -/
theorem laneIntegerArithmetic : Obligations.LaneIntegerArithmetic := by
  intro gd d a b imm
  exact ⟨laneOp_ok (exec_iadd gd d a b) fun g l _ => add_eq_ofNat _ _,
    laneOp_ok (exec_iaddi gd d a imm) fun g l _ => add_signExtend_eq_ofInt _ _,
    laneOp_ok (exec_isub gd d a b) fun g l _ => sub_eq_ofInt _ _,
    laneOp_ok (exec_imul gd d a b) fun g l _ => mul_eq_ofNat _ _,
    laneOp_ok (exec_imulh gd d a b) fun g l _ => rfl,
    laneOp_ok (exec_imulhu gd d a b) fun g l _ => rfl,
    laneOp_ok (exec_imad gd d a b) fun g l _ => by rw [mul_eq_ofNat, BitVec.ofNat_add, BitVec.ofNat_toNat, BitVec.setWidth_eq],
    laneOp_ok (exec_imin gd d a b) fun g l _ => minI32_eq_ofInt _ _,
    laneOp_ok (exec_imax gd d a b) fun g l _ => maxI32_eq_ofInt _ _,
    laneOp_ok (exec_iminu gd d a b) fun g l _ => minN32_eq_ofNat _ _,
    laneOp_ok (exec_imaxu gd d a b) fun g l _ => maxN32_eq_ofNat _ _,
    laneOp_ok (exec_iabs gd d a) fun g l _ => abs_eq_ofNat_natAbs _,
    laneOp_ok (exec_ineg gd d a) fun g l _ => zero_sub_eq_ofInt _,
    laneOp_ok (exec_iaddmin gd d a b) fun g l _ => minI32_addSat _ _ _,
    laneOp_ok (exec_iaddmax gd d a b) fun g l _ => maxI32_addSat _ _ _⟩

end Sys2Proof.Machine

end

section

/-! Logic, shifts and rotation of the lanes (O2; 09: R174): bits, and shifts as products and quotients by powers of two. -/

set_option Elab.async false

namespace Sys2Proof.Machine

section

variable {w : Nat}

theorem eq_ofFnLE {x : BitVec w} {f : Fin w → Bool} (h : ∀ k : Fin w, x.getLsbD k = f k) : x = BitVec.ofFnLE f := by
  refine BitVec.eq_of_getElem_eq fun i hi => ?_
  rw [BitVec.getElem_ofFnLE, ← h ⟨i, hi⟩, BitVec.getLsbD_eq_getElem]

/-! ## Shifts of words of any width -/

variable (x : BitVec w) (n : Nat)

theorem shamt_eq_mod (b : BitVec 32) : shamt b = b.toNat % 256 := BitVec.toNat_setWidth 8 b

theorem shiftLeft_eq_ofNat : x <<< n = if n < w then BitVec.ofNat w (x.toNat * 2 ^ n) else 0#w := by
  split
  · apply BitVec.eq_of_toNat_eq
    rw [BitVec.toNat_shiftLeft, BitVec.toNat_ofNat, Nat.shiftLeft_eq]
  · exact BitVec.shiftLeft_eq_zero (by omega)

theorem ushiftRight_eq_ofNat : x >>> n = if n < w then BitVec.ofNat w (x.toNat / 2 ^ n) else 0#w := by
  split
  · apply BitVec.eq_of_toNat_eq
    rw [BitVec.toNat_ushiftRight, BitVec.toNat_ofNat, Nat.shiftRight_eq_div_pow,
      Nat.mod_eq_of_lt ((Nat.div_le_self _ _).trans_lt x.isLt)]
  · exact BitVec.ushiftRight_eq_zero (by omega)

/-- A shift by the width or more leaves copies of the sign. -/
theorem sshiftRight_eq_ofInt : x.sshiftRight n = if n < w then BitVec.ofInt w (x.toInt / 2 ^ n)
    else if x.getLsbD (w - 1) then BitVec.allOnes w else 0#w := by
  split
  · apply BitVec.eq_of_toInt_eq
    rw [← BitVec.ofInt_toInt (x := x.sshiftRight n), BitVec.toInt_sshiftRight, Int.shiftRight_eq_div_pow]
    norm_cast
  · next h =>
    refine BitVec.eq_of_getLsbD_eq fun i hi => ?_
    rw [BitVec.getLsbD_sshiftRight, BitVec.msb_eq_getLsbD_last, if_neg (by omega), decide_eq_false (by omega)]
    cases x.getLsbD (w - 1) <;> simp [hi]

/-- The bits that leave at the top come in at the bottom. -/
theorem rotateLeft_eq_ofNat {n : Nat} (hn : n < w) :
    x.rotateLeft n = BitVec.ofNat w (x.toNat * 2 ^ n + x.toNat / 2 ^ (w - n)) := by
  have hw : 2 ^ w = 2 ^ n * 2 ^ (w - n) := by rw [← pow_add]; congr 1; omega
  have hlow : x.toNat / 2 ^ (w - n) < 2 ^ n := by
    rw [Nat.div_lt_iff_lt_mul (by positivity), ← hw]
    exact x.isLt
  have hkeep : x.toNat * 2 ^ n % 2 ^ w = 2 ^ n * (x.toNat % 2 ^ (w - n)) := by
    rw [hw, Nat.mul_comm, Nat.mul_mod_mul_left]
  have hsum : 2 ^ n * (x.toNat % 2 ^ (w - n)) + x.toNat / 2 ^ (w - n) < 2 ^ w := by
    calc 2 ^ n * (x.toNat % 2 ^ (w - n)) + x.toNat / 2 ^ (w - n)
        < 2 ^ n * (x.toNat % 2 ^ (w - n) + 1) := by rw [Nat.mul_add_one]; omega
      _ ≤ 2 ^ n * 2 ^ (w - n) := Nat.mul_le_mul_left _ (Nat.mod_lt _ (by positivity))
      _ = 2 ^ w := hw.symm
  apply BitVec.eq_of_toNat_eq
  rw [BitVec.toNat_rotateLeft, Nat.mod_eq_of_lt hn, Nat.shiftLeft_eq, Nat.shiftRight_eq_div_pow, hkeep,
    ← Nat.two_pow_add_eq_or_of_lt hlow, BitVec.toNat_ofNat, ← Nat.mod_add_mod, hkeep, Nat.mod_eq_of_lt hsum]

end

theorem rol32_eq_ofNat (x y : BitVec 32) :
    rol32 x y = BitVec.ofNat 32 (x.toNat * 2 ^ (y.toNat % 32) + x.toNat / 2 ^ (32 - y.toNat % 32)) := by
  have hr : (y.setWidth 5).toNat = y.toNat % 32 := BitVec.toNat_setWidth 5 y
  rw [rol32, hr, rotateLeft_eq_ofNat _ (Nat.mod_lt _ (by decide))]

/-- Settles O2: logic bit by bit, and shifts as multiplication and division by powers of two. -/
theorem laneLogicShifts : Obligations.LaneLogicShifts := by
  intro gd d a b n r
  refine ⟨laneOp_ok (exec_andL gd d a b) fun g l _ => eq_ofFnLE fun k => BitVec.getLsbD_and,
    laneOp_ok (exec_orL gd d a b) fun g l _ => eq_ofFnLE fun k => BitVec.getLsbD_or,
    laneOp_ok (exec_xorL gd d a b) fun g l _ => eq_ofFnLE fun k => BitVec.getLsbD_xor,
    laneOp_ok (exec_andn gd d a b) fun g l _ => eq_ofFnLE fun k => ?_,
    laneOp_ok (exec_shl gd d a b) fun g l _ => ?_, laneOp_ok (exec_shr gd d a b) fun g l _ => ?_,
    laneOp_ok (exec_sar gd d a b) fun g l _ => ?_, laneOp_ok (exec_rol gd d a b) fun g l _ => rol32_eq_ofNat _ _⟩
  · rw [BitVec.getLsbD_and, BitVec.getLsbD_not, decide_eq_true k.isLt, Bool.true_and]
  · rw [shamt_eq_mod, shiftLeft_eq_ofNat]
  · rw [shamt_eq_mod, ushiftRight_eq_ofNat]
  · rw [shamt_eq_mod, sshiftRight_eq_ofInt]

end Sys2Proof.Machine

end

section

/-! Bit fields, bit counts and reversal (O3; 09: R175, R176). -/

set_option Elab.async false

namespace Sys2Proof.Machine

section

variable (x y z : BitVec 32)

/-! ## Fields -/

theorem fieldWidth_eq_min : fieldWidth y = min (y.toNat / 2 ^ 8 % 64) 32 := by
  rw [fieldWidth, BitVec.extractLsb'_toNat, Nat.shiftRight_eq_div_pow]

theorem fieldPos_eq_mod : fieldPos y = y.toNat % 32 := BitVec.toNat_setWidth 5 y

/-- The inserted bits are those of A from bit 0 up; those past bit 31 are lost. -/
theorem getLsbD_bfi32 {k : Nat} (hk : k < 32) : (bfi32 z x y).getLsbD k =
    if fieldPos y ≤ k ∧ k < fieldPos y + fieldWidth y then x.getLsbD (k - fieldPos y) else z.getLsbD k := by
  have hmask : (BitVec.ofNat 32 ((2 ^ fieldWidth y - 1) <<< fieldPos y)).getLsbD k =
      decide (fieldPos y ≤ k ∧ k < fieldPos y + fieldWidth y) := by
    rw [BitVec.getLsbD_ofNat, Nat.testBit_shiftLeft, Nat.testBit_two_pow_sub_one, decide_eq_true hk, Bool.true_and,
      ← Bool.decide_and, decide_eq_decide]
    omega
  rw [bfi32, BitVec.getLsbD_or, BitVec.getLsbD_and, BitVec.getLsbD_and, BitVec.getLsbD_not, BitVec.getLsbD_shiftLeft, hmask]
  by_cases hin : fieldPos y ≤ k ∧ k < fieldPos y + fieldWidth y
  · simp [hin, hk]
  · simp [hin, hk]

/-! ## Counts -/

theorem popc32_eq_card : popc32 x = BitVec.ofNat 32 ((Finset.range 32).filter fun k => x.getLsbD k = true).card := by
  rw [popc32]
  congr 1
  simp [Finset.card, Finset.filter, Finset.range, Multiset.range]

theorem log2_toNat_of_getLsbD {x : BitVec 32} {i : Nat} (hi : i < 32) (hbit : x.getLsbD (31 - i) = true)
    (habove : ∀ j, j < i → x.getLsbD (31 - j) = false) : x.toNat.log2 = 31 - i := by
  have hle : 2 ^ (31 - i) ≤ x.toNat := Nat.ge_two_pow_of_testBit hbit
  have hlt : x.toNat < 2 ^ (31 - i + 1) := by
    refine Nat.lt_pow_two_of_testBit _ fun j hj => ?_
    by_cases hj32 : j < 32
    · have h := habove (31 - j) (by omega)
      rwa [Nat.sub_sub_self (by omega)] at h
    · exact BitVec.getLsbD_of_ge x j (by omega)
  have hne : x.toNat ≠ 0 := (Nat.two_pow_pos _).trans_le hle |>.ne'
  exact (Nat.log2_eq_iff hne).mpr ⟨hle, hlt⟩

theorem clz32_eq_log2 : clz32 x = if x = 0#32 then 32#32 else BitVec.ofNat 32 (31 - x.toNat.log2) := by
  unfold clz32
  split
  · next h =>
    have hzero : x = 0#32 := by
      refine BitVec.eq_of_getLsbD_eq fun i hi => ?_
      have hbit := List.find?_eq_none.mp h (31 - i) (List.mem_range.mpr (by omega))
      rw [Nat.sub_sub_self (by omega), Bool.not_eq_true] at hbit
      rw [hbit, BitVec.getLsbD_zero]
    rw [if_pos hzero]
  · next i h =>
    obtain ⟨hbit, hi, habove⟩ := List.find?_range_eq_some.mp h
    rw [List.mem_range] at hi
    have hne : x ≠ 0#32 := by
      rintro rfl
      simp at hbit
    rw [if_neg hne, log2_toNat_of_getLsbD hi hbit fun j hj => by simpa using habove j hj, Nat.sub_sub_self (by omega)]

theorem padicValNat_toNat_of_getLsbD {x : BitVec 32} {i : Nat} (hbit : x.getLsbD i = true)
    (hbelow : ∀ j, j < i → x.getLsbD j = false) : padicValNat 2 x.toNat = i := by
  have hne : x.toNat ≠ 0 := (Nat.two_pow_pos _).trans_le (Nat.ge_two_pow_of_testBit hbit) |>.ne'
  have hdvd : 2 ^ i ∣ x.toNat := by
    refine Nat.dvd_of_mod_eq_zero (Nat.eq_of_testBit_eq fun j => ?_)
    rw [Nat.testBit_mod_two_pow, Nat.zero_testBit]
    by_cases hj : j < i
    · rw [show x.toNat.testBit j = false from hbelow j hj, Bool.and_false]
    · simp [hj]
  have hnot : ¬ 2 ^ (i + 1) ∣ x.toNat := by
    rintro ⟨m, hm⟩
    have hset : x.toNat.testBit i = true := hbit
    rw [hm, Nat.testBit_two_pow_mul] at hset
    simp at hset
  have : Fact (Nat.Prime 2) := ⟨Nat.prime_two⟩
  rw [padicValNat_dvd_iff_le hne] at hdvd hnot
  omega

theorem ctz32_eq_padicValNat : ctz32 x = if x = 0#32 then 32#32 else BitVec.ofNat 32 (padicValNat 2 x.toNat) := by
  unfold ctz32
  split
  · next h =>
    have hzero : x = 0#32 := by
      refine BitVec.eq_of_getLsbD_eq fun i hi => ?_
      have hbit := List.find?_eq_none.mp h i (List.mem_range.mpr hi)
      rw [Bool.not_eq_true] at hbit
      rw [hbit, BitVec.getLsbD_zero]
    rw [if_pos hzero]
  · next i h =>
    obtain ⟨hbit, -, hbelow⟩ := List.find?_range_eq_some.mp h
    have hne : x ≠ 0#32 := by
      rintro rfl
      simp at hbit
    rw [if_neg hne, padicValNat_toNat_of_getLsbD hbit fun j hj => by simpa using hbelow j hj]

end

/-- Settles O3: the position and the width of a field as numbers, the bits of an insertion, and counts by the highest and the lowest bit set. -/
theorem laneBitFields : Obligations.LaneBitFields := by
  intro gd d a b w p f
  have hw (g : Group) (l : Nat) : fieldWidth (g.rv b l) = w g l := fieldWidth_eq_min _
  have hp (g : Group) (l : Nat) : fieldPos (g.rv b l) = p g l := fieldPos_eq_mod _
  have hf (g : Group) (l : Nat) : (g.rv a l).toNat >>> fieldPos (g.rv b l) % 2 ^ fieldWidth (g.rv b l) = f g l := by
    rw [hw, hp, Nat.shiftRight_eq_div_pow]
  refine ⟨laneOp_ok (exec_bfxu gd d a b) fun g l _ => ?_, laneOp_ok (exec_bfx gd d a b) fun g l _ => ?_,
    laneOp_ok (exec_bfi gd d a b) fun g l _ => eq_ofFnLE fun k => ?_, laneOp_ok (exec_popc gd d a) fun g l _ => popc32_eq_card _,
    laneOp_ok (exec_clz gd d a) fun g l _ => clz32_eq_log2 _, laneOp_ok (exec_ctz gd d a) fun g l _ => ctz32_eq_padicValNat _,
    laneOp_ok (exec_brev gd d a) fun g l _ => eq_ofFnLE fun k => ?_⟩
  · rw [bfxu32, hf]
  · dsimp only [bfx32]
    rw [hf, hw]
  · rw [getLsbD_bfi32 _ _ _ k.isLt, hw, hp]
  · rw [brev32, BitVec.getLsbD_reverse, BitVec.getMsbD_eq_getLsbD, decide_eq_true k.isLt, Bool.true_and]

end Sys2Proof.Machine

end

section

/-! Add and subtract with carry (O4; 09: R169), and the flags that a word of any width gives on overflow. -/

set_option Elab.async false

namespace Sys2Proof.Machine

/-! ## Signed overflow -/

/-- A whole number is kept by w bits with sign only within their range. -/
theorem ne_toInt_ofInt_iff {w : Nat} (hw : 0 < w) (v : Int) :
    v ≠ (BitVec.ofInt w v).toInt ↔ v < -(2 ^ (w - 1)) ∨ 2 ^ (w - 1) ≤ v := by
  constructor
  · intro hne
    by_contra hin
    rw [not_or, not_lt, not_le] at hin
    have hcut : (2 : Int) ^ w = 2 * 2 ^ (w - 1) := by rw [← pow_succ', Nat.sub_add_cancel hw]
    refine hne ?_
    rw [BitVec.toInt_ofInt, Int.bmod_eq_of_le] <;> push_cast <;> omega
  · intro hout heq
    have hlow := BitVec.le_toInt (BitVec.ofInt w v)
    have hhigh := BitVec.toInt_lt (x := BitVec.ofInt w v)
    omega

/-! ## Sums and differences with carry -/

section

variable (x y : BitVec 32)

/-- The whole number that a carry counts for. -/
theorem toNat_carry (c : Bool) : (c.toNat : Int) = if c then 1 else 0 := by cases c <;> rfl

theorem toNat_not_carry (c : Bool) : ((!c).toNat : Int) = 1 - if c then 1 else 0 := by cases c <;> rfl

theorem msb_eq_getLsbD_31 (r : BitVec 32) : r.msb = r.getLsbD 31 := BitVec.msb_eq_getLsbD_last r

/-- The unsigned and the signed reading of a sum agree modulo 2^32. -/
theorem ofInt_sum_toNat (c : Int) : BitVec.ofInt 32 (x.toNat + y.toNat + c) = BitVec.ofInt 32 (x.toInt + y.toInt + c) := by
  simp [BitVec.ofInt_add]

theorem ofInt_diff_toNat (c : Int) : BitVec.ofInt 32 (x.toNat - y.toNat - c) = BitVec.ofInt 32 (x.toInt - y.toInt - c) := by
  simp [Int.sub_eq_add_neg, BitVec.ofInt_add, BitVec.ofInt_neg]

/-- The result and the flags of a sum or difference whose unsigned reading is t and whose signed reading is v; C is given. -/
def carried (t v : Int) (c : Bool) : BitVec 32 × BitVec 4 :=
  (BitVec.ofInt 32 t, flags ((BitVec.ofInt 32 t).getLsbD 31) (decide (BitVec.ofInt 32 t = 0#32)) c (decide (v < -(2 ^ 31) ∨ 2 ^ 31 ≤ v)))

theorem adcFlags_eq_carried (c : Bool) : adcFlags x y c =
    carried (x.toNat + y.toNat + if c then 1 else 0) (x.toInt + y.toInt + if c then 1 else 0)
      (decide ((2 : Int) ^ 32 ≤ x.toNat + y.toNat + if c then 1 else 0)) := by
  have hd : BitVec.ofNat 32 (x.toNat + y.toNat + c.toNat) = BitVec.ofInt 32 (x.toNat + y.toNat + c.toNat) := by
    rw [← BitVec.ofInt_natCast]
    push_cast
    rfl
  have hv := ne_toInt_ofInt_iff (w := 32) (by decide) (x.toInt + y.toInt + c.toNat)
  have hc : 2 ^ 32 ≤ x.toNat + y.toNat + c.toNat ↔ (2 : Int) ^ 32 ≤ x.toNat + y.toNat + c.toNat := by norm_cast
  rw [← ofInt_sum_toNat] at hv
  simp only [adcFlags, carried, hd, ← toNat_carry, msb_eq_getLsbD_31, hv, hc]
  rfl

theorem sbbFlags_eq_carried (c : Bool) : sbbFlags x y c =
    carried (x.toNat - y.toNat - (1 - if c then 1 else 0)) (x.toInt - y.toInt - (1 - if c then 1 else 0))
      (decide (0 ≤ (x.toNat : Int) - y.toNat - (1 - if c then 1 else 0))) := by
  have hv := ne_toInt_ofInt_iff (w := 32) (by decide) (x.toInt - y.toInt - (!c).toNat)
  rw [← ofInt_diff_toNat] at hv
  simp only [sbbFlags, carried, ← toNat_not_carry, msb_eq_getLsbD_31, hv]
  rfl

end

/-! ## The words -/

/-- One register and the flags of the guard's condition register are written in the lanes whose guard passes; the set goes on. -/
def CarryWrites (gd : Guard) (is : Issue) (g h : Group) (d : BitVec 6) (r : Nat → BitVec 32 × BitVec 4) : Prop :=
  (∀ n l, l < 32 → h.vreg n l = if g.eff d = some n ∧ takes gd is g l = true then (r l).1 else g.vreg n l)
    ∧ (∀ j l, l < 32 → cregGet (h.cond l) j =
      if j = gd.creg ∧ takes gd is g l = true then (r l).2 else cregGet (g.cond l) j)
    ∧ GoesOn is g h
    ∧ { h with regs := { h.regs with v := g.regs.v, c := g.regs.c }, ctl := { h.ctl with pcs := g.ctl.pcs } } = g

/-- The group after iadc or isbb, but for the counters of its set. -/
def Group.writeCarried (gd : Guard) (is : Issue) (d : BitVec 6) (r : Nat → BitVec 32 × BitVec 4) (g : Group) : Group :=
  Group.writeConds (g.passing gd is.mask) gd.creg (fun l => (r l).2) (g.writeLanes (g.passing gd is.mask) d fun l => (r l).1)

theorem carryWrites_advance (gd : Guard) (is : Issue) (d : BitVec 6) (r : Nat → BitVec 32 × BitVec 4) (g : Group) :
    CarryWrites gd is g ((g.writeCarried gd is d r).advance is) d r := by
  let m := g.passing gd is.mask
  let gv := g.writeLanes m d fun l => (r l).1
  obtain ⟨v, hv⟩ : ∃ v, gv = { g with regs := { g.regs with v := v } } := Group.writeLanes_eq m d _ g
  obtain ⟨c, hc⟩ : ∃ c, g.writeCarried gd is d r = { gv with regs := { gv.regs with c := c } } := Group.writeConds_eq m gd.creg _ gv
  obtain ⟨p, hp⟩ := Group.advance_eq is (g.writeCarried gd is d r)
  refine ⟨fun n l hl => ?_, fun j l hl => ?_, fun l hl => ?_, ?_⟩
  · have hreg : ((g.writeCarried gd is d r).advance is).vreg n l = gv.vreg n l := by rw [hp, hc]; rfl
    rw [hreg, Group.writeLanes_vreg _ _ _ _ _ _ hl, takes_ok _ _ _ _ hl]
  · have hcond : ((g.writeCarried gd is d r).advance is).cond l = (g.writeCarried gd is d r).cond l := by rw [hp]; rfl
    have hold : gv.cond l = g.cond l := by rw [hv]; rfl
    rw [hcond, Group.writeCarried, Group.writeConds_cond _ _ _ _ _ hl, takes_ok _ _ _ _ hl, hold]
    by_cases ht : takes gd is g l = true <;> simp [ht, cregGet_cregSet]
  · rw [Group.advance_pc _ _ _ hl, hc, hv]
    rfl
  · rw [hp, hc, hv]

/-- A word that writes a result and flags at once completes. -/
theorem completes_writeCarried {s : State} {i : Instr} {is : Issue} {g₀ : Group} {gd : Guard} {d : BitVec 6}
    {r r' : Group → Nat → BitVec 32 × BitVec 4} (he : exec i s = s.runGroup i fun is g => g.writeCarried gd is d (r g))
    (hr : ∀ g l, r g l = r' g l) (hf : Fits s i is g₀) :
    Completes s i is fun h => CarryWrites gd is (g₀.atIssue i is) h d (r' (g₀.atIssue i is)) := by
  obtain rfl : r = r' := funext₂ hr
  exact completes_runGroup he hf (carryWrites_advance _ _ _ _ _)

/-- Settles O4: both words write a result and flags at once, read from the group as it stands before either is written. -/
theorem laneCarryChain : Obligations.LaneCarryChain := by
  intro gd d a b s is g₀ i t v c cin hi hf
  rcases hi with ⟨rfl, rfl, rfl, rfl⟩ | ⟨rfl, rfl, rfl, rfl⟩
  · exact completes_writeCarried (r := fun g l => adcFlags (g.rv a l) (g.rv b l) (flagC (cregGet (g.cond l) gd.creg)))
      (exec_iadc gd d a b s) (fun g l => adcFlags_eq_carried _ _ _) hf
  · exact completes_writeCarried (r := fun g l => sbbFlags (g.rv a l) (g.rv b l) (flagC (cregGet (g.cond l) gd.creg)))
      (exec_isbb gd d a b s) (fun g l => sbbFlags_eq_carried _ _ _) hf

end Sys2Proof.Machine

end

section

/-! Compares, tests, moves of flags, select and immediates (O5; 09: R177 to R180). -/

set_option Elab.async false

namespace Sys2Proof.Machine

/-! ## Flags of compares and tests -/

section

variable {w : Nat} (x y : BitVec w)

theorem cmpFlags_eq_flags (hw : 0 < w) : cmpFlags x y =
    flags ((BitVec.ofInt w (x.toInt - y.toInt)).getLsbD (w - 1)) (decide (x = y)) (decide (y.toNat ≤ x.toNat))
      (decide (x.toInt - y.toInt < -(2 ^ (w - 1)) ∨ 2 ^ (w - 1) ≤ x.toInt - y.toInt)) := by
  have hz : (BitVec.ofInt w (x.toInt - y.toInt) == 0) = decide (x = y) := by
    rw [← sub_eq_ofInt, beq_eq_decide, decide_eq_decide]
    exact sub_eq_zero
  simp only [cmpFlags, sub_eq_ofInt x y, hz, BitVec.msb_eq_getLsbD_last, ← ne_toInt_ofInt_iff hw]

theorem testFlags_eq_flags : testFlags x y =
    flags (x.getLsbD (w - 1) && y.getLsbD (w - 1)) (decide (x &&& y = 0#w)) false false := by
  simp only [testFlags, BitVec.msb_eq_getLsbD_last, BitVec.getLsbD_and]
  rfl

end

theorem laneCompareAndFlagMoves : Claims.LaneCompareAndFlagMoves := by
  intro gd cd cj a b imm
  exact ⟨flagOp_ok (exec_icmp gd cd false a b) fun g l _ => cmpFlags_eq_flags _ _ (by decide),
    flagOp_ok (exec_icmp gd cd true a b) fun g l _ => cmpFlags_eq_flags _ _ (by decide),
    flagOp_ok (exec_itst gd cd false a b) fun g l _ => testFlags_eq_flags _ _,
    flagOp_ok (exec_itst gd cd true a b) fun g l _ => testFlags_eq_flags _ _,
    flagOp_ok (exec_cmov gd cd cj) fun g l _ => rfl,
    flagOp_ok (exec_cmovV gd cd a) fun g l _ => (BitVec.ofNat_toNat 4 _).symm,
    flagOp_ok (exec_cmovI gd cd imm) fun g l _ => rfl⟩

/-! ## Packed flags and immediates -/

/-- The packed flags are the four nibbles, c0 lowest (02: R39). -/
theorem setWidth_cond_eq_ofNat (c : BitVec 16) : c.setWidth 32 =
    BitVec.ofNat 32 ((cregGet c 0).toNat + 2 ^ 4 * (cregGet c 1).toNat + 2 ^ 8 * (cregGet c 2).toNat
      + 2 ^ 12 * (cregGet c 3).toNat) := by
  have hc := c.isLt
  have hnibble (k : BitVec 2) : (cregGet c k).toNat = c.toNat / 2 ^ (4 * k.toNat) % 2 ^ 4 := by
    rw [cregGet, BitVec.extractLsb'_toNat, Nat.shiftRight_eq_div_pow]
  have hsplit : c.toNat = c.toNat / 2 ^ 0 % 2 ^ 4 + 2 ^ 4 * (c.toNat / 2 ^ 4 % 2 ^ 4) + 2 ^ 8 * (c.toNat / 2 ^ 8 % 2 ^ 4)
      + 2 ^ 12 * (c.toNat / 2 ^ 12 % 2 ^ 4) := by omega
  rw [← BitVec.ofNat_toNat, hnibble, hnibble, hnibble, hnibble]
  exact congrArg (BitVec.ofNat 32) hsplit

/-- The shifted register leaves its low bits to the immediate. -/
theorem shiftLeft_or_setWidth_eq_ofNat (x : BitVec 32) (imm : BitVec 12) :
    x <<< 12 ||| imm.setWidth 32 = BitVec.ofNat 32 (x.toNat * 2 ^ 12 + imm.toNat) := by
  have himm := imm.isLt
  have hkeep : x.toNat * 2 ^ 12 % 2 ^ 32 = 2 ^ 12 * (x.toNat % 2 ^ 20) := by omega
  apply BitVec.eq_of_toNat_eq
  rw [BitVec.toNat_or, BitVec.toNat_shiftLeft, BitVec.toNat_setWidth_of_le (by decide), Nat.shiftLeft_eq, hkeep,
    ← Nat.two_pow_add_eq_or_of_lt himm, BitVec.toNat_ofNat]
  omega

theorem laneSelectAndImmediates : Claims.LaneSelectAndImmediates := by
  intro gd d a b imm
  exact ⟨laneOp_ok (exec_cmovR gd a) fun g l _ => setWidth_cond_eq_ofNat _,
    laneOp_of (m := fun is _ => is.mask) (exec_sel gd d a b) (fun _ _ _ _ => rfl) fun g l _ => rfl,
    laneOp_ok (exec_movi gd d imm) fun g l _ => rfl,
    laneOp_ok (exec_movhi gd d imm) fun g l _ => shiftLeft_or_setWidth_eq_ofNat _ _⟩

/-- Settles O5: the flags of a word of any width, and the moves, each of its own form of word. -/
theorem laneFlagsAndMoves : Obligations.LaneFlagsAndMoves := ⟨laneCompareAndFlagMoves, laneSelectAndImmediates⟩

end Sys2Proof.Machine

end

section

/-! 64-bit words on pairs (O6; 09: R181), by what sums, products and shifts of words of any width are. -/

set_option Elab.async false

namespace Sys2Proof.Machine

/-- Settles O6: each word is of the guarded pair form, and its value is the whole number of the rule taken modulo 2^64. -/
theorem lanePairArithmetic : Obligations.LanePairArithmetic := by
  intro gd d a b n
  refine ⟨pairOp_ok (exec_addw gd d a b) fun g l _ => add_eq_ofNat _ _, pairOp_ok (exec_subw gd d a b) fun g l _ => sub_eq_ofInt _ _,
    pairOp_ok (exec_shlw gd d a b) fun g l _ => ?_, pairOp_ok (exec_shrw gd d a b) fun g l _ => ?_,
    pairOp_ok (exec_sarw gd d a b) fun g l _ => ?_, pairOp_ok (exec_mulw gd d a b) fun g l _ => mul_eq_ofNat _ _⟩
  · rw [shamt_eq_mod, shiftLeft_eq_ofNat]
  · rw [shamt_eq_mod, ushiftRight_eq_ofNat]
  · rw [shamt_eq_mod, sshiftRight_eq_ofInt]

end Sys2Proof.Machine

end

section

/-! Quotient and remainder (O7; 09: R171; 07: R145). -/

set_option Elab.async false

namespace Sys2Proof.Machine

/-- The destination that a word opens whose written use is a run of w vector registers from d (07: R145). -/
theorem pendDest_of_vecUse {i : Instr} {d : BitVec 6} {w : Nat} {rd : Bool} (hla : i.lookahead.isSome = true)
    (hu : (i.uses.find? fun u => u.wr != 0 && (u.cls == .vector || u.cls == .uniform)) = some (vecUse d w w rd)) (xi : BitVec 8) :
    pendDest i xi = if d = 63#6 then none else some (false, d.toNat + xi.toNat, w) := by
  obtain ⟨la, hla⟩ := Option.isSome_iff_exists.mp hla
  have hvz : d.toNat = 63 ↔ d = 63#6 := BitVec.toNat_inj (y := 63#6)
  rw [pendDest, hla]
  simp only [hu]
  by_cases hd : d = 63#6 <;> simp [RegUse.first, vecUse, hvz, hd]

/-! ## The table of R171 -/

section

variable (x y : BitVec 32)

/-- The quotient of the most negative number by -1 wraps to itself. -/
theorem quotI32_eq : quotI32 x y = if y = 0#32 then 0xFFFFFFFF#32
    else if x = 0x80000000#32 ∧ y = 0xFFFFFFFF#32 then 0x80000000#32 else BitVec.ofInt 32 (x.toInt.tdiv y.toInt) := by
  rw [quotI32]
  split
  · rfl
  split
  · next h =>
    obtain ⟨rfl, rfl⟩ := h
    rfl
  · rfl

theorem remI32_eq : remI32 x y = if y = 0#32 then x
    else if x = 0x80000000#32 ∧ y = 0xFFFFFFFF#32 then 0#32
    else BitVec.ofInt 32 (x.toInt - x.toInt.tdiv y.toInt * y.toInt) := by
  rw [remI32]
  split
  · rfl
  split
  · next h =>
    obtain ⟨rfl, rfl⟩ := h
    rfl
  · rw [Int.tmod_def, Int.mul_comm]

theorem remN32_eq : remN32 x y = if y = 0#32 then x
    else BitVec.ofNat 32 (x.toNat - x.toNat / y.toNat * y.toNat) := by
  rw [remN32, Nat.mod_eq_sub_div_mul]

end

/-- Settles O7: the four words open a window of one register, and their values are those of the table. -/
theorem divideAndRemainder : Obligations.DivideAndRemainder := by
  intro d a b la
  exact ⟨longOp_ok (exec_idivI32 d a b la) (pendDest_of_vecUse rfl rfl) fun g l j _ _ => quotI32_eq _ _,
    longOp_ok (exec_idivN32 d a b la) (pendDest_of_vecUse rfl rfl) fun g l j _ _ => rfl,
    longOp_ok (exec_iremI32 d a b la) (pendDest_of_vecUse rfl rfl) fun g l j _ _ => remI32_eq _ _,
    longOp_ok (exec_iremN32 d a b la) (pendDest_of_vecUse rfl rfl) fun g l j _ _ => remN32_eq _ _⟩

end Sys2Proof.Machine

end

section

/-! Indirect branches (O19; 09: R183): the lowest lane with a misaligned target, and the lanes that jump when there is none. -/

set_option Elab.async false

namespace Sys2Proof.Machine

section

variable {s : State} {i : Instr} {is : Issue} {g : Group} {gd : Guard} {a : BitVec 6} {m : BitVec 32} {n l : Nat}
  {addr : Nat → BitVec 64} {link : BitVec 32 → BitVec 64 → Group → Group}

/-! ## The lowest misaligned lane -/

theorem misaligned_eq_none (h : ∀ l, l < 32 → has m l = true → (addr l).toNat % n = 0) : misaligned m n addr = none := by
  refine List.find?_eq_none.mpr fun l hl => ?_
  obtain ⟨hl, hm⟩ := (mem_lanesOf m l).mp hl
  simp [h l hl hm]

theorem misaligned_eq_some (hl : l < 32) (hm : has m l = true) (h : (addr l).toNat % n ≠ 0)
    (hlow : ∀ j, j < l → has m j = true → (addr j).toNat % n = 0) : misaligned m n addr = some l := by
  rw [misaligned, lanesOf, List.find?_filter, List.find?_range_eq_some]
  refine ⟨by simp [hm, h], List.mem_range.mpr hl, fun j hj => ?_⟩
  by_cases hmj : has m j = true
  · simp [hlow j hj hmj]
  · simp [hmj]

/-! ## What an indirect jump answers -/

theorem State.indirect_of_aligned (hf : Fits s i is g)
    (h : ∀ l, l < 32 → takes gd is (g.atIssue i is) l = true → ((g.atIssue i is).rw a l).toNat % 4 = 0) :
    s.indirect i gd a link = .next (s.setGroup is.grp ((link ((g.atIssue i is).passing gd is.mask) ((is.pc + 4#56).setWidth 64)
      (g.atIssue i is)).jumpTo is ((g.atIssue i is).passing gd is.mask) ((g.atIssue i is).rw a))) := by
  obtain ⟨hi, hg, ht, hr, -⟩ := hf
  have hnone := misaligned_eq_none (m := (g.atIssue i is).passing gd is.mask) (n := 4) (addr := (g.atIssue i is).rw a)
    fun l hl hm => h l hl (takes_ok gd is _ l hl ▸ hm)
  rw [State.indirect, State.runWord_ok hi hg ht hr]
  simp only [hnone, State.setGroup_setGroup]

theorem State.indirect_of_misaligned (hf : Fits s i is g) (hl : l < 32) (hm : takes gd is (g.atIssue i is) l = true)
    (h : ((g.atIssue i is).rw a l).toNat % 4 ≠ 0)
    (hlow : ∀ j, j < l → takes gd is (g.atIssue i is) j = true → ((g.atIssue i is).rw a j).toNat % 4 = 0) :
    s.indirect i gd a link = .next ((s.setGroup is.grp (g.atIssue i is)).raiseAtIssue is.grp
      (is.addrTrap codeAlign l ((g.atIssue i is).rw a l))) := by
  obtain ⟨hi, hg, ht, hr, -⟩ := hf
  have hsome := misaligned_eq_some (m := (g.atIssue i is).passing gd is.mask) (n := 4) (addr := (g.atIssue i is).rw a) hl
    ((takes_ok gd is _ l hl).trans hm) h fun j hj hmj => hlow j hj (takes_ok gd is _ j (hj.trans hl) ▸ hmj)
  rw [State.indirect, State.runWord_ok hi hg ht hr]
  simp only [hsome]

/-- With every target aligned an indirect jump completes, having written its link and no other register. -/
theorem completes_indirect (he : exec i s = s.indirect i gd a link) (hf : Fits s i is g)
    (hal : ∀ l, l < 32 → takes gd is (g.atIssue i is) l = true → ((g.atIssue i is).rw a l).toNat % 4 = 0)
    (hlink : ∀ m x g, ∃ v, link m x g = { g with regs := { g.regs with v := v } }) :
    Completes s i is fun h =>
      let g := g.atIssue i is
      (∀ l, l < 32 → h.pc l =
        if has is.mask l = true then (if g.guard gd l = true then g.rw a l else (is.pc + 4#56).setWidth 64) else g.pc l)
      ∧ (∀ n l, h.vreg n l = (link (g.passing gd is.mask) ((is.pc + 4#56).setWidth 64) g).vreg n l)
      ∧ { h with regs := { h.regs with v := g.regs.v }, ctl := { h.ctl with pcs := g.ctl.pcs } } = g := by
  refine completes_setGroup (he.trans (State.indirect_of_aligned hf hal)) ?_
  generalize g.atIssue i is = g
  obtain ⟨v, hv⟩ := hlink (g.passing gd is.mask) ((is.pc + 4#56).setWidth 64) g
  obtain ⟨p, hp⟩ := Group.jumpTo_eq is (g.passing gd is.mask) (g.rw a) (link (g.passing gd is.mask) ((is.pc + 4#56).setWidth 64) g)
  refine ⟨fun l hl => ?_, fun n l => ?_, ?_⟩
  · rw [Group.jumpTo_passing_pc _ _ hl, hv]
    rfl
  · rw [hp]
    rfl
  · rw [hp, hv]

end

/-! ## The words -/

/-- The link of jmp: the address of the next word, low half and high half. -/
theorem Group.writePairs_link_vreg (gd : Guard) (is : Issue) (d : BitVec 6) (g : Group) (n l : Nat) (hl : l < 32) :
    (g.writePairs (g.passing gd is.mask) d fun _ => (is.pc + 4#56).setWidth 64).vreg n l =
      if g.eff d = some n ∧ takes gd is g l = true then BitVec.ofNat 32 (is.pc + 4#56).toNat
      else if (g.eff d).map (· + 1) = some n ∧ takes gd is g l = true then BitVec.ofNat 32 ((is.pc + 4#56).toNat / 2 ^ 32)
      else g.vreg n l := by
  have hlow : ((is.pc + 4#56).setWidth 64).setWidth 32 = BitVec.ofNat 32 (is.pc + 4#56).toNat := by
    rw [← BitVec.ofNat_toNat, BitVec.toNat_setWidth_of_le (by decide)]
  have hhigh : ((is.pc + 4#56).setWidth 64).extractLsb' 32 32 = BitVec.ofNat 32 ((is.pc + 4#56).toNat / 2 ^ 32) := by
    apply BitVec.eq_of_toNat_eq
    rw [BitVec.extractLsb'_toNat, BitVec.toNat_ofNat, Nat.shiftRight_eq_div_pow, BitVec.toNat_setWidth_of_le (by decide)]
  rw [Group.writePairs_vreg _ _ _ _ _ _ hl, takes_ok _ _ _ _ hl, hlow, hhigh]

/-- Settles O19: the lowest misaligned lane stops the word before it writes; otherwise the link is written and the lanes part by the
guard. -/
theorem indirectBranches : Obligations.IndirectBranches := by
  intro gd d a s is g₀ i hi hf g
  rcases hi with rfl | rfl
  · have he := exec_jmp gd d a s
    refine ⟨fun hal => ?_, fun l hl ht hmis hlow => he.trans (State.indirect_of_misaligned hf hl ht hmis hlow)⟩
    obtain ⟨t, h, hx, hg, honly, hpc, hreg, hframe⟩ := completes_indirect he hf hal fun m _ g => Group.writePairs_eq m d _ g
    refine ⟨t, h, hx, hg, honly, hpc, fun n l hl => ?_, hframe⟩
    rw [hreg, Group.writePairs_link_vreg gd is d _ n l hl]
    simp only [true_and]
    rfl
  · have he := exec_ret gd a s
    refine ⟨fun hal => ?_, fun l hl ht hmis hlow => he.trans (State.indirect_of_misaligned hf hl ht hmis hlow)⟩
    obtain ⟨t, h, hx, hg, honly, hpc, hreg, hframe⟩ := completes_indirect he hf hal fun _ _ g => ⟨g.regs.v, rfl⟩
    refine ⟨t, h, hx, hg, honly, hpc, fun n l hl => ?_, hframe⟩
    simp only [reduceCtorEq, false_and, if_false]
    exact hreg n l

end Sys2Proof.Machine

end

section

/-! nop, yield and exit (O20; 09: R185; 01: R10, R12): what the barriers leave alone that an exit may complete. -/

set_option Elab.async false

namespace Sys2Proof.Machine

/-! ## What barriers leave alone -/

/-- The lanes of a group are where they were, with the same registers, and the same is in flight. -/
structure Group.SameLanes (g h : Group) : Prop where
  regs : h.regs = g.regs
  fl : h.fl = g.fl
  exited : h.ctl.exited = g.ctl.exited
  present : h.ctl.present = g.ctl.present
  pcs : h.ctl.pcs = g.ctl.pcs

theorem Group.SameLanes.refl (g : Group) : g.SameLanes g := ⟨rfl, rfl, rfl, rfl, rfl⟩

theorem Group.SameLanes.trans {g h x : Group} (a : g.SameLanes h) (b : h.SameLanes x) : g.SameLanes x :=
  ⟨b.regs.trans a.regs, b.fl.trans a.fl, b.exited.trans a.exited, b.present.trans a.present, b.pcs.trans a.pcs⟩

/-- Memory is as it was, and so are the lanes of every group. -/
structure State.KeepsLanes (s t : State) : Prop where
  mem : t.mem = s.mem
  groups : ∀ k g, Table.get? s.groups k = some g → ∃ h, Table.get? t.groups k = some h ∧ g.SameLanes h

section

variable {s t u : State} {k : Nat}

theorem State.KeepsLanes.refl (s : State) : s.KeepsLanes s := ⟨rfl, fun _ g hg => ⟨g, hg, .refl g⟩⟩

theorem State.KeepsLanes.trans (a : s.KeepsLanes t) (b : t.KeepsLanes u) : s.KeepsLanes u := by
  refine ⟨b.mem.trans a.mem, fun k g hg => ?_⟩
  obtain ⟨h, hh, hs⟩ := a.groups k g hg
  obtain ⟨x, hx, hs'⟩ := b.groups k h hh
  exact ⟨x, hx, hs.trans hs'⟩

theorem State.KeepsLanes.foldl {α : Type} {f : State → α → State} (hf : ∀ (s : State) x, s.KeepsLanes (f s x)) (xs : List α) (s : State) :
    s.KeepsLanes (xs.foldl f s) := by
  induction xs generalizing s with
  | nil => exact .refl s
  | cons x xs ih => exact (hf s x).trans (ih _)

theorem State.keepsLanes_of_sameGroups (hmem : t.mem = s.mem) (hgroups : t.groups = s.groups) : s.KeepsLanes t :=
  ⟨hmem, fun _ g hg => ⟨g, hgroups ▸ hg, .refl g⟩⟩

theorem State.keepsLanes_modGroup {f : Group → Group} (hf : ∀ g : Group, g.SameLanes (f g)) (s : State) (k : Nat) :
    s.KeepsLanes (s.modGroup k f) := by
  refine ⟨rfl, fun j g hg => ?_⟩
  rw [State.modGroup_groups, Table.get?_modify]
  split
  · next hj =>
    subst hj
    exact ⟨f g, by rw [hg, Option.map_some], hf g⟩
  · exact ⟨g, hg, .refl g⟩

theorem State.keepsLanes_setGroup {g h : Group} (hg : Table.get? s.groups k = some g) (hs : g.SameLanes h) :
    s.KeepsLanes (s.setGroup k h) := by
  refine ⟨rfl, fun j x hx => ?_⟩
  rw [State.setGroup_groups, Table.get?_set]
  split
  · next hj =>
    obtain rfl : g = x := Option.some.inj (hg.symm.trans (hj ▸ hx))
    exact ⟨h, rfl, hs⟩
  · exact ⟨x, hx, .refl x⟩

theorem State.keepsLanes_refreshGroup (s : State) (k holder slot : Nat) : s.KeepsLanes (s.refreshGroup k holder slot) := by
  cases hg : Table.get? s.groups k with
  | none => simpa [State.refreshGroup, hg] using State.KeepsLanes.refl s
  | some g =>
    obtain ⟨t, h, n, ⟨rs, rfl, -⟩, heq, -⟩ := State.refreshGroup_spec (holder := holder) (slot := slot) hg
    rw [heq]
    have hpins : s.KeepsLanes { s with regions := rs } := State.keepsLanes_of_sameGroups rfl rfl
    have hsame : g.SameLanes (s.refreshed g h n) := ⟨rfl, rfl, rfl, rfl, rfl⟩
    exact hpins.trans (State.keepsLanes_setGroup hg hsame)

/-- A group once phase of barrier k has ended (12: R230). -/
def Group.phaseEnded (k phase now : Nat) (g : Group) : Group :=
  Group.noteWait now { g with
    ctl := { g.ctl with waits := endWaits g.id.wg k phase g.ctl.waits }
    tr := { g.tr with saved := endWaits g.id.wg k phase g.tr.saved } }

theorem Group.sameLanes_phaseEnded (k phase now : Nat) (g : Group) : g.SameLanes (g.phaseEnded k phase now) :=
  ⟨rfl, rfl, rfl, rfl, rfl⟩

/-- Waits that end and pins that move are no part of the lanes. -/
theorem State.keepsLanes_finishPhase (s : State) (gang k : Nat) : s.KeepsLanes (s.finishPhase gang k) := by
  have hgang (f : Gang → Gang) : s.KeepsLanes (s.modGang gang f) := State.keepsLanes_of_sameGroups rfl rfl
  have hwaits (t : State) (gs : List (Nat × Group)) : t.KeepsLanes
      (gs.foldl (fun t p => t.modGroup p.1 (Group.phaseEnded k (s.barrier gang k).phase t.clk.cycle)) t) :=
    .foldl (fun t p => State.keepsLanes_modGroup (Group.sameLanes_phaseEnded _ _ _) t p.1) gs t
  unfold State.finishPhase
  dsimp only
  split
  · exact (hgang _).trans (hwaits _ _)
  · exact ((hgang _).trans (hwaits _ _)).trans (.foldl (fun _ _ => State.keepsLanes_refreshGroup _ _ _ _) _ _)

theorem State.keepsLanes_checkBarrier (fuel : Nat) (s : State) (gang k : Nat) :
    s.KeepsLanes (State.checkBarrier fuel s gang k) := by
  induction fuel generalizing s with
  | zero => exact .refl s
  | succ n ih =>
    rw [State.checkBarrier]
    split
    · exact (s.keepsLanes_finishPhase gang k).trans (ih _)
    · exact .refl s

theorem State.keepsLanes_checkBarriers (s : State) (g : Group) : s.KeepsLanes (s.checkBarriers g) :=
  .foldl (fun s k => s.keepsLanes_checkBarrier 2 g.id.gang k) _ s

end

/-! ## The words -/

theorem passing_eq_zero_iff (gd : Guard) (is : Issue) (g : Group) :
    g.passing gd is.mask = 0#32 ↔ ∀ l, l < 32 → takes gd is g l = false := by
  constructor
  · intro h l hl
    rw [← takes_ok gd is g l hl, h]
    exact BitVec.getLsbD_zero
  · intro h
    refine BitVec.eq_of_getLsbD_eq fun l hl => ?_
    rw [BitVec.getLsbD_zero]
    exact (takes_ok gd is g l hl).trans (h l hl)

/-- A word that leaves all of its group but the counters of its set only goes on. -/
theorem onlyGoesOn_advance (is : Issue) (g : Group) : OnlyGoesOn is g (g.advance is) := by
  obtain ⟨p, hp⟩ := g.advance_eq is
  exact ⟨fun l hl => g.advance_pc is l hl, by rw [hp]⟩

theorem yieldAndNop : Claims.YieldAndNop := by
  intro gd s is g₀
  refine ⟨fun hf => completes_runGroup (exec_nop gd s) hf (onlyGoesOn_advance is _),
    fun hf => completes_runGroup (exec_yield gd s) hf ?_⟩
  generalize g₀.atIssue (.yield gd) is = g
  split
  · next hz =>
    rw [passing_eq_zero_iff] at hz
    obtain ⟨p, hp⟩ := g.advance_eq is
    refine ⟨fun l hl => g.advance_pc is l hl, by rw [hp], fun ⟨l, hl, ht⟩ => ?_, fun _ => by rw [hp]⟩
    rw [hz l hl] at ht
    cases ht
  · next hne =>
    rw [passing_eq_zero_iff] at hne
    obtain ⟨p, hp⟩ := Group.advance_eq is { g with ctl := { g.ctl with yielded := g.ctl.yielded ||| is.mask } }
    exact ⟨fun l hl => Group.advance_pc is _ l hl, by rw [hp], fun _ => by rw [hp], fun h => absurd h hne⟩

/-- The group of an exit, before the barriers are checked. -/
def Group.afterExit (gd : Guard) (is : Issue) (now : Nat) (g : Group) : Group :=
  let out := g.passing gd is.mask
  Group.noteWait now { g.advance is with ctl := { (g.advance is).ctl with
    exited := g.ctl.exited ||| out
    lastExit := if out = 0#32 then g.ctl.lastExit else is.pc } }

theorem exec_exit_of_fits {gd : Guard} {s : State} {is : Issue} {g : Group} (hf : Fits s (.exit gd) is g) :
    ∃ x, exec (.exit gd) s =
      .next ((s.setGroup is.grp ((g.atIssue (.exit gd) is).afterExit gd is s.clk.cycle)).checkBarriers x) := by
  obtain ⟨hi, hg, ht, hr, -⟩ := hf
  rw [exec_exit, execExit, State.runWord_ok hi hg ht hr]
  simp only [State.setGroup_setGroup]
  exact ⟨_, rfl⟩

theorem exit : Claims.Exit := by
  intro gd s is g₀ hf g
  obtain ⟨x, hx⟩ := exec_exit_of_fits hf
  have hkeeps := State.keepsLanes_checkBarriers (s.setGroup is.grp (g.afterExit gd is s.clk.cycle)) x
  obtain ⟨h, hh, hsame⟩ := hkeeps.groups is.grp _ (Table.get?_set_self _ _ _)
  obtain ⟨p, hp⟩ := g.advance_eq is
  refine ⟨_, h, hx, hh, fun l hl => ?_, ?_, fun l hl => ?_, ?_, ?_, hkeeps.mem⟩
  · rw [hsame.exited, ← takes_ok gd is g l hl]
    exact BitVec.getLsbD_or
  · rw [hsame.present, Group.afterExit, hp]
    rfl
  · rw [← g.advance_pc is l hl, Group.pc, hsame.pcs]
    rfl
  · rw [hsame.regs, Group.afterExit, hp]
    rfl
  · rw [hsame.fl, Group.afterExit, hp]
    rfl

/-- Settles O20: the barriers that an exit may complete change waits and pins, and no lane. -/
theorem nopYieldExit : Obligations.NopYieldExit := ⟨yieldAndNop, exit⟩

end Sys2Proof.Machine

end

section

/-! Memory words at their issue (O24, O25; 11: R205 to R212; 07: R145). A word whose lanes pass the checks of their addresses changes its group
in what is in flight alone. The lookups with which its operation goes in flight change the translation of an access and nothing else of it,
and of the state they change neither memory nor a group, a launch or a gang. -/

set_option Elab.async false

namespace Sys2Proof.Machine

section

variable {s t u : State} {g : Group}

/-! ## What a translation leaves alone -/

/-- A state reached by translating addresses: walks are queued and counted, page requests posted, slots pinned, violations noted. -/
structure Translated (s t : State) : Prop where
  mem : t.mem = s.mem
  groups : t.groups = s.groups
  launches : t.launches = s.launches
  gangs : t.gangs = s.gangs

theorem Translated.refl (s : State) : Translated s s := ⟨rfl, rfl, rfl, rfl⟩

theorem Translated.trans (h : Translated s t) (h' : Translated t u) : Translated s u :=
  ⟨h'.mem.trans h.mem, h'.groups.trans h.groups, h'.launches.trans h.launches, h'.gangs.trans h.gangs⟩

theorem Translated.queueWalk (s : State) (core : Nat) (w : Walk) : Translated s (s.queueWalk core w) := by
  rcases s.queueWalk_cases core w with ⟨e, -⟩ | e
  · rw [e]
    exact .refl s
  · rw [e]
    exact ⟨rfl, rfl, rfl, rfl⟩

theorem Translated.postRequest (s : State) (page region slot : Nat) (gen : BitVec 16) (kind : Nat) :
    Translated s (s.postRequest page region slot gen kind).1 := by
  unfold State.postRequest
  split
  · exact .refl s
  · exact ⟨rfl, rfl, rfl, rfl⟩

theorem Translated.pin (s : State) (holder slot : Nat) : Translated s (s.pin holder slot) := ⟨rfl, rfl, rfl, rfl⟩

theorem Translated.windowViolation (s : State) (core : Nat) (code : BitVec 8) (va : BitVec 64) :
    Translated s (s.windowViolation core code va) := by
  unfold State.windowViolation
  split
  · unfold State.laneViolation State.violation
    dsimp only
    split
    · exact ⟨rfl, rfl, rfl, rfl⟩
    · exact ⟨rfl, rfl, rfl, rfl⟩
  · exact .refl s

theorem Translated.kvViolations (s : State) (g : Group) (accs : List LaneAcc) : Translated s (s.kvViolations g accs) := by
  induction accs generalizing s with
  | nil => exact .refl s
  | cons a r ih =>
    refine .trans ?_ (ih _)
    dsimp only
    split
    · exact .windowViolation s _ _ _
    · exact .refl s

theorem Translated.withLeaf (s : State) (region slot : Nat) (gen : BitVec 16) (kind : Nat) (va e : BitVec 64) :
    Translated s (s.withLeaf region slot gen kind va e).1 := by
  unfold State.withLeaf
  split
  · exact .refl s
  · exact .postRequest s _ _ _ _ _
  · exact .refl s

theorem Translated.tryAcc (s : State) (part core region slot : Nat) (gen : BitVec 16) (kind : Nat) (a : LaneAcc) :
    Translated s (s.tryAcc part core region slot gen kind a).1 := by
  unfold State.tryAcc
  split
  · dsimp only
    unfold State.tryTlb
    split
    · exact .withLeaf s _ _ _ _ _ _
    · exact .queueWalk s _ _
  · exact .refl s

theorem Translated.threadAccs {f : State → LaneAcc → State × LaneAcc} (hf : ∀ u a, Translated u (f u a).1) (as : List LaneAcc) (s : State) :
    Translated s (threadAccs f s as).1 := by
  induction as generalizing s with
  | nil => exact .refl s
  | cons a r ih => exact (hf s a).trans (ih _)

/-! ## An operation goes in flight -/

/-- What an access meets at issue, for an operation of a group (03: R70, R74). -/
def MemOp.tried (o : MemOp) (g : Group) (s : State) : State × List LaneAcc :=
  threadAccs (fun s a => s.tryAcc g.view.partition g.ctl.core g.view.holder o.slot o.gen o.kind.access a) s o.accs

/-- An operation whose accesses have met the TLBs: it has a log entry when one of them is not translated (02: R55). -/
def MemOp.launched (o : MemOp) (g : Group) (accs : List LaneAcc) : MemOp :=
  { o with accs := accs, log := if accs.any fun a => !a.st.known then g.freeLogEntry else none }

theorem MemOp.tried_untranslated (o : MemOp) (g : Group) (s : State) :
    (o.tried g s).2.map LaneAcc.untranslated = o.accs.map LaneAcc.untranslated :=
  threadAccs_map (fun u a => u.tryAcc_untranslated _ _ _ _ _ _ a) o.accs s

theorem State.launchOp_eq {k : Nat} (hg : Table.get? s.groups k = some g) (o : MemOp) : ∃ u, Translated s u
    ∧ s.launchOp k g o = u.setGroup k (g.setOps (g.fl.ops ++ [o.launched g (o.tried g s).2])) := by
  have htried : Translated s (o.tried g s).1 := .threadAccs (fun u a => .tryAcc u _ _ _ _ _ _ a) o.accs s
  have hlogged : Translated s (if (o.tried g s).2.any fun a => !a.st.known then (o.tried g s).1.pin g.view.holder o.slot
      else (o.tried g s).1) := by
    split
    · exact htried.trans (.pin _ _ _)
    · exact htried
  exact ⟨_, hlogged, State.modGroup_of_some (hlogged.groups ▸ hg)⟩

end

section

variable {s t u : State} {g x : Group} {is : Issue} {ls : List Nat} {who : Nat → Bool} {n w : Nat} {ps : Table Pend}
  {lt : Table (BitVec 32)}

/-! ## The group of a memory word -/

/-- The counts of a list without repetitions go up by one each. -/
theorem getD_foldl_count (hls : ls.Nodup) (t : Table Nat) (l : Nat) :
    Table.getD (ls.foldl (fun t l => Table.put 0 t l (Table.getD t l 0 + 1)) t) l 0 = Table.getD t l 0 + (decide (l ∈ ls)).toNat := by
  induction ls generalizing t with
  | nil => rfl
  | cons x r ih =>
    obtain ⟨hx, hr⟩ := List.nodup_cons.mp hls
    rw [List.foldl_cons, ih hr, Table.getD_put]
    by_cases e : l = x
    · subst e
      simp [hx]
    · simp [e]

/-- The group with other pending destinations and landing lines. -/
def Group.withPend (g : Group) (ps : Table Pend) (lt : Table (BitVec 32)) : Group :=
  { g with fl := { g.fl with pend := ps, landing := lt } }

/-- The group when a memory word has counted its lanes, goes on, and has taken place n in program order. -/
def Group.placed (g : Group) (is : Issue) (ls : List Nat) (n : Nat) : Group :=
  let h := (g.countLanes ls).advance is
  { h with fl := { h.fl with nextSeq := n + 1 } }

theorem Group.placed_eq (g : Group) (is : Issue) (ls : List Nat) (n : Nat) : ∃ p, g.placed is ls n =
    { g with
      fl := { g.fl with
        ordinals := ls.foldl (fun t l => Table.put 0 t l (Table.getD t l 0 + 1)) g.fl.ordinals
        nextSeq := n + 1 }
      ctl := { g.ctl with pcs := p } } := by
  obtain ⟨p, hp⟩ := (g.countLanes ls).advance_eq is
  exact ⟨p, by rw [Group.placed, hp]; rfl⟩

@[simp] theorem Group.placed_ops (g : Group) (is : Issue) (ls : List Nat) (n : Nat) : (g.placed is ls n).fl.ops = g.fl.ops := by
  obtain ⟨p, hp⟩ := g.placed_eq is ls n
  rw [hp]

@[simp] theorem Group.placed_pend (g : Group) (is : Issue) (ls : List Nat) (n : Nat) : (g.placed is ls n).fl.pend = g.fl.pend := by
  obtain ⟨p, hp⟩ := g.placed_eq is ls n
  rw [hp]

theorem Group.freeLogEntry_congr {g h : Group} (e : h.fl.ops = g.fl.ops) : h.freeLogEntry = g.freeLogEntry := by
  rw [Group.freeLogEntry, Group.freeLogEntry, e]

theorem goesOn_placed (is : Issue) (g : Group) (ls : List Nat) (n : Nat) : GoesOn is g (g.placed is ls n) :=
  fun l hl => (g.countLanes ls).advance_pc is l hl

/-- An operation, if there is one, stands last in a group in its place. -/
theorem Group.placed_setOps_none (g : Group) (is : Issue) (ls : List Nat) (n : Nat) :
    (g.placed is ls n).setOps (g.fl.ops ++ (none : Option MemOp).toList) = g.placed is ls n := by
  rw [Option.toList_none, List.append_nil, ← g.placed_ops is ls n]
  rfl

/-- What a memory word leaves: its group in its place with the operation last in flight, in a state in which addresses were translated. -/
theorem memIssued_placed {o : Option MemOp} {h : Group} (hu : Translated (s.setGroup is.grp x) u) (ht : Translated (u.setGroup is.grp h) t)
    (hls : ls.Nodup) (hwho : ∀ l, l < 32 → decide (l ∈ ls) = who l)
    (hh : h = ((g.withPend ps lt).placed is ls g.fl.nextSeq).setOps (g.fl.ops ++ o.toList)) : MemIssued s t is g h who o := by
  have hgoes := goesOn_placed is (g.withPend ps lt) ls g.fl.nextSeq
  obtain ⟨p, hp⟩ := (g.withPend ps lt).placed_eq is ls g.fl.nextSeq
  rw [hp] at hgoes hh
  subst hh
  refine ⟨fun j hj => ?_, fun a => ?_, ht.launches.trans hu.launches, ht.gangs.trans hu.gangs, hgoes, rfl, rfl, rfl, fun l hl => ?_,
    rfl, rfl, rfl, rfl⟩
  · rw [ht.groups, State.setGroup_groups, Table.get?_set_ne _ _ hj, hu.groups, State.setGroup_groups, Table.get?_set_ne _ _ hj]
  · rw [ht.mem, State.setGroup_mem, hu.mem, State.setGroup_mem]
  · rw [← hwho l hl]
    exact getD_foldl_count hls g.fl.ordinals l

/-- A window on a destination of w registers, for the lanes of a set that take part (02: R56). -/
theorem Group.openPend_withPend {m set : BitVec 32} {la : BitVec 4} (hs : (freePend (g.clearLines w).fl.pend).isSome = true)
    (hl : (freeLines (g.clearLines w).fl.pend w).isSome = true) (hm : ∀ l, l < 32 → has m l = who l) :
    ∃ slot ps lt, g.openPend false n w set m la = some (slot, g.withPend ps lt)
      ∧ ∀ h : Group, h.fl.pend = ps → Opens g h slot false n w set who la := by
  obtain ⟨slot, hslot⟩ := Option.isSome_iff_exists.mp hs
  obtain ⟨line, hline⟩ := Option.isSome_iff_exists.mp hl
  obtain ⟨hlt, hfree⟩ := freePend_spec hslot
  obtain ⟨lt, hopen, -⟩ := Group.openPend_spec (n := n) (set := set) (lanes := m) (la := la) hslot hline
  refine ⟨slot, _, lt, hopen, fun h e => ⟨line, m, hlt, (freeLines_spec hline).1, hfree, ?_, hm, fun k hk => ?_⟩⟩
  · rw [e, Table.get?_set_self]
  · rw [e, Table.get?_set_ne _ _ hk]

end

section

variable {s u : State} {g x : Group} {is : Issue} {i : Instr} {m : MemWord} {who : Nat → Bool} {n w : Nat} {la : BitVec 4}
  {ps : Table Pend} {lt : Table (BitVec 32)} {set : BitVec 32}
  {xs : List (Nat × AccState)}

/-! ## The issue of a memory word -/

/-- The checks of lanes that all pass. -/
theorem State.startLanes_ok {store : Bool} {align : Nat} {addr : Nat → BitVec 64} {ls : List Nat}
    (h : ∀ l ∈ ls, ∃ st, s.startAccess g store align (addr l) = .ok st) :
    ∃ xs, s.startLanes g store align addr ls = .ok xs ∧ xs.map Prod.fst = ls := by
  induction ls with
  | nil => exact ⟨[], rfl, rfl⟩
  | cons l r ih =>
    obtain ⟨⟨st, hst⟩, hr⟩ := List.forall_mem_cons.mp h
    obtain ⟨xs, hxs, hfst⟩ := ih hr
    refine ⟨(l, st) :: xs, ?_, congrArg (l :: ·) hfst⟩
    rw [State.startLanes, hst, hxs]

theorem lanesOf_nodup (m : BitVec 32) : (lanesOf m).Nodup := List.nodup_range.filter _

/-- No lane of a mask is the one that stands for a uniform access. -/
theorem lanesOf_filter_uniform (m : BitVec 32) : (lanesOf m).filter (· != uniformLane) = lanesOf m := by
  refine List.filter_eq_self.mpr fun l hl => ?_
  have := ((mem_lanesOf m l).mp hl).1
  exact bne_iff_ne.mpr (Nat.ne_of_lt this)

/-- Whose access it is, its bytes, whether it is performed, and its place in the lane's thread. -/
theorem laneAccs_map (l size : Nat) (va : BitVec 64) (st : AccState) (lo hi cmp : BitVec 64) (n : Nat) :
    (laneAccs l size va st lo hi cmp n).map (fun a => (a.lane, a.size, a.va, a.done, a.ordinal)) =
      if size = 16 then [(l, 8, va, false, n), (l, 8, va + 8#64, false, n)] else [(l, size, va, false, n)] := by
  unfold laneAccs
  split
  · rfl
  · rfl

/-- The operation o is that of memory word m, issued for the lanes named with a destination pending or none, once its accesses have met
the TLBs. -/
def MemWord.Sends (m : MemWord) (is : Issue) (g : Group) (who : Nat → Bool) (pend : Option Nat) (o : MemOp) : Prop :=
  ∃ xs accs, o = (m.op is g pend xs).launched g accs ∧ xs.map Prod.fst = (List.range 32).filter who
    ∧ accs.map LaneAcc.untranslated = (m.op is g pend xs).accs.map LaneAcc.untranslated

theorem MemWord.Sends.inFlight {pend : Option Nat} {o : MemOp} (h : m.Sends is g who pend o) :
    InFlight is g o m.kind m.ord m.scope who m.size m.addr := by
  obtain ⟨xs, accs, rfl, hxs, haccs⟩ := h
  refine ⟨rfl, rfl, rfl, rfl, rfl, rfl, rfl, rfl, rfl, ?_⟩
  rw [← hxs, List.flatMap_map]
  refine (map_congr_untranslated (fun _ => rfl) haccs).trans ?_
  rw [MemWord.op, List.map_flatMap]
  exact congrArg (fun f => xs.flatMap f) (funext fun p => laneAccs_map _ _ _ _ _ _ _ _)

theorem MemWord.Sends.pend {pend : Option Nat} {o : MemOp} (h : m.Sends is g who pend o) : o.pend = pend := by
  obtain ⟨xs, accs, rfl, -, -⟩ := h
  rfl

/-- What a lane's accesses satisfy whatever their translation, they satisfy in flight. -/
theorem MemWord.Sends.forall_accs {pend : Option Nat} {o : MemOp} {P : LaneAcc → Prop} (h : m.Sends is g who pend o)
    (hU : ∀ a, P a.untranslated = P a)
    (hP : ∀ l va st n, ∀ a ∈ laneAccs l m.size va st (m.data l).lo (m.data l).hi (m.data l).cmp n, P a) : ∀ a ∈ o.accs, P a := by
  obtain ⟨xs, accs, rfl, -, haccs⟩ := h
  have hop : ∀ p ∈ (m.op is g pend xs).accs.map P, p := by
    refine List.forall_mem_map.mpr fun a ha => ?_
    obtain ⟨x, -, hx⟩ := List.mem_flatMap.mp ha
    exact hP _ _ _ _ a hx
  rw [← map_congr_untranslated hU haccs] at hop
  exact fun a ha => hop _ (List.mem_map_of_mem ha)

/-- An operation of a group in its place goes in flight, in a state in which no more than addresses have been translated since. -/
theorem State.launchOp_placed {v : State} {h : Group} {lanes : List Nat} (hh : h = (g.withPend ps lt).placed is lanes g.fl.nextSeq)
    (hv : Translated (s.setGroup is.grp h) v) (o : MemOp) : ∃ u, Translated (s.setGroup is.grp h) u
      ∧ v.launchOp is.grp h o = u.setGroup is.grp (h.setOps (g.fl.ops ++ (some (o.launched g (o.tried h v).2)).toList)) := by
  have hops : h.fl.ops = g.fl.ops := by
    rw [hh, Group.placed_ops]
    rfl
  have hget : Table.get? v.groups is.grp = some h := by rw [hv.groups, State.setGroup_groups, Table.get?_set_self]
  obtain ⟨u, hu, hlaunch⟩ := State.launchOp_eq hget o
  refine ⟨u, hv.trans hu, ?_⟩
  rw [hlaunch, MemOp.launched, Group.freeLogEntry_congr hops, hops]
  rfl

/-- A word without a destination puts its operation in flight unless no lane takes part. -/
theorem State.silent_issued {v : State} {h : Group} {lanes : List Nat} {b : Bool} (hh : h = g.placed is lanes g.fl.nextSeq)
    (hv : Translated (s.setGroup is.grp h) v) (hls : lanes.Nodup) (hlt : ∀ l ∈ lanes, l < 32)
    (hwho : ∀ l, l < 32 → decide (l ∈ lanes) = who l) (hb : b = true ↔ lanes = []) (o : MemOp) : ∃ t h' o', (if b then v else v.launchOp is.grp h o) = t ∧ Table.get? t.groups is.grp = some h'
      ∧ MemIssued s t is g h' who o' ∧ (∀ y, o' = some y → y = o.launched g (o.tried h v).2)
      ∧ h'.fl.pend = g.fl.pend ∧ (o' = none ↔ ∀ l, l < 32 → who l = false) := by
  have hnone : lanes = [] ↔ ∀ l, l < 32 → who l = false := by
    refine ⟨fun e l hl => ?_, fun hall => List.eq_nil_iff_forall_not_mem.mpr fun l hl => ?_⟩
    · rw [← hwho l hl, e]
      rfl
    · have hfalse := hwho l (hlt l hl)
      rw [hall l (hlt l hl)] at hfalse
      exact of_decide_eq_false hfalse hl
  have hpend : h.fl.pend = g.fl.pend := by rw [hh, Group.placed_pend]
  cases b with
  | true =>
    have hget : Table.get? v.groups is.grp = some h := by rw [hv.groups, State.setGroup_groups, Table.get?_set_self]
    rw [← State.setGroup_setGroup s is.grp h h] at hv
    have hissued := memIssued_placed (ps := g.fl.pend) (lt := g.fl.landing) (.refl _) hv hls hwho
      (hh.trans (Group.placed_setOps_none g is lanes g.fl.nextSeq).symm)
    exact ⟨v, h, none, rfl, hget, hissued, fun _ h => (nomatch h), hpend, iff_of_true rfl (hnone.mp (hb.mp rfl))⟩
  | false =>
    obtain ⟨u, hu, hlaunch⟩ := State.launchOp_placed (g := g) (ps := g.fl.pend) (lt := g.fl.landing) (lanes := lanes) hh hv o
    exact ⟨_, _, _, hlaunch, Table.get?_set_self _ _ _, memIssued_placed hu (.refl _) hls hwho (by rw [hh]; rfl),
      fun y hy => (Option.some.inj hy).symm, hpend, iff_of_false (nomatch ·) fun hall => Bool.false_ne_true (hb.mpr (hnone.mpr hall))⟩

/-- A memory word whose lanes pass the checks at issue, with its lanes those of a mask (11: R206). -/
structure MemWord.Starts (m : MemWord) (s : State) (g : Group) (set : BitVec 32) (who : Nat → Bool) : Prop where
  lanes : m.lanes = lanesOf set
  mask : ∀ l, l < 32 → has set l = who l
  checks : ∀ l, l < 32 → who l = true → ∃ st, s.startAccess g m.kind.writes m.size (m.addr l) = .ok st

theorem lanesOf_eq_filter (h : ∀ l, l < 32 → has set l = who l) : lanesOf set = (List.range 32).filter who :=
  List.filter_congr fun l hl => h l (List.mem_range.mp hl)

theorem MemWord.Starts.startLanes (h : m.Starts s g set who) : ∃ xs, xs.map Prod.fst = lanesOf set
    ∧ (s.setGroup is.grp g).startLanes g m.kind.writes m.size m.addr m.lanes = .ok xs := by
  obtain ⟨xs, hxs, hfst⟩ := State.startLanes_ok (s := s.setGroup is.grp g) (ls := lanesOf set) fun l hl =>
    have ⟨h32, hhas⟩ := (mem_lanesOf set l).mp hl
    h.checks l h32 (h.mask l h32 ▸ hhas)
  exact ⟨xs, hfst, h.lanes ▸ hxs⟩

theorem decide_mem_lanesOf (h : ∀ l, l < 32 → has set l = who l) {l : Nat} (hl : l < 32) : decide (l ∈ lanesOf set) = who l := by
  rw [← h l hl, Bool.decide_congr (mem_lanesOf set l)]
  simp [hl]

/-- A memory word that leaves no destination pending (11: R205, R208). -/
theorem State.issueMem_silent (hm : m.Starts s g set who) (hdest : pendDest i g.regs.xi = none) :
    ∃ t h o, (s.setGroup is.grp g).issueMem i is g m = .next t ∧ Table.get? t.groups is.grp = some h ∧ MemIssued s t is g h who o
      ∧ (∀ x, o = some x → m.Sends is g who none x) ∧ h.fl.pend = g.fl.pend ∧ (o = none ↔ ∀ l, l < 32 → who l = false) := by
  obtain ⟨xs, hfst, hxs⟩ := hm.startLanes (is := is)
  have hempty : xs.isEmpty = true ↔ lanesOf set = [] := by rw [List.isEmpty_iff, ← hfst, List.map_eq_nil_iff]
  have hissue : (s.setGroup is.grp g).issueMem i is g m =
      let h := g.placed is (lanesOf set) g.fl.nextSeq
      .next (if xs.isEmpty then s.setGroup is.grp h else (s.setGroup is.grp h).launchOp is.grp h (m.op is g none xs)) := by
    rw [State.issueMem, hxs]
    simp only [hdest, State.setGroup_setGroup, hm.lanes, lanesOf_filter_uniform]
    rfl
  obtain ⟨t, h, o, ht, hget, hissued, ho, hpend, hnone⟩ := State.silent_issued (g := g) (is := is) rfl (.refl (s.setGroup is.grp _))
    (lanesOf_nodup set) (fun l hl => ((mem_lanesOf set l).mp hl).1) (fun l hl => decide_mem_lanesOf hm.mask hl) hempty (m.op is g none xs)
  refine ⟨t, h, o, hissue.trans (congrArg Host.Outcome.next ht), hget, hissued, fun y hy => ?_, hpend, hnone⟩
  exact ⟨xs, _, ho y hy, hfst.trans (lanesOf_eq_filter hm.mask), MemOp.tried_untranslated _ _ _⟩

/-- A memory word that leaves registers pending behind its window (07: R145). -/
theorem State.issueMem_opens (hm : m.Starts s g set who) (hdest : pendDest i g.regs.xi = some (false, n, w)) (hla : i.lookahead = some la)
    (hroom : g.room i = true) : ∃ t h o slot, (s.setGroup is.grp g).issueMem i is g m = .next t ∧ Table.get? t.groups is.grp = some h
      ∧ MemIssued s t is g h who (some o) ∧ m.Sends is g who (some slot) o ∧ Opens g h slot false n w is.mask who la := by
  obtain ⟨xs, hfst, hxs⟩ := hm.startLanes (is := is)
  obtain ⟨hslot, hline⟩ : (freePend (g.clearLines w).fl.pend).isSome = true ∧ (freeLines (g.clearLines w).fl.pend w).isSome = true := by
    rwa [Group.room, hdest, Bool.and_eq_true] at hroom
  have hlanes (l : Nat) (hl : l < 32) : has (maskOf fun l => (lanesOf set).contains l) l = who l := by
    rw [has_maskOf _ l hl, List.contains_eq_mem]
    exact decide_mem_lanesOf hm.mask hl
  obtain ⟨slot, ps, lt, hopen, hopens⟩ := Group.openPend_withPend (n := n) (set := is.mask) (la := la) hslot hline hlanes
  obtain ⟨u, hu, hlaunch⟩ := State.launchOp_placed (s := s) (g := g) (ps := ps) (lt := lt) (lanes := lanesOf set) rfl (.refl _)
    (m.op is g (some slot) xs)
  have hissue : (s.setGroup is.grp g).issueMem i is g m =
      .next ((s.setGroup is.grp ((g.withPend ps lt).placed is (lanesOf set) g.fl.nextSeq)).launchOp is.grp
        ((g.withPend ps lt).placed is (lanesOf set) g.fl.nextSeq) (m.op is g (some slot) xs)) := by
    rw [State.issueMem, hxs]
    simp only [hdest, hla, Option.getD_some, Bool.false_eq_true, if_false, hopen, State.setGroup_setGroup, hm.lanes, lanesOf_filter_uniform]
    rfl
  exact ⟨_, _, _, slot, hissue.trans (congrArg Host.Outcome.next hlaunch), Table.get?_set_self _ _ _,
    memIssued_placed hu (.refl _) (lanesOf_nodup set) (fun l hl => decide_mem_lanesOf hm.mask hl) rfl,
    ⟨_, _, rfl, hfst.trans (lanesOf_eq_filter hm.mask), MemOp.tried_untranslated _ _ _⟩,
    hopens _ (Group.placed_pend (g.withPend ps lt) is (lanesOf set) g.fl.nextSeq)⟩

end

section

variable {i : Instr} {who : Issue → Group → Nat → Bool} {kind : MemKind} {ord : Ord} {sc : Scope} {size w width : Nat} {d a : BitVec 6}
  {bs : BitVec 2} {la : BitVec 4} {rd : Bool} {set : Issue → Group → BitVec 32} {data : Group → Nat → LaneData}
  {P : Group → LaneAcc → Prop}

/-! ## Words of one form -/

/-- The lane accesses of a memory word at base plus lane offset, for the lanes of a mask (11: R205). -/
def Group.laneWord (g : Group) (m : BitVec 32) (a : BitVec 6) (bs : BitVec 2) (kind : MemKind) (ord : Ord) (sc : Scope) (size : Nat)
    (data : Nat → LaneData) : MemWord where
  kind := kind
  ord := ord
  scope := sc
  size := size
  base := g.rs (baseReg bs)
  lanes := lanesOf m
  addr := g.laneAddr a bs
  data := data

/-- The first vector or uniform operand that a word writes: the one that becomes pending (07: R145). -/
def writtenUse (i : Instr) : Option RegUse := i.uses.find? fun u => u.wr != 0 && (u.cls == .vector || u.cls == .uniform)

/-- The destination of a word with a lookahead whose written use begins at d (07: R145). -/
theorem pendDest_of_use (hla : i.lookahead = some la)
    (hu : writtenUse i = some (vecUse d width w rd)) (g : Group) :
    pendDest i g.regs.xi = (g.eff d).map fun n => (false, n, w) := by
  have hvz : d.toNat = 63 ↔ d = 63#6 := BitVec.toNat_inj (y := 63#6)
  rw [pendDest, hla]
  rw [writtenUse] at hu
  simp only [hu, Group.eff]
  by_cases hd : d = 63#6 <;> simp [RegUse.first, vecUse, hvz, hd]

theorem pendDest_of_noLookahead (hla : i.lookahead = none) (xi : BitVec 8) : pendDest i xi = none := by
  rw [pendDest, hla]

/-- A memory word of lane accesses is issued as its statement says, given what it leaves pending. -/
theorem memWordOp_of (he : ∀ s, exec i s = s.runWord i fun is g s => s.issueMem i is g (g.laneWord (set is g) a bs kind ord sc size (data g)))
    (hset : ∀ is g l, l < 32 → has (set is g) l = who is g l)
    (hdest : ∀ g : Group, pendDest i g.regs.xi = if w = 0 then none else (g.eff d).map fun n => (false, n, w))
    (hla : w ≠ 0 → i.lookahead = some la) (hU : ∀ g x, P g x.untranslated = P g x)
    (hP : ∀ g l va st n, ∀ x ∈ laneAccs l size va st (data g l).lo (data g l).hi (data g l).cmp n, P g x) :
    MemWordOp i who kind ord sc size (fun g => g.laneAddr a bs) d w la P := by
  intro s is g₀ ⟨hissue, hgrp, hword, hroom, hroom'⟩ g hchecks
  let m := g.laneWord (set is g) a bs kind ord sc size (data g)
  have hm : m.Starts s g (set is g) (who is g) := ⟨rfl, hset is g, hchecks⟩
  have hexec : exec i s = (s.setGroup is.grp g).issueMem i is g m := (he s).trans (State.runWord_ok hissue hgrp hword hroom)
  have hspec {pend : Option Nat} {o : MemOp} (h : m.Sends is g (who is g) pend o) :
      InFlight is g o kind ord sc (who is g) size (g.laneAddr a bs) ∧ ∀ x ∈ o.accs, P g x :=
    ⟨h.inFlight, h.forall_accs (hU g) (hP g)⟩
  by_cases hnone : pendDest i g.regs.xi = none
  · obtain ⟨t, h, o, hnext, hget, hissued, hsends, hpend, ho⟩ := State.issueMem_silent (is := is) hm hnone
    refine ⟨t, h, o, hexec.trans hnext, hget, hissued, fun x hx => hspec (hsends x hx), ?_⟩
    split
    · next n hn =>
      rw [hdest, hn] at hnone
      split
      · exact ⟨hpend, ho⟩
      · next hw => simp [hw] at hnone
    · exact ⟨hpend, ho⟩
  · obtain ⟨n, hn, hw⟩ : ∃ n, g.eff d = some n ∧ w ≠ 0 := by
      rw [hdest] at hnone
      split at hnone
      · exact absurd rfl hnone
      · next hw =>
        obtain ⟨n, hn⟩ := Option.ne_none_iff_exists'.mp (mt Option.map_eq_none_iff.mpr hnone)
        exact ⟨n, hn, hw⟩
    have hsome : pendDest i g.regs.xi = some (false, n, w) := by rw [hdest, if_neg hw, hn, Option.map_some]
    obtain ⟨t, h, o, slot, hnext, hget, hissued, hsends, hopens⟩ := State.issueMem_opens (is := is) hm hsome (hla hw) hroom'
    refine ⟨t, h, some o, hexec.trans hnext, hget, hissued, fun x hx => ?_, ?_⟩
    · obtain rfl := Option.some.inj hx
      exact hspec hsends
    · rw [hn]
      dsimp only
      rw [if_neg hw]
      exact ⟨o, slot, rfl, hsends.pend, hopens⟩

end

section

variable {i : Instr} {who : Issue → Group → Nat → Bool} {kind : MemKind} {ord : Ord} {sc : Scope} {size w width : Nat} {gd : Guard}
  {d a : BitVec 6} {bs : BitVec 2} {la : BitVec 4} {rd : Bool} {set : Issue → Group → BitVec 32} {data : Group → Nat → LaneData}
  {P : Group → LaneAcc → Prop}

/-! ## Words with a destination and words without one -/

theorem memWordOp_opens (he : ∀ s, exec i s = s.runWord i fun is g s => s.issueMem i is g (g.laneWord (set is g) a bs kind ord sc size (data g)))
    (hset : ∀ is g l, l < 32 → has (set is g) l = who is g l) (hw : w ≠ 0) (hla : i.lookahead = some la)
    (hu : writtenUse i = some (vecUse d width w rd))
    (hU : ∀ g x, P g x.untranslated = P g x)
    (hP : ∀ g l va st n, ∀ x ∈ laneAccs l size va st (data g l).lo (data g l).hi (data g l).cmp n, P g x) :
    MemWordOp i who kind ord sc size (fun g => g.laneAddr a bs) d w la P :=
  memWordOp_of he hset (fun g => by rw [pendDest_of_use hla hu, if_neg hw]) (fun _ => hla) hU hP

theorem memWordOp_silent (he : ∀ s, exec i s = s.runWord i fun is g s => s.issueMem i is g (g.laneWord (set is g) a bs kind ord sc size (data g)))
    (hset : ∀ is g l, l < 32 → has (set is g) l = who is g l) (hla : i.lookahead = none) (hU : ∀ g x, P g x.untranslated = P g x)
    (hP : ∀ g l va st n, ∀ x ∈ laneAccs l size va st (data g l).lo (data g l).hi (data g l).cmp n, P g x) :
    MemWordOp i who kind ord sc size (fun g => g.laneAddr a bs) d 0 la P :=
  memWordOp_of he hset (fun g => by rw [pendDest_of_noLookahead hla, if_pos rfl]) (fun h => absurd rfl h) hU hP

theorem memWordOp_load (he : ∀ s, exec i s = s.memLM i gd d a bs kind size) (hw : w ≠ 0) (hla : i.lookahead = some la)
    (hu : writtenUse i = some (vecUse d width w rd)) :
    MemWordOp i (takes gd) kind .rlx .device size (fun g => g.laneAddr a bs) d w la fun _ _ => True :=
  memWordOp_opens (set := fun is g => g.passing gd is.mask) (data := fun g => g.laneData d size) he
    (fun is g l hl => takes_ok gd is g l hl) hw hla hu (fun _ _ => rfl) fun _ _ _ _ _ _ _ => trivial

theorem memWordOp_store (he : ∀ s, exec i s = s.memLM i gd d a bs kind size) (hla : i.lookahead = none) (hU : ∀ g x, P g x.untranslated = P g x)
    (hP : ∀ g l va st n, ∀ x ∈ laneAccs l size va st (g.laneData d size l).lo (g.laneData d size l).hi (g.laneData d size l).cmp n, P g x) :
    MemWordOp i (takes gd) kind .rlx .device size (fun g => g.laneAddr a bs) d 0 0 P :=
  memWordOp_silent (set := fun is g => g.passing gd is.mask) (data := fun g => g.laneData d size) he
    (fun is g l hl => takes_ok gd is g l hl) hla hU hP

/-! ## What the lanes send -/

section

variable {g : Group} {l n : Nat} {va lo hi cmp : BitVec 64} {st : AccState} {x : LaneAcc}

theorem mem_laneAccs (hs : size ≠ 16) (hx : x ∈ laneAccs l size va st lo hi cmp n) : x.lane = l ∧ x.data = lo ∧ x.cmp = cmp := by
  rw [laneAccs, if_neg hs, List.mem_singleton] at hx
  subst hx
  exact ⟨rfl, rfl, rfl⟩

/-- A register's lane, in an access of up to four bytes. -/
theorem laneAccs_single (hs : size ≤ 4)
    (hx : x ∈ laneAccs l size va st (g.laneData d size l).lo (g.laneData d size l).hi (g.laneData d size l).cmp n) :
    x.data.toNat = (g.rv d x.lane).toNat := by
  obtain ⟨hlane, hdata, -⟩ := mem_laneAccs (by omega) hx
  rw [hdata, hlane, Group.laneData, if_pos hs]
  exact BitVec.toNat_setWidth_of_le (by decide)

/-- A pair's lane, in an access of eight bytes. -/
theorem laneAccs_pair (hx : x ∈ laneAccs l 8 va st (g.laneData d 8 l).lo (g.laneData d 8 l).hi (g.laneData d 8 l).cmp n) :
    x.data = g.rw d x.lane := by
  obtain ⟨hlane, hdata, -⟩ := mem_laneAccs (by decide) hx
  rw [hdata, hlane]
  rfl

/-- A quad's lane, in the two accesses of sixteen bytes (04: R79). -/
theorem laneAccs_quad (hx : x ∈ laneAccs l 16 va st (g.laneData d 16 l).lo (g.laneData d 16 l).hi (g.laneData d 16 l).cmp n) :
    x.data = if x.off = 0 then g.rw d x.lane else g.rwHi d x.lane := by
  rw [laneAccs, if_pos rfl, List.mem_pair] at hx
  obtain rfl | rfl := hx
  · rfl
  · rfl

end

theorem baseReg_eq (bs : BitVec 2) :
    baseReg bs = if bs = 0#2 then 60#6 else if bs = 1#2 then 61#6 else if bs = 2#2 then 62#6 else 59#6 := by
  revert bs
  decide

/-- The address of a lane: the base that the selector names plus the lane's offset (07: R140, 11: R205). -/
theorem Group.laneAddr_eq_base (g : Group) (a : BitVec 6) (bs : BitVec 2) : g.laneAddr a bs = fun l => BitVec.ofNat 64
    ((g.rs (if bs = 0#2 then 60#6 else if bs = 1#2 then 61#6 else if bs = 2#2 then 62#6 else 59#6)).toNat + (g.rv a l).toNat) := by
  funext l
  rw [Group.laneAddr_eq, baseReg_eq]

end

/-- Settles O24: each word is one form of lane accesses, with what its lanes send and its destination. -/
theorem loadsAndStoresIssue : Obligations.LoadsAndStoresIssue := by
  intro gd d a bs la base addr any single pair quad
  have haddr : addr = fun g => g.laneAddr a bs := funext fun g => (g.laneAddr_eq_base a bs).symm
  clear_value addr
  subst haddr
  exact ⟨memWordOp_load (exec_ldI8 gd d a bs la) (by decide) rfl rfl,
    memWordOp_load (exec_ldN8 gd d a bs la) (by decide) rfl rfl,
    memWordOp_load (exec_ldI16 gd d a bs la) (by decide) rfl rfl,
    memWordOp_load (exec_ldN16 gd d a bs la) (by decide) rfl rfl,
    memWordOp_load (exec_ldN32 gd d a bs la) (by decide) rfl rfl,
    memWordOp_load (exec_ldN64 gd d a bs la) (by decide) rfl rfl,
    memWordOp_load (exec_ldN128 gd d a bs la) (by decide) rfl rfl,
    memWordOp_store (exec_stN8 gd d a bs) rfl (fun _ _ => rfl) fun _ _ _ _ _ _ => laneAccs_single (by decide),
    memWordOp_store (exec_stN16 gd d a bs) rfl (fun _ _ => rfl) fun _ _ _ _ _ _ => laneAccs_single (by decide),
    memWordOp_store (exec_stN32 gd d a bs) rfl (fun _ _ => rfl) fun _ _ _ _ _ _ => laneAccs_single (by decide),
    memWordOp_store (exec_stN64 gd d a bs) rfl (fun _ _ => rfl) fun _ _ _ _ _ _ => laneAccs_pair,
    memWordOp_store (exec_stN128 gd d a bs) rfl (fun _ _ => rfl) fun _ _ _ _ _ _ => laneAccs_quad⟩

section

variable {i : Instr} {kind : MemKind} {ord : Ord} {sc : Scope} {size w width : Nat} {d a : BitVec 6} {bs : BitVec 2} {la : BitVec 4} {rd : Bool}
  {data : Group → Nat → LaneData} {P : Group → LaneAcc → Prop}

/-- A word of every lane of the set whose result lands in d (11: R210 to R212). -/
theorem memWordOp_all (he : ∀ s, exec i s = s.memLA i a bs kind ord sc size data) (hw : w ≠ 0) (hla : i.lookahead = some la)
    (hu : writtenUse i = some (vecUse d width w rd))
    (hU : ∀ g x, P g x.untranslated = P g x)
    (hP : ∀ g l va st n, ∀ x ∈ laneAccs l size va st (data g l).lo (data g l).hi (data g l).cmp n, P g x) :
    MemWordOp i every kind ord sc size (fun g => g.laneAddr a bs) d w la P :=
  memWordOp_opens (set := fun is _ => is.mask) (data := data) he (fun _ _ _ _ => rfl) hw hla hu hU hP

/-- A store of every lane of the set (11: R210). -/
theorem memWordOp_allStore (he : ∀ s, exec i s = s.memLA i a bs kind ord sc size data) (hla : i.lookahead = none)
    (hU : ∀ g x, P g x.untranslated = P g x)
    (hP : ∀ g l va st n, ∀ x ∈ laneAccs l size va st (data g l).lo (data g l).hi (data g l).cmp n, P g x) :
    MemWordOp i every kind ord sc size (fun g => g.laneAddr a bs) d 0 0 P :=
  memWordOp_silent (set := fun is _ => is.mask) (data := data) he (fun _ _ _ _ => rfl) hla hU hP

/-- An atomic of a register on four bytes (11: R211). -/
theorem memWordOp_atom32 (he : ∀ s, exec i s = s.memLA i a bs kind ord sc 4 fun g => g.laneData d 4) (hla : i.lookahead = some la)
    (hu : writtenUse i = some (vecUse d 1 1 true)) :
    MemWordOp i every kind ord sc 4 (fun g => g.laneAddr a bs) d 1 la fun g x => x.data.toNat = (g.rv d x.lane).toNat :=
  memWordOp_all he (by decide) hla hu (fun _ _ => rfl) fun _ _ _ _ _ _ => laneAccs_single (by decide)

/-- An atomic of a pair on eight bytes (11: R211). -/
theorem memWordOp_atom64 (he : ∀ s, exec i s = s.memLA i a bs kind ord sc 8 fun g => g.laneData d 8) (hla : i.lookahead = some la)
    (hu : writtenUse i = some (vecUse d 2 2 true)) :
    MemWordOp i every kind ord sc 8 (fun g => g.laneAddr a bs) d 2 la fun g x => x.data = g.rw d x.lane :=
  memWordOp_all he (by decide) hla hu (fun _ _ => rfl) fun _ _ _ _ _ _ => laneAccs_pair

/-! ## Compare and swap -/

/-- The halves of a pair: the low register is compared with, the high one is offered (11: R212). -/
theorem laneAccs_halves {y : BitVec 64} {l n : Nat} {va : BitVec 64} {st : AccState} {x : LaneAcc}
    (hx : x ∈ laneAccs l 4 va st ((y.extractLsb' 32 32).setWidth 64) 0#64 ((y.setWidth 32).setWidth 64) n) :
    x.lane = l ∧ x.cmp.toNat = y.toNat % 2 ^ 32 ∧ x.data.toNat = y.toNat / 2 ^ 32 := by
  obtain ⟨hlane, hdata, hcmp⟩ := mem_laneAccs (by decide) hx
  have hy := y.isLt
  refine ⟨hlane, ?_, ?_⟩
  · rw [hcmp, BitVec.toNat_setWidth_of_le (by decide), BitVec.toNat_setWidth]
  · rw [hdata, BitVec.toNat_setWidth_of_le (by decide), BitVec.extractLsb'_toNat, Nat.shiftRight_eq_div_pow]
    omega

theorem acasN32_issue (d a : BitVec 6) (bs : BitVec 2) (sc : Scope) (la : BitVec 4) (o : Ord) :
    MemWordOp (.acasN32 d a bs sc la o) every (.cas 4) o sc 4 (fun g => g.laneAddr a bs) d 1 la fun g x =>
      x.cmp.toNat = (g.rw d x.lane).toNat % 2 ^ 32 ∧ x.data.toNat = (g.rw d x.lane).toNat / 2 ^ 32 := by
  refine memWordOp_all (width := 2) (rd := true) (exec_acasN32 d a bs sc la o) (by decide) rfl rfl (fun _ _ => rfl) fun g l va st n x hx => ?_
  obtain ⟨rfl, hcmp, hdata⟩ := laneAccs_halves hx
  exact ⟨hcmp, hdata⟩

theorem acasN64_issue (d a : BitVec 6) (bs : BitVec 2) (sc : Scope) (la : BitVec 4) (o : Ord) :
    MemWordOp (.acasN64 d a bs sc la o) every (.cas 8) o sc 8 (fun g => g.laneAddr a bs) d 2 la fun g x =>
      x.cmp = g.rw d x.lane ∧ x.data = g.rwHi d x.lane := by
  refine memWordOp_all (width := 4) (rd := true) (exec_acasN64 d a bs sc la o) (by decide) rfl rfl (fun _ _ => rfl) fun g l va st n x hx => ?_
  obtain ⟨rfl, hdata, hcmp⟩ := mem_laneAccs (by decide) hx
  exact ⟨hcmp, hdata⟩

end

/-- Settles O25: the same form with every lane of the set, and with the ordering and scope of the word. -/
theorem orderedAndAtomicIssue : Obligations.OrderedAndAtomicIssue := by
  intro d a bs sc la b o base addr any single pair swap swapW ordLoad ordStore
  have haddr : addr = fun g => g.laneAddr a bs := funext fun g => (g.laneAddr_eq_base a bs).symm
  clear_value addr
  subst haddr
  exact ⟨memWordOp_all (exec_ldaN32 d a bs sc la b) (by decide) rfl rfl (fun _ _ => rfl) fun _ _ _ _ _ _ _ => trivial,
    memWordOp_all (exec_ldaN64 d a bs sc la b) (by decide) rfl rfl (fun _ _ => rfl) fun _ _ _ _ _ _ _ => trivial,
    memWordOp_allStore (exec_staN32 d a bs sc b) rfl (fun _ _ => rfl) fun _ _ _ _ _ _ => laneAccs_single (by decide),
    memWordOp_allStore (exec_staN64 d a bs sc b) rfl (fun _ _ => rfl) fun _ _ _ _ _ _ => laneAccs_pair,
    memWordOp_atom32 (exec_aaddN32 d a bs sc la o) rfl rfl, memWordOp_atom32 (exec_aminI32 d a bs sc la o) rfl rfl,
    memWordOp_atom32 (exec_amaxI32 d a bs sc la o) rfl rfl, memWordOp_atom32 (exec_aminN32 d a bs sc la o) rfl rfl,
    memWordOp_atom32 (exec_amaxN32 d a bs sc la o) rfl rfl, memWordOp_atom32 (exec_aandN32 d a bs sc la o) rfl rfl,
    memWordOp_atom32 (exec_aorN32 d a bs sc la o) rfl rfl, memWordOp_atom32 (exec_axorN32 d a bs sc la o) rfl rfl,
    memWordOp_atom32 (exec_axchgN32 d a bs sc la o) rfl rfl, acasN32_issue d a bs sc la o,
    memWordOp_atom64 (exec_aaddN64 d a bs sc la o) rfl rfl, memWordOp_atom64 (exec_aminI64 d a bs sc la o) rfl rfl,
    memWordOp_atom64 (exec_amaxI64 d a bs sc la o) rfl rfl, memWordOp_atom64 (exec_aminN64 d a bs sc la o) rfl rfl,
    memWordOp_atom64 (exec_amaxN64 d a bs sc la o) rfl rfl, memWordOp_atom64 (exec_aandN64 d a bs sc la o) rfl rfl,
    memWordOp_atom64 (exec_aorN64 d a bs sc la o) rfl rfl, memWordOp_atom64 (exec_axorN64 d a bs sc la o) rfl rfl,
    memWordOp_atom64 (exec_axchgN64 d a bs sc la o) rfl rfl, acasN64_issue d a bs sc la o⟩

end Sys2Proof.Machine

end

section

/-! The KV load and the probe at their issue (O27; 11: R209, R216 to R218; 03: R78): what a TLB answers for one lane depends on no walk that the
lookups of other lanes have queued. -/

set_option Elab.async false

namespace Sys2Proof.Machine

section

variable {s : State} {g : Group} {align lane : Nat} {va e : BitVec 64} {addr leaf : Nat → BitVec 64} {ls : List Nat}

/-! ## The lanes of a probe -/

theorem State.startAccess_tree_aligned {store : Bool} (hw : g.id.walker = false) (h : va.toNat < 2 ^ 55) (ha : va.toNat % align = 0) :
    s.startAccess g store align va = .ok .miss := by
  rw [State.startAccess_tree hw h, if_neg (not_not.mpr ha)]

/-- The page of an address of tree space. -/
theorem pageOf_of_tree (h : va.toNat < 2 ^ 55) : pageOf va = va.toNat / 2 ^ 16 := by
  rw [pageOf_eq]
  omega

theorem State.probeLane_hit (hst : s.startAccess g false align va = .ok .miss)
    (ht : s.tlb g.ctl.core g.view.holder g.pinGen (pageOf va) = some e) :
    s.probeLane g align lane va = (s, { lane := lane, va := va, flags := some (s.probeLeaf e va) }) := by
  simp [State.probeLane, hst, ht]

theorem State.probeLane_miss (hst : s.startAccess g false align va = .ok .miss)
    (ht : s.tlb g.ctl.core g.view.holder g.pinGen (pageOf va) = none) :
    s.probeLane g align lane va =
      (s.queueWalk g.ctl.core (s.walkOf g.view.partition g.view.holder g.pinSlot g.pinGen kindRead true va),
        { lane := lane, va := va, flags := none }) := by
  simp [State.probeLane, hst, ht]

/-- One lane of a probe of tree space queues at most a walk. -/
theorem State.probeLane_queues (s : State) (lane : Nat) (hst : s.startAccess g false align va = .ok .miss) :
    WalksQueued s (s.probeLane g align lane va).1 := by
  cases ht : s.tlb g.ctl.core g.view.holder g.pinGen (pageOf va) with
  | some e =>
    rw [State.probeLane_hit hst ht]
    exact .refl s
  | none =>
    rw [State.probeLane_miss hst ht]
    exact .queueWalk s _ _

theorem State.probeLanes_queues (hst : ∀ (u : State), ∀ l ∈ ls, u.startAccess g false align (addr l) = .ok .miss) (s : State) :
    WalksQueued s (s.probeLanes g align addr ls).1 := by
  induction ls generalizing s with
  | nil => exact .refl s
  | cons l r ih =>
    obtain ⟨hl, hr⟩ := List.forall_mem_cons.mp fun x hx u => hst u x hx
    exact (s.probeLane_queues l (hl s)).trans (ih (fun u x hx => hr x hx u) _)

/-- A probe whose pages are all in the TLBs has all its flags at once. -/
theorem State.probeLanes_hits (hst : ∀ l ∈ ls, s.startAccess g false align (addr l) = .ok .miss)
    (ht : ∀ l ∈ ls, s.tlb g.ctl.core g.view.holder g.pinGen (pageOf (addr l)) = some (leaf l)) :
    s.probeLanes g align addr ls =
      (s, ls.map fun l => { lane := l, va := addr l, flags := some (s.probeLeaf (leaf l) (addr l)) }) := by
  induction ls with
  | nil => rfl
  | cons l r ih =>
    obtain ⟨hl, hr⟩ := List.forall_mem_cons.mp hst
    obtain ⟨htl, htr⟩ := List.forall_mem_cons.mp ht
    rw [State.probeLanes, State.probeLane_hit hl htl, ih hr htr]
    rfl

/-- A lane whose page the TLBs do not hold has no flags yet, and a walk of its page is to be done, whatever the lanes before it queued. -/
theorem State.probeLanes_miss (hst : ∀ (u : State), ∀ l ∈ ls, u.startAccess g false align (addr l) = .ok .miss) (hl : lane ∈ ls)
    (ht : s.tlb g.ctl.core g.view.holder g.pinGen (pageOf (addr lane)) = none) :
    (∃ x ∈ (s.probeLanes g align addr ls).2, x.flags = none)
      ∧ (s.probeLanes g align addr ls).1.walkPending g.ctl.core g.view.holder g.pinGen (pageOf (addr lane)) = true := by
  induction ls generalizing s with
  | nil => cases hl
  | cons l r ih =>
    obtain ⟨hstl, hstr⟩ := List.forall_mem_cons.mp fun x hx u => hst u x hx
    rcases List.mem_cons.mp hl with rfl | hlr
    · rw [State.probeLanes, State.probeLane_miss (hstl s) ht]
      exact ⟨⟨_, List.mem_cons_self, rfl⟩,
        (State.probeLanes_queues (fun u x hx => hstr x hx u) _).walkPending (s.walkPending_queueWalk _ _)⟩
    · have ht' := ((s.probeLane_queues l (hstl s)).tlb_eq g.ctl.core g.view.holder g.pinGen (pageOf (addr lane))).trans ht
      obtain ⟨⟨x, hx, hnone⟩, hwalk⟩ := ih (fun u x hx => hstr x hx u) hlr ht'
      exact ⟨⟨x, List.mem_cons_of_mem _ hx, hnone⟩, hwalk⟩

/-! ## The flags of a probe -/

theorem Group.finishProbe_eq (g : Group) (p : Probe) : ∃ c, g.finishProbe p = { g with regs := { g.regs with c := c } } :=
  Group.writeConds_eq _ _ _ g

/-- The flags of a probe go to the lanes that it names. -/
theorem Group.finishProbe_cond {p : Probe} {f : Nat → BitVec 4} (hp : p.lanes = ls.map fun l => { lane := l, va := addr l, flags := some (f l) })
    (j : BitVec 2) {l : Nat} (hl : l < 32) :
    cregGet ((g.finishProbe p).cond l) j = if j = p.creg ∧ l ∈ ls then f l else cregGet (g.cond l) j := by
  have hmask : has (maskOf fun l => p.lanes.any fun x => x.lane == l) l = decide (l ∈ ls) := by
    rw [has_maskOf _ l hl, hp, Bool.eq_iff_iff]
    simp
  rw [Group.finishProbe, Group.writeConds_cond _ _ _ _ _ hl, hmask]
  by_cases hmem : l ∈ ls
  · have hval : ((p.lanes.find? fun x => x.lane == l).bind ProbeLane.flags) = some (f l) := by
      have hfind : ls.find? (fun x => x == l) = some l := by
        obtain ⟨y, hy⟩ := Option.isSome_iff_exists.mp
          ((List.find?_isSome (p := fun x => x == l)).mpr ⟨l, hmem, beq_self_eq_true l⟩)
        have hyl : (y == l) = true := List.find?_some (p := fun x => x == l) hy
        rw [hy, beq_iff_eq.mp hyl]
      rw [hp, List.find?_map]
      simp only [Function.comp_def, hfind]
      rfl
    simp [hmem, hval, cregGet_cregSet]
  · simp [hmem]

/-- A single probe whose lanes all have their flags writes them. -/
theorem Group.finishProbes_answered {p : Probe} (hg : g.fl.probes = [p]) (hp : ∀ x ∈ p.lanes, x.flags.isSome = true) :
    g.finishProbes = { g.finishProbe p with fl := { (g.finishProbe p).fl with probes := [] } } := by
  have hall : (p.lanes.all fun x => x.flags.isSome) = true := List.all_eq_true.mpr hp
  simp [Group.finishProbes, hg, hall]

/-- A single probe that waits for a walk stays. -/
theorem Group.finishProbes_waiting {p : Probe} (hg : g.fl.probes = [p]) (hp : ∃ x ∈ p.lanes, x.flags = none) : g.finishProbes = g := by
  obtain ⟨x, hx, hnone⟩ := hp
  have hall : (p.lanes.all fun x => x.flags.isSome) = false := List.all_eq_false.mpr ⟨x, hx, by simp [hnone]⟩
  simp only [Group.finishProbes, hg, List.filter_cons, hall, List.filter_nil, List.foldl_nil, Bool.not_false, if_true, Bool.false_eq_true,
    if_false]
  rw [← hg]

/-- The group when a probe has counted its lanes, goes on, and stands among its probes. -/
def Group.probing (g : Group) (is : Issue) (ls : List Nat) (p : Probe) : Group :=
  let h := (g.countLanes ls).advance is
  { h with fl := { h.fl with probes := h.fl.probes ++ [p] } }

theorem Group.probing_eq (g : Group) (is : Issue) (ls : List Nat) (p : Probe) : ∃ os pcs, g.probing is ls p =
    { g with fl := { g.fl with ordinals := os, probes := g.fl.probes ++ [p] }, ctl := { g.ctl with pcs := pcs } } := by
  obtain ⟨pcs, hpcs⟩ := (g.countLanes ls).advance_eq is
  exact ⟨_, pcs, by rw [Group.probing, hpcs]; rfl⟩

/-- What a probe leaves alone. -/
structure Group.OnlyProbes (is : Issue) (g h : Group) : Prop where
  goesOn : GoesOn is g h
  v : h.regs.v = g.regs.v
  s : h.regs.s = g.regs.s
  ops : h.fl.ops = g.fl.ops
  pend : h.fl.pend = g.fl.pend

/-- The one probe of a group waits until its lanes have their flags, and no flag is written before (log 48). -/
theorem Group.probing_waits {p : Probe} (is : Issue) (ls : List Nat) (hg : g.fl.probes = []) (hp : ∃ x ∈ p.lanes, x.flags = none) :
    g.OnlyProbes is (g.probing is ls p).finishProbes ∧ (g.probing is ls p).finishProbes.fl.probes = [p]
      ∧ (g.probing is ls p).finishProbes.regs = g.regs := by
  have hgoes : GoesOn is g (g.probing is ls p) := fun l hl => (g.countLanes ls).advance_pc is l hl
  obtain ⟨os, pcs, h⟩ := g.probing_eq is ls p
  rw [h, hg, List.nil_append] at hgoes ⊢
  rw [Group.finishProbes_waiting rfl hp]
  exact ⟨⟨hgoes, rfl, rfl, rfl, rfl⟩, rfl, rfl⟩

/-- The one probe of a group writes its flags when its lanes have them. -/
theorem Group.probing_answers {p : Probe} {f : Nat → BitVec 4} (is : Issue) (hg : g.fl.probes = [])
    (hp : p.lanes = ls.map fun l => { lane := l, va := addr l, flags := some (f l) }) :
    g.OnlyProbes is (g.probing is ls p).finishProbes ∧ (g.probing is ls p).finishProbes.fl.probes = []
      ∧ ∀ j l, l < 32 → cregGet ((g.probing is ls p).finishProbes.cond l) j =
        if j = p.creg ∧ l ∈ ls then f l else cregGet (g.cond l) j := by
  have hgoes : GoesOn is g (g.probing is ls p) := fun l hl => (g.countLanes ls).advance_pc is l hl
  have hanswered : ∀ x ∈ p.lanes, x.flags.isSome = true := by
    rw [hp]
    exact List.forall_mem_map.mpr fun _ _ => rfl
  have hflags := fun j l hl => Group.finishProbe_cond (g := g.probing is ls p) hp j (l := l) hl
  obtain ⟨c, hc⟩ := (g.probing is ls p).finishProbe_eq p
  obtain ⟨os, pcs, h⟩ := g.probing_eq is ls p
  rw [h, hg, List.nil_append] at hgoes hc hflags ⊢
  rw [Group.finishProbes_answered rfl hanswered]
  refine ⟨?_, rfl, hflags⟩
  rw [hc]
  exact ⟨hgoes, rfl, rfl, rfl, rfl⟩

end

/-! ## The probe -/

section

variable {s : State} {is : Issue} {g g₀ : Group} {gd : Guard} {cj : BitVec 2} {a : BitVec 6} {bs : BitVec 2} {z : ProbeSize}

/-- A probe whose lanes' pages are being looked up. -/
def Group.probeOf (g : Group) (is : Issue) (cj : BitVec 2) (lanes : List ProbeLane) : Probe where
  set := is.mask
  creg := cj
  lanes := lanes
  slot := g.pinSlot
  gen := g.pinGen

/-- A probe of tree addresses stands among the probes of its group, and writes its flags if it has them all. -/
theorem exec_ldProbe_tree (hf : Fits s (.ldProbe gd cj a bs z) is g₀) (hg : g₀.atIssue (.ldProbe gd cj a bs z) is = g)
    (hst : ∀ l ∈ lanesOf (g.passing gd is.mask), s.startAccess g false (probeBytes z) (g.laneAddr a bs l) = .ok .miss) :
    exec (.ldProbe gd cj a bs z) s =
      let x := (s.setGroup is.grp g).probeLanes g (probeBytes z) (g.laneAddr a bs) (lanesOf (g.passing gd is.mask))
      .next (x.1.setGroup is.grp (g.probing is (lanesOf (g.passing gd is.mask)) (g.probeOf is cj x.2)).finishProbes) := by
  obtain ⟨hissue, hgrp, hword, hroom, -⟩ := hf
  have hnone : ((lanesOf (g.passing gd is.mask)).find? fun l =>
      ((s.setGroup is.grp g).probeTrap g (probeBytes z) (g.laneAddr a bs l)).isSome) = none := by
    refine List.find?_eq_none.mpr fun l hl => ?_
    have hsame : (s.setGroup is.grp g).startAccess g false (probeBytes z) (g.laneAddr a bs l) = .ok .miss := hst l hl
    simp [State.probeTrap, hsame]
  rw [Group.atIssue] at hg
  rw [exec_ldProbe, execLdProbe, State.runWord_ok hissue hgrp hword hroom, hg]
  simp only [hnone]
  rfl

end

theorem probe : Claims.Probe := by
  intro gd cj a bs z s is g₀ leaf i hf g addr holder hwalker hprobes haddr
  have hlane : g.laneAddr a bs = addr := funext (g.laneAddr_eq a bs)
  obtain ⟨ls, hdef⟩ : ∃ ls, lanesOf (g.passing gd is.mask) = ls := ⟨_, rfl⟩
  have hls (l : Nat) : l ∈ ls ↔ l < 32 ∧ takes gd is g l = true := by
    rw [← hdef, mem_lanesOf]
    exact and_congr_right fun hl => by rw [takes_ok gd is g l hl]
  have hst (v : State) : ∀ l ∈ ls, v.startAccess g false (probeBytes z) (addr l) = .ok .miss := fun l hl =>
    have ⟨htree, halign⟩ := haddr l ((hls l).mp hl).1 ((hls l).mp hl).2
    State.startAccess_tree_aligned hwalker htree halign
  have hpage : ∀ l ∈ ls, pageOf (addr l) = (addr l).toNat / 2 ^ 16 := fun l hl =>
    pageOf_of_tree (haddr l ((hls l).mp hl).1 ((hls l).mp hl).2).1
  have hexec := exec_ldProbe_tree hf rfl (by rw [hdef, hlane]; exact hst s)
  rw [hdef, hlane] at hexec
  dsimp only at hexec
  have hqueues := State.probeLanes_queues (ls := ls) (fun v => hst v) (s.setGroup is.grp g)
  obtain ⟨p, hp⟩ : ∃ p, g.probeOf is cj ((s.setGroup is.grp g).probeLanes g (probeBytes z) addr ls).2 = p := ⟨_, rfl⟩
  rw [hp] at hexec
  by_cases hmiss : ∃ l ∈ ls, s.tlb g.ctl.core holder g.pinGen (pageOf (addr l)) = none
  · obtain ⟨l, hl, ht⟩ := hmiss
    have hwait : ∃ x ∈ p.lanes, x.flags = none := hp ▸ (State.probeLanes_miss (s := s.setGroup is.grp g) hst hl ht).1
    obtain ⟨honly, hstands, hregs⟩ := Group.probing_waits is ls hprobes hwait
    refine ⟨_, _, hexec, Table.get?_set_self _ _ _, honly.goesOn, honly.v, honly.s, honly.ops, honly.pend, hqueues.mem,
      fun hall => ?_, fun k hk htakes hnone => ⟨⟨p, hstands, hp ▸ rfl, hp ▸ rfl⟩, fun k => ?_, ?_⟩⟩
    · obtain ⟨h32, htakes⟩ := (hls l).mp hl
      rw [hpage l hl, hall l h32 htakes] at ht
      cases ht
    · rw [Group.cond, hregs, Group.cond]
    · have hmem := (hls k).mpr ⟨hk, htakes⟩
      rw [← hpage k hmem] at hnone ⊢
      obtain ⟨w, hw, hserves⟩ := List.any_eq_true.mp (State.probeLanes_miss (s := s.setGroup is.grp g) hst hmem hnone).2
      simp only [Walk.serves, Bool.and_eq_true, beq_iff_eq, and_assoc] at hserves
      exact ⟨w, hw, hserves⟩
  · have hhits : ∀ l ∈ ls, ∃ e, s.tlb g.ctl.core holder g.pinGen (pageOf (addr l)) = some e := fun l hl =>
      Option.ne_none_iff_exists'.mp fun h => hmiss ⟨l, hl, h⟩
    choose! e he using hhits
    have hlanes : p.lanes = ls.map fun l => { lane := l, va := addr l, flags := some (s.probeLeaf (e l) (addr l)) } :=
      hp ▸ congrArg Prod.snd (State.probeLanes_hits (s := s.setGroup is.grp g) (hst _) he)
    obtain ⟨honly, hdone, hcond⟩ := Group.probing_answers is hprobes hlanes
    refine ⟨_, _, hexec, Table.get?_set_self _ _ _, honly.goesOn, honly.v, honly.s, honly.ops, honly.pend, hqueues.mem,
      fun hall => ⟨hdone, fun j l hl => ?_⟩, fun l hl htakes hnone => ?_⟩
    · have hleaf : l ∈ ls → e l = leaf l := fun hmem => by
        have hl' := hall l hl ((hls l).mp hmem).2
        rw [← hpage l hmem, he l hmem] at hl'
        exact Option.some.inj hl'
      have htakes : l ∈ ls ↔ takes gd is g l = true := (hls l).trans (and_iff_right hl)
      have hcreg : p.creg = cj := hp ▸ rfl
      rw [hcond j l hl, hcreg]
      by_cases hmem : l ∈ ls
      · simp only [hmem, htakes.mp hmem, and_true, hleaf hmem]
        rfl
      · rw [if_neg fun h => hmem h.2, if_neg fun h => hmem (htakes.mpr h.2)]
    · have hmem := (hls l).mpr ⟨hl, htakes⟩
      rw [← hpage l hmem] at hnone
      exact absurd ⟨l, hmem, hnone⟩ hmiss

/-! ## The accesses of an LDK at its issue -/

/-- The code with which an access has failed. -/
def AccState.failure (a : AccState) : Option (BitVec 8) :=
  match a with
  | .failed c => some c
  | .miss => none
  | .wait _ => none
  | .answered _ => none
  | .leaf _ => none
  | .direct _ => none
  | .peer _ => none

theorem AccState.failure_eq_some_iff (a : AccState) (c : BitVec 8) : a.failure = some c ↔ a = .failed c := by
  cases a <;> simp [AccState.failure]

/-- An access but for its translation, and its failure. -/
def LaneAcc.issued (a : LaneAcc) : LaneAcc × Option (BitVec 8) := (a.untranslated, a.st.failure)

section

variable {s : State} {g h : Group} {o : MemOp} {is : Issue} {a : BitVec 6} {bs : BitVec 2} {ls : List Nat} {l : Nat} {pend : Option Nat}
  {accs : List LaneAcc}

/-- A read that meets the TLBs does not fail there: a leaf gives every read its translation (03: R66). -/
theorem State.tryAcc_kindRead_issued (s : State) (part core region slot : Nat) (gen : BitVec 16) (x : LaneAcc) :
    (s.tryAcc part core region slot gen kindRead x).2.issued = x.issued := by
  refine Prod.ext (s.tryAcc_untranslated _ _ _ _ _ _ x) ?_
  unfold State.tryAcc
  split
  · next hst =>
    have hmiss : x.issued.2 = none := by rw [LaneAcc.issued, beq_iff_eq.mp hst]; rfl
    rw [hmiss, State.tryTlb]
    split
    · rw [State.withLeaf, leafReach_kindRead]
      rfl
    · rfl
  · rfl

theorem MemOp.tried_issued (ho : o.kind = .ldk) (g : Group) (s : State) : (o.tried g s).2.map LaneAcc.issued = o.accs.map LaneAcc.issued :=
  threadAccs_map (fun u x => by rw [ho]; exact u.tryAcc_kindRead_issued _ _ _ _ _ x) o.accs s

/-- The checks at issue let no failed access start. -/
theorem State.failure_of_startAccess {store : Bool} {align : Nat} {va : BitVec 64} {st : AccState}
    (h : s.startAccess g store align va = .ok st) : st.failure = none := by
  unfold State.startAccess State.startWalker at h
  dsimp only at h
  repeat' split at h
  all_goals cases h
  all_goals rfl

/-- The lane of an LDK as it begins step 1 (11: R218). -/
def State.ldkLane (s : State) (g : Group) (a : BitVec 6) (bs : BitVec 2) (l : Nat) : KvLane where
  lane := l
  pos := (g.rv a l).toNat
  tid := s.tidReplica g.id.launch (g.ctl.core / 4) (handleTid (g.rs (baseReg bs)))
  tries := 0

/-- The reads of a lane of an LDK whose addresses its handle and its token position give. -/
def State.ldkReads (s : State) (g : Group) (a : BitVec 6) (bs : BitVec 2) (l : Nat) : List LaneAcc :=
  s.kvReads g (g.rs (baseReg bs)) (s.ldkLane g a bs l) (Table.getD g.fl.ordinals l 0)

/-- The operation of an LDK of these lanes (11: R216). -/
def State.ldkOp (s : State) (g : Group) (is : Issue) (a : BitVec 6) (bs : BitVec 2) (ls : List Nat) (pend : Option Nat) : MemOp where
  seq := g.fl.nextSeq
  pc := is.pc
  word := is.word
  set := is.mask
  kind := .ldk
  ord := .rlx
  scope := .device
  base := g.rs (baseReg bs)
  accs := ls.flatMap (s.ldkReads g a bs)
  pend := pend
  queue := .none
  log := none
  slot := g.pinSlot
  gen := g.pinGen
  answered := []
  kv := ls.map (s.ldkLane g a bs)

/-- The members of the lists of different keys, one of the keys asked for. -/
theorem flatMap_filter_key {β : Type} {key : β → Nat} {f : Nat → List β} (hf : ∀ x, ∀ y ∈ f x, key y = x) (hls : ls.Nodup)
    (hl : l ∈ ls) : (ls.flatMap f).filter (fun y => key y == l) = f l := by
  have hown : (f l).filter (fun y => key y == l) = f l := List.filter_eq_self.mpr fun y hy => by simp [hf l y hy]
  have hother (r : List Nat) (hr : l ∉ r) : (r.flatMap f).filter (fun y => key y == l) = [] := by
    refine List.filter_eq_nil_iff.mpr fun y hy => ?_
    obtain ⟨x, hx, hyx⟩ := List.mem_flatMap.mp hy
    rw [hf x y hyx, beq_iff_eq]
    exact fun e => hr (e ▸ hx)
  induction ls with
  | nil => cases hl
  | cons x r ih =>
    obtain ⟨hx, hr⟩ := List.nodup_cons.mp hls
    rw [List.flatMap_cons, List.filter_append]
    by_cases e : l = x
    · subst e
      rw [hown, hother r hx, List.append_nil]
    · have hnone : (f x).filter (fun y => key y == l) = [] :=
        List.filter_eq_nil_iff.mpr fun y hy => by simp [hf x y hy, Ne.symm e]
      rw [hnone, List.nil_append, ih hr ((List.mem_cons.mp hl).resolve_left e)]

theorem State.ldkReads_fresh (s : State) (g : Group) (a : BitVec 6) (bs : BitVec 2) (l : Nat) :
    ∀ x ∈ s.ldkReads g a bs l, x.lane = l ∧ x.done = false := fun _ hx =>
  have ⟨hlane, hdone, _⟩ := State.kvReads_fresh hx
  ⟨hlane, hdone⟩

/-- What the accesses of a lane show that have met the TLBs, its reads showed. -/
theorem State.ldkOp_lane (hls : ls.Nodup) (hl : l ∈ ls) (haccs : accs.map LaneAcc.issued = (s.ldkOp g is a bs ls pend).accs.map LaneAcc.issued) :
    (accs.filter fun x => x.lane == l).map LaneAcc.issued = (s.ldkReads g a bs l).map LaneAcc.issued := by
  have hkey : (fun x : LaneAcc => x.lane == l) = (fun y : LaneAcc × Option (BitVec 8) => y.1.lane == l) ∘ LaneAcc.issued := rfl
  rw [hkey, ← List.filter_map, haccs, List.filter_map, ← hkey, State.ldkOp,
    flatMap_filter_key (fun x y hy => (s.ldkReads_fresh g a bs x y hy).1) hls hl]

/-- Reads of an LDK lane that is not fit: one access that has failed (11: R218). -/
theorem State.ldkReads_unfit (h : ldkFit (g.rs (baseReg bs)) (s.ldkLane g a bs l).tid = false) :
    s.ldkReads g a bs l = [kvFailed l codeKvmap (Table.getD g.fl.ordinals l 0)] := by
  rw [State.ldkReads, State.kvReads, h]
  rfl

/-- Reads of a fit lane: where its bytes go, how many, and from which address (11: R218, R219). -/
theorem State.ldkReads_fit (h : ldkFit (g.rs (baseReg bs)) (s.ldkLane g a bs l).tid = true) :
    (s.ldkReads g a bs l).map (fun x => (x.off, x.size, x.va)) =
      let tid := (s.ldkLane g a bs l).tid
      let e := kvEntryAt tid (g.rv a l).toNat
      [(0, 8, e), (8, 8, e + 8#64), (24, 4, tidAux tid + BitVec.ofNat 64 (4 * handlePair (g.rs (baseReg bs)))), (32, 8, e)] := by
  rw [State.ldkReads, State.kvReads, h]
  rfl

/-- A read fails at issue when a check of its address traps, with the code of that check (log 78). -/
theorem State.kvRead_failure (s : State) (g : Group) (lane off n : Nat) (va : BitVec 64) (ordinal : Nat) (c : BitVec 8) :
    (s.kvRead g lane off n va ordinal).st.failure = some c ↔ s.startAccess g false n va = .trap c := by
  rw [State.kvRead]
  cases hst : s.startAccess g false n va with
  | trap k => simp [LaneAcc.fresh, AccState.failure]
  | ok st => simp [LaneAcc.fresh, State.failure_of_startAccess hst]

theorem State.ldkReads_failure (h : ldkFit (g.rs (baseReg bs)) (s.ldkLane g a bs l).tid = true) (c : BitVec 8) :
    ∀ x ∈ s.ldkReads g a bs l, x.st.failure = some c ↔ s.startAccess g false x.size x.va = .trap c := by
  intro x hx
  simp only [State.ldkReads, State.kvReads, h, Bool.not_true, Bool.false_eq_true, if_false, List.mem_cons, List.not_mem_nil, or_false] at hx
  obtain rfl | rfl | rfl | rfl := hx
  all_goals exact State.kvRead_failure _ _ _ _ _ _ _ _

/-- The pair that a handle names, when nothing stands above it (11: R216). -/
theorem handlePair_eq {h : BitVec 64} (hlow : h.toNat < 2 ^ 24) : handlePair h = h.toNat / 2 ^ 16 := by
  rw [handlePair, BitVec.extractLsb'_toNat, Nat.shiftRight_eq_div_pow]
  omega

/-- The conditions on the handle and the tensor (11: R218 step 1), by the number of the handle. -/
theorem ldkFit_iff (h : BitVec 64) (tid : List Byte) : ldkFit h tid = true ↔
    h.toNat < 2 ^ 24 ∧ tidMalformed tid = false ∧ tidKind tid = 1 ∧ slantFormat (tidFormat tid) = true
      ∧ h.toNat / 2 ^ 8 % 256 < tidH tid ∧ 2 * (h.toNat / 2 ^ 16) + 1 < tidDh tid := by
  have hh := h.isLt
  have htop : h.extractLsb' 24 40 = 0 ↔ h.toNat < 2 ^ 24 := by
    have hzero : (0 : BitVec 40).toNat = 0 := rfl
    rw [extractLsb'_eq_iff, hzero]
    omega
  have hhead : handleHead h = h.toNat / 2 ^ 8 % 256 := by rw [handleHead, BitVec.extractLsb'_toNat, Nat.shiftRight_eq_div_pow]
  simp only [ldkFit, Bool.and_eq_true, beq_iff_eq, Bool.not_eq_true', decide_eq_true_eq, hhead, and_assoc]
  rw [htop]
  refine and_congr_right fun hlow => ?_
  rw [handlePair_eq hlow]

end

section

variable {s : State} {g g₀ : Group} {is : Issue} {gd : Guard} {d a : BitVec 6} {bs : BitVec 2} {la : BitVec 4} {ls : List Nat} {n : Nat}

/-! ## The issue of an LDK -/

theorem State.kvLanes_eq (s : State) (g : Group) (a : BitVec 6) (bs : BitVec 2) (ls : List Nat) :
    s.kvLanes g (g.rs (baseReg bs)) (ls.map fun l => (l, (g.rv a l).toNat)) = ls.map (s.ldkLane g a bs) := by
  rw [State.kvLanes, List.map_map]
  rfl

/-- The state that an LDK leaves but for its operation: its group stands as h, and the reads that fail in a window are noted (23: R386). -/
def State.ldkNoted (s : State) (g : Group) (is : Issue) (a : BitVec 6) (bs : BitVec 2) (ls : List Nat) (h : Group) : State :=
  (s.setGroup is.grp h).kvViolations g (ls.flatMap (s.ldkReads g a bs))

theorem exec_ldk_silent (hf : Fits s (.ldk gd d a bs la) is g₀) (hg : g₀.atIssue (.ldk gd d a bs la) is = g)
    (hls : lanesOf (g.passing gd is.mask) = ls) (hd : g.eff d = none) :
    exec (.ldk gd d a bs la) s =
      let h := g.placed is ls g.fl.nextSeq
      .next (if ls.isEmpty then s.ldkNoted g is a bs ls h else (s.ldkNoted g is a bs ls h).launchOp is.grp h (s.ldkOp g is a bs ls none)) := by
  obtain ⟨hissue, hgrp, hword, hroom, -⟩ := hf
  rw [Group.atIssue] at hg
  rw [exec_ldk, execLdk, State.runWord_ok hissue hgrp hword hroom, hg]
  simp only [hls, hd, State.kvLanes_eq, List.flatMap_map, State.setGroup_setGroup]
  rfl

theorem exec_ldk_opens {g' : Group} {slot : Nat} (hf : Fits s (.ldk gd d a bs la) is g₀) (hg : g₀.atIssue (.ldk gd d a bs la) is = g)
    (hls : lanesOf (g.passing gd is.mask) = ls) (hd : g.eff d = some n)
    (hopen : g.openPend false n 1 is.mask (g.passing gd is.mask) la = some (slot, g')) :
    exec (.ldk gd d a bs la) s =
      let h := g'.placed is ls g.fl.nextSeq
      .next ((s.ldkNoted g is a bs ls h).launchOp is.grp h (s.ldkOp g is a bs ls (some slot))) := by
  obtain ⟨hissue, hgrp, hword, hroom, -⟩ := hf
  rw [Group.atIssue] at hg
  rw [exec_ldk, execLdk, State.runWord_ok hissue hgrp hword hroom, hg]
  simp only [hls, hd, hopen, State.kvLanes_eq, List.flatMap_map, State.setGroup_setGroup]
  rfl

/-- The operation y is that of an LDK of lanes ls, once its reads have met the TLBs. -/
def State.LdkSends (s : State) (g : Group) (is : Issue) (a : BitVec 6) (bs : BitVec 2) (ls : List Nat) (pend : Option Nat) (y : MemOp) : Prop :=
  ∃ accs, y = (s.ldkOp g is a bs ls pend).launched g accs
    ∧ accs.map LaneAcc.issued = (s.ldkOp g is a bs ls pend).accs.map LaneAcc.issued

theorem State.ldkNoted_translated (s : State) (g : Group) (is : Issue) (a : BitVec 6) (bs : BitVec 2) (ls : List Nat) (h : Group) :
    Translated (s.setGroup is.grp h) (s.ldkNoted g is a bs ls h) := .kvViolations _ g _

/-- An LDK into vz, and one that leaves its register pending (07: R145). -/
theorem ldk_issued (hf : Fits s (.ldk gd d a bs la) is g₀) (hg : g₀.atIssue (.ldk gd d a bs la) is = g)
    (hls : lanesOf (g.passing gd is.mask) = ls) : ∃ t h o, exec (.ldk gd d a bs la) s = .next t ∧ Table.get? t.groups is.grp = some h
      ∧ MemIssued s t is g h (takes gd is g) o ∧ (∀ y, o = some y → ∃ pend, s.LdkSends g is a bs ls pend y)
      ∧ match g.eff d with
        | none => h.fl.pend = g.fl.pend ∧ (o = none ↔ ∀ l, l < 32 → takes gd is g l = false)
        | some n => ∃ x slot, o = some x ∧ x.pend = some slot ∧ Opens g h slot false n 1 is.mask (takes gd is g) la := by
  have hmask : ∀ l, l < 32 → has (g.passing gd is.mask) l = takes gd is g l := takes_ok gd is g
  have hnodup : ls.Nodup := hls ▸ lanesOf_nodup _
  have hlt (l : Nat) (hl : l ∈ ls) : l < 32 := ((mem_lanesOf _ l).mp (hls ▸ hl)).1
  have hwho (l : Nat) (hl : l < 32) : decide (l ∈ ls) = takes gd is g l := hls ▸ decide_mem_lanesOf hmask hl
  cases hd : g.eff d with
  | none =>
    obtain ⟨t, h, o, ht, hget, hissued, ho, hpend, hnone⟩ := State.silent_issued rfl (s.ldkNoted_translated g is a bs ls _) hnodup hlt hwho
      List.isEmpty_iff (s.ldkOp g is a bs ls none)
    exact ⟨t, h, o, (exec_ldk_silent hf hg hls hd).trans (congrArg Host.Outcome.next ht), hget, hissued,
      fun y hy => ⟨_, _, ho y hy, MemOp.tried_issued rfl _ _⟩, hpend, hnone⟩
  | some n =>
    have hdest : pendDest (.ldk gd d a bs la) g.regs.xi = some (false, n, 1) := by
      rw [pendDest_of_use (la := la) (d := d) (width := 1) (w := 1) (rd := false) rfl rfl, hd, Option.map_some]
    obtain ⟨hslot, hline⟩ : (freePend (g.clearLines 1).fl.pend).isSome = true ∧ (freeLines (g.clearLines 1).fl.pend 1).isSome = true := by
      have hroom : g.room (.ldk gd d a bs la) = true := hg ▸ hf.2.2.2.2
      rwa [Group.room, hdest, Bool.and_eq_true] at hroom
    obtain ⟨slot, ps, lt, hopen, hopens⟩ := Group.openPend_withPend (n := n) (set := is.mask) (la := la) hslot hline hmask
    obtain ⟨u, hu, hlaunch⟩ := State.launchOp_placed (g := g) (ps := ps) (lt := lt) (lanes := ls) rfl
      (s.ldkNoted_translated g is a bs ls _) (s.ldkOp g is a bs ls (some slot))
    exact ⟨_, _, _, (exec_ldk_opens hf hg hls hd hopen).trans (congrArg Host.Outcome.next hlaunch), Table.get?_set_self _ _ _,
      memIssued_placed hu (.refl _) hnodup hwho rfl, fun y hy => ⟨_, _, (Option.some.inj hy).symm, MemOp.tried_issued rfl _ _⟩,
      _, slot, rfl, rfl, hopens _ (Group.placed_pend (g.withPend ps lt) is ls g.fl.nextSeq)⟩

end

section

variable {s : State} {g : Group} {is : Issue} {a : BitVec 6} {bs : BitVec 2} {ls : List Nat} {l : Nat} {pend : Option Nat} {y : MemOp}

/-! ## What an LDK in flight holds -/

theorem State.LdkSends.fields (h : s.LdkSends g is a bs ls pend y) :
    y.seq = g.fl.nextSeq ∧ y.kind = .ldk ∧ y.base = g.rs (baseReg bs) ∧ y.kv = ls.map (s.ldkLane g a bs) := by
  obtain ⟨accs, rfl, -⟩ := h
  exact ⟨rfl, rfl, rfl, rfl⟩

theorem State.LdkSends.accs_fresh (h : s.LdkSends g is a bs ls pend y) : ∀ x ∈ y.accs, x.done = false ∧ x.lane ∈ ls := by
  obtain ⟨accs, rfl, haccs⟩ := h
  have hop : ∀ q ∈ (s.ldkOp g is a bs ls pend).accs.map LaneAcc.issued, q.1.done = false ∧ q.1.lane ∈ ls := by
    refine List.forall_mem_map.mpr fun x hx => ?_
    obtain ⟨l, hl, hxl⟩ := List.mem_flatMap.mp hx
    obtain ⟨hlane, hdone⟩ := s.ldkReads_fresh g a bs l x hxl
    exact ⟨hdone, show x.lane ∈ ls from hlane ▸ hl⟩
  rw [← haccs] at hop
  exact fun x hx => hop _ (List.mem_map_of_mem hx)

/-- A log entry is taken when a read is not translated (02: R55). -/
theorem State.LdkSends.log (h : s.LdkSends g is a bs ls pend y) :
    ((∃ x ∈ y.accs, x.st.known = false) → y.log = g.freeLogEntry) ∧ ((∀ x ∈ y.accs, x.st.known = true) → y.log = none) := by
  obtain ⟨accs, rfl, -⟩ := h
  refine ⟨fun ⟨x, hx, hst⟩ => if_pos (List.any_eq_true.mpr ⟨x, hx, by simp [hst]⟩), fun hall => if_neg ?_⟩
  rw [List.any_eq_true]
  exact fun ⟨x, hx, hst⟩ => by simp [hall x hx] at hst

theorem State.LdkSends.lane (h : s.LdkSends g is a bs ls pend y) (hls : ls.Nodup) (hl : l ∈ ls) :
    (y.accs.filter fun x => x.lane == l).map LaneAcc.issued = (s.ldkReads g a bs l).map LaneAcc.issued := by
  obtain ⟨accs, rfl, haccs⟩ := h
  exact State.ldkOp_lane hls hl haccs

/-- A lane that is not fit has failed with KVMAP (11: R218, R220). -/
theorem State.LdkSends.unfit (h : s.LdkSends g is a bs ls pend y) (hls : ls.Nodup) (hl : l ∈ ls)
    (hfit : ldkFit (g.rs (baseReg bs)) (s.ldkLane g a bs l).tid = false) :
    ∃ x, (y.accs.filter fun x => x.lane == l) = [x] ∧ x.st = .failed codeKvmap := by
  have hlane := h.lane hls hl
  rw [State.ldkReads_unfit hfit, List.map_singleton, List.map_eq_singleton_iff] at hlane
  obtain ⟨x, hx, hissued⟩ := hlane
  exact ⟨x, hx, (AccState.failure_eq_some_iff _ _).mp (congrArg Prod.snd hissued)⟩

/-- The reads of a fit lane are in flight, and one has failed when a check of its address traps (11: R218; log 78). -/
theorem State.LdkSends.fit (h : s.LdkSends g is a bs ls pend y) (hls : ls.Nodup) (hl : l ∈ ls)
    (hfit : ldkFit (g.rs (baseReg bs)) (s.ldkLane g a bs l).tid = true) :
    (y.accs.filter fun x => x.lane == l).map (fun x => (x.off, x.size, x.va)) = (s.ldkReads g a bs l).map (fun x => (x.off, x.size, x.va))
      ∧ ∀ x ∈ y.accs.filter (fun x => x.lane == l), ∀ c, x.st = .failed c ↔ s.startAccess g false x.size x.va = .trap c := by
  have hlane := h.lane hls hl
  have hplaces := congrArg (List.map fun q : LaneAcc × Option (BitVec 8) => (q.1.off, q.1.size, q.1.va)) hlane
  rw [List.map_map, List.map_map] at hplaces
  refine ⟨hplaces, fun x hx c => ?_⟩
  obtain ⟨r, hr, hissued⟩ := List.mem_map.mp (hlane ▸ List.mem_map_of_mem hx)
  have hsize : r.size = x.size := congrArg (fun q => q.1.size) hissued
  have hva : r.va = x.va := congrArg (fun q => q.1.va) hissued
  have hfailure : r.st.failure = x.st.failure := congrArg Prod.snd hissued
  rw [← AccState.failure_eq_some_iff, ← hfailure, State.ldkReads_failure hfit c r hr, hsize, hva]

end

theorem add_ofNat_eq (x : BitVec 64) (n : Nat) : x + BitVec.ofNat 64 n = BitVec.ofNat 64 (x.toNat + n) := by
  apply BitVec.eq_of_toNat_eq
  simp

theorem kvLoadIssue : Claims.KvLoadIssue := by
  intro gd d a bs la s is g₀ i hf g handle tid fit entry freq
  obtain ⟨ls, hdef⟩ : ∃ ls, lanesOf (g.passing gd is.mask) = ls := ⟨_, rfl⟩
  have hnodup : ls.Nodup := hdef ▸ lanesOf_nodup _
  have hls : ls = (List.range 32).filter (takes gd is g) := hdef ▸ lanesOf_eq_filter (takes_ok gd is g)
  obtain ⟨t, h, o, hexec, hget, hissued, ho, hpend⟩ := ldk_issued hf rfl hdef
  refine ⟨t, h, o, hexec, hget, hissued, fun y hy => ?_, hpend⟩
  obtain ⟨pend, hsends⟩ := ho y hy
  have htid (l : Nat) : (s.ldkLane g a bs l).tid = tid := by
    have hlow : handleTid handle = handle.toNat % 256 := BitVec.toNat_setWidth 8 handle
    rw [State.ldkLane, hlow]
  obtain ⟨hseq, hkind, hbase, hkv⟩ := hsends.fields
  refine ⟨hseq, hkind, hbase, ?_, fun x hx => ?_, hsends.log.1, hsends.log.2, fun l htakes hl => ?_⟩
  · rw [hkv, List.map_map, ← hls]
    exact List.map_congr_left fun l _ => congrArg (fun t => (l, (g.rv a l).toNat, t)) (htid l)
  · obtain ⟨hdone, hmem⟩ := hsends.accs_fresh x hx
    rw [hls, List.mem_filter] at hmem
    exact ⟨hdone, hmem.2⟩
  · have hmem : l ∈ ls := hls ▸ List.mem_filter.mpr ⟨List.mem_range.mpr hl, htakes⟩
    have hfit : ldkFit handle (s.ldkLane g a bs l).tid = true ↔ fit := by
      rw [htid]
      exact ldkFit_iff handle tid
    refine ⟨fun hno => hsends.unfit hnodup hmem (Bool.eq_false_iff.mpr (mt hfit.mp hno)), fun hyes => ?_⟩
    obtain ⟨hplaces, hfails⟩ := hsends.fit hnodup hmem (hfit.mpr hyes)
    have hentry : kvEntryAt tid (g.rv a l).toNat = entry l := add_ofNat_eq _ _
    have hfreq : tidAux tid + BitVec.ofNat 64 (4 * handlePair (g.rs (baseReg bs))) = freq := by
      rw [handlePair_eq hyes.1]
      exact add_ofNat_eq _ _
    refine ⟨hplaces.trans ((State.ldkReads_fit (hfit.mpr hyes)).trans ?_), hfails⟩
    dsimp only
    rw [htid, hentry, hfreq]

/-- Settles O27: an LDK's lanes each hold the reads that their handle and position give, and a probe's flags come from the leaves alone. -/
theorem kvLoadAndProbe : Obligations.KvLoadAndProbe := ⟨kvLoadIssue, probe⟩

end Sys2Proof.Machine

end
